-- ==== Sys2Proof/Word.lean ====
section
/-!
DEFINITION. The words of the part: bytes, 32-bit register words (R18), and the table type in which State
holds everything that is sparse (registers written, memory bytes, tasks, map entries ...).
-/
namespace Sys2Proof

/-- One byte. -/
abbrev Byte := BitVec 8

/-- One register word (R18: registers are 32 bits wide). -/
abbrev Word := BitVec 32

/-- Sparse data by key: a list of key and value pairs with strictly rising keys. -/
abbrev Tab (β : Type) := List (Nat × β)

end Sys2Proof
end

