-- ==== Sys2Proof/Syntax.lean ====
section
/-!
DEFINITION. The commands the block takes: one constructor of Instr per row of spec/opcode_table.json, with the
row's operands. What the environment alone decides (what the host's memory holds, whether a read of the media
fails, what a training or a load test found) is an operand of the command that reports it.
-/
namespace Sys2Proof

/-- Who makes an internal transaction: the master ID of Table 1.3 and, for an application core, its pod tag (R26). -/
structure Req where
  master : Nat
  pod : Nat
  deriving DecidableEq, Repr

/-- What a walk of the PRP list or SGL and the transfer over the link found (R304, Table 10.15). -/
inductive Xfer where
  | ok
  | dataShort
  | metaShort
  | prpOffset
  | badType
  | badSegment
  | hostError
  | atsFault
  deriving DecidableEq, Repr

/-- A host command as its submission entry gives it: pod, submission queue, identifier, namespace, command dwords
10-15, the bytes the command carries from host memory, and what its transfer found. -/
structure HostCmd where
  pod : Nat
  qid : Nat
  cid : Nat
  nsid : Nat
  cdw10 : Nat
  cdw11 : Nat
  cdw12 : Nat
  cdw13 : Nat
  cdw14 : Nat
  cdw15 : Nat
  data : List Byte
  xfer : Xfer
  deriving DecidableEq, Repr

/-- The raw error an array shows on a read, for the primary or for the mirror copy: none, or wrong bits. bits is the most that one word of the
code has, symbols the code symbols and devices the components the error touches in the line; the code decides what becomes of it (Table 12.2). -/
inductive CellErr where
  | none
  | wrong (bits symbols devices : Nat)
  deriving DecidableEq, Repr

/-- How the data unit of an extent reads after LDPC decoding (R234, R235): as it was written; with a header of one of its following frames that
fails its check; or, after decryption, as other bytes. -/
inductive UnitRead where
  | stored
  | header
  | bytes (b : List Byte)
  deriving DecidableEq, Repr

/-- How the read of an image copy or firmware slot ended: with data, with an error or no data in time after its header, or before
its header was read (R73). -/
inductive NorRead where
  | ok
  | failed
  | noHeader
  deriving DecidableEq, Repr

/-- An atomic operation at a memory region (R278): AMOs, load-reserve and store-conditional. -/
inductive Atomic where
  | swap
  | add
  | xor
  | and
  | or
  | min
  | max
  | minu
  | maxu
  | lr
  | sc
  deriving DecidableEq, Repr

/-- What the debug port does (R444, Table 14.3): a read or write of memory or registers, halting, running on or stepping a device
core, access to a register of it, and halting or running on a lockstep pair. -/
inductive DebugOp where
  | read (addr n : Nat)
  | write (addr : Nat) (data : List Byte)
  | haltCore (k : Nat)
  | runCore (k : Nat)
  | stepCore (k : Nat)
  | coreReg (k reg : Nat) (value : Option Nat)
  | haltPair (k : Nat)
  | runPair (k : Nat)
  deriving DecidableEq, Repr

/-- Levels of the pins the board and the host drive at a cold start (R498, R499). -/
structure Pins where
  claimEnN : Bool
  miSel : Bool
  miAddr1 : Bool
  miAddr0 : Bool
  bscanEnN : Bool
  perstA : Bool
  perstB : Bool
  deriving DecidableEq, Repr

/-- The parameters one die answers at discovery (Table 5.2), and what its training found. -/
structure DieReport where
  die : Nat
  answers : Bool
  pageOk : Bool
  iface : Nat
  bpc : Nat
  jedecId : Nat
  pageBytes : Nat
  spareBytes : Nat
  pages : Nat
  planes : Nat
  blocks : Nat
  tR : Nat
  tProg : Nat
  tBers : Nat
  endurance : Nat
  offStep : Nat
  rate : Nat
  extReported : Nat
  extPass : Nat
  rdEyeW : Nat
  wrEyeW : Nat
  rdEyeH : Nat
  wrEyeH : Nat
  vref : Nat
  temp : Int
  /-- Blocks that bear the die's factory mark (R210). -/
  bad : List Nat
  deriving DecidableEq, Repr

/-- What the training of a DRAM channel found (R383, R385): the rate code reached (0 for none), its module, and margins. -/
structure TrainReport where
  rate : Nat
  width8 : Bool
  ranks2 : Bool
  density : Nat
  rdEyeW : Nat
  wrEyeW : Nat
  rdEyeH : Nat
  wrEyeH : Nat
  tempC : Int
  deriving DecidableEq, Repr

/-- How the hard decode and the recovery of one frame went (R160-R162): iterations, corrections in each direction,
the Table 5.15 step that succeeded (5 for none), the retry set of step 2, the zero bits of the hard read, and whether the bus CRC also
failed. -/
structure FrameStat where
  n10 : Nat
  n01 : Nat
  iters : Nat
  step : Nat
  set : Nat
  zeros : Nat
  busCrc : Bool
  deriving DecidableEq, Repr

/-- How an array operation ended at the die (R149): its own success, the frames read, the die's temperature, the payload
or feature read, whether the other frames of a lost frame's stripe row decode (R187), whether the frames' headers pass R181, whether a retraining passed
(R148), and for a SWEEP the corrected bits of its nine reads of each threshold, none where a read failed (R170). -/
structure ArrayEnd where
  ok : Bool
  frames : List FrameStat
  tempC : Int
  data : List Byte
  rowOk : Bool
  hdrOk : Bool
  retrainOk : Bool
  sweep : List (Nat × List (Option Nat))
  deriving DecidableEq, Repr

/-- A member of the Askif group as a frame names it. -/
abbrev MemberId := Nat


/-- An Askif frame as it arrives (R456): port, whether its queue had room, the lengths its IPv6 and UDP headers give, whether
the UDP checksum is right, whether an extension header is present, the UDP port, the member of the IPv6 source address, and
the UDP payload. -/
structure AskFrame where
  port : Nat
  room : Bool
  ipLen : Nat
  udpLen : Nat
  sumOk : Bool
  ext : Bool
  udpPort : Nat
  via : MemberId
  bytes : List Byte
  deriving DecidableEq, Repr

/-- A namespace that FMF-5 media hold (R221): its identifier, LBAs and LBA format. -/
structure LegacyNs where
  nsid : Nat
  size : Nat
  format : Nat
  deriving DecidableEq, Repr

/-- A unit that a block summary of FMF-5 media lists (R221): where it lies, its LADDR and SEQ, and its plain bytes. -/
structure LegacyUnit where
  lun : Nat
  block : Nat
  frame : Nat
  laddr : Nat
  seq : Nat
  data : List Byte
  deriving DecidableEq, Repr

/-- Raw bits of the entropy source that a health test looks at (R131), oldest first: startUp for the start-up test at step 3. -/
structure RawBits where
  startUp : Bool
  raw : List Bool
  deriving DecidableEq, Repr

/-- A durable checkpoint (R195): the PFA of its root, and of each map page it wrote. -/
structure CkptReport where
  root : Nat
  pages : List (Nat × Nat)
  deriving DecidableEq, Repr

/-- How a pod command is given: the 64-byte block in the data of a Memory Write of pod 0 (R352), or the block's address written to
POD_CMD_HI by a master (R353). -/
inductive PodFrom where
  | host (c : HostCmd)
  | fw (r : Req) (addr : Nat)
  deriving DecidableEq, Repr
/-- The commands: one constructor per row of the table of operations. -/
inductive Instr where
  /-- REGISTER_WRITE (R23): A master writes a register that has no row of its own; the access check, lock, absence and reserved-offset rules decide whether it takes effect. -/
  | registerWrite (r : Req) (key w : Nat)
  /-- MEMORY_READ (R41): A master reads DRAM, shared SRAM, ledger memory or boot ROM; the access table, the code and the mirror decide the data or the bus error. -/
  | memoryRead (r : Req) (addr n : Nat) (pe ce : CellErr) (hot : Bool)
  /-- MEMORY_WRITE (R41): A master writes or performs an atomic on a memory region; once acknowledged without error, every later read sees it. -/
  | memoryWrite (r : Req) (addr : Nat) (d : List Byte) (f : Option Atomic) (hot : Bool)
  /-- BG_SHARE_WINDOW_END (R37): An accounting window of a shared resource ends; the shortfall carries to the next floor credit and MISSED or CAPPED count. -/
  | bgShareWindowEnd (n i : Nat)
  /-- HSF_WDOG_TIMEOUT (R55): An outstanding transaction reaches LIMIT and ends with HSTALL, recording the master and target and raising HSF_STALL. -/
  | hsfWdogTimeout (r : Req) (t : Nat) (write : Option (Nat × List Byte))
  /-- LATE_ACKNOWLEDGE (R58): An acknowledge arriving after HSTALL was returned is discarded by the master port. -/
  | lateAcknowledge (i : Nat) (performed : Bool)
  /-- SPEED_MONITOR_GATE (R60): A speed monitor ends its 10 µs gate, reports FACTOR and raises HSF_SPEED_LOW if more than 3 % low. -/
  | speedMonitorGate (n factor : Nat) (temp : Int)
  /-- HSF_PERT_SLOT_WRITE (R65): A write to a perturbation slot enables or changes it, or is discarded with HSF_PERTURB_DENIED. -/
  | hsfPertSlotWrite (r : Req) (n w : Nat)
  /-- HSF_PERT_PARAM_WRITE (R64): A write to a slot's parameters changes DELAY and DUTY for following acknowledges. -/
  | hsfPertParamWrite (r : Req) (n w : Nat)
  /-- PERTURB_HOLD_EXPIRY (R64): An acknowledge held by an active perturbation slot is released at the end of its hold. -/
  | perturbHoldExpiry
  /-- COLD_START (R79): The input rises through 35 V (t0) and the cold start runs its ROM steps to image application and MOD_READY. -/
  | coldStart (pins : Pins) (a b : NorRead) (vBank : Nat)
  /-- IDENTITY_KEY_READY (R97): PUF reconstruction and key derivation end, giving the identity key and media root or raising SGN_IDKEY_FAIL. -/
  | identityKeyReady (cause : Nat)
  /-- FIRMWARE_BOOT (R80): The boot ROM verifies the active or previous firmware slot, appends the BOOT entry and starts firmware, or enters the safe configuration. -/
  | firmwareBoot (ra rp : NorRead)
  /-- DRAM_TRAINING_COMPLETE (R383): Initial training of a DRAM channel ends at a rate or fences the channel. -/
  | dramTrainingComplete (c : Nat) (r : TrainReport)
  /-- FLASH_DISCOVERY_COMPLETE (R142): Discovery and training of a flash channel ends, excluding dies and setting the channel rate. -/
  | flashDiscoveryComplete (n : Nat) (dies : List DieReport)
  /-- MEMORY_INIT_COMPLETE (R81): Hardware fill or bitmap clearing of a DRAM channel or shared SRAM ends and its DONE bit sets. -/
  | memoryInitComplete (u : Nat)
  /-- MAP_RECOVERY_COMPLETE (R218): Map recovery by checkpoint, tail scan or full rebuild ends and the namespaces become ready. -/
  | mapRecoveryComplete (ms : Nat) (treeOk : Bool)
  /-- FW_SVN_FLOOR_RAISE (R114): On the first SYS_BOOT_DONE of a boot the ledger engine raises FW_SVN_FLOOR to the booted SVN. -/
  | fwSvnFloorRaise
  /-- NSSR_WRITE (R84): The host writes the NSSR value in pod 0's BAR0 and an NVM subsystem reset starts. -/
  | nssrWrite (value : Nat) (a b : NorRead)
  /-- PERST_ASSERT (R84): PERST_N of a port is asserted and the port, its function and bound pods are reset. -/
  | perstAssert (port : Nat)
  /-- PERST_DEASSERT (R82): PERST_N is released and the port starts link training once MOD_READY is high. -/
  | perstDeassert (port : Nat)
  /-- FUNCTION_LEVEL_RESET (R84): Initiate Function Level Reset resets the function and its pods. -/
  | functionLevelReset (port : Nat)
  /-- CONTROLLER_RESET (R84): CC.EN written from 1 to 0 resets one pod's controller. -/
  | controllerReset (p cc : Nat)
  /-- CONTROLLER_ENABLE (R83): CC.EN written to 1 starts the controller and sets CSTS.RDY in the chosen ready mode. -/
  | controllerEnable (p cc aqa asq acq : Nat)
  /-- SHUTDOWN_NOTIFICATION (R337): A normal or abrupt shutdown notification flushes the pod's writes and stops fetch. -/
  | shutdownNotification (p shn : Nat)
  /-- RESET_COMPLETE (R87): A pod, controller, FLR or PERST# reset is reported complete once its started writes are journalled. -/
  | resetComplete (kind subject : Nat)
  /-- SGN_SIGN (R99): A SIGN request is queued to sign a digest with the identity key. -/
  | sgnSign (r : Req) (addr : Nat)
  /-- SGN_VERIFY (R99): A VERIFY request is queued to check a signature against a public key. -/
  | sgnVerify (r : Req) (addr : Nat)
  /-- SGN_VERIFY_SLOT (R101): A VERIFY_SLOT request is queued to verify with the signer check and load the verification latch. -/
  | sgnVerifySlot (r : Req) (addr : Nat)
  /-- SGN_TOKEN (R127): A TOKEN request is queued to check a token by Table 4.25. -/
  | sgnToken (r : Req) (addr : Nat)
  /-- SGN_OP_COMPLETE (R100): The signing unit ends an operation and writes RESULT once. -/
  | sgnOpComplete (fault : Bool)
  /-- DIG_OPEN (R103): A master opens a digest context, taking the lowest free slot or BUSY. -/
  | digOpen (r : Req) (w : Nat)
  /-- DIG_CTX_CLOSE (R110): A write to a context's CLOSE frees its slot. -/
  | digCtxClose (r : Req) (c : Nat)
  /-- DIG_CTX_DATA (R105): The owner writes an 8-byte word into the context, waiting while its buffer is full. -/
  | digCtxData (r : Req) (c w : Nat)
  /-- DIG_CTX_LAST (R106): The owner writes the final word of 1-8 bytes. -/
  | digCtxLast (r : Req) (c w : Nat)
  /-- DIG_CTX_FINAL (R106): A write to FINAL ends the message and starts finalisation, or clears the context for misuse. -/
  | digCtxFinal (r : Req) (c w : Nat)
  /-- DIG_CTX_SRC_LEN (R107): A write of SRC_LEN starts an engine read of the source into the context. -/
  | digCtxSrcLen (r : Req) (c w : Nat)
  /-- DIG_ENGINE_READ (R108): Data of an engine read arrive for a context, or a bus error clears it with BUSERR. -/
  | digEngineRead (c : Nat)
  /-- DIG_PERMUTATION (R109): The Keccak core completes one permutation for a context in rotation, checked against the shadow core. -/
  | digPermutation (fault : Nat)
  /-- DIG_CMP_READ (R111): A read of CMP compares OUT with EXP by two comparators. -/
  | digCmpRead (r : Req) (c : Nat) (agree : Bool)
  /-- DIG_IDLE_TIMEOUT (R107): An open context receiving no write for IDLE_MS is cleared with cause IDLE. -/
  | digIdleTimeout (c : Nat)
  /-- DIG_CLEARED_EXPIRY (R110): A CLEARED context not closed within 1 ms becomes FREE. -/
  | digClearedExpiry (c : Nat)
  /-- LDG_APPEND_SUBMIT (R120): Firmware submits a PROGRAM or NOTE entry, checked against ring space and credit. -/
  | ldgAppendSubmit (r : Req) (w : Nat)
  /-- LEDGER_APPEND_COMMIT (R123): An append ends: after the signature, the LEDGER_STATE write makes the entry part of the ledger. -/
  | ledgerAppendCommit
  /-- LDG_ACTIVATE (R124): A write to LDG_ACTIVATE commits a verified slot through the ACTIVATE entry, FW_PREVIOUS and FW_ACTIVE. -/
  | ldgActivate (r : Req) (w : Nat)
  /-- LDG_ARCHIVED_ACK (R118): Firmware presents a read-back copy and ARCHIVED advances when its chain hash matches. -/
  | ldgArchivedAck (r : Req) (addr : Nat)
  /-- LDG_CREDIT_REGAIN (R120): Every 56.25 s of device time the firmware bucket regains one credit. -/
  | ldgCreditRegain
  /-- KEY_RNG_DATA_READ (R132): A read of KEY_RNG_DATA returns 32 bits from the general DRBG. -/
  | keyRngDataRead (r : Req)
  /-- KEY_RNG_HEALTH_FAIL (R133): An entropy health test fails; both DRBGs are uninstantiated and KEY_RNG_FAIL is raised. -/
  | keyRngHealthFail (bits : RawBits)
  /-- KEY_GENERATE (R134): KEY_NS_CMD GENERATE creates a key pair for an empty slot. -/
  | keyGenerate (r : Req) (slot : Nat)
  /-- KEY_REPLACE (R137): KEY_NS_CMD REPLACE crypto-erases one slot under its permit. -/
  | keyReplace (r : Req) (slot : Nat)
  /-- KEY_DESTROY (R441): KEY_NS_CMD DESTROY removes a slot's key under its permit. -/
  | keyDestroy (r : Req) (slot : Nat)
  /-- KEY_CRYPTO_ERASE_ALL (R137): KEY_NS_CMD CRYPTO_ERASE_ALL raises MEDIA_EPOCH and starts regenerating every key. -/
  | keyCryptoEraseAll (r : Req)
  /-- KEY_ERASE_ALL_COMPLETE (R137): Step 2 of a whole-device crypto erase ends with new keys or fails for lack of randomness. -/
  | keyEraseAllComplete
  /-- FCH_READ (R150): A READ descriptor is queued on its LUN or refused. -/
  | fchRead (r : Req) (n addr : Nat)
  /-- FCH_PROGRAM (R440): A PROGRAM descriptor is queued after the write-pointer and husk checks or refused. -/
  | fchProgram (r : Req) (n addr : Nat)
  /-- FCH_ERASE (R204): An ERASE descriptor is queued only for a reclaimable or unprogrammed block, else REFUSED. -/
  | fchErase (r : Req) (n addr : Nat)
  /-- FCH_SWEEP (R170): A SWEEP reads a page at nine offsets per threshold and sets the best offset. -/
  | fchSweep (r : Req) (n addr : Nat)
  /-- FCH_GET_FEATURE (R149): A GET_FEATURE descriptor reads a die feature. -/
  | fchGetFeature (r : Req) (n addr : Nat)
  /-- FCH_SET_FEATURE (R149): A SET_FEATURE descriptor writes a die feature. -/
  | fchSetFeature (r : Req) (n addr : Nat)
  /-- FCH_OP_COMPLETE (R149): An array operation ends; status bytes are written, credit returned and the next operation chosen. -/
  | fchOpComplete (i : Nat) (e : ArrayEnd)
  /-- FCH_ARRAY_TIMEOUT (R154): An array operation exceeds four times its typical time and fails with TIMEOUT, issuing RESET LUN. -/
  | fchArrayTimeout (i : Nat)
  /-- LUN_OFFLINE (R154): A LUN not ready 10 ms after RESET LUN goes offline and its queue is aborted. -/
  | lunOffline (i : Nat)
  /-- ERASE_RESUME (R153): After up to 300 µs of reads a suspended erase resumes. -/
  | eraseResume (i : Nat)
  /-- CREDIT_RESERVATION_TAKE (R157): An operation that has waited CREDIT_WAIT takes its group's reservation. -/
  | creditReservationTake (i : Nat)
  /-- CREDIT_WAIT_LONG (R157): A credit wait reaches 10 × CREDIT_WAIT and FCH_CHANNEL cause 5 is raised. -/
  | creditWaitLong (i : Nat)
  /-- DIE_RETRAIN_PERIODIC (R148): RETRAIN_H hours since a die's last training cause its retraining. -/
  | dieRetrainPeriodic (i : Nat) (ok : Bool) (tempC : Int)
  /-- LDPC_FRAME_DECODE (R160): The codec finishes a frame and reports its statistics to the read-level tracker. -/
  | ldpcFrameDecode (i : Nat) (f : FrameStat) (ok : Bool)
  /-- PATROL_PERIOD (R171): Every PERIOD_H hours under-read groups enter the patrol list and counts reset. -/
  | patrolPeriod
  /-- LDP_PATROL_NEXT_READ (R171): A read of LDP_PATROL_NEXT returns and removes one patrol entry. -/
  | ldpPatrolNextRead (r : Req)
  /-- LDP_ADVISE_NEXT_READ (R169): A read of LDP_ADVISE_NEXT returns and removes one advisory entry. -/
  | ldpAdviseNextRead (r : Req)
  /-- GRP_CREATE (R172): LDP_GRP_CMD CREATE makes a free group active in a mode. -/
  | grpCreate (r : Req) (w : Nat)
  /-- GRP_COPY (R172): LDP_GRP_CMD COPY activates a group with another group's mode and offsets. -/
  | grpCopy (r : Req) (w : Nat)
  /-- GRP_FREE (R172): LDP_GRP_CMD FREE frees a group. -/
  | grpFree (r : Req) (w : Nat)
  /-- GRP_READ (R172): LDP_GRP_CMD READ places a group's offsets and state in LDP_GRP_DATA. -/
  | grpRead (r : Req) (w : Nat)
  /-- GRP_WRITE (R172): LDP_GRP_CMD WRITE sets a group's offsets from LDP_GRP_DATA. -/
  | grpWrite (r : Req) (w : Nat)
  /-- FRAME_SEAL_TIMEOUT (R181): SEAL_US after its first extent an open frame is sealed. -/
  | frameSealTimeout (i : Nat)
  /-- JOURNAL_FLUSH_TIMEOUT (R194): FLUSH_US after its first record a journal frame is written. -/
  | journalFlushTimeout
  /-- JOURNAL_FRAME_DURABLE (R194): A journal frame's program succeeds; its records are durable and write-buffer entries are released. -/
  | journalFrameDurable (pfa : Nat)
  /-- CHECKPOINT_COMMIT (R195): A durable checkpoint root is committed by one MAP_CKPT write and old frames are released. -/
  | checkpointCommit (report : CkptReport)
  /-- GC_EXTENT_MOVE (R203): After a GC program succeeds the map entry is moved if unchanged and a MOVE record appended. -/
  | gcExtentMove (laddr old new : Nat) (lost : Bool)
  /-- FTL_GC_VICTIM (R202): A write to FTL_GC_VICTIM adds a superblock to the priority list. -/
  | ftlGcVictim (r : Req) (w : Nat)
  /-- NATIVE_GROUP_CREATE (R190): Every 24 h a new native block group is created on each LUN, merging the oldest when full. -/
  | nativeGroupCreate
  /-- COMPRESSION_UNIT_DONE (R224): A compression pipe finishes a map unit: verified, containerised, padded and encrypted, or RAW. -/
  | compressionUnitDone (p : Nat) (mismatch : Bool)
  /-- DECOMPRESS_EXTENT_DONE (R235): A decompression pipe finishes an extent and reports OK or an error result to the accelerators. -/
  | decompressExtentDone (n : Nat) (got : UnitRead) (rowOk : Bool)
  /-- CMP_CTX_OPEN (R238): A master opens a stream job context or gets BUSY. -/
  | cmpCtxOpen (r : Req) (w : Nat)
  /-- CMP_CTX_CLOSE (R238): The owner frees a stream context by handle. -/
  | cmpCtxClose (r : Req) (h : Nat)
  /-- CMP_JOB_SUBMIT (R240): A stream job is submitted and dispatched to a pipe or refused. -/
  | cmpJobSubmit (r : Req) (addr : Nat)
  /-- CMP_JOB_COMPLETE (R243): A stream job stops on output full, input used up, stream end or error and writes its status. -/
  | cmpJobComplete (p : Nat) (mismatch : Bool)
  /-- CMP_CTX_IDLE (R238): A context unnamed for IDLE_S is freed and CMP_JOB_ERROR cause 6 raised. -/
  | cmpCtxIdle (h : Nat)
  /-- SCN_SUBMIT (R261): A scan job is submitted, its rights and program checked, or refused. -/
  | scnSubmit (r : Req) (addr : Nat)
  /-- SCN_CANCEL (R270): A write to SCN_CANCEL_HI cancels a running scan job. -/
  | scnCancel (r : Req) (addr : Nat)
  /-- SCAN_UNIT_DONE (R272): A scan engine finishes a unit and its results wait in staging. -/
  | scanUnitDone (e : Nat)
  /-- TSK_SUBMIT (R283): A task descriptor is submitted and accepted into an entry or refused. -/
  | tskSubmit (r : Req) (addr : Nat)
  /-- TSK_FLAG_SET (R284): An event flag word sets a task flag and may make the task ready. -/
  | tskFlagSet (r : Req) (w : Nat)
  /-- TSK_CANCEL (R295): A write to TSK_CANCEL cancels a task or vine with the outcome of Table 9.9. -/
  | tskCancel (r : Req) (w : Nat)
  /-- TSK_CORE_TAKE (R290): A core's read of TSK_CORE_TAKE launches the slotted task and sets the pod tag. -/
  | tskCoreTake (r : Req) (k : Nat)
  /-- TSK_CORE_END (R291): The runtime ends its running task as done, failed, fault or cancelled. -/
  | tskCoreEnd (r : Req) (k w : Nat)
  /-- TASK_TIME_LIMIT (R291): TIME_LIMIT passes and the monitor ends the task as TIMEOUT. -/
  | taskTimeLimit (i : Nat)
  /-- CANCEL_GRACE_EXPIRY (R295): A cancelled running task not ended within CANCEL_GRACE is ended as CANCELLED. -/
  | cancelGraceExpiry (i : Nat)
  /-- AFF_WINDOW_EXPIRY (R288): AFF_WINDOW after readiness a task becomes eligible on any core of its affinity. -/
  | affWindowExpiry (i : Nat)
  /-- TSK_QUERY (R285): A write to TSK_QUERY latches a task's state for the writing master. -/
  | tskQuery (r : Req) (i : Nat)
  /-- TSK_PROG_LOAD (R298): TSK_PROG_CMD LOAD makes a verified program image a LOADED handle. -/
  | tskProgLoad (r : Req) (w : Nat)
  /-- TSK_PROG_UNLOAD (R299): TSK_PROG_CMD UNLOAD makes a handle UNLOADING until its last task is released. -/
  | tskProgUnload (r : Req) (w : Nat)
  /-- TSK_CORE_ONLINE (R292): A write of TSK_CORE_CTRL.ONLINE puts a core in or out of service. -/
  | tskCoreOnline (r : Req) (k w : Nat)
  /-- LINK_UP (R305): A PCIe port completes training and estimates its channel. -/
  | linkUp (p speed width : Nat) (flit : Bool) (preset loss refl : Nat)
  /-- LINK_DOWN (R306): A PCIe link goes down or trains down; its pods stop and CSTS.CFS sets. -/
  | linkDown (p : Nat)
  /-- ATS_INVALIDATE (R304): A host ATS invalidation completes after DMAs using the old translation are acknowledged. -/
  | atsInvalidate (p tag : Nat)
  /-- SQ_TAIL_DOORBELL (R315): A submission queue tail doorbell write is recorded or discarded as invalid. -/
  | sqTailDoorbell (p q v : Nat)
  /-- CQ_HEAD_DOORBELL (R315): A completion queue head doorbell write frees entries or is discarded as invalid. -/
  | cqHeadDoorbell (p q v : Nat)
  /-- COMMAND_FETCH (R311): The front end chooses a pod and queue and fetches the next command. -/
  | commandFetch (cid bytes : Nat) (ok : Bool)
  /-- HELD_ENTRY_ADMIT (R360): A fetched entry held for rate tokens or lock quota is admitted. -/
  | heldEntryAdmit (pod qid cid : Nat)
  /-- LOCK_GRANT (R316): A range lock request is granted when no earlier overlapping request conflicts. -/
  | lockGrant
  /-- COMPLETION_POST (R314): A completion is posted to its queue once the queue has room. -/
  | completionPost (p q : Nat) (ok : Bool)
  /-- HOST_DATA_PULLED (R327): All data of a write have arrived and passed protection checks and its entries commit. -/
  | hostDataPulled (pod qid cid : Nat)
  /-- WRITE_BUFFER_ADMIT (R31): A write waiting on the dirty limit is admitted to the write buffer. -/
  | writeBufferAdmit (pod qid cid : Nat)
  /-- WRITE_RATE_ADMIT (R429): A write waiting on the write-rate bucket is admitted. -/
  | writeRateAdmit (pod qid cid : Nat)
  /-- NVM_FLUSH_COMPLETE (R336): A Flush completes once every covered write has reached step 8. -/
  | nvmFlushComplete
  /-- DELETE_IO_SQ (R320): Delete I/O Submission Queue. -/
  | deleteIoSq (c : HostCmd)
  /-- DELETE_IO_CQ (R320): Delete I/O Completion Queue. -/
  | deleteIoCq (c : HostCmd)
  /-- CREATE_IO_SQ (R311): Create I/O Submission Queue with its priority class. -/
  | createIoSq (c : HostCmd)
  /-- CREATE_IO_CQ (R310): Create I/O Completion Queue. -/
  | createIoCq (c : HostCmd)
  /-- IDENTIFY (R320): Identify returns controller or namespace data for the pod. -/
  | identify (c : HostCmd)
  /-- ABORT (R322): Abort removes an unstarted command or cancels a started Execute Program. -/
  | abort (c : HostCmd)
  /-- GET_FEATURES (R346): Get Features returns a supported feature's value. -/
  | getFeatures (c : HostCmd)
  /-- SET_ARBITRATION (R311): Set Features Arbitration sets AB and class weights. -/
  | setArbitration (c : HostCmd)
  /-- SET_POWER_MANAGEMENT (R346): Set Features Power Management selects PS0. -/
  | setPowerManagement (c : HostCmd)
  /-- SET_TEMPERATURE_THRESHOLD (R345): Set Features Temperature Threshold sets a threshold. -/
  | setTemperatureThreshold (c : HostCmd)
  /-- SET_VOLATILE_WRITE_CACHE (R346): Set Features Volatile Write Cache; WCE 0 fails. -/
  | setVolatileWriteCache (c : HostCmd)
  /-- SET_NUMBER_OF_QUEUES (R346): Set Features Number of Queues within the pod envelope. -/
  | setNumberOfQueues (c : HostCmd)
  /-- SET_INTERRUPT_COALESCING (R346): Set Features Interrupt Coalescing for the pod. -/
  | setInterruptCoalescing (c : HostCmd)
  /-- SET_INTERRUPT_VECTOR_CONFIG (R346): Set Features Interrupt Vector Configuration for the pod. -/
  | setInterruptVectorConfig (c : HostCmd)
  /-- SET_WRITE_ATOMICITY (R346): Set Features Write Atomicity Normal, DN 0 only. -/
  | setWriteAtomicity (c : HostCmd)
  /-- SET_ASYNC_EVENT_CONFIG (R346): Set Features Asynchronous Event Configuration for the pod. -/
  | setAsyncEventConfig (c : HostCmd)
  /-- SET_TIMESTAMP (R347): Pod 0 moves device time forward or holds an offset. -/
  | setTimestamp (c : HostCmd)
  /-- ASYNC_EVENT_REQUEST (R492): An Asynchronous Event Request is held until a notice completes it. -/
  | asyncEventRequest (c : HostCmd)
  /-- LOG_ERROR_INFORMATION (R344): Get Log Page Error Information. -/
  | logErrorInformation (c : HostCmd)
  /-- LOG_SMART_HEALTH (R345): Get Log Page SMART/Health. -/
  | logSmartHealth (c : HostCmd)
  /-- LOG_FIRMWARE_SLOT (R344): Get Log Page Firmware Slot. -/
  | logFirmwareSlot (c : HostCmd)
  /-- LOG_COMMANDS_SUPPORTED (R344): Get Log Page Commands Supported and Effects. -/
  | logCommandsSupported (c : HostCmd)
  /-- LOG_DEVICE_SELF_TEST (R344): Get Log Page Device Self-test. -/
  | logDeviceSelfTest (c : HostCmd)
  /-- LOG_TELEMETRY_HOST_INITIATED (R493): Get Log Page Telemetry Host-Initiated, capturing new data when asked. -/
  | logTelemetryHostInitiated (c : HostCmd)
  /-- LOG_SANITIZE_STATUS (R217): Get Log Page Sanitize Status. -/
  | logSanitizeStatus (c : HostCmd)
  /-- LOG_LEDGER_STATUS (R129): Get Log Page Ledger Status. -/
  | logLedgerStatus (c : HostCmd)
  /-- LOG_IDENTITY (R129): Get Log Page Identity with the certificate. -/
  | logIdentity (c : HostCmd)
  /-- NAMESPACE_CREATE (R334): Namespace Management creates a namespace with its map unit and key. -/
  | namespaceCreate (c : HostCmd)
  /-- NAMESPACE_DELETE (R215): Namespace Management deletes a namespace after quiescing it. -/
  | namespaceDelete (c : HostCmd)
  /-- NAMESPACE_ATTACH (R320): Namespace Attachment attaches a namespace to a pod. -/
  | namespaceAttach (c : HostCmd)
  /-- NAMESPACE_DETACH (R320): Namespace Attachment detaches a namespace from a pod. -/
  | namespaceDetach (c : HostCmd)
  /-- FORMAT_NVM_NO_SES (R335): Format NVM with SES 0 deallocates every unit. -/
  | formatNvmNoSes (c : HostCmd)
  /-- FORMAT_NVM_USER_ERASE (R335): Format NVM with SES 1 replaces the key and deallocates. -/
  | formatNvmUserErase (c : HostCmd)
  /-- FORMAT_NVM_CRYPTO_ERASE (R335): Format NVM with SES 2 replaces the key and deallocates. -/
  | formatNvmCryptoErase (c : HostCmd)
  /-- SANITIZE_BLOCK_ERASE (R217): Sanitize Block Erase starts the phases of Table 6.12. -/
  | sanitizeBlockErase (c : HostCmd)
  /-- SANITIZE_CRYPTO_ERASE (R217): Sanitize Crypto Erase starts the phases without block erase. -/
  | sanitizeCryptoErase (c : HostCmd)
  /-- SANITIZE_EXIT_FAILURE (R216): Sanitize Exit Failure Mode leaves the FAILED phase. -/
  | sanitizeExitFailure (c : HostCmd)
  /-- SANITIZE_OVERWRITE (R216): Sanitize Overwrite fails with Invalid Field in Command. -/
  | sanitizeOverwrite (c : HostCmd)
  /-- SANITIZE_PHASE_DONE (R217): A sanitize phase ends and SANITIZE_STATE advances or the sanitize completes. -/
  | sanitizePhaseDone
  /-- FIRMWARE_IMAGE_DOWNLOAD (R338): Firmware Image Download stages data in 4 KiB multiples. -/
  | firmwareImageDownload (c : HostCmd)
  /-- FW_COMMIT_REPLACE (R339): Firmware Commit CA 000b checks the staged image and writes the slot. -/
  | fwCommitReplace (c : HostCmd)
  /-- FW_COMMIT_REPLACE_ACTIVATE (R339): Firmware Commit CA 001b writes the slot and commits it for the next reset. -/
  | fwCommitReplaceActivate (c : HostCmd)
  /-- FW_COMMIT_ACTIVATE (R339): Firmware Commit CA 010b commits an existing slot for the next reset. -/
  | fwCommitActivate (c : HostCmd)
  /-- FW_COMMIT_ACTIVATE_NOW (R340): Firmware Commit CA 011b activates without reset by the steps of Table 10.17. -/
  | fwCommitActivateNow (c : HostCmd)
  /-- FW_ACTIVATE_TIMEOUT (R340): Step 3 of activation exceeds its bound and the activation is abandoned. -/
  | fwActivateTimeout
  /-- FW_ACTIVATE_DRAIN_DONE (R340): Started commands complete and the ledger commit and handover proceed. -/
  | fwActivateDrainDone
  /-- DEVICE_SELF_TEST_SHORT (R342): Device Self-test starts a short test. -/
  | deviceSelfTestShort (c : HostCmd)
  /-- DEVICE_SELF_TEST_EXTENDED (R342): Device Self-test starts an extended test. -/
  | deviceSelfTestExtended (c : HostCmd)
  /-- DEVICE_SELF_TEST_ABORT (R343): Device Self-test with STC 0xF aborts the running test. -/
  | deviceSelfTestAbort (c : HostCmd)
  /-- SELF_TEST_END (R343): A self-test ends with its result code. -/
  | selfTestEnd (seg : Nat)
  /-- ATTESTATION_QUOTE (R130): Attestation Quote returns a signed quote. -/
  | attestationQuote (c : HostCmd)
  /-- TOKEN_NONCE (R126): Token Nonce replaces and returns path 0's nonce. -/
  | tokenNonce (c : HostCmd)
  /-- TOKEN_SUBMIT (R127): Token Submit relays a token to the signing unit. -/
  | tokenSubmit (c : HostCmd)
  /-- LEDGER_READ (R129): Ledger Read returns entries from the ring or archive. -/
  | ledgerRead (c : HostCmd)
  /-- LEGACY_MOUNT (R221): Legacy Mount rewraps FMF-5 keys and rebuilds the map from legacy media. -/
  | legacyMount (c : HostCmd) (codeOk keyOk : Bool) (nss : List LegacyNs) (units : List LegacyUnit)
  /-- CONFIG_IMAGE_DOWNLOAD (R341): Configuration Image Download stages an image. -/
  | configImageDownload (c : HostCmd)
  /-- CONFIG_IMAGE_COMMIT (R341): Configuration Image Commit checks and writes the unused copy. -/
  | configImageCommit (c : HostCmd)
  /-- ASKIF_KEY_INSTALL_RX (R455): Askif Group Key INSTALL_RX replaces the inactive secret. -/
  | askifKeyInstallRx (c : HostCmd)
  /-- ASKIF_KEY_ACTIVATE (R455): Askif Group Key ACTIVATE makes a held epoch active. -/
  | askifKeyActivate (c : HostCmd)
  /-- ASKIF_KEY_REMOVE (R455): Askif Group Key REMOVE drops an inactive epoch. -/
  | askifKeyRemove (c : HostCmd)
  /-- SPREAD_ADOPT (R471): Spread Control ADOPT proposes a new home epoch. -/
  | spreadAdopt (c : HostCmd)
  /-- SPREAD_RELEASE (R471): Spread Control RELEASE stops service on this home. -/
  | spreadRelease (c : HostCmd)
  /-- SPREAD_REPLACE (R471): Spread Control REPLACE starts rebuilding onto a named member. -/
  | spreadReplace (c : HostCmd)
  /-- NVM_FLUSH (R336): Flush covers every completed write fetched before it. -/
  | nvmFlush (c : HostCmd)
  /-- NVM_WRITE (R30): Write takes an exclusive lock and enters the write path. -/
  | nvmWrite (c : HostCmd)
  /-- NVM_READ (R32): Read takes a shared lock and enters the read path. -/
  | nvmRead (c : HostCmd)
  /-- WRITE_UNCORRECTABLE (R321): Write Uncorrectable marks units unrecoverable. -/
  | writeUncorrectable (c : HostCmd)
  /-- COMPARE (R321): Compare reads and compares data. -/
  | compare (c : HostCmd)
  /-- WRITE_ZEROES (R215): Write Zeroes sets ZERO or deallocates with DEAC. -/
  | writeZeroes (c : HostCmd)
  /-- DATASET_MANAGEMENT (R215): Dataset Management with Deallocate deallocates ranges. -/
  | datasetManagement (c : HostCmd)
  /-- VERIFY (R321): Verify reads and checks data without transfer. -/
  | verify (c : HostCmd)
  /-- EXECUTE_PROGRAM (R323): Execute Program runs a scan or submits a program task. -/
  | executeProgram (c : HostCmd)
  /-- LOAD_PROGRAM (R323): Load Program loads a scan program or program image. -/
  | loadProgram (c : HostCmd)
  /-- UNLOAD_PROGRAM (R299): Unload Program unloads a handle. -/
  | unloadProgram (c : HostCmd)
  /-- PROGRAM_ACTIVATION_MANAGEMENT (R321): Program Activation Management of the Computational Programs set. -/
  | programActivationManagement (c : HostCmd)
  /-- MEMORY_RANGE_SET_MANAGEMENT (R321): Memory Range Set Management creates or removes a range set. -/
  | memoryRangeSetManagement (c : HostCmd)
  /-- SLM_MEMORY_READ (R321): Memory Read from a Subsystem Local Memory namespace. -/
  | slmMemoryRead (c : HostCmd)
  /-- SLM_MEMORY_WRITE (R321): Memory Write to a Subsystem Local Memory namespace. -/
  | slmMemoryWrite (c : HostCmd)
  /-- SLM_MEMORY_COPY (R321): Memory Copy within Subsystem Local Memory. -/
  | slmMemoryCopy (c : HostCmd)
  /-- POD_CREATE (R353): Pod command CREATE makes a FREE pod STOPPED in a class. -/
  | podCreate (f : PodFrom)
  /-- POD_SET (R353): Pod command SET replaces selected entry words as one. -/
  | podSet (f : PodFrom)
  /-- POD_BIND (R355): Pod command BIND binds a pod to a port and PASID. -/
  | podBind (f : PodFrom)
  /-- POD_UNBIND (R353): Pod command UNBIND unbinds a QUIESCED pod. -/
  | podUnbind (f : PodFrom)
  /-- POD_QUIESCE (R361): Pod command QUIESCE stops fetch and drains the pod. -/
  | podQuiesce (f : PodFrom)
  /-- POD_GRACE_EXPIRY (R361): GRACE_MS after quiesce the pod's scans and tasks are cancelled. -/
  | podGraceExpiry (p : Nat)
  /-- POD_QUIESCE_COMPLETE (R361): The pod's work has drained and its writes are durable; it becomes QUIESCED. -/
  | podQuiesceComplete (p : Nat)
  /-- POD_RESUME (R361): Pod command RESUME applies held writes and completions and restarts fetch. -/
  | podResume (f : PodFrom)
  /-- POD_RESET (R362): Pod command RESET performs reset kind 7. -/
  | podReset (f : PodFrom)
  /-- POD_REMOVE (R362): Pod command REMOVE resets, detaches, unloads, releases and frees the pod. -/
  | podRemove (f : PodFrom)
  /-- POD_MEM (R356): Pod command MEM sets, grows, shrinks or releases a memory range. -/
  | podMem (f : PodFrom)
  /-- POD_SAVE (R364): Pod command SAVE writes the saved state into pod 0's memory. -/
  | podSave (f : PodFrom)
  /-- POD_RESTORE (R365): Pod command RESTORE checks and applies a saved state. -/
  | podRestore (f : PodFrom)
  /-- POD_IMS (R366): Pod command IMS writes an interrupt message entry, sending a pending message on unmask. -/
  | podIms (f : PodFrom)
  /-- DRAM_REFRESH (R380): tREFI expires and a same-bank refresh is issued. -/
  | dramRefresh (c rank : Nat)
  /-- DRAM_MR4_POLL (R380): Every 1 ms MR4 is read, halving tREFI or limiting activations when hot. -/
  | dramMr4Poll (c rank : Nat) (hot above : Bool) (temp : Int)
  /-- DISTURB_WINDOW_END (R382): A refresh window ends, resetting counts and lifting an expired throttle. -/
  | disturbWindowEnd (c : Nat)
  /-- DRAM_OSC_READ (R384): Every OSC_MS the DQS oscillator is read and a training burst runs on drift. -/
  | dramOscRead (c drift : Nat) (ok : Bool)
  /-- DRAM_RETRAIN_PERIODIC (R384): A temperature change or RETRAIN_H starts a full retraining. -/
  | dramRetrainPeriodic (c : Nat)
  /-- DRAM_RETRAIN_DONE (R385): A full retraining ends, passing or leaving the channel DEGRADED. -/
  | dramRetrainDone (c : Nat) (ok : Bool) (r : TrainReport)
  /-- DRAM_DEGRADED_RETRY (R385): Every 10 minutes a DEGRADED channel retries full retraining. -/
  | dramDegradedRetry (c : Nat)
  /-- DRAM_SR_ENTRY (R388): SR_IDLE of idleness enters SELF_REFRESH unless a request is present. -/
  | dramSrEntry (c : Nat) (present : Bool)
  /-- DRAM_DEEP_SR_ENTRY (R388): DEEP_MS in self-refresh enters DEEP_SELF_REFRESH. -/
  | dramDeepSrEntry (c : Nat)
  /-- DRAM_SR_EXIT (R389): A request wakes a self-refreshing channel after residency and exit. -/
  | dramSrExit (c drift : Nat) (ok : Bool)
  /-- SCRUB_STEP (R393): The scrubber reads the next line and writes back a corrected one. -/
  | scrubStep (m : Nat) (pe ce : CellErr)
  /-- BUCKET_LEAK (R397): A leak interval lowers error and fence buckets and may restore health. -/
  | bucketLeak
  /-- MPR_INJ_CTRL_WRITE (R400): A write to MPR_INJ_CTRL arms an error, applied at once with IMMEDIATE, or is refused. -/
  | mprInjCtrlWrite (r : Req) (w : Nat)
  /-- POWER_FAIL (R403): Undervoltage, overvoltage or reverse current declares a power fail and the sequence of Table 13.18 runs. -/
  | powerFail (above : Bool) (vin : Nat)
  /-- POWER_FAIL_FLUSH_DONE (R420): The flush of step 4 ends, the rate is recorded and rails except L11 switch off. -/
  | powerFailFlushDone (ns : Nat)
  /-- HOLDUP_CUTOFF (R420): The bank reaches v_c before the flush ends and rails switch off at once. -/
  | holdupCutoff (ns n : Nat)
  /-- POWER_RETURN_RESTART (R403): Input returned during a completed sequence; after 100 ms a cold start begins. -/
  | powerReturnRestart (vin : Nat) (pins : Pins) (a b : NorRead) (vBank : Nat)
  /-- INPUT_CURRENT_LIMIT (R404): The input stage enters constant-current limiting. -/
  | inputCurrentLimit (vin iin : Nat)
  /-- CURRENT_LIMIT_TIMEOUT (R404): 50 ms of current limiting with a low bus declares a power fail. -/
  | currentLimitTimeout (vin : Nat)
  /-- LOOP_SAMPLE (R406): A converter loop takes a sample and updates its duty and model. -/
  | loopSample (n : Nat) (v : Int) (vIn i : Nat) (steady : Bool)
  /-- LOOP_FAULT_RETRY (R408): 10 ms after an ACTION 0 fault the loop retries soft-start. -/
  | loopFaultRetry (n : Nat)
  /-- TARGET_RAMP_STEP (R405): A rail target steps toward its target or ceiling. -/
  | targetRampStep
  /-- CLE_TARGET_WRITE (R422): A write to CLE_Ln_TARGET sets a target, clamped to the ceiling. -/
  | cleTargetWrite (r : Req) (n w : Nat)
  /-- CLE_COEF_WRITE (R406): A write of COEF_5 applies the coefficient set at the next sample. -/
  | cleCoefWrite (r : Req) (n w : Nat)
  /-- PWR_DOMAIN_REQUEST (R410): A write to PWR_DOM_REQ requests domains on or off, refusing disallowed changes. -/
  | pwrDomainRequest (r : Req) (hi : Bool) (w : Nat)
  /-- DOMAIN_POWER_UP_DONE (R412): A domain finishes powering up and its STAT bit reads 1. -/
  | domainPowerUpDone (d : Nat)
  /-- DOMAIN_ISOLATE (R412): A domain is isolated once transactions granted before the switch-off are acknowledged. -/
  | domainIsolate (d : Nat)
  /-- FPG_SET (R414): Setting a PWR_FPG_CTRL bit starts the group's load test. -/
  | fpgSet (r : Req) (w : Nat)
  /-- FPG_CLEAR (R415): Clearing a PWR_FPG_CTRL bit stops the credit gate and drains the group. -/
  | fpgClear (r : Req) (w : Nat)
  /-- FPG_LOAD_TEST_DONE (R414): The load test ends and the group comes ON or faults. -/
  | fpgLoadTestDone (g ohm10 pkg : Nat)
  /-- FPG_DRAIN_DONE (R415): A draining group's current reaches zero and its switches open. -/
  | fpgDrainDone (g : Nat)
  /-- FPG_OVERCURRENT (R415): Group current above 1.5 × BUDGET for 10 µs opens its switches. -/
  | fpgOvercurrent (g i : Nat)
  /-- BANK_MEASURE_PERIODIC (R418): 24 h after the last measurement the bank is measured again by method 2. -/
  | bankMeasurePeriodic
  /-- BANK_MEASURE_DONE (R418): A bank measurement ends with C and ESR, or finds the bank absent. -/
  | bankMeasureDone (rose : Bool) (us fall stepUv v : Nat)
  /-- DIRTY_LIMIT_RECOMPUTE (R419): Every 1 ms the power unit recomputes the dirty limit. -/
  | dirtyLimitRecompute (v : Nat)
  /-- GOVERNOR_POWER_STEP (R422): Every 10 ms the governor lowers or raises the ceiling by controller power. -/
  | governorPowerStep (mw : Nat)
  /-- INPUT_POWER_STEP (R428): The governor lowers or restores cob ceilings and group budgets by input power. -/
  | inputPowerStep (mw vin iin : Nat) (lim : Bool)
  /-- SURGE_REQUEST (R423): A write of PWR_GOV_REQ.SURGE requests or ends surge. -/
  | surgeRequest (r : Req) (w : Nat)
  /-- SURGE_BUDGET_EXPIRY (R423): The remaining surge budget reaches the step-down time and surge ends. -/
  | surgeBudgetExpiry
  /-- THERMAL_SENSOR_REPORT (R424): The sensors report; the junction drives surge, governor and trips of Table 13.19. -/
  | thermalSensorReport (temps : List Int)
  /-- THERMAL_COMPARATOR_TRIP (R425): The 125 °C comparator switches off every rail but L11 at once. -/
  | thermalComparatorTrip (sensor n : Nat)
  /-- THERMAL_RESTART (R426): 10 s below T_RESTART after a trip performs an NVM subsystem reset. -/
  | thermalRestart (a b : NorRead)
  /-- HEARTBEAT_BEAT (R445): A pair writes its heartbeat register; an accepted beat renews its deadline. -/
  | heartbeatBeat (r : Req) (k w : Nat)
  /-- HEARTBEAT_HALF_PERIOD (R445): Half of PERIOD_MS without a beat raises HSK_HB cause 1. -/
  | heartbeatHalfPeriod (k : Nat)
  /-- WATCHDOG_EXPIRY (R446): A pair's deadline passes and the safe state and watchdog reset follow. -/
  | watchdogExpiry (k : Nat)
  /-- EXPIRIES_CLEAR (R447): 1 h without expiry returns EXPIRIES to 0. -/
  | expiriesClear
  /-- DEBUG_PORT_ACCESS (R444): The debug port makes an access within its level. -/
  | debugPortAccess (op : DebugOp)
  /-- JTAG_BYPASS (R501): IEEE 1149.1 BYPASS. -/
  | jtagBypass
  /-- JTAG_IDCODE (R501): IEEE 1149.1 IDCODE. -/
  | jtagIdcode
  /-- JTAG_SAMPLE_PRELOAD (R501): IEEE 1149.1 SAMPLE/PRELOAD. -/
  | jtagSamplePreload
  /-- JTAG_EXTEST (R501): IEEE 1149.1 EXTEST when BSCAN_EN_N was low, else BYPASS. -/
  | jtagExtest
  /-- JTAG_CLAMP (R501): IEEE 1149.1 CLAMP when BSCAN_EN_N was low, else BYPASS. -/
  | jtagClamp
  /-- JTAG_HIGHZ (R501): IEEE 1149.1 HIGHZ when BSCAN_EN_N was low, else BYPASS. -/
  | jtagHighz
  /-- ASK_LINK_UP (R451): An Askif port trains and reports its channel estimate. -/
  | askLinkUp (p type loss : Nat)
  /-- ASK_LINK_DOWN (R451): An Askif port loses its link. -/
  | askLinkDown (p : Nat)
  /-- HEARTBEAT (R459): A HEARTBEAT frame from a monitored member is received. -/
  | heartbeat (f : AskFrame)
  /-- ACCUSE (R461): An ACCUSE frame is merged into the suspect entry and may endorse or declare. -/
  | accuse (f : AskFrame)
  /-- ALIVE (R460): An ALIVE frame refutes an accusation with a higher incarnation. -/
  | alive (f : AskFrame)
  /-- DECLARE (R462): A DECLARE frame with a majority declares its subject FAILED. -/
  | declare (f : AskFrame)
  /-- JOIN (R460): A JOIN frame makes a member ALIVE under a higher incarnation. -/
  | join (f : AskFrame)
  /-- LEAVE (R463): A LEAVE frame records the member LEFT. -/
  | leave (f : AskFrame)
  /-- CHUNK_WRITE (R468): A CHUNK_WRITE applies a new chunk version and is acknowledged once durable. -/
  | chunkWrite (f : AskFrame)
  /-- PARITY_DELTA (R468): A PARITY_DELTA updates a parity chunk and is acknowledged once durable. -/
  | parityDelta (f : AskFrame)
  /-- CHUNK_READ (R469): A CHUNK_READ is answered with CHUNK_DATA. -/
  | chunkRead (f : AskFrame)
  /-- CHUNK_DATA (R469): A CHUNK_DATA answer arrives at the home for a read or decode. -/
  | chunkData (f : AskFrame)
  /-- ACK (R468): An ACK arrives for a data frame; completion or rollback follows. -/
  | ack (f : AskFrame)
  /-- CONFIRM (R468): A CONFIRM lets members discard previous chunk versions. -/
  | confirm (f : AskFrame)
  /-- NS_DESC (R465): An NS_DESC carries a spread descriptor, key or rebuild progress. -/
  | nsDesc (f : AskFrame)
  /-- ADOPT (R471): An ADOPT proposal is accepted once per home epoch value. -/
  | adopt (f : AskFrame)
  /-- HEARTBEAT_SEND (R459): Every HB a member sends HEARTBEAT to its monitors. -/
  | heartbeatSend
  /-- MEMBER_MISS_TIMEOUT (R459): MISS × HB without a frame makes a monitor accuse the member. -/
  | memberMissTimeout (m : Nat)
  /-- GOSSIP_MERGE_FLUSH (R459): At the end of GOSSIP the merged changes of a suspect entry are forwarded. -/
  | gossipMergeFlush (m : Nat)
  /-- ASK_RETRANSMIT (R458): RTO without an answer resends a data frame or gives up and accuses. -/
  | askRetransmit (id : Nat)
  /-- ASK_MSGID_EXPIRY (R458): A remembered MSG_ID expires. -/
  | askMsgidExpiry (src id : Nat)
  /-- REJOIN_TIMEOUT (R472): REJOIN_S after a position became absent a spare takes it and rebuild starts. -/
  | rejoinTimeout (nsid pos : Nat)
  /-- REBUILD_STRIPE (R472): The rebuild engine rebuilds one stripe onto the spare, sending progress every 1,024. -/
  | rebuildStripe (nsid : Nat)
  /-- EVT_RAISE (R477): Management cores raise a firmware event by writing EVT_RAISE. -/
  | evtRaise (r : Req) (w : Nat)
  /-- COAL_ENTRY_CLOSE (R478): COAL_US after FIRST a coalescing entry closes and delivers one record. -/
  | coalEntryClose
  /-- EVT_MQ_RD_WRITE (R483): Management cores consume queue records by advancing EVT_MQ_RD. -/
  | evtMqRdWrite (r : Req) (w : Nat)
  /-- SERIES_SAMPLE (R485): A SAMPLE series reads its field every PERIOD and sorts it into bins. -/
  | seriesSample (k : Nat)
  /-- HISTORY_FOLD (R488): Every KEEP_MIN the live blocks fold into history and reopen. -/
  | historyFold
  /-- HISTORY_PERIOD_CLOSE (R489): After 24 h a period block closes and the next opens. -/
  | historyPeriodClose
  /-- REC_SNAP_CMD (R490): A write to REC_SNAP_CMD starts a snapshot of all live blocks. -/
  | recSnapCmd (r : Req)
  /-- SNAPSHOT_DONE (R490): A snapshot finishes writing and REC_SNAP_RES reads done or refused. -/
  | snapshotDone
  /-- MI_AEM_SEND (R494): A waiting record is sent as an asynchronous event message once enabled and a path exists. -/
  | miAemSend
  /-- MI_READ_DATA_STRUCTURE (R494): NVMe-MI Read NVMe-MI Data Structure. -/
  | miReadDataStructure (dtyp port ctrl : Nat)
  /-- MI_SUBSYSTEM_HEALTH_POLL (R494): NVMe-MI NVM Subsystem Health Status Poll. -/
  | miSubsystemHealthPoll
  /-- MI_CONTROLLER_HEALTH_POLL (R494): NVMe-MI Controller Health Status Poll. -/
  | miControllerHealthPoll (p : Nat)
  /-- MI_CONFIGURATION_SET (R494): NVMe-MI Configuration Set, including enabling asynchronous events. -/
  | miConfigurationSet (id value : Nat)
  /-- MI_CONFIGURATION_GET (R494): NVMe-MI Configuration Get. -/
  | miConfigurationGet (id : Nat)
  /-- MI_RESET (R494): NVMe-MI Reset performs an NVM subsystem reset. -/
  | miReset (a b : NorRead)
  /-- MI_EVENT_READ (R494): NVMe-MI Event Read returns up to 64 ring records. -/
  | miEventRead (seq count : Nat)
  /-- MI_SERIES_READ (R494): NVMe-MI Series Read returns one series block. -/
  | miSeriesRead (k block : Nat)
  /-- MI_BOOT_STATUS (R494): NVMe-MI Boot Status returns boot, reset and durability state. -/
  | miBootStatus
  /-- MI_TOKEN_NONCE (R126): NVMe-MI Token Nonce replaces and returns path 1's nonce. -/
  | miTokenNonce
  /-- MI_TOKEN_SUBMIT (R127): NVMe-MI Token Submit relays a token on path 1. -/
  | miTokenSubmit (token : List Byte)
  /-- REGISTER_LO_READ (R18): A master reads the _LO register of a 64-bit pair (or word 0 of a ring slot), which latches the upper word for that master's next _HI read. -/
  | registerLoRead (r : Req) (key : Nat)
  /-- KEY_OPERATION_DONE (R137): A GENERATE, REPLACE or DESTROY of one key slot ends within its bound and KEY_NS_RES.RESULT changes from running to done or failed. -/
  | keyOperationDone
  /-- SURGE_BUDGET_RETURN (R423): An earlier surge episode leaves the 300 s accounting window so that 1 s of budget is available again, and a pending surge request enters surge. -/
  | surgeBudgetReturn
  /-- NEIGHBOR_SOLICITATION (R450): An Askif port receives an ICMPv6 Neighbor Solicitation for its address and answers with a Neighbor Advertisement. -/
  | neighborSolicitation (p target : Nat)
  /-- NEIGHBOR_ADVERTISEMENT (R450): An Askif port receives an ICMPv6 Neighbor Advertisement that resolves a peer's address for sending. -/
  | neighborAdvertisement (p m : Nat) (lladdr : List Byte)
  /-- ECHO_REQUEST (R450): An Askif port receives an ICMPv6 Echo Request and sends an Echo Reply, also while no key epoch is active. -/
  | echoRequest (p : Nat) (body : List Byte)
  /-- DYNAMIC_ADDRESS_ASSIGNMENT (R502): In I3C mode the BMC runs dynamic address assignment and the endpoint takes a dynamic address in place of its static one. -/
  | dynamicAddressAssignment (addr : Nat)
  /-- INVALID_COMMAND_OPCODE (R320): A host or NVMe-MI command with an opcode not supported, not allowed to the pod, or not allowed in the safe configuration fails with Invalid Command Opcode or Invalid Opcode. -/
  | invalidCommandOpcode (mi : Bool) (c : HostCmd)
  /-- INVALID_LOG_PAGE (R344): Get Log Page for an unlisted log identifier, such as 0x08, fails with Invalid Log Page. -/
  | invalidLogPage (c : HostCmd)
  /-- FEATURE_IDENTIFIER_INVALID (R346): Set Features for an unsupported feature identifier fails with Invalid Field in Command, and one with SV set fails with Feature Identifier Not Saveable. -/
  | featureIdentifierInvalid (c : HostCmd)
  deriving DecidableEq, Repr

end Sys2Proof
end

