-- ==== Sys2Proof/WellFormed.lean ====
section
/-!
DEFINITION. Well-formed commands: every operand that a bus or a submission entry carries fits its width: a master ID of 8 bits and a pod tag
of 12 (R26), a register word (R18), an internal address of 48 bits (R22), and the dwords of a submission entry.
-/
namespace Sys2Proof

/-- A requester fits the identifiers of R26. -/
def Req.wf (r : Req) : Bool := decide (r.master < 256) && decide (r.pod < 4096)

/-- A submission entry's fields fit their widths. -/
def HostCmd.wf (c : HostCmd) : Bool :=
  decide (c.pod < 4096) && decide (c.qid < 65536) && decide (c.cid < 65536) && decide (c.nsid < 2 ^ 32)
    && [c.cdw10, c.cdw11, c.cdw12, c.cdw13, c.cdw14, c.cdw15].all (fun d => decide (d < 2 ^ 32))

/-- A pod command fits wherever it comes from. -/
def PodFrom.wf : PodFrom → Bool
  | .host c => c.wf
  | .fw r addr => r.wf && decide (addr < 2 ^ 48)

/-- Well-formed commands. -/
def Instr.wf : Instr → Bool
  | .registerWrite r key w => r.wf && (decide (key < 2 ^ 28) || decide (2 ^ 32 ≤ key && key < 2 ^ 32 + 2 ^ 29)) && decide (w < 2 ^ 32)
  | .memoryRead r addr _ _ _ _ => r.wf && decide (addr < 2 ^ 49)
  | .memoryWrite r addr _ _ _ => r.wf && decide (addr < 2 ^ 49)
  | .bgShareWindowEnd _ _ => true
  | .hsfWdogTimeout r _ _ => r.wf
  | .lateAcknowledge _ _ => true
  | .speedMonitorGate _ _ _ => true
  | .hsfPertSlotWrite r _ w => r.wf && decide (w < 2 ^ 32)
  | .hsfPertParamWrite r _ w => r.wf && decide (w < 2 ^ 32)
  | .perturbHoldExpiry => true
  | .coldStart _ _ _ _ => true
  | .identityKeyReady _ => true
  | .firmwareBoot _ _ => true
  | .dramTrainingComplete _ _ => true
  | .flashDiscoveryComplete _ _ => true
  | .memoryInitComplete _ => true
  | .mapRecoveryComplete _ _ => true
  | .fwSvnFloorRaise => true
  | .nssrWrite _ _ _ => true
  | .perstAssert _ => true
  | .perstDeassert _ => true
  | .functionLevelReset _ => true
  | .controllerReset _ _ => true
  | .controllerEnable _ _ _ _ _ => true
  | .shutdownNotification _ _ => true
  | .resetComplete _ _ => true
  | .sgnSign r addr => r.wf && decide (addr < 2 ^ 48)
  | .sgnVerify r addr => r.wf && decide (addr < 2 ^ 48)
  | .sgnVerifySlot r addr => r.wf && decide (addr < 2 ^ 48)
  | .sgnToken r addr => r.wf && decide (addr < 2 ^ 48)
  | .sgnOpComplete _ => true
  | .digOpen r w => r.wf && decide (w < 2 ^ 32)
  | .digCtxClose r _ => r.wf
  | .digCtxData r _ w => r.wf && decide (w < 2 ^ 64)
  | .digCtxLast r _ w => r.wf && decide (w < 2 ^ 64)
  | .digCtxFinal r _ w => r.wf && decide (w < 2 ^ 32)
  | .digCtxSrcLen r _ w => r.wf && decide (w < 2 ^ 32)
  | .digEngineRead _ => true
  | .digPermutation _ => true
  | .digCmpRead r _ _ => r.wf
  | .digIdleTimeout _ => true
  | .digClearedExpiry _ => true
  | .ldgAppendSubmit r w => r.wf && decide (w < 2 ^ 32)
  | .ledgerAppendCommit => true
  | .ldgActivate r w => r.wf && decide (w < 2 ^ 32)
  | .ldgArchivedAck r addr => r.wf && decide (addr < 2 ^ 48)
  | .ldgCreditRegain => true
  | .keyRngDataRead r => r.wf
  | .keyRngHealthFail _ => true
  | .keyGenerate r _ => r.wf
  | .keyReplace r _ => r.wf
  | .keyDestroy r _ => r.wf
  | .keyCryptoEraseAll r => r.wf
  | .keyEraseAllComplete => true
  | .fchRead r _ addr => r.wf && decide (addr < 2 ^ 48)
  | .fchProgram r _ addr => r.wf && decide (addr < 2 ^ 48)
  | .fchErase r _ addr => r.wf && decide (addr < 2 ^ 48)
  | .fchSweep r _ addr => r.wf && decide (addr < 2 ^ 48)
  | .fchGetFeature r _ addr => r.wf && decide (addr < 2 ^ 48)
  | .fchSetFeature r _ addr => r.wf && decide (addr < 2 ^ 48)
  | .fchOpComplete _ _ => true
  | .fchArrayTimeout _ => true
  | .lunOffline _ => true
  | .eraseResume _ => true
  | .creditReservationTake _ => true
  | .creditWaitLong _ => true
  | .dieRetrainPeriodic _ _ _ => true
  | .ldpcFrameDecode _ _ _ => true
  | .patrolPeriod => true
  | .ldpPatrolNextRead r => r.wf
  | .ldpAdviseNextRead r => r.wf
  | .grpCreate r w => r.wf && decide (w < 2 ^ 32)
  | .grpCopy r w => r.wf && decide (w < 2 ^ 32)
  | .grpFree r w => r.wf && decide (w < 2 ^ 32)
  | .grpRead r w => r.wf && decide (w < 2 ^ 32)
  | .grpWrite r w => r.wf && decide (w < 2 ^ 32)
  | .frameSealTimeout _ => true
  | .journalFlushTimeout => true
  | .journalFrameDurable _ => true
  | .checkpointCommit _ => true
  | .gcExtentMove _ _ _ _ => true
  | .ftlGcVictim r w => r.wf && decide (w < 2 ^ 32)
  | .nativeGroupCreate => true
  | .compressionUnitDone _ _ => true
  | .decompressExtentDone _ _ _ => true
  | .cmpCtxOpen r w => r.wf && decide (w < 2 ^ 32)
  | .cmpCtxClose r _ => r.wf
  | .cmpJobSubmit r addr => r.wf && decide (addr < 2 ^ 48)
  | .cmpJobComplete _ _ => true
  | .cmpCtxIdle _ => true
  | .scnSubmit r addr => r.wf && decide (addr < 2 ^ 48)
  | .scnCancel r addr => r.wf && decide (addr < 2 ^ 48)
  | .scanUnitDone _ => true
  | .tskSubmit r addr => r.wf && decide (addr < 2 ^ 48)
  | .tskFlagSet r w => r.wf && decide (w < 2 ^ 32)
  | .tskCancel r w => r.wf && decide (w < 2 ^ 32)
  | .tskCoreTake r _ => r.wf
  | .tskCoreEnd r _ w => r.wf && decide (w < 2 ^ 32)
  | .taskTimeLimit _ => true
  | .cancelGraceExpiry _ => true
  | .affWindowExpiry _ => true
  | .tskQuery r _ => r.wf
  | .tskProgLoad r w => r.wf && decide (w < 2 ^ 32)
  | .tskProgUnload r w => r.wf && decide (w < 2 ^ 32)
  | .tskCoreOnline r _ w => r.wf && decide (w < 2 ^ 32)
  | .linkUp _ _ _ _ _ _ _ => true
  | .linkDown _ => true
  | .atsInvalidate _ _ => true
  | .sqTailDoorbell _ _ _ => true
  | .cqHeadDoorbell _ _ _ => true
  | .commandFetch _ _ _ => true
  | .heldEntryAdmit _ _ _ => true
  | .lockGrant => true
  | .completionPost _ _ _ => true
  | .hostDataPulled _ _ _ => true
  | .writeBufferAdmit _ _ _ => true
  | .writeRateAdmit _ _ _ => true
  | .nvmFlushComplete => true
  | .deleteIoSq c => c.wf
  | .deleteIoCq c => c.wf
  | .createIoSq c => c.wf
  | .createIoCq c => c.wf
  | .identify c => c.wf
  | .abort c => c.wf
  | .getFeatures c => c.wf
  | .setArbitration c => c.wf
  | .setPowerManagement c => c.wf
  | .setTemperatureThreshold c => c.wf
  | .setVolatileWriteCache c => c.wf
  | .setNumberOfQueues c => c.wf
  | .setInterruptCoalescing c => c.wf
  | .setInterruptVectorConfig c => c.wf
  | .setWriteAtomicity c => c.wf
  | .setAsyncEventConfig c => c.wf
  | .setTimestamp c => c.wf
  | .asyncEventRequest c => c.wf
  | .logErrorInformation c => c.wf
  | .logSmartHealth c => c.wf
  | .logFirmwareSlot c => c.wf
  | .logCommandsSupported c => c.wf
  | .logDeviceSelfTest c => c.wf
  | .logTelemetryHostInitiated c => c.wf
  | .logSanitizeStatus c => c.wf
  | .logLedgerStatus c => c.wf
  | .logIdentity c => c.wf
  | .namespaceCreate c => c.wf
  | .namespaceDelete c => c.wf
  | .namespaceAttach c => c.wf
  | .namespaceDetach c => c.wf
  | .formatNvmNoSes c => c.wf
  | .formatNvmUserErase c => c.wf
  | .formatNvmCryptoErase c => c.wf
  | .sanitizeBlockErase c => c.wf
  | .sanitizeCryptoErase c => c.wf
  | .sanitizeExitFailure c => c.wf
  | .sanitizeOverwrite c => c.wf
  | .sanitizePhaseDone => true
  | .firmwareImageDownload c => c.wf
  | .fwCommitReplace c => c.wf
  | .fwCommitReplaceActivate c => c.wf
  | .fwCommitActivate c => c.wf
  | .fwCommitActivateNow c => c.wf
  | .fwActivateTimeout => true
  | .fwActivateDrainDone => true
  | .deviceSelfTestShort c => c.wf
  | .deviceSelfTestExtended c => c.wf
  | .deviceSelfTestAbort c => c.wf
  | .selfTestEnd _ => true
  | .attestationQuote c => c.wf
  | .tokenNonce c => c.wf
  | .tokenSubmit c => c.wf
  | .ledgerRead c => c.wf
  | .legacyMount c _ _ _ _ => c.wf
  | .configImageDownload c => c.wf
  | .configImageCommit c => c.wf
  | .askifKeyInstallRx c => c.wf
  | .askifKeyActivate c => c.wf
  | .askifKeyRemove c => c.wf
  | .spreadAdopt c => c.wf
  | .spreadRelease c => c.wf
  | .spreadReplace c => c.wf
  | .nvmFlush c => c.wf
  | .nvmWrite c => c.wf
  | .nvmRead c => c.wf
  | .writeUncorrectable c => c.wf
  | .compare c => c.wf
  | .writeZeroes c => c.wf
  | .datasetManagement c => c.wf
  | .verify c => c.wf
  | .executeProgram c => c.wf
  | .loadProgram c => c.wf
  | .unloadProgram c => c.wf
  | .programActivationManagement c => c.wf
  | .memoryRangeSetManagement c => c.wf
  | .slmMemoryRead c => c.wf
  | .slmMemoryWrite c => c.wf
  | .slmMemoryCopy c => c.wf
  | .podCreate f => f.wf
  | .podSet f => f.wf
  | .podBind f => f.wf
  | .podUnbind f => f.wf
  | .podQuiesce f => f.wf
  | .podGraceExpiry _ => true
  | .podQuiesceComplete _ => true
  | .podResume f => f.wf
  | .podReset f => f.wf
  | .podRemove f => f.wf
  | .podMem f => f.wf
  | .podSave f => f.wf
  | .podRestore f => f.wf
  | .podIms f => f.wf
  | .dramRefresh _ _ => true
  | .dramMr4Poll _ _ _ _ _ => true
  | .disturbWindowEnd _ => true
  | .dramOscRead _ _ _ => true
  | .dramRetrainPeriodic _ => true
  | .dramRetrainDone _ _ _ => true
  | .dramDegradedRetry _ => true
  | .dramSrEntry _ _ => true
  | .dramDeepSrEntry _ => true
  | .dramSrExit _ _ _ => true
  | .scrubStep _ _ _ => true
  | .bucketLeak => true
  | .mprInjCtrlWrite r w => r.wf && decide (w < 2 ^ 32)
  | .powerFail _ _ => true
  | .powerFailFlushDone _ => true
  | .holdupCutoff _ _ => true
  | .powerReturnRestart _ _ _ _ _ => true
  | .inputCurrentLimit _ _ => true
  | .currentLimitTimeout _ => true
  | .loopSample _ _ _ _ _ => true
  | .loopFaultRetry _ => true
  | .targetRampStep => true
  | .cleTargetWrite r _ w => r.wf && decide (w < 2 ^ 32)
  | .cleCoefWrite r _ w => r.wf && decide (w < 2 ^ 32)
  | .pwrDomainRequest r _ w => r.wf && decide (w < 2 ^ 32)
  | .domainPowerUpDone _ => true
  | .domainIsolate _ => true
  | .fpgSet r w => r.wf && decide (w < 2 ^ 32)
  | .fpgClear r w => r.wf && decide (w < 2 ^ 32)
  | .fpgLoadTestDone _ _ _ => true
  | .fpgDrainDone _ => true
  | .fpgOvercurrent _ _ => true
  | .bankMeasurePeriodic => true
  | .bankMeasureDone _ _ _ _ _ => true
  | .dirtyLimitRecompute _ => true
  | .governorPowerStep _ => true
  | .inputPowerStep _ _ _ _ => true
  | .surgeRequest r w => r.wf && decide (w < 2 ^ 32)
  | .surgeBudgetExpiry => true
  | .thermalSensorReport _ => true
  | .thermalComparatorTrip _ _ => true
  | .thermalRestart _ _ => true
  | .heartbeatBeat r _ w => r.wf && decide (w < 2 ^ 32)
  | .heartbeatHalfPeriod _ => true
  | .watchdogExpiry _ => true
  | .expiriesClear => true
  | .debugPortAccess _ => true
  | .jtagBypass => true
  | .jtagIdcode => true
  | .jtagSamplePreload => true
  | .jtagExtest => true
  | .jtagClamp => true
  | .jtagHighz => true
  | .askLinkUp _ _ _ => true
  | .askLinkDown _ => true
  | .heartbeat _ => true
  | .accuse _ => true
  | .alive _ => true
  | .declare _ => true
  | .join _ => true
  | .leave _ => true
  | .chunkWrite _ => true
  | .parityDelta _ => true
  | .chunkRead _ => true
  | .chunkData _ => true
  | .ack _ => true
  | .confirm _ => true
  | .nsDesc _ => true
  | .adopt _ => true
  | .heartbeatSend => true
  | .memberMissTimeout _ => true
  | .gossipMergeFlush _ => true
  | .askRetransmit _ => true
  | .askMsgidExpiry _ _ => true
  | .rejoinTimeout _ _ => true
  | .rebuildStripe _ => true
  | .evtRaise r w => r.wf && decide (w < 2 ^ 32)
  | .coalEntryClose => true
  | .evtMqRdWrite r w => r.wf && decide (w < 2 ^ 32)
  | .seriesSample _ => true
  | .historyFold => true
  | .historyPeriodClose => true
  | .recSnapCmd r => r.wf
  | .snapshotDone => true
  | .miAemSend => true
  | .miReadDataStructure _ _ _ => true
  | .miSubsystemHealthPoll => true
  | .miControllerHealthPoll _ => true
  | .miConfigurationSet _ _ => true
  | .miConfigurationGet _ => true
  | .miReset _ _ => true
  | .miEventRead _ _ => true
  | .miSeriesRead _ _ => true
  | .miBootStatus => true
  | .miTokenNonce => true
  | .miTokenSubmit _ => true
  | .registerLoRead r key => r.wf && (decide (key < 2 ^ 28) || decide (2 ^ 32 ≤ key && key < 2 ^ 32 + 2 ^ 29))
  | .keyOperationDone => true
  | .surgeBudgetReturn => true
  | .neighborSolicitation _ _ => true
  | .neighborAdvertisement _ _ _ => true
  | .echoRequest _ _ => true
  | .dynamicAddressAssignment _ => true
  | .invalidCommandOpcode _ c => c.wf
  | .invalidLogPage c => c.wf
  | .featureIdentifierInvalid c => c.wf

end Sys2Proof
end

