-- ==== Sys2Proof/Decode.lean ====
section
/-!
DEFINITION. The decoder of command words. The table of operations gives no row any bits: a command comes from outside as what it is, and no
word spells one.
-/
namespace Sys2Proof

/-- The command a word spells by the table's bits: none, since no row has any. -/
def decodeTableWord (_nbits _w : Nat) : Option Instr := none

end Sys2Proof
end

