-- ==== Sys2Proof/Machine/Bits.lean ====
section
/-!
DEFINITION. Bit fields, little-endian byte strings (R17), saturating sums (R20) and the sparse tables.
-/
namespace Sys2Proof.Machine

/-- Bits hi..lo of n (R17: bit 0 is the least significant). -/
def bits (n hi lo : Nat) : Nat := (n >>> lo) % 2 ^ (hi + 1 - lo)

/-- Bit i of n. -/
def bit (n i : Nat) : Bool := (n >>> i) % 2 = 1

/-- 1 for true, 0 for false. -/
def b2n (b : Bool) : Nat := if b then 1 else 0

/-- n with bits hi..lo replaced by v. -/
def setBits (n hi lo v : Nat) : Nat :=
  n - (bits n hi lo) * 2 ^ lo + (v % 2 ^ (hi + 1 - lo)) * 2 ^ lo

/-- The little-endian value of a byte string (R17). -/
def leNat : List Byte → Nat
  | [] => 0
  | b :: bs => b.toNat + 256 * leNat bs

/-- n bytes of v, least significant first (R17). -/
def leBytes : Nat → Nat → List Byte
  | 0, _ => []
  | n + 1, v => BitVec.ofNat 8 v :: leBytes n (v / 256)

/-- size bytes of a byte string at off; bytes past its end read zero. -/
def slice (l : List Byte) (off size : Nat) : List Byte :=
  let p := (l.drop off).take size
  p ++ List.replicate (size - p.length) 0#8

/-- The little-endian field of size bytes at offset off of a structure. -/
def leAt (l : List Byte) (off size : Nat) : Nat := leNat (slice l off size)

/-- Whether every byte is zero. -/
def allZero (l : List Byte) : Bool := l.all (fun b => b = 0#8)

/-- A saturating sum (R20 class S and class E). -/
def satAdd (max a b : Nat) : Nat := if a + b < max then a + b else max

/-- Signed value of an n-bit field. -/
def toSigned (n v : Nat) : Int := if v < 2 ^ (n - 1) then (v : Int) else (v : Int) - (2 ^ n : Nat)

/-- The n-bit two's complement form of an integer. -/
def ofSigned (n : Nat) (v : Int) : Nat := (v % ((2 ^ n : Nat) : Int)).toNat

/-- Round up to a multiple of k. -/
def roundUp (n k : Nat) : Nat := if k = 0 then n else (n + k - 1) / k * k

/-- Ceiling of a quotient. -/
def ceilDiv (n k : Nat) : Nat := if k = 0 then 0 else (n + k - 1) / k

/-- XOR of two byte strings, over the shorter length. -/
def xorBytes (a b : List Byte) : List Byte := List.zipWith (fun x y => x ^^^ y) a b

/-! ### Sparse tables -/

/-- The value held under key a. -/
def Tab.look {β : Type} : Tab β → Nat → Option β
  | [], _ => none
  | (k, v) :: t, a => if k = a then some v else Tab.look t a

/-- The value held under key a, or d. -/
def Tab.lookD {β : Type} (t : Tab β) (a : Nat) (d : β) : β := (Tab.look t a).getD d

/-- Put v under key a, before the first larger key. -/
def Tab.put {β : Type} : Tab β → Nat → β → Tab β
  | [], a, v => [(a, v)]
  | (k, w) :: t, a, v =>
    if k = a then (a, v) :: t
    else if a < k then (a, v) :: (k, w) :: t
    else (k, w) :: Tab.put t a v

/-- Remove every entry under key a. -/
def Tab.del {β : Type} : Tab β → Nat → Tab β
  | [], _ => []
  | (k, v) :: t, a => if k = a then Tab.del t a else (k, v) :: Tab.del t a

/-- Whether key a holds a value. -/
def Tab.has {β : Type} (t : Tab β) (a : Nat) : Bool := (Tab.look t a).isSome

/-- Change the value under key a, if there is one. -/
def Tab.upd {β : Type} (t : Tab β) (a : Nat) (f : β → β) : Tab β :=
  match Tab.look t a with
  | none => t
  | some v => Tab.put t a (f v)

/-- Keep the entries that satisfy p. -/
def Tab.keep {β : Type} (p : Nat → β → Bool) (t : Tab β) : Tab β :=
  t.filter (fun kv => p kv.1 kv.2)

/-- Change every value. -/
def Tab.mapVals {β γ : Type} (f : Nat → β → γ) (t : Tab β) : Tab γ :=
  t.map (fun kv => (kv.1, f kv.1 kv.2))

/-- The first of i, i + 1, ... that is no key of the table, looking at fuel numbers at most. -/
def Tab.freeFrom {β : Type} (t : Tab β) : Nat → Nat → Option Nat
  | 0, _ => none
  | fuel + 1, i => if Tab.has t i then Tab.freeFrom t fuel (i + 1) else some i

/-- The lowest number below n that is no key of the table. -/
def Tab.lowestFree {β : Type} (t : Tab β) (n : Nat) : Option Nat :=
  match Tab.freeFrom t (t.length + 1) 0 with
  | some i => if i < n then some i else none
  | none => none

/-- Keys strictly rising. -/
def Tab.sorted {β : Type} : Tab β → Bool
  | [] => true
  | [_] => true
  | (k, _) :: (l, w) :: t => decide (k < l) && Tab.sorted ((l, w) :: t)

end Sys2Proof.Machine
end

