-- ==== Sys2Proof/Machine/Keccak.lean ====
section
/-!
DEFINITION. The sponge functions of Table 4.6 (FIPS 202, SP 800-185): the permutation, padding, and whole-message
forms used by the ROM, the signing unit and the ledger engine. The spec names the standards; the text of the
functions is PRESUMED from them (log entry 5).
-/
namespace Sys2Proof.Machine

/-! The permutation works on one 1,600-bit number: lane x of plane y is its bits 64 * (x + 5 * y) and up. -/

/-- The low bit of each lane of a plane. -/
def laneLows : Nat := (2 ^ 320 - 1) / (2 ^ 64 - 1)

/-- A 320-bit plane with its lanes moved down n places, round and round: lane x takes lane x + n. -/
def planeTurn (p n : Nat) : Nat := (p >>> (64 * n)) ||| ((p <<< (320 - 64 * n)) % 2 ^ 320)

/-- Each lane of a plane rotated left by one bit. -/
def planeRot1 (p : Nat) : Nat :=
  let carry := (p >>> 63) &&& laneLows
  ((p - ((carry <<< 63))) <<< 1) ||| carry

/-- theta: every column sum of two neighbours, the same in all five planes. -/
def theta (a : Nat) : Nat :=
  let c := (a ^^^ (a >>> 320) ^^^ (a >>> 640) ^^^ (a >>> 960) ^^^ (a >>> 1280)) % 2 ^ 320
  a ^^^ ((planeTurn c 4 ^^^ planeRot1 (planeTurn c 1)) * ((2 ^ 1600 - 1) / (2 ^ 320 - 1)))

/-- rho and pi together, as the standard's walk from lane (1, 0): the lane reached at step t goes to the next lane of the walk,
rotated by the triangular number of t + 1. k counts the steps left, x and y say where the walk stands, acc is what is placed. -/
def rhoPi (a : Nat) : Nat → Nat → Nat → Nat → Nat
  | 0, _, _, acc => acc
  | k + 1, x, y, acc =>
    let lane := (a >>> (64 * (x + 5 * y))) % 2 ^ 64
    let n := (25 - (k + 1)) * (26 - (k + 1)) / 2 % 64
    let turned := (lane <<< n) % 2 ^ 64 ||| lane >>> (64 - n)
    let y' := (2 * x + 3 * y) % 5
    rhoPi a k y y' (acc ||| turned <<< (64 * (y + 5 * y')))

/-- The bits of the four lower lanes of every plane. -/
def lowerLanes : Nat := (2 ^ 256 - 1) * ((2 ^ 1600 - 1) / (2 ^ 320 - 1))

/-- All planes with their lanes moved down one place. -/
def planesTurn (b : Nat) : Nat :=
  ((b >>> 64) &&& lowerLanes) ||| ((b <<< 256) % 2 ^ 1600 &&& (2 ^ 1600 - 1 - lowerLanes))

/-- chi: each lane with its two right-hand neighbours. -/
def chi (b : Nat) : Nat :=
  let n := planesTurn b
  b ^^^ ((2 ^ 1600 - 1 - n) &&& planesTurn n)

/-- The linear register of the round constants, one step. -/
def rcStep (r : Nat) : Nat := if r < 128 then 2 * r else (2 * r) ^^^ 0x171

/-- The round constant formed by the register's next seven bits, and the register after them. -/
def rcTake : Nat → Nat → Nat → Nat × Nat
  | 0, r, c => (c, r)
  | k + 1, r, c => rcTake k (rcStep r) (c + (r % 2) * 2 ^ (2 ^ (6 - k) - 1))

/-- k rounds, with the constants' register r. -/
def keccakRounds : Nat → Nat → Nat → Nat
  | 0, _, a => a
  | k + 1, r, a =>
    let (c, r') := rcTake 7 r 0
    let t := theta a
    keccakRounds k r' (chi (rhoPi t 24 1 0 (t % 2 ^ 64)) ^^^ c)

/-- Keccak-f[1600]. -/
def keccakF (a : Nat) : Nat := keccakRounds 24 1 a

/-- The state with a block of bytes XORed into its first bytes. -/
def absorb (a : Nat) (block : List Byte) : Nat := a ^^^ leNat (block.take 200)

/-- Whole blocks of a padded message, absorbed one after another. -/
def absorbAll (rate : Nat) : Nat → Nat → List Byte → Nat
  | 0, a, _ => a
  | fuel + 1, a, m => if m.length < rate then a else absorbAll rate fuel (keccakF (absorb a (m.take rate))) (m.drop rate)

/-- A message padded to whole blocks: the domain bits in dom, then pad10*1. -/
def padSponge (rate dom : Nat) (m : List Byte) : List Byte :=
  let k := rate - m.length % rate
  if k = 1 then m ++ [BitVec.ofNat 8 (dom ||| 0x80)]
  else m ++ BitVec.ofNat 8 dom :: List.replicate (k - 2) 0#8 ++ [0x80#8]

/-- The bytes of the state. -/
def squeeze (a : Nat) : List Byte := leBytes 200 a

/-- A sponge hash of at most one block of output. -/
def sponge (rate dom out : Nat) (m : List Byte) : List Byte :=
  let p := padSponge rate dom m
  (squeeze (absorbAll rate (p.length / rate) 0 p)).take out

/-- SHAKE256. -/
def shake256 (m : List Byte) (out : Nat) : List Byte := sponge 136 0x1F out m

/-- The 64-byte SHAKE256 output the spec calls a SHAKE256-512 digest. -/
def shake512 (m : List Byte) : List Byte := shake256 m 64

/-- Big-endian bytes of n without leading zeros, at least one. -/
def beMin (n : Nat) : List Byte :=
  if n < 0x100 then [BitVec.ofNat 8 n]
  else if n < 0x10000 then [BitVec.ofNat 8 (n / 0x100), BitVec.ofNat 8 n]
  else [BitVec.ofNat 8 (n / 0x10000), BitVec.ofNat 8 (n / 0x100), BitVec.ofNat 8 n]

/-- left_encode of SP 800-185. -/
def leftEncode (n : Nat) : List Byte := BitVec.ofNat 8 (beMin n).length :: beMin n

/-- right_encode of SP 800-185. -/
def rightEncode (n : Nat) : List Byte := beMin n ++ [BitVec.ofNat 8 (beMin n).length]

/-- encode_string of SP 800-185. -/
def encodeString (m : List Byte) : List Byte := leftEncode (8 * m.length) ++ m

/-- bytepad of SP 800-185. -/
def bytepad (m : List Byte) (w : Nat) : List Byte :=
  let z := leftEncode w ++ m
  z ++ List.replicate ((w - z.length % w) % w) 0#8

/-- ASCII text as bytes. -/
def ascii (t : String) : List Byte := t.toList.map (fun c => BitVec.ofNat 8 c.toNat)

/-- The framing of KMAC256 in front of the message: function name, customisation and key (R102). -/
def kmacPrefix (key cust : List Byte) : List Byte :=
  bytepad (encodeString (ascii "KMAC") ++ encodeString cust) 136 ++ bytepad (encodeString key) 136

/-- KMAC256 of a message with an output of at most 136 bytes. -/
def kmac256 (key cust m : List Byte) (out : Nat) : List Byte :=
  sponge 136 0x04 out (kmacPrefix key cust ++ m ++ rightEncode (8 * out))

end Sys2Proof.Machine
end

