-- ==== Sys2Proof/Config.lean ====
section
/-!
DEFINITION. What a part fixes (Tables 0.2 and 0.5), and the values the spec leaves open or gives only by
reference to a published algorithm: opaque constants, so that no proof can lean on a value of theirs.
-/
namespace Sys2Proof

/-- The three parts (chapter 0). -/
inductive Part where
  | glt7440
  | glt7430
  | glt7420
  deriving DecidableEq, Repr

namespace Config

/-- Flash channels present (Table 0.5). -/
def fchCount : Part → Nat
  | .glt7420 => 16
  | _ => 32

/-- Cobs present (Table 0.5). -/
def cobCount : Part → Nat
  | .glt7440 => 8
  | .glt7430 => 6
  | .glt7420 => 4

/-- DRAM channels present (Table 0.5). -/
def drcCount : Part → Nat
  | .glt7420 => 4
  | _ => 6

/-- Compression pipes present (Table 0.5). -/
def cmpPipes : Part → Nat
  | .glt7420 => 8
  | _ => 16

/-- Scan engines present (Table 0.5). -/
def scnEngines : Part → Nat
  | .glt7420 => 0
  | _ => 32

/-- Askif ports present (Table 0.5). -/
def askPorts : Part → Nat
  | .glt7440 => 2
  | _ => 0

/-- SYS_CAP_UNITS (Table 0.5). -/
def capUnits : Part → Nat
  | .glt7440 => 0x82342082
  | .glt7430 => 0x81B42080
  | .glt7420 => 0x41221000

/-- The PCIe Device ID (Table 10.2). -/
def deviceId : Part → Nat
  | .glt7440 => 0x7440
  | .glt7430 => 0x7430
  | .glt7420 => 0x7420

/-- The page type of a page number by a die's wordline layout (R165), which the spec does not give. -/
opaque pageType : Nat → Nat

/-- A value the spec leaves open, drawn afresh each time by the counter State.freeCtr. -/
opaque freeValue : Nat → Nat

/-- The bytes of the boot ROM (1 MiB), but for the version word at 0x10 that R115 gives. -/
opaque romByte : Nat → Nat

/-- The bytes of the factory firmware's slot in the configuration NOR (R114), which the spec does not give. -/
opaque factoryByte : Nat → Nat

/-- The digest of the factory firmware (R114). -/
opaque factoryDigest : List Byte

/-- The SVN of the factory firmware (R114). -/
opaque factorySvn : Nat

/-- The manufacturing record in ledger entry 0, whose content the device does not interpret (R116). -/
opaque vendorRecord : List Byte

/-- The identity key's signature of ledger entry 0, made at manufacture (R116). -/
opaque vendorSignature : List Byte

/-- Falcon-1024 verification (R95): key, digest, signature. The spec names the published scheme only. -/
opaque falconVerify : List Byte → List Byte → List Byte → Bool

/-- Falcon-1024 signing (R95) by the key pair generated from a 48-byte seed (R97): seed, digest, nonce counter. -/
opaque falconSign : List Byte → List Byte → Nat → List Byte

/-- The public key of the pair generated from a 48-byte seed (R97). -/
opaque identityKey : List Byte → List Byte

/-- The 32-byte media root of a PUF root (R97): the spec does not say how it is derived. -/
opaque mediaRoot : Nat → List Byte

/-- AES-256-XTS under a key name and tweak: key, tweak, plain bytes (R228). -/
opaque aesXtsEncrypt : Nat → Nat → List Byte → List Byte

/-- The inverse of aesXtsEncrypt (R228). -/
opaque aesXtsDecrypt : Nat → Nat → List Byte → List Byte

/-- AES-KW of SP 800-38F of the key pair of a name under a wrapping key (R467): 72 bytes. -/
opaque keyWrap : List Byte → Nat → List Byte

/-- The name of the key pair that a 72-byte record wraps under a wrapping key (R467). -/
opaque keyUnwrap : List Byte → List Byte → Nat

/-- Output of a CTR_DRBG (R132): the entropy of its last seeding, generate requests since, byte count. -/
opaque drbg : Nat → Nat → Nat → List Byte

/-- DEFLATE compression at an effort level (R225): the spec fixes the format, not the choice of matches. -/
opaque deflate : Nat → List Byte → List Byte

/-- One block of a compressed stream (R242): effort, whether it is the final one, the plain stream before it, its input. -/
opaque deflateBlock : Nat → Bool → List Byte → List Byte → List Byte

/-- The bytes of a whole row of a column block as a record (R257 with WHOLE_RECORD on a COLUMN program), which the spec does
not lay out: unit and row. -/
opaque columnRecord : List Byte → Nat → List Byte

/-- The least duty of a converter loop in Q1.15 (R406): a constant of the converter that the spec does not give. -/
opaque dutyMin : Nat → Int

/-- The greatest duty of a converter loop in Q1.15 (R406). -/
opaque dutyMax : Nat → Int

end Config
end Sys2Proof
end

