-- ==== Sys2Proof/Machine/Regs.lean ====
section
/-!
DEFINITION. The register map: every register the spec gives, with its window, offset, strides, reset value and
the access type of its bits, taken from the register tables and register paragraphs of the chapters named.
-/
namespace Sys2Proof.Machine

/-- A register or an array of registers: window, offset, and the strides of its two indices. -/
structure RegId where
  win : Nat
  off : Nat
  s1 : Nat
  s2 : Nat
  deriving DecidableEq, Repr

/-- A field of a register: bits hi..lo. -/
structure Field where
  reg : RegId
  hi : Nat
  lo : Nat
  deriving DecidableEq, Repr

/-- The key under which State holds element i, j of a register: window times 1 MiB plus offset (Table 1.2). -/
def RegId.key (r : RegId) (i j : Nat) : Nat := r.win * 0x100000 + r.off + r.s1 * i + r.s2 * j

/-- The register of window n places up (flash channel n of the FCH windows 0x20-0x3F). -/
def RegId.chan (r : RegId) (n : Nat) : RegId := { r with win := r.win + n }

/-- The field of window n places up. -/
def Field.chan (f : Field) (n : Nat) : Field := { f with reg := f.reg.chan n }

/-- One row of the register map: offset, two strides with their counts, reset value, and the masks of the
RW, RWL, W1C and WO bits (access types of chapter 0); every other bit is RO or reserved. -/
structure RegRow where
  off : Nat
  s1 : Nat
  n1 : Nat
  s2 : Nat
  n2 : Nat
  rst : Nat
  rw : Nat
  rwl : Nat
  w1c : Nat
  wo : Nat
  deriving DecidableEq, Repr

/-- Registers of the SYS window. -/
def rowsSYS : List RegRow := [
  ⟨0x10, 0x0, 1, 0x0, 1, 0x0, 0x0, 0x0, 0x0, 0x0⟩  /- SYS_CAP_UNITS -/]

/-- Registers of the CFG window. -/
def rowsCFG : List RegRow := [
  ⟨0x10, 0x0, 1, 0x0, 1, 0x0, 0x0, 0x0, 0x0, 0x0⟩  /- CFG_BOOT_STAT -/,
  ⟨0x14, 0x0, 1, 0x0, 1, 0x10000100, 0x0, 0x0, 0x80FF00, 0x0⟩  /- CFG_RESET_CAUSE -/,
  ⟨0x18, 0x0, 1, 0x0, 1, 0x0, 0x0, 0x0, 0x0, 0x0⟩  /- CFG_IMAGE_SEQ_LO -/,
  ⟨0x1C, 0x0, 1, 0x0, 1, 0x0, 0x0, 0x0, 0x0, 0x0⟩  /- CFG_IMAGE_SEQ_HI -/,
  ⟨0x20, 0x0, 1, 0x0, 1, 0x0, 0x0, 0x0, 0x0, 0x0⟩  /- CFG_SEQ_FLOOR_LO -/,
  ⟨0x24, 0x0, 1, 0x0, 1, 0x0, 0x0, 0x0, 0x0, 0x0⟩  /- CFG_SEQ_FLOOR_HI -/,
  ⟨0x30, 0x0, 1, 0x0, 1, 0x0, 0x0, 0xC0000000, 0x0, 0x0⟩  /- CFG_MEM_INIT -/,
  ⟨0x200, 0x4, 4, 0x0, 1, 0x0, 0x0, 0x3FF03FF, 0x0, 0x0⟩  /- CFG_BGS_SHARE -/,
  ⟨0x240, 0x4, 4, 0x0, 1, 0x0, 0x0, 0x0, 0x80008000, 0x0⟩  /- CFG_BGS_STAT -/]

/-- Registers of the HSK window. -/
def rowsHSK : List RegRow := [
  ⟨0x10, 0x0, 1, 0x0, 1, 0x0, 0x0, 0x0, 0x0, 0x0⟩  /- HSK_STAT -/,
  ⟨0x14, 0x0, 1, 0x0, 1, 0x0, 0x0, 0x0, 0x80000000, 0x0⟩  /- HSK_DENY_STAT -/,
  ⟨0x18, 0x0, 1, 0x0, 1, 0x0, 0x0, 0x0, 0x0, 0x0⟩  /- HSK_DENY_ADDR_LO -/,
  ⟨0x1C, 0x0, 1, 0x0, 1, 0x0, 0x0, 0x0, 0x0, 0x0⟩  /- HSK_DENY_ADDR_HI -/,
  ⟨0x20, 0x0, 1, 0x0, 1, 0x303E8, 0x0, 0xFFFFF, 0x0, 0x0⟩  /- HSK_HB_CFG -/,
  ⟨0x24, 0x4, 2, 0x0, 1, 0x0, 0x0, 0x0, 0x0, 0xFFFFFFFF⟩  /- HSK_HB -/,
  ⟨0x2C, 0x0, 1, 0x0, 1, 0x0, 0x0, 0x0, 0x20000000, 0x0⟩  /- HSK_HB_STAT -/,
  ⟨0x40, 0x0, 1, 0x0, 1, 0xC80000, 0x0, 0xFFFF0000, 0x0, 0x0⟩  /- HSK_ASK_CFG -/,
  ⟨0x44, 0x4, 4, 0x0, 1, 0x0, 0x0, 0xFFFFFFFF, 0x0, 0x0⟩  /- HSK_ASK_PREFIX -/,
  ⟨0x10000, 0x200, 68, 0x10, 32, 0x0, 0x0, 0xF8FFFF00, 0x0, 0x0⟩  /- HSK_ACC_W0 -/,
  ⟨0x10004, 0x200, 68, 0x10, 32, 0x0, 0x0, 0xFFF, 0x0, 0x0⟩  /- HSK_ACC_W1 -/,
  ⟨0x10008, 0x200, 68, 0x10, 32, 0x0, 0x0, 0xFFFFFFFF, 0x0, 0x0⟩  /- HSK_ACC_W2 -/,
  ⟨0x1000C, 0x200, 68, 0x10, 32, 0x0, 0x0, 0xFFFFFFFF, 0x0, 0x0⟩  /- HSK_ACC_W3 -/,
  ⟨0x40000, 0x40, 4096, 0x4, 16, 0x0, 0x0, 0x0, 0x0, 0x0⟩  /- HSK_PODR -/]

/-- Registers of the EVT window. -/
def rowsEVT : List RegRow := [
  ⟨0x10, 0x0, 1, 0x0, 1, 0x3E8, 0x0, 0xFFFFF, 0x0, 0x0⟩  /- EVT_CTRL -/,
  ⟨0x14, 0x0, 1, 0x0, 1, 0x0, 0x0, 0x0, 0x80000000, 0x0⟩  /- EVT_STAT -/,
  ⟨0x20, 0x0, 1, 0x0, 1, 0x0, 0x0, 0x0, 0x0, 0xFF03FF⟩  /- EVT_RAISE -/,
  ⟨0x24, 0x4, 4, 0x0, 1, 0x0, 0x0, 0x0, 0x0, 0xFFFFFFFF⟩  /- EVT_RAISE_SUBJ -/,
  ⟨0x40, 0x0, 1, 0x0, 1, 0x0, 0x7FF, 0x0, 0x0, 0x0⟩  /- EVT_MQ_RD -/,
  ⟨0x44, 0x0, 1, 0x0, 1, 0x0, 0x0, 0x0, 0x0, 0x0⟩  /- EVT_MQ_WR -/,
  ⟨0x100, 0x8, 16, 0x0, 1, 0x0, 0x80FF03FF, 0x0, 0x0, 0x0⟩  /- EVT_TSUB_W0 -/,
  ⟨0x104, 0x8, 16, 0x0, 1, 0x0, 0xFFFFFFFF, 0x0, 0x0, 0x0⟩  /- EVT_TSUB_W1 -/,
  ⟨0x1000, 0x4, 768, 0x0, 1, 0x0, 0x0, 0x7F, 0x0, 0x0⟩  /- EVT_ROUTE -/,
  ⟨0x80000, 0x30, 1024, 0x4, 12, 0x0, 0x0, 0x0, 0x0, 0x0⟩  /- EVT_MQ_REC -/]

/-- Registers of the REC window. -/
def rowsREC : List RegRow := [
  ⟨0x10, 0x0, 1, 0x0, 1, 0x3C000000, 0x0, 0xFF000000, 0x0, 0x0⟩  /- REC_CTRL -/,
  ⟨0x18, 0x0, 1, 0x0, 1, 0x0, 0x0, 0x0, 0x0, 0x0⟩  /- REC_RING_HEAD_LO -/,
  ⟨0x1C, 0x0, 1, 0x0, 1, 0x0, 0x0, 0x0, 0x0, 0x0⟩  /- REC_RING_HEAD_HI -/,
  ⟨0x20, 0x0, 1, 0x0, 1, 0x0, 0x0, 0x0, 0x0, 0xFFFFFFFF⟩  /- REC_SNAP_ADDR_LO -/,
  ⟨0x24, 0x0, 1, 0x0, 1, 0x0, 0x0, 0x0, 0x0, 0xFFFFFFFF⟩  /- REC_SNAP_ADDR_HI -/,
  ⟨0x28, 0x0, 1, 0x0, 1, 0x0, 0x0, 0x0, 0x0, 0xFFFFFFFF⟩  /- REC_SNAP_CMD -/,
  ⟨0x2C, 0x0, 1, 0x0, 1, 0x0, 0x0, 0x0, 0x0, 0x0⟩  /- REC_SNAP_RES -/,
  ⟨0x8000, 0x8, 1024, 0x0, 1, 0x0, 0x0, 0xFFFFFFFF, 0x0, 0x0⟩  /- REC_SER_W0 -/,
  ⟨0x8004, 0x8, 1024, 0x0, 1, 0x0, 0x0, 0xFEFFFFFF, 0x0, 0x0⟩  /- REC_SER_W1 -/,
  ⟨0x10000, 0x80, 1024, 0x4, 32, 0x0, 0x0, 0x0, 0x0, 0x0⟩  /- REC_LIVE -/,
  ⟨0x40000, 0x30, 16384, 0x4, 12, 0x0, 0x0, 0x0, 0x0, 0x0⟩  /- REC_RING -/]

/-- Registers of the DIG window. -/
def rowsDIG : List RegRow := [
  ⟨0x10, 0x0, 1, 0x0, 1, 0x64, 0x0, 0xFFFF, 0x0, 0x0⟩  /- DIG_CTRL -/,
  ⟨0x20, 0x0, 1, 0x0, 1, 0x0, 0x0, 0x0, 0x0, 0xFFFFFFC0⟩  /- DIG_OPEN -/,
  ⟨0x24, 0x0, 1, 0x0, 1, 0x0, 0x0, 0x0, 0x0, 0x0⟩  /- DIG_OPEN_RES -/,
  ⟨0x1000, 0x100, 16, 0x0, 1, 0x0, 0x0, 0x0, 0x0, 0x0⟩  /- DIG_CTX_STAT -/,
  ⟨0x1004, 0x100, 16, 0x0, 1, 0x0, 0x0, 0x0, 0x0, 0xFFFFFFFF⟩  /- DIG_CTX_CLOSE -/,
  ⟨0x1008, 0x100, 16, 0x0, 1, 0x0, 0x0, 0x0, 0x0, 0xFFFFFFFF⟩  /- DIG_CTX_DATA_LO -/,
  ⟨0x100C, 0x100, 16, 0x0, 1, 0x0, 0x0, 0x0, 0x0, 0xFFFFFFFF⟩  /- DIG_CTX_DATA_HI -/,
  ⟨0x1010, 0x100, 16, 0x0, 1, 0x0, 0x0, 0x0, 0x0, 0xFFFFFFFF⟩  /- DIG_CTX_LAST_LO -/,
  ⟨0x1014, 0x100, 16, 0x0, 1, 0x0, 0x0, 0x0, 0x0, 0xFFFFFFFF⟩  /- DIG_CTX_LAST_HI -/,
  ⟨0x1018, 0x100, 16, 0x0, 1, 0x0, 0x0, 0x0, 0x0, 0x8000000F⟩  /- DIG_CTX_FINAL -/,
  ⟨0x1020, 0x100, 16, 0x0, 1, 0x0, 0x0, 0x0, 0x0, 0xFFFFFFFF⟩  /- DIG_CTX_SRC_LO -/,
  ⟨0x1024, 0x100, 16, 0x0, 1, 0x0, 0x0, 0x0, 0x0, 0xFFFFFFFF⟩  /- DIG_CTX_SRC_HI -/,
  ⟨0x1028, 0x100, 16, 0x0, 1, 0x0, 0x0, 0x0, 0x0, 0xFFFFFFFF⟩  /- DIG_CTX_SRC_LEN -/,
  ⟨0x1040, 0x100, 16, 0x4, 16, 0x0, 0x0, 0x0, 0x0, 0x0⟩  /- DIG_CTX_OUT -/,
  ⟨0x1080, 0x100, 16, 0x4, 16, 0x0, 0x0, 0x0, 0x0, 0xFFFFFFFF⟩  /- DIG_CTX_EXP -/,
  ⟨0x10C0, 0x100, 16, 0x0, 1, 0x69969669, 0x0, 0x0, 0x0, 0x0⟩  /- DIG_CTX_CMP -/]

/-- Registers of the SGN window. -/
def rowsSGN : List RegRow := [
  ⟨0x10, 0x0, 1, 0x0, 1, 0x0, 0x0, 0x0, 0x0, 0x0⟩  /- SGN_OTP_STAT -/,
  ⟨0x20, 0x0, 1, 0x0, 1, 0x0, 0x0, 0x0, 0x0, 0x0⟩  /- SGN_STAT -/,
  ⟨0x30, 0x0, 1, 0x0, 1, 0x0, 0x0, 0x0, 0x0, 0x0⟩  /- SGN_TOKEN_LATCH -/,
  ⟨0x40, 0x0, 1, 0x0, 1, 0x0, 0x0, 0x0, 0x0, 0xFFFFFFFF⟩  /- SGN_SUBMIT_LO -/,
  ⟨0x44, 0x0, 1, 0x0, 1, 0x0, 0x0, 0x0, 0x0, 0xFFFFFFFF⟩  /- SGN_SUBMIT_HI -/]

/-- Registers of the LDG window. -/
def rowsLDG : List RegRow := [
  ⟨0x10, 0x0, 1, 0x0, 1, 0x0, 0x0, 0x0, 0x0, 0x0⟩  /- LDG_STAT -/,
  ⟨0x40, 0x0, 1, 0x0, 1, 0x0, 0x0, 0x0, 0x0, 0xFFFFFFFF⟩  /- LDG_APPEND_LO -/,
  ⟨0x44, 0x0, 1, 0x0, 1, 0x0, 0x0, 0x0, 0x0, 0xFFFFFFFF⟩  /- LDG_APPEND_HI -/,
  ⟨0x48, 0x0, 1, 0x0, 1, 0x0, 0x0, 0x0, 0x0, 0xFF000FFF⟩  /- LDG_APPEND_CTRL -/,
  ⟨0x4C, 0x0, 1, 0x0, 1, 0x0, 0x0, 0x0, 0x0, 0x0⟩  /- LDG_APPEND_RES -/,
  ⟨0x50, 0x0, 1, 0x0, 1, 0x0, 0x0, 0x0, 0x0, 0x37⟩  /- LDG_ACTIVATE -/,
  ⟨0x54, 0x0, 1, 0x0, 1, 0x0, 0x0, 0x0, 0x0, 0xFFFFFFFF⟩  /- LDG_ACTIVATE_SVN -/,
  ⟨0x58, 0x0, 1, 0x0, 1, 0x0, 0x0, 0x0, 0x0, 0xFFFFFFFF⟩  /- LDG_ARCHIVED_ACK_LO -/,
  ⟨0x5C, 0x0, 1, 0x0, 1, 0x0, 0x0, 0x0, 0x0, 0xFFFFFFFF⟩  /- LDG_ARCHIVED_ACK_HI -/]

/-- Registers of the KEY window. -/
def rowsKEY : List RegRow := [
  ⟨0x10, 0x0, 1, 0x0, 1, 0x0, 0x0, 0x0, 0x0, 0x0⟩  /- KEY_RNG_STAT -/,
  ⟨0x14, 0x0, 1, 0x0, 1, 0x0, 0x0, 0x0, 0x0, 0x0⟩  /- KEY_RNG_DATA -/,
  ⟨0x20, 0x0, 1, 0x0, 1, 0x0, 0x0, 0x0, 0x0, 0x0⟩  /- KEY_MEDIA_EPOCH_LO -/,
  ⟨0x24, 0x0, 1, 0x0, 1, 0x0, 0x0, 0x0, 0x0, 0x0⟩  /- KEY_MEDIA_EPOCH_HI -/,
  ⟨0x30, 0x0, 1, 0x0, 1, 0x0, 0x0, 0x0, 0x0, 0xF0003FFF⟩  /- KEY_NS_CMD -/,
  ⟨0x34, 0x0, 1, 0x0, 1, 0x0, 0x0, 0x0, 0x0, 0x0⟩  /- KEY_NS_RES -/]

/-- Registers of the PWR window. -/
def rowsPWR : List RegRow := [
  ⟨0x10, 0x0, 1, 0x0, 1, 0x7D0002B7, 0x0, 0xFF8003FF, 0x0, 0x0⟩  /- PWR_IN_CFG -/,
  ⟨0x14, 0x0, 1, 0x0, 1, 0x0, 0x0, 0x0, 0x0, 0x0⟩  /- PWR_IN_STAT -/,
  ⟨0x20, 0x0, 1, 0x0, 1, 0xA07D7867, 0x0, 0xFFFFFCFF, 0x0, 0x0⟩  /- PWR_GOV_CFG -/,
  ⟨0x24, 0x0, 1, 0x0, 1, 0x0, 0x80000000, 0x0, 0x0, 0x0⟩  /- PWR_GOV_REQ -/,
  ⟨0x28, 0x0, 1, 0x0, 1, 0x0, 0x0, 0x0, 0x0, 0x0⟩  /- PWR_GOV_STAT -/,
  ⟨0x2C, 0x0, 1, 0x0, 1, 0x55000000, 0x0, 0xFF000000, 0x0, 0x0⟩  /- PWR_THERM_CFG -/,
  ⟨0x30, 0x0, 1, 0x0, 1, 0x3, 0xFFFFFFFF, 0x0, 0x0, 0x0⟩  /- PWR_DOM_REQ_0 -/,
  ⟨0x34, 0x0, 1, 0x0, 1, 0x0, 0xFF, 0x0, 0x0, 0x0⟩  /- PWR_DOM_REQ_1 -/,
  ⟨0x38, 0x0, 1, 0x0, 1, 0x0, 0x0, 0x0, 0x0, 0x0⟩  /- PWR_DOM_STAT_0 -/,
  ⟨0x3C, 0x0, 1, 0x0, 1, 0x0, 0x0, 0x0, 0x0, 0x0⟩  /- PWR_DOM_STAT_1 -/,
  ⟨0x40, 0x0, 1, 0x0, 1, 0x0, 0xFFFF, 0x0, 0x0, 0x0⟩  /- PWR_FPG_CTRL -/,
  ⟨0x44, 0x0, 1, 0x0, 1, 0x800009C4, 0x0, 0x8000FFFF, 0x0, 0x0⟩  /- PWR_FLASH_LIMIT -/,
  ⟨0x50, 0x0, 1, 0x0, 1, 0xF1864000, 0x0, 0xFFFFF000, 0x0, 0x0⟩  /- PWR_HOLD_CFG -/,
  ⟨0x54, 0x0, 1, 0x0, 1, 0x4B104000, 0x0, 0xFFFFF000, 0x0, 0x0⟩  /- PWR_FLUSH_CFG -/,
  ⟨0x58, 0x0, 1, 0x0, 1, 0x2000040, 0x0, 0xFFFF03FF, 0x0, 0x0⟩  /- PWR_DIRTY_MAX -/,
  ⟨0x60, 0x0, 1, 0x0, 1, 0x0, 0x0, 0x0, 0x0, 0x0⟩  /- PWR_HOLD_STAT -/,
  ⟨0x64, 0x0, 1, 0x0, 1, 0x0, 0x0, 0x0, 0x0, 0x0⟩  /- PWR_HOLD_BUDGET -/,
  ⟨0x70, 0x0, 1, 0x0, 1, 0x12C0400, 0x0, 0xFFFFFF00, 0x0, 0x0⟩  /- PWR_WRGOV_CFG -/,
  ⟨0x74, 0x0, 1, 0x0, 1, 0x0, 0x0, 0x0, 0x0, 0x0⟩  /- PWR_WRGOV_STAT -/,
  ⟨0x100, 0x8, 16, 0x0, 1, 0x960000, 0x0, 0xFFFFFF00, 0x0, 0x0⟩  /- PWR_FPG_CFG -/,
  ⟨0x104, 0x8, 16, 0x0, 1, 0x0, 0x0, 0x0, 0x0, 0x0⟩  /- PWR_FPG_STAT -/,
  ⟨0x200, 0x4, 48, 0x0, 1, 0x0, 0x0, 0x0, 0x0, 0x0⟩  /- PWR_SENSOR -/]

/-- Registers of the CLE window. -/
def rowsCLE : List RegRow := [
  ⟨0x1004, 0x100, 24, 0x0, 1, 0x0, 0x0, 0xCFC0FFFF, 0x0, 0x0⟩  /- CLE_CTRL -/,
  ⟨0x1008, 0x100, 24, 0x0, 1, 0x0, 0xFFFF, 0x0, 0x0, 0x0⟩  /- CLE_TARGET -/,
  ⟨0x100C, 0x100, 24, 0x0, 1, 0x0, 0x0, 0xFFFFFFFF, 0x0, 0x0⟩  /- CLE_LIMIT -/,
  ⟨0x1010, 0x100, 24, 0x4, 6, 0x0, 0x0, 0xFFFFFFFF, 0x0, 0x0⟩  /- CLE_COEF -/,
  ⟨0x1028, 0x100, 24, 0x0, 1, 0x0, 0x0, 0xFFFF, 0x0, 0x0⟩  /- CLE_FF -/,
  ⟨0x102C, 0x100, 24, 0x0, 1, 0x0, 0x0, 0xFFFFFFFF, 0x0, 0x0⟩  /- CLE_PLAUS -/,
  ⟨0x1030, 0x100, 24, 0x0, 1, 0x0, 0x0, 0x0, 0x0, 0x0⟩  /- CLE_MODEL -/,
  ⟨0x1034, 0x100, 24, 0x0, 1, 0x0, 0x0, 0x0, 0x8000, 0x0⟩  /- CLE_STAT -/,
  ⟨0x1038, 0x100, 24, 0x0, 1, 0x0, 0x0, 0x0, 0x0, 0x0⟩  /- CLE_MEAS -/]

/-- Registers of the HSF window. -/
def rowsHSF : List RegRow := [
  ⟨0x10, 0x0, 1, 0x0, 1, 0x40064, 0x0, 0xFFFFFF, 0x0, 0x0⟩  /- HSF_WDOG_CTRL -/,
  ⟨0x14, 0x0, 1, 0x0, 1, 0x0, 0x0, 0x0, 0x80000000, 0x0⟩  /- HSF_WDOG_STAT -/,
  ⟨0x100, 0x4, 16, 0x0, 1, 0x0, 0x0, 0x0, 0x0, 0x0⟩  /- HSF_SPD -/,
  ⟨0x200, 0x0, 1, 0x0, 1, 0x0, 0x0, 0x0, 0x0, 0x0⟩  /- HSF_PERT_GATE -/,
  ⟨0x210, 0x8, 4, 0x0, 1, 0x0, 0xF00000FF, 0x0, 0x0, 0x0⟩  /- HSF_PERT_SLOT -/,
  ⟨0x214, 0x8, 4, 0x0, 1, 0x0, 0xFFFFFFFF, 0x0, 0x0, 0x0⟩  /- HSF_PERT_PARAM -/]

/-- Registers of the MPR window. -/
def rowsMPR : List RegRow := [
  ⟨0x10, 0x0, 1, 0x0, 1, 0x183E8010, 0x0, 0xFFFFFFFF, 0x0, 0x0⟩  /- MPR_SCRUB_CFG -/,
  ⟨0x20, 0x0, 1, 0x0, 1, 0x0, 0x0, 0x0, 0x80000000, 0x0⟩  /- MPR_SRAM_STAT -/,
  ⟨0x100, 0x8, 16, 0x0, 1, 0x0, 0x0, 0xF003FFFF, 0x0, 0x0⟩  /- MPR_DREG_BASE -/,
  ⟨0x104, 0x8, 16, 0x0, 1, 0x0, 0x0, 0x3FFFF, 0x0, 0x0⟩  /- MPR_DREG_SIZE -/,
  ⟨0x200, 0x4, 31, 0x0, 1, 0xC0000000, 0x0, 0x0, 0x20000000, 0x0⟩  /- MPR_BKT_STAT -/,
  ⟨0x300, 0x0, 1, 0x0, 1, 0x0, 0xFF000000, 0x0, 0x0, 0x0⟩  /- MPR_INJ_CTRL -/,
  ⟨0x304, 0x0, 1, 0x0, 1, 0x0, 0xFFFFFFFF, 0x0, 0x0, 0x0⟩  /- MPR_INJ_ADDR_LO -/,
  ⟨0x308, 0x0, 1, 0x0, 1, 0x0, 0xFFFFFFFF, 0x0, 0x0, 0x0⟩  /- MPR_INJ_ADDR_HI -/]

/-- Registers of the DRC window. -/
def rowsDRC : List RegRow := [
  ⟨0x10, 0x0, 1, 0x0, 1, 0x50000A00, 0x0, 0xF000FF00, 0x0, 0x0⟩  /- DRC_CFG -/,
  ⟨0x14, 0x0, 1, 0x0, 1, 0x30100414, 0x0, 0xFFFFFFFF, 0x0, 0x0⟩  /- DRC_SCHED -/,
  ⟨0x18, 0x0, 1, 0x0, 1, 0x10003014, 0x0, 0xFFFFF0FF, 0x0, 0x0⟩  /- DRC_DISTURB -/,
  ⟨0x1C, 0x0, 1, 0x0, 1, 0xA080F18, 0x0, 0xFFFFFFFF, 0x0, 0x0⟩  /- DRC_TRAIN_CFG -/,
  ⟨0x20, 0x0, 1, 0x0, 1, 0x1000400, 0x0, 0xFFFFFF00, 0x0, 0x0⟩  /- DRC_FENCE_CFG -/,
  ⟨0x24, 0x0, 1, 0x0, 1, 0xC0000A01, 0x0, 0xC000FFFF, 0x0, 0x0⟩  /- DRC_SR_CFG -/,
  ⟨0x100, 0x4, 16, 0x0, 1, 0x0, 0x0, 0xFFFFFFFF, 0x0, 0x0⟩  /- DRC_HINT -/,
  ⟨0x1004, 0x1000, 6, 0x0, 1, 0x0, 0x0, 0x0, 0x0, 0x0⟩  /- DRC_CH_STAT -/,
  ⟨0x1008, 0x1000, 6, 0x0, 1, 0x0, 0x0, 0x0, 0x0, 0x0⟩  /- DRC_CH_MARGIN -/,
  ⟨0x100C, 0x1000, 6, 0x0, 1, 0x0, 0x0, 0x0, 0x80000000, 0x0⟩  /- DRC_CH_ERR -/,
  ⟨0x1010, 0x1000, 6, 0x0, 1, 0x0, 0x0, 0x0, 0x8000, 0x0⟩  /- DRC_CH_DIST -/,
  ⟨0x1014, 0x1000, 6, 0x0, 1, 0x0, 0x0, 0x0, 0x0, 0x0⟩  /- DRC_CH_FBKT -/,
  ⟨0x1040, 0x1000, 6, 0x4, 8, 0x0, 0x0, 0x0, 0x0, 0x0⟩  /- DRC_CH_REMAP -/]

/-- Registers of the TSK window. -/
def rowsTSK : List RegRow := [
  ⟨0x10, 0x0, 1, 0x0, 1, 0x3E803E8, 0x0, 0xFFFFFFFF, 0x0, 0x0⟩  /- TSK_CTRL -/,
  ⟨0x14, 0x0, 1, 0x0, 1, 0x0, 0x0, 0x0, 0x0, 0x0⟩  /- TSK_STAT -/,
  ⟨0x20, 0x0, 1, 0x0, 1, 0x0, 0x0, 0x0, 0x0, 0xFFFFFFFF⟩  /- TSK_SUBMIT_LO -/,
  ⟨0x24, 0x0, 1, 0x0, 1, 0x0, 0x0, 0x0, 0x0, 0xFFFFFFFF⟩  /- TSK_SUBMIT_HI -/,
  ⟨0x28, 0x0, 1, 0x0, 1, 0x0, 0x0, 0x0, 0x0, 0x0⟩  /- TSK_SUBMIT_RES -/,
  ⟨0x30, 0x0, 1, 0x0, 1, 0x0, 0x0, 0x0, 0x0, 0xFFFFFFFF⟩  /- TSK_FLAG_SET -/,
  ⟨0x34, 0x0, 1, 0x0, 1, 0x0, 0x0, 0x0, 0x0, 0xFF80FFFF⟩  /- TSK_CANCEL -/,
  ⟨0x38, 0x0, 1, 0x0, 1, 0x0, 0x0, 0x0, 0x0, 0xFFFF⟩  /- TSK_QUERY -/,
  ⟨0x3C, 0x0, 1, 0x0, 1, 0x0, 0x0, 0x0, 0x0, 0x0⟩  /- TSK_QUERY_RES -/,
  ⟨0x40, 0x0, 1, 0x0, 1, 0x0, 0x0, 0x0, 0x80000000, 0x0⟩  /- TSK_ERR_STAT -/,
  ⟨0x50, 0x0, 1, 0x0, 1, 0x0, 0x0, 0x0, 0x0, 0xFFFF03FF⟩  /- TSK_PROG_CMD -/,
  ⟨0x54, 0x0, 1, 0x0, 1, 0x0, 0x0, 0x0, 0x0, 0x0⟩  /- TSK_PROG_RES -/,
  ⟨0x58, 0x0, 1, 0x0, 1, 0x0, 0x0, 0x0, 0x0, 0xFFFFFFFF⟩  /- TSK_PROG_ADDR_LO -/,
  ⟨0x5C, 0x0, 1, 0x0, 1, 0x0, 0x0, 0x0, 0x0, 0xFFFFFFFF⟩  /- TSK_PROG_ADDR_HI -/,
  ⟨0x1004, 0x1000, 8, 0x0, 1, 0x0, 0x0, 0x0, 0x0, 0x0⟩  /- TSK_COB_STAT -/,
  ⟨0x1100, 0x1000, 8, 0x20, 8, 0x0, 0x0, 0x0, 0x0, 0x0⟩  /- TSK_CORE_TAKE -/,
  ⟨0x1104, 0x1000, 8, 0x20, 8, 0x0, 0x0, 0x0, 0x0, 0xC000FFFF⟩  /- TSK_CORE_END -/,
  ⟨0x1108, 0x1000, 8, 0x20, 8, 0x0, 0x0, 0x0, 0x0, 0x0⟩  /- TSK_CORE_FLAGS -/,
  ⟨0x110C, 0x1000, 8, 0x20, 8, 0x0, 0x80000000, 0x0, 0x0, 0x0⟩  /- TSK_CORE_CTRL -/,
  ⟨0x1110, 0x1000, 8, 0x20, 8, 0x0, 0x0, 0x0, 0x0, 0x0⟩  /- TSK_CORE_ARG_LO -/,
  ⟨0x1114, 0x1000, 8, 0x20, 8, 0x0, 0x0, 0x0, 0x0, 0x0⟩  /- TSK_CORE_ARG_HI -/]

/-- Registers of the POD window. -/
def rowsPOD : List RegRow := [
  ⟨0x10, 0x0, 1, 0x0, 1, 0x80000, 0x0, 0x0, 0x0, 0x0⟩  /- POD_STAT -/,
  ⟨0x14, 0x0, 1, 0x0, 1, 0x2000000, 0x0, 0x0, 0x0, 0x0⟩  /- POD_TOTALS -/,
  ⟨0x20, 0x0, 1, 0x0, 1, 0x0, 0x0, 0x0, 0x0, 0xFFFFFFFF⟩  /- POD_CMD_LO -/,
  ⟨0x24, 0x0, 1, 0x0, 1, 0x0, 0x0, 0x0, 0x0, 0xFFFFFFFF⟩  /- POD_CMD_HI -/,
  ⟨0x28, 0x0, 1, 0x0, 1, 0x0, 0x0, 0x0, 0x0, 0x0⟩  /- POD_CMD_RES -/,
  ⟨0x100, 0x40, 16, 0x0, 1, 0x0, 0x0, 0xFFFF000F, 0x0, 0x0⟩  /- POD_ENV_W0 -/,
  ⟨0x104, 0x40, 16, 0x0, 1, 0x0, 0x0, 0xFFFFFFFF, 0x0, 0x0⟩  /- POD_ENV_W1 -/,
  ⟨0x108, 0x40, 16, 0x0, 1, 0x0, 0x0, 0xFFFFFFFF, 0x0, 0x0⟩  /- POD_ENV_W2 -/,
  ⟨0x10C, 0x40, 16, 0x0, 1, 0x0, 0x0, 0xFFFFFFFF, 0x0, 0x0⟩  /- POD_ENV_W3 -/,
  ⟨0x110, 0x40, 16, 0x0, 1, 0x0, 0x0, 0xFFFFFFFF, 0x0, 0x0⟩  /- POD_ENV_W4 -/,
  ⟨0x114, 0x40, 16, 0x0, 1, 0x0, 0x0, 0xFFFFFFFF, 0x0, 0x0⟩  /- POD_ENV_W5 -/,
  ⟨0x118, 0x40, 16, 0x0, 1, 0x0, 0x0, 0xFFFFFFFF, 0x0, 0x0⟩  /- POD_ENV_W6 -/,
  ⟨0x11C, 0x40, 16, 0x0, 1, 0x0, 0x0, 0xFFFFFFFF, 0x0, 0x0⟩  /- POD_ENV_W7 -/,
  ⟨0x120, 0x40, 16, 0x0, 1, 0x0, 0x0, 0xFFFFFFFF, 0x0, 0x0⟩  /- POD_ENV_W8 -/,
  ⟨0x124, 0x40, 16, 0x0, 1, 0x0, 0x0, 0xFFFFFFFF, 0x0, 0x0⟩  /- POD_ENV_W9 -/,
  ⟨0x128, 0x40, 16, 0x0, 1, 0x0, 0x0, 0x3FF, 0x0, 0x0⟩  /- POD_ENV_W10 -/,
  ⟨0x12C, 0x40, 16, 0x0, 1, 0x0, 0x0, 0xFFFFFFFF, 0x0, 0x0⟩  /- POD_ENV_W11 -/,
  ⟨0x10000, 0x40, 4096, 0x4, 16, 0x0, 0x0, 0x0, 0x0, 0x0⟩  /- POD_ENTRY -/]

/-- Registers of the NVQ window. -/
def rowsNVQ : List RegRow := [
  ⟨0x10, 0x0, 1, 0x0, 1, 0x0, 0x0, 0x0, 0x0, 0x0⟩  /- NVQ_STAT -/,
  ⟨0x14, 0x0, 1, 0x0, 1, 0x0, 0x0, 0x0, 0x0, 0x0⟩  /- NVQ_LOCK_STAT -/,
  ⟨0x18, 0x0, 1, 0x0, 1, 0x0, 0x0, 0x0, 0x80000000, 0x0⟩  /- NVQ_ERR_STAT -/,
  ⟨0x20, 0x0, 1, 0x0, 1, 0x0, 0x0, 0x0, 0x0, 0x0⟩  /- NVQ_FW_ACT -/]

/-- Registers of the HIF window. -/
def rowsHIF : List RegRow := [
  ⟨0x10, 0x0, 1, 0x0, 1, 0x60322D00, 0x0, 0xF0FFFF00, 0x0, 0x0⟩  /- HIF_PORT_CFG -/,
  ⟨0x20, 0x4, 2, 0x0, 1, 0x0, 0x0, 0x0, 0x8000, 0x0⟩  /- HIF_LINK_STAT -/,
  ⟨0x28, 0x4, 2, 0x0, 1, 0x0, 0x0, 0x0, 0x0, 0x0⟩  /- HIF_CHAN -/]

/-- Registers of the FTL window. -/
def rowsFTL : List RegRow := [
  ⟨0x10, 0x0, 1, 0x0, 1, 0x320000, 0x80000000, 0x40FF0000, 0x0, 0x0⟩  /- FTL_CTRL -/,
  ⟨0x14, 0x0, 1, 0x0, 1, 0x0, 0x0, 0x0, 0x0, 0x0⟩  /- FTL_STAT -/,
  ⟨0x18, 0x0, 1, 0x0, 1, 0x10000, 0x0, 0x0, 0x40000000, 0x0⟩  /- FTL_DUR -/,
  ⟨0x1C, 0x0, 1, 0x0, 1, 0x0, 0x0, 0x0, 0x0, 0x0⟩  /- FTL_DIRTY_LIMIT -/,
  ⟨0x20, 0x0, 1, 0x0, 1, 0x0, 0x0, 0x0, 0x0, 0x0⟩  /- FTL_DIRTY_NOW -/,
  ⟨0x28, 0x0, 1, 0x0, 1, 0x0, 0x0, 0x0, 0x0, 0x0⟩  /- FTL_SEQ_LO -/,
  ⟨0x2C, 0x0, 1, 0x0, 1, 0x0, 0x0, 0x0, 0x0, 0x0⟩  /- FTL_SEQ_HI -/,
  ⟨0x30, 0x0, 1, 0x0, 1, 0x3C280F5A, 0x0, 0xFFFFFFFF, 0x0, 0x0⟩  /- FTL_GC_CTRL -/,
  ⟨0x34, 0x0, 1, 0x0, 1, 0x0, 0x0, 0x0, 0x80000000, 0x0⟩  /- FTL_GC_STAT -/,
  ⟨0x38, 0x0, 1, 0x0, 1, 0x0, 0x0, 0x0, 0x0, 0xC00FFFFF⟩  /- FTL_GC_VICTIM -/,
  ⟨0x40, 0x0, 1, 0x0, 1, 0x800C3200, 0x0, 0x80FFFF00, 0x0, 0x0⟩  /- FTL_SLC_CFG -/,
  ⟨0x48, 0x0, 1, 0x0, 1, 0xC80000, 0x0, 0xFFFF0000, 0x0, 0x0⟩  /- FTL_WEAR_CFG -/,
  ⟨0x50, 0x0, 1, 0x0, 1, 0x460A0200, 0x0, 0xFFFFFF00, 0x0, 0x0⟩  /- FTL_SPACE_CFG -/,
  ⟨0x54, 0x0, 1, 0x0, 1, 0x0, 0x0, 0x0, 0x0, 0x0⟩  /- FTL_SPARE_STAT -/,
  ⟨0x60, 0x0, 1, 0x0, 1, 0x10000A, 0x0, 0xFFFF00FF, 0x0, 0x0⟩  /- FTL_JNL_CFG -/,
  ⟨0x64, 0x0, 1, 0x0, 1, 0x0, 0x0, 0x0, 0x0, 0x0⟩  /- FTL_JNL_STAT -/,
  ⟨0x68, 0x0, 1, 0x0, 1, 0x0, 0x0, 0x0, 0x0, 0x0⟩  /- FTL_JSEQ_LO -/,
  ⟨0x6C, 0x0, 1, 0x0, 1, 0x0, 0x0, 0x0, 0x0, 0x0⟩  /- FTL_JSEQ_HI -/,
  ⟨0x70, 0x0, 1, 0x0, 1, 0x0, 0x0, 0x0, 0x0, 0x0⟩  /- FTL_SAN_STAT -/,
  ⟨0x80, 0x0, 1, 0x0, 1, 0x0, 0x0, 0x0, 0x80000000, 0x0⟩  /- FTL_ERR_STAT -/,
  ⟨0x90, 0x0, 1, 0x0, 1, 0x0, 0x0, 0x0, 0x0, 0x0⟩  /- FTL_HOST_GRAINS_LO -/,
  ⟨0x94, 0x0, 1, 0x0, 1, 0x0, 0x0, 0x0, 0x0, 0x0⟩  /- FTL_HOST_GRAINS_HI -/,
  ⟨0x98, 0x0, 1, 0x0, 1, 0x0, 0x0, 0x0, 0x0, 0x0⟩  /- FTL_MEDIA_GRAINS_LO -/,
  ⟨0x9C, 0x0, 1, 0x0, 1, 0x0, 0x0, 0x0, 0x0, 0x0⟩  /- FTL_MEDIA_GRAINS_HI -/]

/-- Registers of the CMP window. -/
def rowsCMP : List RegRow := [
  ⟨0x10, 0x0, 1, 0x0, 1, 0x40040064, 0x0, 0xC0FF03FF, 0x0, 0x0⟩  /- CMP_CTRL -/,
  ⟨0x14, 0x0, 1, 0x0, 1, 0x3C0000, 0x0, 0xFFFF0000, 0x0, 0x0⟩  /- CMP_CTX_CFG -/,
  ⟨0x18, 0x0, 1, 0x0, 1, 0x0, 0x0, 0x0, 0x0, 0x0⟩  /- CMP_STAT -/,
  ⟨0x20, 0x0, 1, 0x0, 1, 0x0, 0x0, 0x0, 0x0, 0xFFFFFFFF⟩  /- CMP_JOB_SUBMIT_LO -/,
  ⟨0x24, 0x0, 1, 0x0, 1, 0x0, 0x0, 0x0, 0x0, 0xFFFFFFFF⟩  /- CMP_JOB_SUBMIT_HI -/,
  ⟨0x30, 0x0, 1, 0x0, 1, 0x0, 0x0, 0x0, 0x0, 0xFC000000⟩  /- CMP_CTX_OPEN -/,
  ⟨0x34, 0x0, 1, 0x0, 1, 0x0, 0x0, 0x0, 0x0, 0x0⟩  /- CMP_CTX_OPEN_RES -/,
  ⟨0x38, 0x0, 1, 0x0, 1, 0x0, 0x0, 0x0, 0x0, 0xFFF⟩  /- CMP_CTX_CLOSE -/,
  ⟨0x1004, 0x100, 16, 0x0, 1, 0x0, 0x0, 0x0, 0x40000000, 0x0⟩  /- CMP_PIPE_STAT -/,
  ⟨0x1008, 0x100, 16, 0x0, 1, 0x0, 0x0, 0x0, 0x0, 0x0⟩  /- CMP_PIPE_UNITS_LO -/,
  ⟨0x100C, 0x100, 16, 0x0, 1, 0x0, 0x0, 0x0, 0x0, 0x0⟩  /- CMP_PIPE_UNITS_HI -/,
  ⟨0x1010, 0x100, 16, 0x0, 1, 0x0, 0x0, 0x0, 0x0, 0x0⟩  /- CMP_PIPE_RAW_LO -/,
  ⟨0x1014, 0x100, 16, 0x0, 1, 0x0, 0x0, 0x0, 0x0, 0x0⟩  /- CMP_PIPE_RAW_HI -/,
  ⟨0x1018, 0x100, 16, 0x0, 1, 0x0, 0x0, 0x0, 0x0, 0x0⟩  /- CMP_PIPE_IN_LO -/,
  ⟨0x101C, 0x100, 16, 0x0, 1, 0x0, 0x0, 0x0, 0x0, 0x0⟩  /- CMP_PIPE_IN_HI -/,
  ⟨0x1020, 0x100, 16, 0x0, 1, 0x0, 0x0, 0x0, 0x0, 0x0⟩  /- CMP_PIPE_OUT_LO -/,
  ⟨0x1024, 0x100, 16, 0x0, 1, 0x0, 0x0, 0x0, 0x0, 0x0⟩  /- CMP_PIPE_OUT_HI -/]

/-- Registers of the SCN window. -/
def rowsSCN : List RegRow := [
  ⟨0x10, 0x0, 1, 0x0, 1, 0x100010, 0x0, 0xFF01FF, 0x0, 0x0⟩  /- SCN_CTRL -/,
  ⟨0x14, 0x0, 1, 0x0, 1, 0x0, 0x0, 0x0, 0x0, 0x0⟩  /- SCN_STAT -/,
  ⟨0x20, 0x0, 1, 0x0, 1, 0x0, 0x0, 0x0, 0x0, 0xFFFFFFFF⟩  /- SCN_SUBMIT_LO -/,
  ⟨0x24, 0x0, 1, 0x0, 1, 0x0, 0x0, 0x0, 0x0, 0xFFFFFFFF⟩  /- SCN_SUBMIT_HI -/,
  ⟨0x28, 0x0, 1, 0x0, 1, 0x0, 0x0, 0x0, 0x0, 0xFFFFFFFF⟩  /- SCN_CANCEL_LO -/,
  ⟨0x2C, 0x0, 1, 0x0, 1, 0x0, 0x0, 0x0, 0x0, 0xFFFFFFFF⟩  /- SCN_CANCEL_HI -/,
  ⟨0x30, 0x0, 1, 0x0, 1, 0x0, 0x0, 0x0, 0x80000000, 0x0⟩  /- SCN_ERR_STAT -/,
  ⟨0x1004, 0x100, 32, 0x0, 1, 0x0, 0x0, 0x0, 0x0, 0x0⟩  /- SCN_ENG_STAT -/,
  ⟨0x1008, 0x100, 32, 0x0, 1, 0x0, 0x0, 0x0, 0x0, 0x0⟩  /- SCN_ENG_RECORDS_LO -/,
  ⟨0x100C, 0x100, 32, 0x0, 1, 0x0, 0x0, 0x0, 0x0, 0x0⟩  /- SCN_ENG_RECORDS_HI -/,
  ⟨0x1010, 0x100, 32, 0x0, 1, 0x0, 0x0, 0x0, 0x0, 0x0⟩  /- SCN_ENG_MATCHED_LO -/,
  ⟨0x1014, 0x100, 32, 0x0, 1, 0x0, 0x0, 0x0, 0x0, 0x0⟩  /- SCN_ENG_MATCHED_HI -/,
  ⟨0x1018, 0x100, 32, 0x0, 1, 0x0, 0x0, 0x0, 0x0, 0x0⟩  /- SCN_ENG_IN_LO -/,
  ⟨0x101C, 0x100, 32, 0x0, 1, 0x0, 0x0, 0x0, 0x0, 0x0⟩  /- SCN_ENG_IN_HI -/,
  ⟨0x1020, 0x100, 32, 0x0, 1, 0x0, 0x0, 0x0, 0x0, 0x0⟩  /- SCN_ENG_OUT_LO -/,
  ⟨0x1024, 0x100, 32, 0x0, 1, 0x0, 0x0, 0x0, 0x0, 0x0⟩  /- SCN_ENG_OUT_HI -/]

/-- Registers of the LDP window. -/
def rowsLDP : List RegRow := [
  ⟨0x10, 0x0, 1, 0x0, 1, 0xC0280014, 0x0, 0xC0FF00FF, 0x0, 0x0⟩  /- LDP_CODE -/,
  ⟨0x14, 0x0, 1, 0x0, 1, 0xA3406010, 0x0, 0xFFFFFFFF, 0x0, 0x0⟩  /- LDP_TRACK_CFG -/,
  ⟨0x18, 0x0, 1, 0x0, 1, 0x30060C0A, 0x0, 0xFFFFFFFF, 0x0, 0x0⟩  /- LDP_TRACK_LIM -/,
  ⟨0x1C, 0x0, 1, 0x0, 1, 0x1000018, 0x0, 0xFFFF00FF, 0x0, 0x0⟩  /- LDP_PATROL_CFG -/,
  ⟨0x20, 0x0, 1, 0x0, 1, 0x0, 0x0, 0x0, 0x0, 0xFFFFFFE0⟩  /- LDP_GRP_CMD -/,
  ⟨0x24, 0x0, 1, 0x0, 1, 0x0, 0x0, 0x0, 0x0, 0x0⟩  /- LDP_GRP_RES -/,
  ⟨0x28, 0x0, 1, 0x0, 1, 0x0, 0x0, 0x0, 0x0, 0x0⟩  /- LDP_PATROL_NEXT -/,
  ⟨0x2C, 0x0, 1, 0x0, 1, 0x0, 0x0, 0x0, 0x0, 0x0⟩  /- LDP_ADVISE_NEXT -/,
  ⟨0x30, 0x4, 3, 0x0, 1, 0x0, 0xFFFFFFFF, 0x0, 0x0, 0x0⟩  /- LDP_GRP_DATA, w = 0-2 -/,
  ⟨0x3C, 0x0, 1, 0x0, 1, 0x0, 0xF0FFFFFF, 0x0, 0x0, 0x0⟩  /- LDP_GRP_DATA, w = 3 -/,
  ⟨0x44, 0x0, 1, 0x0, 1, 0x0, 0x0, 0x0, 0x80000000, 0x0⟩  /- LDP_TRACK_STAT -/,
  ⟨0x60, 0x0, 1, 0x0, 1, 0x80604, 0x0, 0xFFFFFF, 0x0, 0x0⟩  /- LDP_CREDIT_COST -/,
  ⟨0x70, 0x4, 4, 0x0, 1, 0x0, 0x0, 0xFFFEFFFE, 0x0, 0x0⟩  /- LDP_CODING -/,
  ⟨0x80, 0x0, 1, 0x0, 1, 0xF8004000, 0x0, 0xFFFFFFFF, 0x0, 0x0⟩  /- LDP_BOUNDS_0 -/,
  ⟨0x84, 0x0, 1, 0x0, 1, 0x10000400, 0x0, 0xFFFFFFFF, 0x0, 0x0⟩  /- LDP_BOUNDS_1 -/,
  ⟨0x88, 0x0, 1, 0x0, 1, 0x100002, 0x0, 0x3FFF000F, 0x0, 0x0⟩  /- LDP_ARCHIVE -/,
  ⟨0x8C, 0x0, 1, 0x0, 1, 0x2, 0x0, 0xFF, 0x0, 0x0⟩  /- LDP_RESERVE -/,
  ⟨0x100, 0x10, 8, 0x4, 3, 0x0, 0x0, 0xFFFFFFFF, 0x0, 0x0⟩  /- LDP_RETRY, w = 0-2 -/,
  ⟨0x10C, 0x10, 8, 0x0, 1, 0x0, 0x0, 0x00FFFFFF, 0x0, 0x0⟩  /- LDP_RETRY, w = 3 -/]

/-- Registers of the ASK window. -/
def rowsASK : List RegRow := [
  ⟨0x10, 0x0, 1, 0x0, 1, 0x0, 0x0, 0xFFFF3FFF, 0x0, 0x0⟩  /- ASK_CTRL -/,
  ⟨0x14, 0x4, 4, 0x0, 1, 0x0, 0x0, 0xFFFFFFFF, 0x0, 0x0⟩  /- ASK_GROUP_ID -/,
  ⟨0x24, 0x0, 1, 0x0, 1, 0x0, 0x0, 0xFFFFFFFF, 0x0, 0x0⟩  /- ASK_PREFIX_LO -/,
  ⟨0x28, 0x0, 1, 0x0, 1, 0x0, 0x0, 0xFFFFFFFF, 0x0, 0x0⟩  /- ASK_PREFIX_HI -/,
  ⟨0x2C, 0x0, 1, 0x0, 1, 0x12B80000, 0x0, 0xFFFF0000, 0x0, 0x0⟩  /- ASK_NET_CFG -/,
  ⟨0x30, 0x0, 1, 0x0, 1, 0x61E9600, 0x0, 0xFFFFFF00, 0x0, 0x0⟩  /- ASK_PORT_CFG -/,
  ⟨0x34, 0x0, 1, 0x0, 1, 0xA530500, 0x0, 0xFFFFFF00, 0x0, 0x0⟩  /- ASK_HB_CFG -/,
  ⟨0x38, 0x0, 1, 0x0, 1, 0x14800258, 0x0, 0xFFF0FFFF, 0x0, 0x0⟩  /- ASK_XFER_CFG -/,
  ⟨0x40, 0x0, 1, 0x0, 1, 0x0, 0x0, 0x0, 0x0, 0x0⟩  /- ASK_VIEW_STAT -/,
  ⟨0x44, 0x0, 1, 0x0, 1, 0x0, 0x0, 0x0, 0x0, 0x0⟩  /- ASK_INCARNATION -/,
  ⟨0x48, 0x0, 1, 0x0, 1, 0x0, 0x0, 0x0, 0x0, 0x3FFF⟩  /- ASK_MEMBER_QUERY -/,
  ⟨0x4C, 0x0, 1, 0x0, 1, 0x0, 0x0, 0x0, 0x0, 0x0⟩  /- ASK_MEMBER_RES -/,
  ⟨0x80, 0x4, 7, 0x0, 1, 0x0, 0x0, 0x0, 0x80000000, 0x0⟩  /- ASK_DROP -/,
  ⟨0x100, 0x4, 2, 0x0, 1, 0x0, 0x0, 0x0, 0x80, 0x0⟩  /- ASK_PORT_STAT -/]

/-- Registers of the LMC window. -/
def rowsLMC : List RegRow := [
  ⟨0x10, 0x0, 1, 0x0, 1, 0x0, 0x0, 0x0, 0x80000000, 0x0⟩  /- LMC_STAT -/,
  ⟨0x100, 0x4, 4, 0x0, 1, 0x0, 0x0, 0xC03FFBFF, 0x0, 0x0⟩  /- LMC_LREG -/]

/-- Registers of the FCH window. -/
def rowsFCH : List RegRow := [
  ⟨0x10, 0x0, 1, 0x0, 1, 0x9801418, 0x80000000, 0xF80FFFF, 0x0, 0x0⟩  /- FCH_CTRL -/,
  ⟨0x14, 0x0, 1, 0x0, 1, 0x0, 0x0, 0x0, 0x0, 0x0⟩  /- FCH_STAT -/,
  ⟨0x18, 0x0, 1, 0x0, 1, 0x8832140A, 0x0, 0x8FFFFFFF, 0x0, 0x0⟩  /- FCH_SCHED -/,
  ⟨0x20, 0x0, 1, 0x0, 1, 0x0, 0x0, 0x0, 0x0, 0xFFFFFFFF⟩  /- FCH_SUBMIT_LO -/,
  ⟨0x24, 0x0, 1, 0x0, 1, 0x0, 0x0, 0x0, 0x0, 0xFFFFFFFF⟩  /- FCH_SUBMIT_HI -/,
  ⟨0x28, 0x0, 1, 0x0, 1, 0x0, 0x0, 0x0, 0x0, 0x0⟩  /- FCH_QSTAT -/,
  ⟨0x30, 0x0, 1, 0x0, 1, 0x0, 0x0, 0x0, 0x80000000, 0x0⟩  /- FCH_CREDIT_STAT -/,
  ⟨0x34, 0x0, 1, 0x0, 1, 0x0, 0x0, 0x0, 0x80000000, 0x0⟩  /- FCH_ERR_STAT -/,
  ⟨0x40, 0x4, 8, 0x0, 1, 0x0, 0x0, 0x0, 0x0, 0x0⟩  /- FCH_LUN_MAP -/,
  ⟨0x80, 0x0, 1, 0x0, 1, 0x0, 0x0, 0x0, 0x80000000, 0x0⟩  /- FCH_DCMP_STAT -/,
  ⟨0x88, 0x0, 1, 0x0, 1, 0x0, 0x0, 0x0, 0x0, 0x0⟩  /- FCH_DCMP_OUT_LO -/,
  ⟨0x8C, 0x0, 1, 0x0, 1, 0x0, 0x0, 0x0, 0x0, 0x0⟩  /- FCH_DCMP_OUT_HI -/,
  ⟨0x1000, 0x40, 64, 0x4, 16, 0x0, 0x0, 0x0, 0x0, 0x0⟩  /- FCH_DIE -/]

/-- Registers of a window (Table 1.1). -/
def rowsOf (win : Nat) : List RegRow :=
  match win with
  | 0x00 => rowsSYS
  | 0x01 => rowsCFG
  | 0x02 => rowsHSK
  | 0x03 => rowsEVT
  | 0x04 => rowsREC
  | 0x05 => rowsDIG
  | 0x06 => rowsSGN
  | 0x07 => rowsLDG
  | 0x08 => rowsKEY
  | 0x09 => rowsPWR
  | 0x0A => rowsCLE
  | 0x0B => rowsHSF
  | 0x0C => rowsMPR
  | 0x0D => rowsDRC
  | 0x0E => rowsTSK
  | 0x0F => rowsPOD
  | 0x10 => rowsNVQ
  | 0x11 => rowsHIF
  | 0x12 => rowsFTL
  | 0x13 => rowsCMP
  | 0x14 => rowsSCN
  | 0x15 => rowsLDP
  | 0x16 => rowsASK
  | 0x17 => rowsLMC
  | w => if 0x20 ≤ w ∧ w < 0x40 then rowsFCH else []

/-- Index of an offset in a row: the two element numbers, when the row holds that offset. -/
def RegRow.indexOf (r : RegRow) (off : Nat) : Option (Nat × Nat) :=
  if off < r.off then none
  else
    let d := off - r.off
    let i := if r.s1 = 0 then 0 else d / r.s1
    let e := d - r.s1 * i
    let j := if r.s2 = 0 then 0 else e / r.s2
    if i < r.n1 ∧ j < r.n2 ∧ e = r.s2 * j then some (i, j) else none

/-- The row that holds an offset of a window. -/
def findRow (win off : Nat) : Option RegRow :=
  (rowsOf win).find? (fun r => (r.indexOf off).isSome)

/-- SYS_CAP_UNITS (Table 0.4). -/
def SYS_CAP_UNITS : RegId := ⟨0x00, 0x10, 0x0, 0x0⟩
def SYS_CAP_UNITS_FCH_COUNT : Field := ⟨SYS_CAP_UNITS, 31, 26⟩
def SYS_CAP_UNITS_COB_COUNT : Field := ⟨SYS_CAP_UNITS, 25, 22⟩
def SYS_CAP_UNITS_DRC_COUNT : Field := ⟨SYS_CAP_UNITS, 21, 19⟩
def SYS_CAP_UNITS_CMP_PIPES : Field := ⟨SYS_CAP_UNITS, 18, 14⟩
def SYS_CAP_UNITS_DCMP_PIPES : Field := ⟨SYS_CAP_UNITS, 13, 8⟩
def SYS_CAP_UNITS_SCN_ENGINES : Field := ⟨SYS_CAP_UNITS, 7, 2⟩
def SYS_CAP_UNITS_ASK_PORTS : Field := ⟨SYS_CAP_UNITS, 1, 0⟩
/-- CFG_BGS_SHARE_n (Table 1.8). -/
def CFG_BGS_SHARE : RegId := ⟨0x01, 0x200, 0x4, 0x0⟩
def CFG_BGS_SHARE_CEIL : Field := ⟨CFG_BGS_SHARE, 25, 16⟩
def CFG_BGS_SHARE_FLOOR : Field := ⟨CFG_BGS_SHARE, 9, 0⟩
/-- CFG_BGS_STAT_n (Table 1.9). -/
def CFG_BGS_STAT : RegId := ⟨0x01, 0x240, 0x4, 0x0⟩
def CFG_BGS_STAT_CAP_OVF : Field := ⟨CFG_BGS_STAT, 31, 31⟩
def CFG_BGS_STAT_CAPPED : Field := ⟨CFG_BGS_STAT, 30, 16⟩
def CFG_BGS_STAT_MISS_OVF : Field := ⟨CFG_BGS_STAT, 15, 15⟩
def CFG_BGS_STAT_MISSED : Field := ⟨CFG_BGS_STAT, 14, 0⟩
/-- HSF_WDOG_CTRL (Table 2.4). -/
def HSF_WDOG_CTRL : RegId := ⟨0x0B, 0x10, 0x0, 0x0⟩
def HSF_WDOG_CTRL_FENCE_COUNT : Field := ⟨HSF_WDOG_CTRL, 23, 16⟩
def HSF_WDOG_CTRL_LIMIT : Field := ⟨HSF_WDOG_CTRL, 15, 0⟩
/-- HSF_WDOG_STAT (Table 2.5). -/
def HSF_WDOG_STAT : RegId := ⟨0x0B, 0x14, 0x0, 0x0⟩
def HSF_WDOG_STAT_OVF : Field := ⟨HSF_WDOG_STAT, 31, 31⟩
def HSF_WDOG_STAT_STALLS : Field := ⟨HSF_WDOG_STAT, 30, 24⟩
def HSF_WDOG_STAT_LAST_MASTER : Field := ⟨HSF_WDOG_STAT, 23, 16⟩
def HSF_WDOG_STAT_LAST_TARGET : Field := ⟨HSF_WDOG_STAT, 15, 8⟩
/-- HSF_SPD_n (Table 2.6). -/
def HSF_SPD : RegId := ⟨0x0B, 0x100, 0x4, 0x0⟩
def HSF_SPD_LOOP : Field := ⟨HSF_SPD, 31, 27⟩
def HSF_SPD_FACTOR : Field := ⟨HSF_SPD, 15, 0⟩
/-- HSF_PERT_GATE (Table 2.7). -/
def HSF_PERT_GATE : RegId := ⟨0x0B, 0x200, 0x0, 0x0⟩
def HSF_PERT_GATE_OPEN : Field := ⟨HSF_PERT_GATE, 31, 31⟩
def HSF_PERT_GATE_PERMIT : Field := ⟨HSF_PERT_GATE, 30, 30⟩
def HSF_PERT_GATE_TOKEN : Field := ⟨HSF_PERT_GATE, 29, 29⟩
/-- HSF_PERT_SLOT_n (Table 2.8). -/
def HSF_PERT_SLOT : RegId := ⟨0x0B, 0x210, 0x8, 0x0⟩
def HSF_PERT_SLOT_EN : Field := ⟨HSF_PERT_SLOT, 31, 31⟩
def HSF_PERT_SLOT_MODE : Field := ⟨HSF_PERT_SLOT, 30, 29⟩
def HSF_PERT_SLOT_SIDE : Field := ⟨HSF_PERT_SLOT, 28, 28⟩
def HSF_PERT_SLOT_PORT : Field := ⟨HSF_PERT_SLOT, 7, 0⟩
/-- HSF_PERT_PARAM_n (Table 2.9). -/
def HSF_PERT_PARAM : RegId := ⟨0x0B, 0x214, 0x8, 0x0⟩
def HSF_PERT_PARAM_DELAY : Field := ⟨HSF_PERT_PARAM, 31, 16⟩
def HSF_PERT_PARAM_DUTY : Field := ⟨HSF_PERT_PARAM, 15, 8⟩
def HSF_PERT_PARAM_SEED : Field := ⟨HSF_PERT_PARAM, 7, 0⟩
/-- CFG_MEM_INIT (Table 3.14). -/
def CFG_MEM_INIT : RegId := ⟨0x01, 0x30, 0x0, 0x0⟩
def CFG_MEM_INIT_DRAM_MODE : Field := ⟨CFG_MEM_INIT, 31, 31⟩
def CFG_MEM_INIT_SRAM_MODE : Field := ⟨CFG_MEM_INIT, 30, 30⟩
def CFG_MEM_INIT_SRAM_DONE : Field := ⟨CFG_MEM_INIT, 22, 22⟩
def CFG_MEM_INIT_DRAM_DONE : Field := ⟨CFG_MEM_INIT, 21, 16⟩
def CFG_MEM_INIT_PROGRESS : Field := ⟨CFG_MEM_INIT, 7, 0⟩
/-- CFG_BOOT_STAT (Table 3.21). -/
def CFG_BOOT_STAT : RegId := ⟨0x01, 0x10, 0x0, 0x0⟩
def CFG_BOOT_STAT_PHASE : Field := ⟨CFG_BOOT_STAT, 31, 28⟩
def CFG_BOOT_STAT_SAFE : Field := ⟨CFG_BOOT_STAT, 27, 27⟩
def CFG_BOOT_STAT_SAFE_CAUSE : Field := ⟨CFG_BOOT_STAT, 26, 23⟩
def CFG_BOOT_STAT_COPY : Field := ⟨CFG_BOOT_STAT, 22, 21⟩
def CFG_BOOT_STAT_REJ_A : Field := ⟨CFG_BOOT_STAT, 15, 12⟩
def CFG_BOOT_STAT_REJ_B : Field := ⟨CFG_BOOT_STAT, 11, 8⟩
/-- CFG_RESET_CAUSE (Table 3.22). -/
def CFG_RESET_CAUSE : RegId := ⟨0x01, 0x14, 0x0, 0x0⟩
def CFG_RESET_CAUSE_LAST : Field := ⟨CFG_RESET_CAUSE, 31, 28⟩
def CFG_RESET_CAUSE_OVF : Field := ⟨CFG_RESET_CAUSE, 23, 23⟩
def CFG_RESET_CAUSE_COUNT : Field := ⟨CFG_RESET_CAUSE, 22, 16⟩
def CFG_RESET_CAUSE_SEEN : Field := ⟨CFG_RESET_CAUSE, 15, 8⟩
/-- CFG_IMAGE_SEQ_LO (Table 3.23). -/
def CFG_IMAGE_SEQ_LO : RegId := ⟨0x01, 0x18, 0x0, 0x0⟩
/-- CFG_IMAGE_SEQ_HI (Table 3.24). -/
def CFG_IMAGE_SEQ_HI : RegId := ⟨0x01, 0x1C, 0x0, 0x0⟩
/-- CFG_SEQ_FLOOR_LO (Table 3.25). -/
def CFG_SEQ_FLOOR_LO : RegId := ⟨0x01, 0x20, 0x0, 0x0⟩
/-- CFG_SEQ_FLOOR_HI (Table 3.26). -/
def CFG_SEQ_FLOOR_HI : RegId := ⟨0x01, 0x24, 0x0, 0x0⟩
/-- SGN_OTP_STAT (Table 4.2). -/
def SGN_OTP_STAT : RegId := ⟨0x06, 0x10, 0x0, 0x0⟩
def SGN_OTP_STAT_CLAIM_EN : Field := ⟨SGN_OTP_STAT, 24, 24⟩
def SGN_OTP_STAT_OWN_REVOKED : Field := ⟨SGN_OTP_STAT, 23, 20⟩
def SGN_OTP_STAT_OWN_PROG : Field := ⟨SGN_OTP_STAT, 19, 16⟩
def SGN_OTP_STAT_VEN_REVOKED : Field := ⟨SGN_OTP_STAT, 7, 4⟩
def SGN_OTP_STAT_VEN_PROG : Field := ⟨SGN_OTP_STAT, 3, 0⟩
/-- SGN_STAT (Table 4.5). -/
def SGN_STAT : RegId := ⟨0x06, 0x20, 0x0, 0x0⟩
def SGN_STAT_IDKEY : Field := ⟨SGN_STAT, 31, 30⟩
def SGN_STAT_QUEUED : Field := ⟨SGN_STAT, 20, 16⟩
/-- DIG_OPEN (Table 4.7). -/
def DIG_OPEN : RegId := ⟨0x05, 0x20, 0x0, 0x0⟩
def DIG_OPEN_ALG : Field := ⟨DIG_OPEN, 31, 28⟩
def DIG_OPEN_OUT_LEN : Field := ⟨DIG_OPEN, 27, 21⟩
def DIG_OPEN_KEY_LEN : Field := ⟨DIG_OPEN, 20, 14⟩
def DIG_OPEN_CUST_LEN : Field := ⟨DIG_OPEN, 13, 6⟩
/-- DIG_OPEN_RES (Table 4.8). -/
def DIG_OPEN_RES : RegId := ⟨0x05, 0x24, 0x0, 0x0⟩
def DIG_OPEN_RES_RESULT : Field := ⟨DIG_OPEN_RES, 31, 30⟩
def DIG_OPEN_RES_SLOT : Field := ⟨DIG_OPEN_RES, 3, 0⟩
/-- DIG_CTRL (Table 4.9). -/
def DIG_CTRL : RegId := ⟨0x05, 0x10, 0x0, 0x0⟩
def DIG_CTRL_IDLE_MS : Field := ⟨DIG_CTRL, 15, 0⟩
/-- LDG_STAT (Table 4.19). -/
def LDG_STAT : RegId := ⟨0x07, 0x10, 0x0, 0x0⟩
def LDG_STAT_RING_FULL : Field := ⟨LDG_STAT, 31, 31⟩
def LDG_STAT_ARCHIVE_FULL : Field := ⟨LDG_STAT, 30, 30⟩
def LDG_STAT_ARCHIVE_WARN : Field := ⟨LDG_STAT, 29, 29⟩
def LDG_STAT_CREDITS : Field := ⟨LDG_STAT, 22, 16⟩
def LDG_STAT_MISSED_OVF : Field := ⟨LDG_STAT, 15, 15⟩
def LDG_STAT_MISSED : Field := ⟨LDG_STAT, 14, 0⟩
/-- LDG_APPEND_CTRL (Table 4.20). -/
def LDG_APPEND_CTRL : RegId := ⟨0x07, 0x48, 0x0, 0x0⟩
def LDG_APPEND_CTRL_KIND : Field := ⟨LDG_APPEND_CTRL, 31, 24⟩
def LDG_APPEND_CTRL_BODY_LEN : Field := ⟨LDG_APPEND_CTRL, 11, 0⟩
/-- LDG_APPEND_RES (Table 4.21). -/
def LDG_APPEND_RES : RegId := ⟨0x07, 0x4C, 0x0, 0x0⟩
def LDG_APPEND_RES_RESULT : Field := ⟨LDG_APPEND_RES, 31, 30⟩
def LDG_APPEND_RES_CAUSE : Field := ⟨LDG_APPEND_RES, 29, 24⟩
def LDG_APPEND_RES_INDEX : Field := ⟨LDG_APPEND_RES, 23, 0⟩
/-- LDG_ACTIVATE (Table 4.22). -/
def LDG_ACTIVATE : RegId := ⟨0x07, 0x50, 0x0, 0x0⟩
def LDG_ACTIVATE_DREC : Field := ⟨LDG_ACTIVATE, 5, 4⟩
def LDG_ACTIVATE_SLOT : Field := ⟨LDG_ACTIVATE, 2, 0⟩
/-- SGN_TOKEN_LATCH (Table 4.26). -/
def SGN_TOKEN_LATCH : RegId := ⟨0x06, 0x30, 0x0, 0x0⟩
def SGN_TOKEN_LATCH_TEST : Field := ⟨SGN_TOKEN_LATCH, 31, 31⟩
def SGN_TOKEN_LATCH_DEBUG : Field := ⟨SGN_TOKEN_LATCH, 30, 30⟩
def SGN_TOKEN_LATCH_WAIVER : Field := ⟨SGN_TOKEN_LATCH, 29, 29⟩
def SGN_TOKEN_LATCH_GRANT : Field := ⟨SGN_TOKEN_LATCH, 3, 0⟩
/-- KEY_RNG_STAT (Table 4.30). -/
def KEY_RNG_STAT : RegId := ⟨0x08, 0x10, 0x0, 0x0⟩
def KEY_RNG_STAT_ES_OK : Field := ⟨KEY_RNG_STAT, 31, 31⟩
def KEY_RNG_STAT_DRBG_OK : Field := ⟨KEY_RNG_STAT, 30, 30⟩
def KEY_RNG_STAT_FAIL : Field := ⟨KEY_RNG_STAT, 29, 28⟩
/-- KEY_NS_CMD (Table 4.31). -/
def KEY_NS_CMD : RegId := ⟨0x08, 0x30, 0x0, 0x0⟩
def KEY_NS_CMD_OP : Field := ⟨KEY_NS_CMD, 31, 28⟩
def KEY_NS_CMD_SLOT : Field := ⟨KEY_NS_CMD, 13, 0⟩
/-- KEY_NS_RES (Table 4.32). -/
def KEY_NS_RES : RegId := ⟨0x08, 0x34, 0x0, 0x0⟩
def KEY_NS_RES_RESULT : Field := ⟨KEY_NS_RES, 31, 30⟩
/-- FCH_CTRL (Table 5.4). -/
def FCH_CTRL : RegId := ⟨0x20, 0x10, 0x0, 0x0⟩
def FCH_CTRL_ENABLE : Field := ⟨FCH_CTRL, 31, 31⟩
def FCH_CTRL_MAX_RATE : Field := ⟨FCH_CTRL, 27, 24⟩
def FCH_CTRL_EXT_ALLOW : Field := ⟨FCH_CTRL, 23, 23⟩
def FCH_CTRL_RETRAIN_DT : Field := ⟨FCH_CTRL, 15, 8⟩
def FCH_CTRL_RETRAIN_H : Field := ⟨FCH_CTRL, 7, 0⟩
/-- FCH_STAT (Table 5.5). -/
def FCH_STAT : RegId := ⟨0x20, 0x14, 0x0, 0x0⟩
def FCH_STAT_STATE : Field := ⟨FCH_STAT, 31, 29⟩
def FCH_STAT_IFACE : Field := ⟨FCH_STAT, 28, 28⟩
def FCH_STAT_EXT : Field := ⟨FCH_STAT, 27, 27⟩
def FCH_STAT_RATE : Field := ⟨FCH_STAT, 23, 20⟩
def FCH_STAT_LUNS : Field := ⟨FCH_STAT, 15, 8⟩
def FCH_STAT_EXCLUDED : Field := ⟨FCH_STAT, 7, 0⟩
/-- FCH_LUN_MAP_c (Table 5.6). -/
def FCH_LUN_MAP : RegId := ⟨0x20, 0x40, 0x4, 0x0⟩
def FCH_LUN_MAP_PRESENT : Field := ⟨FCH_LUN_MAP, 23, 16⟩
def FCH_LUN_MAP_EXCLUDED : Field := ⟨FCH_LUN_MAP, 15, 8⟩
def FCH_LUN_MAP_IN_USE : Field := ⟨FCH_LUN_MAP, 7, 0⟩
/-- FCH_SCHED (Table 5.9). -/
def FCH_SCHED : RegId := ⟨0x20, 0x18, 0x0, 0x0⟩
def FCH_SCHED_SUSPEND_EN : Field := ⟨FCH_SCHED, 31, 31⟩
def FCH_SCHED_SUSP_MAX : Field := ⟨FCH_SCHED, 27, 24⟩
def FCH_SCHED_SUSP_MIN : Field := ⟨FCH_SCHED, 23, 16⟩
def FCH_SCHED_BYPASS : Field := ⟨FCH_SCHED, 15, 8⟩
def FCH_SCHED_CREDIT_WAIT : Field := ⟨FCH_SCHED, 7, 0⟩
/-- FCH_QSTAT (Table 5.10). -/
def FCH_QSTAT : RegId := ⟨0x20, 0x28, 0x0, 0x0⟩
def FCH_QSTAT_RUNNING : Field := ⟨FCH_QSTAT, 22, 16⟩
def FCH_QSTAT_QUEUED : Field := ⟨FCH_QSTAT, 11, 0⟩
/-- FCH_ERR_STAT (Table 5.11). -/
def FCH_ERR_STAT : RegId := ⟨0x20, 0x34, 0x0, 0x0⟩
def FCH_ERR_STAT_OVF : Field := ⟨FCH_ERR_STAT, 31, 31⟩
def FCH_ERR_STAT_PROG_FAIL : Field := ⟨FCH_ERR_STAT, 30, 20⟩
def FCH_ERR_STAT_ERASE_FAIL : Field := ⟨FCH_ERR_STAT, 19, 9⟩
def FCH_ERR_STAT_TIMEOUT : Field := ⟨FCH_ERR_STAT, 8, 0⟩
/-- LDP_CREDIT_COST (Table 5.12). -/
def LDP_CREDIT_COST : RegId := ⟨0x15, 0x60, 0x0, 0x0⟩
def LDP_CREDIT_COST_ERASE : Field := ⟨LDP_CREDIT_COST, 23, 16⟩
def LDP_CREDIT_COST_PROGRAM : Field := ⟨LDP_CREDIT_COST, 15, 8⟩
def LDP_CREDIT_COST_READ : Field := ⟨LDP_CREDIT_COST, 7, 0⟩
/-- FCH_CREDIT_STAT (Table 5.13). -/
def FCH_CREDIT_STAT : RegId := ⟨0x20, 0x30, 0x0, 0x0⟩
def FCH_CREDIT_STAT_OVF : Field := ⟨FCH_CREDIT_STAT, 31, 31⟩
def FCH_CREDIT_STAT_RESERVED : Field := ⟨FCH_CREDIT_STAT, 30, 16⟩
def FCH_CREDIT_STAT_IN_USE : Field := ⟨FCH_CREDIT_STAT, 15, 0⟩
/-- LDP_CODE (Table 5.16). -/
def LDP_CODE : RegId := ⟨0x15, 0x10, 0x0, 0x0⟩
def LDP_CODE_CODE_MAX : Field := ⟨LDP_CODE, 31, 30⟩
def LDP_CODE_SOFT_ITER : Field := ⟨LDP_CODE, 23, 16⟩
def LDP_CODE_HARD_ITER : Field := ⟨LDP_CODE, 7, 0⟩
/-- LDP_RETRY_k_w (Table 5.17). -/
def LDP_RETRY : RegId := ⟨0x15, 0x100, 0x10, 0x4⟩
def LDP_RETRY_T3 : Field := ⟨LDP_RETRY, 31, 24⟩
def LDP_RETRY_T2 : Field := ⟨LDP_RETRY, 23, 16⟩
def LDP_RETRY_T1 : Field := ⟨LDP_RETRY, 15, 8⟩
def LDP_RETRY_T0 : Field := ⟨LDP_RETRY, 7, 0⟩
/-- LDP_CODING_m (Table 5.18). -/
def LDP_CODING : RegId := ⟨0x15, 0x70, 0x4, 0x0⟩
def LDP_CODING_POLARITY : Field := ⟨LDP_CODING, 31, 16⟩
def LDP_CODING_MASK : Field := ⟨LDP_CODING, 15, 0⟩
/-- LDP_TRACK_CFG (Table 5.19). -/
def LDP_TRACK_CFG : RegId := ⟨0x15, 0x14, 0x0, 0x0⟩
def LDP_TRACK_CFG_DITHER_EN : Field := ⟨LDP_TRACK_CFG, 31, 31⟩
def LDP_TRACK_CFG_BG_ONLY : Field := ⟨LDP_TRACK_CFG, 30, 30⟩
def LDP_TRACK_CFG_DITHER_STEPS : Field := ⟨LDP_TRACK_CFG, 29, 28⟩
def LDP_TRACK_CFG_DITHER_RATIO : Field := ⟨LDP_TRACK_CFG, 27, 24⟩
def LDP_TRACK_CFG_TRACK_N : Field := ⟨LDP_TRACK_CFG, 23, 16⟩
def LDP_TRACK_CFG_HYST : Field := ⟨LDP_TRACK_CFG, 15, 8⟩
def LDP_TRACK_CFG_TRACK_N_PATROL : Field := ⟨LDP_TRACK_CFG, 7, 0⟩
/-- LDP_TRACK_LIM (Table 5.20). -/
def LDP_TRACK_LIM : RegId := ⟨0x15, 0x18, 0x0, 0x0⟩
def LDP_TRACK_LIM_OFF_MAX : Field := ⟨LDP_TRACK_LIM, 31, 24⟩
def LDP_TRACK_LIM_ITER_DITHER_MAX : Field := ⟨LDP_TRACK_LIM, 23, 16⟩
def LDP_TRACK_LIM_ITER_SWEEP : Field := ⟨LDP_TRACK_LIM, 15, 8⟩
def LDP_TRACK_LIM_ITER_REFRESH : Field := ⟨LDP_TRACK_LIM, 7, 0⟩
/-- LDP_PATROL_CFG (Table 5.21). -/
def LDP_PATROL_CFG : RegId := ⟨0x15, 0x1C, 0x0, 0x0⟩
def LDP_PATROL_CFG_MIN_FRAMES : Field := ⟨LDP_PATROL_CFG, 31, 16⟩
def LDP_PATROL_CFG_PERIOD_H : Field := ⟨LDP_PATROL_CFG, 7, 0⟩
/-- LDP_PATROL_NEXT (Table 5.22). -/
def LDP_PATROL_NEXT : RegId := ⟨0x15, 0x28, 0x0, 0x0⟩
def LDP_PATROL_NEXT_VALID : Field := ⟨LDP_PATROL_NEXT, 31, 31⟩
def LDP_PATROL_NEXT_CHANNEL : Field := ⟨LDP_PATROL_NEXT, 20, 16⟩
def LDP_PATROL_NEXT_CE : Field := ⟨LDP_PATROL_NEXT, 15, 13⟩
def LDP_PATROL_NEXT_LUN : Field := ⟨LDP_PATROL_NEXT, 12, 10⟩
def LDP_PATROL_NEXT_GROUP : Field := ⟨LDP_PATROL_NEXT, 4, 0⟩
/-- LDP_GRP_CMD (Table 5.23). -/
def LDP_GRP_CMD : RegId := ⟨0x15, 0x20, 0x0, 0x0⟩
def LDP_GRP_CMD_OP : Field := ⟨LDP_GRP_CMD, 31, 28⟩
def LDP_GRP_CMD_MODE : Field := ⟨LDP_GRP_CMD, 27, 26⟩
def LDP_GRP_CMD_SRC : Field := ⟨LDP_GRP_CMD, 25, 21⟩
def LDP_GRP_CMD_GROUP : Field := ⟨LDP_GRP_CMD, 20, 16⟩
def LDP_GRP_CMD_CHANNEL : Field := ⟨LDP_GRP_CMD, 15, 11⟩
def LDP_GRP_CMD_CE : Field := ⟨LDP_GRP_CMD, 10, 8⟩
def LDP_GRP_CMD_LUN : Field := ⟨LDP_GRP_CMD, 7, 5⟩
/-- LDP_GRP_RES (Table 5.24). -/
def LDP_GRP_RES : RegId := ⟨0x15, 0x24, 0x0, 0x0⟩
def LDP_GRP_RES_RESULT : Field := ⟨LDP_GRP_RES, 31, 30⟩
/-- LDP_GRP_DATA_w (Table 5.25). -/
def LDP_GRP_DATA : RegId := ⟨0x15, 0x30, 0x4, 0x0⟩
def LDP_GRP_DATA_B3 : Field := ⟨LDP_GRP_DATA, 31, 24⟩
def LDP_GRP_DATA_B2 : Field := ⟨LDP_GRP_DATA, 23, 16⟩
def LDP_GRP_DATA_B1 : Field := ⟨LDP_GRP_DATA, 15, 8⟩
def LDP_GRP_DATA_B0 : Field := ⟨LDP_GRP_DATA, 7, 0⟩
/-- LDP_TRACK_STAT (Table 5.26). -/
def LDP_TRACK_STAT : RegId := ⟨0x15, 0x44, 0x0, 0x0⟩
def LDP_TRACK_STAT_OVF : Field := ⟨LDP_TRACK_STAT, 31, 31⟩
def LDP_TRACK_STAT_SWEEPS : Field := ⟨LDP_TRACK_STAT, 30, 16⟩
def LDP_TRACK_STAT_STEPS : Field := ⟨LDP_TRACK_STAT, 15, 0⟩
/-- FTL_CTRL (Table 6.13). -/
def FTL_CTRL : RegId := ⟨0x12, 0x10, 0x0, 0x0⟩
def FTL_CTRL_ENABLE : Field := ⟨FTL_CTRL, 31, 31⟩
def FTL_CTRL_FORCE_WT : Field := ⟨FTL_CTRL, 30, 30⟩
def FTL_CTRL_SEAL_US : Field := ⟨FTL_CTRL, 23, 16⟩
/-- FTL_STAT (Table 6.14). -/
def FTL_STAT : RegId := ⟨0x12, 0x14, 0x0, 0x0⟩
def FTL_STAT_STATE : Field := ⟨FTL_STAT, 31, 29⟩
def FTL_STAT_FULL : Field := ⟨FTL_STAT, 28, 28⟩
def FTL_STAT_TAIL : Field := ⟨FTL_STAT, 27, 27⟩
def FTL_STAT_LEGACY : Field := ⟨FTL_STAT, 26, 26⟩
def FTL_STAT_PROGRESS : Field := ⟨FTL_STAT, 23, 16⟩
/-- FTL_DUR (Table 6.15). -/
def FTL_DUR : RegId := ⟨0x12, 0x18, 0x0, 0x0⟩
def FTL_DUR_MODE : Field := ⟨FTL_DUR, 31, 31⟩
def FTL_DUR_BREACH : Field := ⟨FTL_DUR, 30, 30⟩
def FTL_DUR_RESERVE_SHORT : Field := ⟨FTL_DUR, 29, 29⟩
def FTL_DUR_WT_CAUSE : Field := ⟨FTL_DUR, 23, 16⟩
/-- FTL_DIRTY_LIMIT (Table 6.16). -/
def FTL_DIRTY_LIMIT : RegId := ⟨0x12, 0x1C, 0x0, 0x0⟩
def FTL_DIRTY_LIMIT_BUF_MIB : Field := ⟨FTL_DIRTY_LIMIT, 31, 16⟩
def FTL_DIRTY_LIMIT_MAP_MIB : Field := ⟨FTL_DIRTY_LIMIT, 9, 0⟩
/-- FTL_GC_CTRL (Table 6.17). -/
def FTL_GC_CTRL : RegId := ⟨0x12, 0x30, 0x0, 0x0⟩
def FTL_GC_CTRL_FREE_HIGH : Field := ⟨FTL_GC_CTRL, 31, 24⟩
def FTL_GC_CTRL_FREE_LOW : Field := ⟨FTL_GC_CTRL, 23, 16⟩
def FTL_GC_CTRL_FREE_URGENT : Field := ⟨FTL_GC_CTRL, 15, 8⟩
def FTL_GC_CTRL_RETAIN_DAYS : Field := ⟨FTL_GC_CTRL, 7, 0⟩
/-- FTL_GC_STAT (Table 6.18). -/
def FTL_GC_STAT : RegId := ⟨0x12, 0x34, 0x0, 0x0⟩
def FTL_GC_STAT_OVF : Field := ⟨FTL_GC_STAT, 31, 31⟩
def FTL_GC_STAT_URGENT_ENTRIES : Field := ⟨FTL_GC_STAT, 30, 16⟩
def FTL_GC_STAT_FREE_MIN : Field := ⟨FTL_GC_STAT, 15, 8⟩
def FTL_GC_STAT_URGENT_SETS : Field := ⟨FTL_GC_STAT, 7, 0⟩
/-- FTL_GC_VICTIM (Table 6.19). -/
def FTL_GC_VICTIM : RegId := ⟨0x12, 0x38, 0x0, 0x0⟩
def FTL_GC_VICTIM_REASON : Field := ⟨FTL_GC_VICTIM, 31, 30⟩
def FTL_GC_VICTIM_SET : Field := ⟨FTL_GC_VICTIM, 19, 14⟩
def FTL_GC_VICTIM_INDEX : Field := ⟨FTL_GC_VICTIM, 13, 0⟩
/-- FTL_SLC_CFG (Table 6.20). -/
def FTL_SLC_CFG : RegId := ⟨0x12, 0x40, 0x0, 0x0⟩
def FTL_SLC_CFG_EN : Field := ⟨FTL_SLC_CFG, 31, 31⟩
def FTL_SLC_CFG_CEIL_MAX : Field := ⟨FTL_SLC_CFG, 23, 16⟩
def FTL_SLC_CFG_FOLD_START : Field := ⟨FTL_SLC_CFG, 15, 8⟩
/-- FTL_WEAR_CFG (Table 6.21). -/
def FTL_WEAR_CFG : RegId := ⟨0x12, 0x48, 0x0, 0x0⟩
def FTL_WEAR_CFG_WL_DELTA : Field := ⟨FTL_WEAR_CFG, 31, 16⟩
/-- FTL_SPACE_CFG (Table 6.22). -/
def FTL_SPACE_CFG : RegId := ⟨0x12, 0x50, 0x0, 0x0⟩
def FTL_SPACE_CFG_OP_PERMILLE : Field := ⟨FTL_SPACE_CFG, 31, 24⟩
def FTL_SPACE_CFG_SPARE_WARN : Field := ⟨FTL_SPACE_CFG, 23, 16⟩
def FTL_SPACE_CFG_SPARE_RO : Field := ⟨FTL_SPACE_CFG, 15, 8⟩
/-- FTL_SPARE_STAT (Table 6.23). -/
def FTL_SPARE_STAT : RegId := ⟨0x12, 0x54, 0x0, 0x0⟩
def FTL_SPARE_STAT_AVAIL_PCT : Field := ⟨FTL_SPARE_STAT, 31, 24⟩
def FTL_SPARE_STAT_USED_PCT : Field := ⟨FTL_SPARE_STAT, 23, 16⟩
/-- FTL_JNL_CFG (Table 6.24). -/
def FTL_JNL_CFG : RegId := ⟨0x12, 0x60, 0x0, 0x0⟩
def FTL_JNL_CFG_CKPT_FRAMES : Field := ⟨FTL_JNL_CFG, 31, 16⟩
def FTL_JNL_CFG_FLUSH_US : Field := ⟨FTL_JNL_CFG, 7, 0⟩
/-- FTL_JNL_STAT (Table 6.25). -/
def FTL_JNL_STAT : RegId := ⟨0x12, 0x64, 0x0, 0x0⟩
def FTL_JNL_STAT_SINCE_CKPT : Field := ⟨FTL_JNL_STAT, 31, 16⟩
def FTL_JNL_STAT_PENDING : Field := ⟨FTL_JNL_STAT, 15, 0⟩
/-- FTL_SAN_STAT (Table 6.26). -/
def FTL_SAN_STAT : RegId := ⟨0x12, 0x70, 0x0, 0x0⟩
def FTL_SAN_STAT_SANACT : Field := ⟨FTL_SAN_STAT, 31, 29⟩
def FTL_SAN_STAT_PHASE : Field := ⟨FTL_SAN_STAT, 28, 26⟩
def FTL_SAN_STAT_PROGRESS : Field := ⟨FTL_SAN_STAT, 15, 0⟩
/-- FTL_ERR_STAT (Table 6.27). -/
def FTL_ERR_STAT : RegId := ⟨0x12, 0x80, 0x0, 0x0⟩
def FTL_ERR_STAT_OVF : Field := ⟨FTL_ERR_STAT, 31, 31⟩
def FTL_ERR_STAT_REBUILT : Field := ⟨FTL_ERR_STAT, 30, 20⟩
def FTL_ERR_STAT_REBUILD_FAIL : Field := ⟨FTL_ERR_STAT, 19, 9⟩
def FTL_ERR_STAT_RETIRED : Field := ⟨FTL_ERR_STAT, 8, 0⟩
/-- CMP_CTRL (Table 7.11). -/
def CMP_CTRL : RegId := ⟨0x13, 0x10, 0x0, 0x0⟩
def CMP_CTRL_EFFORT_UNIT : Field := ⟨CMP_CTRL, 31, 30⟩
def CMP_CTRL_VERIFY_FENCE : Field := ⟨CMP_CTRL, 23, 16⟩
def CMP_CTRL_STREAM_FLOOR : Field := ⟨CMP_CTRL, 9, 0⟩
/-- CMP_CTX_CFG (Table 7.12). -/
def CMP_CTX_CFG : RegId := ⟨0x13, 0x14, 0x0, 0x0⟩
def CMP_CTX_CFG_IDLE_S : Field := ⟨CMP_CTX_CFG, 31, 16⟩
/-- CMP_STAT (Table 7.13). -/
def CMP_STAT : RegId := ⟨0x13, 0x18, 0x0, 0x0⟩
def CMP_STAT_FENCED : Field := ⟨CMP_STAT, 31, 16⟩
def CMP_STAT_CTX_OPEN : Field := ⟨CMP_STAT, 12, 0⟩
/-- CMP_CTX_OPEN (Table 7.14). -/
def CMP_CTX_OPEN : RegId := ⟨0x13, 0x30, 0x0, 0x0⟩
def CMP_CTX_OPEN_KIND : Field := ⟨CMP_CTX_OPEN, 31, 30⟩
def CMP_CTX_OPEN_FRAMING : Field := ⟨CMP_CTX_OPEN, 29, 28⟩
def CMP_CTX_OPEN_EFFORT : Field := ⟨CMP_CTX_OPEN, 27, 26⟩
/-- CMP_CTX_OPEN_RES (Table 7.15). -/
def CMP_CTX_OPEN_RES : RegId := ⟨0x13, 0x34, 0x0, 0x0⟩
def CMP_CTX_OPEN_RES_RESULT : Field := ⟨CMP_CTX_OPEN_RES, 31, 30⟩
def CMP_CTX_OPEN_RES_HANDLE : Field := ⟨CMP_CTX_OPEN_RES, 11, 0⟩
/-- FCH_DCMP_STAT (Table 7.17). -/
def FCH_DCMP_STAT : RegId := ⟨0x20, 0x80, 0x0, 0x0⟩
def FCH_DCMP_STAT_OVF : Field := ⟨FCH_DCMP_STAT, 31, 31⟩
def FCH_DCMP_STAT_CONT_ERR : Field := ⟨FCH_DCMP_STAT, 30, 16⟩
def FCH_DCMP_STAT_EXT_Q : Field := ⟨FCH_DCMP_STAT, 15, 8⟩
def FCH_DCMP_STAT_JOBS_Q : Field := ⟨FCH_DCMP_STAT, 4, 0⟩
/-- SCN_CTRL (Table 8.15). -/
def SCN_CTRL : RegId := ⟨0x14, 0x10, 0x0, 0x0⟩
def SCN_CTRL_ORDER_WINDOW : Field := ⟨SCN_CTRL, 23, 16⟩
def SCN_CTRL_POD_JOBS : Field := ⟨SCN_CTRL, 8, 0⟩
/-- SCN_STAT (Table 8.16). -/
def SCN_STAT : RegId := ⟨0x14, 0x14, 0x0, 0x0⟩
def SCN_STAT_GROUPS_ON : Field := ⟨SCN_STAT, 27, 24⟩
def SCN_STAT_JOBS : Field := ⟨SCN_STAT, 8, 0⟩
/-- SCN_ERR_STAT (Table 8.17). -/
def SCN_ERR_STAT : RegId := ⟨0x14, 0x30, 0x0, 0x0⟩
def SCN_ERR_STAT_OVF : Field := ⟨SCN_ERR_STAT, 31, 31⟩
def SCN_ERR_STAT_MALFORMED : Field := ⟨SCN_ERR_STAT, 30, 16⟩
def SCN_ERR_STAT_INVALID : Field := ⟨SCN_ERR_STAT, 14, 0⟩
/-- TSK_CTRL (Table 9.13). -/
def TSK_CTRL : RegId := ⟨0x0E, 0x10, 0x0, 0x0⟩
def TSK_CTRL_DEF_LIMIT : Field := ⟨TSK_CTRL, 31, 16⟩
def TSK_CTRL_CANCEL_GRACE : Field := ⟨TSK_CTRL, 15, 0⟩
/-- TSK_STAT (Table 9.14). -/
def TSK_STAT : RegId := ⟨0x0E, 0x14, 0x0, 0x0⟩
def TSK_STAT_VINES_BUSY : Field := ⟨TSK_STAT, 29, 17⟩
def TSK_STAT_IN_USE : Field := ⟨TSK_STAT, 16, 0⟩
/-- TSK_SUBMIT_RES (Table 9.15). -/
def TSK_SUBMIT_RES : RegId := ⟨0x0E, 0x28, 0x0, 0x0⟩
def TSK_SUBMIT_RES_RESULT : Field := ⟨TSK_SUBMIT_RES, 31, 29⟩
def TSK_SUBMIT_RES_CAUSE : Field := ⟨TSK_SUBMIT_RES, 28, 26⟩
def TSK_SUBMIT_RES_GEN : Field := ⟨TSK_SUBMIT_RES, 22, 16⟩
def TSK_SUBMIT_RES_INDEX : Field := ⟨TSK_SUBMIT_RES, 15, 0⟩
/-- TSK_CANCEL (Table 9.16). -/
def TSK_CANCEL : RegId := ⟨0x0E, 0x34, 0x0, 0x0⟩
def TSK_CANCEL_VALID : Field := ⟨TSK_CANCEL, 31, 31⟩
def TSK_CANCEL_GEN : Field := ⟨TSK_CANCEL, 30, 24⟩
def TSK_CANCEL_VINE : Field := ⟨TSK_CANCEL, 23, 23⟩
def TSK_CANCEL_TARGET : Field := ⟨TSK_CANCEL, 15, 0⟩
/-- TSK_QUERY_RES (Table 9.17). -/
def TSK_QUERY_RES : RegId := ⟨0x0E, 0x3C, 0x0, 0x0⟩
def TSK_QUERY_RES_STATE : Field := ⟨TSK_QUERY_RES, 31, 29⟩
def TSK_QUERY_RES_CANCEL : Field := ⟨TSK_QUERY_RES, 28, 28⟩
def TSK_QUERY_RES_CORE : Field := ⟨TSK_QUERY_RES, 27, 22⟩
def TSK_QUERY_RES_GEN : Field := ⟨TSK_QUERY_RES, 21, 15⟩
def TSK_QUERY_RES_PRIO : Field := ⟨TSK_QUERY_RES, 14, 12⟩
def TSK_QUERY_RES_POD : Field := ⟨TSK_QUERY_RES, 11, 0⟩
/-- TSK_ERR_STAT (Table 9.18). -/
def TSK_ERR_STAT : RegId := ⟨0x0E, 0x40, 0x0, 0x0⟩
def TSK_ERR_STAT_OVF : Field := ⟨TSK_ERR_STAT, 31, 31⟩
def TSK_ERR_STAT_STALE : Field := ⟨TSK_ERR_STAT, 30, 16⟩
def TSK_ERR_STAT_FORCED : Field := ⟨TSK_ERR_STAT, 15, 0⟩
/-- TSK_PROG_CMD (Table 9.19). -/
def TSK_PROG_CMD : RegId := ⟨0x0E, 0x50, 0x0, 0x0⟩
def TSK_PROG_CMD_OP : Field := ⟨TSK_PROG_CMD, 31, 28⟩
def TSK_PROG_CMD_POD : Field := ⟨TSK_PROG_CMD, 27, 16⟩
def TSK_PROG_CMD_HANDLE : Field := ⟨TSK_PROG_CMD, 9, 0⟩
/-- HIF_PORT_CFG (Table 10.3). -/
def HIF_PORT_CFG : RegId := ⟨0x11, 0x10, 0x0, 0x0⟩
def HIF_PORT_CFG_SPLIT : Field := ⟨HIF_PORT_CFG, 31, 31⟩
def HIF_PORT_CFG_MAX_SPEED : Field := ⟨HIF_PORT_CFG, 30, 28⟩
def HIF_PORT_CFG_LEN_WARN_CM : Field := ⟨HIF_PORT_CFG, 23, 16⟩
def HIF_PORT_CFG_LOSS_PER_CM : Field := ⟨HIF_PORT_CFG, 15, 8⟩
/-- HIF_LINK_STAT_p (Table 10.4). -/
def HIF_LINK_STAT : RegId := ⟨0x11, 0x20, 0x4, 0x0⟩
def HIF_LINK_STAT_STATE : Field := ⟨HIF_LINK_STAT, 31, 29⟩
def HIF_LINK_STAT_SPEED : Field := ⟨HIF_LINK_STAT, 28, 26⟩
def HIF_LINK_STAT_WIDTH : Field := ⟨HIF_LINK_STAT, 25, 21⟩
def HIF_LINK_STAT_FLIT : Field := ⟨HIF_LINK_STAT, 20, 20⟩
def HIF_LINK_STAT_PRESET : Field := ⟨HIF_LINK_STAT, 19, 16⟩
def HIF_LINK_STAT_OVF : Field := ⟨HIF_LINK_STAT, 15, 15⟩
def HIF_LINK_STAT_RETRAINS : Field := ⟨HIF_LINK_STAT, 14, 8⟩
/-- HIF_CHAN_p (Table 10.5). -/
def HIF_CHAN : RegId := ⟨0x11, 0x28, 0x4, 0x0⟩
def HIF_CHAN_LEN_CM : Field := ⟨HIF_CHAN, 31, 24⟩
def HIF_CHAN_LOSS : Field := ⟨HIF_CHAN, 23, 16⟩
def HIF_CHAN_REFL_CM : Field := ⟨HIF_CHAN, 15, 8⟩
/-- NVQ_STAT (Table 10.21). -/
def NVQ_STAT : RegId := ⟨0x10, 0x10, 0x0, 0x0⟩
def NVQ_STAT_OUTSTANDING : Field := ⟨NVQ_STAT, 31, 13⟩
def NVQ_STAT_FETCH_STOPPED : Field := ⟨NVQ_STAT, 12, 12⟩
/-- NVQ_LOCK_STAT (Table 10.22). -/
def NVQ_LOCK_STAT : RegId := ⟨0x10, 0x14, 0x0, 0x0⟩
def NVQ_LOCK_STAT_IN_USE : Field := ⟨NVQ_LOCK_STAT, 31, 16⟩
def NVQ_LOCK_STAT_WAITING : Field := ⟨NVQ_LOCK_STAT, 15, 0⟩
/-- NVQ_ERR_STAT (Table 10.23). -/
def NVQ_ERR_STAT : RegId := ⟨0x10, 0x18, 0x0, 0x0⟩
def NVQ_ERR_STAT_OVF : Field := ⟨NVQ_ERR_STAT, 31, 31⟩
def NVQ_ERR_STAT_LEN_ERR : Field := ⟨NVQ_ERR_STAT, 30, 21⟩
def NVQ_ERR_STAT_DMA_ERR : Field := ⟨NVQ_ERR_STAT, 20, 11⟩
def NVQ_ERR_STAT_PI_ERR : Field := ⟨NVQ_ERR_STAT, 10, 0⟩
/-- NVQ_FW_ACT (Table 10.24). -/
def NVQ_FW_ACT : RegId := ⟨0x10, 0x20, 0x0, 0x0⟩
def NVQ_FW_ACT_RESULT : Field := ⟨NVQ_FW_ACT, 31, 30⟩
def NVQ_FW_ACT_PAUSE_MS : Field := ⟨NVQ_FW_ACT, 15, 0⟩
/-- POD_STAT (Table 11.11). -/
def POD_STAT : RegId := ⟨0x0F, 0x10, 0x0, 0x0⟩
def POD_STAT_IN_USE : Field := ⟨POD_STAT, 31, 19⟩
def POD_STAT_QUIESCED : Field := ⟨POD_STAT, 18, 6⟩
/-- POD_TOTALS (Table 11.12). -/
def POD_TOTALS : RegId := ⟨0x0F, 0x14, 0x0, 0x0⟩
def POD_TOTALS_IOQ_RESERVED : Field := ⟨POD_TOTALS, 31, 17⟩
def POD_TOTALS_IMS_RESERVED : Field := ⟨POD_TOTALS, 16, 2⟩
/-- POD_CMD_RES (Table 11.13). -/
def POD_CMD_RES : RegId := ⟨0x0F, 0x28, 0x0, 0x0⟩
def POD_CMD_RES_RESULT : Field := ⟨POD_CMD_RES, 31, 30⟩
def POD_CMD_RES_CAUSE : Field := ⟨POD_CMD_RES, 29, 24⟩
def POD_CMD_RES_VALUE : Field := ⟨POD_CMD_RES, 23, 0⟩
/-- DRC_CFG (Table 12.8). -/
def DRC_CFG : RegId := ⟨0x0D, 0x10, 0x0, 0x0⟩
def DRC_CFG_RATE_MAX : Field := ⟨DRC_CFG, 31, 28⟩
def DRC_CFG_ROW_IDLE : Field := ⟨DRC_CFG, 15, 8⟩
/-- DRC_SCHED (Table 12.9). -/
def DRC_SCHED : RegId := ⟨0x0D, 0x14, 0x0, 0x0⟩
def DRC_SCHED_WQ_HIGH : Field := ⟨DRC_SCHED, 31, 24⟩
def DRC_SCHED_WQ_LOW : Field := ⟨DRC_SCHED, 23, 16⟩
def DRC_SCHED_ROW_HIT_MAX : Field := ⟨DRC_SCHED, 15, 8⟩
def DRC_SCHED_AGE_MAX : Field := ⟨DRC_SCHED, 7, 0⟩
/-- DRC_DISTURB (Table 12.10). -/
def DRC_DISTURB : RegId := ⟨0x0D, 0x18, 0x0, 0x0⟩
def DRC_DISTURB_DIST_THRESH : Field := ⟨DRC_DISTURB, 31, 16⟩
def DRC_DISTURB_STRIKES : Field := ⟨DRC_DISTURB, 15, 12⟩
def DRC_DISTURB_THROTTLE : Field := ⟨DRC_DISTURB, 7, 0⟩
/-- DRC_TRAIN_CFG (Table 12.11). -/
def DRC_TRAIN_CFG : RegId := ⟨0x0D, 0x1C, 0x0, 0x0⟩
def DRC_TRAIN_CFG_OSC_MS : Field := ⟨DRC_TRAIN_CFG, 31, 24⟩
def DRC_TRAIN_CFG_OSC_PS : Field := ⟨DRC_TRAIN_CFG, 23, 16⟩
def DRC_TRAIN_CFG_RETRAIN_DT : Field := ⟨DRC_TRAIN_CFG, 15, 8⟩
def DRC_TRAIN_CFG_RETRAIN_H : Field := ⟨DRC_TRAIN_CFG, 7, 0⟩
/-- DRC_FENCE_CFG (Table 12.12). -/
def DRC_FENCE_CFG : RegId := ⟨0x0D, 0x20, 0x0, 0x0⟩
def DRC_FENCE_CFG_CE_FENCE : Field := ⟨DRC_FENCE_CFG, 31, 16⟩
def DRC_FENCE_CFG_UE_FENCE : Field := ⟨DRC_FENCE_CFG, 15, 8⟩
def DRC_FENCE_CFG_FENCED : Field := ⟨DRC_FENCE_CFG, 5, 0⟩
/-- DRC_SR_CFG (Table 12.13). -/
def DRC_SR_CFG : RegId := ⟨0x0D, 0x24, 0x0, 0x0⟩
def DRC_SR_CFG_SR_EN : Field := ⟨DRC_SR_CFG, 31, 31⟩
def DRC_SR_CFG_DEEP_EN : Field := ⟨DRC_SR_CFG, 30, 30⟩
def DRC_SR_CFG_SR_IDLE : Field := ⟨DRC_SR_CFG, 15, 8⟩
def DRC_SR_CFG_DEEP_MS : Field := ⟨DRC_SR_CFG, 7, 0⟩
/-- DRC_HINT_n (Table 12.14). -/
def DRC_HINT : RegId := ⟨0x0D, 0x100, 0x4, 0x0⟩
/-- MPR_SCRUB_CFG (Table 12.20). -/
def MPR_SCRUB_CFG : RegId := ⟨0x0C, 0x10, 0x0, 0x0⟩
def MPR_SCRUB_CFG_SCRUB_H : Field := ⟨MPR_SCRUB_CFG, 31, 24⟩
def MPR_SCRUB_CFG_LEAK_MS : Field := ⟨MPR_SCRUB_CFG, 23, 12⟩
def MPR_SCRUB_CFG_THRESH : Field := ⟨MPR_SCRUB_CFG, 11, 0⟩
/-- MPR_SRAM_STAT (Table 12.21). -/
def MPR_SRAM_STAT : RegId := ⟨0x0C, 0x20, 0x0, 0x0⟩
def MPR_SRAM_STAT_OVF : Field := ⟨MPR_SRAM_STAT, 31, 31⟩
def MPR_SRAM_STAT_CE : Field := ⟨MPR_SRAM_STAT, 30, 16⟩
def MPR_SRAM_STAT_ROWS_USED : Field := ⟨MPR_SRAM_STAT, 15, 8⟩
def MPR_SRAM_STAT_UE : Field := ⟨MPR_SRAM_STAT, 7, 0⟩
/-- MPR_DREG_r_BASE (Table 12.22). -/
def MPR_DREG_BASE : RegId := ⟨0x0C, 0x100, 0x8, 0x0⟩
def MPR_DREG_BASE_VALID : Field := ⟨MPR_DREG_BASE, 31, 31⟩
def MPR_DREG_BASE_CODE : Field := ⟨MPR_DREG_BASE, 30, 29⟩
def MPR_DREG_BASE_MIRROR : Field := ⟨MPR_DREG_BASE, 28, 28⟩
def MPR_DREG_BASE_BASE : Field := ⟨MPR_DREG_BASE, 17, 0⟩
/-- MPR_DREG_r_SIZE (Table 12.23). -/
def MPR_DREG_SIZE : RegId := ⟨0x0C, 0x104, 0x8, 0x0⟩
def MPR_DREG_SIZE_SIZE : Field := ⟨MPR_DREG_SIZE, 17, 0⟩
/-- MPR_BKT_b_STAT (Table 12.24). -/
def MPR_BKT_STAT : RegId := ⟨0x0C, 0x200, 0x4, 0x0⟩
def MPR_BKT_STAT_HEALTH : Field := ⟨MPR_BKT_STAT, 31, 30⟩
def MPR_BKT_STAT_UE_SEEN : Field := ⟨MPR_BKT_STAT, 29, 29⟩
def MPR_BKT_STAT_BUCKET : Field := ⟨MPR_BKT_STAT, 15, 0⟩
/-- MPR_INJ_CTRL (Table 12.25). -/
def MPR_INJ_CTRL : RegId := ⟨0x0C, 0x300, 0x0, 0x0⟩
def MPR_INJ_CTRL_ARM : Field := ⟨MPR_INJ_CTRL, 31, 31⟩
def MPR_INJ_CTRL_KIND : Field := ⟨MPR_INJ_CTRL, 30, 28⟩
def MPR_INJ_CTRL_COPY : Field := ⟨MPR_INJ_CTRL, 27, 26⟩
def MPR_INJ_CTRL_TARGET : Field := ⟨MPR_INJ_CTRL, 25, 25⟩
def MPR_INJ_CTRL_IMMEDIATE : Field := ⟨MPR_INJ_CTRL, 24, 24⟩
/-- LMC_LREG_r (Table 12.26). -/
def LMC_LREG : RegId := ⟨0x17, 0x100, 0x4, 0x0⟩
def LMC_LREG_VALID : Field := ⟨LMC_LREG, 31, 31⟩
def LMC_LREG_CODE : Field := ⟨LMC_LREG, 30, 30⟩
def LMC_LREG_SIZE : Field := ⟨LMC_LREG, 21, 11⟩
def LMC_LREG_BASE : Field := ⟨LMC_LREG, 9, 0⟩
/-- LMC_STAT (Table 12.27). -/
def LMC_STAT : RegId := ⟨0x17, 0x10, 0x0, 0x0⟩
def LMC_STAT_OVF : Field := ⟨LMC_STAT, 31, 31⟩
def LMC_STAT_CE : Field := ⟨LMC_STAT, 30, 16⟩
def LMC_STAT_UE : Field := ⟨LMC_STAT, 15, 8⟩
def LMC_STAT_REMAP_USED : Field := ⟨LMC_STAT, 4, 0⟩
/-- PWR_IN_CFG (Table 13.2). -/
def PWR_IN_CFG : RegId := ⟨0x09, 0x10, 0x0, 0x0⟩
def PWR_IN_CFG_P_LIM_W : Field := ⟨PWR_IN_CFG, 31, 23⟩
def PWR_IN_CFG_I_LIM : Field := ⟨PWR_IN_CFG, 9, 0⟩
/-- PWR_IN_STAT (Table 13.3). -/
def PWR_IN_STAT : RegId := ⟨0x09, 0x14, 0x0, 0x0⟩
def PWR_IN_STAT_VIN : Field := ⟨PWR_IN_STAT, 31, 21⟩
def PWR_IN_STAT_PFAIL : Field := ⟨PWR_IN_STAT, 20, 20⟩
def PWR_IN_STAT_ILIM : Field := ⟨PWR_IN_STAT, 19, 19⟩
def PWR_IN_STAT_OV : Field := ⟨PWR_IN_STAT, 18, 18⟩
def PWR_IN_STAT_IIN : Field := ⟨PWR_IN_STAT, 9, 0⟩
/-- PWR_DOM_REQ_0 (Table 13.11). -/
def PWR_DOM_REQ_0 : RegId := ⟨0x09, 0x30, 0x0, 0x0⟩
/-- PWR_FPG_g_CFG (Table 13.12). -/
def PWR_FPG_CFG : RegId := ⟨0x09, 0x100, 0x8, 0x0⟩
def PWR_FPG_CFG_BUDGET : Field := ⟨PWR_FPG_CFG, 31, 16⟩
def PWR_FPG_CFG_EXPECT_PKG : Field := ⟨PWR_FPG_CFG, 15, 8⟩
/-- PWR_FPG_g_STAT (Table 13.13). -/
def PWR_FPG_STAT : RegId := ⟨0x09, 0x104, 0x8, 0x0⟩
def PWR_FPG_STAT_STATE : Field := ⟨PWR_FPG_STAT, 31, 29⟩
def PWR_FPG_STAT_PKG_EST : Field := ⟨PWR_FPG_STAT, 28, 24⟩
def PWR_FPG_STAT_SCALE : Field := ⟨PWR_FPG_STAT, 23, 16⟩
def PWR_FPG_STAT_IVCC : Field := ⟨PWR_FPG_STAT, 15, 0⟩
/-- PWR_FLASH_LIMIT (Table 13.14). -/
def PWR_FLASH_LIMIT : RegId := ⟨0x09, 0x44, 0x0, 0x0⟩
def PWR_FLASH_LIMIT_VCC_SEL : Field := ⟨PWR_FLASH_LIMIT, 31, 31⟩
def PWR_FLASH_LIMIT_VCC_MAX : Field := ⟨PWR_FLASH_LIMIT, 15, 0⟩
/-- PWR_HOLD_CFG (Table 13.15). -/
def PWR_HOLD_CFG : RegId := ⟨0x09, 0x50, 0x0, 0x0⟩
def PWR_HOLD_CFG_V_HOLD : Field := ⟨PWR_HOLD_CFG, 31, 26⟩
def PWR_HOLD_CFG_V_CUT : Field := ⟨PWR_HOLD_CFG, 25, 20⟩
def PWR_HOLD_CFG_CHG : Field := ⟨PWR_HOLD_CFG, 19, 12⟩
/-- PWR_FLUSH_CFG (Table 13.16). -/
def PWR_FLUSH_CFG : RegId := ⟨0x09, 0x54, 0x0, 0x0⟩
def PWR_FLUSH_CFG_P_FLUSH_W : Field := ⟨PWR_FLUSH_CFG, 31, 23⟩
def PWR_FLUSH_CFG_R_FLUSH : Field := ⟨PWR_FLUSH_CFG, 22, 16⟩
def PWR_FLUSH_CFG_MARGIN : Field := ⟨PWR_FLUSH_CFG, 15, 12⟩
/-- PWR_GOV_CFG (Table 13.20). -/
def PWR_GOV_CFG : RegId := ⟨0x09, 0x20, 0x0, 0x0⟩
def PWR_GOV_CFG_V_SUST : Field := ⟨PWR_GOV_CFG, 31, 24⟩
def PWR_GOV_CFG_P_SUST_W : Field := ⟨PWR_GOV_CFG, 23, 16⟩
def PWR_GOV_CFG_SURGE_S : Field := ⟨PWR_GOV_CFG, 15, 10⟩
def PWR_GOV_CFG_T_GOV : Field := ⟨PWR_GOV_CFG, 7, 0⟩
/-- PWR_GOV_STAT (Table 13.21). -/
def PWR_GOV_STAT : RegId := ⟨0x09, 0x28, 0x0, 0x0⟩
def PWR_GOV_STAT_STATE : Field := ⟨PWR_GOV_STAT, 31, 29⟩
def PWR_GOV_STAT_BUDGET_LEFT : Field := ⟨PWR_GOV_STAT, 25, 16⟩
def PWR_GOV_STAT_CEIL : Field := ⟨PWR_GOV_STAT, 15, 8⟩
def PWR_GOV_STAT_TJ : Field := ⟨PWR_GOV_STAT, 7, 0⟩
/-- PWR_WRGOV_CFG (Table 13.23). -/
def PWR_WRGOV_CFG : RegId := ⟨0x09, 0x70, 0x0, 0x0⟩
def PWR_WRGOV_CFG_DWPD_X100 : Field := ⟨PWR_WRGOV_CFG, 31, 16⟩
def PWR_WRGOV_CFG_BURST_H : Field := ⟨PWR_WRGOV_CFG, 15, 8⟩
/-- HSK_STAT (Table 14.6). -/
def HSK_STAT : RegId := ⟨0x02, 0x10, 0x0, 0x0⟩
def HSK_STAT_LOCKED : Field := ⟨HSK_STAT, 31, 31⟩
def HSK_STAT_ROM_TABLES : Field := ⟨HSK_STAT, 30, 30⟩
def HSK_STAT_VALID_ENTRIES : Field := ⟨HSK_STAT, 11, 0⟩
/-- HSK_DENY_STAT (Table 14.7). -/
def HSK_DENY_STAT : RegId := ⟨0x02, 0x14, 0x0, 0x0⟩
def HSK_DENY_STAT_OVF : Field := ⟨HSK_DENY_STAT, 31, 31⟩
def HSK_DENY_STAT_DENIED : Field := ⟨HSK_DENY_STAT, 30, 16⟩
def HSK_DENY_STAT_LAST_MASTER : Field := ⟨HSK_DENY_STAT, 15, 8⟩
def HSK_DENY_STAT_LAST_TARGET : Field := ⟨HSK_DENY_STAT, 7, 0⟩
/-- HSK_HB_CFG (Table 14.8). -/
def HSK_HB_CFG : RegId := ⟨0x02, 0x20, 0x0, 0x0⟩
def HSK_HB_CFG_FALLBACK : Field := ⟨HSK_HB_CFG, 19, 16⟩
def HSK_HB_CFG_PERIOD_MS : Field := ⟨HSK_HB_CFG, 15, 0⟩
/-- HSK_HB_STAT (Table 14.9). -/
def HSK_HB_STAT : RegId := ⟨0x02, 0x2C, 0x0, 0x0⟩
def HSK_HB_STAT_ARMED : Field := ⟨HSK_HB_STAT, 31, 31⟩
def HSK_HB_STAT_SUSPENDED : Field := ⟨HSK_HB_STAT, 30, 30⟩
def HSK_HB_STAT_OVF : Field := ⟨HSK_HB_STAT, 29, 29⟩
def HSK_HB_STAT_EXPIRIES : Field := ⟨HSK_HB_STAT, 28, 25⟩
def HSK_HB_STAT_MS_LEFT : Field := ⟨HSK_HB_STAT, 15, 0⟩
/-- HSK_ASK_CFG (Table 14.10). -/
def HSK_ASK_CFG : RegId := ⟨0x02, 0x40, 0x0, 0x0⟩
def HSK_ASK_CFG_PREFIX_LEN : Field := ⟨HSK_ASK_CFG, 31, 24⟩
def HSK_ASK_CFG_EGRESS_GBPS : Field := ⟨HSK_ASK_CFG, 23, 16⟩
/-- ASK_CTRL (Table 15.9). -/
def ASK_CTRL : RegId := ⟨0x16, 0x10, 0x0, 0x0⟩
def ASK_CTRL_ENABLE : Field := ⟨ASK_CTRL, 31, 31⟩
def ASK_CTRL_N : Field := ⟨ASK_CTRL, 30, 16⟩
def ASK_CTRL_MEMBER_ID : Field := ⟨ASK_CTRL, 13, 0⟩
/-- ASK_PORT_CFG (Table 15.10). -/
def ASK_PORT_CFG : RegId := ⟨0x16, 0x30, 0x0, 0x0⟩
def ASK_PORT_CFG_LOSS_CU : Field := ⟨ASK_PORT_CFG, 31, 24⟩
def ASK_PORT_CFG_LOSS_BP : Field := ⟨ASK_PORT_CFG, 23, 16⟩
def ASK_PORT_CFG_LEN_WARN : Field := ⟨ASK_PORT_CFG, 15, 8⟩
/-- ASK_PORT_p_STAT (Table 15.11). -/
def ASK_PORT_STAT : RegId := ⟨0x16, 0x100, 0x4, 0x0⟩
def ASK_PORT_STAT_STATE : Field := ⟨ASK_PORT_STAT, 31, 29⟩
def ASK_PORT_STAT_TYPE : Field := ⟨ASK_PORT_STAT, 28, 27⟩
def ASK_PORT_STAT_LEN_2CM : Field := ⟨ASK_PORT_STAT, 23, 16⟩
def ASK_PORT_STAT_LOSS : Field := ⟨ASK_PORT_STAT, 15, 8⟩
def ASK_PORT_STAT_OVF : Field := ⟨ASK_PORT_STAT, 7, 7⟩
def ASK_PORT_STAT_DOWNS : Field := ⟨ASK_PORT_STAT, 6, 0⟩
/-- ASK_HB_CFG (Table 15.12). -/
def ASK_HB_CFG : RegId := ⟨0x16, 0x34, 0x0, 0x0⟩
def ASK_HB_CFG_HB : Field := ⟨ASK_HB_CFG, 31, 24⟩
def ASK_HB_CFG_MISS : Field := ⟨ASK_HB_CFG, 23, 20⟩
def ASK_HB_CFG_SEED : Field := ⟨ASK_HB_CFG, 19, 16⟩
def ASK_HB_CFG_GOSSIP : Field := ⟨ASK_HB_CFG, 15, 8⟩
/-- ASK_XFER_CFG (Table 15.13). -/
def ASK_XFER_CFG : RegId := ⟨0x16, 0x38, 0x0, 0x0⟩
def ASK_XFER_CFG_RTO : Field := ⟨ASK_XFER_CFG, 31, 24⟩
def ASK_XFER_CFG_RETRIES : Field := ⟨ASK_XFER_CFG, 23, 20⟩
def ASK_XFER_CFG_REJOIN_S : Field := ⟨ASK_XFER_CFG, 15, 0⟩
/-- ASK_VIEW_STAT (Table 15.14). -/
def ASK_VIEW_STAT : RegId := ⟨0x16, 0x40, 0x0, 0x0⟩
def ASK_VIEW_STAT_STATE : Field := ⟨ASK_VIEW_STAT, 31, 29⟩
def ASK_VIEW_STAT_ALIVE : Field := ⟨ASK_VIEW_STAT, 28, 14⟩
def ASK_VIEW_STAT_SUSPECTS : Field := ⟨ASK_VIEW_STAT, 11, 0⟩
/-- ASK_MEMBER_RES (Table 15.15). -/
def ASK_MEMBER_RES : RegId := ⟨0x16, 0x4C, 0x0, 0x0⟩
def ASK_MEMBER_RES_STATE : Field := ⟨ASK_MEMBER_RES, 31, 29⟩
def ASK_MEMBER_RES_ACCUSERS : Field := ⟨ASK_MEMBER_RES, 28, 14⟩
def ASK_MEMBER_RES_MEMBER : Field := ⟨ASK_MEMBER_RES, 13, 0⟩
/-- ASK_DROP_n (Table 15.16). -/
def ASK_DROP : RegId := ⟨0x16, 0x80, 0x4, 0x0⟩
def ASK_DROP_OVF : Field := ⟨ASK_DROP, 31, 31⟩
def ASK_DROP_COUNT : Field := ⟨ASK_DROP, 30, 0⟩
/-- EVT_ROUTE_n (Table 16.5). -/
def EVT_ROUTE : RegId := ⟨0x03, 0x1000, 0x4, 0x0⟩
def EVT_ROUTE_COAL : Field := ⟨EVT_ROUTE, 6, 6⟩
def EVT_ROUTE_CLE : Field := ⟨EVT_ROUTE, 5, 5⟩
def EVT_ROUTE_MI : Field := ⟨EVT_ROUTE, 4, 4⟩
def EVT_ROUTE_HOSTP : Field := ⟨EVT_ROUTE, 3, 3⟩
def EVT_ROUTE_HOST0 : Field := ⟨EVT_ROUTE, 2, 2⟩
def EVT_ROUTE_REC : Field := ⟨EVT_ROUTE, 1, 1⟩
def EVT_ROUTE_MGMT : Field := ⟨EVT_ROUTE, 0, 0⟩
/-- EVT_CTRL (Table 16.11). -/
def EVT_CTRL : RegId := ⟨0x03, 0x10, 0x0, 0x0⟩
def EVT_CTRL_COAL_US : Field := ⟨EVT_CTRL, 19, 0⟩
/-- EVT_STAT (Table 16.12). -/
def EVT_STAT : RegId := ⟨0x03, 0x14, 0x0, 0x0⟩
def EVT_STAT_OVF : Field := ⟨EVT_STAT, 31, 31⟩
def EVT_STAT_MQ_LOST : Field := ⟨EVT_STAT, 30, 20⟩
def EVT_STAT_CLE_LOST : Field := ⟨EVT_STAT, 19, 9⟩
def EVT_STAT_OPEN : Field := ⟨EVT_STAT, 8, 0⟩
/-- REC_CTRL (Table 16.13). -/
def REC_CTRL : RegId := ⟨0x04, 0x10, 0x0, 0x0⟩
def REC_CTRL_KEEP_MIN : Field := ⟨REC_CTRL, 31, 24⟩
/-- DIG_CTX_s_STAT (Table 4.11). -/
def DIG_CTX_STAT : RegId := ⟨0x05, 0x1000, 0x100, 0x0⟩
def DIG_CTX_STAT_STATE : Field := ⟨DIG_CTX_STAT, 31, 29⟩
def DIG_CTX_STAT_ALG : Field := ⟨DIG_CTX_STAT, 28, 25⟩
def DIG_CTX_STAT_CAUSE : Field := ⟨DIG_CTX_STAT, 24, 22⟩
def DIG_CTX_STAT_OWNER : Field := ⟨DIG_CTX_STAT, 19, 12⟩
def DIG_CTX_STAT_POD : Field := ⟨DIG_CTX_STAT, 11, 0⟩
/-- DIG_CTX_s_FINAL (Table 4.12). -/
def DIG_CTX_FINAL : RegId := ⟨0x05, 0x1018, 0x100, 0x0⟩
def DIG_CTX_FINAL_EMPTY : Field := ⟨DIG_CTX_FINAL, 31, 31⟩
def DIG_CTX_FINAL_COUNT : Field := ⟨DIG_CTX_FINAL, 3, 0⟩
/-- DIG_CTX_s_CMP (Table 4.13). -/
def DIG_CTX_CMP : RegId := ⟨0x05, 0x10C0, 0x100, 0x0⟩
def DIG_CTX_CMP_RES : Field := ⟨DIG_CTX_CMP, 31, 16⟩
def DIG_CTX_CMP_RES_N : Field := ⟨DIG_CTX_CMP, 15, 0⟩
/-- CMP_PIPE_p_STAT (Table 7.16). -/
def CMP_PIPE_STAT : RegId := ⟨0x13, 0x1004, 0x100, 0x0⟩
def CMP_PIPE_STAT_FENCED : Field := ⟨CMP_PIPE_STAT, 31, 31⟩
def CMP_PIPE_STAT_VMIS_OVF : Field := ⟨CMP_PIPE_STAT, 30, 30⟩
def CMP_PIPE_STAT_VERIFY_MIS : Field := ⟨CMP_PIPE_STAT, 29, 16⟩
def CMP_PIPE_STAT_UNITS_Q : Field := ⟨CMP_PIPE_STAT, 15, 8⟩
def CMP_PIPE_STAT_JOBS_Q : Field := ⟨CMP_PIPE_STAT, 4, 0⟩
/-- SCN_ENG_e_STAT (Table 8.18). -/
def SCN_ENG_STAT : RegId := ⟨0x14, 0x1004, 0x100, 0x0⟩
def SCN_ENG_STAT_OFF : Field := ⟨SCN_ENG_STAT, 31, 31⟩
def SCN_ENG_STAT_UNITS_Q : Field := ⟨SCN_ENG_STAT, 23, 16⟩
/-- TSK_COB_c_STAT (Table 9.20). -/
def TSK_COB_STAT : RegId := ⟨0x0E, 0x1004, 0x1000, 0x0⟩
def TSK_COB_STAT_OFF : Field := ⟨TSK_COB_STAT, 31, 31⟩
def TSK_COB_STAT_ONLINE : Field := ⟨TSK_COB_STAT, 23, 16⟩
def TSK_COB_STAT_RUNNING : Field := ⟨TSK_COB_STAT, 15, 8⟩
def TSK_COB_STAT_SLOTTED : Field := ⟨TSK_COB_STAT, 7, 0⟩
/-- TSK_CORE_TAKE (Table 9.21). -/
def TSK_CORE_TAKE : RegId := ⟨0x0E, 0x1100, 0x1000, 0x20⟩
def TSK_CORE_TAKE_VALID : Field := ⟨TSK_CORE_TAKE, 31, 31⟩
def TSK_CORE_TAKE_GEN : Field := ⟨TSK_CORE_TAKE, 30, 24⟩
def TSK_CORE_TAKE_PRIO : Field := ⟨TSK_CORE_TAKE, 23, 21⟩
def TSK_CORE_TAKE_INDEX : Field := ⟨TSK_CORE_TAKE, 15, 0⟩
/-- TSK_CORE_END (Table 9.22). -/
def TSK_CORE_END : RegId := ⟨0x0E, 0x1104, 0x1000, 0x20⟩
def TSK_CORE_END_KIND : Field := ⟨TSK_CORE_END, 31, 30⟩
def TSK_CORE_END_CODE : Field := ⟨TSK_CORE_END, 15, 0⟩
/-- TSK_CORE_FLAGS (Table 9.23). -/
def TSK_CORE_FLAGS : RegId := ⟨0x0E, 0x1108, 0x1000, 0x20⟩
def TSK_CORE_FLAGS_CANCEL : Field := ⟨TSK_CORE_FLAGS, 31, 31⟩
def TSK_CORE_FLAGS_FLAGS : Field := ⟨TSK_CORE_FLAGS, 30, 0⟩
/-- TSK_CORE_CTRL (Table 9.24). -/
def TSK_CORE_CTRL : RegId := ⟨0x0E, 0x110C, 0x1000, 0x20⟩
def TSK_CORE_CTRL_ONLINE : Field := ⟨TSK_CORE_CTRL, 31, 31⟩
/-- DRC_CH_c_STAT (Table 12.15). -/
def DRC_CH_STAT : RegId := ⟨0x0D, 0x1004, 0x1000, 0x0⟩
def DRC_CH_STAT_STATE : Field := ⟨DRC_CH_STAT, 31, 29⟩
def DRC_CH_STAT_RATE : Field := ⟨DRC_CH_STAT, 28, 26⟩
def DRC_CH_STAT_WIDTH : Field := ⟨DRC_CH_STAT, 25, 25⟩
def DRC_CH_STAT_RANKS2 : Field := ⟨DRC_CH_STAT, 24, 24⟩
def DRC_CH_STAT_DENSITY : Field := ⟨DRC_CH_STAT, 23, 22⟩
def DRC_CH_STAT_MIR_SINGLE : Field := ⟨DRC_CH_STAT, 21, 21⟩
def DRC_CH_STAT_HOT : Field := ⟨DRC_CH_STAT, 20, 20⟩
def DRC_CH_STAT_CAP_GIB : Field := ⟨DRC_CH_STAT, 6, 0⟩
/-- DRC_CH_c_MARGIN (Table 12.16). -/
def DRC_CH_MARGIN : RegId := ⟨0x0D, 0x1008, 0x1000, 0x0⟩
def DRC_CH_MARGIN_RD_EYE_W : Field := ⟨DRC_CH_MARGIN, 31, 24⟩
def DRC_CH_MARGIN_WR_EYE_W : Field := ⟨DRC_CH_MARGIN, 23, 16⟩
def DRC_CH_MARGIN_RD_EYE_H : Field := ⟨DRC_CH_MARGIN, 15, 8⟩
def DRC_CH_MARGIN_WR_EYE_H : Field := ⟨DRC_CH_MARGIN, 7, 0⟩
/-- DRC_CH_c_ERR (Table 12.17). -/
def DRC_CH_ERR : RegId := ⟨0x0D, 0x100C, 0x1000, 0x0⟩
def DRC_CH_ERR_OVF : Field := ⟨DRC_CH_ERR, 31, 31⟩
def DRC_CH_ERR_CE : Field := ⟨DRC_CH_ERR, 30, 16⟩
def DRC_CH_ERR_UE : Field := ⟨DRC_CH_ERR, 15, 0⟩
/-- DRC_CH_c_DIST (Table 12.18). -/
def DRC_CH_DIST : RegId := ⟨0x0D, 0x1010, 0x1000, 0x0⟩
def DRC_CH_DIST_THROTTLED : Field := ⟨DRC_CH_DIST, 31, 24⟩
def DRC_CH_DIST_THR_ACTIVE : Field := ⟨DRC_CH_DIST, 23, 23⟩
def DRC_CH_DIST_OVF : Field := ⟨DRC_CH_DIST, 15, 15⟩
def DRC_CH_DIST_DIRECTED : Field := ⟨DRC_CH_DIST, 14, 0⟩
/-- DRC_CH_c_REMAP_k (Table 12.19). -/
def DRC_CH_REMAP : RegId := ⟨0x0D, 0x1040, 0x1000, 0x4⟩
def DRC_CH_REMAP_VALID : Field := ⟨DRC_CH_REMAP, 31, 31⟩
def DRC_CH_REMAP_LINE : Field := ⟨DRC_CH_REMAP, 29, 0⟩
/-- CLE_Ln_CTRL (Table 13.6). -/
def CLE_CTRL : RegId := ⟨0x0A, 0x1004, 0x100, 0x0⟩
def CLE_CTRL_ACTION : Field := ⟨CLE_CTRL, 31, 30⟩
def CLE_CTRL_SAMPLE : Field := ⟨CLE_CTRL, 27, 24⟩
def CLE_CTRL_NOTCH_EN : Field := ⟨CLE_CTRL, 23, 23⟩
def CLE_CTRL_FF_EN : Field := ⟨CLE_CTRL, 22, 22⟩
def CLE_CTRL_SS_US : Field := ⟨CLE_CTRL, 15, 8⟩
def CLE_CTRL_PLAUS_N : Field := ⟨CLE_CTRL, 7, 0⟩
/-- CLE_Ln_LIMIT (Table 13.7). -/
def CLE_LIMIT : RegId := ⟨0x0A, 0x100C, 0x100, 0x0⟩
def CLE_LIMIT_OV : Field := ⟨CLE_LIMIT, 31, 24⟩
def CLE_LIMIT_UV : Field := ⟨CLE_LIMIT, 23, 16⟩
def CLE_LIMIT_OC : Field := ⟨CLE_LIMIT, 15, 0⟩
/-- CLE_Ln_COEF_k (Table 13.8). -/
def CLE_COEF : RegId := ⟨0x0A, 0x1010, 0x100, 0x4⟩
def CLE_COEF_HI : Field := ⟨CLE_COEF, 31, 16⟩
def CLE_COEF_LO : Field := ⟨CLE_COEF, 15, 0⟩
/-- CLE_Ln_STAT (Table 13.9). -/
def CLE_STAT : RegId := ⟨0x0A, 0x1034, 0x100, 0x0⟩
def CLE_STAT_STATE : Field := ⟨CLE_STAT, 31, 29⟩
def CLE_STAT_CAUSE : Field := ⟨CLE_STAT, 28, 26⟩
def CLE_STAT_DRIFT : Field := ⟨CLE_STAT, 25, 25⟩
def CLE_STAT_SATURATED : Field := ⟨CLE_STAT, 24, 24⟩
def CLE_STAT_OVF : Field := ⟨CLE_STAT, 15, 15⟩
def CLE_STAT_FAULTS : Field := ⟨CLE_STAT, 14, 0⟩
/-- SGN_SUBMIT_LO (R99). -/
def SGN_SUBMIT_LO : RegId := ⟨0x06, 0x40, 0x0, 0x0⟩
/-- SGN_SUBMIT_HI (R99). -/
def SGN_SUBMIT_HI : RegId := ⟨0x06, 0x44, 0x0, 0x0⟩
/-- LDG_APPEND_LO (R125). -/
def LDG_APPEND_LO : RegId := ⟨0x07, 0x40, 0x0, 0x0⟩
/-- LDG_APPEND_HI (R125). -/
def LDG_APPEND_HI : RegId := ⟨0x07, 0x44, 0x0, 0x0⟩
/-- LDG_ACTIVATE_SVN (R124). -/
def LDG_ACTIVATE_SVN : RegId := ⟨0x07, 0x54, 0x0, 0x0⟩
/-- LDG_ARCHIVED_ACK_LO (R118). -/
def LDG_ARCHIVED_ACK_LO : RegId := ⟨0x07, 0x58, 0x0, 0x0⟩
/-- LDG_ARCHIVED_ACK_HI (R118). -/
def LDG_ARCHIVED_ACK_HI : RegId := ⟨0x07, 0x5C, 0x0, 0x0⟩
/-- KEY_RNG_DATA (R132). -/
def KEY_RNG_DATA : RegId := ⟨0x08, 0x14, 0x0, 0x0⟩
/-- KEY_MEDIA_EPOCH_LO (R137). -/
def KEY_MEDIA_EPOCH_LO : RegId := ⟨0x08, 0x20, 0x0, 0x0⟩
/-- KEY_MEDIA_EPOCH_HI (R137). -/
def KEY_MEDIA_EPOCH_HI : RegId := ⟨0x08, 0x24, 0x0, 0x0⟩
/-- DIG_CTX_s_CLOSE (R110). -/
def DIG_CTX_CLOSE : RegId := ⟨0x05, 0x1004, 0x100, 0x0⟩
/-- DIG_CTX_s_DATA_LO (R105). -/
def DIG_CTX_DATA_LO : RegId := ⟨0x05, 0x1008, 0x100, 0x0⟩
/-- DIG_CTX_s_DATA_HI (R105). -/
def DIG_CTX_DATA_HI : RegId := ⟨0x05, 0x100C, 0x100, 0x0⟩
/-- DIG_CTX_s_LAST_LO (R106). -/
def DIG_CTX_LAST_LO : RegId := ⟨0x05, 0x1010, 0x100, 0x0⟩
/-- DIG_CTX_s_LAST_HI (R106). -/
def DIG_CTX_LAST_HI : RegId := ⟨0x05, 0x1014, 0x100, 0x0⟩
/-- DIG_CTX_s_SRC_LO (R107). -/
def DIG_CTX_SRC_LO : RegId := ⟨0x05, 0x1020, 0x100, 0x0⟩
/-- DIG_CTX_s_SRC_HI (R107). -/
def DIG_CTX_SRC_HI : RegId := ⟨0x05, 0x1024, 0x100, 0x0⟩
/-- DIG_CTX_s_SRC_LEN (R107). -/
def DIG_CTX_SRC_LEN : RegId := ⟨0x05, 0x1028, 0x100, 0x0⟩
/-- DIG_CTX_s_OUT_k (R106). -/
def DIG_CTX_OUT : RegId := ⟨0x05, 0x1040, 0x100, 0x4⟩
/-- DIG_CTX_s_EXP_k (R111). -/
def DIG_CTX_EXP : RegId := ⟨0x05, 0x1080, 0x100, 0x4⟩
/-- FCH_SUBMIT_LO (R149). -/
def FCH_SUBMIT_LO : RegId := ⟨0x20, 0x20, 0x0, 0x0⟩
/-- FCH_SUBMIT_HI (R149). -/
def FCH_SUBMIT_HI : RegId := ⟨0x20, 0x24, 0x0, 0x0⟩
/-- FCH_DIE_d_w (R144). -/
def FCH_DIE : RegId := ⟨0x20, 0x1000, 0x40, 0x4⟩
/-- LDP_BOUNDS_0 (R145). -/
def LDP_BOUNDS_0 : RegId := ⟨0x15, 0x80, 0x0, 0x0⟩
def LDP_BOUNDS_0_ONFI_OK : Field := ⟨LDP_BOUNDS_0, 31, 31⟩
def LDP_BOUNDS_0_TOGGLE_OK : Field := ⟨LDP_BOUNDS_0, 30, 30⟩
def LDP_BOUNDS_0_TLC_OK : Field := ⟨LDP_BOUNDS_0, 29, 29⟩
def LDP_BOUNDS_0_QLC_OK : Field := ⟨LDP_BOUNDS_0, 28, 28⟩
def LDP_BOUNDS_0_MAX_PLANES : Field := ⟨LDP_BOUNDS_0, 27, 24⟩
def LDP_BOUNDS_0_MIN_ENDUR : Field := ⟨LDP_BOUNDS_0, 23, 16⟩
def LDP_BOUNDS_0_MAX_BLOCKS : Field := ⟨LDP_BOUNDS_0, 15, 0⟩
/-- LDP_BOUNDS_1 (R145). -/
def LDP_BOUNDS_1 : RegId := ⟨0x15, 0x84, 0x0, 0x0⟩
def LDP_BOUNDS_1_MAX_PAGES : Field := ⟨LDP_BOUNDS_1, 31, 16⟩
def LDP_BOUNDS_1_MIN_SPARE : Field := ⟨LDP_BOUNDS_1, 15, 0⟩
/-- LDP_ARCHIVE (R145). -/
def LDP_ARCHIVE : RegId := ⟨0x15, 0x88, 0x0, 0x0⟩
def LDP_ARCHIVE_FIRST : Field := ⟨LDP_ARCHIVE, 29, 16⟩
def LDP_ARCHIVE_COUNT : Field := ⟨LDP_ARCHIVE, 3, 0⟩
/-- LDP_RESERVE (R145). -/
def LDP_RESERVE : RegId := ⟨0x15, 0x8C, 0x0, 0x0⟩
def LDP_RESERVE_FLUSH_BLOCKS : Field := ⟨LDP_RESERVE, 7, 0⟩
/-- LDP_ADVISE_NEXT (R169). -/
def LDP_ADVISE_NEXT : RegId := ⟨0x15, 0x2C, 0x0, 0x0⟩
/-- FTL_DIRTY_NOW (R198). -/
def FTL_DIRTY_NOW : RegId := ⟨0x12, 0x20, 0x0, 0x0⟩
/-- FTL_SEQ_LO (R185). -/
def FTL_SEQ_LO : RegId := ⟨0x12, 0x28, 0x0, 0x0⟩
/-- FTL_SEQ_HI (R185). -/
def FTL_SEQ_HI : RegId := ⟨0x12, 0x2C, 0x0, 0x0⟩
/-- FTL_JSEQ_LO (R194). -/
def FTL_JSEQ_LO : RegId := ⟨0x12, 0x68, 0x0, 0x0⟩
/-- FTL_JSEQ_HI (R194). -/
def FTL_JSEQ_HI : RegId := ⟨0x12, 0x6C, 0x0, 0x0⟩
/-- FTL_HOST_GRAINS_LO (R219). -/
def FTL_HOST_GRAINS_LO : RegId := ⟨0x12, 0x90, 0x0, 0x0⟩
/-- FTL_HOST_GRAINS_HI (R219). -/
def FTL_HOST_GRAINS_HI : RegId := ⟨0x12, 0x94, 0x0, 0x0⟩
/-- FTL_MEDIA_GRAINS_LO (R219). -/
def FTL_MEDIA_GRAINS_LO : RegId := ⟨0x12, 0x98, 0x0, 0x0⟩
/-- FTL_MEDIA_GRAINS_HI (R219). -/
def FTL_MEDIA_GRAINS_HI : RegId := ⟨0x12, 0x9C, 0x0, 0x0⟩
/-- CMP_JOB_SUBMIT_LO (R240). -/
def CMP_JOB_SUBMIT_LO : RegId := ⟨0x13, 0x20, 0x0, 0x0⟩
/-- CMP_JOB_SUBMIT_HI (R240). -/
def CMP_JOB_SUBMIT_HI : RegId := ⟨0x13, 0x24, 0x0, 0x0⟩
/-- CMP_CTX_CLOSE (R238). -/
def CMP_CTX_CLOSE : RegId := ⟨0x13, 0x38, 0x0, 0x0⟩
def CMP_CTX_CLOSE_HANDLE : Field := ⟨CMP_CTX_CLOSE, 11, 0⟩
/-- CMP_PIPE_p_UNITS_LO (R248). -/
def CMP_PIPE_UNITS_LO : RegId := ⟨0x13, 0x1008, 0x100, 0x0⟩
/-- CMP_PIPE_p_UNITS_HI (R248). -/
def CMP_PIPE_UNITS_HI : RegId := ⟨0x13, 0x100C, 0x100, 0x0⟩
/-- CMP_PIPE_p_RAW_LO (R248). -/
def CMP_PIPE_RAW_LO : RegId := ⟨0x13, 0x1010, 0x100, 0x0⟩
/-- CMP_PIPE_p_RAW_HI (R248). -/
def CMP_PIPE_RAW_HI : RegId := ⟨0x13, 0x1014, 0x100, 0x0⟩
/-- CMP_PIPE_p_IN_LO (R248). -/
def CMP_PIPE_IN_LO : RegId := ⟨0x13, 0x1018, 0x100, 0x0⟩
/-- CMP_PIPE_p_IN_HI (R248). -/
def CMP_PIPE_IN_HI : RegId := ⟨0x13, 0x101C, 0x100, 0x0⟩
/-- CMP_PIPE_p_OUT_LO (R248). -/
def CMP_PIPE_OUT_LO : RegId := ⟨0x13, 0x1020, 0x100, 0x0⟩
/-- CMP_PIPE_p_OUT_HI (R248). -/
def CMP_PIPE_OUT_HI : RegId := ⟨0x13, 0x1024, 0x100, 0x0⟩
/-- FCH_DCMP_OUT_LO (R248). -/
def FCH_DCMP_OUT_LO : RegId := ⟨0x20, 0x88, 0x0, 0x0⟩
/-- FCH_DCMP_OUT_HI (R248). -/
def FCH_DCMP_OUT_HI : RegId := ⟨0x20, 0x8C, 0x0, 0x0⟩
/-- SCN_SUBMIT_LO (R261). -/
def SCN_SUBMIT_LO : RegId := ⟨0x14, 0x20, 0x0, 0x0⟩
/-- SCN_SUBMIT_HI (R261). -/
def SCN_SUBMIT_HI : RegId := ⟨0x14, 0x24, 0x0, 0x0⟩
/-- SCN_CANCEL_LO (R270). -/
def SCN_CANCEL_LO : RegId := ⟨0x14, 0x28, 0x0, 0x0⟩
/-- SCN_CANCEL_HI (R270). -/
def SCN_CANCEL_HI : RegId := ⟨0x14, 0x2C, 0x0, 0x0⟩
/-- SCN_ENG_e_RECORDS_LO (R272). -/
def SCN_ENG_RECORDS_LO : RegId := ⟨0x14, 0x1008, 0x100, 0x0⟩
/-- SCN_ENG_e_RECORDS_HI (R272). -/
def SCN_ENG_RECORDS_HI : RegId := ⟨0x14, 0x100C, 0x100, 0x0⟩
/-- SCN_ENG_e_MATCHED_LO (R272). -/
def SCN_ENG_MATCHED_LO : RegId := ⟨0x14, 0x1010, 0x100, 0x0⟩
/-- SCN_ENG_e_MATCHED_HI (R272). -/
def SCN_ENG_MATCHED_HI : RegId := ⟨0x14, 0x1014, 0x100, 0x0⟩
/-- SCN_ENG_e_IN_LO (R272). -/
def SCN_ENG_IN_LO : RegId := ⟨0x14, 0x1018, 0x100, 0x0⟩
/-- SCN_ENG_e_IN_HI (R272). -/
def SCN_ENG_IN_HI : RegId := ⟨0x14, 0x101C, 0x100, 0x0⟩
/-- SCN_ENG_e_OUT_LO (R272). -/
def SCN_ENG_OUT_LO : RegId := ⟨0x14, 0x1020, 0x100, 0x0⟩
/-- SCN_ENG_e_OUT_HI (R272). -/
def SCN_ENG_OUT_HI : RegId := ⟨0x14, 0x1024, 0x100, 0x0⟩
/-- TSK_SUBMIT_LO (R283). -/
def TSK_SUBMIT_LO : RegId := ⟨0x0E, 0x20, 0x0, 0x0⟩
/-- TSK_SUBMIT_HI (R283). -/
def TSK_SUBMIT_HI : RegId := ⟨0x0E, 0x24, 0x0, 0x0⟩
/-- TSK_FLAG_SET (R284). -/
def TSK_FLAG_SET : RegId := ⟨0x0E, 0x30, 0x0, 0x0⟩
/-- TSK_QUERY (R285). -/
def TSK_QUERY : RegId := ⟨0x0E, 0x38, 0x0, 0x0⟩
def TSK_QUERY_INDEX : Field := ⟨TSK_QUERY, 15, 0⟩
/-- TSK_PROG_RES (R298). -/
def TSK_PROG_RES : RegId := ⟨0x0E, 0x54, 0x0, 0x0⟩
def TSK_PROG_RES_RESULT : Field := ⟨TSK_PROG_RES, 31, 30⟩
/-- TSK_PROG_ADDR_LO (R298). -/
def TSK_PROG_ADDR_LO : RegId := ⟨0x0E, 0x58, 0x0, 0x0⟩
/-- TSK_PROG_ADDR_HI (R298). -/
def TSK_PROG_ADDR_HI : RegId := ⟨0x0E, 0x5C, 0x0, 0x0⟩
/-- TSK_CORE_ARG_LO (R290). -/
def TSK_CORE_ARG_LO : RegId := ⟨0x0E, 0x1110, 0x1000, 0x20⟩
/-- TSK_CORE_ARG_HI (R290). -/
def TSK_CORE_ARG_HI : RegId := ⟨0x0E, 0x1114, 0x1000, 0x20⟩
/-- POD_CMD_LO (R353). -/
def POD_CMD_LO : RegId := ⟨0x0F, 0x20, 0x0, 0x0⟩
/-- POD_CMD_HI (R353). -/
def POD_CMD_HI : RegId := ⟨0x0F, 0x24, 0x0, 0x0⟩
/-- POD_ENTRY_p_w (R351). -/
def POD_ENTRY : RegId := ⟨0x0F, 0x10000, 0x40, 0x4⟩
/-- POD_ENV_k_W0 (R349). -/
def POD_ENV_W0 : RegId := ⟨0x0F, 0x100, 0x40, 0x0⟩
def POD_ENV_W0_MAX_WEIGHT : Field := ⟨POD_ENV_W0, 31, 16⟩
def POD_ENV_W0_PERMIT : Field := ⟨POD_ENV_W0, 3, 0⟩
/-- POD_ENV_k_W1 (R349). -/
def POD_ENV_W1 : RegId := ⟨0x0F, 0x104, 0x40, 0x0⟩
def POD_ENV_W1_MAX_IOQ : Field := ⟨POD_ENV_W1, 31, 16⟩
def POD_ENV_W1_MAX_NS : Field := ⟨POD_ENV_W1, 15, 0⟩
/-- POD_ENV_k_W2 (R349). -/
def POD_ENV_W2 : RegId := ⟨0x0F, 0x108, 0x40, 0x0⟩
/-- POD_ENV_k_W3 (R349). -/
def POD_ENV_W3 : RegId := ⟨0x0F, 0x10C, 0x40, 0x0⟩
/-- POD_ENV_k_W4 (R349). -/
def POD_ENV_W4 : RegId := ⟨0x0F, 0x110, 0x40, 0x0⟩
def POD_ENV_W4_MAX_IMS : Field := ⟨POD_ENV_W4, 31, 16⟩
def POD_ENV_W4_MAX_CTX : Field := ⟨POD_ENV_W4, 15, 0⟩
/-- POD_ENV_k_W5 (R349). -/
def POD_ENV_W5 : RegId := ⟨0x0F, 0x114, 0x40, 0x0⟩
def POD_ENV_W5_MAX_PROG : Field := ⟨POD_ENV_W5, 31, 16⟩
def POD_ENV_W5_MAX_LOCKS : Field := ⟨POD_ENV_W5, 15, 0⟩
/-- POD_ENV_k_W6 (R349). -/
def POD_ENV_W6 : RegId := ⟨0x0F, 0x118, 0x40, 0x0⟩
/-- POD_ENV_k_W7 (R349). -/
def POD_ENV_W7 : RegId := ⟨0x0F, 0x11C, 0x40, 0x0⟩
/-- POD_ENV_k_W8 (R349). -/
def POD_ENV_W8 : RegId := ⟨0x0F, 0x120, 0x40, 0x0⟩
/-- POD_ENV_k_W9 (R349). -/
def POD_ENV_W9 : RegId := ⟨0x0F, 0x124, 0x40, 0x0⟩
/-- POD_ENV_k_W10 (R349). -/
def POD_ENV_W10 : RegId := ⟨0x0F, 0x128, 0x40, 0x0⟩
def POD_ENV_W10_MAX_WBUF_PM : Field := ⟨POD_ENV_W10, 9, 0⟩
/-- POD_ENV_k_W11 (R349). -/
def POD_ENV_W11 : RegId := ⟨0x0F, 0x12C, 0x40, 0x0⟩
/-- DRC_CH_c_FBKT (R386). -/
def DRC_CH_FBKT : RegId := ⟨0x0D, 0x1014, 0x1000, 0x0⟩
def DRC_CH_FBKT_FBKT : Field := ⟨DRC_CH_FBKT, 15, 0⟩
/-- MPR_INJ_ADDR_LO (R400). -/
def MPR_INJ_ADDR_LO : RegId := ⟨0x0C, 0x304, 0x0, 0x0⟩
/-- MPR_INJ_ADDR_HI (R400). -/
def MPR_INJ_ADDR_HI : RegId := ⟨0x0C, 0x308, 0x0, 0x0⟩
/-- CLE_Ln_TARGET (R405). -/
def CLE_TARGET : RegId := ⟨0x0A, 0x1008, 0x100, 0x0⟩
def CLE_TARGET_TARGET : Field := ⟨CLE_TARGET, 15, 0⟩
/-- CLE_Ln_FF (R406). -/
def CLE_FF : RegId := ⟨0x0A, 0x1028, 0x100, 0x0⟩
def CLE_FF_FF_GAIN : Field := ⟨CLE_FF, 15, 0⟩
/-- CLE_Ln_PLAUS (R409). -/
def CLE_PLAUS : RegId := ⟨0x0A, 0x102C, 0x100, 0x0⟩
def CLE_PLAUS_PLAUS_MV : Field := ⟨CLE_PLAUS, 31, 16⟩
def CLE_PLAUS_R_INIT : Field := ⟨CLE_PLAUS, 15, 0⟩
/-- CLE_Ln_MODEL (R409). -/
def CLE_MODEL : RegId := ⟨0x0A, 0x1030, 0x100, 0x0⟩
def CLE_MODEL_R : Field := ⟨CLE_MODEL, 31, 16⟩
def CLE_MODEL_ETA : Field := ⟨CLE_MODEL, 15, 0⟩
/-- CLE_Ln_MEAS (R406). -/
def CLE_MEAS : RegId := ⟨0x0A, 0x1038, 0x100, 0x0⟩
def CLE_MEAS_MV : Field := ⟨CLE_MEAS, 31, 16⟩
def CLE_MEAS_CUR : Field := ⟨CLE_MEAS, 15, 0⟩
/-- PWR_DOM_REQ_1 (R410). -/
def PWR_DOM_REQ_1 : RegId := ⟨0x09, 0x34, 0x0, 0x0⟩
def PWR_DOM_REQ_1_REQ : Field := ⟨PWR_DOM_REQ_1, 7, 0⟩
/-- PWR_DOM_STAT_0 (R410). -/
def PWR_DOM_STAT_0 : RegId := ⟨0x09, 0x38, 0x0, 0x0⟩
/-- PWR_DOM_STAT_1 (R410). -/
def PWR_DOM_STAT_1 : RegId := ⟨0x09, 0x3C, 0x0, 0x0⟩
def PWR_DOM_STAT_1_ON : Field := ⟨PWR_DOM_STAT_1, 7, 0⟩
/-- PWR_FPG_CTRL (R414). -/
def PWR_FPG_CTRL : RegId := ⟨0x09, 0x40, 0x0, 0x0⟩
def PWR_FPG_CTRL_ON : Field := ⟨PWR_FPG_CTRL, 15, 0⟩
/-- PWR_DIRTY_MAX (R419). -/
def PWR_DIRTY_MAX : RegId := ⟨0x09, 0x58, 0x0, 0x0⟩
def PWR_DIRTY_MAX_BUF_MAX : Field := ⟨PWR_DIRTY_MAX, 31, 16⟩
def PWR_DIRTY_MAX_MAP_MAX : Field := ⟨PWR_DIRTY_MAX, 9, 0⟩
/-- PWR_HOLD_STAT (R418). -/
def PWR_HOLD_STAT : RegId := ⟨0x09, 0x60, 0x0, 0x0⟩
def PWR_HOLD_STAT_STATE : Field := ⟨PWR_HOLD_STAT, 31, 29⟩
def PWR_HOLD_STAT_C : Field := ⟨PWR_HOLD_STAT, 28, 16⟩
def PWR_HOLD_STAT_ESR : Field := ⟨PWR_HOLD_STAT, 15, 8⟩
/-- PWR_HOLD_BUDGET (R419). -/
def PWR_HOLD_BUDGET : RegId := ⟨0x09, 0x64, 0x0, 0x0⟩
def PWR_HOLD_BUDGET_E_AV : Field := ⟨PWR_HOLD_BUDGET, 31, 16⟩
def PWR_HOLD_BUDGET_D : Field := ⟨PWR_HOLD_BUDGET, 15, 0⟩
/-- PWR_GOV_REQ (R423). -/
def PWR_GOV_REQ : RegId := ⟨0x09, 0x24, 0x0, 0x0⟩
def PWR_GOV_REQ_SURGE : Field := ⟨PWR_GOV_REQ, 31, 31⟩
/-- PWR_THERM_CFG (R426). -/
def PWR_THERM_CFG : RegId := ⟨0x09, 0x2C, 0x0, 0x0⟩
def PWR_THERM_CFG_T_RESTART : Field := ⟨PWR_THERM_CFG, 31, 24⟩
/-- PWR_SENSOR_s (R424). -/
def PWR_SENSOR : RegId := ⟨0x09, 0x200, 0x4, 0x0⟩
def PWR_SENSOR_EXCLUDED : Field := ⟨PWR_SENSOR, 31, 31⟩
def PWR_SENSOR_TEMP : Field := ⟨PWR_SENSOR, 15, 0⟩
/-- PWR_WRGOV_STAT (R429). -/
def PWR_WRGOV_STAT : RegId := ⟨0x09, 0x74, 0x0, 0x0⟩
def PWR_WRGOV_STAT_LEVEL : Field := ⟨PWR_WRGOV_STAT, 31, 22⟩
def PWR_WRGOV_STAT_WAITING : Field := ⟨PWR_WRGOV_STAT, 0, 0⟩
/-- HSK_DENY_ADDR_LO (R438). -/
def HSK_DENY_ADDR_LO : RegId := ⟨0x02, 0x18, 0x0, 0x0⟩
/-- HSK_DENY_ADDR_HI (R438). -/
def HSK_DENY_ADDR_HI : RegId := ⟨0x02, 0x1C, 0x0, 0x0⟩
/-- HSK_HB_p (R445). -/
def HSK_HB : RegId := ⟨0x02, 0x24, 0x4, 0x0⟩
/-- HSK_ASK_PREFIX_n (R443). -/
def HSK_ASK_PREFIX : RegId := ⟨0x02, 0x44, 0x4, 0x0⟩
/-- HSK_ACC_t_e_W0 (R432). -/
def HSK_ACC_W0 : RegId := ⟨0x02, 0x10000, 0x200, 0x10⟩
def HSK_ACC_W0_VALID : Field := ⟨HSK_ACC_W0, 31, 31⟩
def HSK_ACC_W0_MODE : Field := ⟨HSK_ACC_W0, 30, 29⟩
def HSK_ACC_W0_RD : Field := ⟨HSK_ACC_W0, 28, 28⟩
def HSK_ACC_W0_WR : Field := ⟨HSK_ACC_W0, 27, 27⟩
def HSK_ACC_W0_LAST : Field := ⟨HSK_ACC_W0, 23, 16⟩
def HSK_ACC_W0_FIRST : Field := ⟨HSK_ACC_W0, 15, 8⟩
/-- HSK_ACC_t_e_W1 (R432). -/
def HSK_ACC_W1 : RegId := ⟨0x02, 0x10004, 0x200, 0x10⟩
def HSK_ACC_W1_POD : Field := ⟨HSK_ACC_W1, 11, 0⟩
/-- HSK_ACC_t_e_W2 (R432). -/
def HSK_ACC_W2 : RegId := ⟨0x02, 0x10008, 0x200, 0x10⟩
/-- HSK_ACC_t_e_W3 (R432). -/
def HSK_ACC_W3 : RegId := ⟨0x02, 0x1000C, 0x200, 0x10⟩
/-- HSK_PODR_p_w (R435). -/
def HSK_PODR : RegId := ⟨0x02, 0x40000, 0x40, 0x4⟩
/-- ASK_GROUP_ID_n (R448). -/
def ASK_GROUP_ID : RegId := ⟨0x16, 0x14, 0x4, 0x0⟩
/-- ASK_PREFIX_LO (R450). -/
def ASK_PREFIX_LO : RegId := ⟨0x16, 0x24, 0x0, 0x0⟩
/-- ASK_PREFIX_HI (R450). -/
def ASK_PREFIX_HI : RegId := ⟨0x16, 0x28, 0x0, 0x0⟩
/-- ASK_NET_CFG (R450). -/
def ASK_NET_CFG : RegId := ⟨0x16, 0x2C, 0x0, 0x0⟩
def ASK_NET_CFG_UDP_PORT : Field := ⟨ASK_NET_CFG, 31, 16⟩
/-- ASK_INCARNATION (R460). -/
def ASK_INCARNATION : RegId := ⟨0x16, 0x44, 0x0, 0x0⟩
/-- ASK_MEMBER_QUERY (R475). -/
def ASK_MEMBER_QUERY : RegId := ⟨0x16, 0x48, 0x0, 0x0⟩
def ASK_MEMBER_QUERY_ID : Field := ⟨ASK_MEMBER_QUERY, 13, 0⟩
/-- EVT_RAISE (R477). -/
def EVT_RAISE : RegId := ⟨0x03, 0x20, 0x0, 0x0⟩
def EVT_RAISE_CAUSE : Field := ⟨EVT_RAISE, 23, 16⟩
def EVT_RAISE_NUMBER : Field := ⟨EVT_RAISE, 9, 0⟩
/-- EVT_RAISE_SUBJ_n (R477). -/
def EVT_RAISE_SUBJ : RegId := ⟨0x03, 0x24, 0x4, 0x0⟩
/-- EVT_MQ_RD (R483). -/
def EVT_MQ_RD : RegId := ⟨0x03, 0x40, 0x0, 0x0⟩
def EVT_MQ_RD_RD : Field := ⟨EVT_MQ_RD, 10, 0⟩
/-- EVT_MQ_WR (R483). -/
def EVT_MQ_WR : RegId := ⟨0x03, 0x44, 0x0, 0x0⟩
def EVT_MQ_WR_WR : Field := ⟨EVT_MQ_WR, 10, 0⟩
/-- EVT_TSUB_k_W0 (R483). -/
def EVT_TSUB_W0 : RegId := ⟨0x03, 0x100, 0x8, 0x0⟩
def EVT_TSUB_W0_EN : Field := ⟨EVT_TSUB_W0, 31, 31⟩
def EVT_TSUB_W0_CAUSE : Field := ⟨EVT_TSUB_W0, 23, 16⟩
def EVT_TSUB_W0_NUMBER : Field := ⟨EVT_TSUB_W0, 9, 0⟩
/-- EVT_TSUB_k_W1 (R483). -/
def EVT_TSUB_W1 : RegId := ⟨0x03, 0x104, 0x8, 0x0⟩
/-- EVT_MQ_REC_i_w (R483). -/
def EVT_MQ_REC : RegId := ⟨0x03, 0x80000, 0x30, 0x4⟩
/-- REC_RING_HEAD_LO (R482). -/
def REC_RING_HEAD_LO : RegId := ⟨0x04, 0x18, 0x0, 0x0⟩
/-- REC_RING_HEAD_HI (R482). -/
def REC_RING_HEAD_HI : RegId := ⟨0x04, 0x1C, 0x0, 0x0⟩
/-- REC_SNAP_ADDR_LO (R490). -/
def REC_SNAP_ADDR_LO : RegId := ⟨0x04, 0x20, 0x0, 0x0⟩
/-- REC_SNAP_ADDR_HI (R490). -/
def REC_SNAP_ADDR_HI : RegId := ⟨0x04, 0x24, 0x0, 0x0⟩
/-- REC_SNAP_CMD (R490). -/
def REC_SNAP_CMD : RegId := ⟨0x04, 0x28, 0x0, 0x0⟩
/-- REC_SNAP_RES (R490). -/
def REC_SNAP_RES : RegId := ⟨0x04, 0x2C, 0x0, 0x0⟩
def REC_SNAP_RES_RESULT : Field := ⟨REC_SNAP_RES, 31, 30⟩
/-- REC_LIVE_s_w (R486). -/
def REC_LIVE : RegId := ⟨0x04, 0x10000, 0x80, 0x4⟩
/-- REC_RING_i_w (R482). -/
def REC_RING : RegId := ⟨0x04, 0x40000, 0x30, 0x4⟩
/-- REC_SER_s_CFG_W0 (R484). -/
def REC_SER_W0 : RegId := ⟨0x04, 0x8000, 0x8, 0x0⟩
def REC_SER_W0_KIND : Field := ⟨REC_SER_W0, 31, 30⟩
def REC_SER_W0_SIGNED : Field := ⟨REC_SER_W0, 29, 29⟩
def REC_SER_W0_LSB : Field := ⟨REC_SER_W0, 28, 24⟩
def REC_SER_W0_WINDOW : Field := ⟨REC_SER_W0, 23, 18⟩
def REC_SER_W0_OFFSET : Field := ⟨REC_SER_W0, 17, 0⟩
/-- REC_SER_s_CFG_W1 (R484). -/
def REC_SER_W1 : RegId := ⟨0x04, 0x8004, 0x8, 0x0⟩
def REC_SER_W1_WIDTH_M1 : Field := ⟨REC_SER_W1, 31, 27⟩
def REC_SER_W1_PERIOD : Field := ⟨REC_SER_W1, 26, 25⟩
def REC_SER_W1_STEP : Field := ⟨REC_SER_W1, 23, 16⟩
def REC_SER_W1_LOW : Field := ⟨REC_SER_W1, 15, 0⟩

end Sys2Proof.Machine
end

