-- ==== Sys2Proof/Machine/State.lean ====
section
/-!
DEFINITION. State: every register, queue, buffer, table, mode and pin the spec gives the block, as plain data, and
the machine right after a cold reset has released D00 (State.reset). The registers proper are in State.regs, which
lists those that hold something other than the reset value of the register map (Machine/Regs.lean).
-/
namespace Sys2Proof.Machine

/-! ### Answers -/

/-- How a bus transaction ended (chapter 2). -/
inductive BusStatus where
  | ok
  | decerr
  | accerr
  | uecc
  | unwritten
  | absent
  | hstall
  deriving DecidableEq, Repr

/-- What the block gave back or sent out during the last command, oldest first. -/
inductive Out where
  /-- The acknowledge of an internal transaction: its status and, for a read, the data. -/
  | bus (st : BusStatus) (data : List Byte)
  /-- An acknowledge held back by the perturbation slots for that many nanoseconds (R64). -/
  | held (ns : Nat)
  /-- An access fault raised in a core without a bus transaction (R278): its master ID. -/
  | coreFault (master : Nat)
  /-- An interrupt a core takes: its number, and 0 for CANCEL (R295), 1 for the monitor's at a time limit (R291) or 2 for SLOT (R290). -/
  | coreIrq (core kind : Nat)
  /-- Bytes written to host memory for a command. -/
  | host (pod qid cid : Nat) (data : List Byte)
  /-- A completion entry written to host memory: pod, completion queue, submission queue, command, status, Dword 0. -/
  | cqe (pod cqid qid cid sct sc : Nat) (dnr : Bool) (dw0 : Nat) (phase : Bool)
  /-- An interrupt message of a pod's vector (R366): address, data. -/
  | msi (pod vector addr data : Nat)
  /-- An MSI-X interrupt of a function's own table (R366). -/
  | msix (pod vector : Nat)
  /-- The answer to an NVMe-MI command: status and data. -/
  | mi (status : Nat) (data : List Byte)
  /-- An asynchronous event message to the BMC (R494). -/
  | aem (record : List Byte)
  /-- An Askif frame sent: port, destination member (or all), and the frame's bytes without header. -/
  | frame (port dst kind : Nat) (body : List Byte)
  /-- An ICMPv6 answer (R450): port, type, body. -/
  | icmp (port type : Nat) (body : List Byte)
  /-- An ATS invalidation is reported complete (R304): port and tag. -/
  | ats (port tag : Nat)
  /-- Data read through a window of BAR0 or BAR2 by the host. -/
  | bar (data : List Byte)
  /-- The bits a JTAG instruction places between TDI and TDO (R501). -/
  | jtag (reg : Nat) (bits : Nat)
  deriving DecidableEq, Repr

/-! ### Events and the recorder (chapter 16) -/

/-- An event record (Table 16.2). -/
structure EvtRec where
  seq : Nat
  number : Nat
  cause : Nat
  flags : Nat
  reps : Nat
  first : Nat
  lastDelta : Nat
  pod : Option Nat
  subj : List Nat
  deriving DecidableEq, Repr

/-- An open entry of the coalescing cache (R478). -/
structure CoalEntry where
  number : Nat
  cause : Nat
  subj : List Nat
  pod : Option Nat
  flags : Nat
  first : Nat
  last : Nat
  reps : Nat
  deriving DecidableEq, Repr

/-- An event as a unit raised it, on its way through the fabric (R477). -/
structure Raised where
  number : Nat
  cause : Nat
  subj : List Nat
  pod : Option Nat
  flags : Nat
  at_ : Nat
  deriving DecidableEq, Repr

/-- The event fabric (R475-R483). -/
structure EvtState where
  /-- Events raised and not yet granted by the fabric, in the order of their grant (R477). -/
  inbox : List Raised
  /-- Open coalescing entries, lowest FIRST first (R479). -/
  coal : List CoalEntry
  /-- Records in the slots of the management queue (R483). -/
  mq : Tab EvtRec
  /-- A record was lost to the management queue since the last that reached it (R481). -/
  mqLost : Bool
  /-- Control engine queue (Table 16.3). -/
  cleQ : List EvtRec
  cleLost : Bool
  /-- Records waiting to be sent to the BMC (R494). -/
  miQ : List EvtRec
  /-- The BMC has enabled asynchronous events (R494). -/
  miOn : Bool
  /-- Bus frequency code and MCTP transmission unit of each NVMe-MI port, as Configuration Set left them (Table 16.9). -/
  miFreq : Nat
  miMtu : Nat
  /-- Host rings by pod (R492), oldest first. -/
  hostRing : Tab (List EvtRec)
  /-- Pods whose notice is outstanding: log 0x07 not yet read with Retain clear (R492). -/
  noticed : List Nat
  /-- EVT_RAISE_SUBJ_0-3 as last written (R477). -/
  raiseSubj : List Nat
  /-- Device time of the last EVT_LOST cause 3 (R479). -/
  earlyAt : Option Nat
  deriving DecidableEq, Repr

/-- A series block (Table 16.4); SUM, MIN and MAX as the integers they hold. -/
structure SeriesBlock where
  gen : Nat
  flags : Nat
  boot : Nat
  minBootD : Nat
  maxBootD : Nat
  openedAt : Nat
  count : Nat
  sum : Int
  min : Int
  max : Int
  minAt : Nat
  maxAt : Nat
  bins : List Nat
  deriving DecidableEq, Repr

/-- The recorder (R482-R490). -/
structure RecState where
  /-- The event ring by slot (R482). -/
  ring : Tab EvtRec
  /-- The next ring sequence number (R476). -/
  nextSeq : Nat
  /-- SEQ of the newest record (REC_RING_HEAD). -/
  head : Nat
  /-- Live blocks by series; an unlisted series has the block of State.reset. -/
  live : Tab SeriesBlock
  /-- What the live blocks took when they last opened: boot number and device time (R486). -/
  openBoot : Nat
  /-- GEN of the live blocks that nothing has touched since. -/
  openGen : Nat
  openAt : Nat
  /-- REC_SNAP_ADDR as last written, the running snapshot's master, and its number (R490). -/
  snapAddr : Nat
  snapRun : Option Nat
  /-- A write of the running snapshot failed. -/
  snapBad : Bool
  snapSeq : Nat
  /-- REC_SNAP_RES by reading master. -/
  snapRes : Tab Nat
  /-- Host-Initiated Data Generation Number, and the captured log 0x07 by pod (R493). -/
  telGen : Nat
  tel : Tab (List Byte)
  deriving DecidableEq, Repr

/-- A host command by its pod, submission queue and identifier. -/
structure CmdRef where
  pod : Nat
  qid : Nat
  cid : Nat
  deriving DecidableEq, Repr

/-! ### Start-up and resets (chapter 3), handshake fabric (chapter 2) -/

/-- A reset in progress (R89): its kind of Table 3.16 and what it names (port, function or pod). -/
structure ResetRun where
  kind : Nat
  subject : Nat
  /-- The pods it affects, and their started writes whose data had arrived: it is complete when these are journalled (R87). -/
  pods : List Nat
  writes : List CmdRef
  deriving DecidableEq, Repr

/-- Start-up state outside the registers. -/
structure BootState where
  /-- The configuration NOR (Table 3.1); a byte not listed reads 0xFF. -/
  nor : Tab Byte
  /-- Every RWL field is locked (R77). -/
  locked : Bool
  /-- The TEST_PERMIT value of the applied image (Table 3.8). -/
  testPermit : Nat
  /-- A reset has taken HSF_PERT_GATE.PERMIT away until the image is read again (R63). -/
  permitGone : Bool
  /-- The IDENTITY section of the applied image (Table 3.6). -/
  board : List Byte
  /-- Signed digest of the applied copy, and the digest of its signer's key (Table 4.15). -/
  imageDigest : List Byte
  imageSigner : List Byte
  /-- The sequence floor in force at check 8 (Table 4.15, record 7). -/
  floorAt8 : Nat
  /-- MOD_READY is high (R82). -/
  modReady : Bool
  /-- Firmware runs: its slot and SVN (Table 4.28); slot 0 when none. -/
  fwSlot : Nat
  fwSvn : Nat
  fwDigest : List Byte
  fwRunning : Bool
  /-- Device time up to which credits of the ledger's firmware bucket have been given (R119, R120). -/
  creditAt : Nat
  /-- Boot measurement records taken so far in this start (Table 4.15), and whether step 9 has run in it. -/
  recs : List (List Byte)
  booted : Bool
  /-- SYS_BOOT_DONE has been raised in this boot (R114). -/
  bootDone : Bool
  /-- Device time at t0 or at the start of the last device-wide reset. -/
  startAt : Nat
  /-- Resets in progress, each reported by RESET_COMPLETE (R87, R89). -/
  resets : List ResetRun
  /-- Long operations a reset interrupted: SYS_RESUMED causes to raise (Table 3.20). -/
  interrupted : List Nat
  /-- PERST_N of port A and of port B is asserted. -/
  perst : List Nat
  /-- Straps as sampled at step 2 of the last cold start (R498). -/
  pins : Pins
  /-- The JTAG instruction in force (R501), and SMBus or I3C dynamic address (R502). -/
  jtagIr : Nat
  i3cAddr : Option Nat
  deriving DecidableEq, Repr

/-- An acknowledge a perturbation slot holds: when its request was issued (R55), the device time its hold ends, its master and target, the
digest context its write went to (R108), and the acknowledge. -/
structure HeldAck where
  at_ : Nat
  until_ : Nat
  master : Nat
  target : Nat
  ctx : Option Nat
  ack : Out
  deriving DecidableEq, Repr

/-- A write forwarded to its target before HSTALL was returned for it (R58): requester, target code, address, bytes, and whether a later
transaction of the same master to the same target has been performed since, after which it never is (R42). -/
structure LateWrite where
  req : Req
  target : Nat
  addr : Nat
  data : List Byte
  lost : Bool
  deriving DecidableEq, Repr

/-- The handshake fabric outside its registers. -/
structure HsfState where
  /-- HSTALLs against fenceable targets in the last second: target code and device time (R59). -/
  stalls : List (Nat × Nat)
  /-- Fenced targets (R59). -/
  fenced : List Nat
  /-- Writes whose HSTALL was returned and whose acknowledge has not come (R58), oldest first. -/
  late : List LateWrite
  /-- Last HSF_SPEED_LOW of each monitor (R61). -/
  lowAt : Tab Nat
  /-- LFSR of each perturbation slot (R64). -/
  lfsr : Tab Nat
  /-- Acknowledges held by the slots, oldest first (R64). -/
  held : List HeldAck
  deriving DecidableEq, Repr

/-- Background accounting of one instance of a shared resource (R36, R37): use in nanoseconds of its time, carry in permille. -/
structure BgAcct where
  used : Nat
  carry : Nat
  waiting : Bool
  heldAtCeil : Bool
  deriving DecidableEq, Repr

/-! ### Trust (chapter 4) -/

/-- Security contents of OTP (Table 4.1). -/
structure OtpState where
  deviceId : Nat
  vendor : List (List Byte)
  owner : List (Option (List Byte))
  revoked : Nat
  everOwner : Bool
  /-- The PUF root of this device, from which its keys derive (R97). -/
  pufRoot : Nat
  /-- PUF helper data (Table 4.1), as a number of 16,384 bits: with the PUF response it gives the root (R97). -/
  pufHelper : Nat
  /-- The vendor slot that signed the identity certificate, and the certificate (R97). -/
  certSlot : Nat
  cert : List Byte
  deriving DecidableEq, Repr

/-- A request of the signing unit (Table 4.4), as its block held it at submission. -/
structure SgnReq where
  addr : Nat
  master : Nat
  pod : Nat
  op : Nat
  cls : Nat
  slot : Nat
  path : Nat
  keyAddr : Nat
  sigAddr : Nat
  digest : List Byte
  /-- TOKEN: the nonce of its path as the submission consumed it (R126); empty when there was none. -/
  nonce : List Byte
  deriving DecidableEq, Repr

/-- Who waits for a signing operation besides its block. -/
inductive SgnWaiter where
  | none
  | quote (cmd : CmdRef) (body : List Byte)
  | tokenCmd (cmd : CmdRef) (token : List Byte)
  | tokenMi (token : List Byte)
  | ledger
  deriving DecidableEq, Repr

/-- The signing unit (R99-R101, R126-R128). -/
structure SgnState where
  queue : List (SgnReq × SgnWaiter)
  ledgerReq : Option (List Byte)
  tokenReq : Option (SgnReq × SgnWaiter)
  /-- The last master served, for the rotation of R51. -/
  lastMaster : Nat
  /-- The latch of the last verification that succeeded (R101): digest, class and slot. -/
  latch : Option (List Byte × Nat × Nat)
  /-- Current nonce by path (R126). -/
  nonce : Tab (List Byte)
  /-- Waivers in effect: pod (0xFFFF for all) and program digest. -/
  waivers : List (Nat × List Byte)
  /-- Identity key and media root derived (R97, R98). -/
  idKey : Bool
  mediaRoot : Bool
  /-- Quotes held because the general queue is full (R130), and a held Token Submit (R99). -/
  heldQuotes : List (SgnReq × SgnWaiter)
  heldTokens : List (SgnReq × SgnWaiter)
  /-- The operation that runs: 0 none, 1 the ledger engine's, 2 TOKEN, 3 the one of the general queue in curr (R99). -/
  running : Nat
  curr : Option (SgnReq × SgnWaiter)
  /-- SGN_SUBMIT_LO by writing master. -/
  submitLo : Tab Nat
  deriving DecidableEq, Repr

/-- A context of the digest engine (Tables 4.10, 4.11). -/
structure DigCtx where
  state : Nat
  alg : Nat
  cause : Nat
  owner : Nat
  pod : Nat
  outLen : Nat
  keyLen : Nat
  custLen : Nat
  /-- Key and customisation bytes of a KMAC256 context gathered so far (R102). -/
  prefixBytes : List Byte
  /-- The 1,600 bits of the sponge. -/
  sponge : Nat
  /-- Bytes taken but not yet absorbed: at most two blocks (R105), the padding of the last block included once final. -/
  buf : List Byte
  /-- FINAL has been accepted and the padding is in buf. -/
  final : Bool
  /-- The output taken out so far and not yet read, and the expected digest (R106). -/
  out : List Byte
  exp : List Nat
  /-- Words of the owner's page as last written (Table 4.11). -/
  dataLo : Nat
  lastLo : Nat
  lastHi : Nat
  srcLo : Nat
  srcHi : Nat
  /-- Bytes of the running engine read still to come (R107). -/
  srcLeft : Nat
  /-- The next address of the engine read (R107), and device time of the last write to its page (R105). -/
  srcAt : Nat
  lastWrite : Nat
  /-- Device time at which the context became CLEARED (R110). -/
  clearedAt : Nat
  deriving DecidableEq, Repr

/-- The digest engine. -/
structure DigState where
  ctx : Tab DigCtx
  openRes : Tab Nat
  /-- The last context served, for the rotation of R51. -/
  lastServed : Nat
  deriving DecidableEq, Repr

/-- A ledger entry (Table 4.17). -/
structure LedgerEntry where
  kind : Nat
  flags : Nat
  index : Nat
  time : Nat
  boot : Nat
  missed : Nat
  prevHash : List Byte
  body : List Byte
  sig : List Byte
  deriving DecidableEq, Repr

/-- Why an append runs, and what follows its commit. -/
inductive AppendFor where
  | boot
  | activate (slot drec svn : Nat) (digest : List Byte) (cmd : Option CmdRef) (now : Bool)
  | token (body : List Byte) (type path : Nat) (waiter : SgnWaiter)
  | firmware (master : Nat)
  /-- The PROGRAM entry of a Load Program (R298): pod, program index, the handle, the image's place and length. -/
  | load (cmd : CmdRef) (pod pind handle addr size : Nat)
  deriving DecidableEq, Repr

/-- The append in progress (R123): the entry as begun, and whether it carried MISSED with its overflow. -/
structure AppendRun where
  entry : LedgerEntry
  ovf : Bool
  why : AppendFor
  /-- Step 2 is over: the signature is written, or the entry goes unsigned. -/
  signed : Bool
  deriving DecidableEq, Repr

/-- The ledger engine outside ledger memory. -/
structure LdgState where
  run : Option AppendRun
  /-- Appends that wait for the one in progress (R123). -/
  wait : List (Nat × List Byte × AppendFor)
  /-- Words of the append and activation registers, by master where there is one for each (R123, R124). -/
  appendRes : Tab Nat
  appendLo : Tab Nat
  appendHi : Tab Nat
  activateSvn : Nat
  ackLo : Tab Nat
  /-- The SVN the boot ROM passed for the floor (R114). -/
  bootedSvn : Nat
  deriving DecidableEq, Repr

/-- A 72-byte record of the key region (R135): the two 256-bit keys it wraps, as one number, the MEDIA_EPOCH whose KEK it is wrapped under, and
whether its integrity check still holds. -/
structure KeyRec where
  key : Nat
  epoch : Nat
  intact : Bool
  deriving DecidableEq, Repr

/-- A key slot of the key region (R135): its two record positions, none where the bytes are zero, and its selector word. -/
structure KeySlot where
  rec0 : Option KeyRec
  rec1 : Option KeyRec
  sel : Nat
  deriving DecidableEq, Repr

/-- A CTR_DRBG instance (R132): the entropy of its last seeding, by its place among the free values, and generate requests since. -/
structure Drbg where
  seed : Nat
  reqs : Nat
  deriving DecidableEq, Repr

/-- A command of the key engine in progress: operation, slot, master. -/
structure KeyRun where
  op : Nat
  slot : Nat
  master : Nat
  /-- The host command that called for it. -/
  cmd : Option CmdRef
  deriving DecidableEq, Repr

/-- The key engine outside the key region. -/
structure KeyState where
  run : List KeyRun
  nsRes : Tab Nat
  /-- A whole-device erase has committed and step 2 is to be done (R137): the master told of its end. -/
  eraseAll : Option Nat
  /-- The generator of the key engine, and the one of every other user (R132). -/
  keyGen : Drbg
  general : Drbg
  deriving DecidableEq, Repr

/-! ### Ledger memory: what no reset clears (Table 12.29, R91) -/

/-- FW_ACTIVE or FW_PREVIOUS (R114). -/
structure FwWord where
  slot : Nat
  drec : Nat
  svn : Nat
  deriving DecidableEq, Repr

/-- SANITIZE_STATE (Table 6.12). -/
structure SanState where
  sanact : Nat
  phase : Nat
  ause : Bool
  failed : Nat
  /-- The last sanitize that ended: 0 none, 1 successful, 3 failed (for the Sanitize Status log). -/
  last : Nat
  deriving DecidableEq, Repr

/-- A group secret the key engine holds, wrapped under a MEDIA_EPOCH (R455). -/
structure GroupKey where
  epoch : Nat
  secret : List Byte
  active : Bool
  wrapped : Nat
  deriving DecidableEq, Repr

/-- The contents of ledger memory, item by item. -/
structure NvState where
  /-- LEDGER_STATE (R119). -/
  newest : Nat
  missed : Nat
  missedOvf : Bool
  credits : Nat
  archA : Nat
  epoch : Nat
  base : Nat
  /-- Epochs whose archive warning has been raised (R122): the last one. -/
  warned : Option Nat
  /-- The epoch whose archive has been found full (R80, R122): the capacity is not known before discovery (log entry 84). -/
  fullEpoch : Option Nat
  /-- The firmware words, SVN floor, and the sequences of tokens (R114, R127). -/
  fwActive : FwWord
  fwPrev : FwWord
  fwDigest : List (List Byte)
  svnFloor : Nat
  tokenSeq : List Nat
  /-- The sequence floor of configuration images (R74), and the boot number (Table 12.29). -/
  seqFloor : Nat
  bootNumber : Nat
  /-- The ring of the ledger, by slot (R116). -/
  ring : Tab LedgerEntry
  /-- Key region (R135). -/
  keys : Tab KeySlot
  /-- MEDIA_EPOCH (R137), and the base of the ring's sequence numbers (R476). -/
  mediaEpoch : Nat
  recSeqBase : Nat
  /-- Recorder history by 32 × series + block (R489). -/
  history : Tab SeriesBlock
  /-- What each block number shows for the series that have folded nothing into it. -/
  histDef : Tab SeriesBlock
  /-- Current period block of the histories (R489). -/
  period : Nat
  periodAt : Nat
  /-- SANITIZE_STATE (R217), and the words of the rebuild's and the map's checkpoints (R195, R220). -/
  sanitize : SanState
  rebuildCkpt : Nat
  mapCkpt : Nat
  /-- Hold-up breach held across resets (R199), and the last flush rate (R419). -/
  breach : Bool
  flushRate : Nat
  /-- This device's incarnation (R460). -/
  incarnation : Nat
  /-- Group secrets in the key region, at most two (R455). -/
  groupKeys : List GroupKey
  /-- Lines remapped by channel or SRAM group: key and line (R395). -/
  remap : Tab Nat
  /-- Bad-block table, oldest first (R210), and the erased-block bitmap of a sanitize: 2^20 × LUN + block (R217). -/
  badTable : List Nat
  erased : Tab Bool
  /-- Bytes of the general area of ledger memory. -/
  general : Tab Byte
  deriving DecidableEq, Repr

/-! ### Flash channels (chapter 5) -/

/-- An operation descriptor (Table 5.7) as the sequencer copied it. -/
structure FlashOp where
  addr : Nat
  master : Nat
  pod : Nat
  op : Nat
  flags : Nat
  group : Nat
  block : Nat
  page : Nat
  frames : Nat
  planes : Nat
  bufAddr : Nat
  dest : Nat
  evFlag : Nat
  tag : List Byte
  /-- Device time of submission, and the cost the credit gate asks (R156). -/
  at_ : Nat
  cost : Nat
  /-- The generation snapshot of a read (R164). -/
  gen : Nat
  /-- The offsets a read or sweep took when its array read started, by threshold (R164). -/
  offs : Tab Int
  /-- The dither a read was given: threshold and sign (R166); none when it was not dithered. -/
  dither : Option (Nat × Bool)
  /-- Since when the operation waits for its credit, and whether it holds the group's reservation (R157). -/
  waitAt : Option Nat
  reserved : Bool
  /-- The read job of an operation of the FTL accelerators' own; 0 for none. -/
  job : Nat
  deriving DecidableEq, Repr

/-- Tracker state of one threshold of a block group (R167). -/
structure Thresh where
  off : Int
  acc : Int
  half : Int
  halfOk : Bool
  pairs : Nat
  /-- The sign of the next dither of this (group, t) is plus (R166). -/
  plus : Bool
  deriving DecidableEq, Repr

/-- A block group of a LUN (R163); averages have 8 fraction bits (R167). -/
structure Group where
  active : Bool
  mode : Nat
  gen : Nat
  thr : Tab Thresh
  iterAvg : Int
  b10 : Tab Int
  b01 : Tab Int
  /-- Frames received at step 0 in this patrol period (R171). -/
  frames : Nat
  /-- Iterations and number of the PATROL frames of this day (R169). -/
  patrolSum : Nat
  patrolCount : Nat
  /-- Dithered frames and failures in the running thousand, and dither suspended (R168). -/
  dithered : Nat
  dithFails : Nat
  suspended : Bool
  /-- Thresholds of a page type take turns (R166), by page type; an SLC read's is 4. -/
  turns : Tab Nat
  deriving DecidableEq, Repr

/-- A LUN (R140): its die record (Table 5.2), its queue and its running operation. -/
structure Lun where
  status : Nat
  exclCause : Nat
  iface : Nat
  bpc : Nat
  jedecId : Nat
  pageBytes : Nat
  spareBytes : Nat
  pages : Nat
  planes : Nat
  blocks : Nat
  tR : Nat
  tProg : Nat
  tBers : Nat
  endurance : Nat
  offStep : Nat
  rate : Nat
  ext : Nat
  rdEyeW : Nat
  wrEyeW : Nat
  rdEyeH : Nat
  wrEyeH : Nat
  vref : Nat
  trainedAt : Nat
  temp : Int
  queue : List FlashOp
  running : Option FlashOp
  /-- A suspended erase and its suspensions (R153). -/
  suspended : Option FlashOp
  suspCount : Nat
  /-- Start or last resume of the running operation; how long an erase ran before, and when it was suspended (R153, R154). -/
  startedAt : Nat
  ranNs : Nat
  suspAt : Nat
  /-- RESET LUN has been issued and the LUN is not ready yet: when, and the cost still held (R154, R156). -/
  resetting : Option (Nat × Nat)
  /-- The read offsets the LUN holds, by threshold (R164). -/
  loaded : Tab Int
  /-- Block groups by number (R163). -/
  groups : Tab Group
  /-- Step-0 reads since the last dithered one (R166). -/
  sinceDither : Nat
  /-- Native block groups the FTL has created on it, oldest first (R190). -/
  natives : List Nat
  /-- Die features set by SET_FEATURE. -/
  features : Tab Nat
  deriving DecidableEq, Repr

/-- The flash channels and what they share. -/
structure FlashState where
  /-- LUNs by device index 64 × channel + die (Table 6.1). -/
  luns : Tab Lun
  /-- Reservations of each flash power group's credit gate (R157), the one in force first: the LUN whose next operation
  holds it. -/
  reserve : Tab (List Nat)
  /-- The LUN each group's credit gate granted last, where its rotation goes on (R51, R156). -/
  gateLast : Tab Nat
  /-- Patrol list and advisory list (R169, R171): LUN, group and reason. -/
  patrol : List (Nat × Nat)
  advise : List (Nat × Nat × Nat)
  /-- LDP_GRP_RES and FCH_SUBMIT_LO, for each master (R172, R150). -/
  grpRes : Tab Nat
  submitLo : Tab Nat
  /-- The emergency flush holds the sequencers to FLUSH programs (R155). -/
  flushMode : Bool
  /-- When the patrol period and the day of the PATROL averages began (R171, R169). -/
  patrolAt : Nat
  dayAt : Nat
  deriving DecidableEq, Repr

/-! ### Tasks (chapter 9) -/

/-- States of Table 9.6 but FREE, which is the absence of an entry. -/
inductive TaskSt where
  | waiting
  | ready
  | slotted
  | running
  | held
  deriving DecidableEq, Repr

/-- A task entry (Table 9.4). -/
structure Task where
  gen : Nat
  kind : Nat
  prio : Nat
  program : Nat
  waitMask : Nat
  flags : Nat
  all : Bool
  bg : Bool
  cancelIrq : Bool
  vine : Option Nat
  vseq : Nat
  affinity : Nat
  prefer : Nat
  affWindow : Nat
  pod : Nat
  doneFlag : Nat
  arg : Nat
  compAddr : Nat
  timeLimit : Nat
  submitter : Nat
  st : TaskSt
  /-- Order in which it became ready (R288); 0 puts it at the head of its list (R292). -/
  readyNo : Nat
  /-- AFF_WINDOW has passed since readiness (R288). -/
  windowOver : Bool
  /-- When it became ready (R288), and when it was cancelled while it ran (R295). -/
  readyAt : Nat
  cancelAt : Nat
  /-- The core and its launch, and a cancellation on its way (R289, R291, R295). -/
  core : Nat
  launched : Bool
  launchedAt : Nat
  cancelled : Bool
  /-- STATUS and CODE reached (Table 9.7). -/
  status : Nat
  code : Nat
  /-- The Execute Program command it serves (R323). -/
  cmd : Option CmdRef
  deriving DecidableEq, Repr

/-- The registers of a core that R282 names: x0 to x31 by 0 to 31, f0 to f31 by 32 to 63, v0 to v31 by 64 to 95, fcsr 96, the vector CSRs 97, the
branch prediction state 98. One listed holds that value; another reads 0 while clean, and otherwise what a program left there, which is free. -/
structure CoreRegs where
  known : Tab Nat
  clean : Bool
  deriving DecidableEq, Repr

/-- A core: its two prefetch slots, its running task, its pod tag (R280, R289) and its registers (R282). -/
structure Core where
  slot0 : Option Nat
  slot1 : Option Nat
  running : Option Nat
  tag : Nat
  regs : CoreRegs
  deriving DecidableEq, Repr

/-- A vine (R293, R294). -/
structure Vine where
  pod : Nat
  base : Nat
  next : Nat
  deriving DecidableEq, Repr

/-- A program handle (R298, R299). -/
structure Prog where
  pod : Nat
  addr : Nat
  scratch : Nat
  unloading : Bool
  waived : Bool
  digest : List Byte
  deriving DecidableEq, Repr

/-- The task scheduler. -/
structure TskState where
  tasks : Tab Task
  /-- GEN of entries that have been freed at least once. -/
  gens : Tab Nat
  /-- Cores by number, vines and program handles (R280, R293, R298). -/
  cores : Tab Core
  vines : Tab Vine
  progs : Tab Prog
  /-- The order of readiness (R288), and the words of submission, query and program registers by master. -/
  readyCtr : Nat
  submitLo : Tab Nat
  submitRes : Tab Nat
  query : Tab Nat
  progRes : Tab Nat
  progAddr : Nat
  /-- Deficit counters by pod, and the last pod served (R358). -/
  deficit : Tab Int
  lastPod : Nat
  /-- The core whose slot was filled last (R51). -/
  lastCore : Nat
  /-- Cobs for which TSK_COB_WAIT stands in this episode (R292). -/
  cobWait : List Nat
  deriving DecidableEq, Repr

/-! ### Host interface (chapter 10) -/

/-- A submission queue. -/
structure Sq where
  size : Nat
  base : Nat
  cqid : Nat
  prio : Nat
  head : Nat
  tail : Nat
  deriving DecidableEq, Repr

/-- A completion queue. -/
structure Cq where
  size : Nat
  base : Nat
  vector : Nat
  ien : Bool
  head : Nat
  tail : Nat
  phase : Bool
  deriving DecidableEq, Repr

/-- A completion on its way to its queue (R314). -/
structure Cqe where
  pod : Nat
  cqid : Nat
  qid : Nat
  cid : Nat
  sct : Nat
  sc : Nat
  dnr : Bool
  dw0 : Nat
  deriving DecidableEq, Repr

/-- A pod's controller (R307-R310, R346). -/
structure Ctrl where
  cc : Nat
  rdy : Bool
  cfs : Bool
  shst : Nat
  aqa : Nat
  asq : Nat
  acq : Nat
  sqs : Tab Sq
  cqs : Tab Cq
  arb : Nat
  tempOver : Tab Int
  tempUnder : Tab Int
  numQ : Nat
  coal : Nat
  vecCfg : Tab Nat
  writeAtom : Nat
  asyncCfg : Nat
  /-- Asynchronous Event Requests outstanding, and events waiting for one (Dword 0 values). -/
  aers : List Nat
  pendingEv : List Nat
  /-- Entries of the Error Information log, newest first. -/
  errLog : List (Nat × Nat × Nat × Nat)
  /-- BAR0 register writes held while QUIESCED (R361): offset and value; a ninth sets CFS at RESUME. -/
  heldRegs : List (Nat × Nat)
  ninth : Bool
  /-- Enabled and waiting for RDY (R83). -/
  enabling : Bool
  /-- Arbitration among its queues (R311): turns the high, medium and low classes have left in the round, the last queue
  served, and the commands left in its turn. -/
  turns : List Nat
  lastQ : Nat
  burst : Nat
  deriving DecidableEq, Repr

/-- What an I/O command does to its range (Table 10.9). -/
inductive IoKind where
  | read
  | write
  | writeZeroes
  | writeUnc
  | compare
  | verify
  | dsm
  deriving DecidableEq, Repr

/-- A command that rate tokens or the lock quota may hold (R360). -/
inductive HeldKind where
  | io (k : IoKind)
  | execProgram
  | memRead
  | memWrite
  | memCopy
  deriving DecidableEq, Repr

/-- How far a fetched command has come (R316). -/
inductive Stage where
  /-- Held at its queue's head for tokens or lock quota (R360). -/
  | held
  /-- Fetched, not started: its lock is not granted or it has not been taken up. -/
  | fetched
  | lockWait
  | started
  /-- All data pulled; waits for the dirty limit (R31), the write-rate bucket (R429) or programs (write-through). -/
  | waitBuffer
  | waitRate
  | waitDurable
  /-- A write to a spread namespace that waits for its positions (R468). -/
  | waitPeers
  deriving DecidableEq, Repr

/-- An outstanding command (R313). -/
structure OutCmd where
  pod : Nat
  qid : Nat
  cid : Nat
  /-- Completion queue of its submission queue, 0 when the admin queue's. -/
  cqid : Nat
  /-- Bytes of its transfer, how far it has come, and the I/O command it is (R316). -/
  bytes : Nat
  stage : Stage
  io : Option (IoKind × HostCmd)
  /-- Map units whose current version it still waits for, and those it has (by namespace slot times 2^40 plus unit). -/
  need : List Nat
  got : List (Nat × List Byte)
  /-- Every byte of the host's data has arrived and passed its checks (R327). -/
  arrived : Bool
  /-- What it asks for, while it is held at its queue's head (R360). -/
  held : Option (HeldKind × HostCmd)
  /-- It is an Abort (R322); a reset has deleted its queue, and it completes to nobody (R86). -/
  abort : Bool
  mute : Bool
  deriving DecidableEq, Repr

/-- A range-lock entry (R316): namespace, first and last map unit, mode, granted, and its command; scans hold theirs by job. -/
structure Lock where
  ns : Nat
  first : Nat
  last : Nat
  excl : Bool
  granted : Bool
  cmd : CmdRef
  deriving DecidableEq, Repr

/-- A Flush or shutdown that waits for writes (R336, R337): sequence numbers still to reach step 8. -/
structure FlushWait where
  cmd : Option CmdRef
  pod : Nat
  upTo : Nat
  /-- Delta records to be durable as well. -/
  recs : Nat
  /-- The namespace it is for; none for all. -/
  ns : Option Nat
  deriving DecidableEq, Repr

/-- A namespace (R174, R328, R334). -/
structure Ns where
  size : Nat
  format : Nat
  dps : Nat
  extended : Bool
  coarse : Bool
  nguid : Nat
  shared : Bool
  spread : Bool
  /-- K of a spread namespace, whose local slot holds one chunk of each stripe; 0 for any other. -/
  hold : Nat
  /-- Pods it is attached to. -/
  pods : List Nat
  /-- 0 ready, 1 not yet ready, 2 key unusable, 3 being formatted, 4 being deleted. -/
  status : Nat
  /-- Its units come from legacy media (R221). -/
  legacy : Bool
  deriving DecidableEq, Repr

/-- A namespace operation under way (R333-R335): 0 creation, 1 deletion, 2 format; the command, the new LBA format and its
settings, whether the key is replaced, and how far it has come: 0 quiescing, 1 key engine, 2 members of a spread namespace. -/
structure NsOp where
  kind : Nat
  cmd : CmdRef
  nsid : Nat
  format : Nat
  dps : Nat
  extended : Bool
  rekey : Bool
  step : Nat
  deriving DecidableEq, Repr

/-- Firmware activation without reset (Table 10.17): the command, the slot and the step reached. -/
structure FwAct where
  cmd : CmdRef
  slot : Nat
  step : Nat
  stopAt : Nat
  deriving DecidableEq, Repr

/-- The device self-test (R342, R343): running STC, its command's start, and the log entry of the last results. -/
structure SelfTest where
  run : Option Nat
  log : List (Nat × Nat × Nat)
  deriving DecidableEq, Repr

/-- A program a pod has loaded (R263, R323): whether it is a scan program, its handle, and its place and length in the program
store. -/
structure HostProg where
  scan : Bool
  handle : Nat
  addr : Nat
  size : Nat
  deriving DecidableEq, Repr

/-- The host interface and NVMe front end. -/
structure HostState where
  ctrls : Tab Ctrl
  out : List OutCmd
  locks : List Lock
  cqes : List Cqe
  flushes : List FlushWait
  ns : Tab Ns
  /-- Firmware and configuration staging (R338, R341): bytes by offset and the ranges received. -/
  fwStage : Tab Byte
  fwRanges : List (Nat × Nat)
  cfgStage : Tab Byte
  cfgRanges : List (Nat × Nat)
  /-- Namespace operations, a firmware activation and the self-test under way (R333, R340, R342). -/
  nsOps : List NsOp
  fwAct : Option FwAct
  selfTest : SelfTest
  /-- Timestamp offset (R347): milliseconds by which the Timestamp lies behind device time. -/
  tsOffset : Nat
  /-- The last pod fetched from, and deficits by pod (R358). -/
  lastPod : Nat
  deficit : Tab Int
  /-- Pods whose fetch is stopped by shutdown, link loss or quiesce. -/
  stopped : List Nat
  /-- Memory range sets and activations of the Computational Programs set, by pod × 65,536 + id. -/
  rangeSets : Tab (List (Nat × Nat))
  activated : List Nat
  /-- Programs loaded through NVMe and loads whose bytes have come in part, by pod × 65,536 + program index. -/
  progs : Tab HostProg
  loads : Tab (List Byte)
  /-- Program indexes whose load named a scan program on a part without scan engines (R12). -/
  absentScans : List Nat
  /-- The upper word of device time that a read of BAR2 offset 0x010 has latched, by port (R18, R309). -/
  barTime : Tab Nat
  deriving DecidableEq, Repr

/-! ### Pods (chapter 11) -/

/-- Who gave a pod command: a host command of pod 0, or a master through POD_CMD_HI (R352, R353). -/
inductive PodBy where
  | cmd (c : CmdRef)
  | fw (master : Nat)
  deriving DecidableEq, Repr

/-- A pod entry (Table 11.2) but for STATE FREE, which is the absence of an entry. -/
structure Pod where
  state : Nat
  cls : Nat
  port : Nat
  bound : Bool
  noPasid : Bool
  pasid : Nat
  weight : Nat
  ioq : Nat
  cmds : Nat
  tasks : Nat
  imsBase : Nat
  imsCount : Nat
  rdKiops : Nat
  wrKiops : Nat
  rdMbs : Nat
  wrMbs : Nat
  wbufPm : Nat
  ctx : Nat
  prog : Nat
  locks : Nat
  ns : Nat
  label : Nat
  /-- Ranges of pod memory in 2 MiB units: range number to base and length (R356). -/
  ranges : Tab (Nat × Nat)
  /-- Token buckets (R360): read commands, read bytes, write commands, write bytes, each times
  10^6, and their time. -/
  tokens : List Int
  tokensAt : Nat
  /-- Weights that take effect at the next round of fetch, dispatch and scan (R359). -/
  newWeight : List (Option Nat)
  /-- Quiesce: GRACE_MS asked, when it began, commands waiting for it, and whether grace has passed. -/
  graceMs : Nat
  quiesceAt : Nat
  graceOver : Bool
  waiters : List PodBy
  /-- The RESET or REMOVE under way. -/
  by_ : Option PodBy
  /-- POD_HELD stands in this episode (R360). -/
  heldEpisode : Bool
  /-- Interrupt vectors of a NO_PASID pod pending while QUIESCED. -/
  pendVec : List Nat
  /-- Journal records appended when a command of the pod last ended: its writes are durable once that many are (R361). -/
  recMark : Nat
  deriving DecidableEq, Repr

/-- An interrupt message entry (R366). -/
structure Ims where
  addr : Nat
  data : Nat
  mask : Bool
  pending : Bool
  deriving DecidableEq, Repr

/-- The pod unit. -/
structure PodState where
  pods : Tab Pod
  ims : Tab Ims
  cmdLo : Tab Nat
  cmdRes : Tab Nat
  /-- Commands that wait because 16 run (R352): who gave them, and their blocks. -/
  waiting : List (PodBy × List Byte)
  deriving DecidableEq, Repr

/-! ### The husk (chapter 14) -/

/-- A lockstep pair's watchdog (R445). -/
structure Pair where
  last : Nat
  beatAt : Nat
  halfSeen : Bool
  deriving DecidableEq, Repr

/-- The husk outside its registers. -/
structure HskState where
  /-- The watchdog is armed (R445). -/
  armed : Bool
  /-- The lockstep pairs' watchdogs (R445). -/
  pairs : Tab Pair
  /-- Key permits: operation of KEY_NS_CMD, slot, and the command that holds it (R441). -/
  permits : List (Nat × Nat × CmdRef)
  /-- Debug level in force, 0 for closed (R444), and what it halted: device cores by number, lockstep pair k as 64 + k. -/
  debugLevel : Nat
  halted : List Nat
  /-- Device time from which 1 h without expiry is counted (R447). -/
  cleanSince : Nat
  deriving DecidableEq, Repr

/-! ### DRAM channels and memory protection (chapter 12) -/

/-- What is wrong with the stored bits of one line: 0 nothing, 1 one bit, 2 one device's symbols, 3 uncorrectable,
4 poison; for the primary and the mirror copy, and whether an injection made it (R373, R400). -/
structure LineBad where
  prim : Nat
  copy : Nat
  injected : Bool
  deriving DecidableEq, Repr

/-- An error armed by MPR_INJ_CTRL stands in that register; the rest of the memory unit outside its registers. -/
structure MemState where
  /-- Physical channels in map order, fixed when step 10 of Table 3.12 ends (R369), and their usable capacity C'. -/
  mapped : List Nat
  chanCap : Nat
  /-- Training results awaited at this step 10: channels that have reported. -/
  trained : List Nat
  /-- Lines whose stored bits carry an error, by internal address / 64. -/
  bad : Tab LineBad
  /-- Lines whose valid bit is set, in SOFTWARE_WRITE mode (R391). -/
  valid : Tab Bool
  /-- Units of 2 MiB the initialiser has zeroed for a pod (R356): every line of theirs is valid. -/
  zeroed : List Nat
  /-- Watch lists by memory: unit and pass, oldest first (R395). -/
  watch : Tab (List (Nat × Nat))
  /-- Pass number and next line of the scrubber by memory (R393). -/
  pass : Tab Nat
  scrubAt : Tab Nat
  /-- Buckets that have raised MEM_CE_THRESHOLD and not fallen below half of THRESH since (R397). -/
  raised : List Nat
  /-- Units found uncorrectable by their full tables: no second MEM_REMAP_FULL (R396). -/
  unmappable : List Nat
  /-- Device times of the uncorrectable errors of the last second by channel (R386). -/
  ueAt : Tab (List Nat)
  /-- Aggressor records in this refresh window by 256 × channel + master (R382). -/
  strikes : Tab Nat
  /-- Windows a throttle still has to run, by channel (R382). -/
  throttleLeft : Tab Nat
  /-- Temperature and device time of the last training by channel (R384). -/
  trainTemp : Tab Int
  trainAt : Tab Nat
  /-- Channels on which activations are limited (R380), and ranks with tREFI halved. -/
  limited : List Nat
  /-- State a channel returns to from self-refresh or retraining: 2 ACTIVE or 4 DEGRADED. -/
  base : Tab Nat
  /-- Addresses reserved by load-reserve, by core (R278). -/
  reserved : Tab Nat
  /-- Refreshes issued, by 2 × channel + rank (R380). -/
  refreshes : Tab Nat
  deriving DecidableEq, Repr

/-! ### Translation and the data path (chapters 6 and 7) -/

/-- An extent: one stored version of a map unit (R174, Tables 6.2 and 6.3). Its ciphertext is represented by the plain
unit and the name of the key it was encrypted under (R229, log entry 41). -/
structure Extent where
  seq : Nat
  /-- Namespace slot times 2^40 plus map unit (Table 6.3). -/
  laddr : Nat
  /-- Length in grains, RAW, the key it is encrypted under, and the unit. -/
  grains : Nat
  raw : Bool
  key : Nat
  plain : List Byte
  /-- What its XTS data unit holds before encryption: the padded container, or a RAW unit itself (R225, R226). -/
  body : List Byte
  deriving DecidableEq, Repr

/-- An extent placed in a lane and not yet programmed: where it starts, its grain offset, the last frame of the block it
reaches, and the write-buffer entry it came from. -/
structure Placed where
  ext : Extent
  frame : Nat
  goff : Nat
  last : Nat
  wb : Nat
  deriving DecidableEq, Repr

/-- A lane (R179): the open block of one LUN and its open frame. -/
structure Lane where
  sb : Nat
  slc : Bool
  /-- Place of the lane in the superblock, and the number of lanes (R186). -/
  idx : Nat
  width : Nat
  /-- Frames of one wordline, and frames of the block before its last page (R188). -/
  wl : Nat
  dataFrames : Nat
  /-- First frame of the wordline being filled, and how many of its frames are sealed. -/
  base : Nat
  sealed : Nat
  /-- The open frame: grains continued into it, the extents that start in it with their entries, and when the first came. -/
  cont : Nat
  recs : List (Extent × Nat)
  curAt : Option Nat
  /-- Extents placed and not yet programmed. -/
  placed : List Placed
  /-- Highest sequence number placed in it so far (R179). -/
  lastSeq : Nat
  /-- Sealed data frames not yet programmed, with the grains each continues from the frame before (R180). -/
  heads : List (Nat × Nat)
  /-- First frames of sealed wordlines waiting for their program, oldest first. -/
  toProgram : List Nat
  /-- Nothing more is placed in it. -/
  closed : Bool
  deriving DecidableEq, Repr

/-- A superblock that is not FREE (R185, R204). -/
structure SuperBlock where
  /-- 0 open, 1 CLOSED, 2 RECLAIMABLE. -/
  state : Nat
  /-- In the SLC pool; its LUNs, its retired blocks; FTL_SEQ and device time at its opening, and device time at its closing (R185). -/
  slc : Bool
  lanes : List Nat
  retired : List Nat
  openSeq : Nat
  openedAt : Nat
  closedAt : Nat
  /-- Blocks erased since it became RECLAIMABLE, and the number of its RECLAIMABLE record (R204). -/
  erased : List Nat
  reclaimNo : Nat
  /-- Number of the last record that released grains of it (R204), and its place in the order of openings (R219). -/
  relNo : Nat
  openNo : Nat
  deriving DecidableEq, Repr

/-- A block of the block table (R189, R440). -/
structure Blk where
  /-- 0 FREE, 1 DATA, 2 SLC_BUFFER, 3 METADATA, 4 FLUSH_RESERVE, 5 ARCHIVE, 6 RETIRED (Table 6.5). -/
  pool : Nat
  /-- The next page not yet programmed. -/
  wp : Nat
  /-- Program/erase cycles (R207), and its block group (R190). -/
  pe : Nat
  group : Nat
  /-- A METADATA block has been marked released. -/
  released : Bool
  /-- Archive epoch of the last program of an ARCHIVE block. -/
  epoch : Nat
  /-- An erase of it was abandoned: it is unusable until it is erased again (R155). -/
  torn : Bool
  deriving DecidableEq, Repr

/-- A delta record (Table 6.7). -/
structure Delta where
  kind : Nat
  laddr : Nat
  value : Nat
  deriving DecidableEq, Repr

/-- A journal frame in DRAM (Table 6.9). -/
structure JFrame where
  jseq : Nat
  horizon : Nat
  recs : List Delta
  deriving DecidableEq, Repr

/-- A write-buffer entry: one version of one map unit (R31). -/
structure WEntry where
  id : Nat
  laddr : Nat
  data : List Byte
  cmd : CmdRef
  /-- 0 waits for a pipe, 1 at a pipe, 2 left its pipe, 3 placed, 4 programmed and recorded. -/
  step : Nat
  /-- What its pipe made of it, once it has left: grains (0 for ZERO) and RAW. -/
  grains : Nat
  raw : Bool
  body : List Byte
  /-- Its sequence number (R184). -/
  seq : Nat
  /-- The key its encryption unit loaded (R230), the grains reserved for it (R212), and whether a later deallocation has
  taken its place. -/
  key : Nat
  resv : Nat
  dead : Bool
  /-- Records appended before and with its own: it is released when that many are durable (step 8). -/
  recNo : Nat
  deriving DecidableEq, Repr

/-- Who reads a unit from flash. -/
inductive ReadOwner where
  | cmd (c : CmdRef)
  | scan (job unit : Nat)
  /-- A READ with DEST 0 whose descriptor another submitter wrote: its pipe tag (Table 7.4). -/
  | tag (word0 word1 : Nat)
  /-- A chunk of a spread namespace this device holds: its entry in AskState.locals. -/
  | ask (k : Nat)
  /-- A map page that DRAM does not hold (R178): the logical address of its first unit over 512. -/
  | page (k : Nat)
  deriving DecidableEq, Repr

/-- A unit on its way from flash (Table 1.6). -/
structure ReadJob where
  owner : ReadOwner
  laddr : Nat
  entry : Nat
  /-- 0 waits for its LUN's queue, 1 at the LUN, 2 at the decompression pipe, 3 waits for its map page (R178). -/
  step : Nat
  /-- Its frames have been rebuilt from die parity (R187). -/
  rebuilt : Bool
  deriving DecidableEq, Repr

/-- The translation layer. -/
structure FtlState where
  /-- The map by namespace slot times 2^40 plus unit (Table 6.1), and the same as the durable records give it. -/
  map : Tab Nat
  dmap : Tab Nat
  /-- Extents on flash by the place that bits 63:13 of a map entry name. -/
  media : Tab Extent
  /-- Blocks by 2^20 times LUN index plus block; superblocks by 2^14 times stripe set plus index; lanes by LUN index. -/
  blocks : Tab Blk
  sbs : Tab SuperBlock
  lanes : Tab Lane
  /-- The write buffer, and the next number of an entry (R31). -/
  wbuf : List WEntry
  wnext : Nat
  /-- Delta log: records not yet in a frame, when the first came, and frames not yet durable, oldest first. -/
  delta : List Delta
  deltaAt : Option Nat
  frames : List JFrame
  /-- Records ever appended, and ever durable. -/
  recCount : Nat
  recDurable : Nat
  /-- The next journal sequence number (R194). -/
  jnext : Nat
  /-- HORIZON of the newest durable frame, and whether it is a FLUSH_COMPLETE frame. -/
  horizon : Nat
  flushComplete : Bool
  /-- Journal frames since the last checkpoint began; the running checkpoint's JSEQ_START; the generation. -/
  sinceCkpt : Nat
  ckptRun : Option Nat
  ckptGen : Nat
  /-- Durable journal frames by PFA, and the root PFA of the newest checkpoint. -/
  jplaces : Tab Nat
  rootPfa : Nat
  /-- Priority victims with reasons (R202), urgent stripe sets (R201). -/
  victims : List (Nat × Nat)
  urgent : List Nat
  /-- Reads on their way, and the next number of one. -/
  reads : Tab ReadJob
  readNext : Nat
  /-- Grains reserved by commands (R212). -/
  reserved : List (CmdRef × Nat)
  /-- Fixed at first format: physical data capacity in grains, S0, archive blocks per LUN and first (R211, R213, R145). -/
  cap : Option Nat
  s0 : Nat
  archive : Option (Nat × Nat)
  /-- FTL_SPACE cause 1 stands in this episode; causes 2 and 3, and FTL_WEAR 2, and FTL_RETIRE 3 have been raised. -/
  fullEpisode : Bool
  spareWarned : Bool
  readOnly : Bool
  usedWarned : Bool
  badWarned : Bool
  /-- Device time the newest native group was created (R190). -/
  groupAt : Nat
  /-- A full rebuild runs: the slice reached (R220). -/
  rebuild : Option Nat
  /-- Legacy blocks present, and the key that unwraps them was supplied (R221). -/
  legacy : Bool
  legacyKey : List Byte
  /-- The bank's limits in MiB as delivered, and why WRITE_THROUGH holds (R196-R198): next mode decided at an admission. -/
  holdUpReady : Bool
  /-- The mode falls to WRITE_THROUGH once writes already acknowledged are durable (R198). -/
  wtPending : Bool
  /-- A die-parity rebuild has failed (R345). -/
  parityLost : Bool
  /-- The emergency flush runs (R88). -/
  flushRun : Bool
  /-- Superblocks of an urgent set that host extents may still open, one for each returned to FREE (R205). -/
  allow : Tab Nat
  /-- Programmed frames of the accelerators' own by PFA: FLAGS of Table 6.2 and CONT (R180). -/
  heads : Tab (Nat × Nat)
  /-- Journal frames on flash by PFA, with FLUSH_COMPLETE (R193). -/
  jstore : Tab (JFrame × Bool)
  /-- The map directory: PFA and CRC-32C of each map page's newest flash copy; and the pages DRAM does not hold (R178). -/
  dir : Tab (Nat × Nat)
  unheld : List Nat
  /-- What the newest checkpoint saved of each LUN's tracker: its native groups and its groups (R172, R190, R195). -/
  saved : Tab (List Nat × Tab Group)
  /-- Superblocks open at the running or newest checkpoint's JSEQ_START (R195). -/
  ckptOpen : List Nat
  /-- Stripe sets under garbage collection, the victim of each set (R201, R202), and folding: 0 none, 1 background, 2 foreground (R192). -/
  gc : List Nat
  victim : Tab Nat
  folding : Nat
  /-- Superblocks opened so far. -/
  sbCount : Nat
  /-- The write-rate bucket (R429): its level in bytes times 100 x 86,400 x 10^9, the device time it holds for, and whether
  writes wait in this episode. -/
  wrLevel : Int
  wrAt : Nat
  wrWaiting : Bool
  deriving DecidableEq, Repr

/-- A stream job at a pipe (Table 7.6). -/
structure CmpJob where
  addr : Nat
  master : Nat
  pod : Nat
  ctx : Nat
  flags : Nat
  inAddr : Nat
  outAddr : Nat
  inLen : Nat
  outLen : Nat
  evFlag : Nat
  /-- Its place in the order of submissions (R239). -/
  no : Nat
  deriving DecidableEq, Repr

/-- A stream job context (R238, R239). -/
structure CmpCtx where
  owner : Nat
  pod : Nat
  kind : Nat
  framing : Nat
  effort : Nat
  /-- 0 READY, 1 ACTIVE, 2 FINISHED, 3 FAILED. -/
  state : Nat
  /-- Device time of its last job (R239). -/
  lastUsed : Nat
  /-- The stream's input so far, and the bytes of output already given (R245). -/
  taken : List Byte
  made : Nat
  /-- Compression: the blocks closed so far: input bytes, written stored (R242), and an empty block of SYNC behind it. -/
  cuts : List (Nat × Bool × Bool)
  deriving DecidableEq, Repr

/-- A compression or decompression pipe: units or extents queued, stream jobs queued, recent verify mismatches. -/
structure Pipe where
  units : List Nat
  jobs : List CmpJob
  mism : List Nat
  deriving DecidableEq, Repr

/-- The data pipeline. -/
structure CmpState where
  /-- Compression pipe p under p, decompression pipe n under 32 + n. -/
  pipes : Tab Pipe
  /-- The last pipe given a unit, for the rotation of R51. -/
  lastPipe : Nat
  /-- Stream job contexts by number (R238). -/
  ctxs : Tab CmpCtx
  /-- Stream jobs submitted so far. -/
  jobNo : Nat
  /-- The result of an open and the low word of a submission, by master (R238). -/
  openRes : Tab Nat
  submitLo : Tab Nat
  deriving DecidableEq, Repr
/-! ### Scan engines (chapter 8) -/

/-- A field descriptor of a scan program (Table 8.6). -/
structure ScanField where
  type : Nat
  width : Nat
  flags : Nat
  source : Nat
  deriving DecidableEq, Repr

/-- A predicate node (Table 8.7). -/
structure ScanNode where
  op : Nat
  field : Nat
  first : Nat
  nchild : Nat
  clen : Nat
  coff : Nat
  value : Nat
  deriving DecidableEq, Repr

/-- A scan program (Table 8.4): projections are (field, OUTFMT), aggregates (FUNC, field). -/
structure ScanProg where
  recfmt : Nat
  flags : Nat
  params : List Byte
  fields : List ScanField
  nodes : List ScanNode
  projs : List (Nat × Nat)
  aggs : List (Nat × Nat)
  pool : List Byte
  bloomK : Nat
  mbits : Nat
  bloomAddr : Nat
  deriving DecidableEq, Repr

/-- An aggregate's running value (R258): and whether any value was seen. -/
structure AggVal where
  v : Int
  seen : Bool
  deriving DecidableEq, Repr

/-- What a unit gave (R264): records, matches, malformed causes in order, emitted records and their bytes, aggregates. -/
structure UnitRes where
  unreadable : Bool
  records : Nat
  matched : Nat
  bad : List Nat
  emitted : Nat
  bytes : List Byte
  aggs : List AggVal
  deriving DecidableEq, Repr

/-- A scan job (Table 8.9). -/
structure ScanJob where
  addr : Nat
  master : Nat
  pod : Nat
  cmd : Option CmdRef
  skip : Bool
  nsid : Nat
  start : Nat
  count : Nat
  prog : ScanProg
  resAddr : Nat
  resLen : Nat
  evFlag : Nat
  /-- The filter's bytes, and whether the job waits for a filter slot (R259). -/
  bloom : List Byte
  waiting : Bool
  /-- The next unit not yet issued, the units issued and not staged, and the staging area (R265). -/
  next : Nat
  busy : List Nat
  staged : List (Nat × UnitRes)
  /-- Bytes of the result buffer used, and the sums over released units (Table 8.12). -/
  used : Nat
  records : Nat
  matched : Nat
  malformed : Nat
  aggs : List AggVal
  /-- SCN_GROUP_WAIT has been raised for it (R271). -/
  waitRaised : Bool
  deriving DecidableEq, Repr

/-- A unit in an engine's queue (R251): its job and number, and its plain bytes once they have arrived. -/
structure ScanIn where
  job : Nat
  unit : Nat
  data : Option (List Byte)
  deriving DecidableEq, Repr

/-- The scan engines. -/
structure ScnState where
  jobs : Tab ScanJob
  nextJob : Nat
  /-- Units queued or reserved at each engine. -/
  queue : Tab (List ScanIn)
  /-- Execute Program commands held at a job limit, oldest first, with the descriptors built for them (R263). -/
  held : List (CmdRef × List Byte)
  /-- The low words of a submission and a cancellation, by master (R261). -/
  submitLo : Tab Nat
  cancelLo : Tab Nat
  /-- Deficits and last pod of the unit rotation (R358), and the last job served of each pod. -/
  deficit : Tab Int
  lastPod : Nat
  lastJob : Tab Nat
  deriving DecidableEq, Repr

/-! ### Askif (chapter 15) -/

/-- A configured member in this device's records (Table 15.4): 0 UNKNOWN, 1 ALIVE, 2 SUSPECT, 3 FAILED, 4 LEFT; its incarnation,
and when a frame of that incarnation last came. -/
structure AskMember where
  state : Nat
  inc : Nat
  heard : Nat
  deriving DecidableEq, Repr

/-- An entry of the suspect table (R461): incarnation, accuser bitmap, first accusation, and the neighbours whose frames changed
it since it was last forwarded, if any (R459). -/
structure AskSuspect where
  inc : Nat
  accusers : Nat
  /-- Cause of the first accusation (Table 15.2). -/
  cause : Nat
  /-- Device time of the first accusation. -/
  at_ : Nat
  /-- The neighbours whose frames changed it since it was last forwarded, if any (R459). -/
  merged : Option (List Nat)
  deriving DecidableEq, Repr

/-- What an operation that waits for a data frame's answer is. -/
inductive AskWhy where
  /-- A CHUNK_WRITE or PARITY_DELTA of an update to a stripe position. -/
  | update (u pos : Nat)
  /-- A CHUNK_READ of chunk idx for a fetch. -/
  | fetch (f idx : Nat)
  /-- An NS_DESC of a spread namespace. -/
  | desc (nsid : Nat)
  /-- An ADOPT proposal. -/
  | adopt (nsid : Nat)
  /-- A chunk sent by resynchronisation or rebuild. -/
  | mend (nsid pos stripe : Nat)
  deriving DecidableEq, Repr

/-- A data frame without its answer (R458). -/
structure AskSend where
  dst : Nat
  type : Nat
  id : Nat
  fields : List Byte
  chunk : List Byte
  tries : Nat
  /-- Device time at which it was last sent. -/
  sentAt : Nat
  /-- What waits for its answer. -/
  why : AskWhy
  deriving DecidableEq, Repr

/-- A MSG_ID acted on, and the answer given to it: type, fields and chunk (R458). -/
structure AskMsg where
  src : Nat
  id : Nat
  /-- Device time at which it was acted on. -/
  at_ : Nat
  /-- The answer given to it. -/
  answer : Option (Nat × List Byte × List Byte)
  deriving DecidableEq, Repr

/-- A frame that has not left yet: port, destination, type, whether it is background work (Table 1.7), and its bytes. -/
structure AskOut where
  port : Nat
  dst : Nat
  type : Nat
  bg : Bool
  bytes : List Byte
  deriving DecidableEq, Repr

/-- Fragments of one message received so far (R456). -/
structure AskFrag where
  src : Nat
  type : Nat
  id : Nat
  fields : List Byte
  parts : Tab (List Byte)
  last : Option Nat
  deriving DecidableEq, Repr

/-- Who wants a unit of a spread namespace: a command, or the mending of a position. -/
inductive AskOwner where
  | cmd (c : CmdRef) (laddr : Nat)
  | mend (pos : Nat)
  deriving DecidableEq, Repr

/-- A unit on its way to the home (R469): the chunk wanted (data 0 to K - 1, parity from K on), those asked for, and those that
have come with their versions. -/
structure AskFetch where
  nsid : Nat
  stripe : Nat
  want : Nat
  owner : AskOwner
  wide : Bool
  /-- The version that chunks are asked for a second time, 0 before that (R469). -/
  ver : Nat
  asked : List Nat
  /-- Chunks asked for that cannot come. -/
  bad : List Nat
  /-- Chunks that have come, with their versions. -/
  got : List (Nat × Nat × List Byte)
  deriving DecidableEq, Repr

/-- Where a chunk update came from: a frame, or this device's own update or mending. -/
inductive AskFrom where
  | frame (src id : Nat)
  | update (u pos : Nat)
  | mend (pos : Nat)
  deriving DecidableEq, Repr

/-- A chunk update at this member (R468): 0 reads the old chunk, 1 waits for admission, 2 waits for its durability rule. -/
structure AskPut where
  nsid : Nat
  stripe : Nat
  version : Nat
  absent : Nat
  delta : Bool
  data : List Byte
  old : List Byte
  step : Nat
  from_ : AskFrom
  deriving DecidableEq, Repr

/-- An update of one unit at the home (R468): the positions whose acknowledgement it waits for. -/
structure AskUpdate where
  cmd : CmdRef
  nsid : Nat
  stripe : Nat
  version : Nat
  absent : Nat
  waits : List Nat
  deriving DecidableEq, Repr

/-- Why a chunk is read from this device's own flash. -/
inductive AskLocal where
  | put (p : Nat)
  | fetch (f idx : Nat)
  | answer (src id version : Nat)
  deriving DecidableEq, Repr

/-- A spread namespace as this device keeps it (R465-R472), under the NSID of its local slot. -/
structure Spread where
  nguid : List Byte
  k : Nat
  m : Nat
  writeMin : Nat
  members : List Nat
  spares : List Nat
  coarse : Bool
  size : Nat
  homeEpoch : Nat
  /-- The member that is the home as this device knows it, and whether it has released the namespace. -/
  home : Nat
  released : Bool
  /-- Stripe versions: at the home the stripe's, at a member its own chunk's. -/
  version : Tab Nat
  chunkVer : Tab Nat
  /-- Unconfirmed updates of this member's chunk: stripe to version before, content before and ABSENT mask (R468). -/
  prev : Tab (Nat × List Byte × Nat)
  /-- At the home: absent positions, stripes written since by position, and positions to be resynchronised in full (R472). -/
  absent : List Nat
  missed : Tab (List Nat)
  whole : List Nat
  /-- Next stripe of a resynchronisation in full, by position. -/
  sync : Tab Nat
  /-- A rebuild: position, spare and next stripe. -/
  rebuild : Option (Nat × Nat × Nat)
  /-- Units that Write Uncorrectable has marked. -/
  unrec : List Nat
  deriving DecidableEq, Repr

/-- A spread namespace's creation, format or progress report that waits for acknowledgements of NS_DESC, or an adoption that
waits for votes: members still to answer, and those that accepted. -/
structure AskVote where
  nsid : Nat
  cmd : Option CmdRef
  waits : List Nat
  yes : List Nat
  deriving DecidableEq, Repr

/-- Askif. -/
structure AskState where
  members : Tab AskMember
  suspects : Tab AskSuspect
  /-- SEQ of the last frame sent, by port × 16,384 + destination (R456). -/
  seqOut : Tab Nat
  /-- Highest SEQ accepted and the window below it, by port × 16,384 + source (check 6). -/
  window : Tab (Nat × Nat)
  /-- Messages acted on, fragments gathered, and data frames without their answer (R456, R458). -/
  msgs : List AskMsg
  frags : List AskFrag
  sends : List AskSend
  /-- Numbers given to MSG_IDs and to the operations below. -/
  next : Nat
  /-- All egress but Neighbor Discovery has stopped for an ID conflict (R454). -/
  stopped : Bool
  /-- Link-layer addresses resolved, by port × 16,384 + member, and frames that wait for one. -/
  resolved : Tab (List Byte)
  waiting : List AskOut
  /-- Data frames that wait at a port for its share or its ceiling, and by port the millisecond of device time in which it last sent and the
  bytes it sent in it (R36, R443). -/
  held : List AskOut
  sent : Tab (Nat × Nat)
  /-- Spread namespaces by NSID, and the fetches, updates, chunk updates and local reads under way (R465 to R469). -/
  spreads : Tab Spread
  fetches : Tab AskFetch
  updates : Tab AskUpdate
  puts : Tab AskPut
  locals : Tab AskLocal
  /-- Updates acknowledged and not yet confirmed: namespace, stripe, version (R468). -/
  confirm : List (Nat × Nat × Nat)
  /-- Descriptions that wait for members, and adoptions that wait for votes (R465, R471). -/
  descs : List AskVote
  adopts : List AskVote
  /-- ASK_MEMBER_QUERY by writing master. -/
  query : Tab Nat
  deriving DecidableEq, Repr

/-! ### Power, loops and temperature (chapter 13) -/

/-- A control loop (R405-R409): voltages, errors and duty are Q1.15 integers. -/
structure Loop where
  x1 : Int
  x2 : Int
  y1 : Int
  y2 : Int
  e1 : Int
  e2 : Int
  u1 : Int
  u2 : Int
  duty : Int
  /-- Coefficient words in force; empty while they are those of reset. A new set is applied at the next sample. -/
  coef : List Nat
  newCoef : Bool
  /-- The pre-bias measured, and the device time at which the ramp began (R407). -/
  pre : Int
  rampAt : Nat
  /-- Consecutive samples above, below, over current and implausible (R408, R409). -/
  ovN : Nat
  uvN : Nat
  ocN : Nat
  plausN : Nat
  /-- Device time until which the plausibility check is suspended (R409). -/
  quiet : Nat
  /-- What the rail is held at in mV while that is not its target, and the trim of R427 in mV. -/
  rail : Option Nat
  trim : Nat
  deriving DecidableEq, Repr

/-- The power unit and control engine outside their registers. -/
structure PwrState where
  loops : Tab Loop
  /-- The next rise of the input through 35 V is t0 of a cold start (Table 13.1, R403). -/
  ready : Bool
  /-- The power-fail sequence: 0 none, 1 at step 4, 2 completed (Table 13.18); when it was declared, and its dirty bytes. -/
  fail : Nat
  failAt : Nat
  failDirty : Nat
  /-- A trip or a shutdown with flush: 0 none, 1 flushing, 2 D00 alone is held (R425, R426). -/
  trip : Nat
  /-- The sensor of a 125 °C trip, until the next start raises it. -/
  tripSeen : Option Nat
  /-- Every rail but L11 is off. -/
  dark : Bool
  /-- Bank: voltage in mV, C in nF and ESR in µΩ at internal resolution, C of the measurement before, and the time of the last. -/
  vBank : Nat
  cNF : Nat
  esr : Nat
  measuredAt : Option Nat
  /-- The method of the bank measurement that runs, 0 for none (R418). -/
  method : Nat
  /-- PFAIL_N and THERMTRIP_N are driven low (R500). -/
  pfailLow : Bool
  thermLow : Bool
  /-- Ceilings in mV (R422-R428): the common one, what R428 takes from the cobs' and R427 from the uncore's, and what acts. -/
  ceil : Nat
  cobDrop : Nat
  uncoreDrop : Nat
  powerActs : Bool
  tempActs : Bool
  inputActs : Bool
  forced : Bool
  /-- Last step of the temperature governor. -/
  govAt : Nat
  /-- A surge under way and when it began, whether it steps down, and the episodes that ended. -/
  surge : Option Nat
  down : Bool
  episodes : List (Nat × Nat)
  /-- Consecutive reports in which a sensor differed (R424). -/
  odd : Tab Nat
  /-- Since when the junction has stayed below T_RESTART (R426). -/
  coolSince : Option Nat
  /-- Since when input power has stayed below 95 % of its limit (R428). -/
  lowSince : Option Nat
  /-- Domains requested on and not yet up, and domains that are being isolated (R412). -/
  upping : List Nat
  isolating : List Nat
  /-- Energy in L11's on-module reserve, in array writes of the LMC at full AON load (R421). -/
  reserve : Nat
  deriving DecidableEq, Repr

/-! ### Timed waits -/

/-- What device time is kept of: the last happening of a periodic event, or the beginning of a timed wait. -/
inductive Timer where
  /-- The accounting window of instance i of shared resource n (R35). -/
  | window (n i : Nat)
  /-- MR4 reads of a rank, disturbance windows, oscillator reads and the tries of a DEGRADED channel (R380-R385). -/
  | mr4 (c rank : Nat)
  | disturb (c : Nat)
  | osc (c : Nat)
  | retry (c : Nat)
  /-- A channel's last request, and its entry to self-refresh (R388). -/
  | request (c : Nat)
  | selfRefresh (c : Nat)
  /-- The scrubber's last line of a memory (R393); the bucket leaks (R397). -/
  | scrub (m : Nat)
  | leak
  /-- Gates of the speed monitors (R60). -/
  | gate (n : Nat)
  /-- Steps of targets and ceilings (R405), samples of loop n (R406), steps of the governors of power and input and of the flash budgets (R422,
  R428), limits computed (R419) and sensors' reports (R424). -/
  | ramp
  | sample (n : Nat)
  | govern
  | input
  | budget
  | dirty
  | sensors
  /-- The hardware current limit's beginning (R404), the end of a power-fail sequence (R403), the load test of group g (R414) and the switching-on
  of domain d (R412). -/
  | limiting
  | off
  | loadTest (g : Nat)
  | powerUp (d : Nat)
  /-- HEARTBEATs sent, the merge interval of a suspect entry, a monitor's accusations of a member, and how long a position of a spread
  namespace has been absent (R459, R472). -/
  | heartbeat
  | merge (m : Nat)
  | accuse (m : Nat)
  | absent (nsid pos : Nat)
  /-- The last sample of series k (R485). -/
  | series (k : Nat)
  deriving DecidableEq, Repr

/-! ### The whole machine -/

/-- Every piece of state the spec gives the block. -/
structure State where
  /-- Which part this is (Table 0.2); it never changes. -/
  part : Part
  /-- Device time in nanoseconds (Table 0.8). -/
  time : Nat
  /-- The model's own counter of free values drawn so far (Config.freeValue). -/
  freeCtr : Nat
  /-- What the last command gave back or sent out, oldest first. -/
  out : List Out
  /-- Registers that hold something other than their reset value, by window × 1 MiB + offset. -/
  regs : Tab Word
  /-- Latched upper words of 64-bit pairs, by master × 64 MiB + key of the _HI register (R18). -/
  hiLatch : Tab Word
  /-- DRAM and shared SRAM by internal address (Table 1.2); a byte not listed reads 0. -/
  mem : Tab Byte
  /-- First DRAM address beyond the installed and mapped capacity (R22, R369). -/
  dramEnd : Nat
  /-- Background accounting by 64 × resource index + instance (R36). -/
  bg : Tab BgAcct
  /-- The units. -/
  boot : BootState
  hsf : HsfState
  hsk : HskState
  evt : EvtState
  recd : RecState
  otp : OtpState
  sgn : SgnState
  dig : DigState
  ldg : LdgState
  key : KeyState
  nv : NvState
  flash : FlashState
  tsk : TskState
  host : HostState
  pod : PodState
  dram : MemState
  ftl : FtlState
  cmp : CmpState
  scn : ScnState
  ask : AskState
  pwr : PwrState
  /-- When each periodic event last happened and each timed wait began, newest first (log entry 85). -/
  timers : List (Timer × Nat)
  /-- Commands that wait, first in, first out. -/
  pending : List Instr
  deriving DecidableEq, Repr

/-- Reasons for which a command would end the run. No command of this block does: a bus error is an acknowledge
(Out.bus), a failed command a completion, and every command answers a next state. Raised by nothing; safe. -/
inductive Fault where
  /-- Never raised. -/
  | unreachable
  deriving DecidableEq, Repr

/-- Reasons for which a command is rejected. -/
inductive Refusal where
  /-- A command whose meaning has not been written: raised by exec's arms alone, by mnemonic. Safe. -/
  | notModelled (mnemonic : String)
  deriving DecidableEq, Repr

/-! ### Reset -/

/-- A controller that holds no queues (R308, Table 10.20 defaults). -/
def Ctrl.fresh : Ctrl :=
  { cc := 0, rdy := false, cfs := false, shst := 0, aqa := 0, asq := 0, acq := 0, sqs := [], cqs := [], arb := 3,
    tempOver := [], tempUnder := [], numQ := 0, coal := 0, vecCfg := [], writeAtom := 0, asyncCfg := 0, aers := [],
    pendingEv := [], errLog := [], heldRegs := [], ninth := false, enabling := false, turns := [0, 0, 0],
    lastQ := 0, burst := 0 }

/-- Pod 0 after a device-wide reset: class 0, IOQ 256, bound to port A with NO_PASID, every other bounded field at its
envelope maximum (R351, Table 11.9). -/
def Pod.zero : Pod :=
  { state := 2, cls := 0, port := 0, bound := true, noPasid := true, pasid := 0, weight := 100, ioq := 256,
    cmds := 262144, tasks := 65536, imsBase := 0, imsCount := 0, rdKiops := 0, wrKiops := 0, rdMbs := 0, wrMbs := 0,
    wbufPm := 1000, ctx := 4096, prog := 1024, locks := 32768, ns := 0, label := 0, ranges := [],
    tokens := [0, 0, 0, 0], tokensAt := 0, newWeight := [none, none, none], graceMs := 0, quiesceAt := 0,
    graceOver := false, waiters := [], by_ := none, heldEpisode := false, pendVec := [], recMark := 0 }

/-- A series block as it opens (R486). -/
def SeriesBlock.fresh (boot at_ : Nat) : SeriesBlock :=
  { gen := 0, flags := 0, boot := boot, minBootD := 0, maxBootD := 0, openedAt := at_, count := 0, sum := 0, min := 0,
    max := 0, minAt := 0, maxAt := 0, bins := List.replicate 16 0 }

/-- The digest in OTP vendor slot k as the model names it: DESIGN CHOICE, log entry 4. -/
def vendorDigest (k : Nat) : List Byte := List.replicate 64 (BitVec.ofNat 8 (k + 1))

/-- A device as manufactured, right after a cold reset has released D00: no command has run, no image has been read.
Each register holds its reset value (State.regs lists nothing), memory lists nothing, and ledger memory and OTP hold
what R95, R114, R116, R119 and R120 say a new device holds. -/
def State.reset : State where
  part := .glt7440
  time := 0
  freeCtr := 0
  out := []
  regs := []
  hiLatch := []
  mem := []
  dramEnd := 0
  bg := []
  boot :=
    { nor := [], locked := false, testPermit := 0, permitGone := false, board := List.replicate 104 0#8, imageDigest := List.replicate 64 0#8,
      imageSigner := List.replicate 64 0#8, floorAt8 := 0, modReady := false, fwSlot := 0, fwSvn := 0,
      fwDigest := List.replicate 64 0#8, fwRunning := false, creditAt := 0, recs := [], booted := false, bootDone := false, startAt := 0, resets := [],
      interrupted := [], perst := [0, 1],
      pins := { claimEnN := true, miSel := false, miAddr1 := false, miAddr0 := false, bscanEnN := true, perstA := true,
                perstB := true },
      jtagIr := 0, i3cAddr := none }
  hsf := { stalls := [], fenced := [], late := [], lowAt := [], lfsr := [], held := [] }
  hsk := { armed := false, pairs := [], permits := [], debugLevel := 0, halted := [], cleanSince := 0 }
  evt :=
    { inbox := [], coal := [], mq := [], mqLost := false, cleQ := [], cleLost := false, miQ := [], miOn := false, miFreq := 1, miMtu := 64, hostRing := [],
      noticed := [], raiseSubj := [0, 0, 0, 0], earlyAt := none }
  recd :=
    { ring := [], nextSeq := 2 ^ 20, head := 0, live := [], openBoot := 1, openGen := 0, openAt := 0, snapAddr := 0, snapRun := none, snapBad := false,
      snapSeq := 0, snapRes := [], telGen := 0, tel := [] }
  otp :=
    { deviceId := 1, vendor := [vendorDigest 0, vendorDigest 1, vendorDigest 2, vendorDigest 3],
      owner := [none, none, none, none], revoked := 0, everOwner := false, pufRoot := 1, pufHelper := 0, certSlot := 0,
      cert := List.replicate 1280 0#8 }
  sgn :=
    { queue := [], ledgerReq := none, tokenReq := none, lastMaster := 0, latch := none, nonce := [], waivers := [],
      idKey := false, mediaRoot := false, heldQuotes := [], heldTokens := [], running := 0, curr := none, submitLo := [] }
  dig := { ctx := [], openRes := [], lastServed := 0 }
  ldg :=
    { run := none, wait := [], appendRes := [], appendLo := [], appendHi := [], activateSvn := 0, ackLo := [],
      bootedSvn := 0 }
  key := { run := [], nsRes := [], eraseAll := none, keyGen := { seed := 0, reqs := 0 }, general := { seed := 0, reqs := 0 } }
  nv :=
    { newest := 0, missed := 0, missedOvf := false, credits := 64, archA := 0, epoch := 0, base := 0, warned := none, fullEpoch := none,
      fwActive := { slot := 1, drec := 0, svn := Config.factorySvn }, fwPrev := { slot := 0, drec := 0, svn := 0 },
      fwDigest := Config.factoryDigest :: List.replicate 3 (List.replicate 64 0#8), svnFloor := 0, tokenSeq := [0, 0, 0, 0, 0, 0], seqFloor := 0,
      bootNumber := 0,
      ring := [(0, { kind := 5, flags := 0, index := 0, time := 0, boot := 0, missed := 0,
                     prevHash := List.replicate 64 0#8, body := Config.vendorRecord.take 2688, sig := Config.vendorSignature })],
      keys := [], mediaEpoch := 0, recSeqBase := 0, history := [], histDef := [], period := 1, periodAt := 0,
      sanitize := { sanact := 0, phase := 0, ause := false, failed := 0, last := 0 }, rebuildCkpt := 0, mapCkpt := 0,
      breach := false, flushRate := 0, incarnation := 0, groupKeys := [], remap := [], badTable := [], erased := [], general := [] }
  flash :=
    { luns := [], reserve := [], gateLast := [], patrol := [], advise := [], grpRes := [], submitLo := [], flushMode := false, patrolAt := 0, dayAt := 0 }
  tsk :=
    { tasks := [], gens := [], cores := [], vines := [], progs := [], readyCtr := 0, submitLo := [], submitRes := [],
      query := [], progRes := [], progAddr := 0, deficit := [], lastPod := 0, lastCore := 0, cobWait := [] }
  host :=
    { ctrls := [], out := [], locks := [], cqes := [], flushes := [], ns := [], fwStage := [], fwRanges := [],
      cfgStage := [], cfgRanges := [], nsOps := [], fwAct := none, selfTest := { run := none, log := [] }, tsOffset := 0, lastPod := 0,
      deficit := [], stopped := [], rangeSets := [], activated := [], progs := [], loads := [], absentScans := [], barTime := [] }
  pod := { pods := [(0, Pod.zero)], ims := [], cmdLo := [], cmdRes := [], waiting := [] }
  dram :=
    { mapped := [], chanCap := 0, trained := [], bad := [], valid := [], zeroed := [], watch := [], pass := [], scrubAt := [],
      raised := [], unmappable := [], ueAt := [], strikes := [], throttleLeft := [], trainTemp := [], trainAt := [], limited := [],
      base := [], reserved := [], refreshes := [] }
  ftl :=
    { map := [], dmap := [], media := [], blocks := [], sbs := [], lanes := [], wbuf := [], wnext := 1, delta := [],
      deltaAt := none, frames := [], recCount := 0, recDurable := 0, jnext := 1, horizon := 0, flushComplete := true,
      sinceCkpt := 0, ckptRun := none, ckptGen := 0, jplaces := [], rootPfa := 0, victims := [], urgent := [],
      reads := [], readNext := 1, reserved := [], cap := none, s0 := 0, archive := none, fullEpisode := false,
      spareWarned := false, readOnly := false, usedWarned := false, badWarned := false, groupAt := 0, rebuild := none,
      legacy := false, legacyKey := [], holdUpReady := false, wtPending := false, parityLost := false, flushRun := false, allow := [], heads := [], jstore := [], dir := [], unheld := [], saved := [], ckptOpen := [],
      gc := [], victim := [], folding := 0, sbCount := 0, wrLevel := 0,
      wrAt := 0, wrWaiting := false }
  cmp := { pipes := [], lastPipe := 0, ctxs := [], jobNo := 0, openRes := [], submitLo := [] }
  scn :=
    { jobs := [], nextJob := 1, queue := [], held := [], submitLo := [], cancelLo := [], deficit := [], lastPod := 0,
      lastJob := [] }
  ask :=
    { members := [], suspects := [], seqOut := [], window := [], msgs := [], frags := [], sends := [], next := 1,
      stopped := false, resolved := [], waiting := [], held := [], sent := [], spreads := [], fetches := [], updates := [], puts := [], locals := [],
      confirm := [], descs := [], adopts := [], query := [] }
  pwr :=
    { loops := [], ready := true, fail := 0, failAt := 0, failDirty := 0, trip := 0, tripSeen := none, dark := false, vBank := 0,
      cNF := 0, esr := 0, measuredAt := none, method := 0, pfailLow := true, thermLow := true, ceil := 800, cobDrop := 0, uncoreDrop := 0, powerActs := false, tempActs := false,
      inputActs := false, forced := false, govAt := 0, surge := none, down := false, episodes := [], odd := [],
      coolSince := none, lowSince := none, upping := [], isolating := [], reserve := 16 }
  timers := []
  pending := []

end Sys2Proof.Machine
end

