-- ==== Sys2Proof/Machine/Ops.lean ====
section
/-!
DEFINITION. The named operations over registers, memory, outputs, events and completions that every command is
written with, and the access check of the husk (R432-R435).
-/
namespace Sys2Proof.Machine

/-! ### Reset values of the register map -/

/-- Default routes of the events of every chapter's event table (R480): number and route bits of Table 16.5. -/
def routeTable : List (Nat × Nat) := [
  (1, 3), (2, 3), (3, 3), (4, 7), (5, 22), (6, 2), (7, 3), (8, 7), (9, 3), (40, 3), (41, 3), (42, 34), (43, 3),
  (44, 3), (48, 66), (49, 67), (50, 3), (51, 22), (52, 18), (96, 19), (97, 19), (98, 2), (99, 83), (100, 2), (101,
  2), (102, 3), (103, 2), (104, 67), (105, 22), (106, 3), (107, 6), (160, 67), (161, 83), (162, 3), (163, 19),
  (164, 67), (165, 3), (166, 23), (167, 3), (168, 3), (169, 34), (352, 3), (353, 7), (354, 3), (355, 3), (356, 3),
  (357, 22), (358, 6), (359, 3), (360, 18), (416, 3), (417, 19), (418, 3), (419, 2), (464, 2), (465, 2), (466,
  66), (467, 3), (496, 3), (497, 66), (498, 66), (499, 3), (500, 3), (560, 19), (561, 74), (562, 66), (563, 7),
  (564, 6), (565, 2), (566, 3), (584, 6), (585, 2), (586, 6), (587, 6), (588, 66), (656, 3), (657, 66), (658, 67),
  (659, 19), (660, 3), (661, 7), (704, 22), (705, 3), (706, 3), (707, 6), (708, 2), (709, 2), (710, 3), (711, 3),
  (712, 22), (713, 22), (714, 6), (715, 19), (716, 2), (717, 7), (720, 2), (721, 23), (722, 2), (723, 66)]

/-- The reset value of EVT_ROUTE_n (R474, R480). -/
def defaultRoute (p : Part) (n : Nat) : Nat :=
  if 224 ≤ n ∧ n < 224 + 4 * Config.fchCount p then 0x3
  else if 736 ≤ n ∧ n < 768 then 0x2
  else if 656 ≤ n ∧ n ≤ 661 ∧ Config.askPorts p = 0 then 0
  else if 464 ≤ n ∧ n ≤ 467 ∧ Config.scnEngines p = 0 then 0
  else ((routeTable.find? (fun e => e.1 = n)).map (fun e => e.2)).getD 0

/-- Word w of the ROM's access table entry e of target t (R436). -/
def romEntry (t e w : Nat) : Nat :=
  let row (first last : Nat) (wr : Bool) : Nat :=
    if w = 0 then 0x90000000 + (if wr then 0x08000000 else 0) + last * 0x10000 + first * 0x100
    else if w = 3 then 0xFFFFFFFF else 0
  if e = 0 then row 0x00 0x03 true
  else if e = 1 then (if 0x40 ≤ t ∧ t ≤ 0x42 then row 0x50 0x53 true else if t = 0x43 then row 0x50 0x53 false else 0)
  else if e = 2 then (if t = 0x41 then row 0x60 0x6F true else if t = 0x42 then row 0x60 0x6F false else 0)
  else if e = 3 then (if 0x40 ≤ t ∧ t ≤ 0x42 then row 0xE8 0xE9 true else 0)
  else 0

/-- The start setting of loop n in mV (Table 13.5); L17 follows VCC_SEL and L20 V_HOLD at their reset values. -/
def loopStart (n : Nat) : Nat :=
  [12000, 800, 800, 800, 800, 800, 800, 800, 800, 800, 800, 750, 900, 1200, 1100, 1100, 1800, 3300, 1200, 1800, 56000,
   11600, 0, 0].getD n 0

/-- The current limit of loop n in units of 10 mA (Table 13.4). -/
def loopLimit (n : Nat) : Nat :=
  [2500, 2000, 2000, 2000, 2000, 2000, 2000, 2000, 2000, 6000, 2000, 200, 2000, 1000, 2400, 1600, 400, 2500, 1400, 400,
   200, 1400, 0, 0].getD n 0

/-- Envelope class 0 as it resets (Table 11.1). -/
def envReset (k w : Nat) : Nat :=
  if k = 0 then
    [0x03E8000F, 0x01002000, 262144, 65536, 0x08001000, 0x04008000, 0, 0, 0, 0, 1000, 0xFFFFFFFF, 0, 0, 0, 0].getD w 0
  else 0

/-- Reset values that differ from element to element or from part to part. -/
def specialReset (p : Part) (win off : Nat) : Option Nat :=
  if win = 0x00 ∧ off = 0x010 then some (Config.capUnits p)
  else if win = 0x01 ∧ 0x200 ≤ off ∧ off < 0x210 then
    some ([0x01900032, 0x00FA0014, 0x01F4001E, 0x02580032].getD ((off - 0x200) / 4) 0)
  else if win = 0x0B ∧ 0x100 ≤ off ∧ off < 0x140 then
    let n := (off - 0x100) / 4
    some ((if n < 8 then n + 1 else if n < 14 then 9 else 10) * 2 ^ 27)
  else if win = 0x03 ∧ 0x1000 ≤ off ∧ off < 0x1C00 then some (defaultRoute p ((off - 0x1000) / 4))
  else if win = 0x02 ∧ 0x10000 ≤ off ∧ off < 0x18800 then
    some (romEntry ((off - 0x10000) / 0x200) ((off - 0x10000) % 0x200 / 0x10) (off % 0x10 / 4))
  else if win = 0x0A ∧ 0x1000 ≤ off ∧ off < 0x2800 then
    let n := (off - 0x1000) / 0x100
    let o := off % 0x100
    if o = 0x04 then some (if n = 0 ∨ n = 9 ∨ n = 10 ∨ n = 11 then 0x80406410 else 0x40406410)
    else if o = 0x08 then some (loopStart n)
    else if o = 0x0C then some (0x0A0A0000 + loopLimit n)
    else none
  else if win = 0x0F ∧ 0x100 ≤ off ∧ off < 0x500 then some (envReset ((off - 0x100) / 0x40) (off % 0x40 / 4))
  else none

/-- The reset value of the register with a key (window × 1 MiB + offset). -/
def resetOf (p : Part) (key : Nat) : Nat :=
  match specialReset p (key / 0x100000) (key % 0x100000) with
  | some v => v
  | none => ((findRow (key / 0x100000) (key % 0x100000)).map (fun r => r.rst)).getD 0

/-! ### Registers -/

/-- What a register holds. -/
def State.getReg (s : State) (key : Nat) : Nat :=
  match Tab.look s.regs key with
  | some w => w.toNat
  | none => resetOf s.part key

/-- Set what a register holds. -/
def State.setReg (s : State) (key v : Nat) : State :=
  { s with regs := Tab.put s.regs key (BitVec.ofNat 32 v) }

/-- Element i, j of a register. -/
def State.reg (s : State) (r : RegId) (i j : Nat := 0) : Nat := s.getReg (r.key i j)

/-- Set element i, j of a register. -/
def State.putReg (s : State) (r : RegId) (v : Nat) (i j : Nat := 0) : State := s.setReg (r.key i j) v

/-- A field of element i, j of a register. -/
def State.fld (s : State) (f : Field) (i j : Nat := 0) : Nat := bits (s.reg f.reg i j) f.hi f.lo

/-- Set a field of element i, j of a register, leaving its other bits. -/
def State.setFld (s : State) (f : Field) (v : Nat) (i j : Nat := 0) : State :=
  s.putReg f.reg (setBits (s.reg f.reg i j) f.hi f.lo v) i j

/-- Whether a one-bit field reads 1. -/
def State.flag (s : State) (f : Field) (i j : Nat := 0) : Bool := s.fld f i j = 1

/-- Add to a class S counter, setting its sticky overflow bit when it saturates (R20). -/
def State.countS (s : State) (cnt ovf : Field) (n : Nat) (i j : Nat := 0) : State :=
  let max := 2 ^ (cnt.hi + 1 - cnt.lo) - 1
  let v := s.fld cnt i j
  let s' := s.setFld cnt (satAdd max v n) i j
  if v + n > max then s'.setFld ovf 1 i j else s'

/-- A 64-bit pair. -/
def State.pair (s : State) (lo hi : RegId) (i j : Nat := 0) : Nat := s.reg lo i j + s.reg hi i j * 2 ^ 32

/-- Set a 64-bit pair. -/
def State.putPair (s : State) (lo hi : RegId) (v : Nat) (i j : Nat := 0) : State :=
  (s.putReg lo (v % 2 ^ 32) i j).putReg hi (v / 2 ^ 32 % 2 ^ 32) i j

/-- Add to a class W counter (R20: 64 bits wide, wraps). -/
def State.countW (s : State) (lo hi : RegId) (n : Nat) (i j : Nat := 0) : State :=
  s.putPair lo hi ((s.pair lo hi i j + n) % 2 ^ 64) i j

/-! ### Free values, outputs -/

/-- Draw a value the spec leaves open: it and the state with the counter advanced. -/
def State.draw (s : State) (bound : Nat) : Nat × State :=
  (Config.freeValue s.freeCtr % bound, { s with freeCtr := s.freeCtr + 1 })

/-- The LMC's write permit: L11's reserve holds the energy of 16 array writes (R421). -/
def State.lmcPermit (s : State) : Bool := decide (16 ≤ s.pwr.reserve)

/-- A generate request of n bytes, at most 65,536, to the key engine's DRBG or to the general one (R132): reseeded first after 2^20 requests.
Nothing in the spec asks for prediction resistance. -/
def State.generate (s : State) (forKey : Bool) (n : Nat) : List Byte × State :=
  let n := min n 65536
  let d := if forKey then s.key.keyGen else s.key.general
  let (d, s) := if 2 ^ 20 ≤ d.reqs then ((⟨s.freeCtr, 0⟩ : Drbg), { s with freeCtr := s.freeCtr + 1 }) else (d, s)
  let e : Drbg := { d with reqs := d.reqs + 1 }
  (slice (Config.drbg d.seed d.reqs n) 0 n,
   { s with key := if forKey then { s.key with keyGen := e } else { s.key with general := e } })

/-- The state a command starts from: what the last command gave back is gone. -/
def State.fresh (s : State) : State := { s with out := [] }

/-- Device time has reached t: what a command that ends a stated interval starts from (log entry 85). -/
def State.notBefore (s : State) (t : Nat) : State := { s with time := max s.time t }

/-- When a periodic event last happened or a wait began; the start of device time when never. -/
def State.since (s : State) (k : Timer) : Nat := ((s.timers.find? (fun x => x.1 = k)).map Prod.snd).getD 0

/-- Note that an event happens, or a wait begins, now. -/
def State.stamp (s : State) (k : Timer) : State := { s with timers := (k, s.time) :: s.timers.filter (fun x => x.1 ≠ k) }

/-- A periodic event happens: its period has passed since the last. -/
def State.every (s : State) (k : Timer) (ns : Nat) : State := (s.notBefore (s.since k + ns)).stamp k

/-- What the debug port halted runs on; a pair's deadline starts anew (log entry 86). -/
def State.debugResume (s : State) (p : Nat → Bool) : State :=
  { s with hsk := { s.hsk with
      halted := s.hsk.halted.filter (fun k => !p k)
      pairs := Tab.mapVals (fun k x => if p (64 + k) ∧ s.hsk.halted.contains (64 + k) then { x with beatAt := s.time, halfSeen := false } else x)
        s.hsk.pairs } }

/-- The debug port closes (R444). -/
def State.debugClose (s : State) : State :=
  let s := s.debugResume (fun _ => true)
  { s with hsk := { s.hsk with debugLevel := 0 } }

/-- Give back or send something. -/
def State.emit (s : State) (o : Out) : State := { s with out := s.out ++ [o] }

/-- Acknowledge a transaction with a status. -/
def State.ack (s : State) (st : BusStatus) : State := s.emit (.bus st [])

/-! ### Events -/

/-- A 64-bit subject item: two words, low first (R475). -/
def w64 (v : Nat) : List Nat := [v % 2 ^ 32, v / 2 ^ 32 % 2 ^ 32]

/-- Raise an event (R477): it enters the fabric and is delivered before the command's end (EVENT_DELIVER). -/
def State.raiseWith (s : State) (number cause : Nat) (subj : List Nat) (pod : Option Nat) (flags : Nat) : State :=
  { s with evt := { s.evt with inbox := s.evt.inbox ++ [⟨number, cause, subj, pod, flags, s.time⟩] } }

/-- Raise an event whose subject names no pod. -/
def State.raise (s : State) (number cause : Nat) (subj : List Nat) : State := s.raiseWith number cause subj none 0

/-- Raise an event whose subject names a pod. -/
def State.raisePod (s : State) (number cause : Nat) (subj : List Nat) (pod : Nat) : State :=
  s.raiseWith number cause subj (some pod) 0

/-! ### Memory -/

/-- n bytes of DRAM or shared SRAM at an internal address. -/
def State.rd (s : State) (addr : Nat) : Nat → List Byte
  | 0 => []
  | n + 1 => Tab.lookD s.mem addr 0#8 :: s.rd (addr + 1) n

/-- The memory with one byte written: canonical, since a byte of 0 is not listed. -/
def memPut (m : Tab Byte) (addr : Nat) (b : Byte) : Tab Byte :=
  if b = 0#8 then Tab.del m addr else Tab.put m addr b

/-- The memory with bytes written from addr upward. -/
def memWrite (m : Tab Byte) (addr : Nat) : List Byte → Tab Byte
  | [] => m
  | b :: bs => memWrite (memPut m addr b) (addr + 1) bs

/-- Write bytes of DRAM or shared SRAM. -/
def State.wr (s : State) (addr : Nat) (bs : List Byte) : State := { s with mem := memWrite s.mem addr bs }

/-- A little-endian number of n bytes in memory. -/
def State.rdN (s : State) (addr n : Nat) : Nat := leNat (s.rd addr n)

/-- The canonical form of memory: keys rising, no byte that an unlisted address reads as. -/
def Memory.wf (m : Tab Byte) : Bool := Tab.sorted m && m.all (fun kv => kv.2 ≠ 0#8)

/-- Whether a place of the NOR lies in firmware slot 1, which holds the factory firmware from manufacture on (R114). -/
def inFactory (k : Nat) : Bool := 0x1000000 ≤ k && k < 0x1C00000

/-- Byte k of the configuration NOR; one never written reads as at manufacture: the factory firmware's, or erased (R73, R114). -/
def State.norByte (s : State) (k : Nat) : Byte :=
  Tab.lookD s.boot.nor k (if inFactory k then BitVec.ofNat 8 (Config.factoryByte (k - 0x1000000)) else 0xFF#8)

/-- n bytes of the configuration NOR. -/
def State.norRd (s : State) (off : Nat) : Nat → List Byte
  | 0 => []
  | n + 1 => s.norByte off :: s.norRd (off + 1) n

/-- NOR contents with bytes written. -/
def norWrite (m : Tab Byte) (addr : Nat) : List Byte → Tab Byte
  | [] => m
  | b :: bs => norWrite (if !inFactory addr ∧ b = 0xFF#8 then Tab.del m addr else Tab.put m addr b) (addr + 1) bs

/-! ### Presence of units (R4-R8) -/

/-- Whether the unit of a window is present in a part (Table 0.2). -/
def unitPresent (p : Part) (win : Nat) : Bool :=
  if win = 0x14 then Config.scnEngines p ≠ 0
  else if win = 0x16 then Config.askPorts p ≠ 0
  else if 0x20 ≤ win ∧ win < 0x40 then win - 0x20 < Config.fchCount p
  else win < 0x18

/-- Whether a window is defined (R9: windows 0x18-0x1F and above 0x3F are not). -/
def winDefined (win : Nat) : Bool := win < 0x18 || (0x20 ≤ win && win < 0x40)

/-- The instance block that holds an offset: window class, first offset, stride, and blocks the register map has. -/
def blockOf (win off : Nat) : Option Nat :=
  if win = 0x13 ∧ 0x1000 ≤ off ∧ off < 0x2000 then some ((off - 0x1000) / 0x100)
  else if win = 0x14 ∧ 0x1000 ≤ off ∧ off < 0x3000 then some ((off - 0x1000) / 0x100)
  else if win = 0x0E ∧ 0x1000 ≤ off ∧ off < 0x9000 then some ((off - 0x1000) / 0x1000)
  else if win = 0x0D ∧ 0x1000 ≤ off ∧ off < 0x7000 then some ((off - 0x1000) / 0x1000)
  else if win = 0x0A ∧ 0x1000 ≤ off ∧ off < 0x2800 then some ((off - 0x1000) / 0x100)
  else none

/-- Whether instance block n of a window is present (Table 0.2). -/
def blockPresent (p : Part) (win n : Nat) : Bool :=
  if win = 0x13 then n < Config.cmpPipes p
  else if win = 0x14 then n < Config.scnEngines p
  else if win = 0x0E then n < Config.cobCount p
  else if win = 0x0D then n < Config.drcCount p
  else if win = 0x0A then n < 24
  else false

/-- The window of the map a window belongs to: all FCH windows share one. -/
def winBase (win : Nat) : Nat := if 0x20 ≤ win ∧ win < 0x40 then 0x20 else win

/-- Whether an offset of a window lies in a present unit and block (R76). -/
def placePresent (p : Part) (win off : Nat) : Bool :=
  unitPresent p win && (match blockOf win off with | some n => blockPresent p win n | none => true)

/-- The identity word (Table 0.6) of a class and instance. -/
def idWord (cls inst : Nat) : Nat := 0x80000100 + cls * 0x1000000 + inst * 0x10000

/-! ### Data ports of engines (R10, R59) -/

/-- The window and instance whose data port an address names. A data port has no place in Table 1.2: the model spells port i of window w as
2^48 + w * 2^40 + i * 2^32, beyond the 48-bit map (log entry 164). -/
def dataPort (addr : Nat) : Option (Nat × Nat) :=
  if 2 ^ 48 ≤ addr ∧ addr < 2 ^ 48 + 0x40 * 2 ^ 40 then some ((addr - 2 ^ 48) / 2 ^ 40, addr / 2 ^ 32 % 256) else none

/-- Whether an instance of a window's unit is present in a part (Table 0.2). -/
def portPresent (p : Part) (win i : Nat) : Bool :=
  unitPresent p win
    && (if win = 0x13 then i < Config.cmpPipes p else if win = 0x14 then i < Config.scnEngines p else if win = 0x0E then i < Config.cobCount p
        else if win = 0x0D then i < Config.drcCount p else if win = 0x11 then i < 2 else if win = 0x16 then i < Config.askPorts p else i = 0)

/-! ### The internal address map and the access tables -/

/-- The target code, first address and size of the region that holds an address (Table 1.2, Table 2.5). -/
def regionOf (addr : Nat) : Option (Nat × Nat × Nat) :=
  if addr < 0x6000000000 then some (0x40, 0, 0x6000000000)
  else if 0xE000000000 ≤ addr ∧ addr < 0xE008000000 then some (0x41, 0xE000000000, 0x8000000)
  else if 0xE800000000 ≤ addr ∧ addr < 0xE804000000 then some (0x42, 0xE800000000, 0x4000000)
  else if 0xEC00000000 ≤ addr ∧ addr < 0xEC00100000 then some (0x43, 0xEC00000000, 0x100000)
  else if 0xF000000000 ≤ addr ∧ addr < 0xF004000000 then
    let w := (addr - 0xF000000000) / 0x100000
    some (w, 0xF000000000 + w * 0x100000, 0x100000)
  else none

/-- Word w of access table entry e of target t (R432). -/
def State.accWord (s : State) (t e w : Nat) : Nat := s.getReg (HSK_ACC_W0.key t e + 4 * w)

/-- Whether a byte range of DRAM lies in one memory range of a pod (R435). -/
def State.inPodRange (s : State) (pod off size : Nat) : Bool :=
  match Tab.look s.pod.pods pod with
  | none => false
  | some p => p.ranges.any (fun kv => kv.2.2 ≠ 0 && kv.2.1 * 0x200000 ≤ off && off + size ≤ (kv.2.1 + kv.2.2) * 0x200000)

/-- Whether access table entry e of target t admits an access (R433). -/
def State.entryMatches (s : State) (r : Req) (t e off size : Nat) (rd wr : Bool) : Bool :=
  let w0 := s.accWord t e 0
  let core := 0x10 ≤ r.master && r.master ≤ 0x4F
  let mode := bits w0 30 29
  bit w0 31 && bits w0 15 8 ≤ r.master && r.master ≤ bits w0 23 16
    && (mode = 0 || (mode = 1 && core && r.pod = bits (s.accWord t e 1) 11 0)
        || (mode = 2 && core && t = 0x40 && s.inPodRange r.pod off size))
    && s.accWord t e 2 ≤ off / 4096 && (off + size - 1) / 4096 ≤ s.accWord t e 3
    && (!rd || bit w0 28) && (!wr || bit w0 27)

/-- Whether some entry of the target's table admits an access (R433). -/
def State.admitted (s : State) (r : Req) (t off size : Nat) (rd wr : Bool) : Bool :=
  (List.range 32).any (fun e => s.entryMatches r t e off size rd wr)

/-- A denied transaction is counted, recorded and reported (R438); cause 1 no entry, 2 a fixed rule. -/
def State.denied (s : State) (r : Req) (t addr cause : Nat) : State :=
  let s := s.countS HSK_DENY_STAT_DENIED HSK_DENY_STAT_OVF 1
  let s := (s.setFld HSK_DENY_STAT_LAST_MASTER r.master).setFld HSK_DENY_STAT_LAST_TARGET t
  let s := s.putPair HSK_DENY_ADDR_LO HSK_DENY_ADDR_HI addr
  let core := 0x10 ≤ r.master && r.master ≤ 0x4F
  s.raiseWith 48 cause [r.master, t, r.pod] (if core then some r.pod else none) 0

/-- Ledger memory areas and who may write them (R117, R135, R399, R489; Table 12.29): the ring and the ledger records the
ledger engine, the key region the key engine (which alone reads it too), the histories the recorder. -/
def ledgerAreaOk (master off : Nat) (wr : Bool) : Bool :=
  let in_ (a b : Nat) : Bool := a ≤ off && off ≤ b
  if in_ 0x1001000 0x100FFFF then false
  else if in_ 0x1020000 0x121FFFF then false
  else if !wr then true
  else if in_ 0 0xFFFFFF || in_ 0x1000000 0x1000017 || in_ 0x1000040 0x100008F || in_ 0x1000100 0x10001FF
      || in_ 0x1000210 0x1000217 then master = 0x50
  else if in_ 0x1000200 0x100020F || in_ 0x1000228 0x1000237 || in_ 0x1400000 0x1BFFFFF then master = 0x54
  else if in_ 0x1000218 0x100021F || in_ 0x3000000 0x33FFFFF then master = 0xE8
  else if in_ 0x1000220 0x1000227 then master = 0xE0 || master = 0xE1
  else if in_ 0x1000000 0x13FFFFF then false
  else true

/-! ### The gate in front of every access -/

/-- What the checks in front of a target decide. -/
inductive Gate where
  /-- The access is performed. -/
  | go
  /-- Read as zero, write discarded, no bus error (R8, R23, R413). -/
  | quiet
  /-- The target is fenced (R59). -/
  | stall
  /-- Denied, with the cause of HSK_DENIED (R438). -/
  | deny (cause : Nat)
  /-- Ended with a bus error. -/
  | err (st : BusStatus)
  deriving DecidableEq, Repr

/-- Whether an ID is one of Table 1.3 that a part issues. -/
def masterExists (p : Part) (m : Nat) : Bool :=
  m < 0x04 || (0x10 ≤ m && m < 0x10 + 8 * Config.cobCount p) || (0x50 ≤ m && m ≤ 0x54) || m = 0x58
    || (0x60 ≤ m && m < 0x70) || (0x70 ≤ m && m < 0x70 + Config.fchCount p)
    || (0x90 ≤ m && m < 0x90 + Config.cmpPipes p) || (0xA0 ≤ m && m < 0xA0 + Config.fchCount p)
    || (0xC0 ≤ m && m < 0xC0 + Config.scnEngines p) || (0xE0 ≤ m && m < 0xE0 + Config.askPorts p)
    || (m = 0xE2 && Config.askPorts p ≠ 0) || m = 0xE8 || m = 0xE9 || m = 0xF0 || m = 0xFE

/-- Whether a requester can issue a transaction (R26): its ID is one of the part, and an application core carries the tag of its last launch. -/
def State.issues (s : State) (r : Req) : Bool :=
  masterExists s.part r.master
    && (!(0x10 ≤ r.master && r.master ≤ 0x4F) || decide (((Tab.look s.tsk.cores (r.master - 0x10)).map Core.tag).getD 0 = r.pod))

/-- Whether a transaction granted now sees a power domain on: PWR_DOM_STAT reads 1 and no switch-off came before it (R410, R412). -/
def State.domOn (s : State) (d : Nat) : Bool :=
  (if d < 32 then bit (s.reg PWR_DOM_STAT_0) d else bit (s.reg PWR_DOM_STAT_1) (d - 32)) && !s.pwr.isolating.contains d

/-- The power domains of the registers of a window and offset (Table 1.1); none for D00, the uncore and what lies in them.
A register shared by the blocks of several domains is there while any of them is on (log entry 21). -/
def regDomains (win off : Nat) : List Nat :=
  if win = 0x05 ∨ win = 0x06 ∨ win = 0x07 then [1]
  else if win = 0x08 then [38]
  else if win = 0x0D then (match blockOf win off with | some n => [10 + n] | none => [10, 11, 12, 13, 14, 15])
  else if win = 0x0E then (match blockOf win off with | some n => [2 + n] | none => [])
  else if win = 0x0F ∨ win = 0x10 then [32]
  else if win = 0x11 then [30]
  else if win = 0x12 then [35]
  else if win = 0x13 then (match blockOf win off with | some n => [28 + n / 8] | none => [])
  else if win = 0x14 then (match blockOf win off with | some n => [24 + n / 8] | none => [24, 25, 26, 27])
  else if win = 0x15 then [16, 17, 18, 19, 20, 21, 22, 23]
  else if win = 0x16 then [33, 34]
  else if 0x20 ≤ win then [16 + (win - 0x20) / 4]
  else []

/-- The power domains of a data port (Table 1.1). -/
def portDomains (win i : Nat) : List Nat :=
  if win = 0x0E then [2 + i] else if win = 0x0D then [10 + i] else if win = 0x13 then [28 + i / 8] else if win = 0x14 then [24 + i / 8]
  else if win = 0x11 then [30 + i] else if win = 0x16 then [33 + i] else regDomains win 0

/-- Whether the registers of a place are powered. -/
def State.powered (s : State) (win off : Nat) : Bool :=
  let ds := regDomains win off
  ds.isEmpty || ds.any (fun d => s.domOn d)

/-- A management core (Table 1.3). -/
def isMgmt (m : Nat) : Bool := m < 4

/-- An application core (Table 1.3). -/
def isCore (m : Nat) : Bool := 0x10 ≤ m && m ≤ 0x4F

/-- Registers that answer only their own core (Table 9.20): the master that may reach them. -/
def ownCore (win off : Nat) : Option Nat :=
  if win = 0x0E ∧ 0x1000 ≤ off ∧ off < 0x9000 then
    let o := off % 0x1000
    if 0x100 ≤ o ∧ o < 0x200 ∧ o % 0x20 < 0xC then some (0x10 + 8 * ((off - 0x1000) / 0x1000) + (o - 0x100) / 0x20) else none
  else none

/-- Whether the debug port may make an access at its level (Table 14.3). -/
def State.debugReach (s : State) (t : Nat) (wr : Bool) : Bool :=
  let lv := s.hsk.debugLevel
  if t < 0x40 then lv ≠ 0 && !wr && t ≠ 0x08 && t ≠ 0x06 && t ≠ 0x05
  else lv = 2 && (t = 0x40 || t = 0x41)

/-- The perturbation registers, which the debug port may write at either level (R63). -/
def perturbPlace (win off : Nat) : Bool := win = 0x0B && 0x200 ≤ off && off < 0x230

/-- Whether a place is open to a requester as far as digest contexts go: a context's page answers only its owner (R104). -/
def State.ctxOpenTo (s : State) (r : Req) (win off : Nat) : Bool :=
  if win = 0x05 ∧ 0x1000 ≤ off ∧ off < 0x2000 then
    match Tab.look s.dig.ctx ((off - 0x1000) / 0x100) with
    | some x => x.owner = r.master && (!isCore r.master || x.pod = r.pod)
    | none => true
  else true

/-- The fixed rules of R437 for a register access. -/
def State.regFixed (s : State) (r : Req) (win off : Nat) (wr : Bool) : Bool :=
  (win ≠ 0x02 || (isMgmt r.master && (!wr || off < 0x40000 || 0x80000 ≤ off) && (!wr || off / 4 * 4 ≠ 0x24 || r.master < 2) && (!wr || off / 4 * 4 ≠ 0x28 || 2 ≤ r.master)))
    && (match ownCore win off with | some m => r.master = m | none => true)
    && (!(win = 0x0E && 0x50 ≤ off && off < 0x60) || isMgmt r.master)
    && (!(win = 0x0E && wr && 0x1000 ≤ off && 0x100 ≤ off % 0x1000 && off % 0x1000 < 0x200 && off % 0x20 = 0x0C) || isMgmt r.master)
    && s.ctxOpenTo r win off
    && (win ≠ 0x0F || off < 0x20 || 0x28 ≤ off || isMgmt r.master)
    && (r.master ≠ 0xFE || s.debugReach win wr || (s.hsk.debugLevel ≠ 0 && perturbPlace win off))
    && (!(wr && perturbPlace win off) || isMgmt r.master || r.master = 0xFE)

/-- Places that read in every power state: identity words (R6), and SCN_ENG_e_STAT, whose OFF says that the domain is off. -/
def heldInD00 (win off : Nat) : Bool :=
  off = 0 || ((win = 0x0D || win = 0x0E) && 0x1000 ≤ off && off % 0x1000 = 0)
    || ((win = 0x13 || win = 0x14 || win = 0x0A) && 0x1000 ≤ off && off % 0x100 = 0)
    || (win = 0x14 && 0x1000 ≤ off && off % 0x100 = 4)

/-- The checks of a register access, in the order in which they are made (R9, R22, R23, R59, R413, R433, R437). -/
def State.gateReg (s : State) (r : Req) (key : Nat) (wr : Bool) : Gate :=
  let win := key / 0x100000
  let off := key % 0x100000
  if win ≥ 0x40 then .err .decerr
  else if s.hsf.fenced.contains win then .stall
  else if !s.admitted r win off 4 (!wr) wr then .deny 1
  else if !s.regFixed r win off wr then .deny 2
  else if !winDefined win then .err .decerr
  else if key % 4 ≠ 0 then .err .decerr
  else if !placePresent s.part win off then .quiet
  else if !s.powered win off ∧ !heldInD00 win off then .quiet
  else .go

/-- One advance of a slot's LFSR (R64). -/
def lfsrStep (x : Nat) : Nat := if x % 2 = 1 then (x / 2) ^^^ 0xB400 else x / 2

/-- The hold, in nanoseconds, that slot n puts on an acknowledge of a master and target, with the state after it (R64). -/
def State.slotHold (s : State) (n m t : Nat) : Nat × State :=
  if !s.flag HSF_PERT_SLOT_EN n ∨ (if s.flag HSF_PERT_SLOT_SIDE n then t else m) ≠ s.fld HSF_PERT_SLOT_PORT n then (0, s)
  else
    let d := s.fld HSF_PERT_PARAM_DELAY n
    let x := lfsrStep (Tab.lookD s.hsf.lfsr n 1)
    let s' := { s with hsf := { s.hsf with lfsr := Tab.put s.hsf.lfsr n x } }
    match s.fld HSF_PERT_SLOT_MODE n with
    | 0 => (d * 10, s)
    | 1 => (if x % 256 < s.fld HSF_PERT_PARAM_DUTY n then d * 10 else 0, s')
    | 2 => (x * (d + 1) / 65536 * 10, s')
    | _ => (0, s)

/-- A transaction of a master has been performed at a target: a write forwarded there before it and still without its acknowledge was
performed earlier or never will be (R42, R58). -/
def State.overtake (s : State) (m t : Nat) : State :=
  { s with hsf := { s.hsf with late := s.hsf.late.map (fun w => if w.req.master = m ∧ w.target = t then { w with lost := true } else w) } }

/-- The acknowledge of a transaction that is held for some nanoseconds; none passes an earlier one of the same master and target that is still
held (R62). -/
def State.ackAfter (s : State) (ns m t : Nat) (st : BusStatus) (data : List Byte) : State :=
  if ns = 0 ∧ !s.hsf.held.any (fun x => x.master = m && x.target = t) then s.emit (.bus st data)
  else
    let x : HeldAck := { at_ := s.time, until_ := s.time + ns, master := m, target := t, ctx := none, ack := .bus st data }
    State.emit { s with hsf := { s.hsf with held := s.hsf.held ++ [x] } } (.held ns)

/-- Acknowledge a transaction of a master at a target; the holds of the perturbation slots add (R64). -/
def State.answer (s : State) (m t : Nat) (st : BusStatus) (data : List Byte) : State :=
  let s := if st = .hstall then s else s.overtake m t
  let (a, s) := s.slotHold 0 m t
  let (b, s) := s.slotHold 1 m t
  let (c, s) := s.slotHold 2 m t
  let (d, s) := s.slotHold 3 m t
  s.ackAfter (a + b + c + d) m t st data

/-- Whether a target can be fenced: the register windows and the data ports of engines (R59). -/
def fenceable (t : Nat) : Bool := t < 0x40 || 0x80 ≤ t

/-- An HSTALL against a target is recorded (R55), and fences a fenceable target at the FENCE_COUNT-th within 1 s (R59). -/
def State.stalled (s : State) (m t cause : Nat) : State :=
  let s := s.countS HSF_WDOG_STAT_STALLS HSF_WDOG_STAT_OVF 1
  let s := (s.setFld HSF_WDOG_STAT_LAST_MASTER m).setFld HSF_WDOG_STAT_LAST_TARGET t
  let s := s.raise 40 cause [m, t]
  if fenceable t ∧ cause = 1 then
    let l := (s.hsf.stalls ++ [(t, s.time)]).filter (fun x => s.time < x.2 + 1000000000)
    let s := { s with hsf := { s.hsf with stalls := l } }
    let n := s.fld HSF_WDOG_CTRL_FENCE_COUNT
    if n ≠ 0 ∧ n ≤ (l.filter (fun x => x.1 = t)).length ∧ !s.hsf.fenced.contains t then
      { s with hsf := { s.hsf with fenced := s.hsf.fenced ++ [t] } }.raise 41 1 [t]
    else s
  else s

/-- The watchdog limit in nanoseconds (Table 2.4). -/
def State.wdogNs (s : State) : Nat := s.fld HSF_WDOG_CTRL_LIMIT * 1000

/-- The acknowledges of n transactions that a unit makes for its own work pass the slots (R64): their holds only take time, but one of LIMIT or
longer ends its transaction with HSTALL (R57). A slot that was never enabled has no LFSR. -/
def State.slotPass (s : State) (m t : Nat) : Nat → BusStatus × State
  | 0 => (.ok, s)
  | n + 1 =>
    if s.hsf.lfsr.isEmpty then (.ok, s)
    else
      let (a, s) := s.slotHold 0 m t
      let (b, s) := s.slotHold 1 m t
      let (c, s) := s.slotHold 2 m t
      let (d, s) := s.slotHold 3 m t
      if s.wdogNs ≤ a + b + c + d then (.hstall, s.stalled m t 1) else s.slotPass m t n

/-- A register write by a master: when the gate lets it through, its effect, then its acknowledge. -/
def State.atRegW (s : State) (r : Req) (key : Nat) (k : State → State) : State :=
  let t := key / 0x100000
  if !s.issues r then s
  else
    match s.gateReg r key true with
    | .go => (k s).answer r.master t .ok []
    | .quiet => s.answer r.master t .ok []
    | .stall => (s.stalled r.master t 2).answer r.master t .hstall []
    | .deny c => (s.denied r t (0xF000000000 + key) c).answer r.master t .accerr []
    | .err e => s.answer r.master t e []

/-- A register read by a master: when the gate lets it through, the word and the state the read leaves. -/
def State.atRegR (s : State) (r : Req) (key : Nat) (k : State → Nat × State) : State :=
  let t := key / 0x100000
  if !s.issues r then s
  else
    match s.gateReg r key false with
    | .go => ((k s).2).answer r.master t .ok (leBytes 4 (k s).1)
    | .quiet => s.answer r.master t .ok (leBytes 4 0)
    | .stall => (s.stalled r.master t 2).answer r.master t .hstall []
    | .deny c => (s.denied r t (0xF000000000 + key) c).answer r.master t .accerr []
    | .err e => s.answer r.master t e []

/-! ### Background shares (R36, R37) -/

/-- The accounting of instance i of resource n. -/
def State.bgAcct (s : State) (n i : Nat) : BgAcct :=
  Tab.lookD s.bg (64 * n + i) { used := 0, carry := 0, waiting := false, heldAtCeil := false }

/-- Set the accounting of an instance. -/
def State.setBg (s : State) (n i : Nat) (a : BgAcct) : State := { s with bg := Tab.put s.bg (64 * n + i) a }

/-- The resource time of one window in nanoseconds (Table 1.7); a cob has eight cores. -/
def bgWindow (n : Nat) : Nat := [10000000, 100000, 80000000, 1000000].getD n 1

/-- The length of a window in device time (Table 1.7). -/
def bgPeriod (n : Nat) : Nat := [10000000, 100000, 10000000, 1000000].getD n 1

/-- Background use is charged. -/
def State.bgCharge (s : State) (n i ns : Nat) : State :=
  let a := s.bgAcct n i
  s.setBg n i { a with used := a.used + ns }

/-- One grant (R36): some true for the background request, some false for the foreground one. The text forbids any background grant once the
class has reached its ceiling, which the pseudocode would make where FLOOR and what R37 adds to it lie above CEIL: the model's choice is the
text, so floor credit counts up to the ceiling (log entry 165). -/
def State.bgGrant (s : State) (n i : Nat) (bgWaits fgWaits : Bool) : Option Bool :=
  let a := s.bgAcct n i
  let floor := min (s.fld CFG_BGS_SHARE_FLOOR n + a.carry) (s.fld CFG_BGS_SHARE_CEIL n)
  if bgWaits ∧ a.used * 1000 < floor * bgWindow n then some true
  else if fgWaits then some false
  else if bgWaits ∧ a.used * 1000 < s.fld CFG_BGS_SHARE_CEIL n * bgWindow n then some true
  else none

/-- What waits after a grant is noted for the window's end (R37). -/
def State.bgNote (s : State) (n i : Nat) (bgWaits : Bool) : State :=
  let a := s.bgAcct n i
  if bgWaits then
    s.setBg n i { a with waiting := true,
                         heldAtCeil := a.heldAtCeil || s.fld CFG_BGS_SHARE_CEIL n * bgWindow n ≤ a.used * 1000 }
  else s

/-! ### Deficit rotation (R358, R359) -/

/-- A pod's weight at an arbiter (0 fetch, 1 dispatch, 2 scan): the one before a SET until the arbiter's next round. -/
def Pod.weightAt (p : Pod) (arb : Nat) : Nat := (p.newWeight.getD arb none).getD p.weight

/-- The weight in force of a pod at an arbiter. -/
def State.weightAt (s : State) (arb p : Nat) : Nat :=
  match Tab.look s.pod.pods p with
  | some e => e.weightAt arb
  | none => 1

/-- A new round of an arbiter: weights set since the last take effect, scaling the deficits (R359). -/
def newRound (arb : Nat) (pods : Tab Pod) (d : Tab Int) : Tab Pod × Tab Int :=
  (Tab.mapVals (fun _ p => { p with newWeight := p.newWeight.set arb none }) pods,
   Tab.mapVals (fun k x =>
     match Tab.look pods k with
     | some p =>
       (match p.newWeight.getD arb none with
        | some old => Int.tdiv (x * p.weight) old
        | none => x)
     | none => x) d)

/-- The pod an arbiter serves next among those with work, with the deficits, the last pod and the pod table after it. -/
def rotate (arb q : Nat) (elig : List Nat) : Nat → Tab Pod → Tab Int → Nat → Option Nat × Tab Pod × Tab Int × Nat
  | 0, pods, d, last => (none, pods, d, last)
  | fuel + 1, pods, d, last =>
    if elig.contains last ∧ 0 < Tab.lookD d last 0 then (some last, pods, d, last)
    else
      match elig.find? (fun p => last < p) with
      | some p =>
        let w := ((Tab.look pods p).map (fun e => e.weightAt arb)).getD 1
        rotate arb q elig fuel pods (Tab.put d p (Tab.lookD d p 0 + (w * q : Nat))) p
      | none =>
        match elig.head? with
        | none => (none, pods, d, last)
        | some p =>
          let (pods, d) := newRound arb pods d
          let w := ((Tab.look pods p).map (fun e => e.weightAt arb)).getD 1
          rotate arb q elig fuel pods (Tab.put d p (Tab.lookD d p 0 + (w * q : Nat))) p

/-- The pods in rising order that satisfy p, without repeats. -/
def podsOf (l : List Nat) : List Nat :=
  (l.foldl (fun t p => Tab.put t p ()) ([] : Tab Unit)).map (fun kv => kv.1)

/-! ### Completions -/

/-- The completion queue of a submission queue. -/
def State.cqOf (s : State) (pod qid : Nat) : Nat :=
  match Tab.look s.host.ctrls pod with
  | some c => ((Tab.look c.sqs qid).map (fun q => q.cqid)).getD 0
  | none => 0

/-- The outstanding command of a reference. -/
def State.outCmd (s : State) (c : CmdRef) : Option OutCmd :=
  s.host.out.find? (fun o => o.pod = c.pod && o.qid = c.qid && o.cid = c.cid)

/-- A failed command enters its controller's Error Information log of 64 entries, newest first (Table 10.19). -/
def State.logError (s : State) (c : CmdRef) (sct sc : Nat) (dnr : Bool) : State :=
  match Tab.look s.host.ctrls c.pod with
  | none => s
  | some k =>
    let n := ((k.errLog.head?).map (fun e => e.1)).getD 0
    let e := (n + 1, c.qid, c.cid, b2n dnr * 2 ^ 14 + sct * 2 ^ 8 + sc)
    { s with host := { s.host with ctrls := Tab.put s.host.ctrls c.pod { k with errLog := (e :: k.errLog).take 64 } } }

/-- A command completes, once (R314): its locks are released at once (R319) and its completion waits for its queue. One whose
queue a reset has deleted completes to nobody (R86). -/
def State.complete (s : State) (c : CmdRef) (sct sc : Nat) (dnr : Bool) (dw0 : Nat) : State :=
  let s := { s with
    host := { s.host with locks := s.host.locks.filter (fun l => l.cmd ≠ c) }
    hsk := { s.hsk with permits := s.hsk.permits.filter (fun p => p.2.2 ≠ c) } }
  match s.outCmd c with
  | none => s
  | some o =>
    if o.mute then { s with host := { s.host with out := s.host.out.filter (fun x => x ≠ o) } }
    else if s.host.cqes.any (fun x => x.pod = c.pod && x.qid = c.qid && x.cid = c.cid) then s
    else
      let s := { s with host := { s.host with cqes := s.host.cqes ++ [⟨c.pod, o.cqid, c.qid, c.cid, sct, sc, dnr, dw0⟩] } }
      if sct = 0 ∧ sc = 0 then s else s.logError c sct sc dnr

/-- The command a submission entry belongs to. -/
def HostCmdRef (c : HostCmd) : CmdRef := ⟨c.pod, c.qid, c.cid⟩

/-- A command completes with Successful Completion. -/
def State.succeed (s : State) (c : HostCmd) (dw0 : Nat := 0) : State := s.complete (HostCmdRef c) 0 0 false dw0

/-- The controller of a pod; one that holds nothing when none was written. -/
def State.ctrl (s : State) (pod : Nat) : Ctrl := Tab.lookD s.host.ctrls pod Ctrl.fresh

/-- Change a pod's controller. -/
def State.setCtrl (s : State) (pod : Nat) (c : Ctrl) : State :=
  { s with host := { s.host with ctrls := Tab.put s.host.ctrls pod c } }

/-- Change a pod's entry, if it exists. -/
def State.modPod (s : State) (p : Nat) (f : Pod → Pod) : State :=
  { s with pod := { s.pod with pods := Tab.upd s.pod.pods p f } }

/-- Whether the machine is in the safe configuration (R78). -/
def State.safe (s : State) : Bool := s.flag CFG_BOOT_STAT_SAFE

/-- CFG_BOOT_STAT.PHASE rises to a phase of a normal start (Table 3.21); where steps overlap it shows the furthest begun. -/
def State.phaseTo (s : State) (n : Nat) : State :=
  if s.fld CFG_BOOT_STAT_PHASE < n then s.setFld CFG_BOOT_STAT_PHASE n else s

/-- Every command answers a next state: the events it raised are delivered in the order of their grant. -/
abbrev Res := Host.Outcome State Fault Refusal

end Sys2Proof.Machine
end

