-- ==== Sys2Proof/Machine/LedgerView.lean ====
section
/-!
DEFINITION. The byte view of ledger memory (Table 12.29): ledger entries (Table 4.17), the record words, the
bad-block table, the erased-block bitmap and the recorder's history blocks (Table 16.4), as a read returns them.
-/
namespace Sys2Proof.Machine

/-- DEVICE_ID as 16 bytes. -/
def State.deviceIdBytes (s : State) : List Byte := leBytes 16 s.otp.deviceId

/-- Bytes 0-2,815 of a ledger entry (Table 4.17): what its signature covers. -/
def State.entryHead (s : State) (e : LedgerEntry) : List Byte :=
  ascii "GLED" ++ leBytes 1 1 ++ leBytes 1 e.kind ++ leBytes 2 e.flags ++ leBytes 8 e.index ++ leBytes 8 e.time
    ++ leBytes 4 e.boot ++ leBytes 4 e.missed ++ slice e.prevHash 0 64 ++ s.deviceIdBytes
    ++ leBytes 2 e.body.length ++ leBytes 14 0 ++ slice e.body 0 2688

/-- The 4,096 bytes of a ledger entry. -/
def State.entryBytes (s : State) (e : LedgerEntry) : List Byte := s.entryHead e ++ slice e.sig 0 1280

/-- The chain hash of an entry (R116). -/
def State.chainHash (s : State) (e : LedgerEntry) : List Byte := shake512 (s.entryBytes e)

/-- The entry with an index, when the ring holds it; one begun and not yet part of the ledger does not count (R123). -/
def State.ringEntry (s : State) (i : Nat) : Option LedgerEntry :=
  match Tab.look s.nv.ring (i % 4096) with
  | some e => if e.index = i ∧ i ≤ s.nv.newest then some e else none
  | none => none

/-- ARCHIVED (R119): the index of the newest archived entry, none while A is 0. -/
def NvState.archived (n : NvState) : Option Nat := if n.archA = 0 then none else some (n.archA - 1)

/-- Whether a ring entry's position is free: archived (R118), or begun and never made part of the ledger (R123). -/
def NvState.entryFree (n : NvState) (e : LedgerEntry) : Bool := e.index < n.archA || n.newest < e.index

/-- Free ring positions. -/
def State.ringFree (s : State) : Nat :=
  4096 - (s.nv.ring.filter (fun kv => !s.nv.entryFree kv.2)).length

/-- The archive count of the current epoch (R119). -/
def NvState.archCount (n : NvState) : Nat := (n.archA + 2 ^ 32 - n.base % 2 ^ 32) % 2 ^ 32

/-- Pages of a block in SLC mode (R144, R145). -/
def Lun.slcPages (l : Lun) : Nat := l.pages / (if l.bpc = 0 then 1 else l.bpc)

/-- The LUNs in use, in device LUN index order. -/
def State.lunsInUse (s : State) : List Nat := (s.flash.luns.filter (fun kv => kv.2.status = 1)).map (fun kv => kv.1)

/-- The archive's capacity in positions: the blocks recorded at first format count, else LDP_ARCHIVE's (R145). -/
def State.archiveCap (s : State) : Nat :=
  let count := match s.ftl.archive with | some a => a.2 | none => s.fld LDP_ARCHIVE_COUNT
  let n := (s.lunsInUse.map (fun i =>
    match Tab.look s.flash.luns i with
    | some l => count * l.slcPages
    | none => 0)).sum
  if n = 0 then 1048576 else min 1048576 n

/-- The count at which the archive warns (R122). -/
def State.archiveWarnAt (s : State) : Nat := ceilDiv (s.archiveCap * 95) 100

/-- LDG_STAT (Table 4.19). -/
def State.ldgStat (s : State) : Nat :=
  let n := s.nv
  b2n (s.ringFree = 0) * 2 ^ 31 + b2n (decide (s.archiveCap ≤ n.archCount)) * 2 ^ 30
    + b2n (decide (s.archiveWarnAt ≤ n.archCount)) * 2 ^ 29 + n.credits * 2 ^ 16 + b2n n.missedOvf * 2 ^ 15 + n.missed

/-- SGN_OTP_STAT (Table 4.2). -/
def State.otpStat (s : State) : Nat :=
  let prog := (List.range 4).foldl (fun a k => a + b2n ((s.otp.owner.getD k none).isSome) * 2 ^ k) 0
  b2n (!s.boot.pins.claimEnN && !s.otp.everOwner) * 2 ^ 24 + (s.otp.revoked / 16 % 16) * 2 ^ 20 + prog * 2 ^ 16
    + (s.otp.revoked % 16) * 2 ^ 4 + 15

/-- A firmware word (R114). -/
def FwWord.word (f : FwWord) : Nat := f.slot + f.drec * 2 ^ 4 + f.svn * 2 ^ 32

/-- SANITIZE_STATE (Table 6.12). -/
def SanState.word (n : SanState) : Nat :=
  if n.phase = 0 then 0 else n.sanact + n.phase * 2 ^ 4 + b2n n.ause * 2 ^ 7 + 0x1800 * 2 ^ 8

/-- The 128 bytes of a series block (Table 16.4). -/
def SeriesBlock.bytes (b : SeriesBlock) (series : Nat) : List Byte :=
  leBytes 4 b.gen ++ leBytes 2 b.flags ++ leBytes 2 series ++ leBytes 4 b.boot ++ leBytes 2 b.minBootD
    ++ leBytes 2 b.maxBootD ++ leBytes 8 b.openedAt ++ leBytes 8 b.count ++ leBytes 8 (ofSigned 64 b.sum)
    ++ leBytes 4 (ofSigned 32 b.min) ++ leBytes 4 (ofSigned 32 b.max) ++ leBytes 8 b.minAt ++ leBytes 8 b.maxAt
    ++ slice (b.bins.flatMap (fun n => leBytes 4 n)) 0 64

/-- A history block by 32 × series + block (R489); FLAGS bits 15:8 of a lifetime block name the current period. -/
def State.historyBlock (s : State) (i : Nat) : SeriesBlock :=
  let b := Tab.lookD s.nv.history i (Tab.lookD s.nv.histDef (i % 32) (SeriesBlock.fresh 0 0))
  if i % 32 = 0 then { b with flags := b.flags % 256 + s.nv.period * 256 } else b

/-- The aligned 64-bit word of the record area at an offset of ledger memory (Table 12.29). -/
def State.recordWord (s : State) (off : Nat) : Nat :=
  let n := s.nv
  if off = 0x1000000 then n.newest + n.missed * 2 ^ 40 + b2n n.missedOvf * 2 ^ 55 + n.credits * 2 ^ 56
  else if off = 0x1000008 then n.archA
  else if off = 0x1000010 then n.epoch + n.base % 2 ^ 32 * 2 ^ 32
  else if off = 0x1000040 then n.seqFloor
  else if off = 0x1000048 then n.fwActive.word
  else if off = 0x1000050 then n.fwPrev.word
  else if off = 0x1000058 then n.svnFloor
  else if 0x1000060 ≤ off ∧ off < 0x1000090 then n.tokenSeq.getD ((off - 0x1000060) / 8) 0
  else if 0x1000100 ≤ off ∧ off < 0x1000200 then
    leAt (n.fwDigest.getD ((off - 0x1000100) / 64) []) (off % 64) 8
  else if off = 0x1000200 then n.sanitize.word
  else if off = 0x1000208 then n.rebuildCkpt
  else if off = 0x1000210 then n.mapCkpt
  else if off = 0x1000218 then n.recSeqBase
  else if off = 0x1000220 then n.incarnation
  else if off = 0x1000228 then n.flushRate
  else if off = 0x1000230 then b2n n.breach
  else if off = 0x1210000 then n.mediaEpoch
  else if 0x1400000 ≤ off ∧ off < 0x1800000 then n.badTable.getD ((off - 0x1400000) / 8) 0
  else if 0x1800000 ≤ off ∧ off < 0x1C00000 then
    (List.range 64).foldl (fun a k =>
      let b := (off - 0x1800000) * 8 + k
      a + b2n (Tab.has n.erased (b / 16384 * 2 ^ 20 + b % 16384)) * 2 ^ k) 0
  else 0

/-! ### Key region (R135) -/

/-- The record the selector of a slot names. -/
def KeySlot.current (k : KeySlot) : Option KeyRec := if k.sel = 0 then k.rec0 else k.rec1

/-- The record of a key slot. -/
def NvState.keyRec (n : NvState) (slot : Nat) : Option KeyRec := (Tab.look n.keys slot).bind KeySlot.current

/-- A slot takes a key under the current epoch (R135): the record goes to the unused position, then the selector is written, then the old
position is zeroed. -/
def NvState.putKey (n : NvState) (slot key : Nat) : NvState :=
  let r : KeyRec := { key := key, epoch := n.mediaEpoch, intact := true }
  let sel := match Tab.look n.keys slot with
    | some k => if k.sel = 0 then 1 else 0
    | none => 0
  { n with keys := Tab.put n.keys slot (if sel = 0 then ⟨some r, none, 0⟩ else ⟨none, some r, 1⟩) }

/-- The media KEK of an epoch (R135). -/
def State.mediaKek (s : State) (epoch : Nat) : List Byte :=
  kmac256 (slice (Config.mediaRoot s.otp.pufRoot) 0 32) (ascii "GLT-MEDIA") (leBytes 8 epoch) 32

/-- The 72 bytes of a record position: the key pair by AES-KW under its KEK. -/
def State.keyRecBytes (s : State) (r : Option KeyRec) : List Byte :=
  match r with
  | some r => slice (Config.keyWrap (s.mediaKek r.epoch) r.key) 0 72
  | none => List.replicate 72 0#8

/-- The 192 bytes of a key slot (Table 12.29). -/
def State.keySlotBytes (s : State) (slot : Nat) : List Byte :=
  match Tab.look s.nv.keys slot with
  | some k => s.keyRecBytes k.rec0 ++ s.keyRecBytes k.rec1 ++ leBytes 8 k.sel ++ List.replicate 40 0#8
  | none => List.replicate 192 0#8

/-- A record that no longer passes its integrity check. -/
def KeyRec.spoiled (r : KeyRec) : KeyRec := { r with intact := false }

/-- An uncorrectable error at an offset of ledger memory spoils the key record that lies there (R138). -/
def State.keyHit (s : State) (off : Nat) : State :=
  if off < 0x1020000 ∨ 0x11A00C0 ≤ off then s
  else
    let p := (off - 0x1020000) % 192
    { s with nv := { s.nv with keys := Tab.upd s.nv.keys ((off - 0x1020000) / 192) (fun k =>
        { k with rec0 := if 72 ≤ p ∧ p < 144 then k.rec0 else k.rec0.map KeyRec.spoiled
                 rec1 := if p < 72 then k.rec1 else k.rec1.map KeyRec.spoiled }) } }

/-- n bytes of an aligned word read. -/
def State.recordBytes (s : State) (off : Nat) : Nat → List Byte
  | 0 => []
  | n + 1 => BitVec.ofNat 8 (s.recordWord (off / 8 * 8) / 2 ^ (8 * (off % 8))) :: s.recordBytes (off + 1) n

/-- n bytes of the general areas. -/
def State.generalBytes (s : State) (off : Nat) : Nat → List Byte
  | 0 => []
  | n + 1 => Tab.lookD s.nv.general off 0#8 :: s.generalBytes (off + 1) n

/-- n bytes of ledger memory at an offset, within one area of Table 12.29 as an aligned access of Table 1.2 is. -/
def State.ledgerRead (s : State) (off n : Nat) : List Byte :=
  if off < 0x1000000 then
    match Tab.look s.nv.ring (off / 4096) with
    | some e => slice (s.entryBytes e) (off % 4096) n
    | none => List.replicate n 0#8
  else if 0x1020000 ≤ off ∧ off < 0x11A00C0 then slice (s.keySlotBytes ((off - 0x1020000) / 192)) ((off - 0x1020000) % 192) n
  else if off < 0x1C00000 then s.recordBytes off n
  else if 0x3000000 ≤ off ∧ off < 0x3400000 then
    let i := (off - 0x3000000) / 0x80
    slice ((s.historyBlock i).bytes (i / 32)) (off % 0x80) n
  else s.generalBytes off n

/-- n bytes of the boot ROM at an offset; the version word is R115's. -/
def State.romRead (off : Nat) : Nat → List Byte
  | 0 => []
  | n + 1 =>
    (if 0x10 ≤ off ∧ off < 0x18 then (if off = 0x12 then 1#8 else 0#8) else BitVec.ofNat 8 (Config.romByte off))
      :: State.romRead (off + 1) n

/-- The SHAKE256-512 digest of the 1 MiB boot ROM, which BOOT record 1 carries (Table 4.15). -/
@[irreducible] def romDigest : List Byte := shake512 (State.romRead 0 0x100000)

/-- The seed of the identity key (R97). -/
def State.idSeed (s : State) : List Byte := shake256 (ascii "GLT-IDKEY" ++ s.deviceIdBytes ++ leBytes 32 s.otp.pufRoot) 48

end Sys2Proof.Machine
end

