-- ==== Sys2Proof/Machine/Codec.lean ====
section
/-!
DEFINITION. CRC-32C, CRC-32 and Adler-32, and the expansion of RFC 1951, 1950 and 1952 streams (R224, R241, R244, R246,
Table 7.9), as the published formats give them (PRESUMED, log entry 45).
-/
namespace Sys2Proof.Machine

/-- One byte of a reflected 32-bit CRC. -/
def crcByte (poly crc : Nat) (b : Byte) : Nat :=
  (List.range 8).foldl (fun c _ => if c % 2 = 1 then (c / 2) ^^^ poly else c / 2) (crc ^^^ b.toNat)

/-- CRC-32C of a byte string. -/
def crc32c (l : List Byte) : Nat := (l.foldl (crcByte 0x82F63B78) 0xFFFFFFFF) ^^^ 0xFFFFFFFF

/-- CRC-32 of a byte string. -/
def crc32 (l : List Byte) : Nat := (l.foldl (crcByte 0xEDB88320) 0xFFFFFFFF) ^^^ 0xFFFFFFFF

/-- Adler-32 of a byte string. -/
def adler32 (l : List Byte) : Nat :=
  let (a, b) := l.foldl (fun (p : Nat × Nat) x => let a := (p.1 + x.toNat) % 65521; (a, (p.2 + a) % 65521)) (1, 0)
  b * 65536 + a

/-- How an expansion stopped. -/
inductive InfStop where
  | more
  | done
  | full
  | bad (cause : Nat)
  deriving DecidableEq, Repr

/-- An expansion under way: the bit position and the output. -/
structure Inf where
  pos : Nat
  out : Array Byte
  deriving DecidableEq, Repr

/-- k bits at a bit position, least significant first; none past the end. -/
def getBits (inp : Array Byte) (pos k : Nat) : Option Nat :=
  if inp.size * 8 < pos + k then none
  else some ((List.range k).foldl (fun a i =>
    a + ((inp.getD ((pos + i) / 8) 0#8).toNat / 2 ^ ((pos + i) % 8) % 2) * 2 ^ i) 0)

/-- The code of each length: how many there are, and symbols in code order (RFC 1951, 3.2.2). -/
structure Huff where
  counts : List Nat
  syms : List Nat
  deriving DecidableEq, Repr

/-- Build a code from its lengths. -/
def Huff.ofLens (lens : List Nat) : Huff :=
  { counts := (List.range 16).map (fun k => if k = 0 then 0 else (lens.filter (fun x => x = k)).length),
    syms := (List.range 16).flatMap (fun k =>
      if k = 0 then [] else ((List.range lens.length).filter (fun i => lens.getD i 0 = k))) }

/-- Codes left unused: negative when over-subscribed. -/
def Huff.left (h : Huff) : Int := (List.range 15).foldl (fun (a : Int) k => a * 2 - (h.counts.getD (k + 1) 0 : Nat)) 1

/-- Decode one symbol: it and the position after it; some none for an undefined code. -/
def Huff.decode (h : Huff) (inp : Array Byte) : Nat → Nat → Nat → Nat → Nat → Nat → Option (Option (Nat × Nat))
  | 0, _, _, _, _, _ => some none
  | n + 1, pos, len, code, first, index =>
    match getBits inp pos 1 with
    | none => none
    | some b =>
      let code := code * 2 + b
      let c := h.counts.getD len 0
      let first := first * 2
      if first ≤ code ∧ code < first + c then some (some (h.syms.getD (index + (code - first)) 0, pos + 1))
      else h.decode inp n (pos + 1) (len + 1) code (first + c) (index + c)

/-- Decode one symbol at a position. -/
def Huff.sym (h : Huff) (inp : Array Byte) (pos : Nat) : Option (Option (Nat × Nat)) := h.decode inp 15 pos 1 0 0 0

/-- Base and extra bits of length code 257 + i. -/
def lenCode (i : Nat) : Nat × Nat :=
  ([3, 4, 5, 6, 7, 8, 9, 10, 11, 13, 15, 17, 19, 23, 27, 31, 35, 43, 51, 59, 67, 83, 99, 115, 131, 163, 195, 227, 258].getD i 0,
   [0, 0, 0, 0, 0, 0, 0, 0, 1, 1, 1, 1, 2, 2, 2, 2, 3, 3, 3, 3, 4, 4, 4, 4, 5, 5, 5, 5, 0].getD i 0)

/-- Base and extra bits of distance code i. -/
def distCode (i : Nat) : Nat × Nat :=
  ([1, 2, 3, 4, 5, 7, 9, 13, 17, 25, 33, 49, 65, 97, 129, 193, 257, 385, 513, 769, 1025, 1537, 2049, 3073, 4097, 6145, 8193,
    12289, 16385, 24577].getD i 0,
   [0, 0, 0, 0, 1, 1, 2, 2, 3, 3, 4, 4, 5, 5, 6, 6, 7, 7, 8, 8, 9, 9, 10, 10, 11, 11, 12, 12, 13, 13].getD i 0)

/-- Copy bytes from a distance back, up to a capacity; whether all were copied. -/
def copyBack (cap d : Nat) : Nat → Array Byte → Bool × Array Byte
  | 0, o => (true, o)
  | n + 1, o => if cap ≤ o.size then (false, o) else copyBack cap d n (o.push (o.getD (o.size - d) 0#8))

/-- Expand the symbols of one block. -/
def infBlock (inp : Array Byte) (cap win : Nat) (lit dist : Huff) : Nat → Inf → InfStop × Inf
  | 0, s => (.more, s)
  | n + 1, s =>
    match lit.sym inp s.pos with
    | none => (.more, s)
    | some none => (.bad 1, s)
    | some (some (y, p)) =>
      if y < 256 then
        if cap ≤ s.out.size then (.full, s) else infBlock inp cap win lit dist n { pos := p, out := s.out.push (BitVec.ofNat 8 y) }
      else if y = 256 then (.done, { s with pos := p })
      else if 285 < y then (.bad 1, s)
      else
        let (lb, le) := lenCode (y - 257)
        match getBits inp p le with
        | none => (.more, s)
        | some lx =>
          match dist.sym inp (p + le) with
          | none => (.more, s)
          | some none => (.bad 1, s)
          | some (some (d, q)) =>
            if 29 < d then (.bad 1, s)
            else
              let (db, de) := distCode d
              match getBits inp q de with
              | none => (.more, s)
              | some dx =>
                let dd := db + dx
                if s.out.size < dd ∨ win < dd then (.bad 3, s)
                else if cap ≤ s.out.size then (.full, s)
                else
                  let (all, o) := copyBack cap dd (lb + lx) s.out
                  if all then infBlock inp cap win lit dist n { pos := q + de, out := o }
                  else (.full, { pos := q + de, out := o })

/-- The fixed code of RFC 1951, 3.2.6. -/
def fixedLit : Huff := Huff.ofLens (List.replicate 144 8 ++ List.replicate 112 9 ++ List.replicate 24 7 ++ List.replicate 8 8)

/-- The fixed distance code. -/
def fixedDist : Huff := Huff.ofLens (List.replicate 30 5)

/-- Code lengths of a dynamic block, run by run. -/
def readLens (inp : Array Byte) (h : Huff) (total : Nat) : Nat → Nat → List Nat → Option (Option (Nat × List Nat))
  | 0, _, _ => some none
  | n + 1, pos, acc =>
    if total ≤ acc.length then (if acc.length = total then some (some (pos, acc)) else some none)
    else
      match h.sym inp pos with
      | none => none
      | some none => some none
      | some (some (y, p)) =>
        if y < 16 then readLens inp h total n p (acc ++ [y])
        else
          let (b, k) := if y = 16 then (3, 2) else if y = 17 then (3, 3) else (11, 7)
          if y = 16 ∧ acc.isEmpty then some none
          else
            match getBits inp p k with
            | none => none
            | some x => readLens inp h total n (p + k) (acc ++ List.replicate (b + x) (if y = 16 then acc.getLastD 0 else 0))

/-- The codes of a dynamic block (RFC 1951, 3.2.7). -/
def dynCodes (inp : Array Byte) (pos : Nat) : Option (Option (Nat × Huff × Huff)) :=
  match getBits inp pos 14 with
  | none => none
  | some w =>
    let hl := w % 32 + 257
    let hd := w / 32 % 32 + 1
    let hc := w / 1024 + 4
    if 286 < hl ∨ 30 < hd then some none
    else
      match getBits inp (pos + 14) (3 * hc) with
      | none => none
      | some x =>
        let order := [16, 17, 18, 0, 8, 7, 9, 6, 10, 5, 11, 4, 12, 3, 13, 2, 14, 1, 15]
        let cl := (List.range 19).map (fun i =>
          match order.findIdx? (fun o => o = i) with
          | some k => if k < hc then x / 2 ^ (3 * k) % 8 else 0
          | none => 0)
        let h := Huff.ofLens cl
        if h.left ≠ 0 then some none
        else
          match readLens inp h (hl + hd) 400 (pos + 14 + 3 * hc) [] with
          | none => none
          | some none => some none
          | some (some (p, lens)) =>
            let lit := Huff.ofLens (lens.take hl)
            let dist := Huff.ofLens (lens.drop hl)
            let okLit := lit.left = 0 || (0 < lit.left && (lit.counts.map id).sum = 1)
            let okDist := dist.left = 0 || (0 < dist.left && (dist.counts.map id).sum ≤ 1)
            if lens.getD 256 0 = 0 ∨ !okLit ∨ !okDist then some none else some (some (p, lit, dist))

/-- Expand blocks up to the final one. -/
def infBlocks (inp : Array Byte) (cap win : Nat) : Nat → Inf → InfStop × Inf
  | 0, s => (.more, s)
  | n + 1, s =>
    match getBits inp s.pos 3 with
    | none => (.more, s)
    | some h =>
      let final := h % 2 = 1
      let p := s.pos + 3
      let next := fun (r : InfStop × Inf) =>
        match r with
        | (.done, s') => if final then (.done, s') else infBlocks inp cap win n s'
        | r => r
      match h / 2 with
      | 0 =>
        let a := (p + 7) / 8
        (match getBits inp (8 * a) 32 with
         | none => (.more, s)
         | some w =>
           let len := w % 65536
           if len + w / 65536 ≠ 65535 then (.bad 2, s)
           else
             let have_ := inp.size - (a + 4)
             let room := cap - s.out.size
             let k := min len (min have_ room)
             let o := (List.range k).foldl (fun o i => o.push (inp.getD (a + 4 + i) 0#8)) s.out
             if k = len then next (.done, { pos := 8 * (a + 4 + len), out := o })
             else if k = room then (.full, { pos := 8 * (a + 4 + k), out := o })
             else (.more, { pos := 8 * (a + 4 + k), out := o }))
      | 1 => next (infBlock inp cap win fixedLit fixedDist (inp.size * 8 + 1) { s with pos := p })
      | 2 =>
        (match dynCodes inp p with
         | none => (.more, s)
         | some none => (.bad 1, s)
         | some (some (q, lit, dist)) => next (infBlock inp cap win lit dist (inp.size * 8 + 1) { s with pos := q }))
      | _ => (.bad 1, s)

/-- Expand a raw RFC 1951 stream that starts at a bit position. -/
def inflateAt (inp : Array Byte) (pos cap : Nat) : InfStop × Inf :=
  infBlocks inp cap 32768 (inp.size * 8 + 1) { pos := pos, out := #[] }

/-- Length of a zero-ended string of a gzip header, its zero included; none when it has not ended. -/
def zeroEnded (inp : List Byte) (off : Nat) : Option Nat := ((inp.drop off).findIdx? (fun b => b = 0#8)).map (fun i => off + i + 1)

/-- Where the deflate data of a framed stream start, in bytes: none when the header is not complete, some none when it is
wrong (R241, Table 7.9 causes 4 and 5). -/
def headerEnd (framing : Nat) (l : List Byte) : Option (Option Nat) :=
  match framing with
  | 1 =>
    if l.length < 2 then none
    else
      let a := leAt l 0 1
      let b := leAt l 1 1
      if a % 16 ≠ 8 ∨ 7 < a / 16 ∨ (a * 256 + b) % 31 ≠ 0 ∨ bit b 5 then some none else some (some 2)
  | 2 =>
    if l.length < 10 then none
    else
      let flg := leAt l 3 1
      if leAt l 0 2 ≠ 0x8B1F ∨ leAt l 2 1 ≠ 8 ∨ 32 ≤ flg then some none
      else
        let extra := if bit flg 2 then (if l.length < 12 then none else some (12 + leAt l 10 2)) else some 10
        let name := extra.bind (fun o => if bit flg 3 then zeroEnded l o else some o)
        let comm := name.bind (fun o => if bit flg 4 then zeroEnded l o else some o)
        match comm with
        | none => none
        | some o =>
          if bit flg 1 then
            (if l.length < o + 2 then none
             else if leAt l o 2 ≠ crc32 (l.take o) % 65536 then some none else some (some (o + 2)))
          else if l.length < o then none else some (some o)
  | _ => some (some 0)

/-- Bytes of a framing's trailer. -/
def trailerLen (framing : Nat) : Nat := match framing with | 1 => 4 | 2 => 8 | _ => 0

/-- A trailer that disagrees with the output: the CHECK_FAIL cause of Table 7.9. -/
def trailerBad (framing : Nat) (t out : List Byte) : Option Nat :=
  match framing with
  | 1 => if leNat ((slice t 0 4).reverse) ≠ adler32 out then some 3 else none
  | 2 => if leAt t 0 4 ≠ crc32 out then some 1 else if leAt t 4 4 ≠ out.length % 2 ^ 32 then some 2 else none
  | _ => none

/-- What the expansion of all of a stream's input so far gives, with room for cap bytes of output in all: how it stopped
(bad 16 + c stands for CHECK_FAIL cause c), input bytes taken, and the output. -/
def expand (framing cap : Nat) (l : List Byte) : InfStop × Nat × List Byte :=
  match headerEnd framing l with
  | none => (.more, l.length, [])
  | some none => (.bad (if framing = 1 then 4 else 5), l.length, [])
  | some (some h) =>
    match inflateAt l.toArray (8 * h) cap with
    | (.done, s) =>
      let a := (s.pos + 7) / 8
      let k := trailerLen framing
      let out := s.out.toList
      if l.length < a + k then (.more, l.length, out)
      else
        match trailerBad framing (slice l a k) out with
        | some c => (.bad (16 + c), a + k, out)
        | none => (.done, a + k, out)
    | (.more, s) => (.more, l.length, s.out.toList)
    | (st, s) => (st, (s.pos + 7) / 8, s.out.toList)

/-- The header a compressor emits (Table 7.7). -/
def emitHeader (framing effort : Nat) : List Byte :=
  match framing with
  | 1 => [0x78#8, BitVec.ofNat 8 ([0x01, 0x5E, 0x9C, 0xDA].getD effort 0)]
  | 2 => [0x1F#8, 0x8B#8, 8#8, 0#8, 0#8, 0#8, 0#8, 0#8, BitVec.ofNat 8 ([4, 0, 0, 2].getD effort 0), 0xFF#8]
  | _ => []

/-- The trailer a compressor appends (R241). -/
def emitTrailer (framing : Nat) (plain : List Byte) : List Byte :=
  match framing with
  | 1 => (leBytes 4 (adler32 plain)).reverse
  | 2 => leBytes 4 (crc32 plain) ++ leBytes 4 plain.length
  | _ => []

/-- Stored blocks of up to 65,535 bytes for an input (R242); the last is final when asked. -/
def storedBlocks (final : Bool) : Nat → List Byte → List Byte
  | 0, _ => []
  | n + 1, l =>
    let p := l.take 65535
    let rest := l.drop 65535
    let f := final && rest.isEmpty
    BitVec.ofNat 8 (b2n f) :: leBytes 2 p.length ++ leBytes 2 (65535 - p.length) ++ p
      ++ (if rest.isEmpty then [] else storedBlocks final n rest)

/-- The running check of a stream (Table 7.6, CHECK). -/
def runningCheck (framing : Nat) (plain : List Byte) : Nat := if framing = 1 then adler32 plain else crc32 plain

end Sys2Proof.Machine
end

