-- ==== Sys2Proof/Machine/Memory.lean ====
section
/-!
DEFINITION. DRAM controller and memory protection (chapter 12): the address map over the channels, codes, mirroring,
error accounting, fences, and the reads and writes every master's access goes through (R41, R368-R401).
-/
namespace Sys2Proof.Machine

/-! ### Address map and regions -/

/-- The mapped channel of a DRAM address, as a place in the map (R369). -/
def State.mapIndex (s : State) (addr : Nat) : Nat := (addr / 4096) % s.dram.mapped.length

/-- The physical channel of a DRAM address. -/
def State.chanOf (s : State) (addr : Nat) : Nat := s.dram.mapped.getD (s.mapIndex addr) 0

/-- The channel that holds the mirror copy (R374). -/
def State.copyChan (s : State) (addr : Nat) : Nat :=
  let n := s.dram.mapped.length
  s.dram.mapped.getD ((s.mapIndex addr + n / 2) % n) 0

/-- The channel-local line index of a DRAM address (R369, Table 12.19). -/
def State.localLine (s : State) (addr : Nat) : Nat :=
  let n := s.dram.mapped.length
  if n = 0 then 0 else (addr / (4096 * n) * 4096 + addr % 4096) / 64

/-- The time of one line's BL16 burst on a 32-bit subchannel, in ns, by the channel's rate (R368, Table 12.4). -/
def State.lineNs (s : State) (c : Nat) : Nat :=
  ceilDiv 16000 ([4800, 4800, 5600, 6400, 7200, 8000].getD (s.fld DRC_CH_STAT_RATE c) 4800)

/-- The DRAM region that holds an address: its number (R371). -/
def State.dregOf (s : State) (addr : Nat) : Option Nat :=
  (List.range 16).find? (fun r =>
    s.flag MPR_DREG_BASE_VALID r && s.fld MPR_DREG_BASE_BASE r * 0x200000 ≤ addr
      && addr < (s.fld MPR_DREG_BASE_BASE r + s.fld MPR_DREG_SIZE_SIZE r) * 0x200000)

/-- The code of a DRAM address: 0 STANDARD, 1 STRONG, 2 LIGHT (R371). -/
def State.dramCode (s : State) (addr : Nat) : Nat :=
  match s.dregOf addr with | some r => s.fld MPR_DREG_BASE_CODE r | none => 0

/-- Whether an address lies in a MIRRORED region (R374). -/
def State.mirrored (s : State) (addr : Nat) : Bool :=
  match s.dregOf addr with | some r => s.flag MPR_DREG_BASE_MIRROR r | none => false

/-- Whether an address lies in the upper half of a MIRRORED region, which only the controller reaches (R374). -/
def State.upperHalf (s : State) (addr : Nat) : Bool :=
  match s.dregOf addr with
  | some r => s.flag MPR_DREG_BASE_MIRROR r &&
      (s.fld MPR_DREG_BASE_BASE r * 2 + s.fld MPR_DREG_SIZE_SIZE r) * 0x100000 ≤ addr
  | none => false

/-- The error bucket of a DRAM address (R397). -/
def State.dramBucket (s : State) (addr : Nat) : Nat := (s.dregOf addr).getD 16

/-- The ledger region that holds an offset of ledger memory. -/
def State.lregOf (s : State) (off : Nat) : Option Nat :=
  (List.range 4).find? (fun r =>
    s.flag LMC_LREG_VALID r && s.fld LMC_LREG_BASE r * 0x10000 ≤ off
      && off < (s.fld LMC_LREG_BASE r + s.fld LMC_LREG_SIZE r) * 0x10000)

/-- The error bucket of an offset of ledger memory. -/
def State.ledgerBucket (s : State) (off : Nat) : Nat := match s.lregOf off with | some r => 17 + r | none => 21

/-- Whether a channel is fenced. -/
def State.chanFenced (s : State) (c : Nat) : Bool := bit (s.fld DRC_FENCE_CFG_FENCED) c

/-! ### Fences and health (R386, R387, R397) -/

/-- The map pages that a channel of the address map held are dropped (R387): which of those that the directory names lay on it is free
(log entry 194). -/
def State.dropPages (s : State) : State :=
  (s.ftl.dir.map (fun kv => kv.1)).foldl (fun (s : State) k =>
    if s.ftl.unheld.contains k then s
    else
      let (d, s) := s.draw 2
      if d = 0 then s else { s with ftl := { s.ftl with unheld := s.ftl.unheld ++ [k] } }) s

/-- A channel is fenced (R387) with a cause of R386; mirrored lines go single (R376), and map pages on it are dropped. -/
def State.fenceChan (s : State) (c cause : Nat) : State :=
  if s.chanFenced c then s
  else
    let s := s.setFld DRC_FENCE_CFG_FENCED (s.fld DRC_FENCE_CFG_FENCED + 2 ^ c)
    let s := (s.setFld DRC_CH_STAT_STATE 5 c).raise 166 cause [c]
    let n := s.dram.mapped.length
    match s.dram.mapped.findIdx? (fun x => x = c) with
    | none => s
    | some i =>
      let s := s.dropPages
      let o := s.dram.mapped.getD ((i + n / 2) % n) 0
      if (List.range 16).any (fun r => s.flag MPR_DREG_BASE_VALID r && s.flag MPR_DREG_BASE_MIRROR r) ∧ !s.chanFenced o then
        (s.setFld DRC_CH_STAT_MIR_SINGLE 1 o).raise 167 1 [min c o, max c o]
      else s

/-- Health of a protection region falls to a level at most h (R396, R397). -/
def State.healthTo (s : State) (b h : Nat) : State :=
  if h < s.fld MPR_BKT_STAT_HEALTH b then s.setFld MPR_BKT_STAT_HEALTH h b else s

/-- One correction in a protection region (R397): at THRESH the event, once until the bucket has fallen below half of it, and WATCH. -/
def State.bucketUp (s : State) (b : Nat) : State :=
  let v := s.fld MPR_BKT_STAT_BUCKET b
  let s := s.setFld MPR_BKT_STAT_BUCKET (min 65535 (v + 1)) b
  let t := s.fld MPR_SCRUB_CFG_THRESH
  if v + 1 = t ∧ !s.dram.raised.contains b then
    (State.healthTo { s with dram := { s.dram with raised := b :: s.dram.raised } } b 2).raise 160 1 [b]
  else s

/-- Memories by number: DRAM channel c is c, ledger memory 6, SRAM macro group g of 1 MiB is 16 + g. -/
def watchCap (m : Nat) : Nat := if m < 6 then 64 else if m = 6 then 16 else 8

/-- Remap entries of a memory (R396). -/
def remapCap (m : Nat) : Nat := if m < 6 then 8 else if m = 6 then 16 else 4

/-- Remap entries in use of a memory. -/
def State.remapUsed (s : State) (m : Nat) : Nat := (s.nv.remap.filter (fun kv => kv.1 / 16 = m)).length

/-- A hard fault is remapped to spare storage, or its memory is full (R395, R396). -/
def State.hardFault (s : State) (m b unit addr : Nat) : State :=
  let k := if m < 6 then 1 else if m = 6 then 3 else 2
  let n := s.remapUsed m
  if n < remapCap m then
    { s with nv := { s.nv with remap := Tab.put s.nv.remap (16 * m + n) unit } }.raise 162 k (m :: w64 addr)
  else
    let s := { s with dram := { s.dram with unmappable := s.dram.unmappable ++ [m * 2 ^ 40 + unit] } }
    (s.healthTo b 1).raise 163 k (m :: w64 addr)

/-- The watch list after a correction of a unit (R395): a second correction within 3 passes is a hard fault. -/
def State.watched (s : State) (m b unit addr : Nat) : State :=
  if s.dram.unmappable.contains (m * 2 ^ 40 + unit) then s
  else
    let l := Tab.lookD s.dram.watch m []
    let p := Tab.lookD s.dram.pass m 0
    let put := fun (s : State) l => { s with dram := { s.dram with watch := Tab.put s.dram.watch m l } }
    match l.find? (fun x => x.1 = unit) with
    | some e =>
      if p - e.2 < 3 then put (s.hardFault m b unit addr) (l.filter (fun x => x.1 ≠ unit))
      else put s (l.map (fun x => if x.1 = unit then (unit, p) else x))
    | none => put s ((if watchCap m ≤ l.length then l.drop 1 else l) ++ [(unit, p)])

/-- A corrected error on a DRAM channel counts, fills the buckets and may fence a DEGRADED channel (R386, R395). -/
def State.dramCorrected (s : State) (c addr : Nat) : State :=
  let s := s.countS DRC_CH_ERR_CE DRC_CH_ERR_OVF 1 c
  let s := s.bucketUp (s.dramBucket addr)
  let s := s.watched c (s.dramBucket addr) (s.localLine addr) (addr / 64 * 64)
  if s.fld DRC_CH_STAT_STATE c = 4 then
    let v := min 65535 (s.fld DRC_CH_FBKT_FBKT c + 1)
    let s := s.setFld DRC_CH_FBKT_FBKT v c
    if s.fld DRC_FENCE_CFG_CE_FENCE ≤ v then s.fenceChan c 2 else s
  else s

/-- An uncorrectable error in a protection region: FAILED until a cold reset (R397). -/
def State.regionFailed (s : State) (b : Nat) : State := (s.healthTo b 0).setFld MPR_BKT_STAT_UE_SEEN 1 b

/-- An uncorrectable error on a DRAM channel counts, and UE_FENCE of them within 1 s fence it (R386). -/
def State.dramUncorrectable (s : State) (c addr : Nat) : State :=
  let s := s.countS DRC_CH_ERR_UE DRC_CH_ERR_OVF 1 c
  let s := s.regionFailed (s.dramBucket addr)
  let l := ((Tab.lookD s.dram.ueAt c []) ++ [s.time]).filter (fun t => s.time < t + 1000000000)
  let s := { s with dram := { s.dram with ueAt := Tab.put s.dram.ueAt c l } }
  if s.fld DRC_FENCE_CFG_UE_FENCE ≤ l.length then s.fenceChan c 3 else s

/-! ### One line -/

/-- What a code finds of an error (Table 12.2): 0 none, 1 corrected, 2 detected. Codes: 0 STANDARD and SRAM, 1 STRONG of DRAM, 2 LIGHT, 3 STRONG
of ledger memory; wide8 for ×8 components. An error beyond what the table says is detected counts as detected (log entry 195). -/
def caught (code : Nat) (wide8 : Bool) : CellErr → Nat
  | .none => 0
  | .wrong b y d =>
    let corrects : Bool := match code with
      | 1 => if wide8 then decide (y ≤ 8) else decide (d ≤ 1)
      | 2 => false
      | 3 => decide (b ≤ 4)
      | _ => decide (b ≤ 1)
    if b = 0 then 0 else if corrects then 1 else 2

/-- How the stored bits of a line and an error found now read under its code: 0 clean, 1 corrected, 2 uncorrectable, 3 poisoned, 4 LIGHT
mismatch. -/
def readKind (code : Nat) (wide8 : Bool) (stored : Nat) (e : CellErr) : Nat :=
  let k := caught code wide8 e
  if stored = 4 then 3
  else if stored = 0 ∧ k = 0 then 0
  else if code = 2 then 4
  else if stored = 3 ∨ k = 2 ∨ (stored = 2 ∧ code ≠ 1) then 2
  else 1

/-- Cause of MEM_UE for a kind of failure (Table 12.28). -/
def ueCause (kind : Nat) (scrub : Bool) : Nat := if kind = 3 then 3 else if kind = 4 then 4 else if scrub then 2 else 1

/-- What is stored wrong in a line. -/
def State.lineBad (s : State) (line : Nat) : LineBad := Tab.lookD s.dram.bad line { prim := 0, copy := 0, injected := false }

/-- Set what is stored wrong in a line. -/
def State.setBad (s : State) (line : Nat) (b : LineBad) : State :=
  { s with dram := { s.dram with
      bad := if b.prim = 0 ∧ b.copy = 0 then Tab.del s.dram.bad line else Tab.put s.dram.bad line b } }

/-- MEM_UE is raised (Table 12.28) with the INJECTED flag of Table 16.2 for an injected error (R400). -/
def State.memUe (s : State) (cause t addr m : Nat) (injected : Bool) : State :=
  s.raiseWith 161 cause (t :: w64 addr ++ [m]) none (b2n injected * 4)

/-- Whether memory is in SOFTWARE_WRITE mode (Table 3.13). -/
def State.swMode (s : State) (t : Nat) : Bool :=
  if t = 0x41 then s.flag CFG_MEM_INIT_SRAM_MODE || !s.flag CFG_MEM_INIT_SRAM_DONE else s.flag CFG_MEM_INIT_DRAM_MODE

/-- Whether a line has been written, or zeroed by the initialiser, since its memory was started (R391, R356). -/
def State.lineValid (s : State) (t addr : Nat) : Bool :=
  Tab.has s.dram.valid (addr / 64) || (t = 0x40 && s.dram.zeroed.contains (addr / 0x200000))

/-- A request reaches a channel, and wakes it from self-refresh: it leaves for the state it came from before it serves it (R388, R389). -/
def State.wakeChan (s0 : State) (c : Nat) : State :=
  let s := s0.stamp (.request c)
  if 6 ≤ s.fld DRC_CH_STAT_STATE c then s.setFld DRC_CH_STAT_STATE (Tab.lookD s.dram.base c 2) c else s

/-- One copy of a line cannot be read: by its code, or not at all since its channel is fenced or there is none (5). -/
def State.copyLost (s : State) (c addr k : Nat) : State := if k = 5 then s else s.dramUncorrectable c addr

/-- A line is read from its copy (R376): a primary that was read wrong is rewritten from it. -/
def State.fromCopy (s : State) (o m addr pk ck : Nat) (b : LineBad) : BusStatus × State :=
  let s := if ck = 1 then s.dramCorrected o addr else s
  if pk = 5 then (.ok, if ck = 1 then s.setBad (addr / 64) { b with copy := 0 } else s)
  else (.ok, (s.setBad (addr / 64) { b with prim := 0, copy := 0 }).memUe 5 0x40 addr m b.injected)

/-- A line can be read from neither place. -/
def State.bothLost (s : State) (m addr pk ck : Nat) (scrub : Bool) (b : LineBad) : BusStatus × State :=
  let s := s.setBad (addr / 64) { b with prim := if 2 ≤ pk ∧ pk ≤ 4 ∧ b.prim = 0 then 3 else b.prim }
  (.uecc, s.memUe (ueCause (if pk = 5 then ck else pk) scrub) 0x40 addr m b.injected)

/-- Read of one DRAM line: bus status and the state after error handling (R373, R375, R376, R387, R391, R392). -/
def State.dramLine (s : State) (m addr : Nat) (pe ce : CellErr) (scrub : Bool) : BusStatus × State :=
  let line := addr / 64
  let c := s.chanOf addr
  let mir := s.mirrored addr
  let o := s.copyChan addr
  let code := s.dramCode addr
  let b := s.lineBad line
  let s := s.wakeChan c
  if m ≠ 0x58 ∧ !bit (s.fld CFG_MEM_INIT_DRAM_DONE) c then (.unwritten, s)
  else if s.swMode 0x40 ∧ !s.lineValid 0x40 addr then (.unwritten, s)
  else
    let pk := if s.chanFenced c then 5 else readKind code (s.flag DRC_CH_STAT_WIDTH c) b.prim pe
    let ck := if !mir ∨ s.chanFenced o then 5 else readKind code (s.flag DRC_CH_STAT_WIDTH o) b.copy ce
    if pk = 0 then (.ok, s)
    else if pk = 1 then (.ok, (s.dramCorrected c addr).setBad line { b with prim := 0 })
    else if ck ≤ 1 then ((s.copyLost c addr pk).fromCopy o m addr pk ck b)
    else if pk = 5 ∧ ck = 5 then (.uecc, s)
    else ((s.copyLost c addr pk).copyLost o addr (if pk = 5 then ck else 5)).bothLost m addr pk ck scrub b

/-- Read of one shared SRAM line. -/
def State.sramLine (s : State) (m addr : Nat) (pe : CellErr) (scrub : Bool) : BusStatus × State :=
  let line := addr / 64
  let g := 16 + (addr - 0xE000000000) / 0x100000
  let b := s.lineBad line
  if !s.flag CFG_MEM_INIT_SRAM_DONE ∧ m ≠ 0x58 ∧ addr < 0xE007000000 then (.unwritten, s)
  else if s.swMode 0x41 ∧ !s.lineValid 0x41 addr then (.unwritten, s)
  else
    match readKind 0 false b.prim pe with
    | 0 => (.ok, s)
    | 1 =>
      let s := (s.countS MPR_SRAM_STAT_CE MPR_SRAM_STAT_OVF 1).bucketUp 22
      (.ok, (s.watched g 22 ((addr % 0x100000) / 8) (addr / 8 * 8)).setBad line { b with prim := 0 })
    | k =>
      let s := (s.countS MPR_SRAM_STAT_UE MPR_SRAM_STAT_OVF 1).regionFailed 22
      let s := s.setBad line { b with prim := if b.prim = 0 then 3 else b.prim }
      (.uecc, s.memUe (ueCause k scrub) 0x41 addr m b.injected)

/-- The code of a ledger word (R372): STRONG outside every region and over the ring; STANDARD where a region says so. -/
def State.ledgerCode (s : State) (off : Nat) : Nat :=
  if off < 0x1000000 then 3
  else match s.lregOf off with | some r => if s.flag LMC_LREG_CODE r then 0 else 3 | none => 3

/-- Read of a ledger memory word's code. -/
def State.ledgerLine (s : State) (m addr : Nat) (pe : CellErr) (scrub : Bool) : BusStatus × State :=
  let off := addr - 0xE800000000
  match readKind (s.ledgerCode off) false 0 pe with
  | 0 => (.ok, s)
  | 1 =>
    let s := (s.countS LMC_STAT_CE LMC_STAT_OVF 1).bucketUp (s.ledgerBucket off)
    (.ok, s.watched 6 (s.ledgerBucket off) (off / 8) (addr / 8 * 8))
  | k =>
    let s := ((s.countS LMC_STAT_UE LMC_STAT_OVF 1).regionFailed (s.ledgerBucket off)).keyHit off
    (.uecc, s.memUe (ueCause k scrub) 0x42 addr m false)

/-- The code check of one line of a memory region. -/
def State.lineRead (s : State) (m t addr : Nat) (pe ce : CellErr) (scrub : Bool) : BusStatus × State :=
  if t = 0x40 then s.dramLine m addr pe ce scrub
  else if t = 0x41 then s.sramLine m addr pe scrub
  else if t = 0x42 then s.ledgerLine m addr pe scrub
  else (.ok, s)

/-! ### The gate in front of memory -/

/-- Whether an access overlaps [a, a + n). -/
def overlaps (a n b k : Nat) : Bool := a < b + k && b < a + n

/-- The checks of a memory access of any length (R9, R22, R24, R433, R437), sizes apart. What a unit reads or writes for its own work is never
one register, so past the access table a register window answers it with DECERR (R23). -/
def State.gateMem (s : State) (r : Req) (addr n : Nat) (rd wr : Bool) : Gate :=
  match regionOf addr with
  | none => .err .decerr
  | some (t, b, size) =>
    if t < 0x40 ∧ s.hsf.fenced.contains t then .stall
    else if !s.admitted r t (addr - b) n rd wr then .deny 1
    else if t < 0x40 then .err .decerr
    else if t = 0x43 ∧ wr then .deny 2
    else if r.master = 0xFE ∧ !s.debugReach t wr then .deny 2
    else if size < addr - b + n then .err .decerr
    else if t = 0x42 ∧ !ledgerAreaOk r.master (addr - b) wr then .deny 2
    else if t = 0x40 ∧ s.dramEnd < addr + n then .err .decerr
    else if t = 0x40 ∧ (s.upperHalf addr || s.upperHalf (addr + n - 1)) then .deny 2
    else .go

/-- Bytes of a memory region, no checks. -/
def State.rawRead (s : State) (t addr n : Nat) : List Byte :=
  if t = 0x42 then s.ledgerRead (addr - 0xE800000000) n
  else if t = 0x43 then State.romRead (addr - 0xEC00000000) n
  else s.rd addr n

/-- General ledger memory with bytes written; a byte of 0 is not listed. Without the permit no array write begins (R398, R421). -/
def State.generalWrite (s : State) (off : Nat) (bs : List Byte) : State :=
  if s.lmcPermit then { s with nv := { s.nv with general := memWrite s.nv.general off bs } } else s

/-- An armed injection meets a write of its line (R400). -/
def State.injectOn (s : State) (line : Nat) : State :=
  let a := s.pair MPR_INJ_ADDR_LO MPR_INJ_ADDR_HI
  if s.flag MPR_INJ_CTRL_ARM ∧ a / 64 = line then
    let k := s.fld MPR_INJ_CTRL_KIND
    let c := if s.mirrored a then s.fld MPR_INJ_CTRL_COPY else 0
    let b := s.lineBad line
    let s := s.setBad line { prim := if c = 1 then b.prim else k, copy := if c = 0 then b.copy else k, injected := true }
    (s.setFld MPR_INJ_CTRL_ARM 0).raise 168 1 (w64 (a / 64 * 64) ++ [k])
  else s

/-- A write within one line of DRAM or shared SRAM (R373, R375, R376, R387, R391, R400). -/
def State.lineWrite (s : State) (m t addr : Nat) (bs : List Byte) : BusStatus × State :=
  let line := addr / 64
  let full := bs.length = 64
  let c := s.chanOf addr
  let lost := t = 0x40 && s.chanFenced c && !(s.mirrored addr && !s.chanFenced (s.copyChan addr))
  let notDone := m ≠ 0x58 && (if t = 0x40 then !bit (s.fld CFG_MEM_INIT_DRAM_DONE) c
                               else !s.flag CFG_MEM_INIT_SRAM_DONE && addr < 0xE007000000)
  let s := if t = 0x40 then s.wakeChan c else s
  if notDone then (.unwritten, s)
  else if lost then (.uecc, s)
  else if s.swMode t ∧ !s.lineValid t addr then
    let s := { s with dram := { s.dram with valid := Tab.put s.dram.valid line true } }
    let s := s.setBad line { prim := 0, copy := 0, injected := false }
    (.ok, ((s.wr (line * 64) (List.replicate 64 0#8)).wr addr bs).injectOn line)
  else if full then
    (.ok, ((s.setBad line { prim := 0, copy := 0, injected := false }).wr addr bs).injectOn line)
  else
    match s.lineRead m t addr .none .none false with
    | (.ok, s) => (.ok, (s.wr addr bs).injectOn line)
    | (_, s) =>
      (.uecc, ((s.setBad line { (s.lineBad line) with prim := 4, copy := if s.mirrored addr then 4 else 0 }).wr addr bs).injectOn line)

/-- The checks of every line of a range, in order, up to the first that fails. -/
def State.linesRead (s : State) (m t : Nat) : Nat → Nat → BusStatus × State
  | _, 0 => (.ok, s)
  | addr, fuel + 1 =>
    match s.lineRead m t addr .none .none false with
    | (.ok, s) => s.linesRead m t ((addr / 64 + 1) * 64) fuel
    | r => r

/-- Writes of every line of a range, in order, up to the first that fails. -/
def State.linesWrite (s : State) (m t : Nat) : Nat → List Byte → Nat → BusStatus × State
  | _, _, 0 => (.ok, s)
  | addr, bs, fuel + 1 =>
    if bs.isEmpty then (.ok, s)
    else
      let k := 64 - addr % 64
      match s.lineWrite m t addr (bs.take k) with
      | (.ok, s) => s.linesWrite m t (addr + k) (bs.drop k) fuel
      | r => r

/-- Lines a range of n bytes at addr touches. -/
def lineCount (addr n : Nat) : Nat := if n = 0 then 0 else (addr + n - 1) / 64 - addr / 64 + 1

/-- The target code of an address, 0x40 outside every region. -/
def targetOf (addr : Nat) : Nat := ((regionOf addr).map (fun x => x.1)).getD 0x40

/-- Whether a range can be split into accesses of the sizes its region takes (Table 1.2): of 8 bytes and more in ledger memory, of 4 and more in
the boot ROM. -/
def grainOk (t addr n : Nat) : Bool :=
  if t = 0x42 then addr % 8 = 0 && n % 8 = 0 else if t = 0x43 then addr % 4 = 0 && n % 4 = 0 else true

/-- A unit reads n bytes of memory with its own master ID (R433, R438). -/
def State.load (s : State) (r : Req) (addr n : Nat) : BusStatus × List Byte × State :=
  match s.gateMem r addr n true false with
  | .go =>
    let t := ((regionOf addr).map (fun x => x.1)).getD 0
    if !grainOk t addr n then (.decerr, [], s)
    else
      match s.slotPass r.master t (lineCount addr n) with
      | (.ok, s) =>
        if t = 0x43 ∨ t = 0x42 then (.ok, s.rawRead t addr n, s)
        else
          (match s.linesRead r.master t addr (lineCount addr n) with
           | (.ok, s) => (.ok, s.rawRead t addr n, s)
           | (e, s) => (e, [], s))
      | (e, s) => (e, [], s)
  | .deny c => (.accerr, [], s.denied r (targetOf addr) addr c)
  | .err e => (e, [], s)
  | .stall => (.hstall, [], s.stalled r.master (targetOf addr) 2)
  | .quiet => (.ok, List.replicate n 0#8, s)

/-- A unit writes bytes of memory with its own master ID. -/
def State.store (s : State) (r : Req) (addr : Nat) (bs : List Byte) : BusStatus × State :=
  match s.gateMem r addr bs.length false true with
  | .go =>
    let t := ((regionOf addr).map (fun x => x.1)).getD 0
    if t = 0x42 then
      (if addr % 8 ≠ 0 then (.decerr, s)
       else
         let s := s.generalWrite (addr - 0xE800000000) (bs.take (bs.length / 8 * 8))
         if bs.length % 8 ≠ 0 then (.decerr, s) else s.slotPass r.master t (lineCount addr bs.length))
    else
      match s.linesWrite r.master t addr bs (lineCount addr bs.length) with
      | (.ok, s) => s.slotPass r.master t (lineCount addr bs.length)
      | x => x
  | .deny c => (.accerr, s.denied r (targetOf addr) addr c)
  | .err e => (e, s)
  | .stall => (.hstall, s.stalled r.master (targetOf addr) 2)
  | .quiet => (.ok, s)

/-- A field of n bytes at off of a structure a unit has read. -/
def fieldAt (l : List Byte) (off n : Nat) : Nat := leAt l off n

/-! ### Row disturbance (R381, R382) -/

/-- A row's activation count reached its threshold: the neighbours are refreshed and the aggressor recorded. -/
def State.directedRefresh (s : State) (r : Req) (addr : Nat) : State :=
  let c := s.chanOf addr
  let s := (s.countS DRC_CH_DIST_DIRECTED DRC_CH_DIST_OVF 1 c)
  let pod := if isCore r.master then r.pod else 0
  let ev := fun (s : State) k => s.raiseWith 164 k [c, r.master, pod] (if isCore r.master then some r.pod else none) 0
  let s := ev s 1
  let k := 256 * c + r.master
  let n := Tab.lookD s.dram.strikes k 0 + 1
  let s := { s with dram := { s.dram with strikes := Tab.put s.dram.strikes k n } }
  if n = s.fld DRC_DISTURB_STRIKES ∧ !s.flag DRC_CH_DIST_THR_ACTIVE c then
    let s := (s.setFld DRC_CH_DIST_THROTTLED r.master c).setFld DRC_CH_DIST_THR_ACTIVE 1 c
    ev { s with dram := { s.dram with throttleLeft := Tab.put s.dram.throttleLeft c 2 } } 2
  else s

/-! ### The commands -/

/-- The sizes a region takes (Table 1.2, R24). -/
def sizeOk (t addr n : Nat) : Bool :=
  [1, 2, 4, 8, 16, 32, 64].contains n && addr % n = 0
    && (if t = 0x42 then 8 ≤ n else if t = 0x43 then 4 ≤ n else true)

/-- A memory read by a master (R41): data or a bus error. -/
def State.memRead (s : State) (r : Req) (addr n : Nat) (pe ce : CellErr) (hot : Bool) : State :=
  let t := targetOf addr
  if !s.issues r then s
  else
    match s.gateMem r addr n true false with
    | .go =>
      if !sizeOk t addr n then s.answer r.master t .decerr []
      else
        match s.lineRead r.master t addr pe ce false with
        | (.ok, s) =>
          let s := if hot ∧ t = 0x40 then s.directedRefresh r addr else s
          s.answer r.master t .ok (s.rawRead t addr n)
        | (e, s) => s.answer r.master t e []
    | .deny c => (s.denied r t addr c).answer r.master t .accerr []
    | .err e => s.answer r.master t e []
    | .stall => s.answer r.master t .hstall []
    | .quiet => s.answer r.master t .ok (List.replicate n 0#8)

/-- The new value of an AMO (R278): RISC-V's AMO functions on n bytes. -/
def amoValue (n : Nat) (f : Atomic) (old src : Nat) : Nat :=
  let w := 8 * n
  match f with
  | .swap => src
  | .add => (old + src) % 2 ^ w
  | .xor => old ^^^ src
  | .and => old &&& src
  | .or => old ||| src
  | .min => if toSigned w old < toSigned w src then old else src
  | .max => if toSigned w old < toSigned w src then src else old
  | .minu => min old src
  | .maxu => max old src
  | .lr => old
  | .sc => src

/-- Reservations of other cores on a written line are gone. -/
def State.breakReservations (s : State) (line : Nat) : State :=
  { s with dram := { s.dram with reserved := s.dram.reserved.filter (fun kv => kv.2 ≠ line) } }

/-- A write by a master through the gate. -/
def State.memWriteOp (s : State) (r : Req) (addr : Nat) (bs : List Byte) (hot : Bool) : State :=
  let t := targetOf addr
  let n := bs.length
  if !s.issues r then s
  else
    match s.gateMem r addr n false true with
    | .go =>
      if !sizeOk t addr n then s.answer r.master t .decerr []
      else if t = 0x42 then
        (if 0x1C00000 ≤ addr - 0xE800000000 then s.generalWrite (addr - 0xE800000000) bs else s).answer r.master t .ok []
      else
        let (e, s) := s.lineWrite r.master t addr bs
        let s := if hot ∧ t = 0x40 then s.directedRefresh r addr else s
        (s.breakReservations (addr / 64)).answer r.master t e []
    | .deny c => (s.denied r t addr c).answer r.master t .accerr []
    | .err e => s.answer r.master t e []
    | .stall => s.answer r.master t .hstall []
    | .quiet => s.answer r.master t .ok []

/-- An atomic by a core, performed in its cob's L2 on DRAM and shared SRAM alone (R278); it needs RD and WR (R433). -/
def State.atomicOp (s : State) (r : Req) (addr : Nat) (bs : List Byte) (f : Atomic) (hot : Bool) : State :=
  let t := targetOf addr
  let n := bs.length
  if !s.issues r then s
  else if (regionOf addr).isNone ∨ (t ≠ 0x40 ∧ t ≠ 0x41) then s.emit (.coreFault r.master)
  else
    match s.gateMem r addr n true true with
    | .go =>
      if (n ≠ 4 ∧ n ≠ 8) ∨ addr % n ≠ 0 then s.emit (.coreFault r.master)
      else
        match s.lineRead r.master t addr .none .none false with
        | (.ok, s) =>
          let s := if hot ∧ t = 0x40 then s.directedRefresh r addr else s
          let old := s.rdN addr n
          let line := addr / 64
          match f with
          | .lr =>
            { s with dram := { s.dram with reserved := Tab.put s.dram.reserved r.master line } }.answer r.master t .ok (leBytes n old)
          | .sc =>
            let held := Tab.look s.dram.reserved r.master = some line
            let s := { s with dram := { s.dram with reserved := Tab.del s.dram.reserved r.master } }
            if held then
              let (e, s) := s.lineWrite r.master t addr bs
              (s.breakReservations line).answer r.master t e (leBytes n 0)
            else s.answer r.master t .ok (leBytes n 1)
          | _ =>
            let (e, s) := s.lineWrite r.master t addr (leBytes n (amoValue n f old (leNat bs)))
            (s.breakReservations line).answer r.master t e (leBytes n old)
        | (e, s) => s.answer r.master t e []
    | .deny c => (s.denied r t addr c).answer r.master t .accerr []
    | .err e => s.answer r.master t e []
    | .stall => s.answer r.master t .hstall []
    | .quiet => s.answer r.master t .ok (List.replicate n 0#8)

end Sys2Proof.Machine
end

