-- ==== Sys2Proof/Machine/Sched.lean ====
section
/-!
DEFINITION. The task scheduler's operations (chapter 9): readiness, dispatch, launch, end, release in vine order,
flags, cancellation and program handles.
-/
namespace Sys2Proof.Machine

/-- Change the task scheduler's state. -/
def State.modTsk (s : State) (f : TskState → TskState) : State := { s with tsk := f s.tsk }

/-- The task of an index. -/
def State.task (s : State) (i : Nat) : Option Task := Tab.look s.tsk.tasks i

/-- Set the task of an index. -/
def State.putTask (s : State) (i : Nat) (t : Task) : State := s.modTsk (fun k => { k with tasks := Tab.put k.tasks i t })

/-- Registers that hold what a program left in them. -/
def CoreRegs.wild : CoreRegs := { known := [], clean := false }

/-- The registers as R282 clears them. -/
def CoreRegs.cleared : CoreRegs := { known := [], clean := true }

/-- What a launch puts into registers (R282): a0 holds ARG, a1 INDEX and GEN, sp the top of the task's scratch. -/
def CoreRegs.entry (r : CoreRegs) (arg index gen scratch : Nat) : CoreRegs :=
  { r with known := Tab.put (Tab.put (Tab.put r.known 10 arg) 11 (index + gen * 65536)) 2 (0x200000000 + scratch) }

/-- A core after its domain's reset: tag 0 (R280); its registers as R282 clears them (log entry 183). -/
def Core.reset : Core := { slot0 := none, slot1 := none, running := none, tag := 0, regs := .cleared }

/-- The core's slots, running task, tag and registers. -/
def State.core (s : State) (k : Nat) : Core := Tab.lookD s.tsk.cores k Core.reset

/-- Set a core. -/
def State.putCore (s : State) (k : Nat) (c : Core) : State := s.modTsk (fun t => { t with cores := Tab.put t.cores k c })

/-- Cores present in a part. -/
def coreCount (p : Part) : Nat := 8 * Config.cobCount p

/-- Whether a core takes tasks: its cob's domain is on and ONLINE is 1 (R292). -/
def State.coreServes (s : State) (k : Nat) : Bool :=
  k < coreCount s.part && s.domOn (2 + k / 8) && s.flag TSK_CORE_CTRL_ONLINE (k / 8) (k % 8)

/-- The cores a task may run on: AFFINITY 0 means every core, absent cores are ignored (R13, Table 9.4). -/
def Task.mayRun (p : Part) (t : Task) (k : Nat) : Bool := k < coreCount p && (t.affinity = 0 || bit t.affinity k)

/-- Whether the preference window keeps a core from a task (R288, rule 1). -/
def State.windowBars (s : State) (t : Task) (k : Nat) : Bool :=
  !t.windowOver && decide (s.time < t.readyAt + t.affWindow * 1000) && !bit t.prefer k && (List.range (coreCount s.part)).any (fun j => bit t.prefer j && s.coreServes j)

/-- Whether a READY task is eligible on a core. -/
def State.eligible (s : State) (k : Nat) (t : Task) : Bool :=
  t.st = .ready && t.mayRun s.part k && !s.windowBars t k

/-- Whether the flags of a task satisfy its wait (R287). -/
def Task.satisfied (t : Task) : Bool :=
  t.waitMask = 0 || (if t.all then (t.flags &&& t.waitMask) = t.waitMask else (t.flags &&& t.waitMask) ≠ 0)

/-- Whether the vine's window admits a task (R294). -/
def State.vineOpen (s : State) (t : Task) : Bool :=
  match t.vine with
  | none => true
  | some v => (match Tab.look s.tsk.vines v with | some e => t.vseq < e.base + 256 | none => true)

/-- A WAITING task whose wait is over becomes READY, at the tail of its list (R287, R288). -/
def State.readyCheck (s : State) (i : Nat) : State :=
  match s.task i with
  | none => s
  | some t =>
    if t.st = .waiting ∧ t.satisfied ∧ s.vineOpen t then
      (s.putTask i { t with st := .ready, readyNo := s.tsk.readyCtr + 2, windowOver := t.affWindow = 0, readyAt := s.time }).modTsk
        (fun k => { k with readyCtr := k.readyCtr + 1 })
    else s

/-! ### Dispatch (R288, R289, R292) -/

/-- The READY tasks of a class that core k may take: index and task. -/
def State.readyFor (s : State) (k : Nat) (bg : Bool) : List (Nat × Task) :=
  s.tsk.tasks.filter (fun kv => s.eligible k kv.2 && kv.2.bg == bg)

/-- The task that has been ready longest among some. -/
def oldest (l : List (Nat × Task)) : Option Nat :=
  (l.foldl (fun (a : Option (Nat × Task)) x =>
    match a with
    | none => some x
    | some y => if x.2.readyNo < y.2.readyNo then some x else a) none).map (fun kv => kv.1)

/-- The highest priority with a task among some. -/
def topPrio (l : List (Nat × Task)) : Nat := l.foldl (fun a x => min a x.2.prio) 8

/-- The task the dispatcher takes for core k, and the scheduler with its rotation advanced (R288, R358). -/
def State.pickTask (s : State) (k : Nat) : Option Nat × State :=
  let bgL := s.readyFor k true
  let fgL := s.readyFor k false
  let c := k / 8
  match s.bgGrant 2 c (!bgL.isEmpty) (!fgL.isEmpty) with
  | none => (none, s.bgNote 2 c (!bgL.isEmpty))
  | some b =>
    let l := if b then bgL else fgL
    let p := topPrio l
    let l := l.filter (fun x => x.2.prio = p)
    let working := podsOf ((s.tsk.tasks.filter (fun kv => kv.2.st = .ready)).map (fun kv => kv.2.pod))
    let d := Tab.keep (fun q _ => working.contains q) s.tsk.deficit
    match rotate 1 4 (podsOf (l.map (fun x => x.2.pod))) 100000 s.pod.pods d s.tsk.lastPod with
    | (none, _) => (none, s)
    | (some q, pods, d, last) =>
      (oldest (l.filter (fun x => x.2.pod = q)),
       { s with pod := { s.pod with pods := pods }, tsk := { s.tsk with deficit := d, lastPod := last } })

/-- Place a task in a slot of a core, which takes the SLOT interrupt (R289, R290). -/
def State.slot (s : State) (k i : Nat) : State :=
  match s.task i with
  | none => s
  | some t =>
    let c := s.core k
    let s := s.putTask i { t with st := .slotted, core := k }
    (if c.slot0.isNone then s.putCore k { c with slot0 := some i } else s.putCore k { c with slot1 := some i }).emit (.coreIrq k 2)

/-- The empty slots of cores in service: every slot 0, then the slots 1 behind a full slot 0, in rotation from the core filled last (R51). -/
def State.emptySlots (s : State) : List Nat :=
  let on := (List.range (coreCount s.part)).filter (fun k => s.coreServes k)
  let ks := on.filter (fun k => decide (s.tsk.lastCore < k)) ++ on.filter (fun k => decide (k ≤ s.tsk.lastCore))
  ks.filter (fun k => (s.core k).slot0.isNone)
    ++ ks.filter (fun k => (s.core k).slot0.isSome && (s.core k).slot1.isNone)

/-- Fill the first empty slot for which a task is found, trying the given cores in turn. -/
def State.fillFirst (s : State) : List Nat → Option State
  | [] => none
  | k :: ks =>
    match s.pickTask k with
    | (some i, s') => some ((s'.slot k i).modTsk (fun t => { t with lastCore := k }))
    | (none, _) => s.fillFirst ks

/-- Fill slots until none can be filled. -/
def State.fillAll (s : State) : Nat → State
  | 0 => s
  | n + 1 => match s.fillFirst s.emptySlots with | some s' => s'.fillAll n | none => s

/-- TSK_COB_WAIT once per cob and episode for ready tasks all of whose cores lie in cobs that are off (R292). -/
def State.cobWaits (s : State) : State :=
  let cobs := List.range (Config.cobCount s.part)
  let waits := fun (t : Task) => t.st = .ready && (List.range (coreCount s.part)).all (fun k => !t.mayRun s.part k || !s.domOn (2 + k / 8))
  let blocked := cobs.filter (fun c => s.tsk.tasks.any (fun kv =>
    waits kv.2 && (List.range 8).any (fun j => kv.2.mayRun s.part (8 * c + j))))
  let new := blocked.filter (fun c => !s.tsk.cobWait.contains c)
  let s := s.modTsk (fun k => { k with cobWait := blocked })
  new.foldl (fun s c => s.raise 500 1 [c]) s

/-- Dispatch what can be dispatched (R288, R289). -/
def State.dispatch (s : State) : State :=
  if s.tsk.tasks.any (fun kv => kv.2.st = .ready) then
    let n := (s.tsk.tasks.filter (fun kv => kv.2.st = .ready)).length
    let s := (s.fillAll n).cobWaits
    -- what still waits as background on a cob in service is waiting in its window
    (List.range (Config.cobCount s.part)).foldl (fun s c =>
      s.bgNote 2 c ((List.range 8).any (fun j => s.coreServes (8 * c + j) && !(s.readyFor (8 * c + j) true).isEmpty))) s
  else s.modTsk (fun k => { k with cobWait := [] })

/-! ### Flags (R284) -/

/-- Set a task flag by an event flag word, by a master and, for a core, its pod; a word that names none is counted. -/
def State.flagSet (s : State) (r : Req) (w : Nat) : State :=
  if !bit w 31 then s
  else
    let i := w % 65536
    let f := bits w 20 16
    let stale := fun c =>
      (s.countS TSK_ERR_STAT_STALE TSK_ERR_STAT_OVF 1).raise 497 c [r.master, i]
    match s.task i with
    | none => stale 2
    | some t =>
      if bits w 30 24 ≠ t.gen then stale 1
      else if f = 31 then stale 3
      else if isCore r.master ∧ t.pod ≠ r.pod then stale 4
      else ((s.putTask i { t with flags := t.flags ||| 2 ^ f }).readyCheck i).dispatch

/-! ### Release and end (R286, R291, R294) -/

/-- The completion record of a task (Table 9.7). -/
def State.taskRecord (s : State) (i : Nat) (t : Task) : List Byte :=
  leBytes 2 t.status ++ leBytes 2 t.code ++ leBytes 2 i ++ leBytes 1 t.gen
    ++ leBytes 1 (if t.launched then t.core else 0xFF) ++ leBytes 8 s.time

/-- The DRAM address of byte x of a pod's memory, walking its ranges in order. -/
def rangeAddr (x : Nat) : List (Nat × Nat × Nat) → Option Nat
  | [] => none
  | (_, base, len) :: rest =>
    if x < len * 0x200000 then some (base * 0x200000 + x) else rangeAddr (x - len * 0x200000) rest

/-- The DRAM address of byte x of a pod's memory. -/
def Pod.addr (p : Pod) (x : Nat) : Option Nat := rangeAddr x p.ranges

/-- RESULT of a task (R300): the word a built-in wrote into its argument block. What RESULT is of a downloaded program the spec
does not say: a free value (log entry 69). -/
def State.resultOf (s : State) (t : Task) : Nat × State :=
  if t.kind = 1 then s.draw (2 ^ 32)
  else
    match (Tab.look s.pod.pods t.pod).bind (fun p => p.addr (t.arg - 0x1000000000 + 56)) with
    | some a => (s.rdN a 4, s)
    | none => s.draw (2 ^ 32)

/-- The host command of a task ends with the task's outcome (Table 10.13). -/
def State.progCmdDone (s : State) (t : Task) : State :=
  match t.cmd with
  | none => s
  | some c =>
    match t.status with
    | 0x0001 => let (w, s) := s.resultOf t; s.complete c 0 0 false w
    | 0x0010 => s.complete c 7 0x33 true t.code
    | 0x0011 => s.complete c 7 0x34 false 0
    | 0x0012 => s.complete c 0 0x07 false 0
    | 0x0020 => s.complete c 7 0x01 true 0
    | _ => s.complete c 7 0x35 true t.code

/-- An UNLOADING handle that no task names any more becomes free (R299). -/
def State.handleFree (s : State) (h : Nat) : State :=
  match Tab.look s.tsk.progs h with
  | some g =>
    if g.unloading ∧ !s.tsk.tasks.any (fun kv => kv.2.kind = 1 && kv.2.program = h) then
      let s := { s with host := { s.host with progs := s.host.progs.filter (fun kv => kv.2.scan || kv.2.handle ≠ h) } }
      (s.modTsk (fun k => { k with progs := Tab.del k.progs h })).raisePod 499 4 [g.pod, h] g.pod
    else s
  | none => s

/-- Release one task (R286): its record, its DONE_FLAG, and then its entry freed. -/
def State.releaseOne (s : State) (i : Nat) : State :=
  match s.task i with
  | none => s
  | some t =>
    let r : Req := ⟨t.submitter, t.pod⟩
    let a := t.compAddr / 16 * 16
    let s :=
      if t.compAddr = 0 then s
      else
        let rec16 := s.taskRecord i t
        match s.store r (a + 4) (rec16.drop 4) with
        | (.ok, s') =>
          (match s'.store r a (rec16.take 4) with
           | (.ok, s'') => s''
           | (_, s'') => s''.raisePod 496 5 [t.pod, i] t.pod)
        | (_, s') => s'.raisePod 496 5 [t.pod, i] t.pod
    let s := s.flagSet ⟨t.submitter, t.pod⟩ t.doneFlag
    let s := s.modTsk (fun k => { k with
      tasks := Tab.del k.tasks i, gens := Tab.put k.gens i ((t.gen + 1) % 128) })
    let s := s.progCmdDone t
    if t.kind = 1 then s.handleFree t.program else s

/-- The HELD task of a vine whose sequence number is its base. -/
def State.vineHead (s : State) (v : Nat) : Option Nat :=
  match Tab.look s.tsk.vines v with
  | none => none
  | some e => (s.tsk.tasks.find? (fun kv => kv.2.vine = some v && kv.2.vseq = e.base && kv.2.st = .held)).map (fun kv => kv.1)

/-- Release a vine's tasks in sequence order as far as they have ended (R294). -/
def State.vineRelease (s : State) (v : Nat) : Nat → State
  | 0 => s
  | n + 1 =>
    match s.vineHead v with
    | none => s
    | some i =>
      let s := s.releaseOne i
      let s := s.modTsk (fun k => { k with vines := Tab.upd k.vines v (fun e => { e with base := e.base + 1 }) })
      let s :=
        if s.tsk.tasks.any (fun kv => kv.2.vine = some v) then s
        else s.modTsk (fun k => { k with vines := Tab.del k.vines v })
      s.vineRelease v n

/-- A task has reached its outcome: HELD in a vine until its turn, released at once otherwise (R286, R294). -/
def State.taskOver (s : State) (i status code : Nat) : State :=
  match s.task i with
  | none => s
  | some t =>
    let s := s.putTask i { t with st := .held, status := status, code := code }
    match t.vine with
    | none => (s.releaseOne i).dispatch
    | some v =>
      let s := s.vineRelease v s.tsk.tasks.length
      -- the base has risen: waiting tasks of the vine may be ready now
      let l := (s.tsk.tasks.filter (fun kv => kv.2.vine = some v && kv.2.st = .waiting)).map (fun kv => kv.1)
      (l.foldl (fun s j => s.readyCheck j) s).dispatch

/-- The running task of a core ends: its time is charged (R288, R358) and the core is idle. -/
def State.endRunning (s : State) (k status code : Nat) : State :=
  match (s.core k).running with
  | none => s
  | some i =>
    match s.task i with
    | none => s.putCore k { (s.core k) with running := none, regs := .wild }
    | some t =>
      let dt := s.time - t.launchedAt
      let s := if t.bg then s.bgCharge 2 (k / 8) dt else s
      let extra := (dt - 10000) / 10000
      let s := s.modTsk (fun q => { q with
        deficit := if Tab.has q.deficit t.pod ∨ extra ≠ 0 then
          Tab.put q.deficit t.pod (Tab.lookD q.deficit t.pod 0 - (extra : Nat)) else q.deficit })
      let s := s.putCore k { (s.core k) with running := none, regs := .wild }
      let s := if status = 0x13 then s.raisePod 496 1 [t.pod, i] t.pod
               else if status = 0x14 then s.raisePod 496 4 [t.pod, i] t.pod else s
      s.taskOver i status code

/-- The monitor ends a running task (R291, R295): TIMEOUT with cause 2, CANCELLED with cause 3. -/
def State.forceEnd (s : State) (i cause : Nat) : State :=
  match s.task i with
  | some t =>
    if t.st = .running then
      let s := if cause = 2 then s.emit (.coreIrq t.core 1) else s
      let s := (s.countS TSK_ERR_STAT_FORCED TSK_ERR_STAT_OVF 1).raisePod 496 cause [t.pod, i] t.pod
      s.endRunning t.core (if cause = 2 then 0x11 else 0x12) 0
    else s
  | none => s

/-- A launch (R290, R280, R282): slot 0 moves to RUNNING, slot 1 to slot 0, the pod tag is set, and when that is another tag than before the
core's registers and prediction state are cleared first. -/
def State.launch (s : State) (k : Nat) : Nat × State :=
  let c := s.core k
  match c.running, c.slot0 with
  | none, some i =>
    match s.task i with
    | none => (0, s)
    | some t =>
      let scratch := ((Tab.look s.tsk.progs t.program).map (fun g => g.scratch)).getD 0
      let regs := (if c.tag = t.pod then c.regs else .cleared).entry t.arg i t.gen (if t.kind = 1 then scratch else 0)
      let s := s.putCore k { slot0 := c.slot1, slot1 := none, running := some i, tag := t.pod, regs := regs }
      let s := s.putTask i { t with st := .running, core := k, launched := true, launchedAt := s.time }
      let s := s.modTsk (fun q => { q with deficit := Tab.put q.deficit t.pod (Tab.lookD q.deficit t.pod 0 - 1) })
      (2 ^ 31 + t.gen * 2 ^ 24 + t.prio * 2 ^ 21 + i, s.dispatch)
  | _, _ => (0, s)

/-- A core goes out of service: its slotted tasks return to the heads of their ready lists (R289, R292). -/
def State.unslot (s : State) (k : Nat) : State :=
  let c := s.core k
  let back := fun (s : State) (o : Option Nat) (n : Nat) =>
    match o with
    | none => s
    | some i => (match s.task i with | some t => s.putTask i { t with st := .ready, readyNo := n } | none => s)
  (back (back s c.slot1 1) c.slot0 0).putCore k { c with slot0 := none, slot1 := none }

/-- A cob's domain is switched off (R292): slotted tasks return, running tasks end ABORTED, and tags are 0 (R280). -/
def State.cobOff (s : State) (c : Nat) : State :=
  let ks := (List.range 8).map (fun j => 8 * c + j)
  let s := ks.foldl (fun s k => s.unslot k) s
  let s := ks.foldl (fun s k => s.endRunning k 0x14 0) s
  (ks.foldl (fun s k => s.putCore k Core.reset) s).dispatch

/-- A task is taken out of its core's slots. -/
def State.leaveSlot (s : State) (i k : Nat) : State :=
  let c := s.core k
  if c.slot0 = some i then s.putCore k { c with slot0 := c.slot1, slot1 := none }
  else if c.slot1 = some i then s.putCore k { c with slot1 := none }
  else s

/-- Cancel one task (Table 9.9); with no grace a running task ends at once (R296). -/
def State.cancelTask (s : State) (i : Nat) (atOnce : Bool) : State :=
  match s.task i with
  | none => s
  | some t =>
    match t.st with
    | .held => s
    | .running =>
      let s := s.putTask i { t with
        cancelled := true, flags := t.flags ||| 2 ^ 31, cancelAt := if t.cancelled then t.cancelAt else s.time }
      let s := if t.cancelIrq ∧ !t.cancelled then s.emit (.coreIrq t.core 0) else s
      if atOnce then s.endRunning t.core 0x12 0 else s
    | .slotted => ((s.leaveSlot i t.core).putTask i { t with cancelled := true, flags := t.flags ||| 2 ^ 31 }).taskOver i 0x12 0
    | _ => (s.putTask i { t with cancelled := true, flags := t.flags ||| 2 ^ 31 }).taskOver i 0x12 0

/-- The unreleased tasks of a vine in sequence order. -/
def State.vineTasks (s : State) (v : Nat) : List Nat :=
  let l := s.tsk.tasks.filter (fun kv => kv.2.vine = some v)
  (l.foldl (fun (t : Tab Nat) kv => Tab.put t kv.2.vseq kv.1) []).map (fun kv => kv.2)

/-- Cancel every task of a pod at once (R296), in index order. -/
def State.cancelPod (s : State) (p : Nat) (atOnce : Bool) : State :=
  ((s.tsk.tasks.filter (fun kv => kv.2.pod = p)).map (fun kv => kv.1)).foldl (fun s i => s.cancelTask i atOnce) s

/-! ### Submission (R283, R293, R299, R13) -/

/-- The descriptor's fields in range: none, or the cause of MALFORMED (Table 9.15). -/
def descBad (d : List Byte) : Option Nat :=
  let f := fieldAt d
  if f 12 1 / 8 ≠ 0 ∨ f 13 1 ≠ 0 ∨ f 14 2 / 4096 % 8 ≠ 0 ∨ f 34 2 / 4096 ≠ 0 ∨ f 60 4 ≠ 0 then some 1
  else if f 0 1 ≠ 1 ∧ f 0 1 ≠ 2 then some 2
  else if 7 < f 1 1 ∨ (f 0 1 = 1 ∧ 1023 < f 2 2) ∨ (f 0 1 = 2 ∧ (f 2 2 < 1024 ∨ 1039 < f 2 2)) then some 2
  else if 2 ^ 31 ≤ f 4 4 ∨ 2 ^ 31 ≤ f 8 4 then some 3
  else if f 16 8 ≠ 0 ∧ (f 24 8 &&& (2 ^ 64 - 1 - f 16 8)) ≠ 0 then some 4
  else none

/-- The scratch bytes the tasks of a pod hold (R356). -/
def State.scratchUsed (s : State) (p : Nat) : Nat :=
  ((s.tsk.tasks.filter (fun kv => kv.2.pod = p && kv.2.kind = 1)).map (fun kv =>
    ((Tab.look s.tsk.progs kv.2.program).map (fun g => g.scratch)).getD 0)).sum

/-- Bytes of a pod's memory. -/
def Pod.memBytes (p : Pod) : Nat := (p.ranges.map (fun kv => kv.2.2)).sum * 0x200000

/-- Put a created task into the scheduler. -/
def State.enter (s : State) (i : Nat) (t : Task) : State :=
  let s := s.putTask i t
  if t.affinity ≠ 0 ∧ !(List.range (coreCount s.part)).any (fun k => bit t.affinity k) then s.taskOver i 0x20 0
  else (s.readyCheck i).dispatch

/-- A submission with its descriptor's bytes: the result word of Table 9.15 and the state (R283). -/
def State.submitTask (s : State) (r : Req) (d : List Byte) (cmd : Option CmdRef) : Nat × State :=
  match descBad d with
  | some c => (4 * 2 ^ 29 + c * 2 ^ 26, s)
  | none =>
    let f := fieldAt d
    let kind := f 0 1
    let prog := f 2 2
    let vine := if bit (f 14 2) 15 then some (f 14 2 % 4096) else none
    let ve : Option Vine := match vine with | some v => Tab.look s.tsk.vines v | none => none
    let pod := if isCore r.master then r.pod
               else match ve with | some e => (if isMgmt r.master then e.pod else f 34 2) | none => f 34 2
    let refuse := fun (res cause : Nat) => (res * 2 ^ 29, s.raisePod 498 cause [pod] pod)
    match Tab.lowestFree s.tsk.tasks 65536 with
    | none => refuse 2 1
    | some i =>
      match Tab.look s.pod.pods pod with
      | none => refuse 3 2
      | some pe =>
        if pe.tasks ≤ (s.tsk.tasks.filter (fun kv => kv.2.pod = pod)).length then refuse 3 2
        else
          let g := Tab.look s.tsk.progs prog
          let ok := if kind = 1 then (match g with | some g => g.pod = pod && !g.unloading | none => false) else decide (prog < 1028)
          if !ok then refuse 5 4
          else
            let need := if kind = 1 then (g.map (fun g => g.scratch)).getD 0 else 0
            if need ≠ 0 ∧ pe.memBytes < s.scratchUsed pod + need then refuse 3 2
            else if ve.any (fun e => e.pod != pod) then refuse 6 3
            else
              let gen := Tab.lookD s.tsk.gens i 0
              let seq := (ve.map (fun e => e.next)).getD 0
              let t : Task :=
                { gen := gen, kind := kind, prio := f 1 1, program := prog, waitMask := f 4 4, flags := f 8 4,
                  all := bit (f 12 1) 0, bg := bit (f 12 1) 1, cancelIrq := bit (f 12 1) 2, vine := vine, vseq := seq,
                  affinity := f 16 8, prefer := f 24 8, affWindow := f 32 2, pod := pod, doneFlag := f 36 4,
                  arg := f 40 8, compAddr := f 48 8 / 16 * 16, timeLimit := f 56 4, submitter := r.master,
                  st := .waiting, readyNo := 0, windowOver := f 32 2 = 0, readyAt := 0, cancelAt := 0, core := 0, launched := false, launchedAt := 0,
                  cancelled := false, status := 0, code := 0, cmd := cmd }
              let s := match vine with
                | none => s
                | some v => s.modTsk (fun k => { k with
                    vines := Tab.put k.vines v { pod := pod, base := (ve.map Vine.base).getD 0, next := seq + 1 } })
              (1 * 2 ^ 29 + gen * 2 ^ 16 + i, s.enter i t)

/-- A submission by a descriptor's address (R283, R370): the scheduler copies the descriptor for the submitter. -/
def State.submitAt (s : State) (r : Req) (addr : Nat) : State :=
  let a := addr / 64 * 64
  match s.load r a 64 with
  | (.ok, d, s) =>
    let (w, s) := s.submitTask r d none
    s.modTsk (fun k => { k with submitRes := Tab.put k.submitRes r.master w })
  | (_, _, s) =>
    -- the spec names no result for a descriptor that cannot be read: MALFORMED with a free cause (log entry 24)
    let (c, s) := s.draw 8
    s.modTsk (fun k => { k with submitRes := Tab.put k.submitRes r.master (4 * 2 ^ 29 + c * 2 ^ 26) })

/-- TSK_CANCEL (R295). -/
def State.cancelWrite (s : State) (r : Req) (w : Nat) : State :=
  if !bit w 31 then s
  else
    let stale := fun (i c : Nat) =>
      (s.countS TSK_ERR_STAT_STALE TSK_ERR_STAT_OVF 1).raise 497 c [r.master, i]
    if bit w 23 then
      let v := w % 4096
      match Tab.look s.tsk.vines v with
      | none => s
      | some e =>
        if isCore r.master ∧ e.pod ≠ r.pod then stale v 4
        else (s.vineTasks v).foldl (fun s i => s.cancelTask i false) s
    else
      let i := w % 65536
      match s.task i with
      | none => stale i 2
      | some t =>
        if bits w 30 24 ≠ t.gen then stale i 1
        else if isCore r.master ∧ t.pod ≠ r.pod then stale i 4
        else s.cancelTask i false

/-- State of Table 9.17 for a task index and a master. -/
def State.queryWord (s : State) (r : Req) (i : Nat) : Nat :=
  match s.task i with
  | none => 0
  | some t =>
    if isCore r.master ∧ t.pod ≠ r.pod then 0
    else
      let st := match t.st with | .waiting => 1 | .ready => 2 | .slotted => 3 | .running => 4 | .held => 5
      st * 2 ^ 29 + b2n (bit t.flags 31) * 2 ^ 28 + (if t.st = .slotted ∨ t.st = .running then t.core else 0) * 2 ^ 22
        + t.gen * 2 ^ 15 + t.prio * 2 ^ 12 + t.pod

/-- Unload a handle (R299): UNLOADING until its last task is released. -/
def State.unloadHandle (s : State) (h : Nat) (cause5 : Bool) : State :=
  match Tab.look s.tsk.progs h with
  | none => s
  | some g =>
    let s := s.modTsk (fun k => { k with progs := Tab.put k.progs h { g with unloading := true } })
    let s := if cause5 then s.raisePod 499 5 [g.pod, h] g.pod else s
    s.handleFree h

/-- Whether bytes are the header of a valid program image (Table 9.11, R297). -/
def progHeaderOk (h : List Byte) : Bool :=
  let f := fieldAt h
  let total := f 8 4
  h.take 4 = ascii "GPRG" && f 4 1 = 1 && (f 5 1 = 0 || f 5 1 = 1 || f 5 1 = 0xFF)
    && (if f 5 1 = 0xFF then f 6 1 = 0 else f 6 1 < 4) && f 7 1 = 0
    && total % 8 = 0 && 3152 ≤ total && total ≤ 16777216 && total = 3144 + f 16 4 + f 20 4
    && f 12 4 % 2 = 0 && f 12 4 < f 16 4 && f 16 4 % 4 = 0 && 4 ≤ f 16 4 && f 20 4 % 4 = 0
    && 4096 ≤ f 24 4 && f 24 4 ≤ 1048576 && f 24 4 % 4096 = 0 && f 28 4 < 2 && allZero (slice h 32 32)
    && allZero (slice h (64 + 1793) 7)

end Sys2Proof.Machine
end

