-- ==== Sys2Proof/Machine/Events.lean ====
section
/-!
DEFINITION. The event fabric and the recorder's event side (chapter 16): coalescing, routes, delivery to every
destination, event counts; drain, which delivers what a command raised; and exec's result, done.
-/
namespace Sys2Proof.Machine

/-- Change the event fabric. -/
def State.modEvt (s : State) (f : EvtState → EvtState) : State := { s with evt := f s.evt }

/-- The 48 bytes of a record (Table 16.2). -/
def EvtRec.bytes (r : EvtRec) : List Byte :=
  leBytes 8 r.seq ++ leBytes 2 r.number ++ leBytes 1 r.cause ++ leBytes 1 r.flags ++ leBytes 4 r.reps
    ++ leBytes 8 r.first ++ leBytes 4 r.lastDelta
    ++ leBytes 2 (match r.pod with | some p => 2 ^ 15 + p | none => 0) ++ leBytes 2 0
    ++ leBytes 4 (r.subj.getD 0 0) ++ leBytes 4 (r.subj.getD 1 0) ++ leBytes 4 (r.subj.getD 2 0) ++ leBytes 4 (r.subj.getD 3 0)

/-- The route of an event: EVT_ROUTE_n, with the fixed bits of R480. -/
def State.routeOf (s : State) (n : Nat) : Nat :=
  let v := if n < 768 then s.reg EVT_ROUTE n else 0
  let v := if [5, 51, 705, 706, 713, 721].contains n then v ||| 2 else v
  if n = 720 then v / 2 * 2 else v

/-! ### Notices to a host (R492) -/

/-- An asynchronous event for a pod: an outstanding request completes, or the event waits for one (R320, R366, R492). -/
def State.postAsync (s : State) (p dw0 : Nat) : State :=
  let c := s.ctrl p
  let open_ := match Tab.look s.pod.pods p with | some e => e.bound && e.state ≠ 4 | none => false
  match c.aers with
  | cid :: rest =>
    if open_ then (s.setCtrl p { c with aers := rest }).complete ⟨p, 0, cid⟩ 0 0 false dw0
    else s.setCtrl p { c with pendingEv := c.pendingEv ++ [dw0] }
  | [] => s.setCtrl p { c with pendingEv := c.pendingEv ++ [dw0] }

/-- Waiting events complete the requests that have arrived. -/
def State.flushAsync (s : State) (p : Nat) : Nat → State
  | 0 => s
  | n + 1 =>
    let c := s.ctrl p
    let open_ := match Tab.look s.pod.pods p with | some e => e.bound && e.state ≠ 4 | none => false
    match c.aers, c.pendingEv with
    | cid :: rest, ev :: evs =>
      if open_ then ((s.setCtrl p { c with aers := rest, pendingEv := evs }).complete ⟨p, 0, cid⟩ 0 0 false ev).flushAsync p n
      else s
    | _, _ => s

/-- A record enters a pod's host ring of 256 records, and a notice goes out when none is outstanding (R492). -/
def State.hostPush (s : State) (p : Nat) (r : EvtRec) : State :=
  let l := Tab.lookD s.evt.hostRing p []
  let s := s.modEvt (fun e => { e with hostRing := Tab.put e.hostRing p ((if 256 ≤ l.length then l.drop 1 else l) ++ [r]) })
  if s.evt.noticed.contains p then s
  else (s.modEvt (fun e => { e with noticed := e.noticed ++ [p] })).postAsync p 0x00070007

/-! ### Series (R485) -/

/-- A live block; one never touched is as it opened (R486). -/
def State.live (s : State) (k : Nat) : SeriesBlock :=
  Tab.lookD s.recd.live k { SeriesBlock.fresh s.recd.openBoot s.recd.openAt with gen := s.recd.openGen }

/-- Write a live block (R490: GEN advances by 2). -/
def State.putLive (s : State) (k : Nat) (b : SeriesBlock) : State :=
  { s with recd := { s.recd with live := Tab.put s.recd.live k { b with gen := (b.gen + 2) % 2 ^ 32 } } }

/-- A sum that saturates (class S): the value and whether it did. -/
def satSum (a b : Int) : Int × Bool :=
  if (2 ^ 63 - 1 : Int) < a + b then (2 ^ 63 - 1, true)
  else if a + b < -(2 ^ 63 : Int) then (-(2 ^ 63 : Int), true) else (a + b, false)

/-- A block with flag bit i set. -/
def SeriesBlock.flagged (b : SeriesBlock) (i : Nat) : SeriesBlock := { b with flags := b.flags ||| 2 ^ i }

/-- One record counted by a KIND 1 series (Table 16.4). -/
def SeriesBlock.count1 (b : SeriesBlock) (boot : Nat) (r : EvtRec) : SeriesBlock :=
  let (v, o) := satSum b.sum r.reps
  let b := { b with count := (b.count + 1) % 2 ^ 64, sum := v }
  let b := if o then b.flagged 0 else b
  if b.max < (r.reps : Int) then { b with max := r.reps, maxAt := r.first, maxBootD := Nat.min 65535 (boot - b.boot) } else b

/-- The series that a write of REC_SER_s_CFG word 0 has configured: those that can be KIND 1. -/
def State.writtenSeries (s : State) : List Nat :=
  let lo := REC_SER_W0.key 0 0
  ((s.regs.filter (fun kv => lo ≤ kv.1 && kv.1 < lo + 8192 && kv.1 % 8 = 0)).map (fun kv => (kv.1 - lo) / 8)).filter (fun k => k < 990)

/-- Event-count series take a record (R485). -/
def State.countSeries (s : State) (r : EvtRec) : State :=
  s.writtenSeries.foldl (fun s k =>
    let w0 := s.reg REC_SER_W0 k
    let w1 := s.reg REC_SER_W1 k
    let c := bits w1 23 16
    if w0 / 2 ^ 30 = 1 ∧ w0 % 1024 = r.number ∧ (c = 0 ∨ c = r.cause) then
      s.putLive k ((s.live k).count1 s.nv.bootNumber r)
    else s) s

/-! ### Delivery (R481-R483) -/

/-- A record goes to the management queue (R483). -/
def State.toMq (s : State) (r : EvtRec) : State :=
  let wr := s.reg EVT_MQ_WR
  let rd := s.reg EVT_MQ_RD
  if (wr + 2048 - rd) % 2048 = 1024 then
    ((s.countS EVT_STAT_MQ_LOST EVT_STAT_OVF 1).modEvt (fun e => { e with mqLost := true })).raise 720 1 [r.number]
  else
    let r := if s.evt.mqLost then { r with flags := r.flags ||| 2 } else r
    (s.modEvt (fun e => { e with mq := Tab.put e.mq (wr % 1024) r, mqLost := false })).putReg EVT_MQ_WR ((wr + 1) % 2048)

/-- A record goes to the control engine's queue of 64 (Table 16.3). -/
def State.toCle (s : State) (r : EvtRec) : State :=
  if 64 ≤ s.evt.cleQ.length then
    ((s.countS EVT_STAT_CLE_LOST EVT_STAT_OVF 1).modEvt (fun e => { e with cleLost := true })).raise 720 2 [r.number]
  else
    let r := if s.evt.cleLost then { r with flags := r.flags ||| 2 } else r
    s.modEvt (fun e => { e with cleQ := e.cleQ ++ [r], cleLost := false })

/-- A record waits for the BMC; the 65th replaces the oldest (R494). -/
def State.toMi (s : State) (r : EvtRec) : State :=
  if 64 ≤ s.evt.miQ.length then s.modEvt (fun e => { e with miQ := e.miQ.drop 1 ++ [{ r with flags := r.flags ||| 2 }] })
  else s.modEvt (fun e => { e with miQ := e.miQ ++ [r] })

/-- A record goes to the event ring under the next sequence number (R476, R482). -/
def State.toRing (s : State) (r : EvtRec) : State :=
  let n := r.seq
  let s := if n % 2 ^ 20 = 0 then { s with nv := { s.nv with recSeqBase := n } } else s
  { s with recd := { s.recd with ring := Tab.put s.recd.ring (n % 16384) r, head := n, nextSeq := (n + 1) % 2 ^ 64 } }

/-- Task subscriptions to a record (Table 16.3, EVT_TSUB_k). -/
def State.toTasks (s : State) (r : EvtRec) : State :=
  (List.range 16).foldl (fun s k =>
    let w0 := s.reg EVT_TSUB_W0 k
    if bit w0 31 ∧ w0 % 1024 = r.number ∧ (bits w0 23 16 = 0 ∨ bits w0 23 16 = r.cause) then
      s.flagSet ⟨0xE9, 0⟩ (s.reg EVT_TSUB_W1 k)
    else s) s

/-- Deliver one record to every destination of its route (R481). -/
def State.deliver (s : State) (r0 : EvtRec) : State :=
  let v := s.routeOf r0.number
  let r := if bit v 1 then { r0 with seq := s.recd.nextSeq } else { r0 with seq := 0 }
  let s := if bit v 1 then (s.toRing r).countSeries r else s
  let s := if bit v 0 then s.toMq r else s
  let s := if bit v 5 then s.toCle r else s
  let p := r.pod.getD 0
  let s := if bit v 2 then s.hostPush 0 r else s
  let s := if bit v 3 ∧ !(bit v 2 && p = 0) then s.hostPush p r else s
  let s := if bit v 4 then s.toMi r else s
  s.toTasks r

/-- Set the open coalescing entries; EVT_STAT.OPEN counts them. -/
def State.setCoal (s : State) (l : List CoalEntry) : State :=
  (s.modEvt (fun e => { e with coal := l })).setFld EVT_STAT_OPEN l.length

/-- The record of a coalescing entry that closes; early marks EARLY (R478, R479). -/
def CoalEntry.record (e : CoalEntry) (early : Bool) : EvtRec :=
  { seq := 0, number := e.number, cause := e.cause, flags := e.flags ||| (1 + b2n early * 16), reps := e.reps,
    first := e.first, lastDelta := (e.last - e.first) % 2 ^ 32, pod := e.pod, subj := e.subj }

/-- Whether an entry has the key of an occurrence (R478); SCN_MALFORMED's is its job (R273), a fifth word no record shows. -/
def CoalEntry.hasKey (e : CoalEntry) (r : Raised) : Bool :=
  e.number = r.number && e.cause = r.cause && e.pod = r.pod
    && (if e.number = 466 then e.subj.getD 4 0 = r.subj.getD 4 0 else e.subj = r.subj)

/-- Put an entry behind those with an earlier or equal FIRST. -/
def coalInsert (l : List CoalEntry) (e : CoalEntry) : List CoalEntry :=
  l.filter (fun x => x.first ≤ e.first) ++ e :: l.filter (fun x => e.first < x.first)

/-- An entry closes before its window (R479): its record is delivered with EARLY set, and EVT_LOST cause 3 is raised with the closed entry's
number, at most once per millisecond. -/
def State.closeEarly (s : State) (e : CoalEntry) : State :=
  let s := s.deliver (e.record true)
  let due : Bool := match s.evt.earlyAt with
    | some t => decide (t + 1000000 ≤ s.time)
    | none => true
  if due then (s.modEvt (fun x => { x with earlyAt := some s.time })).raise 720 3 [e.number] else s

/-- Room for one entry (R479): a full cache closes the entry with the lowest FIRST. -/
def State.coalRoom (s : State) : State :=
  match s.evt.coal with
  | e :: rest => if 256 ≤ s.evt.coal.length then (s.setCoal rest).closeEarly e else s
  | [] => s

/-- One occurrence of a coalesced event (R478, R479). -/
def State.coalesce (s : State) (r : Raised) : State :=
  let fresh : CoalEntry := ⟨r.number, r.cause, r.subj, r.pod, r.flags, r.at_, r.at_, 1⟩
  match s.evt.coal.find? (fun e => e.hasKey r) with
  | some e =>
    let rest := s.evt.coal.filter (fun x => !x.hasKey r)
    if r.at_ < e.first + s.fld EVT_CTRL_COAL_US * 1000 then
      let e' := { e with reps := e.reps + 1, last := r.at_ }
      if e'.reps = 2 ^ 32 - 1 then (s.setCoal rest).closeEarly e'
      else s.setCoal (s.evt.coal.map (fun x => if x.hasKey r then e' else x))
    else
      let s := (s.setCoal rest).deliver (e.record false)
      s.setCoal (coalInsert s.evt.coal fresh)
  | none =>
    let s := s.coalRoom
    s.setCoal (coalInsert s.evt.coal fresh)

/-- Whether a part raises an event: those of absent units never are (R474). -/
def eventExists (p : Part) (n : Nat) : Bool := defaultRoute p n ≠ 0 || n < 48

/-- The fabric grants one raised event (R477). -/
def State.grant (s : State) (r : Raised) : State :=
  if !eventExists s.part r.number then s
  else if bit (s.routeOf r.number) 6 then s.coalesce r
  else s.deliver ⟨0, r.number, r.cause, r.flags, 1, r.at_, 0, r.pod, r.subj⟩

/-- Grant raised events one after another, oldest first. -/
def State.drain : Nat → State → State
  | 0, s => s
  | n + 1, s =>
    match s.evt.inbox with
    | [] => s
    | r :: rest => State.drain n ((s.modEvt (fun e => { e with inbox := rest })).grant r)

/-- Every open entry closes at once with EARLY set (R479: power fail and thermal trip). -/
def State.closeAll (s : State) : State :=
  let l := s.evt.coal
  l.foldl (fun s e => s.deliver (e.record true)) (s.setCoal [])

/-- The grants one command can bring about: what it raises and what their delivery raises. -/
def drainFuel : Nat := 4096

/-- OTP after programming: bits change only from unprogrammed to programmed, so a programmed slot and a set revocation bit stay, and what is
written at manufacture stays as it is (R95). -/
def OtpState.fused (old new : OtpState) : OtpState :=
  { new with
    deviceId := old.deviceId
    vendor := old.vendor
    owner := (List.range 4).map (fun k =>
      match old.owner.getD k none with
      | some d => some d
      | none => new.owner.getD k none)
    revoked := old.revoked ||| new.revoked
    everOwner := old.everOwner || new.everOwner }

/-- What no command undoes, whatever it does: the part, the waiting commands, programmed OTP (R95), and the words of ledger memory that only
rise: FW_SVN_FLOOR (R114), SEQ_FLOOR (R74) and the incarnation (R460). -/
def State.oneWay (s t : State) : State :=
  { t with
    part := s.part
    pending := s.pending
    otp := s.otp.fused t.otp
    nv := { t.nv with
      svnFloor := max s.nv.svnFloor t.nv.svnFloor
      seqFloor := max s.nv.seqFloor t.nv.seqFloor
      incarnation := max s.nv.incarnation t.nv.incarnation } }

/-- The result of a command on s that leaves t: the next state, with every event it raised delivered (R477, R481), and nothing undone that
only goes one way. -/
def State.done (t s : State) : Res := .next (s.oneWay (State.drain drainFuel t))

end Sys2Proof.Machine
end

