-- ==== Sys2Proof/Machine/FlashOps.lean ====
section
/-!
DEFINITION. The flash sequencers' operations (chapter 5): LUN queues, the husk's checks of the block table (R204, R440),
the credit gate (R156, R157), the choice of the next operation (R151), dither (R166), and the end of an operation.
-/
namespace Sys2Proof.Machine

/-- Change the flash channels' state. -/
def State.modFlash (s : State) (f : FlashState → FlashState) : State := { s with flash := f s.flash }

/-- Change the translation layer's state. -/
def State.modFtl (s : State) (f : FtlState → FtlState) : State := { s with ftl := f s.ftl }

/-- The LUN of a device index. -/
def State.lun (s : State) (i : Nat) : Option Lun := Tab.look s.flash.luns i

/-- Set the LUN of a device index. -/
def State.putLun (s : State) (i : Nat) (l : Lun) : State := s.modFlash (fun f => { f with luns := Tab.put f.luns i l })

/-- Whether a LUN takes operations: in use, its group ON and its channel enabled (Table 5.8, R141). -/
def State.lunServes (s : State) (i : Nat) : Bool :=
  let n := i / 64
  (match s.lun i with | some l => l.status = 1 | none => false)
    && s.fld PWR_FPG_STAT_STATE (n / 2) = 2 && s.flag (FCH_CTRL_ENABLE.chan n)

/-! ### The block table (R189, R440) -/

/-- First archive block and archive blocks of each LUN: those recorded at first format, else LDP_ARCHIVE's (R145). -/
def State.archiveBlocks (s : State) : Nat × Nat :=
  match s.ftl.archive with
  | some a => a
  | none => (s.fld LDP_ARCHIVE_FIRST, s.fld LDP_ARCHIVE_COUNT)

/-- A block of a LUN. One the table does not list has never been programmed; the last FLUSH_BLOCKS blocks of a LUN are
its flush reserve (log entry 40). -/
def State.blk (s : State) (i b : Nat) : Blk :=
  match Tab.look s.ftl.blocks (2 ^ 20 * i + b) with
  | some x => x
  | none =>
    let a := s.archiveBlocks
    let n := ((s.lun i).map (fun l => l.blocks)).getD 0
    let pool := if a.1 ≤ b ∧ b < a.1 + a.2 then 5 else if b < n ∧ n ≤ b + s.fld LDP_RESERVE_FLUSH_BLOCKS then 4 else 0
    { pool := pool, wp := 0, pe := 0, group := if pool = 5 then 3 else if pool = 4 then 2 else 0, released := false, epoch := 0, torn := false }

/-- Set a block of the table. -/
def State.putBlk (s : State) (i b : Nat) (x : Blk) : State :=
  s.modFtl (fun f => { f with blocks := Tab.put f.blocks (2 ^ 20 * i + b) x })

/-- Pages of one wordline of a LUN in native or SLC mode. -/
def Lun.wordline (l : Lun) (slc : Bool) : Nat := if slc then 1 else max 1 l.bpc

/-- The archive position that a page of an ARCHIVE block is (R145). -/
def State.archivePos (s : State) (i b page : Nat) : Nat :=
  let a := s.archiveBlocks
  let per := ((s.lun i).map Lun.slcPages).getD 0
  ((s.lunsInUse.filter (fun j => j < i)).length * a.2 + (b - a.1)) * per + page

/-- The superblock of a block: 2^14 times its stripe set (CE and LUN) plus its index (R185). -/
def sbOf (i b : Nat) : Nat := 2 ^ 14 * (i % 64) + b

/-- Whether phase 3 of a sanitize runs (R440). -/
def State.sanErasing (s : State) : Bool := s.nv.sanitize.phase = 3

/-- The husk's check of a PROGRAM (R440): none, or the cause of HSK_LIMIT; wp is the pointer it will find. -/
def State.programBad (s : State) (op : FlashOp) (i wp : Nat) : Option Nat :=
  let x := s.blk i op.block
  if x.pool = 6 then some 3
  else if x.pool = 5 ∧ s.archivePos i op.block op.page ≠ s.nv.archCount then some 4
  else if op.page ≠ wp then some 1
  else none

/-- The husk's check of an ERASE (R204, R440): none, or the cause of HSK_LIMIT. -/
def State.eraseBad (s : State) (i b : Nat) : Option Nat :=
  let x := s.blk i b
  if x.pool = 5 then (if x.wp = 0 ∨ x.epoch < s.nv.epoch then none else some 4)
  else if s.sanErasing then none
  else if x.pool = 6 then some 3
  else if x.pool = 3 then (if x.released then none else some 2)
  else if (x.pool = 4 ∨ x.pool = 0) ∧ x.wp = 0 then none
  else
    match Tab.look s.ftl.sbs (sbOf i b) with
    | some y => if y.state = 2 ∧ y.reclaimNo ≤ s.ftl.recDurable then none else some 2
    | none => some 2

/-- The write pointer a block will have once the operations ahead of a new one have run. -/
def State.wpAfter (s : State) (i b : Nat) : Nat :=
  match s.lun i with
  | none => 0
  | some l =>
    let ahead := (match l.running with | some o => [o] | none => []) ++ (match l.suspended with | some o => [o] | none => []) ++ l.queue
    ahead.foldl (fun wp o =>
      if o.block ≠ b then wp
      else if o.op = 2 then o.page + l.wordline (bit o.flags 4)
      else if o.op = 3 then 0
      else wp) (s.blk i b).wp

/-! ### Ends -/

/-- Bytes 48-63 of a descriptor (Table 5.7), STATUS last (R149). -/
def State.writeEnd (s : State) (n addr status step iter corrected : Nat) : State :=
  if addr = 0 then s
  else
    let r : Req := ⟨if n < Config.fchCount s.part then 0x70 + n else 0x54, 0⟩
    let tail := leBytes 1 step ++ leBytes 1 iter ++ leBytes 2 (min 65535 corrected) ++ leBytes 2 0 ++ leBytes 8 s.time
    let s := (s.store r (addr + 50) tail).2
    (s.store r (addr + 48) (leBytes 2 status)).2

/-- An operation ends: its descriptor is completed and its event flag set (R149). -/
def State.opEnd (s : State) (i : Nat) (op : FlashOp) (status step iter corrected : Nat) : State :=
  let s := s.writeEnd (i / 64) op.addr status step iter corrected
  if op.evFlag = 0 then s else s.flagSet ⟨0x70 + i / 64, op.pod⟩ op.evFlag

/-- An operation the husk refuses (R440). -/
def State.opRefused (s : State) (i : Nat) (op : FlashOp) (cause : Nat) : State :=
  let n := i / 64
  let s := (s.raise (225 + 4 * n) 5 [i % 64, op.block]).raise 49 cause [0x70 + n, op.master]
  s.opEnd i op 0x15 0 0 0

/-! ### The credit gate (R156, R157, R416) -/

/-- Planes taking part in an operation. -/
def FlashOp.planeCount (op : FlashOp) : Nat := ((List.range 8).filter (fun p => bit op.planes p)).length

/-- The cost of an operation in units of 10 mA (Table 5.12). -/
def State.opCost (s : State) (op planes : Nat) : Nat :=
  let per := match op with
    | 2 => s.fld LDP_CREDIT_COST_PROGRAM
    | 3 => s.fld LDP_CREDIT_COST_ERASE
    | _ => s.fld LDP_CREDIT_COST_READ
  per * max 1 planes

/-- The LUNs of a flash power group: those of channels 2g and 2g + 1 (R141). -/
def State.groupLuns (s : State) (g : Nat) : List Nat :=
  (s.flash.luns.filter (fun kv => kv.1 / 128 = g)).map (fun kv => kv.1)

/-- Current drawn by a LUN's running and suspended operations, and by one it has not reported ready from (R156). -/
def Lun.draw (l : Lun) : Nat :=
  (l.running.map FlashOp.cost).getD 0 + (l.suspended.map FlashOp.cost).getD 0 + (l.resetting.map Prod.snd).getD 0

/-- Current in use in a flash power group. -/
def State.groupUse (s : State) (g : Nat) : Nat :=
  ((s.groupLuns g).map (fun i => ((s.lun i).map Lun.draw).getD 0)).sum

/-- Planes of the reference geometry. -/
def State.refPlanes (s : State) : Nat :=
  match s.flash.luns.find? (fun kv => kv.2.status = 1) with | some kv => kv.2.planes | none => 1

/-- The effective budget of a group (R157, R416); SCALE 0, before the first load test, lowers nothing. -/
def State.effBudget (s : State) (g : Nat) : Nat :=
  let b := s.fld PWR_FPG_CFG_BUDGET g
  let k := s.fld PWR_FPG_STAT_SCALE g
  if k = 0 then b else min b (max (b * k / 16) (s.fld LDP_CREDIT_COST_ERASE * s.refPlanes))

/-- Whether the gate grants a cost to a LUN now. -/
def State.credit (s : State) (i cost : Nat) : Bool :=
  let g := i / 128
  s.fld PWR_FPG_STAT_STATE g = 2
    && (match Tab.lookD s.flash.reserve g [] with | [] => true | j :: _ => j = i)
    && s.groupUse g + cost ≤ s.effBudget g

/-! ### The next operation of a LUN (R151, R153, R155) -/

/-- A READ or SWEEP. -/
def FlashOp.isRead (o : FlashOp) : Bool := o.op = 1 || o.op = 4

/-- An operation in the background class: BG without URGENT (R38). -/
def FlashOp.isBg (o : FlashOp) : Bool := bit o.flags 0 && !bit o.flags 1

/-- Operations of garbage collection and the moves it makes: READ, PROGRAM and ERASE that are no patrol reads. -/
def FlashOp.collects (o : FlashOp) : Bool := (o.op = 1 || o.op = 2 || o.op = 3) && !bit o.flags 2

/-- Whether an operation on a LUN is charged to the background class: what collects on an urgent stripe set, or folds an SLC buffer above its
ceiling, is charged as foreground, whatever its sender's flag says (R38, R192, log entry 186). -/
def State.isBg (s : State) (i : Nat) (o : FlashOp) : Bool := o.isBg && !(o.collects && (s.ftl.urgent.contains (i % 64) || (s.ftl.folding = 2 && (s.blk i o.block).pool = 2)))

/-- Time for which a suspended erase lets its LUN's reads run (R153). -/
def suspendNs : Nat := 300000

/-- The queue without the operations that an earlier one of the same block holds back, unless both are reads. -/
def freeOps : List FlashOp → List FlashOp → List FlashOp
  | _, [] => []
  | seen, o :: rest =>
    let blocked := seen.any (fun e => e.block = o.block && !(e.isRead && o.isRead))
    (if blocked then [] else [o]) ++ freeOps (seen ++ [o]) rest

/-- The operations of a LUN that R151's choice may fall on: with FLUSH alone during a flush (R155), foreground READs alone while an erase is
suspended and its 300 µs last (R153), the holder of a reservation alone (R157). -/
def State.candidates (s : State) (i : Nat) (l : Lun) : List FlashOp :=
  let q := freeOps (l.suspended.toList) l.queue
  let q := if s.flash.flushMode then q.filter (fun o => bit o.flags 5) else q
  let q := if l.suspended.isSome then q.filter (fun o => o.op = 1 && !s.isBg i o && decide (s.time < l.suspAt + suspendNs)) else q
  if q.any (fun o => o.reserved) then q.filter (fun o => o.reserved) else q

/-- The operation an idle LUN takes next, if any may start. -/
def State.nextOp (s : State) (i : Nat) (l : Lun) : Option FlashOp :=
  let q := s.candidates i l
  let n := i / 64
  let rd := q.find? (fun o => o.isRead && !s.isBg i o)
  let wr := q.find? (fun o => !o.isRead && !s.isBg i o)
  let bg := q.find? (fun o => s.isBg i o)
  let fg :=
    match rd, wr with
    | some a, some b => if b.at_ + s.fld (FCH_SCHED_BYPASS.chan n) * 100000 ≤ s.time then some b else some a
    | some a, none => some a
    | none, w => w
  match s.bgGrant 0 n bg.isSome fg.isSome with
  | some true => bg
  | some false => fg
  | none => none

/-- Block groups of a LUN; one the tracker does not hold is FREE. -/
def Group.free : Group :=
  { active := false, mode := 0, gen := 0, thr := [], iterAvg := 0, b10 := [], b01 := [], frames := 0, patrolSum := 0,
    patrolCount := 0, dithered := 0, dithFails := 0, suspended := false, turns := [] }

/-- A group of a LUN. -/
def Lun.group (l : Lun) (g : Nat) : Group := Tab.lookD l.groups g Group.free

/-- A threshold as a group creates it. -/
def Thresh.zero : Thresh := { off := 0, acc := 0, half := 0, halfOk := false, pairs := 0, plus := true }

/-- A threshold of a group. -/
def Group.th (g : Group) (t : Nat) : Thresh := Tab.lookD g.thr t Thresh.zero

/-- The page type of a page by the die's wordline layout, which the spec does not give (log entry 42). -/
def pageType (l : Lun) (op : FlashOp) : Nat := if bit op.flags 4 then 0 else Config.pageType op.page % max 1 l.bpc

/-- The thresholds a page type reads, and bit t of its polarity (R165); SLC reads use threshold 1 with polarity 1. -/
def State.coding (s : State) (slc : Bool) (m : Nat) : List Nat × (Nat → Bool) :=
  if slc then ([1], fun _ => true)
  else
    ((List.range 16).filter (fun t => t ≠ 0 && bit (s.fld LDP_CODING_MASK m) t), fun t => bit (s.fld LDP_CODING_POLARITY m) t)

/-- The page type whose thresholds take their turns: SLC reads have one of their own. -/
def turnOf (l : Lun) (op : FlashOp) : Nat := if bit op.flags 4 then 4 else pageType l op

/-- Dither of a READ at its start (R166): threshold and sign, with the LUN after the assignment. A PATROL read of an ACTIVE group is dithered
whatever the group's iteration average is (log entry 185). -/
def State.ditherOf (s : State) (l : Lun) (op : FlashOp) : Option (Nat × Bool) × Lun :=
  let g := l.group op.group
  let th := (s.coding (bit op.flags 4) (pageType l op)).1
  let able := op.op = 1 && s.flag LDP_TRACK_CFG_DITHER_EN && g.active && !g.suspended && !th.isEmpty
    && (bit op.flags 2 || decide (g.iterAvg ≤ (s.fld LDP_TRACK_LIM_ITER_DITHER_MAX * 256 : Nat))) && !bit op.flags 3
    && !(s.flag LDP_TRACK_CFG_BG_ONLY && !bit op.flags 0)
  if !able then (none, l)
  else
    let n := l.sinceDither + 1
    if bit op.flags 2 ∨ 2 ^ s.fld LDP_TRACK_CFG_DITHER_RATIO ≤ n then
      let m := turnOf l op
      let turn := Tab.lookD g.turns m 0
      let t := th.getD (turn % th.length) 1
      let x := g.th t
      let g' := { g with turns := Tab.put g.turns m ((turn + 1) % th.length), thr := Tab.put g.thr t { x with plus := !x.plus } }
      (some (t, x.plus), { l with sinceDither := if bit op.flags 2 then l.sinceDither else 0, groups := Tab.put l.groups op.group g' })
    else (none, { l with sinceDither := n })

/-- The bus rate of a code of Table 5.3 in MT/s, which on an 8-bit bus is MB/s. -/
def busRate : Nat → Nat
  | 1 => 800
  | 2 => 1200
  | 3 => 1600
  | 4 => 2400
  | 5 => 3200
  | 6 => 3600
  | 7 => 4000
  | 8 => 4400
  | 9 => 4800
  | _ => 800

/-- Parity bytes of a code of Table 5.14. -/
def parityBytes : Nat → Nat
  | 0 => 256
  | 1 => 384
  | 2 => 448
  | _ => 512

/-- The frame code in use for dies with that many spare bytes (R158): the highest at or below CODE_MAX that fits; none when none does. -/
def State.frameCode (s : State) (spare : Nat) : Option Nat :=
  ((List.range (s.fld LDP_CODE_CODE_MAX + 1)).filter (fun c => decide (4 * parityBytes c ≤ spare))).getLast?

/-- Bus time of some frames at a channel's rate, in nanoseconds. -/
def State.busNs (s : State) (n : Nat) (l : Lun) (frames : Nat) : Nat :=
  frames * (4096 + parityBytes ((s.frameCode l.spareBytes).getD 3)) * 1000 / busRate (s.fld (FCH_STAT_RATE.chan n))

/-- Array time of an operation, in nanoseconds: the die's typical time for it (R154). A SWEEP makes nine reads of each threshold (R170). -/
def State.arrayNs (s : State) (l : Lun) (op : FlashOp) : Nat :=
  match op.op with
  | 1 => l.tR * 1000
  | 2 => l.tProg * 1000
  | 3 => l.tBers * 10000
  | 4 => 9 * (s.coding (bit op.flags 4) op.frames).1.length * l.tR * 1000
  | _ => 0

/-- Frames an operation moves over the bus: a SWEEP's reads take 3 µs each, which `opCharge` adds itself (R170). -/
def Lun.busFrames (l : Lun) (op : FlashOp) : Nat :=
  match op.op with
  | 1 => ((List.range 4).filter (fun f => bit op.frames f)).length
  | 2 => 4 * l.wordline (bit op.flags 4) * max 1 op.planeCount
  | _ => 0

/-- An operation's bus time plus its array time over the LUNs in use of the channel, charged to the background share (R151). -/
def State.opCharge (s : State) (i : Nat) (l : Lun) (op : FlashOp) : Nat :=
  let n := (s.flash.luns.filter (fun kv => kv.1 / 64 = i / 64 && kv.2.status = 1)).length
  s.busNs (i / 64) l (l.busFrames op) + (if op.op = 4 then 27000 * (s.coding (bit op.flags 4) op.frames).1.length else 0)
    + s.arrayNs l op / max 1 n

/-- The offsets a group's reads use, by threshold: zero for a FREE group (R164). -/
def Group.offsets (g : Group) : Tab Int := if g.active then Tab.mapVals (fun _ x => x.off) g.thr else []

/-- Offsets with d steps added to threshold t. -/
def addOff (o : Tab Int) (t : Nat) (d : Int) : Tab Int := Tab.put o t (Tab.lookD o t 0 + d)

/-- Start an operation on its LUN; a read takes its snapshot, and the LUN holds the offsets it is read at (R164). -/
def State.startOp (s : State) (i : Nat) (l : Lun) (op : FlashOp) : State :=
  let (d, l) := s.ditherOf l op
  let g := l.group op.group
  let op' := { op with gen := g.gen, offs := if op.isRead then g.offsets else [], dither := d, waitAt := none, reserved := false }
  let k : Int := s.fld LDP_TRACK_CFG_DITHER_STEPS
  let at_ := match d with | some (t, plus) => addOff op'.offs t (if plus then k else -k) | none => op'.offs
  let l := { l with queue := l.queue.erase op, running := some op', startedAt := s.time, ranNs := 0,
                    loaded := if op.isRead then at_ else l.loaded, suspCount := if op.op = 3 then 0 else l.suspCount }
  let s := s.putLun i l
  let s := s.modFlash (fun f => { f with reserve := Tab.upd f.reserve (i / 128) (fun r => r.filter (fun j => j ≠ i)),
                                         gateLast := Tab.put f.gateLast (i / 128) i })
  if s.isBg i op then s.bgCharge 0 (i / 64) (s.opCharge i l op) else s

/-- A foreground READ may suspend the erase that runs on its LUN (R153). -/
def State.trySuspend (s : State) (i : Nat) : State :=
  match s.lun i with
  | none => s
  | some l =>
    match l.running with
    | some o =>
      let n := i / 64
      if o.op = 3 ∧ l.queue.any (fun q => q.op = 1 && !s.isBg i q) ∧ s.flag (FCH_SCHED_SUSPEND_EN.chan n)
          ∧ l.startedAt + s.fld (FCH_SCHED_SUSP_MIN.chan n) * 10000 ≤ s.time
          ∧ l.suspCount < s.fld (FCH_SCHED_SUSP_MAX.chan n) ∧ l.suspended.isNone ∧ !s.flash.flushMode then
        s.putLun i { l with running := none, suspended := some o, suspCount := l.suspCount + 1, suspAt := s.time,
                            ranNs := l.ranNs + (s.time - l.startedAt) }
      else s
    | none => s

/-- An operation that does not fit the budget begins to wait (R157). -/
def State.waitFrom (s : State) (i : Nat) (l : Lun) (op : FlashOp) : State :=
  if op.waitAt.isSome then s
  else s.putLun i { l with queue := l.queue.map (fun o => if o = op then { o with waitAt := some s.time } else o) }

/-- Let an idle LUN start its next operation if the checks and the gate allow; operations refused on the way end (R151). -/
def State.lunStart (s : State) (i : Nat) : Nat → State
  | 0 => s
  | n + 1 =>
    let s := s.trySuspend i
    match s.lun i with
    | none => s
    | some l =>
      if l.status ≠ 1 then s
      else if l.running.isSome ∨ l.resetting.isSome then s.bgNote 0 (i / 64) (l.queue.any (fun o => s.isBg i o))
      else
        match s.nextOp i l with
        | none => s.bgNote 0 (i / 64) (l.queue.any (fun o => s.isBg i o))
        | some op =>
          let drop := fun (s : State) => s.putLun i { l with queue := l.queue.erase op }
          let bad := if op.op = 2 then s.programBad op i (s.blk i op.block).wp else if op.op = 3 then s.eraseBad i op.block else none
          match bad with
          | some c => ((drop s).opRefused i op c).lunStart i n
          | none =>
            if s.fld PWR_FPG_CFG_BUDGET (i / 128) < op.cost then
              (((drop s).raise (225 + 4 * (i / 64)) 5 [i % 64, op.block]).opEnd i op 0x15 0 0 0).lunStart i n
            else if s.credit i op.cost then s.startOp i l op
            else s.waitFrom i l op

/-- The LUNs of a group in the order of the gate's mutual-exclusion element (R51, R156): the rotation goes on past the LUN granted last. -/
def State.gateOrder (s : State) (g : Nat) : List Nat :=
  let last := Tab.lookD s.flash.gateLast g 0
  let ls := s.groupLuns g
  ls.filter (fun i => last < i) ++ ls.filter (fun i => i ≤ last)

/-- Let every LUN of a flash power group start what it can, the holder of the reservation first, the others in rotation. -/
def State.groupStart (s : State) (g : Nat) : State :=
  let first := Tab.lookD s.flash.reserve g []
  (first ++ s.gateOrder g).foldl (fun s i => s.lunStart i 33) s

/-- Put an operation into its LUN's queue and let the LUN start what it can. -/
def State.enqueue (s : State) (i : Nat) (op : FlashOp) : State :=
  match s.lun i with
  | none => s
  | some l =>
    let s := s.putLun i { l with queue := l.queue ++ [op] }
    s.lunStart i 33

/-! ### Submission (R149, R150) -/

/-- The operation a descriptor's bytes describe. -/
def opOfBytes (r : Req) (addr now : Nat) (d : List Byte) : FlashOp :=
  { addr := addr, master := r.master, pod := r.pod, op := leAt d 0 1, flags := leAt d 1 1, group := leAt d 3 1,
    block := leAt d 4 4, page := leAt d 8 2, frames := leAt d 10 1, planes := leAt d 11 1, bufAddr := leAt d 16 8,
    dest := leAt d 24 1, evFlag := leAt d 28 4, tag := slice d 32 16, at_ := now, cost := 0, gen := 0, offs := [],
    dither := none, waitAt := none, reserved := false, job := 0 }

/-- Whether a descriptor's fields are out of range (Table 5.8, MALFORMED), apart from those that need the LUN. -/
def descMalformed (d : List Byte) : Bool :=
  let f := leAt d
  f 0 1 = 0 || 6 < f 0 1 || bit (f 1 1) 7 || 63 < f 2 1 || ((f 0 1 = 1 || f 0 1 = 4) && 31 < f 3 1)
    || f 12 4 ≠ 0 || f 25 3 ≠ 0 || 1 < f 24 1 || f 48 2 ≠ 0 || (f 0 1 = 1 && (f 10 1 = 0 || 15 < f 10 1))
    || (f 0 1 = 4 && 3 < f 10 1) || (f 0 1 ≤ 4 && f 11 1 = 0)

/-- Whether an operation names a block, page or plane its LUN does not have. -/
def opOutside (l : Lun) (op : FlashOp) : Bool :=
  op.op ≤ 4 && (l.blocks ≤ op.block || (if bit op.flags 4 then l.slcPages else l.pages) ≤ op.page || 2 ^ l.planes ≤ op.planes)

/-- A descriptor is submitted on channel n (R150): queued on its LUN, or completed at once. -/
def State.submitFlash (s : State) (r : Req) (n addr : Nat) : State :=
  match s.load ⟨if n < Config.fchCount s.part then 0x70 + n else 0x54, 0⟩ addr 64 with
  | (.ok, d, s) =>
    let op := opOfBytes r addr s.time d
    -- TARGET names CE in bits 2:0 and LUN in bits 5:3, the die number is 8 × CE + LUN (Table 5.7, R140)
    let i := 64 * n + 8 * (leAt d 2 1 % 8) + leAt d 2 1 / 8 % 8
    let end_ := fun (s : State) st => s.opEnd i op st 0 0 0
    if Config.fchCount s.part ≤ n then end_ s 0x20
    else if descMalformed d then end_ s 0x17
    else if !s.lunServes i then end_ s 0x14
    else
      match s.lun i with
      | none => end_ s 0x14
      | some l =>
        if opOutside l op then end_ s 0x17
        else if 32 ≤ l.queue.length then end_ s 0x16
        else
          let op := { op with cost := s.opCost op.op op.planeCount }
          let bad := if op.op = 2 then s.programBad op i (s.wpAfter i op.block)
                     else if op.op = 3 then s.eraseBad i op.block else none
          match bad with
          | some c => s.opRefused i op c
          | none => s.enqueue i op
  -- a descriptor that cannot be read completes nothing: there is nowhere to write a status (log entry 43)
  | (_, _, s) => s

/-- The register write that submits (R149); on an absent channel, after the access check (R9), the descriptor completes with UNIT_ABSENT
(R11). -/
def State.submitOp (s : State) (r : Req) (n addr : Nat) : State :=
  if Config.fchCount s.part ≤ n ∧ n < 32 then
    let key := (FCH_SUBMIT_HI.chan n).key 0 0
    match s.gateReg r key true with
    | .quiet => if s.issues r then (s.submitFlash r n addr).atRegW r key id else s
    | _ => s.atRegW r key id
  else if n < 32 then s.atRegW r ((FCH_SUBMIT_HI.chan n).key 0 0) (fun s => s.submitFlash r n addr)
  else s

end Sys2Proof.Machine
end

