-- ==== Sys2Proof/Machine/Ftl.lean ====
section
/-!
DEFINITION. The translation layer's operations (chapter 6): the map, the delta log and journal, superblocks, lanes and
frames, retirement, capacity and spares, and placement of extents.
-/
namespace Sys2Proof.Machine

/-! ### Namespaces and units (R174, R328, R332) -/

/-- Bytes of an LBA by format (Table 10.16). -/
def lbaBytes (fmt : Nat) : Nat := if fmt < 3 then 512 else 4096

/-- Metadata bytes of an LBA by format. -/
def mdBytes (fmt : Nat) : Nat := [0, 8, 64, 0, 8, 64].getD fmt 0

/-- Bytes of a map unit of a namespace. -/
def Ns.unit (n : Ns) : Nat := if n.coarse then 16384 else 4096

/-- LBAs of a map unit. -/
def Ns.perUnit (n : Ns) : Nat := n.unit / lbaBytes n.format

/-- Data units whose metadata one metadata unit holds (R332); 0 for a namespace without metadata. -/
def Ns.mdGroup (n : Ns) : Nat := if mdBytes n.format = 0 then 0 else 4096 / (mdBytes n.format * n.perUnit)

/-- Data map units of a namespace. -/
def Ns.units (n : Ns) : Nat := ceilDiv n.size n.perUnit

/-- Map entries of a namespace: its data units and its metadata units (R332), or one for each stripe of a spread one (R466). -/
def Ns.entries (n : Ns) : Nat :=
  if n.hold ≠ 0 then ceilDiv n.units n.hold else n.units + (if n.mdGroup = 0 then 0 else ceilDiv n.units n.mdGroup)

/-- The namespace of an identifier. -/
def State.nsOf (s : State) (nsid : Nat) : Option Ns := Tab.look s.host.ns nsid

/-- The logical address of a data unit (Table 6.3). -/
def laddrOf (nsid u : Nat) : Nat := (nsid - 1) * 2 ^ 40 + u

/-- The logical address of a metadata unit (R332). -/
def mdLaddr (nsid v : Nat) : Nat := (nsid - 1) * 2 ^ 40 + 2 ^ 39 + v

/-- The namespace identifier of a logical address. -/
def nsidOf (laddr : Nat) : Nat := laddr / 2 ^ 40 + 1

/-- Bytes of the unit at a logical address; metadata units are fine. -/
def State.unitBytes (s : State) (laddr : Nat) : Nat :=
  if bit laddr 39 then 4096 else ((s.nsOf (nsidOf laddr)).map Ns.unit).getD 4096

/-! ### Map entries (Table 6.1) -/

/-- The entry of a unit. -/
def State.mapEntry (s : State) (laddr : Nat) : Nat := Tab.lookD s.ftl.map laddr 0

/-- A map with an entry set; a deallocated unit is not listed. -/
def mapSet (m : Tab Nat) (laddr e : Nat) : Tab Nat := if e = 0 then Tab.del m laddr else Tab.put m laddr e

/-- The entry VALID and ZERO (R175). -/
def entryZero : Nat := 2 ^ 4 + 2 ^ 2

/-- An entry with UNREC set (R174). -/
def entryUnrec : Nat := 2 ^ 1

/-- The map entry of an extent. -/
def entryOf (lun block frame goff grains : Nat) (raw slc : Bool) : Nat :=
  lun * 2 ^ 53 + block * 2 ^ 33 + frame / 4 * 2 ^ 21 + frame % 4 * 2 ^ 19 + goff * 2 ^ 13 + (grains - 1) * 2 ^ 5 + 16
    + b2n raw * 8 + b2n slc

/-- The LUN of an entry. -/
def entryLun (e : Nat) : Nat := e / 2 ^ 53

/-- The block of an entry. -/
def entryBlock (e : Nat) : Nat := bits e 52 33

/-- The grains an entry's unit occupies: those of a stored extent, else none. -/
def entryGrains (e : Nat) : Nat := if bit e 4 ∧ !bit e 2 ∧ !bit e 1 then bits e 12 5 + 1 else 0

/-- The place an entry names: bits 63:13. -/
def entryPlace (e : Nat) : Nat := e / 2 ^ 13

/-- Valid grains of the device (R212). -/
def State.validGrains (s : State) : Nat := (s.ftl.map.map (fun kv => entryGrains kv.2)).sum

/-- Valid grains of a superblock. -/
def State.sbValid (s : State) (k : Nat) : Nat :=
  (s.ftl.map.map (fun kv =>
    if entryGrains kv.2 ≠ 0 ∧ sbOf (entryLun kv.2) (entryBlock kv.2) = k then entryGrains kv.2 else 0)).sum

/-! ### The delta log and journal (R193, R194) -/

/-- HORIZON (Table 6.9): the lowest sequence number placed whose record has not been made, else the next to be given. -/
def State.horizonNow (s : State) : Nat :=
  (s.ftl.wbuf.filter (fun w => w.step = 3)).foldl (fun a w => min a w.seq) (s.pair FTL_SEQ_LO FTL_SEQ_HI)

/-- The journal frames in DRAM that are not durable are counted in FTL_JNL_STAT.PENDING. -/
def State.countFrames (s : State) : State := s.setFld FTL_JNL_STAT_PENDING (min 65535 s.ftl.frames.length)

/-- Form a journal frame of the records that have none (R194). -/
def State.closeFrame (s : State) : State :=
  let f := s.ftl
  if f.delta.isEmpty then s
  else
    let j : JFrame := { jseq := f.jnext, horizon := s.horizonNow, recs := f.delta }
    (s.modFtl (fun f => { f with delta := [], deltaAt := none, frames := f.frames ++ [j], jnext := f.jnext + 1 })).countFrames

/-- Append a delta record; 254 records fill a frame (R193, R194). -/
def State.append (s : State) (kind laddr value : Nat) : State :=
  let s := s.modFtl (fun f => { f with
    delta := f.delta ++ [⟨kind, laddr, value⟩], deltaAt := some (f.deltaAt.getD s.time), recCount := f.recCount + 1 })
  if 254 ≤ s.ftl.delta.length then s.closeFrame else s

/-- The map after a record: records set absolute values (R193). -/
def applyDelta (m : Tab Nat) (d : Delta) : Tab Nat :=
  let slot := bits d.laddr 52 40
  let u := d.laddr % 2 ^ 40
  let inRun := fun (k n : Nat) => k / 2 ^ 40 = slot && u ≤ k % 2 ^ 40 && k % 2 ^ 40 < u + n
  match d.kind with
  | 0 => mapSet m d.laddr d.value
  | 1 => mapSet m d.laddr d.value
  | 2 => Tab.keep (fun k _ => !inRun k d.value) m
  | 3 => (List.range d.value).foldl (fun m i => mapSet m (d.laddr + i) entryZero) m
  | 4 => mapSet m d.laddr d.value
  | 7 => if d.value % 2 ^ 16 = 1 then m else Tab.keep (fun k _ => k / 2 ^ 40 ≠ slot) m
  | _ => m

/-- The superblocks of which a record releases grains. -/
def State.releasedBy (s : State) (kind laddr value : Nat) : List Nat :=
  let slot := laddr / 2 ^ 40
  let u := laddr % 2 ^ 40
  let hit := fun (k : Nat) =>
    if kind = 2 ∨ kind = 3 then k / 2 ^ 40 = slot && u ≤ k % 2 ^ 40 && k % 2 ^ 40 < u + value
    else if kind = 7 then value % 2 ^ 16 ≠ 1 && k / 2 ^ 40 = slot
    else k = laddr
  podsOf ((s.ftl.map.filter (fun kv => hit kv.1 && entryGrains kv.2 ≠ 0)).map (fun kv => sbOf (entryLun kv.2) (entryBlock kv.2)))

/-- A record is made: the map in DRAM and the delta log take it (R193), and superblocks note what it released (R204). -/
def State.record (s : State) (kind laddr value : Nat) : State :=
  let rel := s.releasedBy kind laddr value
  let s := (s.modFtl (fun f => { f with map := applyDelta f.map ⟨kind, laddr, value⟩ })).append kind laddr value
  s.modFtl (fun f => { f with sbs := rel.foldl (fun t k => Tab.upd t k (fun b => { b with relNo := f.recCount })) f.sbs })

/-- Bytes of delta records not yet durable (R197). -/
def State.dirtyMap (s : State) : Nat := 16 * (s.ftl.recCount - s.ftl.recDurable)

/-- Bytes of write-buffer entries not yet released (R197), those of data that have arrived uncommitted included (R327). -/
def State.dirtyBuf (s : State) : Nat :=
  (s.ftl.wbuf.map (fun w => s.unitBytes w.laddr)).sum
    + (s.host.out.map (fun o => if o.arrived then o.bytes else 0)).sum

/-- FTL_DIRTY_NOW (Table 6.16's layout, rounded up to MiB). -/
def State.dirtyNow (s : State) : Nat :=
  ceilDiv s.dirtyBuf (2 ^ 20) % 2 ^ 16 * 2 ^ 16 + ceilDiv s.dirtyMap (2 ^ 20) % 2 ^ 10

/-- Whether the device runs in HOLD_UP durability (R196). -/
def State.holdUp (s : State) : Bool := s.flag FTL_DUR_MODE

/-- Write-buffer entries whose program and records are durable are released at step 8. -/
def State.releaseDurable (s : State) : State :=
  s.modFtl (fun f => { f with wbuf := f.wbuf.filter (fun w => !(w.step = 4 && w.recNo ≤ f.recDurable)) })

/-! ### Capacity, spares, retirement (R208-R214) -/

/-- Blocks retired in use since first format. -/
def State.retiredCount (s : State) : Nat := (s.nv.badTable.filter (fun e => bits e 32 30 ≠ 1)).length

/-- Available Spare in percent (R213). -/
def State.availSpare (s : State) : Nat :=
  if s.ftl.s0 = 0 then 100 else min 100 (100 * (s.ftl.s0 - s.retiredCount) / s.ftl.s0)

/-- Percentage Used (R213): the mean count of the native blocks over the rated endurance. -/
def State.percentUsed (s : State) : Nat :=
  let ls := s.flash.luns.filter (fun kv => kv.2.status = 1)
  let total := (ls.map (fun kv => kv.2.blocks * kv.2.endurance * 100)).sum
  let pes := (s.ftl.blocks.map (fun kv => kv.2.pe)).sum
  if total = 0 then 0 else min 255 (100 * pes / total)

/-- Spare and wear are looked at again: warnings and read-only mode (R213, R214). -/
def State.spareCheck (s : State) : State :=
  let a := s.availSpare
  let u := s.percentUsed
  let s := (s.setFld FTL_SPARE_STAT_AVAIL_PCT a).setFld FTL_SPARE_STAT_USED_PCT u
  let s := if 100 ≤ u ∧ !s.ftl.usedWarned then (s.modFtl (fun f => { f with usedWarned := true })).raise 360 2 [0] else s
  let s :=
    if s.ftl.s0 ≠ 0 ∧ a < s.fld FTL_SPACE_CFG_SPARE_WARN ∧ !s.ftl.spareWarned then
      (s.modFtl (fun f => { f with spareWarned := true })).raise 357 2 [a]
    else s
  if !s.ftl.readOnly ∧ ((s.ftl.s0 ≠ 0 ∧ a < s.fld FTL_SPACE_CFG_SPARE_RO) ∨ 524288 ≤ s.nv.badTable.length) then
    ((s.modFtl (fun f => { f with readOnly := true })).setFld FTL_STAT_STATE 5).raise 357 3 [a]
  else s

/-- A block is retired (R210): it enters the bad-block table and the RETIRED pool. -/
def State.retire (s : State) (i b cause : Nat) : State :=
  let e := i * 2 ^ 53 + b * 2 ^ 33 + cause * 2 ^ 30 + s.time / 3600000000000 % 2 ^ 30
  let s := if s.nv.badTable.length < 524288 then { s with nv := { s.nv with badTable := s.nv.badTable ++ [e] } } else s
  let s := (s.putBlk i b { s.blk i b with pool := 6 }).countS FTL_ERR_STAT_RETIRED FTL_ERR_STAT_OVF 1
  let s :=
    if 498074 ≤ s.nv.badTable.length ∧ !s.ftl.badWarned then
      (s.modFtl (fun f => { f with badWarned := true })).raise 356 3 [i, b]
    else s
  s.spareCheck

/-- A superblock joins the priority list unless it is open or already there (R202). -/
def State.addVictim (s : State) (k reason : Nat) : State :=
  let open_ := match Tab.look s.ftl.sbs k with | some b => b.state = 0 | none => true
  if open_ = true ∨ s.ftl.victims.any (fun v => v.1 = k) then s
  else s.modFtl (fun f => { f with victims := f.victims ++ [(k, reason)] })

/-! ### Superblocks (R185, R201, R207) -/

/-- LUNs in use of a stripe set. -/
def State.setLuns (s : State) (set : Nat) : List Nat := s.lunsInUse.filter (fun i => i % 64 = set)

/-- The lanes that superblock k of a stripe set has: LUNs whose block k is of a pool the FTL uses for data. -/
def State.sbLanes (s : State) (set k : Nat) : List Nat :=
  (s.setLuns set).filter (fun i => (s.blk i k).pool ≤ 2 && !(s.blk i k).torn)

/-- Blocks per LUN. -/
def State.lunBlocks (s : State) : Nat :=
  match s.flash.luns.find? (fun kv => kv.2.status = 1) with | some kv => kv.2.blocks | none => 0

/-- The usable superblocks of a stripe set. -/
def State.usableSbs (s : State) (set : Nat) : List Nat :=
  (List.range s.lunBlocks).filter (fun k => decide (8 ≤ (s.sbLanes set k).length))

/-- The FREE superblocks of a stripe set. -/
def State.freeSbs (s : State) (set : Nat) : List Nat :=
  (s.usableSbs set).filter (fun k => !Tab.has s.ftl.sbs (2 ^ 14 * set + k))

/-- Free superblocks of a stripe set in permille of its usable ones. -/
def State.freePm (s : State) (set : Nat) : Nat :=
  let u := (s.usableSbs set).length
  if u = 0 then 1000 else (s.freeSbs set).length * 1000 / u

/-- Stripe sets with LUNs in use. -/
def State.sets (s : State) : List Nat := podsOf (s.lunsInUse.map (fun i => i % 64))

/-- Whether a superblock of a stripe set is a victim by age or by a group on the REFRESH list (R202, 2). -/
def State.aged (s : State) (k : Nat) (b : SuperBlock) : Bool :=
  decide (b.openedAt + s.fld FTL_GC_CTRL_RETAIN_DAYS * 86400000000000 < s.time)
    || b.lanes.any (fun i => s.flash.advise.contains (i, (s.blk i (k % 2 ^ 14)).group, 3))

/-- Grains of a superblock's data frames: every row but the last page's holds one parity frame (R186, R188). -/
def State.sbGrains (s : State) (b : SuperBlock) : Nat :=
  let l := (b.lanes.head?).bind (fun i => s.lun i)
  let pages := (l.map (fun l => if b.slc then l.slcPages else l.pages)).getD 1
  256 * (pages - 1) * (b.lanes.length - 1)

/-- (1 − v) × (a + 1) / (1 + v) of R202 as a fraction, a in device time. -/
def State.costBenefit (s : State) (k : Nat) (b : SuperBlock) : Nat × Nat :=
  let d := s.sbGrains b
  let v := s.sbValid k
  ((d - v) * (s.time - b.closedAt + 3600000000000), d + v)

/-- The victim R202 chooses in a stripe set, ties going to the lowest index. An SLC buffer superblock is folded, oldest first, while folding
runs, after the priority list and the aged ones (log entry 191). -/
def State.chooseVictim (s : State) (set : Nat) : Option Nat :=
  let closed := s.ftl.sbs.filter (fun kv => kv.1 / 2 ^ 14 = set && kv.2.state = 1)
  let keys := closed.map (fun kv => kv.1)
  let slc := closed.filter (fun kv => kv.2.slc)
  let native := closed.filter (fun kv => !kv.2.slc)
  let least := fun (l : List (Nat × SuperBlock)) (f : Nat × SuperBlock → Nat) =>
    (l.foldl (fun (a : Option (Nat × SuperBlock)) x => match a with | none => some x | some y => if f x < f y then some x else a) none).map Prod.fst
  match (s.ftl.victims.find? (fun v => keys.contains v.1)).map Prod.fst with
  | some k => some k
  | none =>
    match (closed.find? (fun kv => s.aged kv.1 kv.2)).map Prod.fst with
    | some k => some k
    | none =>
      if s.ftl.folding ≠ 0 ∧ !slc.isEmpty then least slc (fun kv => kv.2.openNo)
      else if s.ftl.urgent.contains set then least native (fun kv => s.sbValid kv.1)
      else if s.ftl.gc.contains set then
        (native.foldl (fun (a : Option (Nat × Nat × Nat)) kv =>
          let (n, d) := s.costBenefit kv.1 kv.2
          match a with
          | none => some (kv.1, n, d)
          | some (_, n', d') => if n' * d < n * d' then some (kv.1, n, d) else a) none).map Prod.fst
      else none

/-- A stripe set keeps its victim until that superblock is no longer CLOSED, and then chooses the next. -/
def State.gcPick (s : State) (set : Nat) : State :=
  let now := (Tab.look s.ftl.victim set).filter (fun k => ((Tab.look s.ftl.sbs k).map (fun b => b.state == 1)).getD false)
  match (match now with | some k => some k | none => s.chooseVictim set) with
  | some k => s.modFtl (fun f => { f with victim := Tab.put f.victim set k })
  | none => s.modFtl (fun f => { f with victim := Tab.del f.victim set })

/-- Garbage collection of a stripe set starts below FREE_LOW and stops at FREE_HIGH (R201). -/
def State.gcRun (s : State) (set f : Nat) : State :=
  let on := if s.ftl.gc.contains set then decide (f < s.fld FTL_GC_CTRL_FREE_HIGH) else decide (f < s.fld FTL_GC_CTRL_FREE_LOW)
  let rest := s.ftl.gc.filter (fun t => t ≠ set)
  (s.modFtl (fun x => { x with gc := if on then rest ++ [set] else rest })).gcPick set

/-- A stripe set's urgency is looked at again (R201). -/
def State.urgency (s : State) (set : Nat) : State :=
  let f := s.freePm set
  let s := s.gcRun set f
  let s :=
    if s.ftl.urgent.contains set then
      (if s.fld FTL_GC_CTRL_FREE_LOW ≤ f then
        (s.modFtl (fun x => { x with urgent := x.urgent.filter (fun y => y ≠ set) })).raise 354 2 [set]
       else s)
    else if f < s.fld FTL_GC_CTRL_FREE_URGENT then
      ((s.modFtl (fun x => { x with urgent := x.urgent ++ [set], allow := Tab.put x.allow set 0 })).countS
        FTL_GC_STAT_URGENT_ENTRIES FTL_GC_STAT_OVF 1).raise 354 1 [set]
    else s
  let m := s.sets.foldl (fun a t => min a (s.freePm t)) 255
  (s.setFld FTL_GC_STAT_FREE_MIN m).setFld FTL_GC_STAT_URGENT_SETS (min 255 s.ftl.urgent.length)

/-- The element of a list with the least cost, the first among equals. -/
def leastBy (f : Nat → Nat) (l : List Nat) : Option Nat :=
  l.foldl (fun (a : Option Nat) x =>
    match a with
    | none => some x
    | some y => if f x < f y then some x else a) none

/-- Lowest program/erase count of a stripe set's usable blocks. -/
def State.setLowPe (s : State) (set : Nat) : Nat :=
  (s.usableSbs set).foldl (fun a k => (s.sbLanes set k).foldl (fun a i => min a (s.blk i k).pe) a) (2 ^ 32)

/-- Mean count of a superblock's blocks, times 1,024. -/
def State.sbMeanPe (s : State) (set k : Nat) : Nat :=
  let ls := s.sbLanes set k
  (ls.map (fun i => (s.blk i k).pe)).sum * 1024 / max 1 ls.length

/-- The free superblock taken next for host extents (R205, R207): stripe set and index. -/
def State.pickSb (s : State) : Option (Nat × Nat) :=
  let has := s.sets.filter (fun t => !(s.freeSbs t).isEmpty)
  let calm := has.filter (fun t => !s.ftl.urgent.contains t)
  let from_ := if calm.isEmpty then has.filter (fun t => Tab.lookD s.ftl.allow t 0 ≠ 0) else calm
  match leastBy s.setLowPe from_ with
  | none => none
  | some t => (leastBy (s.sbMeanPe t) (s.freeSbs t)).map (fun k => (t, k))

/-- A FREE superblock is opened: its blocks take their pool and group (R185, R189, R190). -/
def State.enterSb (s : State) (set k : Nat) (slc : Bool) : State :=
  let ls := s.sbLanes set k
  let key := 2 ^ 14 * set + k
  let sb : SuperBlock :=
    { state := 0, slc := slc, lanes := ls, retired := [], openSeq := s.pair FTL_SEQ_LO FTL_SEQ_HI, openedAt := s.time, closedAt := 0,
      erased := [], reclaimNo := 0, relNo := 0, openNo := s.ftl.sbCount + 1 }
  let s := s.modFtl (fun f => { f with sbs := Tab.put f.sbs key sb, sbCount := f.sbCount + 1 })
  ls.foldl (fun (s : State) i =>
    match s.lun i with
    | none => s
    | some l => s.putBlk i k { s.blk i k with
        pool := if slc then 2 else 1
        group := if slc then 1 else l.natives.getLast?.getD 4 }) s

/-- The SB_OPEN record of a superblock (Table 6.8). -/
def State.sbOpened (s : State) (set k : Nat) : State :=
  (s.append 5 (s.pair FTL_SEQ_LO FTL_SEQ_HI % 2 ^ 40) (set * 2 ^ 58 + k * 2 ^ 44)).urgency set

/-- Open a superblock with host lanes (R179, R185). -/
def State.openSb (s : State) (set k : Nat) (slc : Bool) : State :=
  let ls := s.sbLanes set k
  let key := 2 ^ 14 * set + k
  let s := (s.enterSb set k slc).modFtl (fun f => { f with
    allow := if f.urgent.contains set then Tab.put f.allow set (Tab.lookD f.allow set 0 - 1) else f.allow })
  let s := (List.range ls.length).foldl (fun s j =>
    let i := ls.getD j 0
    match s.lun i with
    | none => s
    | some l =>
      let pages := if slc then l.slcPages else l.pages
      let lane : Lane :=
        { sb := key, slc := slc, idx := j, width := ls.length, wl := 4 * l.wordline slc, dataFrames := 4 * (pages - 1),
          base := 0, sealed := 0, cont := 0, recs := [], curAt := none, placed := [], lastSeq := 0, heads := [],
          toProgram := [], closed := false }
      s.modFtl (fun f => { f with lanes := Tab.put f.lanes i lane })) s
  s.sbOpened set k

/-- A PROGRAM that a descriptor asks of a FREE block in native mode opens the block's superblock for moved data (R189, R203, log entry 191). -/
def State.gcOpen (s : State) (i b : Nat) : State :=
  if (s.blk i b).pool ≠ 0 ∨ Tab.has s.ftl.sbs (sbOf i b) then s else (s.enterSb (i % 64) b false).sbOpened (i % 64) b

/-! ### Lanes and frames (R179-R181, R186, R188) -/

/-- Header grains of a frame with n records (R180). -/
def headerGrains (n : Nat) : Nat := ceilDiv (16 + 24 * n) 64

/-- The open frame's index in its block. -/
def Lane.frame (l : Lane) : Nat := l.base + l.sealed

/-- Whether a frame of a lane holds the parity of its stripe row (R186). -/
def Lane.parity (l : Lane) (f : Nat) : Bool := f % l.width = l.idx

/-- Grains taken by the extents of the open frame. -/
def Lane.used (l : Lane) : Nat := l.cont + (l.recs.map (fun r => r.1.grains)).sum

/-- Whether an extent that leaves the open frame with rem grains can continue in the frames behind it (R179). -/
def Lane.canContinue (l : Lane) (rem : Nat) : Bool :=
  (List.range (ceilDiv rem 63)).all (fun j =>
    let f := l.frame + 1 + j
    f < l.dataFrames && !l.parity f)

/-- One more frame of the wordline is sealed; a whole wordline waits for its program. -/
def Lane.advance (l : Lane) : Lane :=
  let l := { l with sealed := l.sealed + 1 }
  if l.wl ≤ l.sealed then { l with toProgram := l.toProgram ++ [l.base], base := l.base + l.wl, sealed := 0 } else l

/-- Pass over parity frames; at the last page the summary frames close the block (R186, R188). -/
def Lane.settle (l : Lane) : Nat → Lane
  | 0 => l
  | n + 1 =>
    if l.closed then l
    else if l.dataFrames ≤ l.frame then { l.advance.advance.advance.advance with closed := true }
    else if l.parity l.frame then l.advance.settle n
    else l

/-- Grain offsets of the extents of a sealed frame, in record order. -/
def placedOf (f last : Nat) : Nat → List (Extent × Nat) → List Placed
  | _, [] => []
  | g, [r] => [⟨r.1, f, g, last, r.2⟩]
  | g, r :: rest => ⟨r.1, f, g, f, r.2⟩ :: placedOf f last (g + r.1.grains) rest

/-- Frames wholly taken by a continuing extent are sealed as they fill. -/
def Lane.carry (l : Lane) (now rem : Nat) : Nat → Lane
  | 0 => l
  | n + 1 =>
    if 63 ≤ rem then { l.advance with heads := l.heads ++ [(l.frame, 63)] }.carry now (rem - 63) n
    else { l with cont := rem, curAt := if rem = 0 then none else some now }

/-- Seal the open frame (R181); rem grains of its last extent continue behind it. -/
def Lane.seal (l : Lane) (now rem : Nat) : Lane :=
  let f := l.frame
  let p := placedOf f (f + ceilDiv rem 63) (headerGrains l.recs.length + l.cont) l.recs
  (({ l with recs := [], cont := 0, curAt := none, placed := l.placed ++ p, heads := l.heads ++ [(f, l.cont)] }.advance).carry now rem 6).settle 8

/-- Place an extent in the lane's open frame, or the next ones when it does not fit (R179, R180). -/
def Lane.put (l : Lane) (now : Nat) (e : Extent) (wb : Nat) : Nat → Option Lane
  | 0 => none
  | n + 1 =>
    if l.closed then none
    else
      let h := headerGrains (l.recs.length + 1)
      let at_ := some (l.curAt.getD now)
      if 46 ≤ l.recs.length ∨ 64 ≤ h + l.used then (l.seal now 0).put now e wb n
      else
        let free := 64 - h - l.used
        let l' := { l with recs := l.recs ++ [(e, wb)], curAt := at_, lastSeq := max l.lastSeq e.seq }
        if e.grains < free then some l'
        else if e.grains = free then some (l'.seal now 0)
        else if l.canContinue (e.grains - free) then some (l'.seal now (e.grains - free))
        else (l.seal now 0).put now e wb n

/-- Seal the open frame and, empty, the frames left of its wordline, so that it can be programmed (R181). -/
def Lane.sealWordline (l : Lane) (now : Nat) : Nat → Lane
  | 0 => l
  | n + 1 =>
    if l.closed ∨ (l.sealed = 0 ∧ l.recs.isEmpty ∧ l.cont = 0) then l
    else (l.seal now 0).sealWordline now n

/-- Seal the open frames of a lane empty up to a row, as long as they hold no data (R181). -/
def Lane.sealEmpty (l : Lane) (now row : Nat) : Nat → Lane
  | 0 => l
  | n + 1 =>
    if l.closed ∨ row < l.frame ∨ l.cont ≠ 0 ∨ !l.recs.isEmpty then l
    else (l.seal now 0).sealEmpty now row n

/-- Lanes of a superblock that are open. -/
def State.sbOpenLanes (s : State) (k : Nat) : List (Nat × Lane) := s.ftl.lanes.filter (fun kv => kv.2.sb = k)

/-- Whether the parity frames of a lane's wordline at frame b have every data frame of their rows sealed (R186). -/
def State.rowsSealed (s : State) (l : Lane) (b : Nat) : Bool :=
  (List.range l.wl).all (fun j =>
    !(l.parity (b + j) && b + j < l.dataFrames)
      || (s.sbOpenLanes l.sb).all (fun kv => kv.2.idx = l.idx || kv.2.closed || b + j < kv.2.frame))

/-- Queue the program of a lane's oldest sealed wordline when it may be programmed (R181, R186). -/
def State.laneProgram (s : State) (i : Nat) : State :=
  match Tab.look s.ftl.lanes i, s.lun i with
  | some l, some u =>
    (match l.toProgram with
     | [] => s
     | b :: _ =>
       let mine := fun (o : FlashOp) => o.addr = 0 && o.op = 2
       if (u.running.map mine).getD false ∨ u.queue.any mine ∨ 32 ≤ u.queue.length ∨ !s.rowsSealed l b then s
       else
         s.enqueue i
           { addr := 0, master := 0x54, pod := 0, op := 2, flags := b2n l.slc * 16, group := 0, block := l.sb % 2 ^ 14,
             page := b / 4, frames := 0, planes := 1, bufAddr := 0, dest := 0, evFlag := 0, tag := [], at_ := s.time,
             cost := s.opCost 2 1, gen := 0, offs := [], dither := none, waitAt := none, reserved := false, job := 0 })
  | _, _ => s

/-- The rows whose parity a sealed wordline of a superblock waits to program. -/
def State.rowsDue (s : State) (k : Nat) : List Nat :=
  (s.sbOpenLanes k).flatMap (fun kv =>
    match kv.2.toProgram with
    | [] => []
    | b :: _ => ((List.range kv.2.wl).map (fun j => b + j)).filter (fun f => kv.2.parity f && decide (f < kv.2.dataFrames)))

/-- Frames of a superblock that hold no data are sealed empty where a wordline that must be programmed holds the parity of their row
(R181, R186; DEDUCED, log entry 88). -/
def State.sealRows (s : State) (k : Nat) : State :=
  let row := (s.rowsDue k).foldl max 0
  if (s.rowsDue k).isEmpty then s
  else
    (s.sbOpenLanes k).foldl (fun s kv =>
      s.modFtl (fun f => { f with lanes := Tab.put f.lanes kv.1 (kv.2.sealEmpty s.time row 64) })) s

/-- Queue what the lanes of a superblock can program. -/
def State.sbProgram (s : State) (k : Nat) : State :=
  (s.sbOpenLanes k).foldl (fun s kv => s.laneProgram kv.1) s

/-! ### Placement (R184, R191, R232) -/

/-- A slot gets a new pair of 256-bit keys of the key engine's DRBG, under the current epoch (R134, R135). -/
def State.newKey (s : State) (slot : Nat) : State :=
  let (k, s) := s.generate true 64
  { s with nv := s.nv.putKey slot (leNat k) }

/-- Both DRBG instances are instantiated (R133). -/
def State.rngOk (s : State) : Bool := s.flag KEY_RNG_STAT_DRBG_OK

/-- Whether keys can be made (R133, R137). -/
def State.canMakeKeys (s : State) : Bool := s.rngOk && s.sgn.mediaRoot

/-- The key of a slot (R135, R138): none when the slot holds no record, when its record was wrapped under an earlier epoch or fails its check,
or when there is no media root to unwrap it with (R98). -/
def State.keyOf (s : State) (slot : Nat) : Option Nat :=
  match s.nv.keyRec slot with
  | some k => if k.epoch = s.nv.mediaEpoch ∧ k.intact ∧ s.sgn.mediaRoot then some k.key else none
  | none => none

/-- The SLC buffer's ceiling in superblocks (R191, Table 6.6). -/
def State.slcCeiling (s : State) : Nat :=
  let total := (s.sets.map (fun t => (s.usableSbs t).length)).sum
  let fill := match s.ftl.cap with | some c => if c = 0 then 1000 else s.validGrains * 1000 / c | none => 0
  let m := s.fld FTL_SLC_CFG_CEIL_MAX
  let k := if fill < 500 then 12 else if fill < 700 then 8 else if fill < 850 then 4 else if fill < 950 then 1 else 0
  total * m * k / 1200

/-- Superblocks the SLC buffer holds. -/
def State.slcHeld (s : State) : Nat := (s.ftl.sbs.filter (fun kv => kv.2.slc)).length

/-- The host lanes open in a mode that an extent may enter: a lane takes extents in ascending sequence-number order (R179). -/
def State.hostLanes (s : State) (slc : Bool) (seq : Nat) : List Nat :=
  (s.ftl.lanes.filter (fun kv => kv.2.slc == slc && !kv.2.closed && decide (kv.2.lastSeq < seq))).map (fun kv => kv.1)

/-- The lanes a host extent may enter now: those of stripe sets that are not urgent go first, and as long as one of those sets can open a
superblock no urgent one is used (R205). -/
def State.placeLanes (s : State) (slc : Bool) (seq : Nat) : List Nat :=
  let ls := s.hostLanes slc seq
  let calm := ls.filter (fun i => !s.ftl.urgent.contains (i % 64))
  if !calm.isEmpty then calm
  else if s.sets.any (fun t => !s.ftl.urgent.contains t && !(s.freeSbs t).isEmpty) then []
  else ls

/-- Change the write-buffer entry of an id. -/
def State.modWb (s : State) (id : Nat) (f : WEntry → WEntry) : State :=
  s.modFtl (fun x => { x with wbuf := x.wbuf.map (fun w => if w.id = id then f w else w) })

/-- Place one extent in some open lane of its mode (R179); which lane the spec leaves open: a free value. -/
def State.placeIn (s : State) (slc : Bool) (e : Extent) (wb : Nat) : Nat → Option State
  | 0 => none
  | n + 1 =>
    match s.placeLanes slc e.seq with
    | [] =>
      (match s.pickSb with
       | none => none
       | some (t, k) => (s.openSb t k slc).placeIn slc e wb n)
    | ls =>
      let (d, s) := s.draw ls.length
      let i := ls.getD d 0
      match Tab.look s.ftl.lanes i with
      | none => none
      | some l =>
        match l.put s.time e wb 16 with
        | some l' => some ((s.modFtl (fun f => { f with lanes := Tab.put f.lanes i l' })).sbProgram l.sb)
        | none =>
          ((s.modFtl (fun f => { f with lanes := Tab.put f.lanes i ((l.sealWordline s.time 64).settle 64) })).modFtl
            (fun f => { f with lanes := Tab.upd f.lanes i (fun x => { x with closed := true }) })).placeIn slc e wb n

/-- A unit that reads as zeros gets its entry without an extent (R224, step 1). -/
def State.placeZero (s : State) (w : WEntry) : State :=
  let s := if w.dead then s else s.record 3 w.laddr 1
  s.modWb w.id (fun x => { x with step := 4, recNo := s.ftl.recCount, resv := 0 })

/-- Place the unit of a write-buffer entry that has left its pipe (step 6 of Table 1.5). -/
def State.placeEntry (s : State) (w : WEntry) : State :=
  if w.grains = 0 then s.placeZero w
  else
    let slc := s.flag FTL_SLC_CFG_EN && s.slcHeld < s.slcCeiling
    let seq0 := s.pair FTL_SEQ_LO FTL_SEQ_HI
    let seq := if w.seq = 0 then seq0 else w.seq
    let e : Extent := ⟨seq, w.laddr, w.grains, w.raw, w.key, w.data, w.body⟩
    match s.placeIn slc e w.id 64 with
    | none => s
    | some s =>
      let s := if w.seq = 0 then s.putPair FTL_SEQ_LO FTL_SEQ_HI ((seq0 + 1) % 2 ^ 64) else s
      let s := s.countW FTL_HOST_GRAINS_LO FTL_HOST_GRAINS_HI w.grains
      s.modWb w.id (fun x => { x with step := 3, seq := seq })

/-- Place every unit that waits and that no earlier version of the same unit precedes (R232). -/
def State.placeAll (s : State) : State :=
  s.ftl.wbuf.foldl (fun s w =>
    match s.ftl.wbuf.find? (fun x => x.id = w.id) with
    | some w =>
      if w.step = 2 ∧ !s.ftl.wbuf.any (fun x => x.laddr = w.laddr && x.id < w.id && x.step < 3) then s.placeEntry w else s
    | none => s) s

/-! ### Programs of lanes end (steps 7 and 8 of Table 1.5, R208) -/

/-- An extent's program has succeeded: its entry is set and its record made, unless a later version's has been. -/
def State.extentDone (s : State) (i : Nat) (l : Lane) (p : Placed) : State :=
  let e := entryOf i (l.sb % 2 ^ 14) p.frame p.goff p.ext.grains p.ext.raw l.slc
  let old := s.mapEntry p.ext.laddr
  let newer : Bool := match Tab.look s.ftl.media (entryPlace old) with
    | some x => entryGrains old ≠ 0 && x.laddr = p.ext.laddr && p.ext.seq < x.seq
    | none => false
  let s := s.modFtl (fun f => { f with media := Tab.put f.media (entryPlace e) p.ext })
  let dead := s.ftl.wbuf.any (fun w => w.id = p.wb && w.dead)
  let s := if newer ∨ dead then s else s.record 0 p.ext.laddr e
  s.modWb p.wb (fun x => { x with step := 4, recNo := s.ftl.recCount, resv := 0 })

/-- A superblock whose last lane is done is CLOSED (Table 6.8). -/
def State.sbMaybeClosed (s : State) (k : Nat) : State :=
  if (s.sbOpenLanes k).isEmpty then
    match Tab.look s.ftl.sbs k with
    | some b =>
      if b.state = 0 then
        let s := s.modFtl (fun f => { f with sbs := Tab.put f.sbs k { b with state := 1, closedAt := s.time } })
        let s := s.append 6 (b.openSeq % 2 ^ 40) (k / 2 ^ 14 * 2 ^ 58 + k % 2 ^ 14 * 2 ^ 44 + 1)
        if b.retired.isEmpty then s else s.addVictim k 3
      else s
    | none => s
  else s

/-- A lane is retired from its superblock: the record of Table 6.8, and the superblock is a victim of reason 3 unless it is open (R208). -/
def State.sbRetire (s : State) (k i : Nat) : State :=
  match Tab.look s.ftl.sbs k with
  | none => s
  | some b =>
    if b.retired.contains i then s
    else
      let s := s.modFtl (fun f => { f with sbs := Tab.put f.sbs k { b with retired := b.retired ++ [i] } })
      let idx := (b.lanes.takeWhile (fun j => j ≠ i)).length
      (s.append 6 (b.openSeq % 2 ^ 40) (k / 2 ^ 14 * 2 ^ 58 + k % 2 ^ 14 * 2 ^ 44 + idx * 16 + 4)).addVictim k 3

/-- A superblock filled by descriptors alone is CLOSED once every block of it is full. -/
def State.gcFull (s : State) (i b : Nat) : State :=
  match Tab.look s.ftl.sbs (sbOf i b) with
  | some sb =>
    let full := sb.lanes.all (fun j => (s.blk j b).pool = 6 || decide (((s.lun j).map (fun l => l.pages)).getD 0 ≤ (s.blk j b).wp))
    if !sb.slc ∧ full then s.sbMaybeClosed (sbOf i b) else s
  | none => s

/-- A lane is retired from its superblock (R208): its extents not yet programmed are placed again, keeping their SEQ. -/
def State.laneDrop (s : State) (i : Nat) (l : Lane) : State :=
  let again := l.placed.map (fun p => p.wb) ++ l.recs.map (fun r => r.2)
  let s := again.foldl (fun s w => s.modWb w (fun x => { x with step := 2 })) s
  let s := (s.modFtl (fun f => { f with lanes := Tab.del f.lanes i })).sbRetire l.sb i
  ((s.sbMaybeClosed l.sb).sbProgram l.sb).placeAll

/-- Frames of a block have been programmed with their headers (R180). -/
def State.putHeads (s : State) (i b flags : Nat) (hs : List (Nat × Nat)) : State :=
  s.modFtl (fun f => { f with heads := hs.foldl (fun t h => Tab.put t (i * 2 ^ 34 + b * 2 ^ 14 + h.1) (flags, h.2)) f.heads })

/-- A wordline of a lane has been programmed, or has failed (R208). -/
def State.laneDone (s : State) (i block page : Nat) (ok : Bool) : State :=
  match Tab.look s.ftl.lanes i with
  | none => s
  | some l =>
    if l.sb % 2 ^ 14 ≠ block ∨ l.toProgram.head? ≠ some (4 * page) then s
    else if ok then
      let done := l.placed.filter (fun p => p.last < 4 * page + l.wl)
      let mine := fun (h : Nat × Nat) => decide (h.1 < 4 * page + l.wl)
      let l' := { l with
        toProgram := l.toProgram.drop 1, placed := l.placed.filter (fun p => !(p.last < 4 * page + l.wl))
        heads := l.heads.filter (fun h => !mine h) }
      let s := s.putHeads i block (b2n l.slc) (l.heads.filter mine)
      let s := s.modFtl (fun f => { f with
        lanes := if l'.closed ∧ l'.toProgram.isEmpty then Tab.del f.lanes i else Tab.put f.lanes i l' })
      let s := done.foldl (fun s p => s.extentDone i l p) s
      ((s.sbMaybeClosed l.sb).sbProgram l.sb).placeAll
    else ((s.retire i block 2).raise 356 1 [i, block]).laneDrop i l

/-- What has been placed is made durable without delay (R198): every lane seals its wordline and what its rows need, the lanes program, and
the records held form a frame. -/
def State.hurry (s : State) : State :=
  let open_ := s.ftl.lanes.filter (fun kv => kv.2.curAt.isSome || decide (kv.2.sealed ≠ 0))
  let s := open_.foldl (fun (s : State) kv =>
    s.modFtl (fun f => { f with lanes := Tab.put f.lanes kv.1 (kv.2.sealWordline s.time 64) })) s
  let ks : List Nat := podsOf (s.ftl.lanes.map (fun kv => kv.2.sb))
  (ks.foldl (fun (s : State) k => (s.sealRows k).sbProgram k) s).closeFrame

/-! ### Erases end, superblocks become reclaimable and free (R203, R204, R207) -/

/-- A closed superblock with no valid grain becomes RECLAIMABLE, once it may (R203, R204). -/
def State.reclaimIfEmpty (s : State) (k : Nat) : State :=
  match Tab.look s.ftl.sbs k with
  | some b =>
    if b.state = 1 ∧ s.sbValid k = 0 ∧ b.relNo ≤ s.ftl.recDurable then
      let s := s.append 6 (b.openSeq % 2 ^ 40) (k / 2 ^ 14 * 2 ^ 58 + k % 2 ^ 14 * 2 ^ 44 + 2)
      s.modFtl (fun f => { f with
        sbs := Tab.put f.sbs k { b with state := 2, reclaimNo := f.recCount, erased := [] },
        victims := f.victims.filter (fun v => v.1 ≠ k) }) |>.gcPick (k / 2 ^ 14)
    else s
  | none => s

/-- Every closed superblock that can becomes RECLAIMABLE. -/
def State.reclaimAll (s : State) : State :=
  (s.ftl.sbs.map (fun kv => kv.1)).foldl (fun s k => s.reclaimIfEmpty k) s

/-- A block has been erased (R189, R204, R207, R440). -/
def State.blockErased (s : State) (i b : Nat) : State :=
  let x := s.blk i b
  let k := sbOf i b
  let s := s.putBlk i b { x with wp := 0, pe := x.pe + 1, released := false, torn := false, pool := if x.pool = 4 ∨ x.pool = 5 ∨ x.pool = 6 then x.pool else 0 }
  let gone := fun (e : Nat) => e / 2 ^ 40 = i && e / 2 ^ 20 % 2 ^ 20 = b
  let old := s.ftl.media.filter (fun kv => gone kv.1 && kv.1 % 64 = 0)
  let own := fun (p : Nat) => p / 2 ^ 34 = i && p / 2 ^ 14 % 2 ^ 20 = b
  let s := s.modFtl (fun f => { f with
    media := Tab.keep (fun p _ => !gone p) f.media, heads := Tab.keep (fun p _ => !own p) f.heads
    jstore := Tab.keep (fun p _ => !own p) f.jstore })
  -- the last frame of FMF-5 media is gone (R221)
  let s := match old with
    | (_, x) :: _ =>
      if s.ftl.media.any (fun kv => kv.1 % 64 = 0) then s
      else ((s.modFtl (fun f => { f with legacy := false })).setFld FTL_STAT_LEGACY 0).raise 359 3 [nsidOf x.laddr]
    | [] => s
  match Tab.look s.ftl.sbs k with
  | none => s
  | some sb =>
    let er := if sb.erased.contains i then sb.erased else sb.erased ++ [i]
    let live := sb.lanes.filter (fun j => (s.blk j b).pool ≠ 6)
    if sb.state = 2 ∧ live.all (fun j => er.contains j) then
      let s := s.append 6 (sb.openSeq % 2 ^ 40) (k / 2 ^ 14 * 2 ^ 58 + b * 2 ^ 44 + 3)
      let set := k / 2 ^ 14
      let s := s.modFtl (fun f => { f with
        sbs := Tab.del f.sbs k, allow := Tab.put f.allow set (Tab.lookD f.allow set 0 + 1) })
      (s.urgency set).placeAll
    else s.modFtl (fun f => { f with sbs := Tab.put f.sbs k { sb with erased := er } })

/-- Whether folding of the SLC buffer runs is looked at again (R192): in the background above FOLD_START percent of the ceiling, in the
foreground above the ceiling. -/
def State.foldCheck (s : State) : State :=
  let c := s.slcCeiling
  let h := s.slcHeld
  let k := if c < h then 2 else if c * s.fld FTL_SLC_CFG_FOLD_START < h * 100 then 1 else 0
  s.modFtl (fun f => { f with folding := k })

/-- Static wear levelling after an erase (R207). -/
def State.wearCheck (s : State) (i : Nat) : State :=
  let pes := (List.range s.lunBlocks).map (fun b => (s.blk i b).pe)
  let hi := pes.foldl max 0
  let lo := pes.foldl min (2 ^ 32)
  if lo + s.fld FTL_WEAR_CFG_WL_DELTA < hi then
    let set := i % 64
    let closed := (s.usableSbs set).filter (fun k => match Tab.look s.ftl.sbs (2 ^ 14 * set + k) with | some b => b.state = 1 | none => false)
    match leastBy (s.sbMeanPe set) closed with
    | some k =>
      if s.ftl.victims.any (fun v => v.1 = 2 ^ 14 * set + k) then s
      else (s.addVictim (2 ^ 14 * set + k) 2).raise 360 1 [i]
    | none => s
  else s

end Sys2Proof.Machine
end

