-- ==== Sys2Proof/Machine/Frames.lean ====
section
/-!
DEFINITION. What the frames of the accelerators' own hold (chapter 6): extent containers, frame headers and records, padding, parity, block
summaries, journal frames and map pages, and their encryption under key slot 8,192.
-/
namespace Sys2Proof.Machine

/-! ### Data units (R136, R183, R225) -/

/-- An extent container padded to whole grains (Table 7.2). -/
def container (deflated plain : List Byte) : List Byte :=
  let dynamic := bits (leAt deflated 0 1) 2 1 = 2
  let body := [0x47#8, 0x58#8] ++ leBytes 1 1 ++ leBytes 1 (b2n dynamic + b2n (plain.length = 16384) * 2) ++ leBytes 4 plain.length
    ++ leBytes 4 deflated.length ++ leBytes 4 (crc32c plain) ++ deflated
  slice body 0 (roundUp body.length 64)

/-- The ciphertext of an extent: one XTS data unit under its key, the map unit's number as its 128-bit tweak (R136). -/
def Extent.cipher (e : Extent) : List Byte := slice (Config.aesXtsEncrypt e.key (e.laddr % 2 ^ 40) e.body) 0 e.body.length

/-- The checks of Table 7.5 from FORMAT on, in their order, of a decrypted data unit: 0 or the cause of the first that fails, and the plain unit.
crc is the RAW unit's CRC-32C where that is checked. -/
def unitCheck (coarse raw : Bool) (grains : Nat) (crc : Option Nat) (b : List Byte) : Nat × List Byte :=
  let size := if coarse then 16384 else 4096
  if raw then
    let plain := slice b 0 size
    ((match crc with | some c => if crc32c plain = c then 0 else 8 | none => 0), plain)
  else
    let defl := leAt b 8 4
    if leAt b 0 2 ≠ 0x5847 ∨ leAt b 2 1 ≠ 1 ∨ 4 ≤ leAt b 3 1 ∨ bit (leAt b 3 1) 1 ≠ coarse then (4, [])
    else if leAt b 4 4 ≠ size ∨ ceilDiv (16 + defl) 64 ≠ grains ∨ !allZero (b.drop (16 + defl)) then (5, [])
    else
      match expand 0 size (slice b 16 defl) with
      | (.done, n, out) =>
        (if n ≠ defl then 6 else if out.length ≠ size then 7 else if crc32c out ≠ leAt b 12 4 then 8 else 0, out)
      | (.full, _, _) => (7, [])
      | _ => (6, [])

/-- An extent's data unit as a pipe finds it under a key: the cause of Table 7.5 or 0, and the plain unit. What was written checks, since the
verify decompressor expanded it then (R227). An FMF-5 unit, which starts at grain 0, has no CRC-32C that is checked (R221, R233). -/
def Extent.readAs (e : Extent) (key : Nat) (legacy : Bool) (got : UnitRead) : Nat × List Byte :=
  let check := unitCheck (decide (e.plain.length = 16384)) e.raw e.grains (if legacy then none else some (crc32c e.plain))
  match got with
  | .header => (3, [])
  | .bytes b => check b
  | .stored => if key = e.key then (0, e.plain) else check (slice (Config.aesXtsDecrypt key (e.laddr % 2 ^ 40) e.cipher) 0 e.body.length)

/-- A META unit under key slot 8,192 (R183, R229). -/
def State.metaUnit (s : State) (tweak : Nat) (plain : List Byte) : List Byte :=
  slice (Config.aesXtsEncrypt ((s.keyOf 8192).getD 0) tweak plain) 0 plain.length

/-! ### Frames (R180) -/

/-- The extents that start in the frame of a PFA, with their grain offsets, in record order. -/
def State.frameRecs (s : State) (pfa : Nat) : List (Extent × Nat) :=
  (s.ftl.media.filter (fun kv => kv.1 / 64 = pfa)).map (fun kv => (kv.2, kv.1 % 64))

/-- The record of an extent (Table 6.3); a RAW unit's carries its CRC-32C (R182). -/
def Extent.record (e : Extent) : List Byte :=
  leBytes 8 e.seq ++ leBytes 8 e.laddr ++ leBytes 2 e.grains ++ leBytes 1 (b2n e.raw) ++ leBytes 1 0
    ++ leBytes 4 (if e.raw then crc32c e.plain else 0)

/-- A frame's header (Table 6.2) and its records, padded to whole grains. -/
def frameHeader (pfa flags cont : Nat) (recs : List (Extent × Nat)) : List Byte :=
  let h := headerGrains recs.length
  slice ([0x47#8, 0x46#8] ++ leBytes 1 1 ++ leBytes 1 recs.length ++ leBytes 1 h ++ leBytes 1 cont ++ leBytes 2 flags ++ leBytes 8 pfa
    ++ recs.flatMap (fun r => r.1.record)) 0 (64 * h)

/-- The last extent that starts before a frame of its lane, and the grains of it that lie before that frame. -/
def State.continued (s : State) (pfa : Nat) : Nat → Option (Extent × Nat)
  | 0 => none
  | n + 1 =>
    let before := pfa - 1
    match (s.frameRecs before).getLast? with
    | some (e, g) => some (e, 64 - g)
    | none => (s.continued before n).map (fun x => (x.1, x.2 + 63))

/-- A data frame's 4,096 bytes as they lie on flash: header, what continues from the frame before, the extents that start in it, padding. -/
def State.dataFrame (s : State) (pfa flags cont : Nat) : List Byte :=
  let recs := s.frameRecs pfa
  let head := s.metaUnit pfa (frameHeader pfa flags cont recs)
  let rest := match (if cont = 0 then none else s.continued pfa 6) with
    | some (e, k) => slice e.cipher (64 * k) (64 * cont)
    | none => List.replicate (64 * cont) 0#8
  let own := recs.flatMap (fun r => r.1.cipher)
  let data := (head ++ rest ++ own).take 4096
  data ++ s.metaUnit (pfa + 2 ^ 63) (List.replicate (4096 - data.length) 0#8)

/-- The XOR of frames (R186). -/
def xorFrames (l : List (List Byte)) : List Byte :=
  l.foldl (fun a b => (List.zip a b).map (fun x => x.1 ^^^ x.2)) (List.replicate 4096 0#8)

/-- The PFAs of the stripe row of a frame, lane by lane; none in a block of no superblock, in the last page, or where no parity is kept
(R186). -/
def State.rowOf (s : State) (pfa : Nat) : List Nat :=
  let i := pfa / 2 ^ 34
  let b := pfa / 2 ^ 14 % 2 ^ 20
  let f := pfa % 2 ^ 14
  match Tab.look s.ftl.sbs (sbOf i b), s.lun i with
  | some sb, some l =>
    let pages := if sb.slc then l.slcPages else l.pages
    -- blocks of the flush reserve are filled alone (R199): they keep group 2 and have no parity
    if sb.lanes.length < 8 ∨ (s.blk i b).group = 2 ∨ 4 * (pages - 1) ≤ f ∨ !sb.lanes.contains i then []
    else sb.lanes.map (fun j => j * 2 ^ 34 + b * 2 ^ 14 + f)
  | _, _ => []

/-- Whether a frame holds the parity of its row: row r's lies on lane r mod W. -/
def State.isParity (s : State) (pfa : Nat) : Bool :=
  let row := s.rowOf pfa
  !row.isEmpty && row.getD (pfa % 2 ^ 14 % row.length) 0 = pfa

/-- A parity frame's payload: the XOR of the encrypted payloads of its row's data frames (R186). -/
def State.parityFrame (s : State) (pfa : Nat) : List Byte :=
  xorFrames (((s.rowOf pfa).filter (fun p => p ≠ pfa)).map (fun p => let h := Tab.lookD s.ftl.heads p (0, 0); s.dataFrame p h.1 h.2))

/-! ### Block summaries (R188) -/

/-- The extents of a block from its frame 0 onward, with their places, as many frames as 168 records list completely. -/
def State.listed (s : State) (i b : Nat) : List (Nat × Extent) × Nat :=
  let all := s.ftl.media.filter (fun kv => kv.1 / 2 ^ 40 = i && kv.1 / 2 ^ 20 % 2 ^ 20 = b)
  let frames := (s.ftl.heads.filter (fun kv => kv.1 / 2 ^ 34 = i && kv.1 / 2 ^ 14 % 2 ^ 20 = b)).map (fun kv => kv.1 % 2 ^ 14)
  let fits := frames.filter (fun f => decide ((all.filter (fun kv => decide (kv.1 / 64 % 2 ^ 14 ≤ f))).length ≤ 168))
  let n := fits.foldl (fun a f => max a (f + 1)) 0
  (all.filter (fun kv => decide (kv.1 / 64 % 2 ^ 14 < n)), n)

/-- KIND of a summary by the block's pool (Table 6.4). -/
def summaryKind (pool : Nat) : Nat := if pool = 2 then 1 else if pool = 3 then 2 else if pool = 4 then 3 else 0

/-- The plain bytes of a block's summary (Table 6.4), of which its last page holds four copies. -/
def State.summary (s : State) (i b dataFrames : Nat) : List Byte :=
  let x := s.blk i b
  let (l, n) := s.listed i b
  let seqs := (s.ftl.media.filter (fun kv => kv.1 / 2 ^ 40 = i && kv.1 / 2 ^ 20 % 2 ^ 20 = b)).map (fun kv => kv.2.seq)
  let recs := slice (l.flatMap (fun kv =>
    leBytes 8 kv.2.seq ++ leBytes 8 kv.2.laddr ++ leBytes 2 kv.2.grains ++ leBytes 1 (b2n kv.2.raw) ++ leBytes 1 (kv.1 % 64)
      ++ leBytes 4 (kv.1 / 64 % 2 ^ 14))) 0 4048
  ascii "GSUM" ++ leBytes 1 1 ++ leBytes 1 (summaryKind x.pool) ++ leBytes 2 l.length ++ leBytes 4 n ++ leBytes 4 dataFrames
    ++ leBytes 8 (match seqs with | [] => 0 | a :: t => t.foldl min a) ++ leBytes 8 (seqs.foldl max 0)
    ++ leBytes 8 (((Tab.look s.ftl.sbs (sbOf i b)).map (fun y => y.openedAt)).getD 0) ++ leBytes 4 x.pe ++ leBytes 4 (crc32c recs) ++ recs

/-! ### Journal frames and map pages (R178, R193, R195) -/

/-- The 16 bytes of a delta record (Table 6.7). -/
def Delta.bytes (d : Delta) : List Byte := leBytes 8 (d.kind * 2 ^ 56 + d.laddr) ++ leBytes 8 d.value

/-- The plain bytes of a journal frame (Table 6.9). -/
def JFrame.bytes (j : JFrame) (complete : Bool) : List Byte :=
  let tail := leBytes 4 0 ++ slice (j.recs.flatMap Delta.bytes) 0 4064
  ascii "GJNL" ++ leBytes 2 j.recs.length ++ leBytes 2 (b2n complete) ++ leBytes 8 j.jseq ++ leBytes 8 j.horizon ++ leBytes 4 (crc32c tail) ++ tail

/-- A map page's 4,096 bytes: its 512 entries as a map gives them (R178). -/
def mapPage (m : Tab Nat) (k : Nat) : List Byte := (List.range 512).flatMap (fun u => leBytes 8 (Tab.lookD m (k * 512 + u) 0))

/-- The map pages a map lists entries of. -/
def mapPages (m : Tab Nat) : List Nat := podsOf (m.map (fun kv => kv.1 / 512))

/-! ### What a frame reads as -/

/-- The payload of the frame at a PFA as it lies on flash, where the model holds it: a frame of a lane, its parity, the summary, a journal
frame or a map page's newest copy. -/
def State.flashFrame (s : State) (pfa : Nat) : Option (List Byte) :=
  let i := pfa / 2 ^ 34
  let b := pfa / 2 ^ 14 % 2 ^ 20
  let f := pfa % 2 ^ 14
  match Tab.look s.ftl.heads pfa, Tab.look s.ftl.jstore pfa, s.ftl.dir.find? (fun kv => kv.2.1 = pfa) with
  | some h, _, _ => some (s.dataFrame pfa h.1 h.2)
  | none, some (j, c), _ => some (s.metaUnit pfa (j.bytes c))
  | none, none, some (k, _) => some (s.metaUnit pfa (mapPage s.ftl.dmap k))
  | none, none, none =>
    if s.isParity pfa ∧ 4 * (s.blk i b).wp > f then some (s.parityFrame pfa)
    else
      match Tab.look s.ftl.sbs (sbOf i b), s.lun i with
      | some sb, some l =>
        let pages := if sb.slc then l.slcPages else l.pages
        if sb.lanes.contains i ∧ 4 * (pages - 1) ≤ f ∧ f < 4 * pages ∧ f < 4 * (s.blk i b).wp then some (s.metaUnit pfa (s.summary i b (4 * (pages - 1))))
        else none
      | _, _ => none

end Sys2Proof.Machine
end

