-- ==== Sys2Proof/Machine/IoBase.lean ====
section
/-!
DEFINITION. What the host's reads and writes share (Tables 1.5 and 1.6): range locks (R316-R319), failures (R325), protection
information (R328-R331), units read from flash, commits to the write buffer and its admission (R31, R212, R360, R429).
-/
namespace Sys2Proof

/-- First LBA (CDW10, CDW11). -/
def HostCmd.slba (c : HostCmd) : Nat := c.cdw10 + c.cdw11 * 2 ^ 32

/-- Number of LBAs (CDW12 15:0, zero's based). -/
def HostCmd.nlb (c : HostCmd) : Nat := c.cdw12 % 2 ^ 16 + 1

/-- PRACT (CDW12 bit 29). -/
def HostCmd.pract (c : HostCmd) : Bool := Machine.bit c.cdw12 29

/-- The Reference Tag expected of LBA i of a command (R329). -/
def HostCmd.refTag (c : HostCmd) (i : Nat) : Nat := (c.cdw14 + i) % 2 ^ 32

/-- Whether a transfer's list was found wrong before any data moved (R326). -/
def Xfer.badList (x : Xfer) : Bool := x ≠ .ok && x ≠ .hostError && x ≠ .atsFault

end Sys2Proof

namespace Sys2Proof.Machine

/-! ### Failures (Table 10.14) -/

/-- Change the host interface's state. -/
def State.modHost (s : State) (f : HostState → HostState) : State := { s with host := f s.host }

/-- Change an outstanding command. -/
def State.modOut (s : State) (c : CmdRef) (f : OutCmd → OutCmd) : State :=
  s.modHost (fun h => { h with out := h.out.map (fun o => if o.pod = c.pod && o.qid = c.qid && o.cid = c.cid then f o else o) })

/-- Whether an outstanding command counts as fetched: a held entry does not yet (R360). -/
def OutCmd.counts (o : OutCmd) : Bool := o.stage ≠ .held

/-- NVQ_STAT.OUTSTANDING (R313). -/
def State.countOut (s : State) : State := s.setFld NVQ_STAT_OUTSTANDING (s.host.out.filter OutCmd.counts).length

/-- NVQ_LOCK_STAT (R319). -/
def State.countLocks (s : State) : State :=
  (s.setFld NVQ_LOCK_STAT_IN_USE s.host.locks.length).setFld NVQ_LOCK_STAT_WAITING
    (s.host.locks.filter (fun l => !l.granted)).length

/-- A command is outstanding from its fetch (R313). -/
def State.begin (s : State) (c : HostCmd) (bytes : Nat) (st : Stage) (io : Option (IoKind × HostCmd)) : State :=
  let o : OutCmd := ⟨c.pod, c.qid, c.cid, s.cqOf c.pod c.qid, bytes, st, io, [], [], false, none, false, false⟩
  let keep := s.host.out.filter (fun o => !(o.pod = c.pod && o.qid = c.qid && o.cid = c.cid))
  (s.modHost (fun h => { h with out := keep ++ [o] })).countOut

/-- A command ends with a status; its locks, uncommitted data and reservations are gone (R319, R327). -/
def State.endCmd (s : State) (c : CmdRef) (sct sc : Nat) (dnr : Bool) (dw0 : Nat) : State :=
  let s := s.modOut c (fun o => { o with io := none, need := [], got := [], arrived := false })
  let s := s.modFtl (fun f => { f with reserved := f.reserved.filter (fun r => r.1 ≠ c) })
  let mark := s.ftl.recCount
  ((s.modPod c.pod (fun e => { e with recMark := mark })).complete c sct sc dnr dw0).countLocks

/-- Fail with a generic command status. -/
def State.failG (s : State) (c : HostCmd) (sc : Nat) : State := s.endCmd (HostCmdRef c) 0 sc true 0

/-- Fail with a command specific status. -/
def State.failS (s : State) (c : HostCmd) (sc : Nat) : State := s.endCmd (HostCmdRef c) 1 sc true 0

/-- Fail with a vendor-specific status (R12, R324). -/
def State.failV (s : State) (c : HostCmd) (sc : Nat) (dnr : Bool) (dw0 : Nat) : State := s.endCmd (HostCmdRef c) 7 sc dnr dw0

/-- A transfer that fails (Table 10.15, R304, R325): its status, count and event. -/
def State.failXfer (s : State) (c : HostCmd) (x : Xfer) : State :=
  let len := fun (s : State) (sc : Nat) =>
    ((s.countS NVQ_ERR_STAT_LEN_ERR NVQ_ERR_STAT_OVF 1).raisePod 562 1 [c.pod, c.nsid] c.pod).failG c sc
  let dma := fun (s : State) =>
    ((s.countS NVQ_ERR_STAT_DMA_ERR NVQ_ERR_STAT_OVF 1).raisePod 562 2 [c.pod, c.nsid] c.pod).failG c 0x04
  match x with
  | .ok => s
  | .dataShort => len s 0x0F
  | .metaShort => len s 0x10
  | .prpOffset => len s 0x13
  | .badType => len s 0x11
  | .badSegment => len s 0x0D
  | .hostError => dma s
  | .atsFault => dma (s.raise 560 4 [((Tab.look s.pod.pods c.pod).map Pod.port).getD 0])

/-! ### Range locks (R316-R319) -/

/-- Whether two lock requests conflict. -/
def Lock.conflicts (a b : Lock) : Bool := a.ns = b.ns && a.first ≤ b.last && b.first ≤ a.last && (a.excl || b.excl)

/-- Whether a request may be granted: no earlier request in the order overlaps it with an incompatible mode. -/
def grantable : List Lock → Lock → Bool
  | [], _ => true
  | x :: rest, l => if x = l then true else !x.conflicts l && grantable rest l

/-- Units of a range, widened for an EXCLUSIVE lock to whole metadata groups (R317). -/
def Ns.lockRange (n : Ns) (excl : Bool) (first last : Nat) : Nat × Nat :=
  let k := n.mdGroup
  if excl ∧ k ≠ 0 then (first / k * k, (last / k + 1) * k - 1) else (first, last)

/-- Request a lock: it enters the order, granted at once when nothing earlier conflicts. -/
def State.lock (s : State) (c : HostCmd) (n : Ns) (excl : Bool) (first last : Nat) : Bool × State :=
  let (a, b) := n.lockRange excl first last
  let l : Lock := ⟨c.nsid, a, b, excl, false, HostCmdRef c⟩
  let g := s.host.locks.all (fun x => !x.conflicts l)
  (g, (s.modHost (fun h => { h with locks := h.locks ++ [{ l with granted := g }] })).countLocks)

/-- A command's lock entries are released. -/
def State.unlock (s : State) (c : CmdRef) : State :=
  (s.modHost (fun h => { h with locks := h.locks.filter (fun l => l.cmd ≠ c) })).countLocks

/-! ### Fields of an I/O command -/

/-- Whether a namespace carries protection information. -/
def Ns.piOn (n : Ns) : Bool := n.dps % 8 ≠ 0

/-- Metadata bytes of an LBA that cross the link (R330). -/
def Ns.mdCross (n : Ns) (pract : Bool) : Nat :=
  let m := mdBytes n.format
  if n.piOn ∧ pract then m - 8 else m

/-- Bytes a command transfers for a count of LBAs. -/
def Ns.xferBytes (n : Ns) (c : HostCmd) : Nat := c.nlb * (lbaBytes n.format + n.mdCross c.pract)

/-- The data and crossing metadata of LBA i of a transfer (R328): extended, or all data then all metadata. -/
def Ns.lbaOf (n : Ns) (pract : Bool) (count : Nat) (data : List Byte) (i : Nat) : List Byte × List Byte :=
  let b := lbaBytes n.format
  let m := n.mdCross pract
  if n.extended then (slice data (i * (b + m)) b, slice data (i * (b + m) + b) m)
  else (slice data (i * b) b, slice data (count * b + i * m) m)

/-! ### Protection information (R329-R331) -/

/-- One byte of the CRC-16 of the T10 DIF polynomial 0x8BB7. -/
def crc16Byte (crc : Nat) (b : Byte) : Nat :=
  (List.range 8).foldl (fun c _ => if 2 ^ 15 ≤ c then ((c * 2) % 2 ^ 16) ^^^ 0x8BB7 else c * 2) (crc ^^^ (b.toNat * 256))

/-- The Guard of an LBA's data. -/
def guard16 (data : List Byte) : Nat := data.foldl crc16Byte 0

/-- n bytes of v, most significant first. -/
def beBytes (n v : Nat) : List Byte := (leBytes n v).reverse

/-- The 8 bytes of protection information: Guard, Application Tag, Reference Tag. -/
def piBytes (g app ref : Nat) : List Byte := beBytes 2 g ++ beBytes 2 app ++ beBytes 4 ref

/-- Metadata of an LBA with protection information put into it (R328: the first or the last 8 bytes, by DPS bit 3). -/
def Ns.withPi (n : Ns) (other pi_ : List Byte) : List Byte := if bit n.dps 3 then pi_ ++ other else other ++ pi_

/-- The protection information within an LBA's metadata. -/
def Ns.piOf (n : Ns) (md : List Byte) : List Byte := if bit n.dps 3 then slice md 0 8 else slice md (mdBytes n.format - 8) 8

/-- The metadata without the protection information. -/
def Ns.mdOther (n : Ns) (md : List Byte) : List Byte := if bit n.dps 3 then slice md 8 (mdBytes n.format - 8) else slice md 0 (mdBytes n.format - 8)

/-- Metadata of a deallocated LBA (R331). -/
def Ns.deallocMd (n : Ns) : List Byte :=
  let m := mdBytes n.format
  if n.piOn then
    n.withPi (List.replicate (m - 8) 0#8) (piBytes (guard16 (List.replicate (lbaBytes n.format) 0#8)) 0xFFFF 0xFFFFFFFF)
  else List.replicate m 0#8

/-- The check of one LBA's protection information (R329): none, or the status code of SCT 2. -/
def Ns.piBad (n : Ns) (c : HostCmd) (i : Nat) (data md : List Byte) : Option Nat :=
  let p := n.piOf md
  let be := fun (o k : Nat) => leNat ((slice p o k).reverse)
  let g := be 0 2
  let app := be 2 2
  let ref := be 4 4
  let t1 := n.dps % 8 = 1
  let skip := if t1 then app = 0xFFFF else app = 0xFFFF && ref = 0xFFFFFFFF
  let mask := c.cdw15 / 2 ^ 16 % 2 ^ 16
  if skip then none
  else if bit c.cdw12 28 ∧ g ≠ guard16 data then some 0x82
  else if bit c.cdw12 27 ∧ (app &&& mask) ≠ (c.cdw15 % 2 ^ 16 &&& mask) then some 0x83
  else if bit c.cdw12 26 ∧ t1 ∧ ref ≠ c.refTag i then some 0x84
  else none

/-- The whole metadata of LBA i of a write: generated, or passed through (R330). -/
def Ns.mdIn (n : Ns) (c : HostCmd) (i : Nat) (data crossed : List Byte) : List Byte :=
  if n.piOn ∧ c.pract then
    n.withPi crossed (piBytes (guard16 data) (c.cdw15 % 2 ^ 16) (if n.dps % 8 = 1 then c.refTag i else c.cdw14 % 2 ^ 32))
  else crossed

/-- The first failing check of a transfer's LBAs on the way in; with PRACT set there is none. -/
def Ns.piInBad (n : Ns) (c : HostCmd) : Option Nat :=
  if !n.piOn ∨ c.pract then none
  else (List.range c.nlb).findSome? (fun i => let x := n.lbaOf false c.nlb c.data i; n.piBad c i x.1 x.2)

/-! ### Units touched -/

/-- Ranges of LBAs a command covers: one for most, those of a Dataset Management from its data. -/
def ioRanges (k : IoKind) (c : HostCmd) : List (Nat × Nat) :=
  match k with
  | .dsm => (List.range (c.cdw10 % 256 + 1)).map (fun i => (leAt c.data (16 * i + 8) 8, leAt c.data (16 * i + 4) 4))
  | _ => [(c.slba, c.nlb)]

/-- The data units of a range of LBAs: first and last. -/
def Ns.unitRange (n : Ns) (r : Nat × Nat) : Nat × Nat := (r.1 / n.perUnit, (r.1 + r.2 - 1) / n.perUnit)

/-- The data units of a command's ranges, without repeats. -/
def Ns.touched (n : Ns) (k : IoKind) (c : HostCmd) : List Nat :=
  podsOf ((ioRanges k c).flatMap (fun r =>
    if r.2 = 0 then [] else let u := n.unitRange r; (List.range (u.2 + 1 - u.1)).map (fun i => u.1 + i)))

/-- Whether an LBA lies in some range. -/
def inRanges (l : List (Nat × Nat)) (lba : Nat) : Bool := l.any (fun r => r.1 ≤ lba && lba < r.1 + r.2)

/-- Whether a unit is wholly covered; LBAs past the namespace's end need no cover. -/
def Ns.whole (n : Ns) (l : List (Nat × Nat)) (u : Nat) : Bool :=
  (List.range n.perUnit).all (fun i => n.size ≤ u * n.perUnit + i || inRanges l (u * n.perUnit + i))

/-- The metadata units that hold the metadata of data units (R332). -/
def Ns.mdUnits (n : Ns) (us : List Nat) : List Nat :=
  if n.mdGroup = 0 then [] else podsOf (us.map (fun u => u / n.mdGroup))

/-- The logical addresses whose current versions a command needs before it can finish (R215, R318). -/
def Ns.needs (n : Ns) (k : IoKind) (c : HostCmd) : List Nat :=
  let us := n.touched k c
  let rs := ioRanges k c
  let md := (n.mdUnits us).map (mdLaddr c.nsid)
  match k with
  | .writeUnc => []
  | .read => us.map (laddrOf c.nsid) ++ md
  | .compare => us.map (laddrOf c.nsid) ++ md
  | .verify => us.map (laddrOf c.nsid) ++ md
  | _ => (us.filter (fun u => !n.whole rs u)).map (laddrOf c.nsid) ++ md

/-! ### Reading a unit (steps 2-7 of Table 1.6) -/

/-- The version of a unit admitted last that the write buffer holds. -/
def State.buffered (s : State) (laddr : Nat) : Option (List Byte) :=
  ((s.ftl.wbuf.filter (fun w => w.laddr = laddr && !w.dead)).getLast?).map (fun w => w.data)

/-- The flash operation that reads a job's extent (R164). -/
def State.readOp (s : State) (j : Nat) (e : Nat) : FlashOp :=
  let i := entryLun e
  let last := bits e 20 19 + ceilDiv (bits e 18 13 + entryGrains e) 64 - 1
  -- a map page that nothing waits for loads in the background (R218)
  let bg : Bool := match (Tab.look s.ftl.reads j).map ReadJob.owner with
    | some (.page k) => !s.ftl.reads.any (fun kv => kv.2.step = 3 && kv.2.laddr / 512 = k)
    | _ => false
  { addr := 0, master := 0x54, pod := 0, op := 1, flags := b2n (bit e 0) * 16 + b2n bg, group := (s.blk i (entryBlock e)).group,
    block := entryBlock e, page := bits e 32 21,
    frames := ((List.range 4).filter (fun f => bits e 20 19 ≤ f && f ≤ last)).foldl (fun a f => a + 2 ^ f) 0,
    planes := 1, bufAddr := 0, dest := 0, evFlag := 0, tag := [], at_ := s.time, cost := s.opCost 1 1, gen := 0,
    offs := [], dither := none, waitAt := none, reserved := false, job := j }

/-- Put a read job's operation into its LUN's queue when there is room. -/
def State.submitRead (s : State) (j : Nat) : State :=
  match Tab.look s.ftl.reads j with
  | none => s
  | some x =>
    match s.lun (entryLun x.entry) with
    | none => s
    | some l =>
      if x.step ≠ 0 ∨ 32 ≤ l.queue.length then s
      else
        let s := s.modFtl (fun f => { f with reads := Tab.put f.reads j { x with step := 1 } })
        s.enqueue (entryLun x.entry) (s.readOp j x.entry)

/-- Read jobs that wait for room in a LUN's queue. -/
def State.retryReads (s : State) (i : Nat) : State :=
  ((s.ftl.reads.filter (fun kv => kv.2.step = 0 && entryLun kv.2.entry = i)).map (fun kv => kv.1)).foldl (fun s j => s.submitRead j) s

/-- What a request for a unit finds at once: its data (empty when deallocated), that it is lost, or nothing yet. -/
inductive Found where
  | data (bs : List Byte)
  | lost
  | flash (entry : Nat)
  /-- DRAM does not hold the unit's map page (R178). -/
  | miss (page : Nat)
  deriving DecidableEq, Repr

/-- Look a unit up (steps 2 and 3 of Table 1.6, R175). -/
def State.lookUnit (s : State) (laddr : Nat) : Found :=
  match s.buffered laddr with
  | some d => .data d
  | none =>
    let e := s.mapEntry laddr
    if s.ftl.unheld.contains (laddr / 512) then .miss (laddr / 512)
    else if e = 0 then .data []
    else if bit e 1 then .lost
    else if bit e 2 then .data (List.replicate (s.unitBytes laddr) 0#8)
    else .flash e

/-- Start a read of the frame that holds the newest flash copy of a map page (R178), unless one is under way. -/
def State.readPage (s : State) (k : Nat) : State :=
  if s.ftl.reads.any (fun kv => decide (kv.2.owner = ReadOwner.page k)) then s
  else
    let j := s.ftl.readNext
    let e := (Tab.lookD s.ftl.dir k (0, 0)).1 % 2 ^ 45 * 2 ^ 19 + 63 * 2 ^ 5 + 16 + 1
    let s := s.modFtl (fun f => { f with reads := Tab.put f.reads j ⟨.page k, k * 512, e, 0, false⟩, readNext := j + 1 })
    s.submitRead j

/-- Start a flash read of a unit for an owner; where DRAM does not hold its map page, that page is read first (step 3 of Table 1.6, R178). -/
def State.startRead (s : State) (o : ReadOwner) (laddr e : Nat) : State :=
  let j := s.ftl.readNext
  let miss := s.ftl.unheld.contains (laddr / 512)
  let s := s.modFtl (fun f => { f with reads := Tab.put f.reads j ⟨o, laddr, e, if miss then 3 else 0, false⟩, readNext := j + 1 })
  if miss then s.readPage (laddr / 512) else s.submitRead j

/-! ### Commit of units to the write buffer (R31, R231, R327) -/

/-- Bytes queued at a pipe. -/
def State.pipeBytes (s : State) (p : Nat) : Nat :=
  match Tab.look s.cmp.pipes p with
  | none => 0
  | some x => (x.units.map (fun id => match s.ftl.wbuf.find? (fun w => w.id = id) with | some w => s.unitBytes w.laddr | none => 0)).sum

/-- The pipe of an index; one never used is empty. -/
def State.pipe (s : State) (p : Nat) : Pipe := Tab.lookD s.cmp.pipes p ⟨[], [], []⟩

/-- Set a pipe. -/
def State.putPipe (s : State) (p : Nat) (x : Pipe) : State :=
  { s with cmp := { s.cmp with pipes := Tab.put s.cmp.pipes p x } }

/-- Compression pipes whose domain is on. -/
def State.pipesOn (s : State) : List Nat := (List.range (Config.cmpPipes s.part)).filter (fun p => s.domOn (28 + p / 8))

/-- Whether a compression pipe is fenced (R227). -/
def State.pipeFenced (s : State) (p : Nat) : Bool := bit (s.fld CMP_STAT_FENCED) p

/-- The pipe a unit goes to (R231): unfenced, fewest bytes queued, ties in rotation after the last pipe used. -/
def State.pickPipe (s : State) : Option Nat :=
  let on := s.pipesOn
  let free := on.filter (fun p => (s.pipe p).units.length < 32)
  let un := free.filter (fun p => !s.pipeFenced p)
  let l := if (on.filter (fun p => !s.pipeFenced p)).isEmpty then free else un
  let l := l.filter (fun p => s.cmp.lastPipe < p) ++ l.filter (fun p => p ≤ s.cmp.lastPipe)
  leastBy s.pipeBytes l

/-- Give a write-buffer entry to a pipe; without room it waits at step 3 of Table 1.5 (R231). -/
def State.toPipe (s : State) (id : Nat) : State :=
  match s.pickPipe with
  | none => s
  | some p =>
    let x := s.pipe p
    let s := s.putPipe p { x with units := x.units ++ [id] }
    let s := { s with cmp := { s.cmp with lastPipe := p } }
    (s.setFld CMP_PIPE_STAT_UNITS_Q (x.units.length + 1) p).modWb id (fun w => { w with step := 1 })

/-- Units that wait for a pipe. -/
def State.feedPipes (s : State) : State :=
  ((s.ftl.wbuf.filter (fun w => w.step = 0)).map (fun w => w.id)).foldl (fun s id => s.toPipe id) s

/-- Commit one unit: a new version of it enters the write buffer. -/
def State.commitUnit (s : State) (c : CmdRef) (laddr : Nat) (data : List Byte) : State :=
  let id := s.ftl.wnext
  let w : WEntry :=
    { id := id, laddr := laddr, data := data, cmd := c, step := 0, grains := 0, raw := false, seq := 0, key := 0,
      body := [], resv := s.unitBytes laddr / 64 - entryGrains (s.mapEntry laddr), dead := false, recNo := 0 }
  (s.modFtl (fun f => { f with wbuf := f.wbuf ++ [w], wnext := id + 1 })).toPipe id

/-- Versions of units in the write buffer that a deallocation or zeroing replaces. -/
def State.kill (s : State) (laddr : Nat) : State :=
  s.modFtl (fun f => { f with wbuf := f.wbuf.map (fun w => if w.laddr = laddr then { w with dead := true } else w) })

/-! ### Admission of a write's data (R31, R212, R360, R429) -/

/-- Grains a command reserves (R212): the RAW count of each unit less what the unit holds now. -/
def State.reserveOf (s : State) (k : IoKind) (c : HostCmd) (n : Ns) : Nat :=
  ((n.touched k c).map (fun u => n.unit / 64 - entryGrains (s.mapEntry (laddrOf c.nsid u)))).sum

/-- Whether DRAM lacks the map page of one of some units: a write of them waits for it (R178). -/
def State.pageMissing (s : State) (laddrs : List Nat) : Bool := laddrs.any (fun l => s.ftl.unheld.contains (l / 512))

/-- The map pages that some units lack are read. -/
def State.readPages (s : State) (laddrs : List Nat) : State :=
  (laddrs.filter (fun l => s.ftl.unheld.contains (l / 512))).foldl (fun s l => s.readPage (l / 512)) s

/-- Grains reserved in all. -/
def State.reservedGrains (s : State) : Nat :=
  (s.ftl.reserved.map (fun r => r.2)).sum + (s.ftl.wbuf.map (fun w => w.resv)).sum

/-- The write-rate bucket brought to now (R429). -/
def State.wrFill (s : State) : State :=
  let d := s.fld PWR_WRGOV_CFG_DWPD_X100
  let cap := (s.ftl.cap.getD 0) * 64
  let rate := d * cap
  let depth := rate * s.fld PWR_WRGOV_CFG_BURST_H * 3600000000000
  let v := s.ftl.wrLevel + (rate * (s.time - s.ftl.wrAt) : Nat)
  s.modFtl (fun f => { f with wrLevel := min v (depth : Int), wrAt := s.time })

/-- Bytes of a pod's entries in the write buffer. -/
def State.podDirty (s : State) (p : Nat) : Nat :=
  ((s.ftl.wbuf.filter (fun w => w.cmd.pod = p)).map (fun w => s.unitBytes w.laddr)).sum

/-- A pod's write waits: POD_HELD once an episode (R360, Table 11.6's shares). -/
def State.podHeld (s : State) (p cause : Nat) : State :=
  match Tab.look s.pod.pods p with
  | some e => if e.heldEpisode then s else (s.modPod p (fun e => { e with heldEpisode := true })).raisePod 588 cause [p] p
  | none => s

/-- What keeps a write of bytes, with that many records to come of it, from the write buffer: none, the dirty limit (1), the write rate (2),
or the pod's share (3). The limits hold in HOLD_UP durability (R31): at every start, before the bank is measured, they read 0 while writes go
on in WRITE_THROUGH (R196). -/
def State.admitBar (s : State) (pod bytes recs : Nat) (host : Bool) : Nat :=
  let lim := s.fld FTL_DIRTY_LIMIT_BUF_MIB * 2 ^ 20
  let pm := ((Tab.look s.pod.pods pod).map Pod.wbufPm).getD 1000
  if s.holdUp ∧ ((bytes ≠ 0 ∧ lim < s.dirtyBuf + bytes) ∨ s.fld FTL_DIRTY_LIMIT_MAP_MIB * 2 ^ 20 < s.dirtyMap + 16 * recs) then 1
  else if s.holdUp ∧ bytes ≠ 0 ∧ lim * pm < (s.podDirty pod + bytes) * 1000 then 3
  else if host ∧ s.fld PWR_WRGOV_CFG_DWPD_X100 ≠ 0 ∧ s.wrFill.ftl.wrLevel ≤ 0 ∧ s.ftl.cap.isSome then 2
  else 0

end Sys2Proof.Machine
end

