-- ==== Sys2Proof/Machine/AskOps.lean ====
section
/-!
DEFINITION. What Askif's commands share (chapter 15): group keys and frames (R455-R458), the member records (R459-R463), and the
chunks of spread namespaces (R466-R469) as far as host reads and writes use them.
-/
namespace Sys2Proof.Machine

/-- Change Askif's state. -/
def State.modAsk (s : State) (f : AskState → AskState) : State := { s with ask := f s.ask }

/-- A fresh number for a MSG_ID or an operation, and the state with the next one. -/
def State.askId (s : State) : Nat × State := (s.ask.next, s.modAsk (fun a => { a with next := a.next + 1 }))

/-! ### The group (R454, R459) -/

/-- This member, and the configured members. -/
def State.me (s : State) : Nat := s.fld ASK_CTRL_MEMBER_ID

/-- Configured members N. -/
def State.groupN (s : State) : Nat := s.fld ASK_CTRL_N

/-- Whether the device takes part in a group. -/
def State.askOn (s : State) : Bool := Config.askPorts s.part ≠ 0 && s.flag ASK_CTRL_ENABLE

/-- Ports that are UP. -/
def State.portsUp (s : State) : List Nat := (List.range 2).filter (fun p => s.fld ASK_PORT_STAT_STATE p = 2 && s.domOn (33 + p))

/-- ⌈log₂ n⌉ with fuel. -/
def clog2 (n : Nat) : Nat → Nat
  | 0 => 0
  | f + 1 => if n ≤ 1 then 0 else clog2 ((n + 1) / 2) f + 1

/-- The monitors of a member (R459). -/
def monitorsOf (n m : Nat) : List Nat := if n < 2 then [] else podsOf ((List.range (clog2 n 16)).map (fun i => (m + 2 ^ i) % n))

/-- The members that a member monitors. -/
def monitoredBy (n m : Nat) : List Nat :=
  if n < 2 then [] else podsOf ((List.range (clog2 n 16)).map (fun i => (m + n - 2 ^ i % n) % n))

/-- A member's neighbours. -/
def neighbours (n m : Nat) : List Nat := (podsOf (monitorsOf n m ++ monitoredBy n m)).filter (fun x => x ≠ m)

/-- GROUP_ID. -/
def State.groupId (s : State) : List Byte := (List.range 4).flatMap (fun i => leBytes 4 (s.reg ASK_GROUP_ID i))

/-- Group secrets the key engine holds and can unwrap (R455). -/
def State.groupKeys (s : State) : List GroupKey :=
  s.nv.groupKeys.filter (fun g => g.wrapped = s.nv.mediaEpoch && s.sgn.mediaRoot)

/-- The frame key of an epoch's secret. -/
def State.frameKey (s : State) (g : GroupKey) : List Byte :=
  kmac256 g.secret (ascii "GLT-ASKIF") (s.groupId ++ leBytes 8 g.epoch) 32

/-- The secret frames are sent under. -/
def State.activeKey (s : State) : Option GroupKey := s.groupKeys.find? GroupKey.active

/-! ### Sending (R443, R450, R456) -/

/-- The IPv6 address of port p of member m: prefix, and interface identifier (R454). -/
def State.askAddr (s : State) (p m : Nat) : Nat := s.pair ASK_PREFIX_LO ASK_PREFIX_HI * 2 ^ 64 + p * 2 ^ 14 + m

/-- Whether the husk lets a port send to an address (R443). -/
def State.askAllowed (s : State) (addr : Nat) : Bool :=
  let len := s.fld HSK_ASK_CFG_PREFIX_LEN
  let pre := (List.range 4).foldl (fun a i => a + s.reg HSK_ASK_PREFIX i * 2 ^ (32 * i)) 0
  addr / 2 ^ (128 - len) = pre / 2 ^ (128 - len)

/-- Bytes of the Ethernet frame that carries an Askif frame: 8,306 for the largest (R450). -/
def AskOut.wire (x : AskOut) : Nat := x.bytes.length + 66

/-- Bytes a port has sent in the present millisecond of device time. -/
def State.sentNow (s : State) (p : Nat) : Nat :=
  match Tab.look s.ask.sent p with
  | some (ms, n) => if ms = s.time / 1000000 then n else 0
  | none => 0

/-- A frame leaves its port: it counts toward EGRESS_GBPS, and a background one toward the port's share, at 200 Gb/s. -/
def State.depart (s : State) (x : AskOut) : State :=
  let s := s.modAsk (fun a => { a with sent := Tab.put a.sent x.port (s.time / 1000000, s.sentNow x.port + x.wire) })
  (if x.bg then s.bgCharge 3 x.port (ceilDiv x.wire 25) else s).emit (.frame x.port x.dst x.type x.bytes)

/-- Data frames that wait at a port leave while R36 grants them and EGRESS_GBPS over 1 ms has room (R443), with fuel. -/
def State.portGo (s : State) (p : Nat) : Nat → State
  | 0 => s
  | n + 1 =>
    let l := s.ask.held.filter (fun x => x.port = p)
    let bg := l.find? AskOut.bg
    let pick := match s.bgGrant 3 p bg.isSome (l.any (fun x => !x.bg)) with
      | some true => bg
      | some false => l.find? (fun x => !x.bg)
      | none => none
    match pick with
    | some x =>
      if s.sentNow p + x.wire ≤ s.fld HSK_ASK_CFG_EGRESS_GBPS * 125000 then
        ((s.modAsk (fun a => { a with held := a.held.erase x })).depart x).portGo p n
      else s.bgNote 3 p bg.isSome
    | none => s.bgNote 3 p bg.isSome

/-- Every frame that may leave a port does. -/
def State.egressGo (s : State) (p : Nat) : State := if s.ask.stopped then s else s.portGo p s.ask.held.length

/-- A frame whose destination's link-layer address is known: a membership frame goes at once, a data frame as its port lets it (R443, R452). -/
def State.enqueueOut (s : State) (x : AskOut) : State :=
  if x.type ≤ 6 then s.depart x else (s.modAsk (fun a => { a with held := a.held ++ [x] })).egressGo x.port

/-- A frame is to leave a port for a member; it may wait for the member's link-layer address (R450). A refused destination is dropped. -/
def State.egress (s : State) (p dst type : Nat) (bg : Bool) (bytes : List Byte) : State :=
  let a := s.askAddr p dst
  let x : AskOut := ⟨p, dst, type, bg, bytes⟩
  if s.ask.stopped then s
  else if !s.askAllowed a then s.raise 49 7 [0x16, 0xE0 + p]
  else if Tab.has s.ask.resolved (p * 16384 + dst) then s.enqueueOut x
  else
    let asks := s.ask.waiting.any (fun w => w.port = p && w.dst = dst)
    let s := s.modAsk (fun y => { y with waiting := y.waiting ++ [x] })
    if asks then s else s.emit (.icmp p 135 (beBytes 16 a))

/-- A whole frame: header (Table 15.1), payload, TAG. -/
def State.frameBytes (s : State) (g : GroupKey) (type flags src srcPort dst inc seq : Nat) (payload : List Byte) : List Byte :=
  let h := [0x41#8, 0x4B#8] ++ leBytes 1 1 ++ leBytes 1 type ++ leBytes 2 payload.length ++ leBytes 1 flags ++ leBytes 1 0
    ++ slice s.groupId 0 4 ++ leBytes 2 (src + srcPort * 2 ^ 14) ++ leBytes 2 dst ++ leBytes 4 g.epoch ++ leBytes 4 inc ++ leBytes 8 seq
  h ++ payload ++ kmac256 (s.frameKey g) (ascii "AKF") (h ++ payload) 16

/-- Send one frame of this device's own from a port. -/
def State.sendOwn (s : State) (p dst type flags : Nat) (bg : Bool) (payload : List Byte) : State :=
  match s.activeKey with
  | none => s
  | some g =>
    let k := p * 16384 + dst
    let seq := Tab.lookD s.ask.seqOut k 0 + 1
    let s := s.modAsk (fun a => { a with seqOut := Tab.put a.seqOut k seq })
    s.egress p dst type bg (s.frameBytes g type flags s.me p dst s.nv.incarnation seq payload)

/-- Forward another member's frame: its SRC and INCARNATION stand; what SEQ it carries the spec leaves open. -/
def State.sendOn (s : State) (p dst type src srcPort inc : Nat) (payload : List Byte) : State :=
  match s.activeKey with
  | none => s
  | some g =>
    let (seq, s) := s.draw (2 ^ 64)
    s.egress p dst type false (s.frameBytes g type 0 src srcPort dst inc seq payload)

/-- Send a membership frame of this device's own to members on every UP port. -/
def State.floodTo (s : State) (l : List Nat) (type : Nat) (payload : List Byte) : State :=
  l.foldl (fun s m => s.portsUp.foldl (fun s p => s.sendOwn p m type 0 false payload) s) s

/-- Flood a membership frame of this device's own to all its neighbours. -/
def State.flood (s : State) (type : Nat) (payload : List Byte) : State :=
  s.floodTo (neighbours s.groupN s.me) type payload

/-- Bytes of a payload's fields before the chunk, by frame type (Table 15.2). -/
def fieldBytes (type : Nat) : Nat := if type = 16 then 40 else if type = 17 then 48 else if type = 19 then 16 else 0

/-- The fragments of a chunk: index, bytes, whether it is the last. -/
def fragments (room : Nat) : Nat → Nat → List Byte → List (Nat × List Byte × Bool)
  | 0, _, _ => []
  | f + 1, i, l => if l.length ≤ room then [(i, l, true)] else (i, l.take room, false) :: fragments room f (i + 1) (l.drop room)

/-- Send a data frame, whole or in fragments, from one of the UP ports; which one the spec leaves open. -/
def State.sendVia (s : State) (bg : Bool) (dst type ack : Nat) (fields chunk : List Byte) : State :=
  match s.portsUp with
  | [] => s
  | up =>
    let (d, s) := s.draw up.length
    let p := up.getD d 0
    (fragments (8192 - fields.length) 8 0 chunk).foldl (fun s f =>
      s.sendOwn p dst type (ack + f.1 * 2 + b2n f.2.2 * 16) bg (fields ++ f.2.1)) s

/-- Send a data frame of foreground work. -/
def State.sendData (s : State) (dst type ack : Nat) (fields chunk : List Byte) : State := s.sendVia false dst type ack fields chunk

/-- Whether a frame that wants an answer is background work (R458): one of resynchronisation or rebuild. -/
def State.askBg (s : State) : AskWhy → Bool
  | .mend _ _ _ => true
  | .fetch f _ => match (Tab.look s.ask.fetches f).map AskFetch.owner with | some (.mend _) => true | _ => false
  | _ => false

/-- Send a data frame that wants an answer (R458): its MSG_ID stands first in its fields. -/
def State.askFor (s : State) (dst type : Nat) (body chunk : List Byte) (why : AskWhy) : State :=
  let (id, s) := s.askId
  let fields := leBytes 8 id ++ body
  let s := s.modAsk (fun a => { a with sends := a.sends ++ [⟨dst, type, id, fields, chunk, 0, s.time, why⟩] })
  s.sendVia (s.askBg why) dst type 1 fields chunk

/-- Answer a data frame and remember the answer (R458). -/
def State.askAnswer (s : State) (src id type : Nat) (fields chunk : List Byte) : State :=
  let s := s.modAsk (fun a => { a with
    msgs := a.msgs.map (fun m => if m.src = src ∧ m.id = id then { m with answer := some (type, fields, chunk) } else m) })
  s.sendData src type 0 fields chunk

/-- An ACK with a result. -/
def State.askAck (s : State) (src id result : Nat) : State :=
  s.askAnswer src id 20 (leBytes 8 id ++ leBytes 1 result) []

/-! ### Arithmetic of the stripe code (R466) -/

/-- Product in GF(2^8) with the polynomial 0x11D. -/
def gfMul (a b : Nat) : Nat :=
  ((List.range 8).foldl (fun (x : Nat × Nat) i =>
    (if bit b i then x.1 ^^^ x.2 else x.1, if 128 ≤ x.2 then ((x.2 * 2) ^^^ 0x11D) % 256 else x.2 * 2)) (0, a)).1

/-- a to a power. -/
def gfPow (a : Nat) : Nat → Nat
  | 0 => 1
  | n + 1 => gfMul a (gfPow a n)

/-- The inverse of a. -/
def gfInv (a : Nat) : Nat := gfPow a 254

/-- c_ij. -/
def coef (i j : Nat) : Nat := gfInv ((16 + i) ^^^ j)

/-- A chunk times a factor. -/
def gfScale (c : Nat) (l : List Byte) : List Byte :=
  if c = 1 then l else if c = 0 then List.replicate l.length 0#8 else l.map (fun b => BitVec.ofNat 8 (gfMul c b.toNat))

/-- Row of the code for chunk idx: data 0 to K - 1, parity from K on. -/
def codeRow (k idx : Nat) : List Nat := (List.range k).map (fun j => if idx < k then b2n (idx = j) else coef (idx - k) j)

/-- One step of elimination on rows (coefficients, chunk): clear column c of every row but the pivot's. -/
def eliminate (rows : List (List Nat × List Byte)) (c : Nat) : List (List Nat × List Byte) :=
  match rows.findIdx? (fun r => r.1.getD c 0 ≠ 0 && (r.1.take c).all (fun x => x = 0)) with
  | none => rows
  | some p =>
    match rows[p]? with
    | none => rows
    | some r =>
      let q := gfInv (r.1.getD c 0)
      let piv := (r.1.map (gfMul q), gfScale q r.2)
      (rows.zipIdx).map (fun x =>
        if x.2 = p then piv
        else
          let f := x.1.1.getD c 0
          if f = 0 then x.1
          else (List.zipWith (fun a b => a ^^^ b) x.1.1 (piv.1.map (gfMul f)), xorBytes x.1.2 (gfScale f piv.2)))

/-- The data chunks of a stripe from K of its chunks. -/
def decodeData (k : Nat) (got : List (Nat × List Byte)) : List (List Byte) :=
  let rows := (List.range k).foldl eliminate ((got.take k).map (fun g => (codeRow k g.1, g.2)))
  (List.range k).map (fun j => ((rows.find? (fun r => r.1.getD j 0 = 1 && (r.1.take j).all (fun x => x = 0))).map (fun r => r.2)).getD [])

/-- Chunk idx of a stripe from K of its chunks (R466: any K recover the others). -/
def decodeChunk (k size idx : Nat) (got : List (Nat × List Byte)) : List Byte :=
  let d := decodeData k got
  if idx < k then d.getD idx (List.replicate size 0#8)
  else (List.zipWith gfScale (codeRow k idx) d).foldl xorBytes (List.replicate size 0#8)

/-! ### Spread namespaces: positions (R466, R472) -/

/-- The spread namespace of a local slot. -/
def State.spread (s : State) (nsid : Nat) : Option Spread := Tab.look s.ask.spreads nsid

/-- Change a spread namespace. -/
def State.modSpread (s : State) (nsid : Nat) (f : Spread → Spread) : State :=
  s.modAsk (fun a => { a with spreads := Tab.upd a.spreads nsid f })

/-- Positions of a stripe. -/
def Spread.w (x : Spread) : Nat := x.k + x.m

/-- Bytes of a chunk. -/
def Spread.unit (x : Spread) : Nat := if x.coarse then 16384 else 4096

/-- SPREAD_ID: bytes 8-15 of the NGUID (R456). -/
def Spread.id (x : Spread) : Nat := leAt x.nguid 8 8

/-- The position of chunk idx of a stripe. -/
def Spread.pos (x : Spread) (stripe idx : Nat) : Nat := (stripe + idx) % x.w

/-- The member that holds a position for a stripe, none while it is absent (R472). -/
def Spread.at_ (x : Spread) (stripe pos : Nat) : Option Nat :=
  match x.rebuild with
  | some (p, spare, next) =>
    if p = pos then (if stripe < next then some spare else none)
    else if x.absent.contains pos then none else x.members[pos]?
  | none => if x.absent.contains pos then none else x.members[pos]?

/-- ABSENT mask of a stripe. -/
def Spread.absentMask (x : Spread) (stripe : Nat) : Nat :=
  (List.range x.w).foldl (fun a p => if (x.at_ stripe p).isNone then a + 2 ^ p else a) 0

/-- Positions of a stripe that are present. -/
def Spread.present (x : Spread) (stripe : Nat) : Nat := ((List.range x.w).filter (fun p => (x.at_ stripe p).isSome)).length

/-- Whether this device is the home and serves the namespace. -/
def State.isHome (s : State) (x : Spread) : Bool := x.home = s.me && !x.released

/-- Whether hosts see a namespace: a holding namespace of a member that is not its home is not visible to them (R466). -/
def State.hostSees (s : State) (nsid : Nat) : Bool :=
  match s.spread nsid with
  | some x => x.home = s.me
  | none => true

/-- A position becomes absent (R472). -/
def State.markAbsent (s : State) (nsid pos : Nat) : State :=
  match s.spread nsid with
  | none => s
  | some x =>
    if x.absent.contains pos ∨ x.w ≤ pos then s
    else ((s.stamp (.absent nsid pos)).modSpread nsid (fun x => { x with absent := x.absent ++ [pos] })).raise 661 1 (w64 x.id ++ [x.members.getD pos 0])

/-- Fields of a chunk frame after the MSG_ID: SPREAD_ID, stripe, version, HOME_EPOCH, ABSENT. -/
def Spread.chunkFields (x : Spread) (stripe version absent : Nat) : List Byte :=
  leBytes 8 x.id ++ leBytes 8 stripe ++ leBytes 8 version ++ leBytes 4 x.homeEpoch ++ leBytes 4 absent

/-! ### The map budget (R177, R350) -/

/-- The map budget: the installed DRAM less 64 GiB. -/
def State.mapBudget (s : State) : Nat := s.dramEnd - 64 * 2 ^ 30

/-- Map size of a namespace: 8 bytes an entry. -/
def Ns.mapBytes (n : Ns) : Nat := 8 * n.entries

/-- Summed map size of all namespaces but one. -/
def State.mapUsed (s : State) (but : Nat) : Nat :=
  ((s.host.ns.filter (fun kv => kv.1 ≠ but)).map (fun kv => kv.2.mapBytes)).sum

/-- Bytes of memory all pods hold. -/
def State.podMemUsed (s : State) : Nat :=
  (s.pod.pods.map (fun kv => (kv.2.ranges.map (fun r => r.2.2 * 0x200000)).sum)).sum

/-- Whether a namespace's map fits beside every other namespace's and the pods' memory. -/
def State.mapFits (s : State) (nsid : Nat) (n : Ns) : Bool :=
  s.mapUsed nsid + n.mapBytes + s.podMemUsed ≤ s.mapBudget

/-! ### Ciphertext (R467) -/

/-- The chunk that holds unit u's plain data. -/
def State.cipher (s : State) (nsid u : Nat) (plain : List Byte) : List Byte :=
  match s.keyOf (nsid - 1) with
  | some k => slice (Config.aesXtsEncrypt k u plain) 0 plain.length
  | none => plain

/-- The plain data of unit u's chunk; a chunk of zeros is one never written (log entry 58). -/
def State.decipher (s : State) (nsid u : Nat) (chunk : List Byte) : List Byte :=
  if allZero chunk then []
  else
    match s.keyOf (nsid - 1) with
    | some k => slice (Config.aesXtsDecrypt k u chunk) 0 chunk.length
    | none => chunk

/-! ### Reading a unit (R469) -/

/-- A command's unit has come. -/
def State.askGive (s : State) (c : CmdRef) (laddr : Nat) (data : List Byte) : State :=
  s.modOut c (fun o =>
    if o.need.contains laddr then { o with need := o.need.erase laddr, got := o.got ++ [(laddr, data)] } else o)

/-- A fetch is over. -/
def State.dropFetch (s : State) (f : Nat) : State :=
  s.modAsk (fun a => { a with
    fetches := Tab.del a.fetches f
    sends := a.sends.filter (fun x => match x.why with | .fetch g _ => g ≠ f | _ => true)
    locals := a.locals.filter (fun kv => match kv.2 with | .fetch g _ => g ≠ f | _ => true) })

/-- Fewer than K chunks are reachable (R469). -/
def State.fetchFail (s : State) (f : Nat) (x : AskFetch) : State :=
  let s := s.dropFetch f
  match x.owner with
  | .cmd c _ => s.endCmd c 7 0x51 false 0
  | .mend _ => s

/-- A chunk mended for a position goes to its member in a CHUNK_WRITE; a home's own position is never absent to it. -/
def State.mendSend (s : State) (nsid pos stripe dst : Nat) (chunk : List Byte) : State :=
  match s.spread nsid with
  | none => s
  | some x =>
    let v := Tab.lookD x.version stripe 0
    s.askFor dst 16 (x.chunkFields stripe v 0) chunk (.mend nsid pos stripe)

/-- The chunk a fetch wants has come or been decoded. -/
def State.fetchDone (s : State) (f : Nat) (x : AskFetch) (chunk : List Byte) : State :=
  let s := s.dropFetch f
  match s.spread x.nsid with
  | none => s
  | some p =>
    match x.owner with
    | .cmd c l => s.askGive c l (s.decipher x.nsid (x.stripe * p.k + x.want) chunk)
    | .mend pos =>
      let dst := match p.rebuild with
        | some (q, spare, _) => if q = pos then spare else p.members.getD pos 0
        | none => p.members.getD pos 0
      s.mendSend x.nsid pos x.stripe dst chunk

/-- The version that every chunk of a decoding may have reached: the least of the parity chunks', since every update of a stripe reaches them
all; with none of them, any. -/
def AskFetch.base (x : AskFetch) (k : Nat) : Nat :=
  ((x.got.filter (fun g => k ≤ g.1)).map (fun g => g.2.1)).foldl min ((x.got.map (fun g => g.2.1)).foldl max 0)

/-- This device's own chunk as it was before an unconfirmed update past a version (R468). -/
def Spread.earlier (x : Spread) (stripe base : Nat) (g : Nat × Nat × List Byte) : Nat × Nat × List Byte :=
  match Tab.look x.prev stripe with
  | some (v, d, _) => if base < g.2.1 ∧ v ≤ base then (g.1, v, d) else g
  | none => g

/-- A chunk arrives for a fetch. A chunk of an update that has not reached all of the others is replaced by the content kept from before it
(R469): this device's own here, another member's by a CHUNK_READ of the version wanted; content from before a stripe's first update is zeros. -/
def State.fetchGot (s : State) (f idx version : Nat) (chunk : List Byte) : State :=
  match Tab.look s.ask.fetches f with
  | none => s
  | some x =>
    match s.spread x.nsid with
    | none => s.dropFetch f
    | some p =>
      let x := { x with got := x.got ++ [(idx, version, slice chunk 0 p.unit)] }
      let keep := fun (x : AskFetch) => s.modAsk (fun a => { a with fetches := Tab.put a.fetches f x })
      if !x.wide ∧ idx = x.want then s.fetchDone f x (slice chunk 0 p.unit)
      else if x.got.length < p.k then keep x
      else
        let base := x.base p.k
        let got := x.got.map (fun g => if p.at_ x.stripe (p.pos x.stripe g.1) = some s.me then p.earlier x.stripe base g else g)
        let got := got.map (fun g => if base = 0 ∧ g.2.1 ≠ 0 then (g.1, 0, List.replicate p.unit 0#8) else g)
        let late := got.filter (fun g => base < g.2.1)
        if x.ver = 0 ∧ !late.isEmpty then
          late.foldl (fun s g =>
            match p.at_ x.stripe (p.pos x.stripe g.1) with
            | some m => s.askFor m 18 (leBytes 8 p.id ++ leBytes 8 x.stripe ++ leBytes 8 base) [] (.fetch f g.1)
            | none => s) (keep { x with ver := base, got := got.filter (fun g => g.2.1 ≤ base) })
        else s.fetchDone f x (decodeChunk p.k p.unit x.want (got.map (fun g => (g.1, g.2.2))))

/-- Ask for chunk idx of a fetch's stripe: from this device's own slot, or from its member. -/
def State.fetchAsk (s : State) (f idx : Nat) : State :=
  match Tab.look s.ask.fetches f with
  | none => s
  | some x =>
    match s.spread x.nsid with
    | none => s.dropFetch f
    | some p =>
      let s := s.modAsk (fun a => { a with fetches := Tab.put a.fetches f { x with asked := x.asked ++ [idx] } })
      match p.at_ x.stripe (p.pos x.stripe idx) with
      | none => s
      | some m =>
        if m ≠ s.me then
          s.askFor m 18 (leBytes 8 p.id ++ leBytes 8 x.stripe ++ leBytes 8 0) [] (.fetch f idx)
        else
          let l := laddrOf x.nsid x.stripe
          match s.buffered l with
          | some d => s.fetchGot f idx (Tab.lookD p.chunkVer x.stripe 0) d
          | none =>
            let e := s.mapEntry l
            if bit e 4 ∧ !bit e 2 then
              let (k, s) := s.askId
              (s.modAsk (fun a => { a with locals := Tab.put a.locals k (.fetch f idx) })).startRead (.ask k) l e
            else s.fetchGot f idx (Tab.lookD p.chunkVer x.stripe 0) (List.replicate p.unit 0#8)

/-- The other chunks of the stripe are asked for until K can come (R469). -/
def State.fetchWiden (s : State) (f : Nat) : State :=
  match Tab.look s.ask.fetches f with
  | none => s
  | some x =>
    match s.spread x.nsid with
    | none => s.dropFetch f
    | some p =>
      let open_ := (List.range p.w).filter (fun i => i ≠ x.want && !x.bad.contains i && (p.at_ x.stripe (p.pos x.stripe i)).isSome)
      let live := (x.asked.filter (fun i => open_.contains i)).length
      let more := (open_.filter (fun i => !x.asked.contains i)).take (p.k - live)
      let s := s.modAsk (fun a => { a with fetches := Tab.put a.fetches f { x with wide := true } })
      if live + more.length < p.k then s.fetchFail f x
      else more.foldl (fun s i => s.fetchAsk f i) s

/-- A chunk a fetch has asked for cannot come. -/
def State.fetchLost (s : State) (f idx : Nat) : State :=
  (s.modAsk (fun a => { a with fetches := Tab.upd a.fetches f (fun x => { x with bad := x.bad ++ [idx] }) })).fetchWiden f

/-- Start the fetch of a chunk of a stripe. -/
def State.fetchStart (s : State) (nsid stripe want : Nat) (o : AskOwner) : State :=
  match s.spread nsid with
  | none => s
  | some p =>
    let (f, s) := s.askId
    let s := s.modAsk (fun a => { a with fetches := Tab.put a.fetches f ⟨nsid, stripe, want, o, false, 0, [], [], []⟩ })
    let mending : Bool := match o with | .mend _ => true | .cmd _ _ => false
    if mending ∨ (p.at_ stripe (p.pos stripe want)).isNone then s.fetchWiden f else s.fetchAsk f want

/-- A member's record. -/
def State.member (s : State) (m : Nat) : AskMember := Tab.lookD s.ask.members m ⟨0, 0, 0⟩

/-- The indices of the stripes a spread namespace has. -/
def Spread.stripes (x : Spread) : Nat := ceilDiv (ceilDiv x.size x.unit) x.k

/-- The chunk a position holds of a stripe. -/
def Spread.idxAt (x : Spread) (stripe pos : Nat) : Nat := (pos + x.w - stripe % x.w) % x.w

/-- Whether a position of a namespace is being mended now. -/
def State.mending (s : State) (nsid pos : Nat) : Bool :=
  s.ask.fetches.any (fun kv => kv.2.nsid = nsid && kv.2.owner = .mend pos)
    || s.ask.sends.any (fun x => match x.why with | .mend n p _ => n = nsid && p = pos | _ => false)

/-- Whether the home has an update of a stripe under way. -/
def State.updating (s : State) (nsid stripe : Nat) : Bool := s.ask.updates.any (fun kv => kv.2.nsid = nsid && kv.2.stripe = stripe)

/-- The next stripe to resynchronise on a position: of all when it is to be done in full, then of those missed; when none is
left the position is present again. A stripe with an update under way waits for its end. -/
def State.syncNext (s : State) (nsid pos : Nat) : State :=
  match s.spread nsid with
  | none => s
  | some x =>
    if s.mending nsid pos then s
    else
      let cur := Tab.lookD x.sync pos 0
      let missed := Tab.lookD x.missed pos []
      if x.whole.contains pos ∧ cur < x.stripes then
        if s.updating nsid cur then s else s.fetchStart nsid cur (x.idxAt cur pos) (.mend pos)
      else
        match missed.find? (fun st => !s.updating nsid st), missed with
        | some st, _ => s.fetchStart nsid st (x.idxAt st pos) (.mend pos)
        | none, _ :: _ => s
        | none, [] =>
          (s.modSpread nsid (fun x => { x with
            absent := x.absent.filter (fun p => p ≠ pos), whole := x.whole.filter (fun p => p ≠ pos),
            sync := Tab.del x.sync pos, missed := Tab.del x.missed pos })).raise 661 3 (w64 x.id ++ [x.members.getD pos 0])

/-- Resynchronisation goes on for the absent positions whose members are ALIVE. -/
def State.mendGo (s : State) (nsid : Nat) : State :=
  match s.spread nsid with
  | none => s
  | some x =>
    (x.absent.filter (fun p => (s.member (x.members.getD p 0)).state = 1 && (x.rebuild.map (fun r => r.1)) ≠ some p)).foldl
      (fun s p => s.syncNext nsid p) s

/-- An update of a stripe begins: what was to mend the stripe is dropped, and done again once the update has ended. -/
def State.mendDrop (s : State) (nsid stripe : Nat) : State :=
  let s := (s.ask.fetches.filter (fun kv => kv.2.nsid = nsid && kv.2.stripe = stripe
    && (match kv.2.owner with | .mend _ => true | _ => false))).foldl (fun s kv => s.dropFetch kv.1) s
  s.modAsk (fun a => { a with
    sends := a.sends.filter (fun x => match x.why with | .mend n _ st => !(n = nsid && st = stripe) | _ => true) })

/-- A command needs unit u of a spread namespace. -/
def State.askUnit (s : State) (c : CmdRef) (nsid u : Nat) : State :=
  match s.spread nsid with
  | none => s
  | some p =>
    if p.unrec.contains u then s.endCmd c 2 0x81 true 0
    else s.fetchStart nsid (u / p.k) (u % p.k) (.cmd c (laddrOf nsid u))

/-! ### Updates at the home (R468) -/

/-- A command whose updates are all over completes. -/
def State.peersDone (s : State) (c : CmdRef) : State :=
  if s.ask.updates.any (fun kv => kv.2.cmd = c) ∨ !(s.outCmd c).any (fun o => o.stage = .waitPeers) then s
  else s.endCmd c 0 0 false 0

/-- An update is over: it is confirmed to every present position, and its command completes with its last one. -/
def State.updateDone (s : State) (u : Nat) (x : AskUpdate) : State :=
  let s := s.modAsk (fun a => { a with updates := Tab.del a.updates u })
  let s := match s.spread x.nsid with
    | none => s
    | some p =>
      let s := s.modSpread x.nsid (fun p => { p with prev := Tab.del p.prev x.stripe })
      let dsts := podsOf (((List.range p.w).filterMap (p.at_ x.stripe)).filter (fun m => m ≠ s.me))
      (dsts.foldl (fun (s : State) m => s.sendData m 21 0 (leBytes 8 p.id ++ leBytes 8 x.stripe ++ leBytes 8 x.version) []) s).mendGo x.nsid
  s.peersDone x.cmd

/-- A position has acknowledged an update. -/
def State.updateAck (s : State) (u pos : Nat) : State :=
  match Tab.look s.ask.updates u with
  | none => s
  | some x =>
    let x := { x with waits := x.waits.erase pos }
    if x.waits.isEmpty then s.updateDone u x else s.modAsk (fun a => { a with updates := Tab.put a.updates u x })

/-! ### Updates at a member (R468) -/

/-- A chunk update whose durability rule is met is acknowledged: HOLD_UP once committed, WRITE_THROUGH once programmed and
recorded. -/
def State.putsDurable (s : State) : State :=
  (s.ask.puts.filter (fun kv => kv.2.step = 2)).foldl (fun s kv =>
    if s.holdUp ∨ !s.ftl.wbuf.any (fun w => w.cmd = ⟨0x10000, 0, kv.1⟩ && w.step < 4) then
      let s := s.modAsk (fun a => { a with puts := Tab.del a.puts kv.1 })
      match kv.2.from_ with
      | .frame src id => s.askAck src id 0
      | .update u pos => s.updateAck u pos
      | .mend _ => s
    else s) s

/-- Chunk updates that have their old chunk enter the write buffer in order, as its limits allow; one beyond the physical
capacity is answered so (R212). -/
def State.putsGo (s : State) : State :=
  ((s.ask.puts.filter (fun kv => kv.2.step = 1)).foldl (fun s kv =>
    let x := kv.2
    let l := laddrOf x.nsid x.stripe
    match s.spread x.nsid with
    | none => s.modAsk (fun a => { a with puts := Tab.del a.puts kv.1 })
    | some p =>
      let r := p.unit / 64 - entryGrains (s.mapEntry l)
      let full := match s.ftl.cap with | some k => decide (k < s.validGrains + s.reservedGrains + r) | none => false
      if full then
        let s := s.modAsk (fun a => { a with puts := Tab.del a.puts kv.1 })
        match x.from_ with
        | .frame src id => s.askAck src id 2
        | _ => s
      else if s.admitBar 0x10000 p.unit 1 false ≠ 0 then s
      else
        let new := if x.delta then xorBytes x.old x.data else slice x.data 0 p.unit
        let s := s.modSpread x.nsid (fun p => { p with
          prev := (if Tab.has p.prev x.stripe then p.prev else Tab.put p.prev x.stripe (Tab.lookD p.chunkVer x.stripe 0, x.old, x.absent))
          chunkVer := Tab.put p.chunkVer x.stripe x.version })
        let s := s.modAsk (fun a => { a with puts := Tab.put a.puts kv.1 { x with step := 2, old := [] } })
        s.commitUnit ⟨0x10000, 0, kv.1⟩ l new) s).putsDurable

/-- A chunk update begins: its old chunk is read first, since it is kept until the update is confirmed. -/
def State.putStart (s : State) (x : AskPut) : State :=
  match s.spread x.nsid with
  | none => s
  | some p =>
    let (k, s) := s.askId
    let l := laddrOf x.nsid x.stripe
    let put := fun (s : State) (y : AskPut) => s.modAsk (fun a => { a with puts := Tab.put a.puts k y })
    match s.buffered l with
    | some d => (put s { x with old := d, step := 1 }).putsGo
    | none =>
      let e := s.mapEntry l
      if bit e 4 ∧ !bit e 2 then
        let s := put s { x with step := 0 }
        let (j, s) := s.askId
        (s.modAsk (fun a => { a with locals := Tab.put a.locals j (.put k) })).startRead (.ask j) l e
      else (put s { x with old := List.replicate p.unit 0#8, step := 1 }).putsGo

/-- A position gets its part of an update: this device applies it, another gets a frame. -/
def State.updateSend (s : State) (nsid u stripe version absent idx : Nat) (body : List Byte) : State :=
  match s.spread nsid with
  | none => s
  | some p =>
    let pos := p.pos stripe idx
    let delta := decide (p.k ≤ idx)
    match p.at_ stripe pos with
    | none => s
    | some m =>
      if m = s.me then s.putStart ⟨nsid, stripe, version, absent, delta, body, [], 0, .update u pos⟩
      else
        let f := p.chunkFields stripe version absent
        if delta then s.askFor m 17 (f ++ leBytes 1 (idx - p.k) ++ List.replicate 7 0#8) body (.update u pos)
        else s.askFor m 16 f body (.update u pos)

/-- One unit of a write: the stripe's version rises, and every present position of the unit gets its part. -/
def State.updateUnit (s : State) (c : CmdRef) (nsid un : Nat) (new old : List Byte) : State :=
  match s.spread nsid with
  | none => s
  | some p =>
    let stripe := un / p.k
    let j := un % p.k
    let s := s.mendDrop nsid stripe
    let v := Tab.lookD p.version stripe 0 + 1
    let absent := p.absentMask stripe
    let idxs := j :: (List.range p.m).map (fun i => p.k + i)
    let waits := (idxs.map (p.pos stripe)).filter (fun q => !bit absent q)
    let missed := p.absent.foldl (fun t q =>
      let l := Tab.lookD t q []
      Tab.put t q (if l.contains stripe then l else l ++ [stripe])) p.missed
    let s := s.modSpread nsid (fun p => { p with
      version := Tab.put p.version stripe v, missed := missed, unrec := p.unrec.filter (fun x => x ≠ un) })
    let (u, s) := s.askId
    let s := s.modAsk (fun a => { a with updates := Tab.put a.updates u ⟨c, nsid, stripe, v, absent, waits⟩ })
    let diff := xorBytes new old
    idxs.foldl (fun s i =>
      s.updateSend nsid u stripe v absent i (if i < p.k then new else gfScale (coef (i - p.k) j) diff)) s

/-- The units of a write go out (R468): the command then waits for its positions. -/
def State.askCommit (s : State) (c : CmdRef) (nsid : Nat) (l : List (Nat × List Byte × List Byte)) : State :=
  let s := l.foldl (fun s x =>
    let old := if x.2.2.isEmpty then List.replicate x.2.1.length 0#8 else s.cipher nsid x.1 x.2.2
    s.updateUnit c nsid x.1 (s.cipher nsid x.1 x.2.1) old) s
  (s.modOut c (fun o => { o with io := none, got := [], arrived := true, stage := .waitPeers })).peersDone c

/-- Whether every stripe of some units has the positions a write needs (R468). -/
def State.spreadWritable (s : State) (nsid : Nat) (us : List Nat) : Bool :=
  match s.spread nsid with
  | none => false
  | some p => us.all (fun u => p.k + p.writeMin ≤ p.present (u / p.k))

end Sys2Proof.Machine
end

