-- ==== Sys2Proof/Machine/Io.lean ====
section
/-!
DEFINITION. The host's reads and writes (Tables 1.5 and 1.6): the checks of R325, admission, and completion once every unit a
command needs is there.
-/
namespace Sys2Proof.Machine

/-! ### Finishing a command once every unit it needs is there -/

/-- The current bytes of a unit among those a command has; a deallocated one reads as zeros. -/
def OutCmd.unit (o : OutCmd) (laddr size : Nat) : List Byte :=
  match o.got.find? (fun g => g.1 = laddr) with
  | some g => if g.2.isEmpty then List.replicate size 0#8 else g.2
  | none => List.replicate size 0#8

/-- Whether a data unit was deallocated when the command looked. -/
def OutCmd.dealloc (o : OutCmd) (laddr : Nat) : Bool := o.got.any (fun g => g.1 = laddr && g.2.isEmpty)

/-- The stored data and metadata of an LBA (R331, R332). -/
def OutCmd.lba (o : OutCmd) (n : Ns) (nsid lba : Nat) : List Byte × List Byte :=
  let b := lbaBytes n.format
  let m := mdBytes n.format
  let u := lba / n.perUnit
  let d := slice (o.unit (laddrOf nsid u) n.unit) (lba % n.perUnit * b) b
  let md :=
    if m = 0 then []
    else if o.dealloc (laddrOf nsid u) then n.deallocMd
    else slice (o.unit (mdLaddr nsid (u / n.mdGroup)) 4096) ((lba - u / n.mdGroup * n.mdGroup * n.perUnit) * m) m
  (d, md)

/-- The new bytes of a data unit under a write of new data to some of its LBAs. -/
def OutCmd.merge (o : OutCmd) (n : Ns) (nsid u : Nat) (rs : List (Nat × Nat)) (new : Nat → List Byte) : List Byte :=
  (List.range n.perUnit).flatMap (fun i =>
    let lba := u * n.perUnit + i
    if inRanges rs lba then new lba else (o.lba n nsid lba).1)

/-- The new bytes of a metadata unit: covered LBAs take the new metadata, the others of units the command rewrites keep
theirs, a deallocated one's being R331's. -/
def OutCmd.mergeMd (o : OutCmd) (n : Ns) (nsid v : Nat) (us : List Nat) (rs : List (Nat × Nat)) (new : Nat → List Byte) : List Byte :=
  let m := mdBytes n.format
  let per := n.mdGroup * n.perUnit
  let body := (List.range per).flatMap (fun i =>
    let lba := v * per + i
    if inRanges rs lba then new lba
    else if us.contains (lba / n.perUnit) then (o.lba n nsid lba).2
    else slice (o.unit (mdLaddr nsid v) 4096) (i * m) m)
  slice body 0 4096

/-- Read, compare and verify: the first failing protection check of the stored LBAs. -/
def OutCmd.piOutBad (o : OutCmd) (n : Ns) (c : HostCmd) : Option Nat :=
  if !n.piOn then none
  else (List.range c.nlb).findSome? (fun i => let x := o.lba n c.nsid (c.slba + i); n.piBad c i x.1 x.2)

/-- What a read returns to the host: per LBA its data and the metadata that crosses (R328, R330). -/
def OutCmd.dataOut (o : OutCmd) (n : Ns) (c : HostCmd) : List Byte :=
  let l := (List.range c.nlb).map (fun i =>
    let x := o.lba n c.nsid (c.slba + i)
    (x.1, if n.piOn ∧ c.pract then n.mdOther x.2 else x.2))
  if n.extended then l.flatMap (fun x => x.1 ++ x.2) else l.flatMap (fun x => x.1) ++ l.flatMap (fun x => x.2)

/-- A protection check fails (R325). -/
def State.failPi (s : State) (c : HostCmd) (sc : Nat) : State :=
  ((s.countS NVQ_ERR_STAT_PI_ERR NVQ_ERR_STAT_OVF 1).raisePod 562 3 [c.pod, c.nsid] c.pod).endCmd (HostCmdRef c) 2 sc true 0

/-- The mode falls to WRITE_THROUGH once every write already acknowledged has been made durable (R198). -/
def State.modeFall (s : State) : State :=
  let acked := fun (w : WEntry) => !s.host.out.any (fun o =>
    o.pod = w.cmd.pod && o.qid = w.cmd.qid && o.cid = w.cmd.cid && (o.stage = .waitDurable || o.io.isSome))
  if s.ftl.wtPending ∧ !s.ftl.wbuf.any acked then
    ((s.modFtl (fun f => { f with wtPending := false })).setFld FTL_DUR_MODE 0).raise 353 1 [s.fld FTL_DUR_WT_CAUSE]
  else s

/-- The first admission after a limit has been delivered changes the mode to HOLD_UP (R198). -/
def State.modeRise (s : State) : State :=
  if s.ftl.holdUpReady ∧ !s.holdUp ∧ !s.flag FTL_CTRL_FORCE_WT then
    ((s.modFtl (fun f => { f with holdUpReady := false })).setFld FTL_DUR_WT_CAUSE 0).setFld FTL_DUR_MODE 1 |>.raise 353 2 [0]
  else s

/-- In write-through durability a write completes when no unit of it is before step 8 of Table 1.5 (R31). -/
def State.wtCheck (s : State) : State :=
  (s.host.out.foldl (fun s o =>
    let c : CmdRef := ⟨o.pod, o.qid, o.cid⟩
    if o.stage = .waitDurable ∧ !s.ftl.wbuf.any (fun w => w.cmd = c && w.step < 4) then
      (s.modOut c (fun o => { o with stage := .started })).endCmd c 0 0 false 0
    else s) s).modeFall.putsGo

/-- Units are committed: the locks go (R317) and, in hold-up durability, the completion is posted (R31). -/
def State.committed (s : State) (c : CmdRef) : State :=
  let s := (s.unlock c).modOut c (fun o => { o with io := none, got := [], arrived := false })
  let s := s.modFtl (fun f => { f with reserved := f.reserved.filter (fun r => r.1 ≠ c) })
  if s.holdUp ∧ !s.ftl.wtPending then s.endCmd c 0 0 false 0
  else (s.modOut c (fun o => { o with stage := .waitDurable })).wtCheck

/-- Contiguous runs of a rising list of units: first and length. -/
def runsOf : List Nat → List (Nat × Nat)
  | [] => []
  | u :: rest =>
    match runsOf rest with
    | (a, n) :: t => if u + 1 = a then (u, n + 1) :: t else (u, 1) :: (a, n) :: t
    | [] => [(u, 1)]

/-- Commit a list of units. -/
def State.commitAll (s : State) (c : CmdRef) (l : List (Nat × List Byte)) : State :=
  l.foldl (fun s x => s.commitUnit c x.1 x.2) s

/-- A write, zeroing or deallocation of a spread namespace whose units are all there (R468): each unit goes out as an update; a
deallocated unit is written as zeros (log entry 59). -/
def State.spreadFinish (s : State) (o : OutCmd) (k : IoKind) (c : HostCmd) (n : Ns) (us : List Nat) (rs : List (Nat × Nat)) :
    State :=
  if !s.spreadWritable c.nsid us then s.endCmd (HostCmdRef c) 7 0x50 false 0
  else
    let zero := List.replicate (lbaBytes n.format) 0#8
    let new := fun lba => if k = .write then (n.lbaOf c.pract c.nlb c.data (lba - c.slba)).1 else zero
    s.askCommit (HostCmdRef c) c.nsid (us.map (fun u =>
      (u, o.merge n c.nsid u rs new, ((o.got.find? (fun g => g.1 = laddrOf c.nsid u)).map (fun g => g.2)).getD [])))

/-- Do what commits bytes and records to the write buffer once every map page it changes is in DRAM (R178) and the limits let it in (R31,
R197); till then the command waits. -/
def State.whenRoom (s : State) (c : HostCmd) (bytes recs : Nat) (laddrs : List Nat) (go : State → State) : State :=
  let wait := s.modOut (HostCmdRef c) (fun o => { o with stage := .waitBuffer })
  let bar := s.admitBar c.pod bytes recs false
  if s.pageMissing laddrs then wait.readPages laddrs
  else if bar = 3 then wait.podHeld c.pod 2
  else if bar ≠ 0 then wait
  else go s

/-- A command whose units are all there finishes (R215, R321). -/
def State.ioFinish (s : State) (o : OutCmd) (k : IoKind) (c : HostCmd) (n : Ns) : State :=
  let ref := HostCmdRef c
  let us := n.touched k c
  let rs := ioRanges k c
  let mds := n.mdUnits us
  let zero := List.replicate (lbaBytes n.format) 0#8
  match k with
  | .read =>
    (match o.piOutBad n c with
     | some sc => s.failPi c sc
     | none =>
       if c.xfer ≠ .ok then (s.unlock ref).failXfer c c.xfer
       else ((s.unlock ref).emit (.host c.pod c.qid c.cid (o.dataOut n c))).endCmd ref 0 0 false 0)
  | .verify => (match o.piOutBad n c with | some sc => s.failPi c sc | none => s.endCmd ref 0 0 false 0)
  | .compare =>
    (match o.piOutBad n c with
     | some sc => s.failPi c sc
     | none => if o.dataOut n c = slice c.data 0 (n.xferBytes c) then s.endCmd ref 0 0 false 0 else s.endCmd ref 2 0x85 true 0)
  | .write =>
    if n.spread then s.spreadFinish o k c n us rs else
    let new := fun lba => (n.lbaOf c.pract c.nlb c.data (lba - c.slba)).1
    let newMd := fun lba =>
      let x := n.lbaOf c.pract c.nlb c.data (lba - c.slba)
      n.mdIn c (lba - c.slba) x.1 x.2
    (s.commitAll ref (us.map (fun u => (laddrOf c.nsid u, o.merge n c.nsid u rs new))
      ++ mds.map (fun v => (mdLaddr c.nsid v, o.mergeMd n c.nsid v us rs newMd)))).committed ref
  | .writeUnc =>
    if n.spread then
      (s.modSpread c.nsid (fun p => { p with unrec := p.unrec ++ us.filter (fun u => !p.unrec.contains u) })).endCmd ref 0 0 false 0
    else
    s.whenRoom c 0 us.length (us.map (laddrOf c.nsid)) (fun s =>
      (us.foldl (fun s u => (s.kill (laddrOf c.nsid u)).record 4 (laddrOf c.nsid u) entryUnrec) s).committed ref)
  | _ =>
    if n.spread then s.spreadFinish o k c n us rs else
    let dealloc := k = .dsm || bit c.cdw12 25
    let full := us.filter (fun u => n.whole rs u)
    let part := us.filter (fun u => !n.whole rs u)
    let bytes := part.length * n.unit + mds.length * 4096
    let recs := (runsOf full).length + part.length + mds.length
    let ls := us.map (laddrOf c.nsid) ++ mds.map (mdLaddr c.nsid)
    s.whenRoom c bytes recs ls fun s =>
    let s := full.foldl (fun s u => s.kill (laddrOf c.nsid u)) s
    let s := (runsOf full).foldl (fun s r => s.record (if dealloc then 2 else 3) (laddrOf c.nsid r.1) r.2) s
    let zmd := fun lba => n.mdIn { c with cdw12 := c.cdw12 ||| 2 ^ 29 } (lba - c.slba) zero (List.replicate (n.mdCross true) 0#8)
    let zmd := fun lba => if k = .dsm then n.deallocMd else zmd lba
    (s.commitAll ref (part.map (fun u => (laddrOf c.nsid u, o.merge n c.nsid u rs (fun _ => zero)))
      ++ mds.map (fun v => (mdLaddr c.nsid v, o.mergeMd n c.nsid v us rs zmd)))).committed ref

/-- Go on with a command: finish it when nothing is missing. -/
def State.ioProgress (s : State) (c : CmdRef) : State :=
  match s.outCmd c with
  | none => s
  | some o =>
    match o.io with
    | none => s
    | some (k, h) =>
      match s.nsOf h.nsid with
      | none => s
      | some n =>
        let needsData := k = .write
        if o.stage = .started ∧ o.need.isEmpty ∧ (!needsData || o.arrived) then s.ioFinish o k h n else s

/-- A unit arrives for a command. -/
def State.ioArrive (s : State) (c : CmdRef) (laddr : Nat) (data : List Byte) : State :=
  (s.modOut c (fun o =>
    if o.need.contains laddr then { o with need := o.need.erase laddr, got := o.got ++ [(laddr, data)] } else o)).ioProgress c

/-- A unit a command needs is lost: Unrecovered Read Error (R325). -/
def State.ioLost (s : State) (c : CmdRef) : State :=
  match s.outCmd c with
  | some o => if o.io.isSome then s.endCmd c 2 0x81 true 0 else s
  | none => s

/-- Look up each unit a command needs (steps 2 and 3 of Table 1.6). -/
def State.gather (s : State) (c : CmdRef) : List Nat → State
  | [] => s
  | l :: rest =>
    match s.lookUnit l with
    | .data d => (s.modOut c (fun o => { o with need := o.need.erase l, got := o.got ++ [(l, d)] })).gather c rest
    | .lost => s.ioLost c
    | .flash e => (s.startRead (.cmd c) l e).gather c rest
    | .miss _ => (s.startRead (.cmd c) l 0).gather c rest

/-- A command's lock is granted: it is started (R316). -/
def State.ioStart (s : State) (c : CmdRef) : State :=
  match s.outCmd c with
  | none => s
  | some o =>
    match o.io with
    | none => s
    | some (k, h) =>
      match s.nsOf h.nsid with
      | none => s
      | some n =>
        let units := n.touched k h
        let writes := !(k = .read || k = .compare || k = .verify)
        if n.spread ∧ writes ∧ !s.spreadWritable h.nsid units then s.endCmd c 7 0x50 false 0
        else if n.spread then
          -- a write needs every unit's old content, for the parity (R468)
          let us := if k = .writeUnc then [] else units
          let s := s.modOut c (fun o => { o with stage := .started, need := us.map (laddrOf h.nsid) })
          (us.foldl (fun s u => s.askUnit c h.nsid u) s).ioProgress c
        else
        let need := n.needs k h
        let s := s.modOut c (fun o => { o with stage := .started, need := need })
        (s.gather c need).ioProgress c

/-! ### A write's data arrive (R31, R212, R327, R429) -/

/-- All data of a write have arrived: the checks, admission, and its entries (R327). -/
def State.ioData (s : State) (ref : CmdRef) : State :=
  match s.outCmd ref with
  | none => s
  | some o =>
    match o.io with
    | some (.write, c) =>
      if o.arrived ∨ (o.stage ≠ .started ∧ o.stage ≠ .waitBuffer ∧ o.stage ≠ .waitRate) then s
      else
        match s.nsOf c.nsid with
        | none => s
        | some n =>
          if c.xfer ≠ .ok then s.failXfer c c.xfer
          else
            match n.piInBad c with
            | some sc => s.failPi c sc
            | none =>
              let r := if n.spread then 0 else s.reserveOf .write c n
              let full := match s.ftl.cap with | some k => decide (k < s.validGrains + s.reservedGrains + r) | none => false
              if full then
                let s := if s.ftl.fullEpisode then s else (s.modFtl (fun f => { f with fullEpisode := true })).raise 357 1 [s.availSpare]
                s.failG c 0x81
              else
                let s := s.modFtl (fun f => { f with fullEpisode := false })
                let units := n.touched .write c
                let mds := if n.spread then [] else n.mdUnits units
                -- metadata units are fine units of their own (R332)
                let bytes := (units.map (fun _ => n.unit)).sum + mds.length * 4096
                let ls := units.map (laddrOf c.nsid) ++ mds.map (mdLaddr c.nsid)
                if s.pageMissing ls then (s.modOut ref (fun o => { o with stage := .waitBuffer })).readPages ls
                else
                match s.admitBar c.pod bytes (units.length + mds.length) true with
                | 0 =>
                  let s := s.modeRise.wrFill
                  let s := s.modFtl (fun f => { f with
                    wrLevel := f.wrLevel - ((n.xferBytes c * 864000000000000000 : Nat) : Int), wrWaiting := false,
                    reserved := f.reserved ++ [(ref, r)] })
                  let s := s.setFld PWR_WRGOV_STAT_WAITING 0
                  (s.modOut ref (fun o => { o with arrived := true, bytes := bytes, stage := .started })).ioProgress ref
                | 2 =>
                  let s := s.modOut ref (fun o => { o with stage := .waitRate })
                  if s.ftl.wrWaiting then s
                  else ((s.modFtl (fun f => { f with wrWaiting := true })).setFld PWR_WRGOV_STAT_WAITING 1).raise 107 1 [s.fld PWR_WRGOV_STAT_LEVEL]
                | b =>
                  let s := s.modOut ref (fun o => { o with stage := .waitBuffer })
                  if b = 3 then s.podHeld c.pod 2 else s
    | _ => s

/-- A command that waits for room in the write buffer is looked at again. -/
def State.bufferAdmit (s : State) (c : CmdRef) : State :=
  match s.outCmd c with
  | none => s
  | some o =>
    match o.stage, o.io with
    | .waitBuffer, some (.write, _) => s.ioData c
    | .waitBuffer, some _ => (s.modOut c (fun o => { o with stage := .started })).ioProgress c
    | _, _ => s

/-! ### Checks of an I/O command at its fetch (R325) -/

/-- The status of a namespace that a command may not reach: code of SCT 0, or none (R83, R92, R138, R325). -/
def State.nsBar (s : State) (c : HostCmd) : Option Nat :=
  match s.nsOf c.nsid with
  | none => some 0x0B
  | some n =>
    if !n.pods.contains c.pod ∨ n.status = 4 then some 0x0B
    else if s.nv.sanitize.phase = 5 then some 0x1C
    else if s.nv.sanitize.phase ≠ 0 then some 0x1D
    else if n.status = 3 then some 0x84
    else if n.status ≠ 0 ∨ !s.flag FTL_CTRL_ENABLE then some 0x82
    else none

/-- Begin an I/O command on logical blocks: the checks of R325, its lock request, its start when granted. -/
def State.ioBegin (s : State) (k : IoKind) (c : HostCmd) : State :=
  let s := s.begin c 0 .fetched (some (k, c))
  match s.nsBar c, s.nsOf c.nsid with
  -- not ready: Do Not Retry is clear until the namespaces are ready (R83), set when the key is unusable (R98, R138)
  | some sc, n => s.endCmd (HostCmdRef c) 0 sc (sc ≠ 0x82 || (n.map Ns.status).getD 0 = 2) 0
  | none, none => s.failG c 0x0B
  | none, some n =>
    let rs := ioRanges k c
    let moves := k = .read || k = .write || k = .compare
    let dealloc := k = .dsm || (k = .writeZeroes && bit c.cdw12 25)
    let noEffect := k = .dsm && !bit c.cdw11 2
    if n.spread ∧ (!(s.spread c.nsid).any s.isHome ∨ s.host.nsOps.any (fun o => o.nsid = c.nsid && o.kind = 3)) then
      s.endCmd (HostCmdRef c) 7 0x51 false 0
    else if rs.any (fun r => n.size < r.1 + r.2) then s.failG c 0x80
    else if moves ∧ 2097152 < c.nlb * lbaBytes n.format then s.failG c 0x02
    else if s.ftl.readOnly ∧ (k = .write || k = .writeUnc || (k = .writeZeroes && !dealloc)) then s.failG c 0x20
    else if (moves ∨ k = .dsm) ∧ c.xfer.badList then s.failXfer c c.xfer
    else if k = .dsm ∧ c.xfer ≠ .ok then s.failXfer c c.xfer
    else if noEffect then s.endCmd (HostCmdRef c) 0 0 false 0
    else
      match (n.touched k c).head?, (n.touched k c).getLast? with
      | some a, some b =>
        let excl := !(k = .read || k = .compare || k = .verify)
        let (a, b) := if n.hold ≠ 0 ∧ excl then (a / n.hold * n.hold, (b / n.hold + 1) * n.hold - 1) else (a, b)
        let (g, s) := s.lock c n excl a b
        if g then s.ioStart (HostCmdRef c) else s.modOut (HostCmdRef c) (fun o => { o with stage := .lockWait })
      | _, _ => s.endCmd (HostCmdRef c) 0 0 false 0

/-! ### Chunks read from this device's own flash (R468, R469) -/

/-- Go on with every command on a spread namespace. -/
def State.askProgress (s : State) : State :=
  (s.host.out.filter (fun o => o.io.isSome && o.stage = .started)).foldl (fun s o => s.ioProgress ⟨o.pod, o.qid, o.cid⟩) s

/-- A chunk this device holds has been read, or is lost. A lost old chunk is lost to its update too: a whole chunk replaces it,
a delta cannot be applied and is not acknowledged; a lost chunk gives its fetch and its reader nothing. -/
def State.localCame (s : State) (k : Nat) (data : Option (List Byte)) : State :=
  match Tab.look s.ask.locals k with
  | none => s
  | some l =>
    let s := s.modAsk (fun a => { a with locals := Tab.del a.locals k })
    match l, data with
    | .put p, some d =>
      (s.modAsk (fun a => { a with puts := Tab.upd a.puts p (fun x => { x with old := d, step := 1 }) })).putsGo
    | .put p, none =>
      (s.modAsk (fun a => { a with
        puts := (Tab.upd a.puts p (fun x => { x with step := 1 })).filter (fun kv => kv.1 ≠ p || !kv.2.delta) })).putsGo
    | .fetch f idx, some d =>
      let v := match Tab.look s.ask.fetches f with
        | some x => ((s.spread x.nsid).map (fun p => Tab.lookD p.chunkVer x.stripe 0)).getD 0
        | none => 0
      (s.fetchGot f idx v d).askProgress
    | .fetch f idx, none => (s.fetchLost f idx).askProgress
    | .answer src id version, some d => s.askAnswer src id 19 (leBytes 8 id ++ leBytes 8 version) d
    | .answer _ _ _, none => s

end Sys2Proof.Machine
end

