-- ==== Sys2Proof/Machine/ScanProg.lean ====
section
/-!
DEFINITION. Scan programs (chapter 8): their form and checks, records of a unit by format, predicates, projections and
aggregates, and what an engine makes of one unit.
-/
namespace Sys2Proof.Machine

/-! ### The program (Tables 8.4-8.8) -/

/-- TOTAL_LEN as the counts of a header give it. -/
def progLen (p : List Byte) : Nat :=
  64 + 8 * leAt p 16 1 + 16 * leAt p 17 1 + 4 * leAt p 18 1 + 4 * leAt p 19 1 + leAt p 20 2

/-- The program that bytes describe. -/
def progOf (p : List Byte) : ScanProg :=
  let nf := leAt p 16 1
  let nn := leAt p 17 1
  let np := leAt p 18 1
  let na := leAt p 19 1
  let o1 := 64 + 8 * nf
  let o2 := o1 + 16 * nn
  let o3 := o2 + 4 * np
  let o4 := o3 + 4 * na
  { recfmt := leAt p 5 1, flags := leAt p 6 2, params := slice p 8 8,
    fields := (List.range nf).map (fun i =>
      let o := 64 + 8 * i
      ⟨leAt p o 1, leAt p (o + 1) 1, leAt p (o + 2) 1, leAt p (o + 4) 2⟩),
    nodes := (List.range nn).map (fun i =>
      let o := o1 + 16 * i
      ⟨leAt p o 1, leAt p (o + 1) 1, leAt p (o + 2) 1, leAt p (o + 3) 1, leAt p (o + 4) 2, leAt p (o + 6) 2, leAt p (o + 8) 8⟩),
    projs := (List.range np).map (fun i => (leAt p (o2 + 4 * i) 1, leAt p (o2 + 4 * i + 1) 1)),
    aggs := (List.range na).map (fun i => (leAt p (o3 + 4 * i) 1, leAt p (o3 + 4 * i + 1) 1)),
    pool := slice p o4 (leAt p 20 2), bloomK := leAt p 22 1, mbits := leAt p 23 1, bloomAddr := leAt p 24 8 }

/-- Whether every byte of the program that must be 0 is (cause 1). -/
def progZeros (p : List Byte) (g : ScanProg) : Bool :=
  let o2 := 64 + 8 * g.fields.length + 16 * g.nodes.length
  g.flags < 16 && allZero (slice p 40 24)
    && (List.range g.fields.length).all (fun i => leAt p (64 + 8 * i + 3) 1 = 0 && leAt p (64 + 8 * i + 6) 2 = 0)
    && (List.range (g.projs.length + g.aggs.length)).all (fun i => leAt p (o2 + 4 * i + 2) 2 = 0)

/-- Whether a type holds an integer. -/
def intType (t : Nat) : Bool := t = 1 || t = 2 || t = 5

/-- Whether counts, RECFMT and PARAMS lie in their ranges (cause 4). -/
def ScanProg.ranges (g : ScanProg) : Bool :=
  let b := fun i => (g.params.getD i 0#8).toNat
  let z := fun i => allZero (g.params.drop i)
  g.recfmt < 4 && 1 ≤ g.fields.length && g.fields.length ≤ 32 && g.nodes.length ≤ 64 && g.projs.length ≤ 32
    && g.aggs.length ≤ 16 && g.pool.length ≤ 4096 && g.bloomK ≤ 8
    && (g.bloomK ≠ 0 || (g.mbits = 0 && g.bloomAddr = 0))
    && (match g.recfmt with
        | 0 => 1 ≤ b 0 + 256 * b 1 && b 0 + 256 * b 1 ≤ 16384 && z 2
        | 1 => (b 0 = 1 || b 0 = 2 || b 0 = 4) && b 1 < 4 && z 2
        | 2 => b 0 ≠ b 1 && z 3
        | _ => z 0)

/-- Whether a width suits a type (Table 8.6). -/
def widthOk (t w : Nat) : Bool :=
  if t = 1 ∨ t = 2 then w = 1 || w = 2 || w = 4 || w = 8
  else if t = 3 then w ≠ 0 && w ≤ 255
  else w = 0

/-- Whether a field is allowed for the record format (cause 5). -/
def ScanProg.fieldOk (g : ScanProg) (f : ScanField) : Bool :=
  1 ≤ f.type && f.type ≤ 5 && widthOk f.type f.width && f.flags < 4
    && (!bit f.flags 1 || (g.recfmt < 2 && 4 ≤ f.type))
    && (match g.recfmt with
        | 0 => f.source + f.width ≤ leNat (g.params.take 2)
        | 2 => 4 ≤ f.type
        | 3 => f.source < 32
        | _ => true)

/-- Whether node i is valid in itself (cause 6). -/
def ScanProg.nodeOk (g : ScanProg) (i : Nat) (n : ScanNode) : Bool :=
  if n.op = 1 ∨ n.op = 2 ∨ n.op = 3 then
    i < n.first && n.first + n.nchild ≤ g.nodes.length
      && (if n.op = 3 then n.nchild = 1 else 1 ≤ n.nchild && n.nchild ≤ 63)
  else if n.op = 13 then true
  else if n.op < 4 ∨ 13 < n.op then false
  else
    match g.fields[n.field]? with
    | none => false
    | some f =>
      let whole := intType f.type
      if n.op = 12 then true
      else if n.op = 11 then !whole && n.coff + n.clen ≤ g.pool.length
      else if n.op = 10 then
        (if whole then n.clen = 8 && n.coff + 8 ≤ g.pool.length else n.coff + 2 * n.clen ≤ g.pool.length)
      else whole || n.coff + n.clen ≤ g.pool.length

/-- The nodes reachable from node 0. -/
def ScanProg.reached (g : ScanProg) : List Nat :=
  (List.range g.nodes.length).foldl (fun a i =>
    if a.contains i then
      match g.nodes[i]? with
      | some n => if n.op ≤ 3 then a ++ (List.range n.nchild).map (fun k => n.first + k) else a
      | none => a
    else a) [0]

/-- Whether the nodes are valid (cause 6). -/
def ScanProg.nodesOk (g : ScanProg) : Bool :=
  (List.range g.nodes.length).all (fun i => match g.nodes[i]? with | some n => g.nodeOk i n | none => false)
    && (List.range g.nodes.length).all (fun i => g.reached.contains i)

/-- Whether projections and aggregates are valid (cause 7). -/
def ScanProg.outsOk (g : ScanProg) : Bool :=
  let whole := fun k => match g.fields[k]? with | some f => intType f.type | none => false
  g.projs.all (fun p => p.1 < g.fields.length && p.2 ≤ 1 && (p.2 = 0 || whole p.1))
    && g.aggs.all (fun a => 1 ≤ a.1 && a.1 ≤ 4 && a.2 < g.fields.length && (a.1 = 1 || whole a.2))

/-- The checks of Table 8.8 in order, the filter's address apart: none, or the cause. -/
def progCause (p : List Byte) : Option Nat :=
  let g := progOf p
  if slice p 0 4 ≠ [0x47#8, 0x53#8, 0x43#8, 0x50#8] ∨ leAt p 4 1 ≠ 1 ∨ !progZeros p g then some 1
  else if leAt p 32 4 ≠ progLen p ∨ 8192 < leAt p 32 4 then some 2
  else if crc32c (slice p 40 (progLen p - 40)) ≠ leAt p 36 4 then some 3
  else if !g.ranges then some 4
  else if !g.fields.all g.fieldOk then some 5
  else if !g.nodesOk then some 6
  else if !g.outsOk then some 7
  else if (g.bloomK = 0 ∧ g.nodes.any (fun n => n.op = 12)) ∨ (g.bloomK ≠ 0 ∧ (g.mbits < 10 ∨ 21 < g.mbits)) then some 8
  else none

/-! ### Values -/

/-- A field's value: an integer with its bytes as stored, bytes, or null (R253, R255). -/
inductive ScanVal where
  | int (v : Int) (raw : List Byte)
  | text (raw : List Byte)
  | null
  deriving DecidableEq, Repr

/-- A value, or the cause for which its record is malformed (Table 8.13). -/
inductive Extract where
  | val (v : ScanVal)
  | bad (cause : Nat)
  deriving DecidableEq, Repr

/-- The integer of width bytes by type and byte order. -/
def intOf (type : Nat) (big : Bool) (raw : List Byte) : Int :=
  let n := leNat (if big then raw.reverse else raw)
  if type = 2 then toSigned (8 * raw.length) n else n

/-- The digits of a decimal text. -/
def digitsOf : List Byte → Option Nat
  | l => if l.isEmpty ∨ 19 < l.length ∨ !l.all (fun b => 0x30 ≤ b.toNat && b.toNat ≤ 0x39) then none
         else some (l.foldl (fun a b => a * 10 + (b.toNat - 0x30)) 0)

/-- The value of a TEXT_INT (R255); none when it is not a decimal integer in range. -/
def textInt (l : List Byte) : Option Int :=
  match l with
  | [] => none
  | b :: rest =>
    if b = 0x2D#8 then (digitsOf rest).bind (fun n => if n ≤ 2 ^ 63 then some (-(n : Int)) else none)
    else (digitsOf l).bind (fun n => if n < 2 ^ 63 then some (n : Int) else none)

/-- The value of a type from its bytes. -/
def valOf (type : Nat) (big : Bool) (raw : List Byte) : Extract :=
  if type = 1 ∨ type = 2 then .val (.int (intOf type big raw) raw)
  else if type = 5 then (match textInt raw with | some v => .val (.int v raw) | none => .bad 5)
  else .val (.text raw)

/-! ### Records (R252, R253) -/

/-- A record of a unit: its bytes, its delimited fields, or its row. -/
inductive Rec where
  | flat (bytes : List Byte)
  | delim (bytes : List Byte) (fields : List (List Byte))
  | row (i : Nat)
  deriving DecidableEq, Repr

/-- What a unit divides into: records or malformed ones, in order. -/
inductive Piece where
  | rcd (r : Rec)
  | bad (cause : Nat)
  deriving DecidableEq, Repr

/-- Records of a FIXED unit. -/
def fixedPieces (len : Nat) : Nat → List Byte → List Piece
  | 0, _ => []
  | n + 1, l => if l.length < len then [] else .rcd (.flat (l.take len)) :: fixedPieces len n (l.drop len)

/-- Records of a LENGTH_PREFIXED unit. -/
def prefixedPieces (w : Nat) (big incl : Bool) : Nat → List Byte → List Piece
  | 0, _ => []
  | n + 1, l =>
    if l.length < w then []
    else
      let raw := l.take w
      let v := leNat (if big then raw.reverse else raw)
      if v = 0 then []
      else if incl ∧ v < w then [.bad 2]
      else
        let len := if incl then v - w else v
        let rest := l.drop w
        if rest.length < len then [.bad 1]
        else .rcd (.flat (rest.take len)) :: prefixedPieces w big incl n (rest.drop len)

/-- Where a delimited field stands: at its start, plain, within quotes, just behind a quote within quotes. -/
inductive Quo where
  | start
  | plain
  | inside
  | maybe
  deriving DecidableEq, Repr

/-- How a delimited record ends: at its delimiter (fields, bytes, the rest), unclosed, or at the end of the unit. -/
inductive DelimEnd where
  | rcd (fields : List (List Byte)) (raw rest : List Byte)
  | quote
  | short
  deriving DecidableEq, Repr

/-- Read one DELIMITED record. -/
def delimRec (rd fd q : Byte) : Quo → List Byte → List (List Byte) → List Byte → List Byte → DelimEnd
  | m, _, _, _, [] => if m = .inside then .quote else .short
  | m, cur, fs, raw, b :: rest =>
    if m = .inside then
      (if b = q then delimRec rd fd q .maybe cur fs (raw ++ [b]) rest
       else if b = rd then .quote
       else delimRec rd fd q .inside (cur ++ [b]) fs (raw ++ [b]) rest)
    else if m = .maybe ∧ b = q then delimRec rd fd q .inside (cur ++ [b]) fs (raw ++ [b]) rest
    else if b = rd then .rcd (fs ++ [cur]) raw rest
    else if b = fd then delimRec rd fd q .start [] (fs ++ [cur]) (raw ++ [b]) rest
    else if m = .start ∧ q ≠ 0#8 ∧ b = q then delimRec rd fd q .inside [] fs (raw ++ [b]) rest
    else delimRec rd fd q .plain (cur ++ [b]) fs (raw ++ [b]) rest

/-- Records of a DELIMITED unit. -/
def delimPieces (rd fd q : Byte) : Nat → List Byte → List Piece
  | 0, _ => []
  | n + 1, l =>
    if allZero l ∧ (rd ≠ 0#8 ∨ l.isEmpty) then []
    else
      match delimRec rd fd q .start [] [] [] l with
      | .rcd fs raw rest => .rcd (.delim raw fs) :: delimPieces rd fd q n rest
      | .quote => [.bad 6]
      | .short => if allZero l then [] else [.bad 8]

/-- Column i's descriptor of a unit (Table 8.3). -/
def colAt (u : List Byte) (i : Nat) : List Byte := slice u (8 + 8 * i) 8

/-- Whether a column's data and bitmap lie in the unit. -/
def colInside (u : List Byte) (rows : Nat) (c : List Byte) : Bool :=
  let w := leAt c 1 1
  let off := leAt c 4 2
  let size := u.length
  let o := fun i => leAt u (off + 2 * i) 2
  (if w ≠ 0 then off + rows * w ≤ size
   else off + 2 * (rows + 1) ≤ size && (List.range rows).all (fun i => o i ≤ o (i + 1)) && o rows ≤ size)
    && (!bit (leAt c 2 1) 1 || leAt c 6 2 + ceilDiv rows 8 ≤ size)

/-- Whether a unit is a column block that agrees with the program (R253, R255). -/
def blockOk (g : ScanProg) (u : List Byte) : Bool :=
  let ncol := leAt u 3 1
  let rows := leAt u 4 2
  slice u 0 2 = [0x47#8, 0x43#8] && leAt u 2 1 = 1 && 1 ≤ ncol && ncol ≤ 32 && rows ≤ u.length && leAt u 6 2 = 0
    && (List.range ncol).all (fun i =>
         let c := colAt u i
         1 ≤ leAt c 0 1 && leAt c 0 1 ≤ 5 && widthOk (leAt c 0 1) (leAt c 1 1) && leAt c 2 1 < 4 && leAt c 3 1 = 0
           && (bit (leAt c 2 1) 1 || leAt c 6 2 = 0) && colInside u rows c)
    && g.fields.all (fun f => f.source < ncol && f.type = leAt (colAt u f.source) 0 1 && f.width = leAt (colAt u f.source) 1 1)

/-- Divide a unit into records. -/
def piecesOf (g : ScanProg) (u : List Byte) : List Piece :=
  let b := fun i => g.params.getD i 0#8
  match g.recfmt with
  | 0 => fixedPieces (leNat (g.params.take 2)) u.length u
  | 1 => prefixedPieces (b 0).toNat (bit (b 1).toNat 0) (bit (b 1).toNat 1) u.length u
  | 2 => delimPieces (b 0) (b 1) (b 2) u.length u
  | _ => if blockOk g u then (List.range (leAt u 4 2)).map (fun i => .rcd (.row i)) else [.bad 7]

/-- The bytes of a record without any prefix (R257); a column row's are not laid out by the spec. -/
def Rec.whole (u : List Byte) : Rec → List Byte
  | .flat l => l
  | .delim l _ => l
  | .row i => Config.columnRecord u i

/-- Extract a field of a record (R253, R255, Table 8.13 causes 3-5). -/
def extractOf (u : List Byte) (r : Rec) (f : ScanField) : Extract :=
  match r with
  | .flat l =>
    if bit f.flags 1 then
      (if l.length < f.source + 1 then .bad 3
       else
         let n := leAt l f.source 1
         if l.length < f.source + 1 + n then .bad 3 else valOf f.type false (slice l (f.source + 1) n))
    else if 4 ≤ f.type then (if l.length < f.source then .bad 3 else valOf f.type false (l.drop f.source))
    else if l.length < f.source + f.width then .bad 3
    else valOf f.type (bit f.flags 0) (slice l f.source f.width)
  | .delim _ fs => (match fs[f.source]? with | some v => valOf f.type false v | none => .bad 4)
  | .row i =>
    let c := colAt u f.source
    let off := leAt c 4 2
    if bit (leAt c 2 1) 1 ∧ bit (leAt u (leAt c 6 2 + i / 8) 1) (i % 8) then .val .null
    else if f.width ≠ 0 then valOf f.type (bit (leAt c 2 1) 0) (slice u (off + i * f.width) f.width)
    else
      let a := leAt u (off + 2 * i) 2
      valOf f.type false (slice u a (leAt u (off + 2 * i + 2) 2 - a))

/-! ### Predicates (R256, R259) -/

/-- Byte strings compared as unsigned values, a proper prefix being less: -1, 0, 1. -/
def cmpBytes : List Byte → List Byte → Int
  | [], [] => 0
  | [], _ :: _ => -1
  | _ :: _, [] => 1
  | a :: as, b :: bs => if a < b then -1 else if b < a then 1 else cmpBytes as bs

/-- A comparison's outcome by OP. -/
def cmpTrue (op : Nat) (c : Int) : Bool :=
  match op with
  | 4 => c = 0
  | 5 => c ≠ 0
  | 6 => c < 0
  | 7 => c ≤ 0
  | 8 => 0 < c
  | 9 => 0 ≤ c
  | _ => false

/-- The key of a value for the filter. -/
def ScanVal.key : ScanVal → List Byte
  | .int v _ => leBytes 8 (ofSigned 64 v)
  | .text l => l
  | .null => []

/-- Whether every probed bit of a filter is 1 (R259). -/
def bloomHas (g : ScanProg) (filter key : List Byte) : Bool :=
  let h1 := crc32c key
  let h2 := crc32c (key ++ [1#8]) ||| 1
  (List.range g.bloomK).all (fun i =>
    let b := (h1 + i * h2) % 2 ^ g.mbits
    bit (leAt filter (b / 8) 1) (b % 8))

/-- A comparison node on a value; on null it is false. -/
def leafTrue (g : ScanProg) (filter : List Byte) (n : ScanNode) (type : Nat) (v : ScanVal) : Bool :=
  let pool := fun o => slice g.pool o n.clen
  let int := fun (x : Nat) => if type = 1 then (x : Int) else toSigned 64 x
  match v with
  | .null => false
  | .int x _ =>
    if n.op = 12 then bloomHas g filter v.key
    else if n.op = 10 then int n.value ≤ x && x ≤ int (leAt g.pool n.coff 8)
    else cmpTrue n.op (x - int n.value)
  | .text l =>
    if n.op = 12 then bloomHas g filter v.key
    else if n.op = 11 then l.take n.clen = pool n.coff && n.clen ≤ l.length
    else if n.op = 10 then cmpBytes (pool n.coff) l ≤ 0 && cmpBytes l (pool (n.coff + n.clen)) ≤ 0
    else cmpTrue n.op (cmpBytes l (pool n.coff))

/-- The truth of each node from the last to node i, children before parents: (node, value) pairs. -/
def nodeVals (g : ScanProg) (filter : List Byte) (vals : Tab ScanVal) : Tab Bool :=
  (List.range g.nodes.length).foldr (fun i t =>
    match g.nodes[i]? with
    | none => t
    | some n =>
      let kids := (List.range n.nchild).map (fun k => Tab.lookD t (n.first + k) false)
      let v :=
        match n.op with
        | 1 => kids.all id
        | 2 => kids.any id
        | 3 => !(kids.headD false)
        | 13 => true
        | _ =>
          (match Tab.look vals n.field with
           | some x => leafTrue g filter n ((g.fields[n.field]?.map ScanField.type).getD 0) x
           | none => false)
      Tab.put t i v) []

/-- Whether a record matches: no node, or the root true. -/
def recMatches (g : ScanProg) (filter : List Byte) (vals : Tab ScanVal) : Bool :=
  g.nodes.isEmpty || Tab.lookD (nodeVals g filter vals) 0 false

/-! ### Projections and aggregates (R257, R258) -/

/-- A value as a projection emits it. -/
def emitVal (u : List Byte) (g : ScanProg) (f : ScanField) (fmt : Nat) (v : ScanVal) : List Byte :=
  let nullable := g.recfmt = 3 && bit (leAt (colAt u f.source) 2 1) 1
  let text := fun (l : List Byte) => if 4 ≤ f.type then leBytes 2 l.length ++ l else l
  let body :=
    match v with
    | .int x raw => if fmt = 1 then leBytes 8 (ofSigned 64 x) else text raw
    | .text l => text l
    | .null => if fmt = 1 then leBytes 8 0 else if 4 ≤ f.type then leBytes 2 0 else List.replicate f.width 0#8
  (if nullable then [if v = .null then 1#8 else 0#8] else []) ++ body

/-- What a matched record emits: nothing, or its bytes. -/
def emitRec (u : List Byte) (g : ScanProg) (i : Nat) (r : Rec) (vals : Tab ScanVal) : Option (List Byte) :=
  if g.projs.isEmpty ∧ !bit g.flags 2 then none
  else
    let tag := if bit g.flags 3 then leBytes 2 i else []
    let body :=
      if bit g.flags 2 then let w := r.whole u; leBytes 2 w.length ++ w
      else g.projs.flatMap (fun p =>
        match g.fields[p.1]?, Tab.look vals p.1 with
        | some f, some v => emitVal u g f p.2 v
        | _, _ => [])
    some (tag ++ body)

/-- An aggregate takes a matched record's value. -/
def AggVal.take (func : Nat) (a : AggVal) (v : ScanVal) : AggVal :=
  if func = 1 then { v := a.v + 1, seen := true }
  else
    match v with
    | .int x _ =>
      if func = 2 then { v := a.v + x, seen := true }
      else if !a.seen then { v := x, seen := true }
      else { a with v := if func = 3 then min a.v x else max a.v x }
    | _ => a

/-- Two partials of an aggregate folded (R265, R266). -/
def AggVal.join (func : Nat) (a b : AggVal) : AggVal :=
  if func ≤ 2 then { v := a.v + b.v, seen := a.seen || b.seen }
  else if !b.seen then a
  else if !a.seen then b
  else { v := if func = 3 then min a.v b.v else max a.v b.v, seen := true }

/-- The 16 bytes of an aggregate (R258). -/
def AggVal.bytes (func : Nat) (a : AggVal) : List Byte :=
  if func = 1 then leBytes 8 (ofSigned 64 a.v) ++ leBytes 8 0
  else if func = 2 then leBytes 16 (ofSigned 128 a.v)
  else if a.seen then leBytes 8 (ofSigned 64 a.v) ++ leBytes 1 1 ++ leBytes 7 0
  else leBytes 16 0

/-! ### One unit (R249-R259, R267) -/

/-- The fields a node, a projection or an aggregate refers to. -/
def ScanProg.usedFields (g : ScanProg) : List Nat :=
  (List.range g.fields.length).filter (fun i =>
    g.nodes.any (fun n => 4 ≤ n.op && n.op ≤ 12 && n.field = i) || g.projs.any (fun p => p.1 = i) || g.aggs.any (fun a => a.2 = i))

/-- The values of a record's fields, or the first cause for which it is malformed. -/
def fieldVals (g : ScanProg) (u : List Byte) (r : Rec) : List Nat → Tab ScanVal → Nat ⊕ Tab ScanVal
  | [], t => .inr t
  | i :: rest, t =>
    match g.fields[i]? with
    | none => .inr t
    | some f =>
      match extractOf u r f with
      | .bad c => .inl c
      | .val v => fieldVals g u r rest (Tab.put t i v)

/-- What nothing gives. -/
def UnitRes.zero (g : ScanProg) : UnitRes :=
  { unreadable := false, records := 0, matched := 0, bad := [], emitted := 0, bytes := [], aggs := g.aggs.map (fun _ => ⟨0, false⟩) }

/-- One record or malformed record adds to a unit's results; i is its index. -/
def UnitRes.step (g : ScanProg) (filter u : List Byte) (a : UnitRes) (i : Nat) (p : Piece) : UnitRes :=
  let a := { a with records := a.records + 1 }
  match p with
  | .bad c => { a with bad := a.bad ++ [c] }
  | .rcd r =>
    match fieldVals g u r g.usedFields [] with
    | .inl c => { a with bad := a.bad ++ [c] }
    | .inr vals =>
      if !recMatches g filter vals then a
      else
        let aggs := List.zipWith (fun (d : Nat × Nat) x => AggVal.take d.1 x (Tab.lookD vals d.2 .null)) g.aggs a.aggs
        let a := { a with matched := a.matched + 1, aggs := aggs }
        match emitRec u g i r vals with
        | none => a
        | some e => { a with emitted := a.emitted + 1, bytes := a.bytes ++ e }

/-- What an engine makes of a unit. -/
def scanUnit (g : ScanProg) (filter u : List Byte) : UnitRes :=
  let ps := piecesOf g u
  ((List.range ps.length).zip ps).foldl (fun a x => a.step g filter u x.1 x.2) (UnitRes.zero g)

/-- The chunk of a released unit (R264); none when it has no record and no flag. -/
def UnitRes.chunk (r : UnitRes) (unit : Nat) : List Byte :=
  let flags := b2n r.unreadable + b2n (!r.bad.isEmpty) * 2
  if r.emitted = 0 ∧ flags = 0 then []
  else leBytes 8 (unit % 2 ^ 40 + r.emitted % 2 ^ 16 * 2 ^ 40 + flags * 2 ^ 56) ++ r.bytes

end Sys2Proof.Machine
end

