-- ==== Sys2Proof/Machine/Scan.lean ====
section
/-!
DEFINITION. Scan jobs (R249-R273): submission, issue of units, their release in order, ends and cancellation; and the
three commands SCN_SUBMIT, SCN_CANCEL and SCAN_UNIT_DONE.
-/
namespace Sys2Proof.Machine

/-- Change the scan engines' state. -/
def State.modScn (s : State) (f : ScnState → ScnState) : State := { s with scn := f s.scn }

/-- A scan job. -/
def State.job (s : State) (j : Nat) : Option ScanJob := Tab.look s.scn.jobs j

/-- Change a scan job. -/
def State.modJob (s : State) (j : Nat) (f : ScanJob → ScanJob) : State :=
  s.modScn (fun n => { n with jobs := Tab.upd n.jobs j f })

/-- SCN_STAT.JOBS and every engine's UNITS_Q. -/
def State.countScn (s : State) : State :=
  (List.range (Config.scnEngines s.part)).foldl (fun s e =>
    let n := (Tab.lookD s.scn.queue e []).length
    if s.fld SCN_ENG_STAT_UNITS_Q e = n then s else s.setFld SCN_ENG_STAT_UNITS_Q n e)
    (s.setFld SCN_STAT_JOBS s.scn.jobs.length)

/-- The lock name of a unit of a job (R269); no host command has such a pod. -/
def scanRef (j u : Nat) : CmdRef := ⟨2 ^ 16 + j, 2 ^ 16, u⟩

/-- The master the engine unit reads descriptors and writes results with (log entry 47). -/
def scanReq : Req := ⟨0xC0, 0⟩

/-- First unit behind a job. -/
def ScanJob.stop (b : ScanJob) : Nat := b.start + b.count

/-- The least of a list of units, or a bound. -/
def leastUnit (l : List Nat) (d : Nat) : Nat := l.foldl min d

/-- The next unit a job scans at or behind its pointer: every unit under ZERO_UNITS, else one that is stored, buffered
or unrecoverable; the units passed over have no record (Table 8.4). -/
def State.nextUnit (s : State) (b : ScanJob) : Nat :=
  if bit b.prog.flags 1 then b.next
  else
    let lo := laddrOf b.nsid b.next
    let hi := laddrOf b.nsid b.stop
    let inside := fun (l : Nat) => lo ≤ l && l < hi
    let ms := (s.ftl.map.filter (fun kv => inside kv.1 && (entryGrains kv.2 ≠ 0 || bit kv.2 1))).map (fun kv => kv.1)
    let ws := (s.ftl.wbuf.filter (fun w => inside w.laddr && !w.dead)).map (fun w => w.laddr)
    leastUnit ((ms ++ ws).map (fun l => l - laddrOf b.nsid 0)) b.stop

/-- The lowest unit of a job not released. -/
def State.lowUnit (s : State) (b : ScanJob) : Nat :=
  leastUnit (b.busy ++ b.staged.map (fun x => x.1)) (s.nextUnit b)

/-! ### Ends (R261, R264, R270, Tables 8.10-8.12) -/

/-- The completion of an Execute Program that ran a scan (Table 8.11). -/
def State.scanReply (s : State) (c : CmdRef) (status cause used : Nat) : State :=
  match status with
  | 0x01 => s.endCmd c 0 0 false used
  | 0x02 => s.endCmd c 7 0x30 false used
  | 0x10 => s.endCmd c 7 0x31 true used
  | 0x11 => s.endCmd c 2 0x81 true used
  | 0x12 => s.endCmd c 7 0x32 true cause
  | 0x13 => s.endCmd c 0 0x0B true 0
  | 0x15 => if cause = 1 then s.endCmd c 0 0x80 true 0 else s.endCmd c 0 0x02 true 0
  | 0x16 => s.endCmd c 0 0x07 false used
  | _ => s.endCmd c 0 (if cause = 1 then 0x0B else if cause = 2 then 0x1D else 0x08) (decide (cause ≠ 2)) used

/-- A submission or job ends: its descriptor's bytes 48-63, STATUS last, and its event flag (R261, R264); or its command. -/
def State.scanEnd (s : State) (addr pod : Nat) (cmd : Option CmdRef) (evFlag status cause used resume : Nat) : State :=
  match cmd with
  | some c => s.scanReply c status cause used
  | none =>
    let tail := leBytes 1 cause ++ leBytes 1 0 ++ leBytes 4 used ++ leBytes 8 resume
    let s := (s.store scanReq (addr + 50) tail).2
    let s := (s.store scanReq (addr + 48) (leBytes 2 status)).2
    if evFlag = 0 then s else s.flagSet ⟨0xC0, pod⟩ evFlag

/-- Bytes of a scan program read for a job. -/
def State.loadProg (s : State) (addr : Nat) : BusStatus × List Byte × State :=
  match s.load scanReq addr 64 with
  | (.ok, h, s) =>
    let n := min (max (progLen h) 64) (64 + 255 * 32 + 65535)
    s.load scanReq addr n
  | r => r

/-- A job that waits for a filter slot takes it when fewer than four jobs with filters run (R259). -/
def State.bloomStart (s : State) : State :=
  let has := fun (b : ScanJob) => b.prog.bloomK ≠ 0
  if 4 ≤ (s.scn.jobs.filter (fun kv => has kv.2 && !kv.2.waiting)).length then s
  else
    match s.scn.jobs.find? (fun kv => kv.2.waiting) with
    | none => s
    | some (j, b) =>
      match s.load scanReq b.prog.bloomAddr (2 ^ b.prog.mbits / 8) with
      | (.ok, f, s) => s.modJob j (fun b => { b with bloom := f, waiting := false })
      | (_, _, s) => s.modJob j (fun b => { b with bloom := [], waiting := false })

/-- A job ends with a status: the result header and aggregates, then its descriptor (R264). -/
def State.endJob (s : State) (j status cause : Nat) : State :=
  match s.job j with
  | none => s
  | some b =>
    let low := s.lowUnit b
    let s := s.modScn (fun n => { n with
      jobs := Tab.del n.jobs j,
      queue := Tab.mapVals (fun _ l => l.filter (fun x => x.job ≠ j)) n.queue })
    let s := (s.modHost (fun h => { h with locks := h.locks.filter (fun l => l.cmd.pod ≠ 2 ^ 16 + j) })).countLocks
    let s := s.modFtl (fun f => { f with reads := f.reads.filter (fun kv =>
      match kv.2.owner with | .scan k _ => k ≠ j | _ => true) })
    let head :=
      [0x47#8, 0x53#8, 0x43#8, 0x52#8] ++ leBytes 1 1 ++ leBytes 1 0 ++ leBytes 2 status ++ leBytes 8 (low - b.start)
        ++ leBytes 8 b.records ++ leBytes 8 b.matched ++ leBytes 8 b.malformed ++ leBytes 4 b.used ++ leBytes 4 0
        ++ leBytes 8 s.time ++ leBytes 8 low
    let aggs := (List.zipWith (fun (d : Nat × Nat) a => AggVal.bytes d.1 a) b.prog.aggs b.aggs).flatten
    let s := (s.store scanReq b.resAddr (head ++ aggs)).2
    let ev := match status with | 0x02 => 1 | 0x10 => 2 | 0x11 => 3 | 0x16 => 4 | 0x17 => 5 | _ => 0
    let s := if ev = 0 then s else s.raisePod 464 ev [b.pod, b.nsid] b.pod
    (s.scanEnd b.addr b.pod b.cmd b.evFlag status cause b.used low).bloomStart.countScn

/-! ### Release in order (R265-R268) -/

/-- Release a job's units in ascending order as far as they are there; the job may end. -/
def State.release (s : State) (j : Nat) : Nat → State
  | 0 => s
  | n + 1 =>
    match s.job j with
    | none => s
    | some b =>
      let low := s.lowUnit b
      match b.staged.find? (fun x => x.1 = low) with
      | none => if b.stop ≤ low then s.endJob j 0x01 0 else s
      | some (u, r) =>
        if r.unreadable ∧ !b.skip then s.endJob j 0x11 0
        else if bit b.prog.flags 0 ∧ !r.bad.isEmpty then s.endJob j 0x10 (r.bad.headD 0)
        else
          let c := r.chunk u
          if b.resLen < b.used + c.length then s.endJob j 0x02 0
          else
            let s := (s.store scanReq (b.resAddr + b.used) c).2
            let aggs := (List.zipWith (fun (d : Nat × Nat) (p : AggVal × AggVal) => AggVal.join d.1 p.1 p.2)
              b.prog.aggs (b.aggs.zip r.aggs))
            let s := s.modJob j (fun b => { b with
              staged := b.staged.filter (fun x => x.1 ≠ u), used := b.used + c.length, records := b.records + r.records,
              matched := b.matched + r.matched, malformed := b.malformed + r.bad.length, aggs := aggs })
            s.release j n

/-- A unit's results enter the staging area and what can be released is. -/
def State.stage (s : State) (j u : Nat) (r : UnitRes) : State :=
  let s := s.modJob j (fun b => { b with busy := b.busy.filter (fun x => x ≠ u), staged := b.staged ++ [(u, r)] })
  s.release j (((s.job j).map (fun b => b.staged.length)).getD 0 + 1)

/-! ### Issue of units (R250, R251, R265, R269, R271) -/

/-- The engine of a unit: its extent's channel, else the unit number modulo 32. -/
def State.engineOf (s : State) (b : ScanJob) (u : Nat) : Nat :=
  match s.lookUnit (laddrOf b.nsid u) with
  | .flash e => entryLun e / 64
  | .miss _ => if entryGrains (s.mapEntry (laddrOf b.nsid u)) ≠ 0 then entryLun (s.mapEntry (laddrOf b.nsid u)) / 64 else u % 32
  | _ => u % 32

/-- A unit cannot be read: it leaves its engine's queue and is staged so (R268). -/
def State.scanLost (s : State) (j u : Nat) : State :=
  let s := s.modScn (fun n => { n with queue := Tab.mapVals (fun _ l => l.filter (fun x => !(x.job = j && x.unit = u))) n.queue })
  let s := s.unlock (scanRef j u)
  match s.job j with
  | none => s
  | some b => (s.stage j u { UnitRes.zero b.prog with unreadable := true }).countScn

/-- A unit's plain data reach its engine: the lock goes (R269). -/
def State.scanArrive (s : State) (j u : Nat) (data : List Byte) : State :=
  (s.modScn (fun n => { n with queue := Tab.mapVals (fun _ l =>
    l.map (fun x => if x.job = j && x.unit = u then { x with data := some data } else x)) n.queue })).unlock (scanRef j u)

/-- A unit's lock is granted: look it up, and read it when it is on flash. -/
def State.scanStart (s : State) (j u : Nat) : State :=
  match s.job j with
  | none => s
  | some b =>
    let l := laddrOf b.nsid u
    match s.lookUnit l with
    | .data d => s.scanArrive j u (if d.isEmpty then List.replicate (s.unitBytes l) 0#8 else d)
    | .lost => s.scanLost j u
    | .flash e => s.startRead (.scan j u) l e
    | .miss _ => s.startRead (.scan j u) l 0

/-- Whether a job's next unit may be issued now; some true when only an off group keeps it (R271). -/
def State.issuable (s : State) (b : ScanJob) : Option Bool :=
  let u := s.nextUnit b
  let e := s.engineOf b u
  let bytes := (b.staged.map (fun x => x.2.bytes.length)).sum + (b.busy.length + 1) * 16384
  if b.waiting ∨ b.stop ≤ u ∨ s.lowUnit b + s.fld SCN_CTRL_ORDER_WINDOW * 1024 ≤ u ∨ 2 ^ 24 < bytes
      ∨ 64 ≤ (Tab.lookD s.scn.queue e []).length then none
  else some (!s.domOn (24 + e / 8))

/-- Issue a job's next unit: a place in its engine's queue and a read lock. -/
def State.issueUnit (s : State) (j : Nat) (b : ScanJob) : State :=
  let u := s.nextUnit b
  let e := s.engineOf b u
  let s := s.modScn (fun n => { n with
    jobs := Tab.upd n.jobs j (fun b => { b with next := u + 1, busy := b.busy ++ [u] }),
    queue := Tab.put n.queue e (Tab.lookD n.queue e [] ++ [⟨j, u, none⟩]),
    lastJob := Tab.put n.lastJob b.pod j })
  let l : Lock := ⟨b.nsid, u, u, false, false, scanRef j u⟩
  let g := s.host.locks.all (fun x => !x.conflicts l)
  let s := (s.modHost (fun h => { h with locks := h.locks ++ [{ l with granted := g }] })).countLocks
  if g then s.scanStart j u else s

/-- Issue units until none can be: pods by deficit, jobs of a pod in rotation. -/
def State.issueAll (s : State) : Nat → State
  | 0 => s
  | n + 1 =>
    let can := s.scn.jobs.filter (fun kv => s.issuable kv.2 = some false)
    if can.isEmpty ∨ 32768 ≤ s.host.locks.length then s
    else
      let d := Tab.keep (fun q _ => s.scn.jobs.any (fun kv => kv.2.pod = q)) s.scn.deficit
      match rotate 2 4 (podsOf (can.map (fun kv => kv.2.pod))) 100000 s.pod.pods d s.scn.lastPod with
      | (none, _) => s
      | (some p, pods, d, last) =>
        let s := { s with pod := { s.pod with pods := pods } }.modScn (fun x => { x with
          deficit := Tab.put d p (Tab.lookD d p 0 - 1), lastPod := last })
        let mine := can.filter (fun kv => kv.2.pod = p)
        let k := Tab.lookD s.scn.lastJob p 0
        match mine.find? (fun kv => k < kv.1), mine.head? with
        | some kv, _ => (s.issueUnit kv.1 kv.2).issueAll n
        | none, some kv => (s.issueUnit kv.1 kv.2).issueAll n
        | none, none => s

/-- Jobs whose next unit waits for an off group say so once (R271). -/
def State.groupWaits (s : State) : State :=
  s.scn.jobs.foldl (fun s kv =>
    if s.issuable kv.2 = some true ∧ !kv.2.waitRaised then
      (s.modJob kv.1 (fun b => { b with waitRaised := true })).raise 467 1 [s.engineOf kv.2 (s.nextUnit kv.2) / 8]
    else s) s

/-- Issue what can be issued; a job with nothing left to scan ends. -/
def State.scanIssue (s : State) : State :=
  -- no unit is issued while an activation without reset holds the device (Table 10.17)
  let s := if s.flag NVQ_STAT_FETCH_STOPPED then s else (s.issueAll 2048).groupWaits
  ((s.scn.jobs.map (fun kv => kv.1)).foldl (fun s j => match s.job j with
    | some b => if b.waiting then s else s.release j 1
    | none => s) s).countScn

/-! ### Submission (R261, R262) -/

/-- What a submission met. -/
inductive Taken where
  | ended
  | busy
  deriving DecidableEq, Repr

/-- Whether a submitter may read a namespace (R262); the NVQ submits for a pod. -/
def State.mayScan (s : State) (r : Req) (cmd : Option CmdRef) (nsid : Nat) : Bool :=
  match s.nsOf nsid with
  | none => false
  | some n => isMgmt r.master || ((isCore r.master || cmd.isSome) && n.pods.contains r.pod && n.status ≠ 4)

/-- A job descriptor is submitted: its checks in order, then a running job. -/
def State.scanTake (s : State) (r : Req) (addr : Nat) (d : List Byte) (cmd : Option CmdRef) : Taken × State :=
  let f := leAt d
  let pod := r.pod
  let nsid := f 4 4
  let ev := f 44 4
  let fin := fun (s : State) (status cause : Nat) => (Taken.ended, s.scanEnd addr pod cmd ev status cause 0 (f 8 8))
  let invalid := fun (s : State) (c : Nat) =>
    fin ((s.countS SCN_ERR_STAT_INVALID SCN_ERR_STAT_OVF 1).raisePod 465 c [pod, r.master] pod) 0x12 c
  if !s.mayScan r cmd nsid then fin s 0x13 0
  else if 256 ≤ s.scn.jobs.length ∨ s.fld SCN_CTRL_POD_JOBS ≤ (s.scn.jobs.filter (fun kv => kv.2.pod = pod)).length then
    (match cmd with | some _ => (.busy, s) | none => fin s 0x14 0)
  else
    let units := ((s.nsOf nsid).map Ns.units).getD 0
    if f 16 8 = 0 ∨ units < f 8 8 + f 16 8 then fin s 0x15 1
    else
      match s.loadProg (f 24 8) with
      | (.ok, p, s) =>
        if f 40 4 < 64 + 16 * leAt p 19 1 then fin s 0x15 2
        else if 2 ≤ f 0 1 ∨ f 1 3 ≠ 0 ∨ f 32 8 % 8 ≠ 0 ∨ (cmd.isNone ∧ f 48 2 ≠ 0) then fin s 0x15 3
        else
          match progCause p with
          | some c => invalid s c
          | none =>
            let g := progOf p
            let seen := if g.bloomK = 0 then (BusStatus.ok, [], s) else s.load scanReq g.bloomAddr (2 ^ g.mbits / 8)
            match seen with
            | (.ok, _, s) =>
              let b : ScanJob :=
                { addr := addr, master := r.master, pod := pod, cmd := cmd, skip := bit (f 0 1) 0, nsid := nsid,
                  start := f 8 8, count := f 16 8, prog := g, resAddr := f 32 8, resLen := f 40 4, evFlag := ev, bloom := [],
                  waiting := g.bloomK ≠ 0, next := f 8 8, busy := [], staged := [], used := 64 + 16 * g.aggs.length,
                  records := 0, matched := 0, malformed := 0, aggs := g.aggs.map (fun _ => ⟨0, false⟩), waitRaised := false }
              let j := s.scn.nextJob
              let s := s.modScn (fun n => { n with jobs := Tab.put n.jobs j b, nextJob := j + 1 })
              (.ended, s.bloomStart.scanIssue)
            | (_, _, s) => invalid s 8
      -- the spec names no cause for a program that cannot be read: a free one of Table 8.8 (log entry 46)
      | (_, _, s) => let (c, s) := s.draw 8; invalid s (c + 1)

/-- Execute Programs held at a job limit are submitted once a job has ended (R263), oldest first. -/
def State.heldScans (s : State) : Nat → State
  | 0 => s
  | n + 1 =>
    match s.scn.held with
    | [] => s
    | (c, d) :: rest =>
      match s.scanTake ⟨0x60, c.pod⟩ 0 d (some c) with
      | (.busy, _) => s
      | (.ended, s') => (s'.modScn (fun x => { x with held := rest })).heldScans n

/-- Follow-up of anything that may end jobs or let units go: held commands, then issue. -/
def State.scanGo (s : State) : State := (s.heldScans (s.scn.held.length)).scanIssue

/-- A job is ended by an operation on its namespace or pod (R270). -/
def State.abortScans (s : State) (p : ScanJob → Bool) (cause : Nat) : State :=
  ((s.scn.jobs.filter (fun kv => p kv.2)).map (fun kv => kv.1)).foldl (fun s j => s.endJob j 0x17 cause) s

/-- The oldest lock request that may be granted is granted and its command or scan unit starts (R316). -/
def State.grantNext (s : State) : State :=
  if s.flag NVQ_STAT_FETCH_STOPPED then s
  else
  match s.host.locks.find? (fun l => !l.granted && grantable s.host.locks l) with
  | none => s
  | some l =>
    let s := (s.modHost (fun h => { h with locks := h.locks.map (fun x => if x = l then { x with granted := true } else x) })).countLocks
    if 2 ^ 16 ≤ l.cmd.pod then s.scanStart (l.cmd.pod - 2 ^ 16) l.cmd.cid else s.ioStart l.cmd

/-- LOCK_GRANT (R316): the lock table grants the first request of the order that nothing earlier conflicts with. -/
def execLockGrant (s : State) : Res := s.fresh.grantNext.done s

/-! ### The commands -/

/-- SCN_SUBMIT: the write of SCN_SUBMIT_HI; the address's low word was written before (R261). -/
def State.scanSubmit (s : State) (r : Req) (addr : Nat) : State :=
  let a := addr / 64 * 64
  match s.load scanReq a 64 with
  | (.ok, d, s) => (s.scanTake r a d none).2
  -- a descriptor that cannot be read completes nothing: there is nowhere to write a status (log entry 43)
  | (_, _, s) => s

/-- SCN_SUBMIT (R261). -/
def execScnSubmit (r : Req) (addr : Nat) (s : State) : Res :=
  (s.fresh.atRegW r (SCN_SUBMIT_HI.key 0 0) (fun s => s.scanSubmit r addr)).done s

/-- The running job of a descriptor's address ends with CANCELLED. -/
def State.scanCancel (s : State) (addr : Nat) : State :=
  match s.scn.jobs.find? (fun kv => kv.2.addr = addr / 64 * 64 && kv.2.cmd.isNone) with
  | some kv => (s.endJob kv.1 0x16 0).scanGo
  | none => s

/-- SCN_CANCEL (R270). -/
def execScnCancel (r : Req) (addr : Nat) (s : State) : Res :=
  (s.fresh.atRegW r (SCN_CANCEL_HI.key 0 0) (fun s => s.scanCancel addr)).done s

/-- SCAN_UNIT_DONE (R249-R259, R265, R272): an engine finishes the first unit of its queue whose data are there. -/
def State.scanUnitDone (s : State) (e : Nat) : State :=
  let q := Tab.lookD s.scn.queue e []
  if !s.domOn (24 + e / 8) ∨ Config.scnEngines s.part ≤ e then s
  else
    match q.find? (fun x => x.data.isSome) with
    | none => s
    | some x =>
      let s := s.modScn (fun n => { n with queue := Tab.put n.queue e (q.erase x) })
      match s.job x.job, x.data with
      | some b, some d =>
        let r := scanUnit b.prog b.bloom d
        let s := s.countW SCN_ENG_RECORDS_LO SCN_ENG_RECORDS_HI r.records e
        let s := s.countW SCN_ENG_MATCHED_LO SCN_ENG_MATCHED_HI r.matched e
        let s := s.countW SCN_ENG_IN_LO SCN_ENG_IN_HI d.length e
        let s := s.countW SCN_ENG_OUT_LO SCN_ENG_OUT_HI r.bytes.length e
        let s := r.bad.foldl (fun s c =>
          (s.countS SCN_ERR_STAT_MALFORMED SCN_ERR_STAT_OVF 1).raise 466 c (b.nsid :: w64 x.unit ++ [0, x.job])) s
        (s.stage x.job x.unit r).scanGo
      | _, _ => s

/-- SCAN_UNIT_DONE. -/
def execScanUnitDone (e : Nat) (s : State) : Res := (s.fresh.scanUnitDone e).done s

end Sys2Proof.Machine
end

