-- ==== Sys2Proof/Machine/Flash.lean ====
section
/-!
DEFINITION. The flash channels' commands (chapter 5): discovery, operation descriptors and their ends, timeouts, erase
suspension, power credits, retraining, the read-level tracker, patrol, advisories and group commands.
-/
namespace Sys2Proof.Machine

/-! ### Discovery (R142-R147) -/

/-- The geometry of a die (R143). -/
def Lun.geometry (l : Lun) : List Nat := [l.iface, l.bpc, l.pageBytes, l.spareBytes, l.pages, l.planes, l.blocks]

/-- Whether a die passed step 2 of Table 5.1. -/
def Lun.read (l : Lun) : Bool := (l.status = 1 || l.status = 2) && l.exclCause ≠ 2

/-- Whether every eye of a die passes step 4 of R147: 0.35 UI wide, in 1/256 UI, and 60 mV high. -/
def extPasses (d : DieReport) : Bool := 90 ≤ d.rdEyeW && 90 ≤ d.wrEyeW && 60 ≤ d.rdEyeH && 60 ≤ d.wrEyeH

/-- The LUN of a die's report: what it answered and what its training found, its exclusion still to be decided. -/
def State.lunOf (s : State) (n : Nat) (d : DieReport) : Lun :=
  let mx := s.fld (FCH_CTRL_MAX_RATE.chan n)
  let std := min d.rate (min 6 mx)
  let ext := if s.flag (FCH_CTRL_EXT_ALLOW.chan n) ∧ std = 6 ∧ 7 ≤ d.extReported ∧ d.extReported ≤ 9 then d.extReported else 0
  let best := min d.extPass (min ext mx)
  let rate := if 7 ≤ best ∧ extPasses d then best else std
  -- no copy of the parameter page passed: the die has given no geometry (step 2)
  let d := if d.pageOk then d else { d with
    iface := 0, bpc := 0, pageBytes := 0, spareBytes := 0, pages := 0, planes := 0, blocks := 0, tR := 0, tProg := 0, tBers := 0,
    endurance := 0, offStep := 0 }
  { status := if d.pageOk then 1 else 2, exclCause := if d.pageOk then 0 else 2, iface := d.iface, bpc := d.bpc,
    jedecId := d.jedecId, pageBytes := d.pageBytes, spareBytes := d.spareBytes, pages := d.pages, planes := d.planes,
    blocks := d.blocks, tR := d.tR, tProg := d.tProg, tBers := d.tBers, endurance := d.endurance, offStep := d.offStep,
    rate := rate, ext := ext, rdEyeW := d.rdEyeW, wrEyeW := d.wrEyeW, rdEyeH := d.rdEyeH, wrEyeH := d.wrEyeH,
    vref := d.vref, trainedAt := s.time, temp := d.temp, queue := [], running := none, suspended := none, suspCount := 0,
    startedAt := 0, ranNs := 0, suspAt := 0, resetting := none, loaded := [], groups := [], sinceDither := 0, natives := [], features := [] }

/-- The reference geometry: the one most dies share, that of the lowest die among equals (R143). -/
def State.refGeometry (s : State) : List Nat :=
  let gs := (s.flash.luns.filter (fun kv => kv.2.read)).map (fun kv => kv.2.geometry)
  let cnt := fun (g : List Nat) => (gs.filter (fun x => x = g)).length
  (gs.foldl (fun (a : Option (List Nat)) g =>
    match a with
    | none => some g
    | some b => if cnt b < cnt g then some g else a) none).getD []

/-- Whether a die fails the bounds of R145. -/
def State.outOfBounds (s : State) (l : Lun) : Bool :=
  !s.flag (if l.iface = 0 then LDP_BOUNDS_0_ONFI_OK else LDP_BOUNDS_0_TOGGLE_OK)
    || !(if l.bpc = 3 then s.flag LDP_BOUNDS_0_TLC_OK else if l.bpc = 4 then s.flag LDP_BOUNDS_0_QLC_OK else false)
    || l.planes = 0 || s.fld LDP_BOUNDS_0_MAX_PLANES < l.planes || s.fld LDP_BOUNDS_0_MAX_BLOCKS < l.blocks
    || s.fld LDP_BOUNDS_1_MAX_PAGES < l.pages || l.spareBytes < s.fld LDP_BOUNDS_1_MIN_SPARE
    || l.endurance < s.fld LDP_BOUNDS_0_MIN_ENDUR || l.pageBytes ≠ 16384

/-- The exclusion cause of a die after steps 3-5 of Table 5.1, and 5 for every die when no frame code fits the reference geometry (R158);
0 when it is in use. -/
def State.exclCauseOf (s : State) (i : Nat) (l : Lun) : Nat :=
  let first := (s.flash.luns.find? (fun kv => kv.1 / 64 = i / 64 && kv.2.read)).map (fun kv => kv.2.iface)
  if l.exclCause = 2 then 2
  else if (s.frameCode (s.refGeometry.getD 3 0)).isNone then 5
  else if first ≠ some l.iface then 3
  else if l.geometry ≠ s.refGeometry then 4
  else if s.outOfBounds l then 5
  else if l.rate = 0 then 6
  else 0

/-- Set the channel's status from its dies (R146, Table 5.5); failed tells whether no die is usable. -/
def State.chanStatus (s : State) (n : Nat) : State :=
  let ls := s.flash.luns.filter (fun kv => kv.1 / 64 = n && kv.2.status = 1)
  let rate := ls.foldl (fun a kv => min a kv.2.rate) 15
  let s := s.setFld (FCH_STAT_STATE.chan n) (if ls.isEmpty then 4 else 2)
  let s := s.setFld (FCH_STAT_RATE.chan n) (if ls.isEmpty then 0 else rate)
  let s := s.setFld (FCH_STAT_EXT.chan n) (b2n (!ls.isEmpty && decide (7 ≤ rate)))
  s.setFld (FCH_STAT_IFACE.chan n) (((ls.head?).map (fun kv => kv.2.iface)).getD 0)

/-- Blocks that a die marks bad enter the bad-block table with cause 1 at its first use (R210). -/
def State.factoryBad (s : State) (i : Nat) (d : DieReport) : State :=
  match s.lun i with
  | none => s
  | some l =>
    if l.status ≠ 1 then s
    else (d.bad.filter (fun b => decide (b < l.blocks))).foldl (fun (s : State) b =>
      if s.nv.badTable.any (fun e => e / 2 ^ 33 = i * 2 ^ 20 + b) then s else s.retire i b 1) s

/-- Discovery of a channel ends (R142): its dies are known, every die is judged against the reference again. A die expected that did not
answer is reported with cause 1 and has no record (R144). -/
def State.discovered (s : State) (n : Nat) (dies : List DieReport) : State :=
  if Config.fchCount s.part ≤ n ∨ s.fld PWR_FPG_STAT_STATE (n / 2) ≠ 2 then s
  else
    let s := (s.phaseTo 5).modFlash (fun f => { f with luns := Tab.keep (fun i _ => i / 64 ≠ n) f.luns })
    let new := dies.filter (fun d => d.answers && d.die < 64)
    let s := new.foldl (fun s d => s.putLun (64 * n + d.die) (s.lunOf n d)) s
    let judged := s.flash.luns.filter (fun kv => kv.2.status = 1 || kv.2.status = 2)
    let s' := judged.foldl (fun (a : State) kv =>
      let c := s.exclCauseOf kv.1 kv.2
      let a := a.putLun kv.1 { kv.2 with status := if c = 0 then 1 else 2, exclCause := c }
      let was := if kv.1 / 64 = n then 0 else kv.2.exclCause
      if c ≠ 0 ∧ was = 0 then a.raise (224 + 4 * (kv.1 / 64)) 1 [kv.1 % 64, c] else a) s
    let s' := new.foldl (fun (a : State) d => a.factoryBad (64 * n + d.die) d) s'
    let s' := new.foldl (fun (a : State) d =>
      match a.lun (64 * n + d.die) with
      | some l => if l.status = 1 ∧ l.rate < l.ext then a.raise (224 + 4 * n) 2 [d.die, l.rate] else a
      | none => a) s'
    let s' := (dies.filter (fun d => !d.answers && decide (d.die < 64))).foldl (fun (a : State) d => a.raise (224 + 4 * n) 1 [d.die, 1]) s'
    let s' := (podsOf (judged.map (fun kv => kv.1 / 64) ++ [n])).foldl (fun a k => a.chanStatus k) s'
    if s'.fld (FCH_STAT_STATE.chan n) = 4 then s'.raise (224 + 4 * n) 4 [0, 0] else s'

/-- FLASH_DISCOVERY_COMPLETE (R142-R147). -/
def execFlashDiscoveryComplete (n : Nat) (dies : List DieReport) (s : State) : Res := (s.fresh.discovered n dies).done s

/-! ### Submissions (R149, R150) -/

/-- FCH_READ (R150). -/
def execFchRead (r : Req) (n addr : Nat) (s : State) : Res := (s.fresh.submitOp r n addr).done s

/-- FCH_PROGRAM (R150, R440). -/
def execFchProgram (r : Req) (n addr : Nat) (s : State) : Res := (s.fresh.submitOp r n addr).done s

/-- FCH_ERASE (R150, R204, R440). -/
def execFchErase (r : Req) (n addr : Nat) (s : State) : Res := (s.fresh.submitOp r n addr).done s

/-- FCH_SWEEP (R150, R170). -/
def execFchSweep (r : Req) (n addr : Nat) (s : State) : Res := (s.fresh.submitOp r n addr).done s

/-- FCH_GET_FEATURE (R149, R150). -/
def execFchGetFeature (r : Req) (n addr : Nat) (s : State) : Res := (s.fresh.submitOp r n addr).done s

/-- FCH_SET_FEATURE (R149, R150). -/
def execFchSetFeature (r : Req) (n addr : Nat) (s : State) : Res := (s.fresh.submitOp r n addr).done s

/-! ### The read-level tracker (R160-R170) -/

/-- A group is advised (R169): entered once per reason until the entry is read. -/
def State.advise (s : State) (i g reason : Nat) : State :=
  if s.flash.advise.contains (i, g, reason) then s
  else (s.modFlash (fun f => { f with advise := f.advise ++ [(i, g, reason)] })).raise (227 + 4 * (i / 64)) reason [i % 64, g]

/-- Whether a frame's hard read is that of an erased page (R161). -/
def erasedFrame (f : FrameStat) : Bool := Nat.blt f.zeros 64

/-- Iterations of an attempt at a frame: those the codec took, at most its limit, or one more when it failed (R159, R160). -/
def State.frameIters (s : State) (f : FrameStat) (ok : Bool) : Nat :=
  let limit := if f.step < 3 then s.fld LDP_CODE_HARD_ITER else s.fld LDP_CODE_SOFT_ITER
  if ok then min f.iters limit else limit + 1

/-- Whether retry set k is in use: one of its words is not zero (Table 5.17). -/
def State.retrySet (s : State) (k : Nat) : Bool := (List.range 4).any (fun w => decide (s.reg LDP_RETRY k w ≠ 0))

/-- The retry set a read that succeeded at step 2 ended on: the one reported, or the first in use from there on. -/
def State.retryUsed (s : State) (f : FrameStat) : Option Nat := (List.range 8).find? (fun k => decide (f.set % 8 ≤ k) && s.retrySet k)

/-- The step of Table 5.15 a frame ended at: step 1 is there only for a dithered read, step 2 only while a set is in use (R162). -/
def State.stepOf (s : State) (op : FlashOp) (f : FrameStat) : Nat :=
  if f.step = 0 ∨ 3 ≤ f.step then f.step
  else if f.step = 1 ∧ op.dither.isSome then 1
  else if (s.retryUsed f).isSome then 2
  else 3

/-- The frames of a READ with the steps they can have ended at. -/
def State.framesOf (s : State) (op : FlashOp) (fs : List FrameStat) : List FrameStat := fs.map (fun f => { f with step := s.stepOf op f })

/-- An average with weight 1/64 and 8 fraction bits (R167). -/
def avg64 (a x : Int) : Int := a + Int.tdiv (x * 256 - a) 64

/-- Set group g of a LUN. -/
def State.putGroup (s : State) (i g : Nat) (x : Group) : State :=
  match s.lun i with
  | none => s
  | some l => s.putLun i { l with groups := Tab.put l.groups g x }

/-- The day of the PATROL averages is over (R169): groups above ITER_REFRESH are advised, and all averages begin anew. -/
def State.refreshDay (s : State) : State :=
  if s.time < s.flash.dayAt + 86400000000000 then s
  else
    let s := s.flash.luns.foldl (fun (s : State) kv =>
      kv.2.groups.foldl (fun (s : State) gg =>
        if gg.2.active ∧ gg.2.patrolCount ≠ 0 ∧ s.fld LDP_TRACK_LIM_ITER_REFRESH * gg.2.patrolCount < gg.2.patrolSum
        then s.advise kv.1 gg.1 3 else s) s) s
    s.modFlash (fun f => { f with dayAt := s.time, luns := Tab.mapVals (fun _ l =>
      { l with groups := Tab.mapVals (fun _ g => { g with patrolSum := 0, patrolCount := 0 }) l.groups }) f.luns })

/-- The accumulator's decision of a threshold (R167): the group, whether it clamped, and steps taken. -/
def Group.decide (g : Group) (t : Nat) (x : Thresh) (limit hyst offMax : Nat) : Group × Bool × Nat :=
  if x.pairs ≠ limit then ({ g with thr := Tab.put g.thr t x }, false, 0)
  else
    let off := if ((hyst * 256 : Nat) : Int) < x.acc then x.off - 1 else if x.acc < -((hyst * 256 : Nat) : Int) then x.off + 1 else x.off
    -- R169's text: an offset that reaches OFF_MAX is advised, whether or not it was cut back there (log entry 187)
    let clamp : Bool := ((offMax : Int) ≤ off || off ≤ -(offMax : Int)) && !(off == x.off)
    let off' := if (offMax : Int) < off then (offMax : Int) else if off < -(offMax : Int) then -(offMax : Int) else off
    let g := { g with thr := Tab.put g.thr t { x with off := off', acc := 0, pairs := 0 },
                      gen := if off' = x.off then g.gen else (g.gen + 1) % 256 }
    (g, clamp, b2n (off' ≠ x.off))

/-- A frame decoded at step 0 or 1 updates its group (R167). -/
def State.trackStats (s : State) (i : Nat) (l : Lun) (op : FlashOp) (f : FrameStat) : State :=
  let m := pageType l op
  let k := op.group
  let g := l.group k
  if op.gen ≠ g.gen then s
  else
    match (if f.step = 0 then op.dither else none) with
    | none => s.putGroup i k { g with
        b10 := Tab.put g.b10 m (avg64 (Tab.lookD g.b10 m 0) f.n10), b01 := Tab.put g.b01 m (avg64 (Tab.lookD g.b01 m 0) f.n01) }
    | some (t, plus) =>
      let pol := (s.coding (bit op.flags 4) m).2 t
      let a : Int := f.n10 * 256 - Tab.lookD g.b10 m 0
      let b : Int := f.n01 * 256 - Tab.lookD g.b01 m 0
      let up := if pol then a else b
      let dn := if pol then b else a
      let x := g.th t
      let x := if plus then { x with half := up, halfOk := true }
               else if x.halfOk then { x with acc := x.acc + (x.half - dn), halfOk := false, pairs := x.pairs + 1 }
               else x
      let limit := if bit op.flags 2 then s.fld LDP_TRACK_CFG_TRACK_N_PATROL else s.fld LDP_TRACK_CFG_TRACK_N
      let (g, clamp, steps) := g.decide t x limit (s.fld LDP_TRACK_CFG_HYST) (s.fld LDP_TRACK_LIM_OFF_MAX)
      let s := (s.putGroup i k g).countS LDP_TRACK_STAT_STEPS LDP_TRACK_STAT_OVF steps
      if clamp then s.advise i k 1 else s

/-- A decode attempt of a frame of the LUN's running READ reaches the tracker (R160, R161, R167-R169, R171). -/
def State.trackFrame (s : State) (i : Nat) (l : Lun) (op : FlashOp) (f : FrameStat) (ok : Bool) : State :=
  let k := op.group
  let g := l.group k
  if erasedFrame f ∨ !g.active then s
  else
    let it := s.frameIters f ok
    let g := { g with iterAvg := avg64 g.iterAvg it, frames := g.frames + b2n (f.step = 0) }
    let g := if bit op.flags 2 then { g with patrolSum := g.patrolSum + it, patrolCount := g.patrolCount + 1 } else g
    let dith := f.step = 0 ∧ op.dither.isSome
    let d := if dith then g.dithered + 1 else g.dithered
    let n := if dith ∧ !ok then g.dithFails + 1 else g.dithFails
    let trip := decide (2 ≤ n) && !g.suspended
    let low := decide (g.iterAvg < ((s.fld LDP_TRACK_LIM_ITER_DITHER_MAX * 256 : Nat) : Int))
    let g := { g with dithered := if 1024 ≤ d then 0 else d, dithFails := if 1024 ≤ d ∨ trip then 0 else n,
                      suspended := trip || (g.suspended && !low) }
    let s := s.putGroup i k g
    let s := if trip then s.raise (227 + 4 * (i / 64)) 4 [i % 64, k] else s
    let s := if ((s.fld LDP_TRACK_LIM_ITER_SWEEP * 256 : Nat) : Int) < g.iterAvg then s.advise i k 2 else s
    match ok ∧ f.step ≤ 1, s.lun i with
    | _, none => s
    | _, some l' => if ok ∧ f.step ≤ 1 then s.trackStats i l' op f else s

/-- LDPC_FRAME_DECODE (R159-R162, R167): one attempt at a frame of the LUN's running READ ended at a step of Table 5.15. -/
def execLdpcFrameDecode (i : Nat) (f : FrameStat) (ok : Bool) (s : State) : Res :=
  (let s := s.fresh.refreshDay
   match s.lun i with
   | some l => (match l.running with
     | some op => if op.op = 1 then s.trackFrame i l op { f with step := s.stepOf op f } ok else s
     | none => s)
   | none => s).done s

/-! ### Retraining (R148) -/

/-- What a retraining finds for a die, all of it free: its eyes and its VREF code (log entry 188). -/
def State.flashMargins (s : State) : (Lun → Lun) × State :=
  let (a, s) := s.draw 256
  let (b, s) := s.draw 256
  let (c, s) := s.draw 65536
  let (d, s) := s.draw 65536
  let (e, s) := s.draw 65536
  (fun l => { l with rdEyeW := a, wrEyeW := b, rdEyeH := c, wrEyeH := d, vref := e }, s)

/-- A die has been retrained, or has failed and every die of its channel has been retrained one rate lower (R148). The 5 ms that this takes
at most lie within the command: the channel starts nothing meanwhile, and STATE 3 is over when the next command sees it (log entry 188).
What the retraining found is free, and so are the temperatures of the dies the report does not name. -/
def State.retrain (s : State) (i : Nat) (ok : Bool) (tempC : Int) : State :=
  match s.lun i with
  | none => s
  | some l =>
    let n := i / 64
    let s := s.bgCharge 0 n 60000
    if ok then
      let (m, s) := s.flashMargins
      s.putLun i { m l with trainedAt := s.time, temp := tempC }
    else
      let r := max 1 (s.fld (FCH_STAT_RATE.chan n) - 1)
      let s : State := (s.flash.luns.filter (fun kv => kv.1 / 64 = n)).foldl (fun (s : State) kv =>
        if kv.2.status ≠ 1 then s
        else
          let (m, s) := s.flashMargins
          let (t, s) := s.draw 256
          s.putLun kv.1 { m kv.2 with rate := min kv.2.rate r, trainedAt := s.time, temp := if kv.1 = i then tempC else toSigned 8 t }) s
      (s.chanStatus n).raise (224 + 4 * n) 3 [i % 64, r]

/-- DIE_RETRAIN_PERIODIC (R148). -/
def execDieRetrainPeriodic (i : Nat) (ok : Bool) (tempC : Int) (s : State) : Res :=
  (let s := s.fresh
   match s.lun i with
   | some l => if l.status = 1 then (s.notBefore (l.trainedAt + s.fld (FCH_CTRL_RETRAIN_H.chan (i / 64)) * 3600000000000)).retrain i ok tempC else s
   | none => s).done s

/-! ### Ends of array operations (R149, R162, R170, R187) -/

/-- A read job's owner learns that its unit is lost. -/
def State.readLost (s : State) (j : Nat) : State :=
  match Tab.look s.ftl.reads j with
  | none => s
  | some x =>
    let s := s.modFtl (fun f => { f with reads := Tab.del f.reads j })
    match x.owner with
    | .cmd c => s.ioLost c
    | .scan k u => (s.scanLost k u).scanGo
    | .tag _ _ => s
    | .ask k => s.localCame k none
    | .page _ => s

/-- The plain unit of a read job reaches its owner (R236). -/
def State.readDone (s : State) (j : Nat) (x : ReadJob) (plain : List Byte) : State :=
  let s := s.modFtl (fun f => { f with reads := Tab.del f.reads j })
  match x.owner with
  | .cmd c => s.ioArrive c x.laddr plain
  | .scan k u => s.scanArrive k u plain
  | .tag _ _ => s
  | .ask k => s.localCame k (some plain)
  | .page _ => s

/-- A read job whose map page has come is looked up again (R178). -/
def State.relook (s : State) (j : Nat) : State :=
  match Tab.look s.ftl.reads j with
  | none => s
  | some x =>
    match s.lookUnit x.laddr with
    | .data d =>
      let zeros := List.replicate (s.unitBytes x.laddr) 0#8
      s.readDone j x (match x.owner with | .cmd _ => d | _ => if d.isEmpty then zeros else d)
    | .lost => s.readLost j
    | .flash e => (s.modFtl (fun f => { f with reads := Tab.put f.reads j { x with entry := e, step := 0 } })).submitRead j
    | .miss _ => s

/-- The read jobs that wait for a map page. -/
def State.waitPage (s : State) (k : Nat) : List Nat :=
  (s.ftl.reads.filter (fun kv => kv.2.step = 3 && kv.2.laddr / 512 = k)).map (fun kv => kv.1)

/-- A map page has been read: it is held, with its replayed records, and whoever waits for it goes on (R178, R218). -/
def State.pageHeld (s : State) (j k : Nat) : State :=
  let s := s.modFtl (fun f => { f with reads := Tab.del f.reads j, unheld := f.unheld.filter (fun x => x ≠ k) })
  let s := (s.waitPage k).foldl (fun s w => s.relook w) s
  let waits := (s.host.out.filter (fun o => o.stage = .waitBuffer)).map (fun o => (⟨o.pod, o.qid, o.cid⟩ : CmdRef))
  waits.foldl (fun s c => s.bufferAdmit c) s

/-- A map page cannot be read: the units that wait for it are lost to their readers. -/
def State.pageLost (s : State) (j k : Nat) : State :=
  let s := s.modFtl (fun f => { f with reads := Tab.del f.reads j })
  (s.waitPage k).foldl (fun s w => s.readLost w) s

/-- The owner of an operation of the accelerators' own learns that it has not been done. -/
def State.ownerLost (s : State) (o : FlashOp) : State := if o.job = 0 then s else s.readLost o.job

/-- Reads of a LUN that takes no operations end as LUN_UNAVAILABLE (R141): what they were to read is lost to their owners. -/
def State.lostReads (s : State) (i : Nat) : State :=
  if s.lunServes i then s
  else ((s.ftl.reads.filter (fun kv => kv.2.step = 0 && entryLun kv.2.entry = i)).map (fun kv => kv.1)).foldl (fun s j => s.readLost j) s

/-- An extent enters the decompression pipe of its channel (R237). -/
def State.toDecomp (s : State) (n j : Nat) : State :=
  let x := s.pipe (32 + n)
  let s := s.putPipe (32 + n) { x with units := x.units ++ [j] }
  s.modFtl (fun f => { f with reads := Tab.upd f.reads j (fun y => { y with step := 2 }) })

/-- The PFAs of the frames an extent lies in. -/
def entryFrames (e : Nat) : List Nat :=
  (List.range (ceilDiv (bits e 18 13 + entryGrains e) 64)).map (fun k => e / 2 ^ 19 + k)

/-- Whether frames can be rebuilt: each lies in a stripe row with parity (R186, R187). -/
def State.rebuilds (s : State) (pfas : List Nat) : Bool := pfas.all (fun p => !(s.rowOf p).isEmpty)

/-- Die-parity rebuild, frame by frame, of what a read job lost (R187): whether the row's other frames decode is the read's outcome, and what
their XOR gives is what the lost frame held, since the parity frame holds the XOR of the row (`State.parityFrame`). Cause 1 after a lost
frame, 3 after a container check. The reads of the other frames are not queued on their LUNs (log entry 192). -/
def State.rebuild (s : State) (j : Nat) (x : ReadJob) (pfas : List Nat) (cause : Nat) (ok : Bool) : State :=
  if ok then
    let s := pfas.foldl (fun (s : State) p => (s.countS FTL_ERR_STAT_REBUILT FTL_ERR_STAT_OVF 1).raise 355 cause (w64 p)) s
    let s := s.addVictim (sbOf (entryLun x.entry) (entryBlock x.entry)) 3
    s.modFtl (fun f => { f with reads := Tab.put f.reads j { x with rebuilt := true } })
  else
    ((s.countS FTL_ERR_STAT_REBUILD_FAIL FTL_ERR_STAT_OVF 1).modFtl (fun f => { f with parityLost := true })).raise 355 2
      (w64 (pfas.headD 0))

/-- The status of a READ from its frames (Table 5.8). -/
def readStatus (fs : List FrameStat) : Nat :=
  if !fs.isEmpty ∧ fs.all erasedFrame then 0x03
  else if fs.any (fun f => !erasedFrame f && decide (5 ≤ f.step)) then 0x10
  else if fs.any (fun f => !erasedFrame f && decide (2 ≤ f.step)) then 0x02
  else 0x01

/-- The PFAs of the frames a READ names, in order. -/
def FlashOp.pfas (op : FlashOp) (i : Nat) : List Nat :=
  ((List.range 4).filter (fun f => bit op.frames f)).map (fun f => i * 2 ^ 34 + op.block * 2 ^ 14 + 4 * op.page + f)

/-- The frames a READ has lost: those that failed every step, or all of them where a header fails R181. -/
def FlashOp.lostFrames (op : FlashOp) (i : Nat) (e : ArrayEnd) : List Nat :=
  if e.hdrOk ∧ e.frames.any (fun f => decide (5 ≤ f.step)) then
    ((List.zip (op.pfas i) e.frames).filter (fun x => decide (5 ≤ x.2.step))).map Prod.fst
  else op.pfas i

/-- The payload a READ with DEST 1 delivers: what its frames hold, where the model holds them, else what the report says. -/
def State.payload (s : State) (i : Nat) (op : FlashOp) (data : List Byte) : List Byte :=
  (List.zip (op.pfas i) (List.range 4)).flatMap (fun x => (s.flashFrame x.1).getD (slice data (4096 * x.2) (min 4096 (data.length - 4096 * x.2))))

/-- The offsets a READ leaves in its LUN (R164): those of the last read of Table 5.15 that it made. -/
def State.readOffsets (s : State) (l : Lun) (op : FlashOp) (fs : List FrameStat) : Tab Int :=
  let sd : Int := 2 * s.fld LDP_TRACK_CFG_DITHER_STEPS
  let all := fun (d : Int) => (s.coding (bit op.flags 4) (pageType l op)).1.foldl (fun o t => addOff o t d) op.offs
  match (fs.getLast?).map (fun f => (f.step, f)) with
  | none => l.loaded
  | some (0, _) => l.loaded
  | some (1, _) => op.offs
  | some (2, f) =>
    let k := (s.retryUsed f).getD 0
    let d := fun t => toSigned 8 (s.reg LDP_RETRY k ((t - 1) / 4) / 2 ^ (8 * ((t - 1) % 4)) % 256)
    (s.coding (bit op.flags 4) (pageType l op)).1.foldl (fun o t => addOff o t (d t)) op.offs
  | some (3, _) => all sd
  | some _ => all (3 * sd)

/-- A READ ends. -/
def State.readEnd (s : State) (i : Nat) (op : FlashOp) (e0 : ArrayEnd) : State :=
  let n := i / 64
  let e := { e0 with frames := s.framesOf op e0.frames }
  let s := match s.lun i with | some l => s.putLun i { l with loaded := s.readOffsets l op e.frames } | none => s
  let st := readStatus e.frames
  let s := e.frames.foldl (fun s f =>
    if !erasedFrame f ∧ 2 ≤ f.step then s.raise (226 + 4 * n) (if f.step = 2 then 1 else if f.step ≤ 4 then 2 else 3) [i % 64, op.block, op.page]
    else s) s
  let live := e.frames.filter (fun f => !erasedFrame f)
  let step := live.foldl (fun a f => max a f.step) 0
  let iter := live.foldl (fun a f => max a (s.frameIters f (decide (f.step < 5)))) 0
  let bits_ := ((live.filter (fun f => decide (f.step < 5))).map (fun f => f.n10 + f.n01)).sum
  let s := if live.any (fun f => f.busCrc && decide (1 ≤ f.step)) then s.retrain i e.retrainOk e.tempC else s
  if op.job ≠ 0 then
    match Tab.look s.ftl.reads op.job with
    | none => s
    | some x =>
      let good := (st = 0x01 || st = 0x02) && e.hdrOk
      match x.owner with
      | .page k => if good then s.pageHeld op.job k else s.pageLost op.job k
      | _ =>
        if good then s.toDecomp n op.job
        else if x.rebuilt then s.readLost op.job
        else
          let lost := op.lostFrames i e
          let ok := e.rowOk && s.rebuilds lost
          let s := s.rebuild op.job x lost 1 ok
          if ok then s.toDecomp n op.job else s.readLost op.job
  else if op.dest = 1 then
    let s := if bit op.flags 6 ∨ st = 0x03 ∨ st = 0x10 then s else (s.store ⟨0x70 + n, 0⟩ op.bufAddr (s.payload i op e.data)).2
    s.opEnd i op st step iter bits_
  else
    let s := s.opEnd i op st step iter bits_
    if bit op.flags 6 ∨ (st ≠ 0x01 ∧ st ≠ 0x02) then s
    else
      let j := s.ftl.readNext
      let s := s.modFtl (fun f => { f with
        readNext := j + 1,
        reads := Tab.put f.reads j ⟨.tag (leAt op.tag 0 8) (leAt op.tag 8 8), 0, 0, 1, false⟩ })
      s.toDecomp n j

/-- A PROGRAM ends (R189, R208). -/
def State.programEnd (s : State) (i : Nat) (l : Lun) (op : FlashOp) (ok : Bool) : State :=
  let n := i / 64
  let slc := bit op.flags 4
  let s := if op.addr ≠ 0 ∧ !slc then s.gcOpen i op.block else s
  let x := s.blk i op.block
  let s := s.putBlk i op.block { x with
    wp := op.page + l.wordline slc, pool := if x.pool = 0 then 3 else x.pool, epoch := (if x.pool = 5 then s.nv.epoch else x.epoch) }
  if ok then
    let s := s.countW FTL_MEDIA_GRAINS_LO FTL_MEDIA_GRAINS_HI (256 * l.wordline slc)
    let s := s.opEnd i op 0x01 0 0 0
    if op.addr = 0 then s.laneDone i op.block op.page true else s.gcFull i op.block
  else
    let s := s.countS (FCH_ERR_STAT_PROG_FAIL.chan n) (FCH_ERR_STAT_OVF.chan n) 1
    let s := (s.raise (225 + 4 * n) 1 [i % 64, op.block]).opEnd i op 0x11 0 0 0
    if op.addr = 0 then s.laneDone i op.block op.page false
    else ((s.retire i op.block 2).raise 356 1 [i, op.block]).sbRetire (sbOf i op.block) i

/-- An ERASE ends (R207, R209, R217). -/
def State.eraseEnd (s : State) (i : Nat) (l : Lun) (op : FlashOp) (e : ArrayEnd) : State :=
  let n := i / 64
  if e.ok then
    let s := (s.blockErased i op.block).opEnd i op 0x01 0 0 0
    let s := if s.sanErasing then { s with nv := { s.nv with erased := Tab.put s.nv.erased (2 ^ 20 * i + op.block) true } } else s
    let d := e.tempC - l.temp
    let s := if (s.fld (FCH_CTRL_RETRAIN_DT.chan n) : Int) < d ∨ d < -(s.fld (FCH_CTRL_RETRAIN_DT.chan n) : Int) then
      s.retrain i e.retrainOk e.tempC else s
    s.wearCheck i
  else
    let san := s.sanErasing
    let s := s.countS (FCH_ERR_STAT_ERASE_FAIL.chan n) (FCH_ERR_STAT_OVF.chan n) 1
    let s := (s.raise (225 + 4 * n) 2 [i % 64, op.block]).opEnd i op 0x12 0 0 0
    let s := (s.retire i op.block (if san then 4 else 3)).raise 356 2 [i, op.block]
    if san then { s with nv := { s.nv with
        sanitize := { s.nv.sanitize with failed := s.nv.sanitize.failed + 1 }
        erased := Tab.put s.nv.erased (2 ^ 20 * i + op.block) true } }
    else s

/-- The best offset of a threshold's nine reads: fewest corrected bits, ties to the smaller |k|; none when all failed (R170). -/
def bestOffset (rs : List (Option Nat)) : Option Int :=
  let ks : List Int := [0, -1, 1, -2, 2, -3, 3, -4, 4]
  (ks.foldl (fun (a : Option (Int × Nat)) k =>
    match rs.getD (k + 4).toNat none, a with
    | none, _ => a
    | some c, none => some (k, c)
    | some c, some b => if c < b.2 then some (k, c) else a) none).map (fun x => x.1)

/-- A SWEEP ends (R170). -/
def State.sweepEnd (s : State) (i : Nat) (l : Lun) (op : FlashOp) (e : ArrayEnd) : State :=
  let g := l.group op.group
  let d : Int := s.fld LDP_TRACK_CFG_DITHER_STEPS
  let mx : Int := s.fld LDP_TRACK_LIM_OFF_MAX
  let ths := (s.coding (bit op.flags 4) op.frames).1
  let new := fun (t : Nat) =>
    match e.sweep.find? (fun x => x.1 = t) with
    | some x => (bestOffset x.2).map (fun k => max (-mx) (min mx (Tab.lookD op.offs t 0 + k * d)))
    | none => none
  let g' := ths.foldl (fun (a : Group) t => match new t with
    | some o => { a with thr := Tab.put a.thr t { a.th t with off := o } }
    | none => a) g
  let changed := ths.any (fun t => (g'.th t).off ≠ (g.th t).off)
  let s := s.putGroup i op.group { g' with gen := if changed then (g'.gen + 1) % 256 else g'.gen }
  let clamped := ths.any (fun t => (g'.th t).off ≠ (g.th t).off && ((g'.th t).off = mx || (g'.th t).off = -mx))
  let s := if clamped then s.advise i op.group 1 else s
  let s := match ths.getLast?, s.lun i with
    | some t, some l => s.putLun i { l with loaded := addOff op.offs t (4 * d) }
    | _, _ => s
  let s := s.countS LDP_TRACK_STAT_SWEEPS LDP_TRACK_STAT_OVF 1
  s.opEnd i op (if ths.any (fun t => (new t).isNone) then 0x10 else 0x01) 0 0 0

/-- What a LUN can do once an operation has ended. -/
def State.afterOp (s : State) (i : Nat) : State :=
  ((((s.groupStart (i / 128)).retryReads i).laneProgram i).foldCheck.gcPick (i % 64)).wtCheck.scanGo

/-- An array operation ends (R149), or a LUN under RESET LUN reports ready again, which returns the cost it still held (R154, R156, log entry
184). GET_FEATURE and SET_FEATURE name the feature address in the low byte of PAGE and hold its four value bytes at BUF_ADDR: Table 5.7 has no
field for either, so both are the model's choice (log entry 189). -/
def State.opComplete (s : State) (i : Nat) (e : ArrayEnd) : State :=
  match s.lun i with
  | none => (s.lostReads i).scanGo
  | some l =>
    match l.running with
    | none => if l.resetting.isSome then (s.putLun i { l with resetting := none }).afterOp i else (s.lostReads i).scanGo
    | some op =>
      let s := s.putLun i { l with running := none }
      let s :=
        match op.op with
        | 1 => s.readEnd i op e
        | 2 => s.programEnd i l op e.ok
        | 3 => s.eraseEnd i l op e
        | 4 => s.sweepEnd i l op e
        | 5 =>
          let v := match Tab.look l.features (op.page % 256) with | some v => leBytes 4 v | none => slice e.data 0 4
          ((s.store ⟨0x70 + i / 64, 0⟩ op.bufAddr v).2).opEnd i op 0x01 0 0 0
        | _ =>
          match s.load ⟨0x70 + i / 64, 0⟩ op.bufAddr 4 with
          | (_, v, s) => (s.putLun i { l with running := none, features := Tab.put l.features (op.page % 256) (leNat v) }).opEnd i op 0x01 0 0 0
      s.afterOp i

/-- FCH_OP_COMPLETE (R149). -/
def execFchOpComplete (i : Nat) (e : ArrayEnd) (s : State) : Res := (s.fresh.opComplete i e).done s

/-! ### Timeouts and offline LUNs (R154) -/

/-- An operation exceeds 4 times its typical time, an erase's suspensions apart: TIMEOUT, and RESET LUN; its cost stays taken until the LUN is
ready (R156). -/
def State.arrayTimeout (s : State) (i : Nat) : State :=
  match s.lun i with
  | none => s
  | some l =>
    match l.running with
    | none => s
    | some op =>
      let n := i / 64
      let s := s.notBefore (l.startedAt + (4 * s.arrayNs l op - l.ranNs))
      let s := s.putLun i { l with running := none, resetting := some (s.time, op.cost) }
      let s := s.countS (FCH_ERR_STAT_TIMEOUT.chan n) (FCH_ERR_STAT_OVF.chan n) 1
      let s := (s.raise (225 + 4 * n) 3 [i % 64, op.block]).opEnd i op 0x13 0 0 0
      match op.op with
      | 1 => s.ownerLost op
      | 2 =>
        let x := s.blk i op.block
        let s := s.putBlk i op.block { x with wp := op.page + l.wordline (bit op.flags 4) }
        if op.addr = 0 then s.laneDone i op.block op.page false
        else ((s.retire i op.block 2).raise 356 1 [i, op.block]).sbRetire (sbOf i op.block) i
      | 3 => (s.retire i op.block 3).raise 356 2 [i, op.block]
      | _ => s

/-- FCH_ARRAY_TIMEOUT (R154). -/
def execFchArrayTimeout (i : Nat) (s : State) : Res := (s.fresh.arrayTimeout i).done s

/-- A LUN goes offline: its operations are aborted, what its lane held is placed elsewhere (R154). -/
def State.lunOffline (s : State) (i : Nat) : State :=
  match s.lun i with
  | none => s
  | some l =>
    match (if l.status = 1 then l.resetting else none) with
    | none => s
    | some (at_, _) =>
      let n := i / 64
      let s := s.notBefore (at_ + 10000000)
      let ops := l.suspended.toList ++ l.queue
      let s := s.putLun i { l with status := 3, exclCause := 7, queue := [], running := none, suspended := none, resetting := none }
      let s := s.modFlash (fun f => { f with reserve := Tab.upd f.reserve (i / 128) (fun r => r.filter (fun j => j ≠ i)) })
      let s := s.raise (225 + 4 * n) 4 [i % 64, 0]
      let s : State := ops.foldl (fun (s : State) op => (s.opEnd i op 0x18 0 0 0).ownerLost op) s
      let s := match Tab.look s.ftl.lanes i with | some la => s.laneDrop i la | none => s
      let s := s.chanStatus n
      let s := if s.fld (FCH_STAT_STATE.chan n) = 4 then s.raise (224 + 4 * n) 4 [0, 0] else s
      s.groupStart (i / 128)

/-- LUN_OFFLINE (R154). -/
def execLunOffline (i : Nat) (s : State) : Res := (s.fresh.lunOffline i).done s

/-- ERASE_RESUME (R153): a suspended erase goes on, after its 300 µs while foreground reads still wait. -/
def execEraseResume (i : Nat) (s : State) : Res :=
  (match s.fresh.lun i with
   | some l => (match l.suspended, l.running with
     | some op, none =>
       let s := s.fresh
       let s := if l.queue.any (fun o => o.op = 1 && !s.isBg i o) then s.notBefore (l.suspAt + suspendNs) else s
       s.putLun i { l with running := some op, suspended := none, startedAt := s.time }
     | _, _ => s.fresh)
   | none => s.fresh).done s

/-! ### Power credits (R157) -/

/-- The operation of an idle LUN that waits for its credit, if one does. -/
def State.waitsCredit (s : State) (i : Nat) : Option FlashOp :=
  match s.lun i with
  | some l =>
    if l.running.isSome ∨ l.resetting.isSome ∨ l.status ≠ 1 then none
    else
      match s.nextOp i l with
      | some op => if s.credit i op.cost then none else some op
      | none => none
  | none => none

/-- CREDIT_RESERVATION_TAKE (R157): an operation that has waited CREDIT_WAIT takes its group's reservation. -/
def execCreditReservationTake (i : Nat) (s : State) : Res :=
  (let s := s.fresh
   let r := Tab.lookD s.flash.reserve (i / 128) []
   match s.waitsCredit i, s.lun i with
   | some op, some l =>
     if r.contains i then s
     else
       let s := s.notBefore (op.waitAt.getD s.time + s.fld (FCH_SCHED_CREDIT_WAIT.chan (i / 64)) * 100000)
       let s := s.putLun i { l with queue := l.queue.map (fun o => if o = op then { o with reserved := true } else o) }
       let s := s.modFlash (fun f => { f with reserve := Tab.put f.reserve (i / 128) (r ++ [i]) })
       s.countS (FCH_CREDIT_STAT_RESERVED.chan (i / 64)) (FCH_CREDIT_STAT_OVF.chan (i / 64)) 1
   | _, _ => s).done s

/-- CREDIT_WAIT_LONG (R157): the wait has reached 10 × CREDIT_WAIT. -/
def execCreditWaitLong (i : Nat) (s : State) : Res :=
  (let s := s.fresh
   match s.waitsCredit i with
   | some op => (s.notBefore (op.waitAt.getD s.time + s.fld (FCH_SCHED_CREDIT_WAIT.chan (i / 64)) * 1000000)).raise (224 + 4 * (i / 64)) 5 [i % 64, 0]
   | none => s).done s

/-! ### Patrol and advisories (R169, R171) -/

/-- A patrol period ends (R171). -/
def State.patrolEnd (s : State) : State :=
  s.flash.luns.foldl (fun (s : State) kv =>
    if kv.2.status ≠ 1 then s
    else kv.2.groups.foldl (fun (s : State) gg =>
      let i := kv.1
      let k := gg.1
      let g := gg.2
      if !g.active then s
      else
        let s := if g.frames < s.fld LDP_PATROL_CFG_MIN_FRAMES ∧ !s.flash.patrol.contains (i, k) then
          s.modFlash (fun f => { f with patrol := f.patrol ++ [(i, k)] }) else s
        s.putGroup i k { g with frames := 0 }) s) s

/-- PATROL_PERIOD (R169, R171): PERIOD_H hours have passed since the last. -/
def execPatrolPeriod (s : State) : Res :=
  (let s := s.fresh.notBefore (s.flash.patrolAt + s.fld LDP_PATROL_CFG_PERIOD_H * 3600000000000)
   (((s.modFlash (fun f => { f with patrolAt := s.time })).patrolEnd).refreshDay)).done s

/-- A list entry's word (Table 5.22). -/
def trackWord (i g reason : Nat) : Nat :=
  2 ^ 31 + i / 64 * 2 ^ 16 + i % 8 * 2 ^ 10 + i / 8 % 8 * 2 ^ 13 + reason * 2 ^ 8 + g

/-- The word a list's read returns and the state with its first entry removed. -/
def State.patrolNext (s : State) : Nat × State :=
  match s.flash.patrol with
  | [] => (0, s)
  | (i, g) :: rest => (trackWord i g 0, s.modFlash (fun f => { f with patrol := rest }))

/-- The same for the advisory list. -/
def State.adviseNext (s : State) : Nat × State :=
  match s.flash.advise with
  | [] => (0, s)
  | (i, g, c) :: rest => (trackWord i g c, s.modFlash (fun f => { f with advise := rest }))

/-- LDP_PATROL_NEXT_READ (R171). -/
def execLdpPatrolNextRead (r : Req) (s : State) : Res :=
  (s.fresh.atRegR r (LDP_PATROL_NEXT.key 0 0) (fun s => s.patrolNext)).done s

/-- LDP_ADVISE_NEXT_READ (R169). -/
def execLdpAdviseNextRead (r : Req) (s : State) : Res :=
  (s.fresh.atRegR r (LDP_ADVISE_NEXT.key 0 0) (fun s => s.adviseNext)).done s

/-! ### Group commands (R172) -/

/-- Offset of threshold t in LDP_GRP_DATA. -/
def State.grpOffset (s : State) (t : Nat) : Int :=
  toSigned 8 (s.reg LDP_GRP_DATA ((t - 1) / 4) / 2 ^ (8 * ((t - 1) % 4)) % 256)

/-- LDP_GRP_DATA as READ leaves it. -/
def Group.dataWord (g : Group) (w : Nat) : Nat :=
  let b := fun k => if 4 * w + k + 1 ≤ 15 then ofSigned 8 (g.th (4 * w + k + 1)).off else 0
  b 0 + b 1 * 2 ^ 8 + b 2 * 2 ^ 16 + (if w = 3 then b2n g.active * 2 ^ 30 + g.mode * 2 ^ 28 else b 3 * 2 ^ 24)

/-- Accumulators and baselines reset, the generation one higher than gen; what else the group holds stays. -/
def Group.renew (g : Group) (gen : Nat) : Group :=
  { g with b10 := [], b01 := [], gen := (gen + 1) % 256,
           thr := Tab.mapVals (fun _ x => { Thresh.zero with off := x.off, plus := x.plus }) g.thr }

/-- A group command's effect: whether it is done, and the state. -/
def State.grpDo (s : State) (op w : Nat) : Bool × State :=
  let n := bits w 15 11
  let i := 64 * n + 8 * bits w 10 8 + bits w 7 5
  let k := bits w 20 16
  let src := bits w 25 21
  let mode := bits w 27 26
  match s.lun i with
  | none => (false, s)
  | some l =>
    if Config.fchCount s.part ≤ n ∨ !s.flag (FCH_CTRL_ENABLE.chan n) then (false, s)
    else
      let g := l.group k
      match op with
      | 1 => if g.active ∨ mode = 0 then (false, s)
             else (true, s.putGroup i k (({ Group.free with active := true, mode := mode }).renew g.gen))
      | 2 =>
        let a := l.group src
        if g.active ∨ !a.active then (false, s)
        else (true, s.putGroup i k (({ Group.free with active := true, mode := a.mode, thr := a.thr }).renew g.gen))
      | 3 => (true, s.putGroup i k { g with active := false })
      | 4 => (true, (List.range 4).foldl (fun s w => s.putReg LDP_GRP_DATA (g.dataWord w) w) s)
      | 5 =>
        let mx : Int := s.fld LDP_TRACK_LIM_OFF_MAX
        let ts := (List.range 15).map (fun t => t + 1)
        if ts.any (fun t => mx < s.grpOffset t || s.grpOffset t < -mx) then (false, s)
        else
          let g' := { g with thr := ts.foldl (fun th t => Tab.put th t { Thresh.zero with off := s.grpOffset t, plus := (g.th t).plus }) [] }
          (true, s.putGroup i k (g'.renew g.gen))
      | _ => (false, s)

/-- A write of LDP_GRP_CMD (R172): its effect and the writing master's result. -/
def State.grpCmd (s : State) (r : Req) (op w : Nat) : State :=
  let (ok, s) := s.grpDo op w
  s.modFlash (fun f => { f with grpRes := Tab.put f.grpRes r.master (if ok then 1 else 2) })

/-- The register write of a group command. -/
def State.grpWrite (s : State) (r : Req) (op w : Nat) : State := s.atRegW r (LDP_GRP_CMD.key 0 0) (fun s => s.grpCmd r op w)

/-- GRP_CREATE (R172). -/
def execGrpCreate (r : Req) (w : Nat) (s : State) : Res := (s.fresh.grpWrite r 1 w).done s

/-- GRP_COPY (R172). -/
def execGrpCopy (r : Req) (w : Nat) (s : State) : Res := (s.fresh.grpWrite r 2 w).done s

/-- GRP_FREE (R172). -/
def execGrpFree (r : Req) (w : Nat) (s : State) : Res := (s.fresh.grpWrite r 3 w).done s

/-- GRP_READ (R172). -/
def execGrpRead (r : Req) (w : Nat) (s : State) : Res := (s.fresh.grpWrite r 4 w).done s

/-- GRP_WRITE (R172). -/
def execGrpWrite (r : Req) (w : Nat) (s : State) : Res := (s.fresh.grpWrite r 5 w).done s

end Sys2Proof.Machine
end

