-- ==== Sys2Proof/Machine/FtlCmds.lean ====
section
/-!
DEFINITION. The translation layer's own commands (chapter 6): seal and journal timeouts, durable frames, checkpoints,
garbage collection, native groups, and the admission of writes that wait.
-/
namespace Sys2Proof.Machine

/-! ### Frames and journal (R181, R194, R195) -/

/-- FRAME_SEAL_TIMEOUT (R181): the open frame of a LUN's lane is sealed, SEAL_US after its first extent was placed; what its wordline still lacks is sealed with it, and so are the
empty frames that a waiting wordline's parity rows need. -/
def State.sealTimeout (s : State) (i : Nat) : State :=
  match Tab.look s.ftl.lanes i with
  | none => s
  | some l =>
    if l.curAt.isNone ∧ l.toProgram.isEmpty then s
    else
      let s := match l.curAt with | some t => s.notBefore (t + s.fld FTL_CTRL_SEAL_US * 1000) | none => s
      ((s.modFtl (fun f => { f with lanes := Tab.put f.lanes i (if l.curAt.isNone then l else l.sealWordline s.time 64) })).sealRows l.sb).sbProgram l.sb

/-- FRAME_SEAL_TIMEOUT. -/
def execFrameSealTimeout (i : Nat) (s : State) : Res := (s.fresh.sealTimeout i).done s

/-- JOURNAL_FLUSH_TIMEOUT (R194): the records held form a frame. -/
def execJournalFlushTimeout (s : State) : Res :=
  (let s := s.fresh
   match s.ftl.deltaAt with
   | some t => (s.notBefore (t + s.fld FTL_JNL_CFG_FLUSH_US * 100000)).closeFrame
   | none => s.closeFrame).done s

/-- Begin a checkpoint when enough journal frames have been written since the last: JSEQ_START and the superblocks open at that point are
fixed (R195). -/
def State.ckptBegin (s : State) (jseq : Nat) : State :=
  if s.ftl.ckptRun.isNone ∧ s.fld FTL_JNL_CFG_CKPT_FRAMES * 1024 ≤ s.ftl.sinceCkpt then
    s.modFtl (fun f => { f with
      ckptRun := some (jseq + 1), sinceCkpt := 0, ckptOpen := (f.sbs.filter (fun kv => kv.2.state = 0)).map (fun kv => kv.1) })
  else s

/-- The oldest journal frame that is not durable becomes durable at a place (R194). -/
def State.frameDurable (s : State) (pfa : Nat) (complete : Bool) : State :=
  match s.ftl.frames with
  | [] => s
  | j :: rest =>
    let s := s.modFtl (fun f => { f with
      frames := rest, dmap := j.recs.foldl applyDelta f.dmap, recDurable := f.recDurable + j.recs.length,
      horizon := j.horizon, flushComplete := complete, jplaces := Tab.put f.jplaces j.jseq pfa
      jstore := Tab.put f.jstore pfa (j, complete), sinceCkpt := f.sinceCkpt + 1 })
    let s := (s.putPair FTL_JSEQ_LO FTL_JSEQ_HI j.jseq).countFrames
    let s := s.ckptBegin j.jseq
    let s := s.setFld FTL_JNL_STAT_SINCE_CKPT (s.ftl.sinceCkpt / 1024)
    s.releaseDurable.reclaimAll.wtCheck

/-- JOURNAL_FRAME_DURABLE (R194, R204). -/
def execJournalFrameDurable (pfa : Nat) (s : State) : Res := (s.fresh.frameDurable pfa false).done s

/-- LUN and block of a physical frame address: bits 63:19 of a map entry. -/
def pfaBlock (pfa : Nat) : Nat × Nat := (pfa / 2 ^ 34, pfa / 2 ^ 14 % 2 ^ 20)

/-- The map directory after a checkpoint (R178, R195): every map page that has changed since its record was made has a new copy, at the PFA the
checkpoint's report names. A changed page it does not name has no copy left that is right, and so no record (log entry 193). The pages are
those of the durable map: each record applied to them is durable (R194). -/
def State.ckptDir (s : State) (pages : List (Nat × Nat)) : Tab (Nat × Nat) :=
  let ks : List Nat := podsOf (mapPages s.ftl.dmap ++ s.ftl.dir.map (fun kv => kv.1))
  ks.foldl (fun d k =>
    let c := crc32c (mapPage s.ftl.dmap k)
    if ((Tab.look d k).map (fun r => r.2)) = some c then d
    else
      match pages.find? (fun p => p.1 = k) with
      | some p => Tab.put d k (p.2, c)
      | none => Tab.del d k) s.ftl.dir

/-- The 16-byte directory record of a map page (R178). -/
def dirRecord (r : Nat × Nat) : List Byte := leBytes 8 r.1 ++ leBytes 4 r.2 ++ leBytes 4 0

/-- The map pages of a checkpoint are read from DRAM, as background traffic of the channels they lie on (R35, R377); which those are is free. -/
def State.ckptTraffic (s : State) (n : Nat) : State :=
  if s.dram.mapped.isEmpty then s
  else (List.range n).foldl (fun (s : State) _ =>
    let (d, s) := s.draw s.dram.mapped.length
    let c := s.dram.mapped.getD d 0
    s.bgCharge 1 c (64 * s.lineNs c)) s

/-- A durable root is committed (R195): the directory and the groups' tracker state are saved with it (R172, R190), MAP_CKPT names it, and
METADATA blocks that hold only frames below JSEQ_START or of the previous checkpoint are released. -/
def State.ckptCommit (s : State) (root : Nat) (pages : List (Nat × Nat)) : State :=
  match s.ftl.ckptRun with
  | none => s
  | some j =>
    let dir := s.ckptDir pages
    let old := (s.ftl.dir.map (fun kv => pfaBlock kv.2.1))
    let saved := s.lunsInUse.foldl (fun t i => match s.lun i with | some l => Tab.put t i (l.natives, l.groups) | none => t) s.ftl.saved
    let gone := (s.ftl.jplaces.filter (fun kv => kv.1 < j)).map (fun kv => pfaBlock kv.2)
    let keep := pfaBlock root :: ((s.ftl.jplaces.filter (fun kv => j ≤ kv.1)).map (fun kv => pfaBlock kv.2) ++ dir.map (fun kv => pfaBlock kv.2.1))
    let gone := old ++ if s.ftl.rootPfa = 0 then gone else pfaBlock s.ftl.rootPfa :: gone
    let s := s.modFtl (fun f => { f with
      ckptRun := none, ckptGen := f.ckptGen + 1, rootPfa := root, jplaces := Tab.keep (fun k _ => decide (j ≤ k)) f.jplaces,
      rebuild := none, dir := dir, saved := saved })
    let s := { s with nv := { s.nv with mapCkpt := root % 2 ^ 45 * 2 ^ 19 + s.ftl.ckptGen % 2 ^ 16 * 8 + 1, rebuildCkpt := 0 } }
    let s := s.ckptTraffic pages.length
    gone.foldl (fun s b =>
      let x := s.blk b.1 b.2
      if x.pool = 3 ∧ !keep.contains b then s.putBlk b.1 b.2 { x with released := true } else s) s

/-- CHECKPOINT_COMMIT (R195). -/
def execCheckpointCommit (x : CkptReport) (s : State) : Res := (s.fresh.ckptCommit x.root x.pages).done s

/-! ### Garbage collection (R202, R203) -/

/-- Whether an extent of the victim of its stripe set may have been moved to a place (R202, R203, R207): the victim is not open; the new place
is in native blocks of another superblock, programmed there, of the same grains; and a wear victim's data go where the wear is higher. -/
def State.gcMayMove (s : State) (old new : Nat) : Bool :=
  let v := sbOf (entryLun old) (entryBlock old)
  let d := sbOf (entryLun new) (entryBlock new)
  let moved := bits new 12 1 = bits old 12 1 && !bit new 0
  let there := (s.blk (entryLun new) (entryBlock new)).pool = 1 && decide (bits new 32 21 < (s.blk (entryLun new) (entryBlock new)).wp)
  let worn := !s.ftl.victims.contains (v, 2) || decide (s.sbMeanPe (v / 2 ^ 14) (v % 2 ^ 14) < s.sbMeanPe (d / 2 ^ 14) (d % 2 ^ 14))
  decide (Tab.look s.ftl.victim (v / 2 ^ 14) = some v) && decide (v ≠ d) && moved && there && worn

/-- The program of an extent's copy has succeeded: the entry moves if it still names the old place, else the copy is left as invalid grains
(R203). The ciphertext is what is moved: body, key and tweak stay. lost tells that the extent could not be read, and its unit becomes
unrecoverable (R187). -/
def State.gcMove (s0 : State) (laddr old new : Nat) (lost : Bool) : State :=
  let s := s0.gcPick (entryLun old % 64)
  if lost then
    (if s.mapEntry laddr = old ∧ entryGrains old ≠ 0 then (s.record 4 laddr entryUnrec).reclaimAll else s)
  else
    match (if s.gcMayMove old new then Tab.look s.ftl.media (entryPlace old) else none) with
    | none => s
    | some e =>
      let s := s.modFtl (fun f => { f with media := Tab.put f.media (entryPlace new) e })
      if s.mapEntry laddr = old ∧ e.laddr = laddr then (s.record 1 laddr new).reclaimAll else s

/-- GC_EXTENT_MOVE (R203). -/
def execGcExtentMove (laddr old new : Nat) (lost : Bool) (s : State) : Res := (s.fresh.gcMove laddr old new lost).done s

/-- A write of FTL_GC_VICTIM (Table 6.19). -/
def State.victimWrite (s : State) (w : Nat) : State :=
  if bits w 31 30 = 0 then s else (s.addVictim (bits w 19 14 * 2 ^ 14 + bits w 13 0) (bits w 31 30)).gcPick (bits w 19 14)

/-- FTL_GC_VICTIM (R202, Table 6.19). -/
def execFtlGcVictim (r : Req) (w : Nat) (s : State) : Res :=
  (s.fresh.atRegW r (FTL_GC_VICTIM.key 0 0) (fun s => s.victimWrite w)).done s

/-! ### Native block groups (R190) -/

/-- The mode of a LUN's native groups (Table 5.23). -/
def Lun.nativeMode (l : Lun) : Nat := if l.bpc = 4 then 3 else 2

/-- A new native group on one LUN, the two oldest merged first when all 28 are in use. -/
def State.nativeGroup (s : State) (i : Nat) : State :=
  match s.lun i with
  | none => s
  | some l =>
    let (l, s) :=
      match l.natives with
      | a :: b :: rest =>
        if 28 ≤ l.natives.length then
          ({ l with natives := b :: rest, groups := Tab.put l.groups a { l.group a with active := false } },
           s.modFtl (fun f => { f with blocks := Tab.mapVals (fun k (x : Blk) =>
             if k / 2 ^ 20 = i ∧ x.group = a ∧ x.pool = 1 then { x with group := b } else x) f.blocks }))
        else (l, s)
      | _ => (l, s)
    match ((List.range 28).map (fun k => k + 4)).find? (fun k => !(l.group k).active) with
    | none => s.putLun i l
    | some k =>
      let g := ({ Group.free with active := true, mode := l.nativeMode }).renew (l.group k).gen
      s.putLun i { l with natives := l.natives ++ [k], groups := Tab.put l.groups k g }

/-- NATIVE_GROUP_CREATE (R190): a new native group on each LUN. -/
def State.nativeGroups (s : State) : State :=
  (s.lunsInUse.foldl (fun s i => s.nativeGroup i) s).modFtl (fun f => { f with groupAt := s.time })

/-- NATIVE_GROUP_CREATE (R190): 24 h of device time have passed since the newest was made. -/
def execNativeGroupCreate (s : State) : Res :=
  (let s := s.fresh
   (s.notBefore (s.ftl.groupAt + 86400000000000)).nativeGroups).done s

/-! ### Writes that wait (R31, R429) -/

/-- WRITE_BUFFER_ADMIT (R31, R197). -/
def execWriteBufferAdmit (pod qid cid : Nat) (s : State) : Res := (s.fresh.bufferAdmit ⟨pod, qid, cid⟩).done s

/-- WRITE_RATE_ADMIT (R429). -/
def execWriteRateAdmit (pod qid cid : Nat) (s : State) : Res :=
  (if (s.fresh.outCmd ⟨pod, qid, cid⟩).map OutCmd.stage = some Stage.waitRate then s.fresh.ioData ⟨pod, qid, cid⟩ else s.fresh).done s

/-! ### Map recovery (R218-R220) -/

/-- When the superblock of a place was opened, by the count of superblocks opened. -/
def State.openedNo (s : State) (place : Nat) : Nat :=
  ((Tab.look s.ftl.sbs (sbOf (place / 2 ^ 40) (place / 2 ^ 20 % 2 ^ 20))).map (fun b => b.openNo)).getD 0

/-- The map with an extent found on flash applied, unless the unit holds a later one; of two with equal SEQ the one in the superblock opened
later is kept (R206, R219, R220). -/
def State.applyFound (s : State) (m : Tab Nat) (place : Nat) (e : Extent) : Tab Nat :=
  let blk := s.blk (place / 2 ^ 40) (place / 2 ^ 20 % 2 ^ 20)
  let slc := blk.pool = 2 || blk.pool = 4
    || (match Tab.look s.ftl.sbs (sbOf (place / 2 ^ 40) (place / 2 ^ 20 % 2 ^ 20)) with | some b => b.slc | none => false)
  let old := Tab.lookD m e.laddr 0
  let later : Bool := match Tab.look s.ftl.media (entryPlace old) with
    | some x => entryGrains old ≠ 0 && x.laddr = e.laddr
        && (e.seq < x.seq || (e.seq = x.seq && decide (s.openedNo place < s.openedNo (entryPlace old))))
    | none => false
  if later then m else mapSet m e.laddr (place * 2 ^ 13 + (e.grains - 1) * 2 ^ 5 + 16 + b2n e.raw * 8 + b2n slc)

/-- Whether the tail scan takes an extent (R219): its superblock is open, or an emergency flush programmed it, and its SEQ is at or above
the horizon. -/
def State.tailTakes (s : State) (place : Nat) (e : Extent) : Bool :=
  let lun := place / 2 ^ 40
  let block := place / 2 ^ 20 % 2 ^ 20
  let opened := ((Tab.look s.ftl.sbs (sbOf lun block)).map (fun b => decide (b.state = 0))).getD false
  decide (s.ftl.horizon ≤ e.seq) && (opened || decide ((s.blk lun block).pool = 4))

/-- The tail scan (R219). -/
def State.tailScan (s : State) (m : Tab Nat) : Tab Nat :=
  s.ftl.media.foldl (fun m kv => if s.tailTakes kv.1 kv.2 then s.applyFound m kv.1 kv.2 else m) m

/-- A full rebuild (R220): every extent on flash, the latest of each unit. Slices bound the DRAM the rebuild takes and the order it reads in;
the map they give together is that of one pass over every extent, whether a summary (`State.summary`) or a frame's header lists it. -/
def State.fullMap (s : State) : Tab Nat := s.ftl.media.foldl (fun m kv => s.applyFound m kv.1 kv.2) []

/-- First format: the archive blocks, the spare S0 and the physical capacity are fixed (R145, R211, R213). -/
def State.firstFormat (s : State) : State :=
  if s.ftl.cap.isSome ∨ s.lunsInUse.isEmpty then s
  else
    let (c, s) := s.draw (2 ^ 48)
    let (z, s) := s.draw (2 ^ 20)
    -- the key engine makes the metadata key before any metadata is written (R134)
    let s := if !Tab.has s.nv.keys 8192 ∧ s.canMakeKeys then s.newKey 8192 else s
    s.modFtl (fun f => { f with
      archive := some (s.fld LDP_ARCHIVE_FIRST, s.fld LDP_ARCHIVE_COUNT), cap := some c, s0 := z + 1 })

/-- Block groups 0-3 and a first native group of every LUN that has none (R190). -/
def State.makeGroups (s : State) : State :=
  s.lunsInUse.foldl (fun s i =>
    match s.lun i with
    | none => s
    | some l =>
      if !l.natives.isEmpty then s
      else if Tab.has s.ftl.saved i then
        -- the checkpoint's tracker state comes back under R172: offsets and modes, accumulators and baselines anew
        let (nat, gs) := Tab.lookD s.ftl.saved i ([], [])
        s.putLun i { l with natives := nat, groups := Tab.mapVals (fun _ (g : Group) =>
          ({ Group.free with active := g.active, mode := g.mode, thr := g.thr }).renew g.gen) gs }
      else
        let slc : Group := { Group.free with active := true, mode := 1 }
        let gs := (List.range 4).foldl (fun g k => Tab.put g k slc) l.groups
        (s.putLun i { l with groups := gs }).nativeGroup i) s

/-- Whether a namespace can be served: its key is there (R138). -/
def State.nsKeyStatus (s : State) (nsid : Nat) : Nat := if (s.keyOf (nsid - 1)).isSome then 0 else 2

end Sys2Proof.Machine
end

