-- ==== Sys2Proof/Machine/Pipeline.lean ====
section
/-!
DEFINITION. The data pipeline's commands (chapter 7): units leaving a compression pipe, extents leaving a decompression
pipe, stream job contexts and stream jobs.
-/
namespace Sys2Proof.Machine

/-- Change the data pipeline. -/
def State.modCmp (s : State) (f : CmpState → CmpState) : State := { s with cmp := f s.cmp }

/-! ### Compression pipes (R224-R228) -/

/-- A verify mismatch on a pipe: it counts, and VERIFY_FENCE of them within 1 s fence the pipe (R227). -/
def State.verifyMiss (s : State) (p cause : Nat) : State :=
  let s := (s.countS CMP_PIPE_STAT_VERIFY_MIS CMP_PIPE_STAT_VMIS_OVF 1 p).raise 416 cause [p]
  let x := s.pipe p
  let l := (x.mism ++ [s.time]).filter (fun t => s.time < t + 1000000000)
  let s := s.putPipe p { x with mism := l }
  if s.fld CMP_CTRL_VERIFY_FENCE ≤ l.length ∧ !s.pipeFenced p then
    ((s.setFld CMP_STAT_FENCED (s.fld CMP_STAT_FENCED + 2 ^ p)).setFld CMP_PIPE_STAT_FENCED 1 p).raise 417 1 [p]
  else s

/-- A pipe finishes the unit at the head of its queue (R224-R229); mismatch tells that its verification differed. -/
def State.unitDone (s : State) (p : Nat) (mismatch : Bool) : State :=
  let x := s.pipe p
  match x.units with
  | [] => s
  | id :: rest =>
    if Config.cmpPipes s.part ≤ p ∨ !s.domOn (28 + p / 8) then s
    else
      let s := (s.putPipe p { x with units := rest }).setFld CMP_PIPE_STAT_UNITS_Q rest.length p
      match s.ftl.wbuf.find? (fun w => w.id = id) with
      | none => s.feedPipes
      | some w =>
        let size := w.data.length
        -- chunks of spread namespaces are stored RAW without a compression attempt (R466)
        let hold := ((s.nsOf (nsidOf w.laddr)).map Ns.hold).getD 0 ≠ 0 && !bit w.laddr 39
        let fenced := s.pipeFenced p || hold
        let zero := !fenced && allZero w.data
        let len := (Config.deflate (s.fld CMP_CTRL_EFFORT_UNIT) w.data).length
        let g := ceilDiv (16 + len) 64
        let small := !fenced && !zero && decide (g < size / 64)
        let raw := !zero && (!small || mismatch)
        let s := if small ∧ mismatch then s.verifyMiss p 1 else s
        let grains := if zero then 0 else if raw then size / 64 else g
        let s := s.countW CMP_PIPE_UNITS_LO CMP_PIPE_UNITS_HI 1 p
        let s := s.countW CMP_PIPE_RAW_LO CMP_PIPE_RAW_HI (b2n raw) p
        let s := s.countW CMP_PIPE_IN_LO CMP_PIPE_IN_HI size p
        let s := s.countW CMP_PIPE_OUT_LO CMP_PIPE_OUT_HI (grains * 64) p
        match s.keyOf (w.laddr / 2 ^ 40) with
        | none => (s.modWb id (fun w => { w with step := 4, dead := true })).releaseDurable.feedPipes
        | some k =>
          let body := if zero then [] else if raw then w.data else container (Config.deflate (s.fld CMP_CTRL_EFFORT_UNIT) w.data) w.data
          (s.modWb id (fun w => { w with step := 2, grains := grains, raw := raw, key := k, body := body })).placeAll.feedPipes.wtCheck

/-- COMPRESSION_UNIT_DONE (R224-R232). -/
def execCompressionUnitDone (p : Nat) (mismatch : Bool) (s : State) : Res := (s.fresh.unitDone p mismatch).done s

/-! ### Decompression pipes (R233-R237) -/

/-- Whether a pipe tag breaks R233. -/
def tagBad (w0 w1 : Nat) : Bool :=
  bits w0 1 0 ≠ 0 || bits w1 63 62 = 3 || 8192 < bits w0 15 2 || (bits w1 63 62 ≠ 1 && (bits w0 63 32 ≠ 0 || bit w1 59))

/-- The cause of Table 7.5 of a unit read by a tag of Table 7.4, 0 for OK. -/
def State.tagCause (s : State) (w0 w1 : Nat) (got : UnitRead) : Nat :=
  let mode := bits w1 63 62
  if tagBad w0 w1 then 1
  else if (s.keyOf (bits w0 15 2)).isNone then 2
  else
    match got with
    | .stored => 0
    | .header => if mode = 2 then 0 else 3
    | .bytes b =>
      if mode = 2 then 0
      else (unitCheck (bit w1 60) (mode = 1) (bits w1 52 45 + 1) (if bit w1 59 then none else some (bits w0 63 32)) b).1

/-- A decompression pipe finishes the extent at the head of its queue: got is how its data unit reads, rowOk whether a rebuild by die
parity finds the row's other frames. -/
def State.extentOut (s : State) (n : Nat) (got : UnitRead) (rowOk : Bool) : State :=
  let q := s.pipe (32 + n)
  match q.units with
  | [] => s
  | j :: rest =>
    let s := s.putPipe (32 + n) { q with units := rest }
    match Tab.look s.ftl.reads j with
    | none => s
    | some x =>
      let fail := fun (s : State) (c slot unit : Nat) =>
        (s.countS (FCH_DCMP_STAT_CONT_ERR.chan n) (FCH_DCMP_STAT_OVF.chan n) 1).raise 418 c [n, slot, unit]
      let gone := fun (s : State) => s.modFtl (fun f => { f with reads := Tab.del f.reads j })
      match x.owner with
      | .tag w0 w1 =>
        let slot := bits w0 15 2
        let c := s.tagCause w0 w1 got
        if c = 0 then
          gone (s.countW (FCH_DCMP_OUT_LO.chan n) (FCH_DCMP_OUT_HI.chan n) (if bit w1 60 then 16384 else 4096))
        else gone (fail s c slot (bits w1 44 0))
      | _ =>
        let slot := x.laddr / 2 ^ 40
        let unit := x.laddr % 2 ^ 40
        match Tab.look s.ftl.media (entryPlace x.entry) with
        | none => (fail s 3 slot unit).readLost j
        | some e =>
          let (c, plain) := match s.keyOf slot with
            | none => ((2, []) : Nat × List Byte)
            | some k => e.readAs k (entryPlace x.entry % 64 = 0) got
          let ok := fun (s : State) (d : List Byte) =>
            (s.countW (FCH_DCMP_OUT_LO.chan n) (FCH_DCMP_OUT_HI.chan n) d.length).readDone j x d
          if c = 0 then ok s plain
          else
            let s := fail s c slot unit
            if c = 2 ∨ x.rebuilt then s.readLost j
            else if rowOk ∧ s.rebuilds (entryFrames x.entry) ∧ s.keyOf slot = some e.key then
              ok (s.rebuild j x (entryFrames x.entry) 3 true) e.plain
            else (s.rebuild j x (entryFrames x.entry) 3 false).readLost j

/-- DECOMPRESS_EXTENT_DONE (R233-R237). -/
def execDecompressExtentDone (n : Nat) (got : UnitRead) (rowOk : Bool) (s : State) : Res := ((s.fresh.extentOut n got rowOk).scanGo).done s

/-! ### Stream job contexts (R238, R239) -/

/-- CMP_STAT.CTX_OPEN. -/
def State.countCtx (s : State) : State := s.setFld CMP_STAT_CTX_OPEN s.cmp.ctxs.length

/-- A write of CMP_CTX_OPEN: the outcome word for its master, and the context it opens. -/
def State.ctxOpen (s : State) (r : Req) (w : Nat) : State :=
  let put := fun (s : State) (v : Nat) => s.modCmp (fun c => { c with openRes := Tab.put c.openRes r.master v })
  let kind := bits w 31 30
  let pod := if isCore r.master then r.pod else 0
  let quota := ((Tab.look s.pod.pods pod).map Pod.ctx).getD 0
  let held := (s.cmp.ctxs.filter (fun kv => isCore kv.2.owner && kv.2.pod = r.pod)).length
  if (kind ≠ 1 ∧ kind ≠ 2) ∨ bits w 29 28 = 3 then put s (3 * 2 ^ 30)
  else if isCore r.master ∧ quota ≤ held then put s (2 * 2 ^ 30)
  else
    match Tab.lowestFree s.cmp.ctxs 4096 with
    | none => put s (2 * 2 ^ 30)
    | some h =>
      let c : CmpCtx :=
        { owner := r.master, pod := r.pod, kind := kind, framing := bits w 29 28, effort := bits w 27 26, state := 0,
          lastUsed := s.time, taken := [], made := 0, cuts := [] }
      (put (s.modCmp (fun x => { x with ctxs := Tab.put x.ctxs h c })) (2 ^ 30 + h)).countCtx

/-- CMP_CTX_OPEN (R238). -/
def execCmpCtxOpen (r : Req) (w : Nat) (s : State) : Res :=
  (s.fresh.atRegW r (CMP_CTX_OPEN.key 0 0) (fun s => s.ctxOpen r w)).done s

/-- The master a pipe writes a job's status with. -/
def pipeReq (p pod : Nat) : Req := ⟨if p < 32 then 0x90 + p else 0xA0 + (p - 32), pod⟩

/-- A stream job ends: bytes 40-63 of its descriptor, STATUS last, and its event flag (R240). -/
def State.jobEnd (s : State) (p : Nat) (j : CmpJob) (status cause used made check : Nat) : State :=
  let pipe := if p < 32 then p else p  -- 0x20 + n for a decompression pipe, which is its index here
  let tail := leBytes 1 cause ++ leBytes 1 pipe ++ leBytes 4 used ++ leBytes 4 made ++ leBytes 4 check ++ leBytes 8 s.time
  let s := (s.store (pipeReq p 0) (j.addr + 42) tail).2
  let s := (s.store (pipeReq p 0) (j.addr + 40) (leBytes 2 status)).2
  if j.evFlag = 0 then s else s.flagSet (pipeReq p j.pod) j.evFlag

/-- JOBS_Q of a pipe. -/
def State.countJobs (s : State) (p : Nat) : State :=
  let n := (s.pipe p).jobs.length
  if p < 32 then s.setFld CMP_PIPE_STAT_JOBS_Q n p else s.setFld (FCH_DCMP_STAT_JOBS_Q.chan (p - 32)) n

/-- A context is freed: the jobs queued on it end with ABORTED (R238). -/
def State.ctxFree (s : State) (h : Nat) : State :=
  let s := (s.modCmp (fun x => { x with ctxs := Tab.del x.ctxs h })).countCtx
  s.cmp.pipes.foldl (fun s kv =>
    let mine := kv.2.jobs.filter (fun j => j.ctx = h)
    if mine.isEmpty then s
    else
      let s := (s.putPipe kv.1 { s.pipe kv.1 with jobs := (s.pipe kv.1).jobs.filter (fun j => j.ctx ≠ h) }).countJobs kv.1
      mine.foldl (fun s j => s.jobEnd kv.1 j 0x16 0 0 0 0) s) s

/-- Contexts of owners that a reset or a domain switched off clears are freed (R238). -/
def State.ctxsFree (s : State) (p : CmpCtx → Bool) : State :=
  ((s.cmp.ctxs.filter (fun kv => p kv.2)).map (fun kv => kv.1)).foldl (fun s h => s.ctxFree h) s

/-- Whether a master owns a context (R238). -/
def CmpCtx.ownedBy (c : CmpCtx) (r : Req) : Bool := c.owner = r.master && (!isCore r.master || c.pod = r.pod)

/-- The owner of a handle frees it. -/
def State.ctxClose (s : State) (r : Req) (h : Nat) : State :=
  match Tab.look s.cmp.ctxs (h % 4096) with
  | some c => if c.ownedBy r then s.ctxFree (h % 4096) else s
  | none => s

/-- CMP_CTX_CLOSE (R238). -/
def execCmpCtxClose (r : Req) (h : Nat) (s : State) : Res :=
  (s.fresh.atRegW r (CMP_CTX_CLOSE.key 0 0) (fun s => s.ctxClose r h)).done s

/-- CMP_CTX_IDLE (R238): IDLE_S without a job free a context. -/
def execCmpCtxIdle (h : Nat) (s : State) : Res :=
  (match Tab.look s.fresh.cmp.ctxs h with
   | some c =>
     if s.fresh.cmp.pipes.any (fun kv => kv.2.jobs.any (fun j => j.ctx = h)) then s.fresh
     else ((s.fresh.notBefore (c.lastUsed + s.fld CMP_CTX_CFG_IDLE_S * 1000000000)).ctxFree h).raise 419 6 [h, c.owner]
   | none => s.fresh).done s

/-! ### Stream jobs (R240-R246) -/

/-- Stream bytes queued at a pipe. -/
def State.streamBytes (s : State) (p : Nat) : Nat := ((s.pipe p).jobs.map (fun j => j.inLen)).sum

/-- The pipe a job goes to: none powered (some none), none with space (none), or its index (R240). -/
def State.jobPipe (s : State) (kind : Nat) : Option (Option Nat) :=
  let on := if kind = 1 then s.pipesOn else ((List.range (Config.fchCount s.part)).filter (fun n => s.domOn (16 + n / 4))).map (fun n => 32 + n)
  if on.isEmpty then some none
  else
    let l := on.filter (fun p => (s.pipe p).jobs.length < 16 && (kind ≠ 1 || !s.pipeFenced p))
    match leastBy s.streamBytes l with
    | some p => some (some p)
    | none => none

/-- A stream job's descriptor is submitted (R240). -/
def State.jobSubmit (s : State) (r : Req) (addr : Nat) : State :=
  match s.load (pipeReq 0 0) addr 64 with
  | (.ok, d, s) =>
    let f := leAt d
    let j : CmpJob :=
      { addr := addr, master := r.master, pod := r.pod, ctx := f 4 4 % 4096, flags := f 0 1, inAddr := f 8 8, outAddr := f 16 8,
        inLen := f 24 4, outLen := f 28 4, evFlag := f 32 4, no := s.cmp.jobNo }
    let c := Tab.look s.cmp.ctxs j.ctx
    let kind := (c.map CmpCtx.kind).getD 0
    let end_ := fun (s : State) st => s.jobEnd 0 j st 0 0 0 0
    if 8 ≤ f 0 1 ∨ f 1 3 ≠ 0 ∨ 4096 ≤ f 4 4 ∨ f 28 4 = 0 ∨ f 36 4 ≠ 0 ∨ f 40 2 ≠ 0 ∨ (bit (f 0 1) 2 ∧ kind = 2) then end_ s 0x15
    else
      match c with
      | none => end_ s 0x13
      | some c =>
        if !c.ownedBy r then end_ s 0x12
        else
          match s.jobPipe c.kind with
          | some none => end_ s 0x16
          | none => end_ s 0x14
          | some (some p) =>
            let x := s.pipe p
            let s := s.modCmp (fun x => { x with
              jobNo := x.jobNo + 1, ctxs := Tab.put x.ctxs j.ctx { c with lastUsed := s.time } })
            (s.putPipe p { x with jobs := x.jobs ++ [j] }).countJobs p
  -- a descriptor that cannot be read completes nothing: there is nowhere to write a status (log entry 43)
  | (_, _, s) => s

/-- CMP_JOB_SUBMIT (R240): the write of CMP_JOB_SUBMIT_HI. -/
def execCmpJobSubmit (r : Req) (addr : Nat) (s : State) : Res :=
  (s.fresh.atRegW r (CMP_JOB_SUBMIT_HI.key 0 0) (fun s => s.jobSubmit r (addr / 64 * 64))).done s

/-- The blocks of a stream in order: bytes of each closed block, an empty stored block where SYNC asked one. -/
def streamBlocks (effort : Nat) (finish : Bool) (before : List Byte) : List Byte → List (Nat × Bool × Bool) → List Byte
  | _, [] => []
  | l, (n, stored, sync) :: rest =>
    let b := l.take n
    let final := finish && rest.isEmpty
    (if stored then storedBlocks final (n / 65535 + 2) b else Config.deflateBlock effort final before b)
      ++ (if sync then storedBlocks false 2 [] else []) ++ streamBlocks effort finish (before ++ b) (l.drop n) rest

/-- The whole output of a compression stream so far (R241, R242). -/
def CmpCtx.stream (c : CmpCtx) (all : List Byte) (cuts : List (Nat × Bool × Bool)) (finish : Bool) : List Byte :=
  emitHeader c.framing c.effort ++ streamBlocks c.effort finish [] all cuts ++ (if finish then emitTrailer c.framing all else [])

/-- The blocks that a job closes behind those closed before: whole 64 KiB, and the rest at SYNC or FINISH. -/
def newCuts (old : List (Nat × Bool × Bool)) (len : Nat) (finish sync stored : Bool) : List (Nat × Bool × Bool) :=
  let done := (old.map (fun x => x.1)).sum
  let k := (len - done) / 65536
  let r := (len - done) % 65536
  let full := List.replicate k (65536, stored, false)
  let tail := if finish then [(r, stored, sync)] else if sync then [(r, stored, true)] else []
  old ++ full ++ tail

/-- The blocks that lie wholly in the first n bytes. -/
def cutsWithin : Nat → List (Nat × Bool × Bool) → List (Nat × Bool × Bool)
  | _, [] => []
  | n, x :: rest => if x.1 ≤ n then x :: cutsWithin (n - x.1) rest else []

/-- What running a job gives: status, cause, input used, output, the context after it. -/
structure JobRun where
  status : Nat
  cause : Nat
  used : Nat
  out : List Byte
  ctx : CmpCtx
  deriving DecidableEq, Repr

/-- Run a compression job (R242, R243); where output is full the input taken is the free value u. -/
def runCompress (c : CmpCtx) (j : CmpJob) (inp : List Byte) (stored : Bool) (u : Nat) : JobRun :=
  let finish := bit j.flags 1
  let all := c.taken ++ inp
  let cuts := newCuts c.cuts all.length finish (bit j.flags 2) stored
  let out := (c.stream all cuts finish).drop c.made
  if out.length ≤ j.outLen then
    ⟨if finish then 0x01 else 0x03, 0, inp.length, out,
     { c with state := if finish then 2 else 1, taken := all, made := c.made + out.length, cuts := cuts }⟩
  else
    let t := c.taken ++ inp.take u
    ⟨0x02, 0, u, out.take j.outLen, { c with state := 1, taken := t, made := c.made + j.outLen, cuts := cutsWithin t.length cuts }⟩

/-- Run a decompression job (R244-R246). -/
def runExpand (c : CmpCtx) (j : CmpJob) (inp : List Byte) : JobRun :=
  let all := c.taken ++ inp
  let (stop, n, out) := expand c.framing (c.made + j.outLen) all
  let new := out.drop c.made
  let used := n - c.taken.length
  let ctx := fun st => { c with state := st, taken := all.take n, made := c.made + new.length }
  match stop with
  | .done => ⟨0x01, 0, used, new, ctx 2⟩
  | .full => ⟨0x02, 0, used, new, ctx 1⟩
  | .more =>
    if bit j.flags 1 then ⟨0x10, 6, inp.length, new, { ctx 3 with taken := all }⟩
    else ⟨0x03, 0, inp.length, new, { ctx 1 with taken := all }⟩
  | .bad k => if 16 ≤ k then ⟨0x11, k - 16, used, new, ctx 3⟩ else ⟨0x10, k, used, new, ctx 3⟩

/-- CHECK of a context: of the plain data of the whole stream so far. -/
def CmpCtx.checkNow (c : CmpCtx) : Nat :=
  if c.kind = 1 then runningCheck c.framing c.taken else runningCheck c.framing (expand c.framing c.made c.taken).2.2

/-- The oldest job of a pipe runs to its stop (R243-R246), unless an earlier job on its context waits elsewhere (R239). -/
def State.jobComplete (s : State) (p : Nat) (mismatch : Bool) : State :=
  let q := s.pipe p
  match q.jobs with
  | [] => s
  | j :: rest =>
    if s.cmp.pipes.any (fun kv => kv.2.jobs.any (fun k => k.ctx = j.ctx && k.no < j.no)) then s
    else
      let s := (s.putPipe p { q with jobs := rest }).countJobs p
      match Tab.look s.cmp.ctxs j.ctx with
      | none => s.jobEnd p j 0x16 0 0 0 0
      | some c =>
        let reset := bit j.flags 0
        if !reset ∧ 2 ≤ c.state then s.jobEnd p j 0x13 0 0 0 0
        else
          let c := if reset then { c with state := 0, taken := [], made := 0, cuts := [] } else c
          match s.load (pipeReq p j.pod) j.inAddr j.inLen with
          | (.ok, inp, s) =>
            let (u, s) := s.draw (j.inLen + 1)
            let run := if c.kind = 1 then runCompress c j inp mismatch u else runExpand c j inp
            let s := if c.kind = 1 ∧ mismatch then s.verifyMiss p 2 else s
            let s := (s.store (pipeReq p j.pod) j.outAddr run.out).2
            let s := s.modCmp (fun x => { x with ctxs := Tab.put x.ctxs j.ctx { run.ctx with lastUsed := s.time } })
            let s := if run.status = 0x10 then s.raise 419 1 [j.ctx, c.owner]
                     else if run.status = 0x11 then s.raise 419 2 [j.ctx, c.owner] else s
            s.jobEnd p j run.status run.cause run.used run.out.length run.ctx.checkNow
          -- the spec names no result for input that cannot be read: the job ends ABORTED, its context unchanged (log entry 48)
          | (_, _, s) => s.jobEnd p j 0x16 0 0 0 0

/-- CMP_JOB_COMPLETE (R243-R246): p is a compression pipe, or 32 + n for decompression pipe n. -/
def execCmpJobComplete (p : Nat) (mismatch : Bool) (s : State) : Res := (s.fresh.jobComplete p mismatch).done s

end Sys2Proof.Machine
end

