-- ==== Sys2Proof/Machine/Ledger.lean ====
section
/-!
DEFINITION. The boot ledger (chapter 4): the signing unit's queue as the ledger uses it, appends, activation, archiving and
the firmware's credits.
-/
namespace Sys2Proof.Machine

/-- Change the signing unit. -/
def State.modSgn (s : State) (f : SgnState → SgnState) : State := { s with sgn := f s.sgn }

/-- Change the ledger engine. -/
def State.modLdg (s : State) (f : LdgState → LdgState) : State := { s with ldg := f s.ldg }

/-- Change ledger memory. -/
def State.modNv (s : State) (f : NvState → NvState) : State := { s with nv := f s.nv }

/-! ### The signing unit's choice (R99) -/

/-- SGN_STAT.QUEUED. -/
def State.countSgn (s : State) : State := s.setFld SGN_STAT_QUEUED s.sgn.queue.length

/-- The master next in rotation among those with requests in the general queue (R51). -/
def SgnState.nextMaster (g : SgnState) : Option Nat :=
  let ms := podsOf (g.queue.map (fun q => q.1.master))
  match ms.find? (fun m => g.lastMaster < m) with
  | some m => some m
  | none => ms.head?

/-- Take the oldest element that satisfies p out of a list. -/
def takeFirst {α : Type} (p : α → Bool) : List α → Option α × List α
  | [] => (none, [])
  | x :: rest => if p x then (some x, rest) else let (y, l) := takeFirst p rest; (y, x :: l)

/-- An idle signing unit takes its next operation: the ledger engine's, then TOKEN, then the general queue in rotation (R99).
While the identity key is being derived, the derivation is the operation that runs. -/
def State.sgnStart (s : State) : State :=
  if s.sgn.running ≠ 0 ∨ s.fld SGN_STAT_IDKEY = 0 then s
  else if s.sgn.ledgerReq.isSome then s.modSgn (fun g => { g with running := 1 })
  else if s.sgn.tokenReq.isSome then s.modSgn (fun g => { g with running := 2 })
  else
    match s.sgn.nextMaster with
    | none => s
    | some m =>
      let (c, l) := takeFirst (fun q => q.1.master = m) s.sgn.queue
      (s.modSgn (fun g => { g with running := 3, curr := c, queue := l, lastMaster := m })).countSgn

/-! ### Appends (R119-R123) -/

/-- Bits 1-4 of an entry's FLAGS (Table 4.17): TEST_STATE (R123), DEBUG_OPEN, SAFE, WRITE_THROUGH. -/
def State.entryFlags (s : State) : Nat :=
  let test := (List.range 4).any (fun n => s.flag HSF_PERT_SLOT_EN n) || s.fld SGN_TOKEN_LATCH_GRANT / 4 ≠ 0
  b2n test * 2 + b2n (s.flag SGN_TOKEN_LATCH_DEBUG) * 4 + b2n s.safe * 8 + b2n (!s.holdUp) * 16

/-- Free ring positions that no append under way or waiting will take. -/
def State.ringRoom (s : State) : Nat := s.ringFree - (b2n s.ldg.run.isSome + s.ldg.wait.length)

/-- Whether an append is a firmware entry. -/
def AppendFor.isFw (w : AppendFor) : Bool :=
  match w with
  | .firmware _ => true
  | .load _ _ _ _ _ _ => true
  | _ => false

/-- Firmware appends under way or waiting: each holds a credit until its entry takes it (R119). -/
def State.fwPending (s : State) : Nat :=
  b2n ((s.ldg.run.map (fun r => r.why.isFw)).getD false) + (s.ldg.wait.filter (fun w => w.2.2.isFw)).length

/-- Step 1 of an append (R123): the engine fills in its fields, writes body and header into the ring position and asks for the
signature; without an identity key the entry goes UNSIGNED (R98). -/
def State.appendBegin (s : State) (kind : Nat) (body : List Byte) (why : AppendFor) : State :=
  let n := s.nv
  let unsigned := s.fld SGN_STAT_IDKEY = 2
  let e : LedgerEntry :=
    { kind := kind, flags := s.entryFlags + b2n unsigned, index := n.newest + 1, time := s.time,
      boot := n.bootNumber + b2n (kind = 1), missed := n.missed,
      prevHash := (match s.ringEntry n.newest with | some p => s.chainHash p | none => List.replicate 64 0#8),
      body := body, sig := List.replicate 1280 0#8 }
  let s := s.modNv (fun n => { n with ring := Tab.put n.ring (e.index % 4096) e })
  let s := s.modLdg (fun l => { l with run := some ⟨e, n.missedOvf, why, unsigned⟩ })
  if unsigned then s
  else (s.modSgn (fun g => { g with ledgerReq := some (shake512 (s.entryHead e)) })).sgnStart

/-- Appends are serialised (R123): one begins at once or waits for those before it. -/
def State.appendSubmit (s : State) (kind : Nat) (body : List Byte) (why : AppendFor) : State :=
  if s.ldg.run.isSome then s.modLdg (fun l => { l with wait := l.wait ++ [(kind, body, why)] })
  else s.appendBegin kind body why

/-- Step 2 ends: the signature is written into the entry; none leaves it UNSIGNED (R98). -/
def State.appendSigned (s : State) (sig : Option (List Byte)) : State :=
  match s.ldg.run with
  | none => s
  | some r =>
    let e := match sig with
      | some b => { r.entry with sig := b }
      | none => { r.entry with flags := r.entry.flags ||| 1 }
    let s := s.modNv (fun n => { n with ring := Tab.put n.ring (e.index % 4096) e })
    s.modLdg (fun l => { l with run := some { r with entry := e, signed := true } })

/-- LEDGER_STATE word 0 as an append's one write leaves it (R119). -/
def NvState.appended (n : NvState) (r : AppendRun) : NvState :=
  { n with
    newest := r.entry.index
    missed := n.missed - r.entry.missed
    missedOvf := if r.ovf then false else n.missedOvf
    credits := if r.why.isFw then n.credits - 1 else n.credits
    bootNumber := r.entry.boot }

/-- Step 3 (R123): the entry becomes part of the ledger, and the next append begins; its one write waits for the LMC's permit (R421). -/
def State.appendCommit (s : State) : Option AppendRun × State :=
  match s.ldg.run with
  | some r =>
    if r.signed && s.lmcPermit then
      let s := s.modNv (fun n => n.appended r)
      let s := s.modLdg (fun l => { l with run := none })
      let s := match s.ldg.wait with
        | [] => s
        | w :: rest => (s.modLdg (fun l => { l with wait := rest })).appendBegin w.1 w.2.1 w.2.2
      (some r, s)
    else (none, s)
  | none => (none, s)

/-- A hardware entry finds no free position: the missed count rises and LDG_UNRECORDED is raised (R121). -/
def State.unrecorded (s : State) (cause : Nat) : State :=
  let n := s.nv
  let v := satAdd 32767 n.missed 1
  (s.modNv (fun n => { n with missed := v, missedOvf := n.missedOvf || decide (n.missed = 32767) })).raise 714 cause [v]

/-- LDG_APPEND_REFUSED (Table 4.33). -/
def State.appendRefused (s : State) (cause kind : Nat) : State := s.raise 711 cause [kind]

/-- LDG_APPEND_RES for a master (Table 4.21). -/
def State.setAppendRes (s : State) (m v : Nat) : State :=
  s.modLdg (fun l => { l with appendRes := Tab.put l.appendRes m v })

/-- A firmware submission (R120, R123, Table 4.20): w is the word written to LDG_APPEND_CTRL. -/
def State.fwAppend (s : State) (r : Req) (w : Nat) : State :=
  let kind := bits w 31 24
  let len := bits w 11 0
  let addr := Tab.lookD s.ldg.appendLo r.master 0 + Tab.lookD s.ldg.appendHi r.master 0 * 2 ^ 32
  let refuse := fun (s : State) (c : Nat) => (s.appendRefused c kind).setAppendRes r.master (2 * 2 ^ 30 + c * 2 ^ 24)
  if (kind ≠ 4 ∧ kind ≠ 5) ∨ 2688 < len then refuse s 3
  else if s.ringRoom ≤ 64 then refuse s 1
  else if s.nv.credits ≤ s.fwPending then refuse s 2
  else
    match s.load ⟨0x50, 0⟩ addr len with
    | (.ok, body, s) => (s.setAppendRes r.master 0).appendSubmit kind body (.firmware r.master)
    | (_, _, s) => refuse s 3

/-- LDG_APPEND_SUBMIT (R120): the write of LDG_APPEND_CTRL. -/
def execLdgAppendSubmit (r : Req) (w : Nat) (s : State) : Res :=
  (s.fresh.atRegW r (LDG_APPEND_CTRL.key 0 0) (fun s => s.fwAppend r w)).done s

/-! ### Activation (R124) -/

/-- A key slot of OTP: class 0 vendor, 1 owner (Table 4.1). -/
def OtpState.slot (o : OtpState) (cls k : Nat) : Option (List Byte) :=
  if 4 ≤ k then none
  else if cls = 0 then o.vendor[k]? else if cls = 1 then o.owner.getD k none else none

/-- Whether a slot is usable (R96): programmed, and its revocation bit clear. -/
def OtpState.usable (o : OtpState) (cls k : Nat) : Bool := (o.slot cls k).isSome && !bit o.revoked (4 * cls + k)

/-- The signer check of R96: the slot is usable and holds the digest of the public key. -/
def OtpState.signerOk (o : OtpState) (cls k : Nat) (key : List Byte) : Bool :=
  o.usable cls k && o.slot cls k = some (shake512 key)

/-- A measurement record (Table 4.16). -/
def measurement (id value : Nat) (digest : List Byte) : List Byte :=
  leBytes 2 id ++ leBytes 6 0 ++ leBytes 8 value ++ slice digest 0 64

/-- Record 9 of Table 4.15 for a firmware slot; bits 40 and 41 as given. -/
def fwRecord (id slot svn : Nat) (digest : List Byte) (bits4140 : Nat) : List Byte :=
  measurement id (svn % 2 ^ 32 + slot * 2 ^ 32 + bits4140 * 2 ^ 40) digest

/-- What a firmware word names as its digest. -/
def NvState.digestOf (n : NvState) (f : FwWord) : List Byte := n.fwDigest.getD f.drec (List.replicate 64 0#8)

/-- LDG_ACTIVATE (R124): whether its conditions hold; the digest of the latch. -/
def State.activateOk (s : State) (slot drec : Nat) : Option (List Byte) :=
  match s.sgn.latch with
  | none => none
  | some (d, cls, k) =>
    let n := s.nv
    if s.otp.usable cls k ∧ (n.fwActive.slot = 0 ∨ n.fwActive.drec ≠ drec) ∧ (n.fwPrev.slot = 0 ∨ n.fwPrev.drec ≠ drec)
        ∧ 1 ≤ slot ∧ slot ≤ 4 ∧ slot ≠ n.fwActive.slot ∧ n.svnFloor ≤ s.ldg.activateSvn then some d
    else none

/-- An activation begins: whether it was accepted (R121, R124). One that waits behind another append is judged here, at submission (log
entry 176). -/
def State.activate (s : State) (slot drec : Nat) (cmd : Option CmdRef) (now : Bool) : Bool × State :=
  match s.activateOk slot drec with
  | none => (false, s.appendRefused 3 2)
  | some d =>
    if s.ringRoom = 0 then (false, s.appendRefused 1 2)
    else
      let old := s.nv.fwActive
      let body := fwRecord 9 slot s.ldg.activateSvn d 0 ++ fwRecord 11 old.slot old.svn (s.nv.digestOf old) 0
      (true, s.appendSubmit 2 body (.activate slot drec s.ldg.activateSvn d cmd now))

/-- LDG_ACTIVATE (R124): the write of LDG_ACTIVATE. -/
def execLdgActivate (r : Req) (w : Nat) (s : State) : Res :=
  (s.fresh.atRegW r (LDG_ACTIVATE.key 0 0) (fun s => (s.activate (w % 8) (bits w 5 4) none false).2)).done s

/-- The writes that follow an ACTIVATE entry: the digest record, FW_PREVIOUS, and FW_ACTIVE, the commit point (R93, R124). -/
def NvState.activated (n : NvState) (slot drec svn : Nat) (digest : List Byte) : NvState :=
  { n with
    fwDigest := n.fwDigest.set drec digest
    fwPrev := n.fwActive
    fwActive := { slot := slot, drec := drec, svn := svn } }

/-! ### Archive (R118, R122) -/

/-- The archive count has risen: the warning once an epoch, and LDG_ARCHIVE_FULL at the capacity (R122). -/
def State.archiveNotice (s : State) : State :=
  let c := s.nv.archCount
  let s := if s.archiveWarnAt ≤ c ∧ s.nv.warned ≠ some s.nv.epoch then
      (s.modNv (fun n => { n with warned := some n.epoch })).raise 712 1 [c]
    else s
  if c = s.archiveCap then (s.modNv (fun n => { n with fullEpoch := some n.epoch })).raise 713 1 [s.nv.epoch] else s

/-- A read-back copy is presented (R118): ARCHIVED advances when its chain hash equals the ring entry's. -/
def State.archivedAck (s : State) (addr : Nat) : State :=
  if s.archiveCap ≤ s.nv.archCount then s
  else
    let next := s.ringEntry s.nv.archA
    let kind := (next.map LedgerEntry.kind).getD 0
    match s.load ⟨0x50, 0⟩ addr 4096 with
    | (.ok, copy, s) =>
      if next.map (fun e => s.chainHash e) = some (shake512 copy) then
        (s.modNv (fun n => { n with archA := n.archA + 1 })).archiveNotice
      else s.appendRefused 4 kind
    | (_, _, s) => s.appendRefused 4 kind

/-- LDG_ARCHIVED_ACK (R118): the write of LDG_ARCHIVED_ACK_HI. -/
def execLdgArchivedAck (r : Req) (addr : Nat) (s : State) : Res :=
  (s.fresh.atRegW r (LDG_ARCHIVED_ACK_HI.key 0 0) (fun s => s.archivedAck addr)).done s

/-- LDG_CREDIT_REGAIN (R120): each 56.25 s of device time give the firmware bucket a credit; what has accrued toward the
next one stands in D00 and starts anew at a cold reset (R119). -/
def execLdgCreditRegain (s : State) : Res :=
  (let t := s.boot.creditAt + 56250000000
   let s := (s.fresh.notBefore t).modNv (fun n => { n with credits := satAdd 64 n.credits 1 })
   { s with boot := { s.boot with creditAt := t } }).done s

/-- FW_SVN_FLOOR_RAISE (R114): SYS_BOOT_DONE has been raised, and the floor rises to the SVN of the booted slot if that is
higher. -/
def execFwSvnFloorRaise (s : State) : Res :=
  (if s.boot.bootDone then s.fresh.modNv (fun n => { n with svnFloor := max n.svnFloor s.ldg.bootedSvn }) else s.fresh).done s

end Sys2Proof.Machine
end

