-- ==== Sys2Proof/Machine/Signing.lean ====
section
/-!
DEFINITION. The signing unit (chapter 4): requests, their results, tokens and their effects, quotes and nonces.
-/
namespace Sys2Proof.Machine

/-! ### Requests (R99, Table 4.4) -/

/-- RESULT words of R100. -/
def resValid : Nat := 0xA55A5AA5
def resInvalid : Nat := 0x3CC3C33C
def resBusy : Nat := 0x69969669
def resFault : Nat := 0x0F0FF0F0

/-- RESULT of a request block is written (R100); a request of the front end's own has no block. -/
def State.sgnResult (s : State) (q : SgnReq) (w : SgnWaiter) (v : Nat) : State :=
  match w with
  | .none => (s.store ⟨0x52, 0⟩ (q.addr + 4) (leBytes 4 v)).2
  | _ => s

/-- A path's nonce is consumed by a token submission (R126): the nonce it had. -/
def State.takeNonce (s : State) (path : Nat) : List Byte × State :=
  (Tab.lookD s.sgn.nonce path [], s.modSgn (fun g => { g with nonce := Tab.del g.nonce path }))

/-- A submission by the address of its block (R99). -/
def State.sgnSubmit (s : State) (r : Req) (addr : Nat) : State :=
  match s.load ⟨0x52, 0⟩ addr 128 with
  | (.ok, d, s) =>
    let q : SgnReq :=
      { addr := addr, master := r.master, pod := r.pod, op := leAt d 0 1, cls := leAt d 1 1, slot := leAt d 2 1, path := leAt d 3 1,
        keyAddr := leAt d 8 8, sigAddr := leAt d 16 8, digest := slice d 64 64, nonce := [] }
    if q.op = 4 then
      let (n, s) := s.takeNonce q.path
      if s.sgn.tokenReq.isSome then s.sgnResult q SgnWaiter.none resBusy
      else
        (s.modSgn (fun g => { g with tokenReq := some ({ q with nonce := n }, SgnWaiter.none) })).sgnStart
    -- the spec gives an operation number outside Table 4.3 no effect (log entry 49)
    else if q.op = 0 ∨ 4 < q.op then s
    else if 16 ≤ s.sgn.queue.length then s.sgnResult q SgnWaiter.none resBusy
    else (s.modSgn (fun g => { g with queue := g.queue ++ [(q, SgnWaiter.none)] })).countSgn.sgnStart
  -- a block that cannot be read queues nothing (log entry 43)
  | (_, _, s) => s

/-- SGN_SIGN (R99): the write of SGN_SUBMIT_HI for a block whose OP is 1. -/
def execSgnSign (r : Req) (addr : Nat) (s : State) : Res :=
  (s.fresh.atRegW r (SGN_SUBMIT_HI.key 0 0) (fun s => s.sgnSubmit r (addr / 64 * 64))).done s

/-- SGN_VERIFY (R99): the write of SGN_SUBMIT_HI for a block whose OP is 2. -/
def execSgnVerify (r : Req) (addr : Nat) (s : State) : Res :=
  (s.fresh.atRegW r (SGN_SUBMIT_HI.key 0 0) (fun s => s.sgnSubmit r (addr / 64 * 64))).done s

/-- SGN_VERIFY_SLOT (R99, R101): the write of SGN_SUBMIT_HI for a block whose OP is 3. -/
def execSgnVerifySlot (r : Req) (addr : Nat) (s : State) : Res :=
  (s.fresh.atRegW r (SGN_SUBMIT_HI.key 0 0) (fun s => s.sgnSubmit r (addr / 64 * 64))).done s

/-- SGN_TOKEN (R99, R127): the write of SGN_SUBMIT_HI for a block whose OP is 4. -/
def execSgnToken (r : Req) (addr : Nat) (s : State) : Res :=
  (s.fresh.atRegW r (SGN_SUBMIT_HI.key 0 0) (fun s => s.sgnSubmit r (addr / 64 * 64))).done s

/-! ### Token checks (R125-R128, Table 4.25) -/

/-- Binding of a token type: 0 nonce, 1 sequence (Table 4.24). -/
def tokenBinding (type : Nat) : Nat := if type = 4 ∨ type = 5 then 1 else 0

/-- Check 1, FORMAT. -/
def tokenFormatOk (t : List Byte) : Bool :=
  slice t 0 4 = ascii "GTOK" && leAt t 4 1 = 1 && 1 ≤ leAt t 5 1 && leAt t 5 1 ≤ 6 && allZero (slice t 25 7)
    && allZero (slice t 2049 7) && (leAt t 24 1 ≠ 1 || allZero (slice t 40 24))

/-- Check 3, BINDING: nonce as the submission consumed it. -/
def State.tokenBindingOk (s : State) (t nonce : List Byte) : Bool :=
  let type := leAt t 5 1
  leAt t 24 1 = tokenBinding type
    && (if tokenBinding type = 0 then nonce.length = 32 && slice t 32 32 = nonce
        else s.nv.tokenSeq.getD (type - 1) 0 < leAt t 32 8)

/-- The public key a token carries. -/
def tokenKey (t : List Byte) : List Byte := slice t 256 1793

/-- SGN_OTP_STAT.CLAIM_EN (Table 4.2). -/
def State.claimEn (s : State) : Bool := !s.boot.pins.claimEnN && !s.otp.everOwner

/-- The first claim of R128. -/
def State.firstClaim (s : State) (t : List Byte) : Bool :=
  s.claimEn && leAt t 5 1 = 5 && leAt t 64 1 = 1 && leAt t 65 1 = 1 && leAt t 66 1 = 0 && slice t 72 64 = shake512 (tokenKey t)

/-- Check 4, SIGNER. -/
def State.tokenSignerOk (s : State) (t : List Byte) : Bool :=
  leAt t 6 1 = 1 && (s.firstClaim t || s.otp.signerOk 1 (leAt t 7 1) (tokenKey t))

/-- GRANT that a TEST_UNLOCK would get (Table 4.24, Table 4.26: bit 1 reads 0). -/
def State.grantOf (s : State) (t : List Byte) : Nat := leAt t 64 1 &&& s.boot.testPermit &&& 13

/-- Check 6, PERMISSION. -/
def State.tokenPermitted (s : State) (t : List Byte) : Bool :=
  let type := leAt t 5 1
  (!s.safe || type = 1 || type = 4 || type = 5) && (type ≠ 2 || s.grantOf t ≠ 0) && (type ≠ 3 || bit s.boot.testPermit 1)

/-- Usable slots of a class but for one. -/
def OtpState.usableBut (o : OtpState) (cls tc tk : Nat) : Bool :=
  (List.range 4).any (fun k => o.usable cls k && !(cls = tc && k = tk))

/-- The limits of R128 on OWNER_ROTATE. -/
def OtpState.rotateOk (o : OtpState) (action cls k : Nat) : Bool :=
  if cls < 2 ∧ k < 4 then
    if action = 1 then cls = 1 && (o.slot 1 k).isNone
    else if action = 2 then (o.slot cls k).isSome && o.usableBut 0 cls k && o.usableBut 1 cls k
    else false
  else false

/-- ARCHIVED and its chain hash as the Ledger Status log reports them (R119). The chain hash of an entry whose ring position has
been taken since is the PREV_HASH of the entry behind it (R116). -/
def State.archivedHead (s : State) : Nat × List Byte :=
  match s.nv.archived with
  | none => (2 ^ 64 - 1, List.replicate 64 0#8)
  | some i =>
    (i, match s.ringEntry i, s.ringEntry (i + 1) with
        | some e, _ => s.chainHash e
        | none, some e => e.prevHash
        | none, none => List.replicate 64 0#8)

/-- Check 7, BODY (R128, R491). -/
def State.tokenBodyOk (s : State) (t : List Byte) : Bool :=
  let b := fun off n => leAt t (64 + off) n
  let zero := fun off n => allZero (slice t (64 + off) n)
  match leAt t 5 1 with
  | 1 => b 0 1 ≠ 0 && b 0 1 < 8 && zero 1 191
  | 2 => b 0 1 < 16 && zero 1 191
  | 3 => 1 ≤ b 0 1 && b 0 1 ≤ 2 && zero 1 191
  | 4 => b 0 4 = s.nv.epoch && b 8 8 = s.archivedHead.1 && slice t 80 64 = s.archivedHead.2 && zero 4 4 && zero 80 112
  | 5 => s.otp.rotateOk (b 0 1) (b 1 1) (b 2 1) && zero 3 5 && zero 72 120
  | _ => (b 0 2 < 4096 || b 0 2 = 0xFFFF) && zero 2 6 && zero 72 120

/-- The first failing check of Table 4.25, 0 when all pass. -/
def State.tokenCause (s : State) (t nonce : List Byte) : Nat :=
  if !tokenFormatOk t then 1
  else if slice t 8 16 ≠ s.deviceIdBytes then 2
  else if !s.tokenBindingOk t nonce then 3
  else if !s.tokenSignerOk t then 4
  else if !Config.falconVerify (tokenKey t) (shake512 (t.take 2056)) (slice t 2056 1280) then 5
  else if !s.tokenPermitted t then 6
  else if !s.tokenBodyOk t then 7
  else if leAt t 5 1 ≠ 4 ∧ s.ringRoom = 0 then 8
  else 0

/-! ### What an accepted token does (R127, Table 4.24) -/

/-- D39 is on while TEST or DEBUG is 1, and its power-up is at once (R444, Table 13.10). -/
def State.testDomain (s : State) : State :=
  let on := s.flag SGN_TOKEN_LATCH_TEST || s.flag SGN_TOKEN_LATCH_DEBUG
  let was := bit (s.reg PWR_DOM_STAT_1) 7
  let s := s.putReg PWR_DOM_STAT_1 (setBits (s.reg PWR_DOM_STAT_1) 7 7 (b2n on))
  let s := s.putReg PWR_DOM_REQ_1 (setBits (s.reg PWR_DOM_REQ_1) 7 7 (b2n on))
  if on = was then s
  else if on then s.raise 101 1 [39]
  else s.debugClose.raise 101 2 [39]

/-- GRANT takes a value; the bits it loses withdraw their permissions at once (R127). -/
def State.setGrant (s : State) (g : Nat) : State :=
  let old := s.fld SGN_TOKEN_LATCH_GRANT
  let s := s.setFld SGN_TOKEN_LATCH_GRANT g
  let s := if bit old 0 ∧ !bit g 0 then (List.range 4).foldl (fun s n => s.setFld HSF_PERT_SLOT_EN 0 n) s else s
  if bit old 2 ∧ !bit g 2 then s.setFld MPR_INJ_CTRL_ARM 0 else s

/-- A history block as the clear of R491 reopens it: CLEARED set, GEN advanced. -/
def State.clearedBlock (s : State) (b : SeriesBlock) : SeriesBlock :=
  { SeriesBlock.fresh s.nv.bootNumber s.time with gen := (b.gen + 2) % 2 ^ 32, flags := 8 }

/-- A RECORDER_CLEAR token's effect (R491): what was granted before it is cleared, and its record is the first after. -/
def State.recorderClear (s : State) (scope idx : Nat) : State :=
  let s := State.drain drainFuel s
  let s := if bit scope 0 then
      ({ s with recd := { s.recd with ring := [] } }.modEvt (fun e => { e with mq := [], mqLost := false })).putReg EVT_MQ_RD (s.reg EVT_MQ_WR)
    else s
  let s := if bit scope 1 then
      { s with recd := { s.recd with
          live := Tab.mapVals (fun _ b => { SeriesBlock.fresh s.nv.bootNumber s.time with gen := (b.gen + 2) % 2 ^ 32 }) s.recd.live
          openBoot := s.nv.bootNumber
          openAt := s.time
          openGen := (s.recd.openGen + 2) % 2 ^ 32 } }
    else s
  let s := if bit scope 2 then s.modNv (fun n => { n with
        history := Tab.mapVals (fun _ b => s.clearedBlock b) n.history
        histDef := (List.range 31).map (fun k => (k, s.clearedBlock (Tab.lookD n.histDef k (SeriesBlock.fresh 0 0)))) })
    else s
  s.raise 721 scope (w64 idx)

/-- ARCHIVE_ROLL (R119): word 2 of LEDGER_STATE is written. -/
def NvState.rolled (n : NvState) : NvState := { n with epoch := (n.epoch + 1) % 2 ^ 32, base := n.archA % 2 ^ 32 }

/-- OWNER_ROTATE (R128): an owner slot is installed, or a slot revoked. -/
def OtpState.rotate (o : OtpState) (action cls k : Nat) (digest : List Byte) : OtpState :=
  if action = 1 then { o with owner := o.owner.set k (some digest), everOwner := true }
  else { o with revoked := o.revoked ||| 2 ^ (4 * cls + k) }

/-- Step 3 of R127: the effect of Table 4.24. -/
def State.tokenEffect (s : State) (t : List Byte) (idx : Nat) : State :=
  let b := fun off n => leAt t (64 + off) n
  match leAt t 5 1 with
  | 1 => s.recorderClear (b 0 1) idx
  | 2 => ((s.setFld SGN_TOKEN_LATCH_TEST 1).setGrant (s.grantOf t)).testDomain
  | 3 =>
    let s := (s.setFld SGN_TOKEN_LATCH_DEBUG 1).testDomain
    ({ s with hsk := { s.hsk with debugLevel := b 0 1 } }).raise 52 (b 0 1) [b 0 1]
  | 4 => s.modNv NvState.rolled
  | 5 => { s with otp := s.otp.rotate (b 0 1) (b 1 1) (b 2 1) (slice t 72 64) }.raise 707 (b 0 1) [b 1 1, b 2 1]
  | _ => (s.setFld SGN_TOKEN_LATCH_WAIVER 1).modSgn (fun g => { g with waivers := g.waivers ++ [(b 0 2, slice t 72 64)] })

/-- Whoever waits for a token hears its end: cause 0 accepted, or that of Table 4.25 (R129, R130). -/
def State.tokenAnswer (s : State) (w : SgnWaiter) (cause : Nat) : State :=
  match w with
  | .tokenCmd c _ => if cause = 0 then s.endCmd c 0 0 false 0 else s.endCmd c 7 0x11 true cause
  | .tokenMi _ =>
    if cause = 0 then s.emit (.mi 0 [])
    else
      -- the NVMe-MI status of a refused token is left open (log entry 50)
      let (v, s) := s.draw 255
      s.emit (.mi (v + 1) [BitVec.ofNat 8 cause])
  | _ => s

/-- Whoever waits for a token hears that the unit's own checks disagreed: an internal error (log entry 50). -/
def State.tokenFault (s : State) (w : SgnWaiter) : State :=
  match w with
  | .tokenCmd c _ => s.endCmd c 0 6 false 0
  | .tokenMi _ => let (v, s) := s.draw 255; s.emit (.mi (v + 1) [])
  | _ => s

/-- A Token Submit of the front end goes to the reserved entry, or is held until the token in progress completes (R99). -/
def State.tokenRequest (s : State) (path : Nat) (w : SgnWaiter) : State :=
  let (n, s) := s.takeNonce path
  let q : SgnReq :=
    { addr := 0, master := 0x60, pod := 0, op := 4, cls := 0, slot := 0, path := path, keyAddr := 0, sigAddr := 0, digest := [], nonce := n }
  let busy := s.sgn.tokenReq.isSome || !s.sgn.heldTokens.isEmpty
    || (s.ldg.run.toList.map AppendRun.why ++ s.ldg.wait.map (fun x => x.2.2)).any (fun y =>
        match y with
        | .token _ _ _ _ => true
        | _ => false)
  if busy then s.modSgn (fun g => { g with heldTokens := g.heldTokens ++ [(q, w)] })
  else (s.modSgn (fun g => { g with tokenReq := some (q, w) })).sgnStart

/-- A token has completed: the one held longest is submitted (R99). -/
def State.tokenNext (s : State) : State :=
  match s.sgn.heldTokens with
  | [] => s
  | x :: rest =>
    if s.sgn.tokenReq.isSome then s
    else (s.modSgn (fun g => { g with heldTokens := rest, tokenReq := some x })).sgnStart

/-- Steps 2 to 4 of R127 for an accepted token; idx is all ones when no entry was appended (R121). -/
def State.tokenAccepted (s : State) (t : List Byte) (path idx : Nat) (w : SgnWaiter) : State :=
  let type := leAt t 5 1
  let s := if tokenBinding type = 1 then s.modNv (fun n => { n with tokenSeq := n.tokenSeq.set (type - 1) (leAt t 32 8) }) else s
  (((s.tokenEffect t idx).raise 705 type (path :: w64 idx)).tokenAnswer w 0).tokenNext

/-- A TOKEN operation ends (R127). -/
def State.tokenDone (s : State) (q : SgnReq) (w : SgnWaiter) (t : List Byte) : State :=
  let c := s.tokenCause t q.nonce
  if c ≠ 0 then
    (((s.raise 706 c [q.path, leAt t 5 1]).sgnResult q w resInvalid).tokenAnswer w c).tokenNext
  else
    let s := s.sgnResult q w resValid
    if s.ringRoom = 0 then (s.unrecorded 2).tokenAccepted t q.path (2 ^ 64 - 1) w
    else s.appendSubmit 3 (t.take 256 ++ shake512 (tokenKey t)) (.token t (leAt t 5 1) q.path w)

/-! ### Attestation (R129, R130, Table 4.28) -/

/-- Bytes 0-399 of a quote. -/
def State.quoteBody (s : State) (nonce : List Byte) : List Byte :=
  let n := s.nv
  let safe := s.safe
  let head := match s.ringEntry n.newest with | some e => s.chainHash e | none => List.replicate 64 0#8
  ascii "GQTE" ++ leBytes 1 1 ++ leBytes 1 s.entryFlags ++ leBytes 2 0 ++ s.deviceIdBytes ++ slice nonce 0 16
    ++ leBytes 8 s.time ++ leBytes 4 n.bootNumber ++ leBytes 4 (Config.capUnits s.part) ++ leBytes 8 n.newest ++ head
    ++ leBytes 8 (if safe then 0 else s.pair CFG_IMAGE_SEQ_LO CFG_IMAGE_SEQ_HI)
    ++ (if safe then List.replicate 64 0#8 else slice s.boot.imageDigest 0 64)
    ++ leBytes 4 s.boot.fwSvn ++ leBytes 1 (if safe then 0 else s.boot.fwSlot) ++ leBytes 3 0 ++ slice s.boot.fwDigest 0 64
    ++ leBytes 4 n.epoch ++ leBytes 4 n.archCount ++ leBytes 4 (s.reg SGN_TOKEN_LATCH) ++ leBytes 4 0
    ++ slice s.boot.board 0 104 ++ leBytes 8 0

/-- Quotes held for want of queue space are submitted while there is some (R130); a held one keeps only its nonce. -/
def State.quotesIn (s : State) : Nat → State
  | 0 => s
  | k + 1 =>
    match s.sgn.heldQuotes with
    | [] => s
    | (q, .quote c nonce) :: rest =>
      if 16 ≤ s.sgn.queue.length then s
      else
        let body := s.quoteBody nonce
        ((s.modSgn (fun g => { g with
            heldQuotes := rest, queue := g.queue ++ [({ q with digest := shake512 body }, .quote c body)] })).countSgn.sgnStart).quotesIn k
    | _ :: rest => (s.modSgn (fun g => { g with heldQuotes := rest })).quotesIn k

/-- An Attestation Quote is asked for (R130). -/
def State.quoteAsk (s : State) (c : CmdRef) (nonce : List Byte) : State :=
  if s.fld SGN_STAT_IDKEY = 2 then s.endCmd c 7 0x12 true 0
  else
    let q : SgnReq :=
      { addr := 0, master := 0, pod := 0, op := 1, cls := 0, slot := 0, path := 0, keyAddr := 0, sigAddr := 0, digest := [], nonce := [] }
    let s := s.modSgn (fun g => { g with heldQuotes := g.heldQuotes ++ [(q, .quote c nonce)] })
    s.quotesIn s.sgn.heldQuotes.length

/-! ### The end of an operation (R99-R101) -/

/-- A signature by the identity key. -/
def State.signNow (s : State) (digest : List Byte) : List Byte × State :=
  (slice (Config.falconSign s.idSeed digest s.freeCtr) 0 1280, { s with freeCtr := s.freeCtr + 1 })

/-- A SIGN of the general queue ends. A signature that cannot be stored still gives VALID: R100 names no other result (log entry 174). -/
def State.signDone (s : State) (q : SgnReq) (w : SgnWaiter) (fault : Bool) : State :=
  if fault ∨ !s.sgn.idKey then
    match w with
    | .quote c _ => if s.sgn.idKey then s.endCmd c 0 6 true 0 else s.endCmd c 7 0x12 true 0
    | _ => s.sgnResult q w resFault
  else
    let (sig, s) := s.signNow q.digest
    match w with
    | .quote c body => (s.emit (.host c.pod c.qid c.cid (body ++ sig))).endCmd c 0 0 false 0
    | _ => (s.store ⟨0x52, 0⟩ q.sigAddr sig).2.sgnResult q w resValid

/-- A VERIFY or VERIFY_SLOT ends; a key or signature that cannot be read does not verify (log entry 49). -/
def State.verifyDone (s : State) (q : SgnReq) (w : SgnWaiter) (fault : Bool) : State :=
  let (ok, s) :=
    match s.load ⟨0x52, 0⟩ q.keyAddr 1793 with
    | (.ok, key, s) =>
      (match s.load ⟨0x52, 0⟩ q.sigAddr 1280 with
       | (.ok, sig, s) =>
         (Config.falconVerify key q.digest sig && (q.op ≠ 3 || s.otp.signerOk q.cls q.slot key), s)
       | (_, _, s) => (false, s))
    | (_, _, s) => (false, s)
  let s := if q.op = 3 then
      s.modSgn (fun g => { g with latch := if ok ∧ !fault then some (q.digest, q.cls, q.slot) else none })
    else s
  s.sgnResult q w (if fault then resFault else if ok then resValid else resInvalid)

/-- The bytes of a token under check. -/
def State.tokenBytes (s : State) (q : SgnReq) (w : SgnWaiter) : List Byte × State :=
  match w with
  | .tokenCmd _ t => (slice t 0 3336, s)
  | .tokenMi t => (slice t 0 3336, s)
  | _ =>
    match s.load ⟨0x52, 0⟩ q.keyAddr 3336 with
    | (.ok, t, s) => (t, s)
    -- a token that cannot be read fails the first check (log entry 49)
    | (_, _, s) => (List.replicate 3336 0#8, s)

/-- The running operation ends (R100): fault tells that the unit's own checks disagree. -/
def State.sgnEnd (s : State) (fault : Bool) : State :=
  let idle := fun (s : State) => (s.modSgn (fun g => { g with running := 0, curr := none })).sgnStart
  match s.sgn.running with
  | 1 =>
    match s.sgn.ledgerReq with
    | none => idle s
    | some d =>
      -- the engine needs a signature: it asks again when the unit's checks disagree (log entry 51)
      if fault ∧ s.sgn.idKey then idle s
      else
        let s := s.modSgn (fun g => { g with ledgerReq := none })
        if s.sgn.idKey then let (sig, s) := s.signNow d; idle (s.appendSigned (some sig))
        else idle (s.appendSigned none)
  | 2 =>
    match s.sgn.tokenReq with
    | none => idle s
    | some (q, w) =>
      let s := s.modSgn (fun g => { g with running := 0, tokenReq := none })
      if fault then ((s.sgnResult q w resFault).tokenFault w).tokenNext.sgnStart
      else
        let (t, s) := s.tokenBytes q w
        (s.tokenDone q w t).sgnStart
  | 3 =>
    match s.sgn.curr with
    | none => idle s
    | some (q, w) =>
      let s := if q.op = 1 then s.signDone q w fault else s.verifyDone q w fault
      let s := idle s
      s.quotesIn s.sgn.heldQuotes.length
  | _ => s

/-- SGN_OP_COMPLETE (R100). -/
def execSgnOpComplete (fault : Bool) (s : State) : Res := (s.fresh.sgnEnd fault).done s

/-! ### The identity key (R97, R98) -/

/-- PUF reconstruction and derivation end: cause 0 with both keys, else that of SGN_IDKEY_FAIL. Cause 2 drops the media root too, which R98 says
of a failed reconstruction only (log entry 175). -/
def State.idKeyReady (s : State) (cause : Nat) : State :=
  if s.fld SGN_STAT_IDKEY ≠ 0 ∨ !s.boot.pins.bscanEnN then s
  else if cause = 0 then
    ((s.setFld SGN_STAT_IDKEY 1).modSgn (fun g => { g with idKey := true, mediaRoot := true })).sgnStart
  else (((s.setFld SGN_STAT_IDKEY 2).modSgn (fun g => { g with idKey := false, mediaRoot := false })).raise 704 cause []).sgnStart

/-- IDENTITY_KEY_READY (R97, R98). -/
def execIdentityKeyReady (cause : Nat) (s : State) : Res := (s.fresh.idKeyReady cause).done s

end Sys2Proof.Machine
end

