-- ==== Sys2Proof/Machine/Digest.lean ====
section
/-!
DEFINITION. The digest engine (chapter 4): contexts, their data, permutations, comparison and clearing.
-/
namespace Sys2Proof.Machine

/-- Change a context's slot. -/
def State.putCtx (s : State) (c : Nat) (x : DigCtx) : State := { s with dig := { s.dig with ctx := Tab.put s.dig.ctx c x } }

/-- Block size of an algorithm (Table 4.6). -/
def digRate (alg : Nat) : Nat := if alg = 2 then 72 else 136

/-- Output bytes of a context (Table 4.6, Table 4.7). -/
def DigCtx.outBytes (x : DigCtx) : Nat := if x.alg = 1 then 32 else if x.alg = 2 then 64 else x.outLen

/-- A context that is neither FREE nor CLEARED (Table 4.11): what an alarm (R109) and the idle time-out (Table 4.9) take as open, which
nothing defines; FINALISING and DONE are in it (log entry 166). -/
def DigCtx.isOpen (x : DigCtx) : Bool := 1 ≤ x.state && x.state ≤ 3

/-- Whether a master owns a context (R104): its ID and, for an application core, its pod tag. -/
def DigCtx.ownedBy (x : DigCtx) (r : Req) : Bool := x.owner = r.master && (!isCore r.master || x.pod = r.pod)

/-- A context is cleared at a time: it keeps its slot and shows why, and nothing of its data (Table 4.11, R109). -/
def DigCtx.cleared (x : DigCtx) (cause t : Nat) : DigCtx :=
  { x with
    clearedAt := t,    state := 4, cause := cause, prefixBytes := [], sponge := 0, buf := [], final := false, out := [], dataLo := 0,
    lastLo := 0, lastHi := 0, srcLeft := 0 }

/-! ### Permutations (R105, R109) -/

/-- Whether a context has a block for the core. -/
def DigCtx.waiting (x : DigCtx) : Bool :=
  x.isOpen && x.state ≠ 3 && digRate x.alg ≤ x.buf.length

/-- One permutation: a block is absorbed; the last one gives the output (R106). -/
def DigCtx.permute (x : DigCtx) : DigCtx :=
  let r := digRate x.alg
  let st := keccakF (absorb x.sponge (x.buf.take r))
  let buf := x.buf.drop r
  if x.final ∧ buf.isEmpty then
    { x with state := 3, sponge := st, buf := buf, out := (squeeze st).take x.outBytes }
  else { x with sponge := st, buf := buf }

/-- The slot the core serves next in rotation (R51, R105). -/
def State.digNext (s : State) : Option Nat :=
  let l := (s.dig.ctx.filter (fun kv => kv.2.waiting)).map (fun kv => kv.1)
  match l.find? (fun c => s.dig.lastServed < c) with
  | some c => some c
  | none => l.head?

/-- The core serves the next context in rotation. -/
def State.digServe (s : State) : State :=
  match s.digNext with
  | none => s
  | some c =>
    match Tab.look s.dig.ctx c with
    | none => s
    | some x => { (s.putCtx c x.permute) with dig := { (s.putCtx c x.permute).dig with lastServed := c } }

/-- A write that finds its context's buffer full waits while the core serves others, one rotation at most (R105). -/
def State.digRoom (s : State) (c : Nat) : Nat → State
  | 0 => s
  | n + 1 =>
    match Tab.look s.dig.ctx c with
    | none => s
    | some x => if 2 * digRate x.alg ≤ x.buf.length then s.digServe.digRoom c n else s

/-- An alarm clears every open context at once (R109). -/
def State.digAlarm (s : State) (cause : Nat) : State :=
  { s with dig := { s.dig with ctx := Tab.mapVals (fun _ (x : DigCtx) => if x.isOpen then x.cleared 3 s.time else x) s.dig.ctx } }.raise 710 cause []

/-- DIG_PERMUTATION (R105, R109): fault 0 none, 1 the shadow core disagrees, 2 a parity check of the state fails. -/
def execDigPermutation (fault : Nat) (s : State) : Res :=
  (match s.fresh.digNext with
   | none => s.fresh
   | some _ => if fault = 0 then s.fresh.digServe else s.fresh.digAlarm (min fault 2)).done s

/-! ### Opening (R103) -/

/-- Whether the fields of DIG_OPEN are in range (Tables 4.6 and 4.7). -/
def digOpenOk (w : Nat) : Bool :=
  let out := bits w 27 21
  let key := bits w 20 14
  let cust := bits w 13 6
  match bits w 31 28 with
  | 1 => out = 0 && key = 0 && cust = 0
  | 2 => out = 0 && key = 0 && cust = 0
  | 3 => 1 ≤ out && out ≤ 64 && key = 0 && cust = 0
  | 4 => (out = 32 || out = 64) && 32 ≤ key && key ≤ 64
  | _ => false

/-- A write of DIG_OPEN: the outcome word for its master, and the context it opens. -/
def State.digOpen (s : State) (r : Req) (w : Nat) : State :=
  let put := fun (s : State) (v : Nat) => { s with dig := { s.dig with openRes := Tab.put s.dig.openRes r.master v } }
  if !digOpenOk w then put s (3 * 2 ^ 30)
  else
    match Tab.lowestFree s.dig.ctx 16 with
    | none => put s (2 * 2 ^ 30)
    | some c =>
      let x : DigCtx :=
        { state := 1, alg := bits w 31 28, cause := 0, owner := r.master, pod := if isCore r.master then r.pod else 0,
          outLen := bits w 27 21, keyLen := bits w 20 14, custLen := bits w 13 6, prefixBytes := [], sponge := 0,
          buf := [], final := false, out := [], exp := List.replicate 16 0, dataLo := 0, lastLo := 0, lastHi := 0, srcLo := 0, srcHi := 0,
          srcLeft := 0, srcAt := 0, lastWrite := s.time, clearedAt := 0 }
      put (s.putCtx c x) (2 ^ 30 + c)

/-- DIG_OPEN (R103): the write of DIG_OPEN. -/
def execDigOpen (r : Req) (w : Nat) (s : State) : Res :=
  (s.fresh.atRegW r (DIG_OPEN.key 0 0) (fun s => s.digOpen r w)).done s

/-! ### Writes to a context page (R104-R108) -/

/-- A context is cleared by a bus error (R108). -/
def State.digBusErr (s : State) (c : Nat) (x : DigCtx) : State := (s.putCtx c (x.cleared 1 s.time)).raise 709 1 [c, x.owner]

/-- A context is misused (R107). -/
def State.digMisuse (s : State) (c : Nat) (x : DigCtx) (cause : Nat) : State :=
  (s.putCtx c (x.cleared 2 s.time)).raise 708 cause [c, x.owner]

/-- An acknowledge that a slot has begun to hold between s and t belongs to context c's owner (R57, R108). -/
def State.heldCtx (s t : State) (c : Nat) : State :=
  if s.hsf.held.length < t.hsf.held.length then
    { t with hsf := { t.hsf with held := t.hsf.held.modify (t.hsf.held.length - 1) (fun h => { h with ctx := some c }) } }
  else t

/-- A write to the page of context c by a master, which the gate lets through for its owner alone (R104); the owner's write that ends
with DECERR or HSTALL clears the context (R108); so does one whose acknowledge is held until the watchdog ends it. -/
def State.atCtx (s : State) (r : Req) (key c : Nat) (k : DigCtx → State → State) : State :=
  match s.gateReg r key true, Tab.look s.dig.ctx c with
  | .go, some x =>
    s.heldCtx (s.atRegW r key (fun s => k { x with lastWrite := s.time } s)) c
  | .stall, some x => if x.ownedBy r ∧ x.isOpen then (s.atRegW r key id).digBusErr c x else s.atRegW r key id
  | .err .decerr, some x => if x.ownedBy r ∧ x.isOpen then (s.atRegW r key id).digBusErr c x else s.atRegW r key id
  | _, _ => s.atRegW r key id

/-- Bytes enter a context: those of the key and customisation first, then the message (R102). -/
def DigCtx.feed (x : DigCtx) (bs : List Byte) : DigCtx :=
  let n := x.keyLen + x.custLen
  if x.alg ≠ 4 ∨ n ≤ x.prefixBytes.length then { x with buf := x.buf ++ bs }
  else
    let p := x.prefixBytes ++ bs
    if p.length < n then { x with prefixBytes := p }
    else
      { x with prefixBytes := p.take n
               buf := kmacPrefix (p.take x.keyLen) ((p.take n).drop x.keyLen) ++ p.drop n }

/-- DATA (R105, R107): an 8-byte word for an open context. -/
def State.digData (s : State) (c : Nat) (x : DigCtx) (w : Nat) : State :=
  match x.state with
  | 1 =>
    let s := (s.putCtx c x).digRoom c 64
    { s with dig := { s.dig with ctx := Tab.upd s.dig.ctx c (fun x => x.feed (leBytes 8 w)) } }
  | 4 => s
  | _ => s.digMisuse c x 2

/-- DIG_CTX_DATA (R105): the write of DATA_HI, w being the word its two registers then hold. -/
def execDigCtxData (r : Req) (c w : Nat) (s : State) : Res :=
  (s.fresh.atCtx r (DIG_CTX_DATA_HI.key c 0) c (fun x s => s.digData c x w)).done s

/-- LAST (R106, R107). -/
def State.digLast (s : State) (c : Nat) (x : DigCtx) (w : Nat) : State :=
  match x.state with
  | 1 => s.putCtx c { x with lastLo := w % 2 ^ 32, lastHi := w / 2 ^ 32 % 2 ^ 32 }
  | 4 => s
  | _ => s.digMisuse c x 2

/-- DIG_CTX_LAST (R106): the writes of LAST_LO and LAST_HI, w being the word they hold. -/
def execDigCtxLast (r : Req) (c w : Nat) (s : State) : Res :=
  (s.fresh.atCtx r (DIG_CTX_LAST_HI.key c 0) c (fun x s => s.digLast c x w)).done s

/-- The bytes that end the message before padding: KMAC256 appends its right_encode (R102). -/
def DigCtx.closing (x : DigCtx) : List Byte := if x.alg = 4 then rightEncode (8 * x.outLen) else []

/-- The domain bits of an algorithm's padding. -/
def digDomain (alg : Nat) : Nat := if alg = 3 then 0x1F else if alg = 4 then 0x04 else 0x06

/-- The message ends: padding fills the last block and finalisation starts (R106). FINAL while an engine read runs is in no table: the rest of
the read is dropped and the message ends there (log entry 167). -/
def DigCtx.finish (x : DigCtx) (bs : List Byte) : DigCtx :=
  let y := x.feed bs
  { y with state := 2, final := true, srcLeft := 0, buf := padSponge (digRate y.alg) (digDomain y.alg) (y.buf ++ y.closing) }

/-- FINAL (R106, R107). Whether the bytes given through LAST count toward KEY_LEN + CUST_LEN is not stated: they do (log entry 168). -/
def State.digFinal (s : State) (c : Nat) (x : DigCtx) (w : Nat) : State :=
  let empty := bit w 31
  let count := bits w 3 0
  match x.state with
  | 1 =>
    if !empty ∧ (count = 0 ∨ 8 < count) then s.digMisuse c x 1
    else if empty ∧ count ≠ 0 then s.digMisuse c x 3
    else
      let bs := if empty then [] else (leBytes 4 x.lastLo ++ leBytes 4 x.lastHi).take count
      if x.alg = 4 ∧ x.prefixBytes.length + bs.length < x.keyLen + x.custLen then s.digMisuse c x 4
      else
        let s := (s.putCtx c x).digRoom c 64
        { s with dig := { s.dig with ctx := Tab.upd s.dig.ctx c (fun x => x.finish bs) } }
  | 4 => s
  | _ => s.digMisuse c x 2

/-- DIG_CTX_FINAL (R106): the write of FINAL. -/
def execDigCtxFinal (r : Req) (c w : Nat) (s : State) : Res :=
  (s.fresh.atCtx r (DIG_CTX_FINAL.key c 0) c (fun x s => s.digFinal c x w)).done s

/-- SRC_LEN (R107): an engine read starts. -/
def State.digSrc (s : State) (c : Nat) (x : DigCtx) (w : Nat) : State :=
  match x.state with
  | 1 =>
    if w % 8 ≠ 0 ∨ x.srcLeft ≠ 0 then s.digMisuse c x 5
    else s.putCtx c { x with srcLeft := w, srcAt := x.srcLo + x.srcHi * 2 ^ 32 }
  | 4 => s
  | _ => s.digMisuse c x 2

/-- DIG_CTX_SRC_LEN (R107): the write of SRC_LEN. -/
def execDigCtxSrcLen (r : Req) (c w : Nat) (s : State) : Res :=
  (s.fresh.atCtx r (DIG_CTX_SRC_LEN.key c 0) c (fun x s => s.digSrc c x w)).done s

/-- DIG_CTX_CLOSE (R110): the owner frees the slot. -/
def execDigCtxClose (r : Req) (c : Nat) (s : State) : Res :=
  (s.fresh.atCtx r (DIG_CTX_CLOSE.key c 0) c (fun _ s =>
    { s with dig := { s.dig with ctx := Tab.del s.dig.ctx c } })).done s

/-- The next transaction of an engine read, up to the end of its 64-byte line (R107, R108). -/
def State.digRead (s : State) (c : Nat) : State :=
  match Tab.look s.dig.ctx c with
  | none => s
  | some x =>
    if x.state ≠ 1 ∨ x.srcLeft = 0 then s
    else
      let n := min x.srcLeft (64 - x.srcAt % 64)
      match s.load ⟨0x51, x.pod⟩ x.srcAt n with
      | (.ok, d, s) =>
        let s := s.digRoom c 64
        { s with dig := { s.dig with ctx := Tab.upd s.dig.ctx c (fun x =>
            { x.feed d with srcLeft := x.srcLeft - n, srcAt := x.srcAt + n }) } }
      | (_, _, s) => s.digBusErr c x

/-- DIG_ENGINE_READ (R107, R108). -/
def execDigEngineRead (c : Nat) (s : State) : Res := (s.fresh.digRead c).done s

/-! ### Comparison and ends (R107, R110, R111) -/

/-- What a read of CMP returns (R111), and the state it leaves; agree tells whether the two comparators do. -/
def State.digCmp (s : State) (c : Nat) (agree : Bool) : Nat × State :=
  match Tab.look s.dig.ctx c with
  | none => (resBusy, s)
  | some x =>
    if x.state ≠ 3 then (resBusy, s)
    else if !agree then (0, s.digAlarm 3)
    else
      let n := x.outBytes
      (if x.out.take n = (x.exp.flatMap (fun v => leBytes 4 v)).take n then resValid else resInvalid, s)

/-- DIG_CMP_READ (R111): a read of CMP, ACCERR for one who does not own the context (R104). -/
def execDigCmpRead (r : Req) (c : Nat) (agree : Bool) (s : State) : Res :=
  (s.fresh.atRegR r (DIG_CTX_CMP.key c 0) (fun s => s.digCmp c agree)).done s

/-- DIG_IDLE_TIMEOUT: IDLE_MS without a write clear an open context (Table 4.9). -/
def execDigIdleTimeout (c : Nat) (s : State) : Res :=
  (match Tab.look s.fresh.dig.ctx c with
   | some x =>
     if x.isOpen then
       let s := s.fresh.notBefore (x.lastWrite + s.fld DIG_CTRL_IDLE_MS * 1000000)
       (s.putCtx c (x.cleared 4 s.time)).raise 709 2 [c, x.owner]
     else s.fresh
   | none => s.fresh).done s

/-- DIG_CLEARED_EXPIRY (R110): a CLEARED context becomes FREE after 1 ms. -/
def execDigClearedExpiry (c : Nat) (s : State) : Res :=
  (match Tab.look s.fresh.dig.ctx c with
   | some x =>
     if x.state = 4 then
       State.notBefore { s.fresh with dig := { s.fresh.dig with ctx := Tab.del s.fresh.dig.ctx c } } (x.clearedAt + 1000000)
     else s.fresh
   | none => s.fresh).done s

end Sys2Proof.Machine
end

