-- ==== Sys2Proof/Machine/Keys.lean ====
section
/-!
DEFINITION. Random numbers, media keys and crypto erase (chapter 4).
-/
namespace Sys2Proof.Machine

/-- Change the key engine. -/
def State.modKey (s : State) (f : KeyState → KeyState) : State := { s with key := f s.key }

/-- n bytes of the general instance (R132). -/
def State.random (s : State) (n : Nat) : List Byte × State :=
  s.generate false n

/-- KEY_RNG_DATA_READ (R132, R133): 32 bits of the general instance; zero once a health test has failed. -/
def execKeyRngDataRead (r : Req) (s : State) : Res :=
  (s.fresh.atRegR r (KEY_RNG_DATA.key 0 0) (fun s =>
    if s.rngOk then let (b, s) := s.random 4; (leNat b, s) else (0, s))).done s

/-- The repetition count test (R131): 26 equal raw bits in a row. -/
def repetitionFails : List Bool → Bool → Nat → Bool
  | [], _, _ => false
  | b :: rest, last, n =>
    let k := if b = last ∧ n ≠ 0 then n + 1 else 1
    26 ≤ k || repetitionFails rest b k

/-- The adaptive proportion test (R131) over a window of 1,024 raw bits: the first value comes up 664 times or more, the cutoff that
SP 800-90B gives for 0.8 bit per sample at a false positive rate of 2^-20 (log entry 177). -/
def proportionFails (w : List Bool) : Bool :=
  match w with
  | [] => false
  | b :: _ => 1024 ≤ w.length && 664 ≤ ((w.take 1024).filter (fun x => x = b)).length

/-- The cause of KEY_RNG_FAIL for raw bits of the entropy source, none while no test fails: those of the start-up test at step 3, its first
1,024 samples, or those of the continuous tests. -/
def healthCause (startUp : Bool) (raw : List Bool) : Option Nat :=
  if startUp then (if repetitionFails (raw.take 1024) false 0 || proportionFails raw then some 3 else none)
  else if repetitionFails raw false 0 then some 1
  else if proportionFails raw then some 2
  else none

/-- KEY_RNG_HEALTH_FAIL (R131, R133): the health tests over raw bits of the source; when one fails both instances stop. -/
def execKeyRngHealthFail (x : RawBits) (s : State) : Res :=
  (match healthCause x.startUp x.raw with
   | none => s.fresh
   | some cause =>
     let s := ((s.fresh.setFld KEY_RNG_STAT_ES_OK 0).setFld KEY_RNG_STAT_DRBG_OK 0).setFld KEY_RNG_STAT_FAIL cause
     State.raise { s with key := { s.key with keyGen := ⟨0, 0⟩, general := ⟨0, 0⟩ } } 715 cause []).done s

/-! ### Commands (R134-R137, R441) -/

/-- KEY_NS_RES for a master (Table 4.32). -/
def State.setNsRes (s : State) (m v : Nat) : State := s.modKey (fun k => { k with nsRes := Tab.put k.nsRes m (v * 2 ^ 30) })

/-- Whether a key permit is set (R441): for CRYPTO_ERASE_ALL the slot does not matter. -/
def State.permitted (s : State) (op slot : Nat) : Bool :=
  s.hsk.permits.any (fun p => p.1 = op && (op = 4 || p.2.1 = slot)) || (op = 4 && s.nv.sanitize.phase = 2)

/-- Step 1 of R137: MEDIA_EPOCH is raised, the commit point. -/
def State.raiseEpoch (s : State) (m : Nat) : State :=
  let s := s.modNv (fun n => { n with mediaEpoch := n.mediaEpoch + 1 })
  (s.modKey (fun k => { k with eraseAll := some m })).raise 716 2 (w64 s.nv.mediaEpoch)

/-- A command of KEY_NS_CMD (R441, Table 4.31): refused at once, or begun. -/
def State.keyCommand (s : State) (m op slot : Nat) (cmd : Option CmdRef) : State :=
  if op = 0 ∨ 4 < op ∨ (op ≠ 4 ∧ 8192 < slot) then s.setNsRes m 3
  else if op = 1 then
    if Tab.has s.nv.keys slot ∨ (slot = 8192 ∧ s.ftl.cap.isSome) then s.setNsRes m 3
    else (s.setNsRes m 0).modKey (fun k => { k with run := k.run ++ [⟨op, slot, m, cmd⟩] })
  else if !s.permitted op slot then (s.setNsRes m 3).raise 49 5 [0x08, m]
  else if op = 4 then (s.setNsRes m 0).raiseEpoch m
  else (s.setNsRes m 0).modKey (fun k => { k with run := k.run ++ [⟨op, slot, m, cmd⟩] })

/-- KEY_GENERATE (R134): the write of KEY_NS_CMD with OP 1. -/
def execKeyGenerate (r : Req) (slot : Nat) (s : State) : Res :=
  (s.fresh.atRegW r (KEY_NS_CMD.key 0 0) (fun s => s.keyCommand r.master 1 slot none)).done s

/-- KEY_REPLACE (R137): the write of KEY_NS_CMD with OP 2. -/
def execKeyReplace (r : Req) (slot : Nat) (s : State) : Res :=
  (s.fresh.atRegW r (KEY_NS_CMD.key 0 0) (fun s => s.keyCommand r.master 2 slot none)).done s

/-- KEY_DESTROY (R441): the write of KEY_NS_CMD with OP 3. -/
def execKeyDestroy (r : Req) (slot : Nat) (s : State) : Res :=
  (s.fresh.atRegW r (KEY_NS_CMD.key 0 0) (fun s => s.keyCommand r.master 3 slot none)).done s

/-- KEY_CRYPTO_ERASE_ALL (R137): the write of KEY_NS_CMD with OP 4. -/
def execKeyCryptoEraseAll (r : Req) (s : State) : Res :=
  (s.fresh.atRegW r (KEY_NS_CMD.key 0 0) (fun s => s.keyCommand r.master 4 0 none)).done s

/-- The oldest command of one slot ends (R135, R137): the command, whether it was done, and the state. -/
def State.keyEnd (s : State) : Option (KeyRun × Bool) × State :=
  match s.key.run with
  | [] => (none, s)
  | x :: rest =>
    let s := s.modKey (fun k => { k with run := rest })
    if x.op = 3 then (some (x, true), (s.modNv (fun n => { n with keys := Tab.del n.keys x.slot })).setNsRes x.master 1)
    else if !s.canMakeKeys then
      let s := if s.sgn.mediaRoot then s else s.raise 717 2 [x.slot]
      (some (x, false), s.setNsRes x.master 2)
    else
      let s := (s.newKey x.slot).setNsRes x.master 1
      (some (x, true), if x.op = 2 then s.raise 716 1 [x.slot] else s)

/-- Slots that step 2 of R137 gives a key: of every existing namespace, and slot 8,192 from first format on, whose record is missing or wrapped
under an earlier epoch. A slot 8,192 that found no randomness at first format is made here too (R134; log entry 178). -/
def State.oldKeys (s : State) : List Nat :=
  (((s.host.ns.map (fun kv => kv.1 - 1)) ++ (if s.ftl.cap.isSome then [8192] else [])) : List Nat).filter (fun k =>
    (s.nv.keyRec k).map KeyRec.epoch ≠ some s.nv.mediaEpoch)

/-- Step 2 of R137 ends: every such slot has a new key, or none for want of randomness or of a media root. A reset after the commit point
resumes it, so it may end at a later start than it began. Without a media root the spec does not say which slots KEY_UNWRAP_FAIL names: one
event, for slot 8,192 (log entry 179). -/
def State.eraseAllEnd (s : State) : State :=
  let told := s.key.eraseAll
  if told.isNone ∧ s.oldKeys.isEmpty then s
  else
    let s := s.modKey (fun k => { k with eraseAll := none })
    if s.canMakeKeys then
      let l := s.oldKeys
      let s := (if told.isSome ∧ !l.contains 8192 ∧ (s.nv.keyRec 8192).map KeyRec.epoch ≠ some s.nv.mediaEpoch then l ++ [8192] else l).foldl
        State.newKey s
      match told with
      | some m => s.setNsRes m 1
      | none => s
    else
      let s := if s.sgn.mediaRoot then s else s.raise 717 2 [8192]
      match told with
      | some m => s.setNsRes m 2
      | none => s

/-- KEY_ERASE_ALL_COMPLETE (R137). -/
def execKeyEraseAllComplete (s : State) : Res := s.fresh.eraseAllEnd.done s

end Sys2Proof.Machine
end

