-- ==== Sys2Proof/Machine/HostOps.lean ====
section
/-!
DEFINITION. What the host's commands share (chapters 10 and 11): interrupts, fetch, the checks in front of an admin command
and of an I/O command, pod memory, and what a reset does to a pod's commands (R86).
-/
namespace Sys2Proof.Machine

/-! ### Interrupts (R366) -/

/-- A vector of a pod: its message is sent, or is pending while it is masked or the pod is QUIESCED or unbound. -/
def State.interrupt (s : State) (p v : Nat) : State :=
  match Tab.look s.pod.pods p with
  | none => s
  | some e =>
    let closed := e.state = 4 || !e.bound
    if e.noPasid then
      if closed then s.modPod p (fun e => { e with pendVec := if e.pendVec.contains v then e.pendVec else e.pendVec ++ [v] })
      else s.emit (.msix p v)
    else if e.imsCount ≤ v then s
    else
      match Tab.look s.pod.ims (e.imsBase + v) with
      | none => s
      | some i =>
        if closed ∨ i.mask then
          { s with pod := { s.pod with ims := Tab.put s.pod.ims (e.imsBase + v) { i with pending := true } } }
        else s.emit (.msi p v i.addr i.data)

/-! ### Taking a command (R311-R313) -/

/-- Whether commands are fetched from a pod: bound and ACTIVE, its controller enabled and ready, fetch not stopped, and room
under R313. -/
def State.canFetch (s : State) (p : Nat) : Bool :=
  match Tab.look s.pod.pods p with
  | none => false
  | some e =>
    let c := s.ctrl p
    let n := s.host.out.filter OutCmd.counts
    e.state = 2 && e.bound && bit c.cc 0 && c.rdy && !c.cfs && c.shst = 0 && !s.host.stopped.contains p
      && !s.flag NVQ_STAT_FETCH_STOPPED && s.pwr.fail = 0 && s.pwr.trip = 0 && n.length < 262144 && (n.filter (fun o => o.pod = p)).length < e.cmds

/-- Whether a queue's head is held (R360). -/
def State.queueHeld (s : State) (p q : Nat) : Bool :=
  s.host.out.any (fun o => o.pod = p && o.qid = q && o.stage = .held)

/-- Whether the command a submission entry holds is taken now: fetched already, or to be fetched from a queue that exists. -/
def State.takes (s : State) (c : HostCmd) : Bool :=
  match s.outCmd (HostCmdRef c) with
  | some o => o.stage = .fetched && o.io.isNone && !s.flag NVQ_STAT_FETCH_STOPPED
  | none => s.canFetch c.pod && !s.queueHeld c.pod c.qid && (c.qid = 0 || Tab.has (s.ctrl c.pod).sqs c.qid)

/-- What an admin command needs: pod 0, the normal configuration, ready media, or no sanitize under way. -/
structure AdminNeeds where
  pod0 : Bool
  notSafe : Bool
  media : Bool
  noSanitize : Bool
  deriving DecidableEq, Repr

/-- An admin command every pod may send in every configuration. -/
def anyPod : AdminNeeds := ⟨false, false, false, false⟩

/-- An admin command is fetched (R83, R92, R320): it runs, or fails for what it needs. -/
def State.admin (s : State) (c : HostCmd) (n : AdminNeeds) (k : State → State) : State :=
  if c.qid ≠ 0 ∨ !s.takes c then s
  else
    let s := s.begin c 0 .started none
    if (n.pod0 ∧ c.pod ≠ 0) ∨ (n.notSafe ∧ s.safe) then s.failG c 0x01
    else if n.noSanitize ∧ s.nv.sanitize.phase = 5 then s.failG c 0x1C
    else if n.noSanitize ∧ s.nv.sanitize.phase ≠ 0 then s.failG c 0x1D
    else if n.media ∧ !s.boot.bootDone ∧ !s.safe then s.endCmd (HostCmdRef c) 0 0x24 false 0
    else k s

/-- Data of a command go to the host, and it completes; a transfer that fails ends it (Table 10.15, R304). -/
def State.giveData (s : State) (c : HostCmd) (data : List Byte) : State :=
  if c.xfer ≠ .ok then s.failXfer c c.xfer
  else (s.emit (.host c.pod c.qid c.cid data)).succeed c

/-- Bytes the spec leaves open. -/
def State.freeBytes (s : State) (n : Nat) : List Byte × State :=
  ((List.range n).map (fun i => BitVec.ofNat 8 (Config.freeValue (s.freeCtr + i))), { s with freeCtr := s.freeCtr + n })

/-- A structure's bytes with a field put in. -/
def putAt (l : List Byte) (off : Nat) (bs : List Byte) : List Byte := l.take off ++ bs ++ l.drop (off + bs.length)

/-- A structure of n bytes whose named fields are given and whose other bytes the spec leaves open (log entry 52). -/
def State.openForm (s : State) (n : Nat) (fields : List (Nat × List Byte)) : List Byte × State :=
  let (b, s) := s.freeBytes n
  (fields.foldl (fun b f => putAt b f.1 f.2) b, s)

/-! ### Rate tokens and lock quota (R360) -/

/-- The class of a command: none, read (0) or write (1). -/
def HeldKind.cls (k : HeldKind) (c : HostCmd) : Option Nat :=
  match k with
  | .io .read => some 0
  | .io .compare => some 0
  | .io .verify => some 0
  | .io .write => some 1
  | .io .writeZeroes => some 1
  | .io .writeUnc => some 1
  | .io .dsm => if bit c.cdw11 2 then some 1 else none
  | .execProgram => some 0
  | .memRead => some 0
  | .memWrite => some 1
  | .memCopy => some 1

/-- Source ranges of a Memory Copy, or the ranges of a memory range set: 32 bytes each, NSID, length, start (PRESUMED, log entry 70). -/
def copyRanges (d : List Byte) : List (Nat × Nat × Nat) :=
  (List.range (d.length / 32)).map (fun i => (leAt d (32 * i) 4, leAt d (32 * i + 8) 8, leAt d (32 * i + 4) 4))

/-- The bytes a command counts. -/
def State.tokenSize (s : State) (k : HeldKind) (c : HostCmd) : Nat :=
  match k with
  | .io x =>
    if x = .read ∨ x = .write ∨ x = .compare ∨ x = .verify then ((s.nsOf c.nsid).map (fun n => n.xferBytes c)).getD 0 else 0
  | .execProgram => 0
  | .memRead => c.cdw12
  | .memWrite => c.cdw12
  | .memCopy => ((copyRanges c.data).map (fun r => r.2.2)).sum

/-- Whether a command needs a lock entry. -/
def HeldKind.needsLock (k : HeldKind) (c : HostCmd) : Bool :=
  match k with
  | .io .dsm => bit c.cdw11 2
  | .io _ => true
  | _ => false

/-- A bucket brought to now: rate in thousands of commands or of bytes × 1,000 per second, units of 10^-6, at most 10 ms of it. -/
def tokenFill (level : Int) (perNs capMs dt : Nat) : Int := min (level + (perNs * dt : Nat)) (capMs : Int)

/-- A pod's buckets brought to now. -/
def Pod.filled (p : Pod) (now : Nat) : Pod :=
  let dt := now - p.tokensAt
  { p with
    tokensAt := now
    tokens := [tokenFill (p.tokens.getD 0 0) p.rdKiops (p.rdKiops * 10000000) dt,
               tokenFill (p.tokens.getD 1 0) (p.rdMbs * 1000) (p.rdMbs * 10000000000) dt,
               tokenFill (p.tokens.getD 2 0) p.wrKiops (p.wrKiops * 10000000) dt,
               tokenFill (p.tokens.getD 3 0) (p.wrMbs * 1000) (p.wrMbs * 10000000000) dt] }

/-- The rates of a class: commands and bytes. -/
def Pod.rates (p : Pod) (cls : Nat) : Nat × Nat := if cls = 0 then (p.rdKiops, p.rdMbs) else (p.wrKiops, p.wrMbs)

/-- What holds an entry: none, the rate limit (1) or the lock quota (3). -/
def State.holdCause (s : State) (k : HeldKind) (c : HostCmd) : Option Nat :=
  match Tab.look s.pod.pods c.pod with
  | none => none
  | some p =>
    let q := p.filled s.time
    let rate := match k.cls c with
      | none => false
      | some i =>
        let r := p.rates i
        (r.1 ≠ 0 && q.tokens.getD (2 * i) 0 ≤ 0) || (r.2 ≠ 0 && q.tokens.getD (2 * i + 1) 0 ≤ 0)
    if rate then some 1
    else if k.needsLock c ∧ p.locks ≤ (s.host.locks.filter (fun l => l.cmd.pod = c.pod)).length then some 3
    else none

/-- Admission takes an entry's count and bytes from its buckets. -/
def State.takeTokens (s : State) (k : HeldKind) (c : HostCmd) : State :=
  let size := s.tokenSize k c
  s.modPod c.pod (fun p =>
    let p := p.filled s.time
    match k.cls c with
    | none => p
    | some i =>
      let r := p.rates i
      let sub := fun (t : List Int) (j n : Nat) => t.set j (t.getD j 0 - (n : Int))
      let t := if r.1 = 0 then p.tokens else sub p.tokens (2 * i) 1000000
      { p with tokens := if r.2 = 0 then t else sub t (2 * i + 1) (size * 1000000) })

/-- An entry fetched is admitted, or held at its queue's head (R360); k carries it out. One that was held and has been admitted
since is carried out at once. -/
def State.admitNow (s : State) (h : HeldKind) (c : HostCmd) (k : State → State) : State :=
  if (s.outCmd (HostCmdRef c)).any (fun o => o.held.isSome) then k s
  else
  match s.holdCause h c with
  | none => k (s.takeTokens h c)
  | some cause =>
    let s := (s.begin c 0 .held none).modOut (HostCmdRef c) (fun o => { o with held := some (h, c) })
    s.countOut.podHeld c.pod cause

/-- An I/O command is fetched: the lock table must have room for one that needs a lock (R319). -/
def State.ioCmd (s : State) (h : HeldKind) (c : HostCmd) (k : State → State) : State :=
  if c.qid = 0 ∨ !s.takes c ∨ (h.needsLock c ∧ 32768 ≤ s.host.locks.length) then s else s.admitNow h c k

/-! ### Pod memory (R356) -/

/-- n bytes of a pod's memory from x on, and the status of the reads; ranges need not be next to each other. -/
def State.podLoad (s : State) (m : Nat) (p : Pod) (x n : Nat) : Nat → BusStatus × List Byte × State
  | 0 => (.ok, [], s)
  | fuel + 1 =>
    if n = 0 then (.ok, [], s)
    else
      match p.addr x with
      | none => (.decerr, [], s)
      | some a =>
        let k := min n (0x200000 - x % 0x200000)
        match s.load ⟨m, 0⟩ a k with
        | (.ok, d, s) => let (st, d', s) := s.podLoad m p (x + k) (n - k) fuel; (st, d ++ d', s)
        | (st, _, s) => (st, [], s)

/-- Write bytes of a pod's memory from x on. -/
def State.podStore (s : State) (m : Nat) (p : Pod) (x : Nat) (bs : List Byte) : Nat → BusStatus × State
  | 0 => (.ok, s)
  | fuel + 1 =>
    if bs.isEmpty then (.ok, s)
    else
      match p.addr x with
      | none => (.decerr, s)
      | some a =>
        let k := min bs.length (0x200000 - x % 0x200000)
        match s.store ⟨m, 0⟩ a (bs.take k) with
        | (.ok, s) => s.podStore m p (x + k) (bs.drop k) fuel
        | (st, s) => (st, s)

/-- Pieces a range of n bytes of pod memory may fall into. -/
def podFuel (n : Nat) : Nat := n / 0x200000 + 2

/-! ### What a reset or a dead link does to a pod's commands (R86, R306) -/

/-- Whether a started write's data have fully arrived in the write buffer. -/
def OutCmd.durable (o : OutCmd) : Bool := o.arrived || o.stage = .waitDurable

/-- A pod's commands are ended without completion: what has not started or is only read goes; a write whose data have fully
arrived goes on and completes to nobody; a write whose data have not is abandoned. -/
def State.abandon (s : State) (p : Nat) : State :=
  let mine := fun (o : OutCmd) => o.pod = p
  let gone := (s.host.out.filter (fun o => mine o && !o.durable)).map (fun o => (⟨o.pod, o.qid, o.cid⟩ : CmdRef))
  let s := s.modHost (fun h => { h with
    out := (h.out.filter (fun o => !(mine o) || o.durable)).map (fun o => if mine o then { o with mute := true } else o)
    locks := h.locks.filter (fun l => !gone.contains l.cmd)
    cqes := h.cqes.filter (fun q => q.pod ≠ p)
    flushes := h.flushes.filter (fun f => !(f.pod = p && f.cmd.isSome)) })
  let s := s.modHost (fun h => { h with
    out := h.out.filter (fun o => !(o.pod = p && o.stage = .waitDurable)) })
  let s := { s with hsk := { s.hsk with permits := s.hsk.permits.filter (fun x => x.2.2.pod ≠ p) } }
  let s := s.modFtl (fun f => { f with reserved := f.reserved.filter (fun r => !gone.contains r.1) })
  let s := s.modScn (fun x => { x with held := x.held.filter (fun h => h.1.pod ≠ p) })
  s.countOut.countLocks

/-- Waivers that name a pod end with its reset (R128); programs loaded under them are unloaded (R299). -/
def State.endWaivers (s : State) (p : SgnState → Nat × List Byte → Bool) : State :=
  let keep := s.sgn.waivers.filter (fun w => !p s.sgn w)
  let gone := s.sgn.waivers.filter (fun w => p s.sgn w)
  let covers := fun (l : List (Nat × List Byte)) (g : Prog) =>
    l.any (fun w => (w.1 = 0xFFFF || w.1 = g.pod) && (allZero w.2 || w.2 = g.digest))
  let lost := (s.tsk.progs.filter (fun kv => kv.2.waived && covers gone kv.2 && !covers keep kv.2)).map (fun kv => kv.1)
  let s := s.modSgn (fun g => { g with waivers := keep })
  let s := s.setFld SGN_TOKEN_LATCH_WAIVER (b2n !keep.isEmpty)
  lost.foldl (fun s h => s.unloadHandle h true) s

/-- The TEST latch ends with every reset, and with it GRANT, the perturbation slots and injection (R63, R128). -/
def State.endTest (s : State) : State :=
  let s := ((s.setFld SGN_TOKEN_LATCH_TEST 0).setGrant 0).testDomain
  let s := (List.range 4).foldl (fun s n => s.setFld HSF_PERT_SLOT_EN 0 n) s
  { s with boot := { s.boot with permitGone := true } }

/-- One pod under a reset of kind 4 to 7 (R86, R128): its commands, tasks, scans, notices and queues; registers that NVMe keeps
over a controller reset stay where keep is set. -/
def State.resetPod (s : State) (p : Nat) (keep : Bool) : State :=
  let s := s.abandon p
  let s := s.cancelPod p true
  let s := s.abortScans (fun j => j.pod = p) 3
  let s := s.endWaivers (fun _ w => w.1 = p)
  let s := s.ctxsFree (fun c => isCore c.owner && c.pod = p)
  let c := s.ctrl p
  let n := if keep then { Ctrl.fresh with aqa := c.aqa, asq := c.asq, acq := c.acq } else Ctrl.fresh
  let s := { s.setCtrl p { n with errLog := c.errLog } with evt := { s.evt with noticed := s.evt.noticed.filter (fun x => x ≠ p) } }
  let s := s.modHost (fun h => { h with
    stopped := h.stopped.filter (fun x => x ≠ p), flushes := h.flushes.filter (fun f => f.pod ≠ p) })
  (s.modPod p (fun e => { e with heldEpisode := false, pendVec := [] })).scanGo

end Sys2Proof.Machine
end

