-- ==== Sys2Proof/Machine/Host.lean ====
section
/-!
DEFINITION. The host link, doorbells, fetch and completion (chapter 10): rows of the link, the queues, the rate and lock
holds, Flush's end, queue creation and deletion, Abort and Asynchronous Event Request.
-/
namespace Sys2Proof.Machine

/-! ### The link (R302-R306) -/

/-- Whether a port is there to train (R302, Table 3.11): port B only in configuration SPLIT 1 and outside the safe
configuration. -/
def State.portOn (s : State) (p : Nat) : Bool := p = 0 || (p = 1 && s.flag HIF_PORT_CFG_SPLIT && !s.safe)

/-- Lanes of a port (Table 10.1). -/
def State.portWidth (s : State) : Nat := if s.flag HIF_PORT_CFG_SPLIT && !s.safe then 8 else 16

/-- LEN_CM from a loss in units of 0.25 dB and a board loss in 0.01 dB/cm (R305): nearest centimetre, 0 to 255. -/
def channelLength (loss lpc : Nat) : Nat := if lpc = 0 then 255 else min 255 ((2 * (25 * loss - 500) + lpc) / (2 * lpc))

/-- The estimate of the channel at 8 GT/s or above (R305). The loss per centimetre at 64 and 32 GT/s is that of 16 GHz; how it
scales to a lower Nyquist frequency the spec does not say, and the estimate is a free value there (log entry 53). -/
def State.estimate (s : State) (p speed loss refl : Nat) : State :=
  if speed < 3 then s
  else
    let (len, s) := if 5 ≤ speed then (channelLength loss (s.fld HIF_PORT_CFG_LOSS_PER_CM), s) else s.draw 256
    let s := ((s.setFld HIF_CHAN_LEN_CM len p).setFld HIF_CHAN_LOSS loss p).setFld HIF_CHAN_REFL_CM refl p
    if s.fld HIF_PORT_CFG_LEN_WARN_CM < len then s.raise 560 3 [p] else s

/-- A port completes training (R305, R306). -/
def State.linkUp (s : State) (p speed width : Nat) (flit : Bool) (preset loss refl : Nat) : State :=
  if !s.portOn p ∨ !s.boot.modReady ∨ s.boot.perst.contains p then s
  else
    let again := s.fld HIF_LINK_STAT_STATE p = 2
    let s := if again then s.countS HIF_LINK_STAT_RETRAINS HIF_LINK_STAT_OVF 1 p else s
    let s := ((s.setFld HIF_LINK_STAT_STATE 2 p).setFld HIF_LINK_STAT_SPEED speed p).setFld HIF_LINK_STAT_WIDTH width p
    let s := (s.setFld HIF_LINK_STAT_FLIT (b2n flit) p).setFld HIF_LINK_STAT_PRESET preset p
    let s := if speed < s.fld HIF_PORT_CFG_MAX_SPEED ∨ width < s.portWidth then s.raise 560 1 [p] else s
    s.estimate p speed loss refl

/-- LINK_UP (R305). -/
def execLinkUp (p speed width : Nat) (flit : Bool) (preset loss refl : Nat) (s : State) : Res :=
  (s.fresh.linkUp p speed width flit preset loss refl).done s

/-- Pods bound to a port. -/
def State.boundTo (s : State) (p : Nat) : List Nat :=
  (s.pod.pods.filter (fun kv => kv.2.bound && kv.2.port = p)).map (fun kv => kv.1)

/-- A link goes down for another cause than PERST#, or trains down (R306). -/
def State.linkDown (s : State) (p : Nat) : State :=
  if s.fld HIF_LINK_STAT_STATE p ≠ 2 then s
  else
    let s := ((s.setFld HIF_LINK_STAT_STATE 0 p).setFld HIF_LINK_STAT_SPEED 0 p).setFld HIF_LINK_STAT_WIDTH 0 p
    let s := (s.setFld HIF_LINK_STAT_FLIT 0 p).raise 560 2 [p]
    (s.boundTo p).foldl (fun s q =>
      let s := s.abandon q
      let s := s.setCtrl q { s.ctrl q with cfs := true }
      s.modHost (fun h => { h with stopped := if h.stopped.contains q then h.stopped else h.stopped ++ [q] })) s

/-- LINK_DOWN (R306). -/
def execLinkDown (p : Nat) (s : State) : Res := (s.fresh.linkDown p).done s

/-- ATS_INVALIDATE (R304): every DMA of the model ends within its command, so none still uses the old translation. -/
def execAtsInvalidate (p tag : Nat) (s : State) : Res := (s.fresh.emit (.ats p tag)).done s

/-! ### Doorbells (R307, R315) -/

/-- A doorbell write is discarded as invalid (R315): cause 1 the register, 2 the value. -/
def State.doorbellBad (s : State) (p q cause : Nat) : State :=
  (s.raisePod 561 cause [p, q] p).postAsync p (if cause = 1 then 0x010000 else 0x010100)

/-- Whether the window of a pod answers: the pod is bound (R307). -/
def State.windowOpen (s : State) (p : Nat) : Bool := ((Tab.look s.pod.pods p).map Pod.bound).getD false

/-- A submission queue of a pod; the admin queue is number 0. -/
def Ctrl.sq (c : Ctrl) (q : Nat) : Option Sq := Tab.look c.sqs q

/-- A submission queue tail doorbell: recorded whether the pod is fetched from or not (Table 11.8). -/
def State.sqDoorbell (s : State) (p q v : Nat) : State :=
  if !s.windowOpen p then s
  else
    let c := s.ctrl p
    match c.sq q with
    | none => s.doorbellBad p q 1
    | some x =>
      let free := (x.head + x.size - 1 - x.tail) % x.size
      if x.size ≤ v ∨ free < (v + x.size - x.tail) % x.size then s.doorbellBad p q 2
      else s.setCtrl p { c with sqs := Tab.put c.sqs q { x with tail := v } }

/-- SQ_TAIL_DOORBELL (R315). -/
def execSqTailDoorbell (p q v : Nat) (s : State) : Res := (s.fresh.sqDoorbell p q v).done s

/-- A completion queue head doorbell frees entries. -/
def State.cqDoorbell (s : State) (p q v : Nat) : State :=
  if !s.windowOpen p then s
  else
    let c := s.ctrl p
    match Tab.look c.cqs q with
    | none => s.doorbellBad p q 1
    | some x =>
      if x.size ≤ v ∨ (x.tail + x.size - x.head) % x.size < (v + x.size - x.head) % x.size then s.doorbellBad p q 2
      else s.setCtrl p { c with cqs := Tab.put c.cqs q { x with head := v } }

/-- CQ_HEAD_DOORBELL (R315). -/
def execCqHeadDoorbell (p q v : Nat) (s : State) : Res := (s.fresh.cqDoorbell p q v).done s

/-! ### Fetch (R311-R313, R358) -/

/-- Submission queues of a pod with an entry that may be fetched. -/
def State.readyQueues (s : State) (p : Nat) : List (Nat × Sq) :=
  (s.ctrl p).sqs.filter (fun kv => kv.2.head ≠ kv.2.tail && !s.queueHeld p kv.1)

/-- Pods the front end may fetch from. -/
def State.fetchable (s : State) : List Nat :=
  podsOf ((s.host.ctrls.map (fun kv => kv.1)).filter (fun p => s.canFetch p && !(s.readyQueues p).isEmpty))

/-- The next queue of a class in rotation after the last one served (R51). -/
def nextQueue (last prio : Nat) (l : List (Nat × Sq)) : Option Nat :=
  let l := (l.filter (fun x => x.1 ≠ 0 && x.2.prio = prio)).map (fun x => x.1)
  match l.find? (fun q => last < q) with
  | some q => some q
  | none => l.head?

/-- Turns of the high, medium and low class in a round (R311): HPW + 1, MPW + 1, LPW + 1. -/
def Ctrl.roundTurns (c : Ctrl) : List Nat := [bits c.arb 31 24 + 1, bits c.arb 23 16 + 1, bits c.arb 15 8 + 1]

/-- Commands of one turn: 2^AB, and AB = 7 no limit. -/
def Ctrl.turnSize (c : Ctrl) : Nat := if c.arb % 8 = 7 then 2 ^ 32 else 2 ^ (c.arb % 8)

/-- A class that has a queue ready and turns left: its number (1 high, 2 medium, 3 low) and queue. -/
def weighted (c : Ctrl) (l : List (Nat × Sq)) : Option (Nat × Nat) :=
  [1, 2, 3].findSome? (fun k =>
    if c.turns.getD (k - 1) 0 = 0 then none else (nextQueue c.lastQ k l).map (fun q => (k, q)))

/-- The queue a pod's controller fetches from next, and the controller after the choice. -/
def Ctrl.pick (c : Ctrl) (l : List (Nat × Sq)) : Option Nat × Ctrl :=
  if l.any (fun x => x.1 = 0) then (some 0, c)
  else if c.burst ≠ 0 ∧ l.any (fun x => x.1 = c.lastQ) then (some c.lastQ, { c with burst := c.burst - 1 })
  else
    match nextQueue c.lastQ 0 l with
    | some q => (some q, { c with lastQ := q, burst := c.turnSize - 1 })
    | none =>
      let c := if (weighted c l).isSome then c else { c with turns := c.roundTurns }
      match weighted c l with
      | some (k, q) =>
        (some q, { c with lastQ := q, burst := c.turnSize - 1, turns := c.turns.set (k - 1) (c.turns.getD (k - 1) 0 - 1) })
      | none => (none, c)

/-- A fetch: the pod by deficit rotation, the queue within it, and its entry: its identifier and the bytes it will transfer, or
a host memory error (R315). -/
def State.fetch (s : State) (cid bytes : Nat) (ok : Bool) : State :=
  let elig := s.fetchable
  let d := Tab.keep (fun p _ => elig.contains p) s.host.deficit
  match rotate 0 8 elig 100000 s.pod.pods d s.host.lastPod with
  | (none, _, _, _) => s
  | (some p, pods, d, last) =>
    let cost := 1 + ceilDiv bytes 4096
    let s := { s with pod := { s.pod with pods := pods } }
    let s := s.modHost (fun h => { h with deficit := Tab.put d p (Tab.lookD d p 0 - (cost : Int)), lastPod := last })
    match (s.ctrl p).pick (s.readyQueues p) with
    | (none, _) => s
    | (some q, c) =>
      if !ok then (s.setCtrl p { c with cfs := true }).raisePod 561 3 [p, q] p
      else
        let c := { c with sqs := Tab.upd c.sqs q (fun (x : Sq) => { x with head := (x.head + 1) % x.size }) }
        let s := s.setCtrl p c
        let h : HostCmd := ⟨p, q, cid, 0, 0, 0, 0, 0, 0, 0, [], .ok⟩
        s.begin h 0 .fetched none

/-- COMMAND_FETCH (R311). -/
def execCommandFetch (cid bytes : Nat) (ok : Bool) (s : State) : Res := (s.fresh.fetch cid bytes ok).done s

/-! ### Completion (R314) -/

/-- Room in a completion queue. -/
def Cq.full (q : Cq) : Bool := (q.tail + 1) % q.size = q.head

/-- The oldest completion that waits for a queue is posted once the queue has room; ok is false when the write to the host
fails, and the completion then waits (R314, Table 10.25). -/
def State.post (s : State) (p q : Nat) (ok : Bool) : State :=
  match s.host.cqes.find? (fun e => e.pod = p && e.cqid = q) with
  | none => s
  | some e =>
    let c := s.ctrl p
    let open_ := match Tab.look s.pod.pods p with | some x => x.bound && x.state ≠ 4 | none => false
    match Tab.look c.cqs q with
    | none => s
    | some x =>
      if !open_ ∨ x.full then s
      else if !ok then s.raisePod 561 4 [p, q] p
      else
        let s := s.modHost (fun h => { h with
          cqes := h.cqes.erase e
          out := h.out.filter (fun o => !(o.pod = p && o.qid = e.qid && o.cid = e.cid)) })
        let t := (x.tail + 1) % x.size
        let s := s.setCtrl p { c with cqs := Tab.put c.cqs q { x with tail := t, phase := if t = 0 then !x.phase else x.phase } }
        let s := s.countOut.emit (.cqe p q e.qid e.cid e.sct e.sc e.dnr e.dw0 x.phase)
        if x.ien then s.interrupt p x.vector else s

/-! ### Holds and arrivals -/

/-- HELD_ENTRY_ADMIT (R360): a held entry whose tokens and lock quota allow it is admitted; its command row then carries it
out as fetched. Commands on logical blocks are carried out at once. -/
def State.heldAdmit (s : State) (c : CmdRef) : State :=
  match s.outCmd c with
  | none => s
  | some o =>
    match o.held with
    | none => s
    | some (h, x) =>
      if (s.holdCause h x).isSome ∨ !s.canFetch c.pod then s
      else
        let s := (s.takeTokens h x).modPod c.pod (fun p => { p with heldEpisode := false })
        match h with
        | .io k => s.ioBegin k x
        | _ => (s.begin x 0 .fetched none).modOut c (fun o => { o with held := some (h, x) })

/-- HELD_ENTRY_ADMIT (R360). -/
def execHeldEntryAdmit (pod qid cid : Nat) (s : State) : Res := (s.fresh.heldAdmit ⟨pod, qid, cid⟩).done s

/-- HOST_DATA_PULLED (R327). -/
def execHostDataPulled (pod qid cid : Nat) (s : State) : Res := (s.fresh.ioData ⟨pod, qid, cid⟩).done s

/-- Whether every write a Flush covers has reached step 8 (R336). -/
def State.flushed (s : State) (f : FlushWait) : Bool :=
  f.recs ≤ s.ftl.recDurable
    && !s.ftl.wbuf.any (fun w => w.id < f.upTo && w.cmd.pod = f.pod
        && (match f.ns with | some n => nsidOf w.laddr = n | none => true))

/-- The first Flush whose writes are all durable completes; a shutdown's shows its end in CSTS.SHST (R337). -/
def State.flushEnd (s : State) : State :=
  match s.host.flushes.find? (fun f => s.flushed f) with
  | none => s
  | some f =>
    let s := s.modHost (fun h => { h with flushes := h.flushes.erase f })
    match f.cmd with
    | some c => s.endCmd c 0 0 false 0
    | none => if (s.ctrl f.pod).shst = 1 then s.setCtrl f.pod { s.ctrl f.pod with shst := 2 } else s

/-- NVM_FLUSH_COMPLETE (R336). -/
def execNvmFlushComplete (s : State) : Res := s.fresh.flushEnd.done s

/-! ### Queues (R310, R311, R320) -/

/-- Queues of a kind (0 submission, 1 completion) a pod may have: its Number of Queues once set, its IOQ before. -/
def State.queueLimit (s : State) (p kind : Nat) : Nat :=
  let n := (s.ctrl p).numQ / 2 ^ (16 * kind) % 2 ^ 16
  let ioq := ((Tab.look s.pod.pods p).map Pod.ioq).getD 0
  if n = 0 then ioq else min n ioq

/-- Interrupt vectors of a pod (R366, Table 10.2). -/
def State.vectors (s : State) (p : Nat) : Nat :=
  match Tab.look s.pod.pods p with
  | some e => if e.noPasid then 2048 else e.imsCount
  | none => 0

/-- A queue creation in the safe configuration fails with Command Sequence Error (Table 3.11). -/
def State.queueCmd (s : State) (c : HostCmd) (k : State → State) : State :=
  s.admin c anyPod (fun s => if s.safe then s.failG c 0x0C else k s)

/-- Create I/O Completion Queue: the command's data hold PRP entry 1. -/
def State.createCq (s : State) (c : HostCmd) : State :=
  let q := c.cdw10 % 2 ^ 16
  let size := c.cdw10 / 2 ^ 16 + 1
  let k := s.ctrl c.pod
  if q = 0 ∨ s.queueLimit c.pod 1 < q ∨ Tab.has k.cqs q then s.failS c 0x01
  else if size < 2 ∨ 16384 < size then s.failS c 0x02
  else if !bit c.cdw11 0 then s.failG c 0x02
  else if s.vectors c.pod ≤ c.cdw11 / 2 ^ 16 then s.failS c 0x08
  else
    let x : Cq := ⟨size, leAt c.data 0 8, c.cdw11 / 2 ^ 16, bit c.cdw11 1, 0, 0, true⟩
    (s.setCtrl c.pod { k with cqs := Tab.put k.cqs q x }).succeed c

/-- CREATE_IO_CQ (R310). -/
def execCreateIoCq (c : HostCmd) (s : State) : Res := (s.fresh.queueCmd c (fun s => s.createCq c)).done s

/-- Whether a pod's envelope permits something (Table 11.1). -/
def State.permit (s : State) (p i : Nat) : Bool :=
  match Tab.look s.pod.pods p with
  | some e => bit (s.fld POD_ENV_W0_PERMIT e.cls) i
  | none => false

/-- Create I/O Submission Queue: the command's data hold PRP entry 1. -/
def State.createSq (s : State) (c : HostCmd) : State :=
  let q := c.cdw10 % 2 ^ 16
  let size := c.cdw10 / 2 ^ 16 + 1
  let cq := c.cdw11 / 2 ^ 16
  let prio := bits c.cdw11 2 1
  let k := s.ctrl c.pod
  if q = 0 ∨ s.queueLimit c.pod 0 < q ∨ Tab.has k.sqs q then s.failS c 0x01
  else if size < 2 ∨ 16384 < size then s.failS c 0x02
  else if !bit c.cdw11 0 then s.failG c 0x02
  else if cq = 0 ∨ !Tab.has k.cqs cq then s.failS c 0x00
  else if prio = 0 ∧ !s.permit c.pod 0 then s.failG c 0x02
  else (s.setCtrl c.pod { k with sqs := Tab.put k.sqs q ⟨size, leAt c.data 0 8, cq, prio, 0, 0⟩ }).succeed c

/-- CREATE_IO_SQ (R311). -/
def execCreateIoSq (c : HostCmd) (s : State) : Res := (s.fresh.queueCmd c (fun s => s.createSq c)).done s

/-- Delete I/O Submission Queue: commands of it not yet started end (Table 10.14). -/
def State.deleteSq (s : State) (c : HostCmd) : State :=
  let q := c.cdw10 % 2 ^ 16
  let k := s.ctrl c.pod
  if q = 0 ∨ !Tab.has k.sqs q then s.failS c 0x01
  else
    let idle := s.host.out.filter (fun o => o.pod = c.pod && o.qid = q && (o.stage = .held || o.stage = .fetched || o.stage = .lockWait))
    let s := idle.foldl (fun s o => s.endCmd ⟨o.pod, o.qid, o.cid⟩ 0 0x08 false 0) s
    let k := s.ctrl c.pod
    (s.setCtrl c.pod { k with sqs := Tab.del k.sqs q }).succeed c

/-- DELETE_IO_SQ (R320). -/
def execDeleteIoSq (c : HostCmd) (s : State) : Res :=
  (s.fresh.admin c ⟨false, true, false, false⟩ (fun s => s.deleteSq c)).done s

/-- Delete I/O Completion Queue: not while submission queues use it (Table 10.11). -/
def State.deleteCq (s : State) (c : HostCmd) : State :=
  let q := c.cdw10 % 2 ^ 16
  let k := s.ctrl c.pod
  if q = 0 ∨ !Tab.has k.cqs q then s.failS c 0x01
  else if k.sqs.any (fun kv => kv.2.cqid = q) then s.failS c 0x0C
  else (s.setCtrl c.pod { k with cqs := Tab.del k.cqs q }).succeed c

/-- DELETE_IO_CQ (R320). -/
def execDeleteIoCq (c : HostCmd) (s : State) : Res :=
  (s.fresh.admin c ⟨false, true, false, false⟩ (fun s => s.deleteCq c)).done s

/-! ### Abort and Asynchronous Event Request (R320, R322) -/

/-- Cancel what a started Execute Program runs: its scan (R270) or its task (R295). Whether there was one. -/
def State.cancelProgram (s : State) (t : CmdRef) : Bool × State :=
  match s.scn.jobs.find? (fun kv => kv.2.cmd = some t) with
  | some kv => (true, (s.endJob kv.1 0x16 0).scanGo)
  | none =>
    match s.tsk.tasks.find? (fun kv => kv.2.cmd = some t) with
    | some kv => (true, s.cancelTask kv.1 false)
    | none =>
      if s.scn.held.any (fun h => h.1 = t) then
        (true, (s.modScn (fun x => { x with held := x.held.filter (fun h => h.1 ≠ t) })).endCmd t 0 0x07 false 0)
      else (false, s)

/-- Abort (R322). -/
def State.abort (s : State) (c : HostCmd) : State :=
  let mine := s.host.out.filter (fun o => o.pod = c.pod && o.abort)
  if 8 ≤ mine.length then s.failS c 0x03
  else
    let s := s.modOut (HostCmdRef c) (fun o => { o with abort := true })
    let t : CmdRef := ⟨c.pod, c.cdw10 % 2 ^ 16, c.cdw10 / 2 ^ 16⟩
    match s.outCmd t with
    | none => s.succeed c 1
    | some o =>
      if o.stage = .held ∨ o.stage = .fetched ∨ o.stage = .lockWait then (s.endCmd t 0 0x07 false 0).succeed c 0
      else
        let (did, s) := s.cancelProgram t
        s.succeed c (if did then 0 else 1)

/-- ABORT (R322). -/
def execAbort (c : HostCmd) (s : State) : Res := (s.fresh.admin c ⟨false, true, false, false⟩ (fun s => s.abort c)).done s

/-- Asynchronous Event Request: up to 16 outstanding (Table 10.11); a waiting event completes it at once. -/
def State.aerTake (s : State) (c : HostCmd) : State :=
  let k := s.ctrl c.pod
  if 16 ≤ k.aers.length then s.failS c 0x05
  else
    let s := s.setCtrl c.pod { k with aers := k.aers ++ [c.cid] }
    s.flushAsync c.pod (k.pendingEv.length + 1)

/-- ASYNC_EVENT_REQUEST (R320, R492). -/
def execAsyncEventRequest (c : HostCmd) (s : State) : Res :=
  (s.fresh.admin c ⟨false, true, false, false⟩ (fun s => s.aerTake c)).done s

end Sys2Proof.Machine
end

