-- ==== Sys2Proof/Machine/Admin.lean ====
section
/-!
DEFINITION. Identify, features and log pages (R320, R344-R347, R129, R217, R493), and commands that fail for their opcode,
log identifier or feature identifier. Offsets inside NVMe's own structures are those of NVMe 2.1; bytes of them the spec does
not name are free (log entry 52).
-/
namespace Sys2Proof.Machine

/-! ### Temperature and health (R345) -/

/-- What sensor k reads, in sixteenths of a degree. -/
def State.sensor (s : State) (k : Nat) : Int := toSigned 16 (s.fld PWR_SENSOR_TEMP k)

/-- The highest of n sensors from k on. -/
def State.hottest (s : State) (k n : Nat) : Int :=
  ((List.range n).map (fun i => s.sensor (k + i))).foldl max (s.sensor k)

/-- Sixteenths of a degree Celsius as whole kelvin, 0 °C taken as 273 K (log entry 54). -/
def kelvin (t : Int) : Nat := (t / 16 + 273).toNat

/-- Composite Temperature in kelvin. -/
def State.composite (s : State) : Nat := kelvin (s.hottest 0 48)

/-- Over and under temperature thresholds of a pod for the composite (0) or sensor n; none until set (log entry 55). -/
def Ctrl.threshold (c : Ctrl) (sel under : Nat) : Nat :=
  if under = 0 then (Tab.lookD c.tempOver sel 0xFFFF).toNat else (Tab.lookD c.tempUnder sel 0).toNat

/-- Critical Warning (R345) as a pod's controller reports it. -/
def State.critical (s : State) (p : Nat) : Nat :=
  let c := s.ctrl p
  let t := s.composite
  b2n (s.availSpare < s.fld FTL_SPACE_CFG_SPARE_WARN && s.ftl.cap.isSome)
    + b2n (c.threshold 0 0 < t || t < c.threshold 0 1) * 2
    + b2n (s.fld DRC_FENCE_CFG_FENCED ≠ 0 || s.fld CMP_STAT_FENCED ≠ 0 || s.ftl.parityLost) * 4
    + b2n s.ftl.readOnly * 8 + b2n s.nv.breach * 16

/-- SMART/Health (R345): byte 232 holds the device state. -/
def State.smartLog (s : State) (p : Nat) : List Byte × State :=
  let state := s.entryFlags / 2 % 2 + b2n (!s.holdUp) * 2 + b2n s.safe * 4
  s.openForm 512
    ([(0, leBytes 1 (s.critical p)), (1, leBytes 2 s.composite), (3, leBytes 1 s.availSpare),
      (4, leBytes 1 (s.fld FTL_SPACE_CFG_SPARE_WARN)), (5, leBytes 1 s.percentUsed), (232, leBytes 1 state)]
     ++ (List.range 8).map (fun n => (200 + 2 * n, leBytes 2 (kelvin (s.hottest (6 * n) 6)))))

/-! ### The other log pages (Table 10.19) -/

/-- First byte of firmware slot k in the NOR (Table 3.1). -/
def slotOffset (k : Nat) : Nat := 0x1000000 + (k - 1) * 0xC00000

/-- REVISION of firmware slot k; zeros where the slot holds no image (Table 4.14). -/
def State.revision (s : State) (k : Nat) : List Byte :=
  if s.norRd (slotOffset k) 4 = ascii "GFWS" then s.norRd (slotOffset k + 16) 8 else List.replicate 8 0#8

/-- Error Information: 64 entries, newest first. -/
def State.errorLog (s : State) (p : Nat) : List Byte × State :=
  (List.range 64).foldl (fun (a : List Byte × State) i =>
    match (s.ctrl p).errLog[i]? with
    | some (n, q, cid, st) =>
      let (b, s') := a.2.openForm 64 [(0, leBytes 8 n), (8, leBytes 2 q), (10, leBytes 2 cid), (12, leBytes 2 (2 * st))]
      (a.1 ++ b, s')
    | none => (a.1 ++ List.replicate 64 0#8, a.2)) ([], s)

/-- Firmware Slot: the running slot, the slot the next reset runs, four revisions. -/
def State.firmwareLog (s : State) : List Byte × State :=
  let next := s.nv.fwActive.slot
  let afi := s.boot.fwSlot + (if next = s.boot.fwSlot then 0 else next * 16)
  s.openForm 512 ((0, leBytes 1 afi) :: (List.range 4).map (fun k => (8 + 8 * k, s.revision (k + 1))))

/-- Admin opcodes of Table 10.11 and NVM opcodes of Table 10.12. -/
def adminOpcodes : List Nat :=
  [0x00, 0x01, 0x02, 0x04, 0x05, 0x06, 0x08, 0x09, 0x0A, 0x0C, 0x0D, 0x10, 0x11, 0x14, 0x15, 0x80, 0x84, 0xC4, 0xC5, 0xC6, 0xC7,
   0xC8, 0xC9, 0xCA, 0xCB, 0xCC]

/-- NVM command set opcodes (Table 10.12). -/
def nvmOpcodes : List Nat := [0x00, 0x01, 0x02, 0x04, 0x05, 0x08, 0x09, 0x0C]

/-- Commands Supported and Effects: bit 0 of each opcode's entry says whether it is supported. -/
def State.effectsLog (s : State) : List Byte × State :=
  let entry := fun (l : List Nat) (a : List Byte × State) (k : Nat) =>
    let (v, s') := a.2.draw (2 ^ 31)
    if l.contains k then (a.1 ++ leBytes 4 (2 * v + 1), s') else (a.1 ++ leBytes 4 0, s')
  let a := (List.range 256).foldl (entry adminOpcodes) ([], s)
  let b := (List.range 256).foldl (entry nvmOpcodes) a
  (slice b.1 0 4096, b.2)

/-- Device Self-test: the running test and the last 20 results. -/
def State.selfTestLog (s : State) : List Byte × State :=
  let t := s.host.selfTest
  let (pc, s) := s.draw 101
  let head := leBytes 1 (t.run.getD 0) ++ leBytes 1 (if t.run.isSome then pc else 0) ++ leBytes 2 0
  (List.range 20).foldl (fun (a : List Byte × State) i =>
    match t.log[i]? with
    | some (stc, code, seg) =>
      let (b, s') := a.2.openForm 28 [(0, leBytes 1 (code + stc * 16)), (1, leBytes 1 seg)]
      (a.1 ++ b, s')
    | none =>
      let (b, s') := a.2.openForm 28 [(0, leBytes 1 0x0F)]
      (a.1 ++ b, s')) (head, s)

/-- Sanitize Status (R217): bytes 32-35 count the blocks whose erase failed. -/
def State.sanitizeLog (s : State) : List Byte × State :=
  let n := s.nv.sanitize
  let st := if n.phase = 5 then 3 else if n.phase ≠ 0 then 2 else n.last
  let prog := if n.phase = 0 ∨ n.phase = 5 then 0xFFFF else s.fld FTL_SAN_STAT_PROGRESS
  let (w, s) := s.draw (2 ^ 13)
  s.openForm 512
    [(0, leBytes 2 prog), (2, leBytes 2 (st + 8 * w)), (4, leBytes 4 (n.sanact + b2n n.ause * 8)), (32, leBytes 4 n.failed)]

/-- The lowest index still held in the ring. -/
def State.oldestRing (s : State) : Nat :=
  (s.nv.ring.filter (fun kv => kv.2.index ≤ s.nv.newest)).foldl (fun m kv => min m kv.2.index) s.nv.newest

/-- Ledger Status (Table 4.29). -/
def State.ledgerStatus (s : State) : List Byte :=
  let n := s.nv
  let a := s.archivedHead
  let head := match s.ringEntry n.newest with | some e => s.chainHash e | none => List.replicate 64 0#8
  leBytes 8 n.newest ++ leBytes 8 s.oldestRing ++ leBytes 8 a.1 ++ leBytes 4 n.epoch ++ leBytes 4 n.archCount
    ++ leBytes 4 n.missed ++ leBytes 4 n.credits ++ List.replicate 24 0#8 ++ slice head 0 64 ++ slice a.2 0 64

/-- Identity (Table 4.27). -/
def State.identityLog (s : State) : List Byte :=
  s.deviceIdBytes ++ leBytes 1 s.otp.certSlot ++ List.replicate 7 0#8 ++ slice (Config.identityKey s.idSeed) 0 1793
    ++ List.replicate 7 0#8 ++ slice s.otp.cert 0 1280

/-! ### Telemetry (R492, R493) -/

/-- A ring slot as read: an unwritten slot reads zeros (log entry 56). -/
def State.ringBytes (s : State) (slot : Nat) : List Byte :=
  match Tab.look s.recd.ring slot with
  | some r => r.bytes
  | none => List.replicate 48 0#8

/-- The snapshot of all live blocks (R490). -/
def State.snapshot (s : State) (seq : Nat) : List Byte :=
  ascii "GRSN" ++ leBytes 1 1 ++ List.replicate 3 0#8 ++ leBytes 8 seq ++ leBytes 8 s.time ++ leBytes 8 s.recd.head
    ++ List.replicate 32 0#8 ++ (List.range 1024).flatMap (fun k => (s.live k).bytes k)

/-- The lifetime block of a series: one that has folded nothing holds nothing. -/
def State.lifetime (s : State) (k : Nat) : List Byte := s.ledgerRead (0x3000000 + 0x1000 * k) 0x80

/-- The data areas of a capture for a pod (Table 16.8). -/
def State.capture (s : State) (p : Nat) : List Byte :=
  let head := ascii "GTLM" ++ leBytes 1 1 ++ leBytes 2 p ++ s.deviceIdBytes ++ leBytes 8 s.time ++ leBytes 8 s.recd.head
  let ring := (Tab.lookD s.evt.hostRing p []).flatMap EvtRec.bytes
  let area1 := slice head 0 512 ++ slice ring 0 12288
  if p ≠ 0 then area1
  else
    area1 ++ slice (s.snapshot s.recd.snapSeq) 0 131584 ++ (List.range 16384).flatMap (fun k => s.ringBytes k)
      ++ (List.range 1024).flatMap (fun k => s.lifetime k)

/-- Telemetry Host-Initiated (R493): a capture when asked, and the release of further notices (R492). -/
def State.telemetryLog (s : State) (c : HostCmd) : List Byte × State :=
  let p := c.pod
  let s := if bit c.cdw10 8 then
      { s with recd := { s.recd with telGen := (s.recd.telGen + 1) % 256, tel := Tab.put s.recd.tel p (s.capture p) } }
    else s
  let s := if bit c.cdw10 15 then s else s.modEvt (fun e => { e with noticed := e.noticed.filter (fun x => x ≠ p) })
  let last := if p = 0 then 2074 else 25
  let (h, s) := s.openForm 512
    [(0, leBytes 1 7), (8, leBytes 2 25), (10, leBytes 2 (if p = 0 then 282 else 25)), (12, leBytes 2 last),
     (381, leBytes 1 s.recd.telGen), (382, leBytes 1 0)]
  (h ++ slice (Tab.lookD s.recd.tel p []) 0 (512 * last), s)

/-! ### Get Log Page (R344) -/

/-- The part of a log page asked for: an offset beyond it is an invalid field, bytes past its end are free (log entry 52). -/
def State.giveLog (s : State) (c : HostCmd) (a : List Byte × State) : State :=
  let size := 4 * (c.cdw10 / 2 ^ 16 + c.cdw11 % 2 ^ 16 * 2 ^ 16 + 1)
  let off := c.cdw12 + c.cdw13 * 2 ^ 32
  if 2097152 < size ∨ a.1.length < off then s.failG c 0x02
  else
    let have_ := (a.1.drop off).take size
    let (rest, s) := a.2.freeBytes (size - have_.length)
    s.giveData c (have_ ++ rest)

/-- Get Log Page for an identifier. Pages for pod 0 alone are unlisted for other pods, but Ledger Status, whose own rule names
another status (R129). -/
def State.logPage (s : State) (c : HostCmd) (lid : Nat) : State :=
  s.admin c anyPod (fun s =>
    match lid with
    | 0x01 => s.giveLog c (s.errorLog c.pod)
    | 0x02 => s.giveLog c (s.smartLog c.pod)
    | 0x03 => s.giveLog c s.firmwareLog
    | 0x05 => s.giveLog c s.effectsLog
    | 0x06 => if c.pod = 0 then s.giveLog c s.selfTestLog else s.failS c 0x09
    | 0x07 => s.giveLog c (s.telemetryLog c)
    | 0x81 => if c.pod = 0 then s.giveLog c s.sanitizeLog else s.failS c 0x09
    | 0xC2 => if c.pod = 0 then s.giveLog c (s.ledgerStatus, s) else s.failG c 0x01
    | 0xC3 => s.giveLog c (s.identityLog, s)
    | _ => s.failS c 0x09)

/-- LOG_ERROR_INFORMATION (R344). -/
def execLogErrorInformation (c : HostCmd) (s : State) : Res := (s.fresh.logPage c 0x01).done s

/-- LOG_SMART_HEALTH (R345). -/
def execLogSmartHealth (c : HostCmd) (s : State) : Res := (s.fresh.logPage c 0x02).done s

/-- LOG_FIRMWARE_SLOT (R344). -/
def execLogFirmwareSlot (c : HostCmd) (s : State) : Res := (s.fresh.logPage c 0x03).done s

/-- LOG_COMMANDS_SUPPORTED (R344). -/
def execLogCommandsSupported (c : HostCmd) (s : State) : Res := (s.fresh.logPage c 0x05).done s

/-- LOG_DEVICE_SELF_TEST (R344). -/
def execLogDeviceSelfTest (c : HostCmd) (s : State) : Res := (s.fresh.logPage c 0x06).done s

/-- LOG_TELEMETRY_HOST_INITIATED (R493). -/
def execLogTelemetryHostInitiated (c : HostCmd) (s : State) : Res := (s.fresh.logPage c 0x07).done s

/-- LOG_SANITIZE_STATUS (R217). -/
def execLogSanitizeStatus (c : HostCmd) (s : State) : Res := (s.fresh.logPage c 0x81).done s

/-- LOG_LEDGER_STATUS (R129). -/
def execLogLedgerStatus (c : HostCmd) (s : State) : Res := (s.fresh.logPage c 0xC2).done s

/-- LOG_IDENTITY (R129). -/
def execLogIdentity (c : HostCmd) (s : State) : Res := (s.fresh.logPage c 0xC3).done s

/-- INVALID_LOG_PAGE (R344): Get Log Page whose identifier the command carries. -/
def execInvalidLogPage (c : HostCmd) (s : State) : Res := (s.fresh.logPage c (c.cdw10 % 256)).done s

/-! ### Identify (R320) -/

/-- Namespaces of a pod above a number, at most 1,024. -/
def State.nsList (s : State) (p above : Nat) (all : Bool) : List Nat :=
  if s.safe then []
  else ((s.host.ns.filter (fun kv => above < kv.1 && s.hostSees kv.1 && (all || kv.2.pods.contains p))).map (fun kv => kv.1)).take 1024

/-- Relative performance of the LBA formats (Table 10.16). -/
def formatRp (i : Nat) : Nat := [2, 3, 3, 0, 1, 1].getD i 0

/-- Identify Namespace. -/
def State.identifyNs (s : State) (n : Ns) : List Byte × State :=
  let md := fun (i : Nat) => leBytes 2 (mdBytes i) ++ leBytes 1 (if lbaBytes i = 512 then 9 else 12) ++ leBytes 1 (formatRp i)
  s.openForm 4096
    ([(0, leBytes 8 n.size), (8, leBytes 8 n.size), (25, leBytes 1 5), (26, leBytes 1 (n.format + b2n n.extended * 16)),
      (29, leBytes 1 n.dps), (30, leBytes 1 (b2n n.shared)), (33, leBytes 1 0x19),
      (36, leBytes 2 (n.unit / lbaBytes n.format - 1)), (104, leBytes 16 n.nguid)]
     ++ (List.range 6).map (fun i => (128 + 4 * i, md i)))

/-- The part number as the 40 bytes of the Model Number field (R4), padded with spaces as NVMe has it. -/
def modelNumber (p : Part) : List Byte :=
  ascii (match p with
    | .glt7440 => "GLT7440"
    | .glt7430 => "GLT7430"
    | .glt7420 => "GLT7420") ++ List.replicate 33 0x20#8

/-- Identify Controller. AWUPF reports one map unit (R200): in logical blocks, less one, what holds for every format (log entry 180). -/
def State.identifyCtrl (s : State) (p : Nat) : List Byte × State :=
  s.openForm 4096
    [(24, slice (modelNumber s.part) 0 40), (64, s.revision s.boot.fwSlot), (77, leBytes 1 9), (78, leBytes 2 p), (80, leBytes 4 0x00020100), (88, leBytes 4 1000000),
     (256, leBytes 2 (if p = 0 then 0x1E else 0x02)), (258, leBytes 1 7), (259, leBytes 1 15), (260, leBytes 1 0x18),
     (262, leBytes 1 63), (263, leBytes 1 0), (270, leBytes 2 5), (316, leBytes 2 20), (319, leBytes 1 1),
     (328, leBytes 4 (0x20000003)), (512, leBytes 1 0x66), (513, leBytes 1 0x44), (516, leBytes 4 8192), (520, leBytes 2 0xCF),
     (522, leBytes 2 0), (524, leBytes 1 4), (525, leBytes 1 7), (528, leBytes 2 0), (536, leBytes 4 0x40001)]

/-- A list of numbers as 4-byte entries in 4 KiB. -/
def idList (l : List Nat) : List Byte := slice (l.flatMap (fun n => leBytes 4 n)) 0 4096

/-- A controller list: count and identifiers. -/
def ctrlList (l : List Nat) : List Byte :=
  slice (leBytes 2 (min l.length 2047) ++ (l.take 2047).flatMap (fun n => leBytes 2 n)) 0 4096

/-- Identify (R320): a namespace not attached to the pod, or none in the safe configuration, is not reported. -/
def State.identify (s : State) (c : HostCmd) : State :=
  let seen := if s.safe ∨ !s.hostSees c.nsid then none else s.nsOf c.nsid
  let mine := seen.filter (fun n => n.pods.contains c.pod)
  let ns := fun (o : Option Ns) =>
    match o with
    | some n => let (b, s) := s.identifyNs n; s.giveData c b
    | none => s.giveData c (List.replicate 4096 0#8)
  match c.cdw10 % 256 with
  | 0x00 => ns mine
  | 0x01 => let (b, s) := s.identifyCtrl c.pod; s.giveData c b
  | 0x02 => s.giveData c (idList (s.nsList c.pod c.nsid false))
  | 0x03 =>
    (match mine with
     | some n => s.giveData c (slice (leBytes 4 0x1002 ++ leBytes 16 n.nguid ++ leBytes 4 0x0104 ++ leBytes 1 0) 0 4096)
     | none => s.failG c 0x0B)
  | 0x10 => s.giveData c (idList (s.nsList c.pod c.nsid (c.pod = 0)))
  | 0x11 => ns (if c.pod = 0 then seen else mine)
  | 0x12 =>
    if c.pod ≠ 0 then s.failG c 0x02
    else s.giveData c (ctrlList ((seen.map Ns.pods).getD [] |>.filter (fun p => c.cdw10 / 2 ^ 16 ≤ p)))
  | 0x13 =>
    if c.pod ≠ 0 then s.failG c 0x02
    else s.giveData c (ctrlList ((s.pod.pods.map (fun kv => kv.1)).filter (fun p => c.cdw10 / 2 ^ 16 ≤ p)))
  | 0x05 => let (b, s) := s.openForm 4096 []; s.giveData c b
  | 0x06 => let (b, s) := s.openForm 4096 []; s.giveData c b
  | 0x1C => let (b, s) := s.openForm 4096 []; s.giveData c b
  | _ => s.failG c 0x02

/-- IDENTIFY (R320). -/
def execIdentify (c : HostCmd) (s : State) : Res := (s.fresh.admin c anyPod (fun s => s.identify c)).done s

/-! ### Features (R346, R347, Table 10.20) -/

/-- Feature identifiers of Table 10.20. -/
def featureIds : List Nat := [0x01, 0x02, 0x04, 0x06, 0x07, 0x08, 0x09, 0x0A, 0x0B, 0x0E]

/-- The Timestamp in milliseconds. -/
def State.timestamp (s : State) : Nat := s.time / 1000000 - s.host.tsOffset

/-- Number of Queues as it stands: submission queues low, completion queues high, less one each. -/
def State.queuesWord (s : State) (p : Nat) : Nat := (s.queueLimit p 0 - 1) + (s.queueLimit p 1 - 1) * 2 ^ 16

/-- A feature's current value in a pod's controller. -/
def State.feature (s : State) (p fid w : Nat) : Nat :=
  let c := s.ctrl p
  match fid with
  | 0x01 => c.arb
  | 0x04 => c.threshold (bits w 19 16) (bits w 21 20)
  | 0x06 => 1
  | 0x07 => s.queuesWord p
  | 0x08 => c.coal
  | 0x09 => Tab.lookD c.vecCfg (w % 2 ^ 16) (w % 2 ^ 16)
  | 0x0A => c.writeAtom
  | 0x0B => c.asyncCfg
  | _ => 0

/-- A feature's default value. -/
def State.featureDefault (s : State) (p fid w : Nat) : Nat :=
  match fid with
  | 0x01 => 3
  | 0x04 => Ctrl.fresh.threshold (bits w 19 16) (bits w 21 20)
  | 0x06 => 1
  | 0x07 => let q := ((Tab.look s.pod.pods p).map Pod.ioq).getD 0; (q - 1) * 0x10001
  | 0x09 => w % 2 ^ 16
  | _ => 0

/-- Get Features: SEL 0 current, 1 default, 3 capabilities; nothing is saved. -/
def State.getFeature (s : State) (c : HostCmd) : State :=
  let fid := c.cdw10 % 256
  let sel := bits c.cdw10 10 8
  if !featureIds.contains fid ∨ sel = 2 ∨ 3 < sel then s.failG c 0x02
  else if fid = 0x04 ∧ (8 < bits c.cdw11 19 16 ∨ 1 < bits c.cdw11 21 20) then s.failG c 0x02
  else if sel = 3 then s.succeed c (if fid = 0x06 then 0 else 4)
  else if fid = 0x0E then
    let (o, s) := s.draw 256
    s.giveData c (leBytes 6 (if sel = 0 then s.timestamp else 0) ++ leBytes 1 o ++ leBytes 1 0)
  else s.succeed c (if sel = 0 then s.feature c.pod fid c.cdw11 else s.featureDefault c.pod fid c.cdw11)

/-- GET_FEATURES (R346). -/
def execGetFeatures (c : HostCmd) (s : State) : Res := (s.fresh.admin c anyPod (fun s => s.getFeature c)).done s

/-- Set Features Timestamp (R347). -/
def State.setTimestamp (s : State) (c : HostCmd) : State :=
  if c.pod ≠ 0 then s.failS c 0x0E
  else if c.xfer ≠ .ok then s.failXfer c c.xfer
  else
    let v := leAt c.data 0 6
    let now := s.time / 1000000
    let s := if s.time < v * 1000000 then
        ((({ s with time := v * 1000000 } : State).modHost (fun h => { h with tsOffset := 0 })).raise 565 1 [(v - now) % 2 ^ 32])
      else (s.modHost (fun h => { h with tsOffset := now - v })).raise 565 2 [(now - v) % 2 ^ 32]
    s.succeed c

/-- Set a feature other than Timestamp in the pod's controller. -/
def State.setFeatureValue (s : State) (c : HostCmd) (fid : Nat) : State :=
  let k := s.ctrl c.pod
  let w := c.cdw11
  let put := fun (k : Ctrl) => (s.setCtrl c.pod k).succeed c
  match fid with
  | 0x01 => put { k with arb := w - bits w 7 3 * 8 }
  | 0x02 => if w % 32 = 0 then s.succeed c else s.failG c 0x02
  | 0x04 =>
    let sel := bits w 19 16
    if 8 < sel ∨ 1 < bits w 21 20 then s.failG c 0x02
    else if bits w 21 20 = 0 then put { k with tempOver := Tab.put k.tempOver sel (w % 2 ^ 16 : Nat) }
    else put { k with tempUnder := Tab.put k.tempUnder sel (w % 2 ^ 16 : Nat) }
  | 0x06 => if w % 2 = 0 then s.failS c 0x0E else s.succeed c
  | 0x07 =>
    let ioq := ((Tab.look s.pod.pods c.pod).map Pod.ioq).getD 0
    if w % 2 ^ 16 = 0xFFFF ∨ w / 2 ^ 16 = 0xFFFF then s.failG c 0x02
    else
      let s := s.setCtrl c.pod { k with numQ := min (w % 2 ^ 16 + 1) ioq + min (w / 2 ^ 16 + 1) ioq * 2 ^ 16 }
      s.succeed c (s.queuesWord c.pod)
  | 0x08 => put { k with coal := w % 2 ^ 16 }
  | 0x09 =>
    if s.vectors c.pod ≤ w % 2 ^ 16 then s.failG c 0x02
    else put { k with vecCfg := Tab.put k.vecCfg (w % 2 ^ 16) (w % 2 ^ 17) }
  | 0x0A => if w % 2 = 1 then s.failG c 0x02 else s.succeed c
  | 0x0B => put { k with asyncCfg := w }
  | _ => s.failG c 0x02

/-- Set Features (R346, Table 3.11): none is saveable, and the safe configuration allows Timestamp alone. -/
def State.setFeature (s : State) (c : HostCmd) (fid : Nat) : State :=
  s.admin c ⟨false, fid ≠ 0x0E, false, false⟩ (fun s =>
    if !featureIds.contains fid then s.failG c 0x02
    else if bit c.cdw10 31 then s.failS c 0x0D
    else if fid = 0x0E then s.setTimestamp c
    else s.setFeatureValue c fid)

/-- SET_ARBITRATION (R311). -/
def execSetArbitration (c : HostCmd) (s : State) : Res := (s.fresh.setFeature c 0x01).done s

/-- SET_POWER_MANAGEMENT (R346). -/
def execSetPowerManagement (c : HostCmd) (s : State) : Res := (s.fresh.setFeature c 0x02).done s

/-- SET_TEMPERATURE_THRESHOLD (R345). -/
def execSetTemperatureThreshold (c : HostCmd) (s : State) : Res := (s.fresh.setFeature c 0x04).done s

/-- SET_VOLATILE_WRITE_CACHE (R346). -/
def execSetVolatileWriteCache (c : HostCmd) (s : State) : Res := (s.fresh.setFeature c 0x06).done s

/-- SET_NUMBER_OF_QUEUES (R346). -/
def execSetNumberOfQueues (c : HostCmd) (s : State) : Res := (s.fresh.setFeature c 0x07).done s

/-- SET_INTERRUPT_COALESCING (R346). -/
def execSetInterruptCoalescing (c : HostCmd) (s : State) : Res := (s.fresh.setFeature c 0x08).done s

/-- SET_INTERRUPT_VECTOR_CONFIG (R346). -/
def execSetInterruptVectorConfig (c : HostCmd) (s : State) : Res := (s.fresh.setFeature c 0x09).done s

/-- SET_WRITE_ATOMICITY (R346). -/
def execSetWriteAtomicity (c : HostCmd) (s : State) : Res := (s.fresh.setFeature c 0x0A).done s

/-- SET_ASYNC_EVENT_CONFIG (R346). -/
def execSetAsyncEventConfig (c : HostCmd) (s : State) : Res := (s.fresh.setFeature c 0x0B).done s

/-- SET_TIMESTAMP (R347). -/
def execSetTimestamp (c : HostCmd) (s : State) : Res := (s.fresh.setFeature c 0x0E).done s

/-- FEATURE_IDENTIFIER_INVALID (R346): Set Features for the identifier the command carries. -/
def execFeatureIdentifierInvalid (c : HostCmd) (s : State) : Res := (s.fresh.setFeature c (c.cdw10 % 256)).done s

/-! ### Opcodes that are not supported (R320, R321, R494) -/

/-- INVALID_COMMAND_OPCODE (R320): a host command, or one of NVMe-MI (its status as NVMe-MI names it, log entry 50). -/
def execInvalidCommandOpcode (mi : Bool) (c : HostCmd) (s : State) : Res :=
  let s := s.fresh
  (if mi then s.emit (.mi 0x03 [])
   else if !s.takes c then s
   else (s.begin c 0 Stage.started none).failG c 0x01).done s

end Sys2Proof.Machine
end

