-- ==== Sys2Proof/Machine/Askif.lean ====
section
/-!
DEFINITION. Askif's commands (chapter 15): ports and Neighbor Discovery, frames and their checks, membership, chunks of spread
namespaces, resynchronisation and rebuild, the group's keys and Spread Control. Where the spec gives no layout for NS_DESC, or
no frame for a rollback, log entries 57 and 61 say what the model does.
-/
namespace Sys2Proof.Machine

/-! ### Member records (R459-R463) -/

/-- Set a member's record. -/
def State.putMember (s : State) (m : Nat) (x : AskMember) : State := s.modAsk (fun a => { a with members := Tab.put a.members m x })

/-- ASK_VIEW_STAT's counts. -/
def State.countAsk (s : State) : State :=
  let n := (s.ask.members.filter (fun kv => kv.1 ≠ s.me && (kv.2.state = 1 || kv.2.state = 2))).length
  let self := b2n (s.fld ASK_VIEW_STAT_STATE = 2)
  (s.setFld ASK_VIEW_STAT_ALIVE (n + self)).setFld ASK_VIEW_STAT_SUSPECTS s.ask.suspects.length

/-- Bits set in a bitmap of 16,384. -/
def popCount (n : Nat) : Nat := (List.range 16384).foldl (fun c i => if bit n i then c + 1 else c) 0

/-- Payload of an ACCUSE or DECLARE (Table 15.2). -/
def accusePayload (subject cause inc bitmap : Nat) : List Byte :=
  let blocks := (List.range 64).filter (fun b => bitmap / 2 ^ (256 * b) % 2 ^ 256 ≠ 0)
  leBytes 2 subject ++ leBytes 1 cause ++ List.replicate 5 0#8 ++ leBytes 4 inc ++ List.replicate 4 0#8
    ++ leBytes 8 (blocks.foldl (fun a b => a + 2 ^ b) 0) ++ blocks.flatMap (fun b => leBytes 32 (bitmap / 2 ^ (256 * b) % 2 ^ 256))

/-- The bitmap of an ACCUSE or DECLARE. -/
def accuseBitmap (pl : List Byte) : Nat :=
  let mask := leAt pl 16 8
  ((List.range 64).foldl (fun (a : Nat × Nat) b =>
    if bit mask b then (a.1 + leAt pl (24 + 32 * a.2) 32 * 2 ^ (256 * b), a.2 + 1) else a) (0, 0)).1

/-- Raise this device's incarnation by one, in ledger memory before any frame carries it (R460). -/
def State.reborn (s : State) : State := { s with nv := { s.nv with incarnation := s.nv.incarnation + 1 } }

/-- Flood JOIN under a new incarnation once a port is UP and an epoch is active (R463); without an active epoch ASK_KEY cause 4
is raised (R455). Rebuilds that the start interrupted are resumed (R472). -/
def State.askJoin (s : State) : State :=
  if !s.askOn ∨ s.portsUp.isEmpty ∨ s.fld ASK_VIEW_STAT_STATE = 2 ∨ s.ask.stopped then s
  else if s.activeKey.isNone then (s.setFld ASK_VIEW_STAT_STATE 1).raise 660 4 (w64 0)
  else
    let s := ((s.reborn.setFld ASK_VIEW_STAT_STATE 2).flood 5 []).countAsk
    s.ask.spreads.foldl (fun s kv =>
      match kv.2.rebuild with
      | some r => if s.isHome kv.2 then s.raise 661 5 (w64 kv.2.id ++ [r.2.1]) else s
      | none => s) s

/-- A suspect entry is freed. -/
def State.freeSuspect (s : State) (m : Nat) : State := s.modAsk (fun a => { a with suspects := Tab.del a.suspects m })

/-- Every position a member holds in a namespace this device is the home of becomes absent (R472). -/
def State.memberGone (s : State) (m : Nat) : State :=
  s.ask.spreads.foldl (fun s kv =>
    if s.isHome kv.2 then
      ((List.range kv.2.w).filter (fun p => kv.2.members[p]? = some m)).foldl (fun s p => s.markAbsent kv.1 p) s
    else s) s

/-- A member is declared FAILED, once (R462). -/
def State.failMember (s : State) (m : Nat) : State :=
  let x := s.member m
  let e := Tab.lookD s.ask.suspects m ⟨x.inc, 0, 1, 0, none⟩
  let s := (s.putMember m { x with state := 3 }).freeSuspect m
  let s := (s.raise 659 3 [m, x.inc]).flood 4 (accusePayload m e.cause x.inc e.accusers)
  (s.memberGone m).countAsk

/-- Whether nothing of a member's current incarnation has come for MISS × HB. -/
def State.silent (s : State) (m : Nat) : Bool :=
  (s.member m).heard + s.fld ASK_HB_CFG_MISS * s.fld ASK_HB_CFG_HB * 100000 ≤ s.time

/-- Bits join a suspect entry, opening it if there is room; the change is to be forwarded. -/
def State.orSuspect (s : State) (m cause bits_ via : Nat) : State :=
  let x := s.member m
  let add := fun (s : State) (e : AskSuspect) =>
    let n := e.accusers ||| bits_
    let s := if e.merged.isNone then s.stamp (.merge m) else s
    s.modAsk (fun a => { a with suspects := Tab.put a.suspects m { e with accusers := n, merged := some ((e.merged.getD []) ++ [via]) } })
  match Tab.look s.ask.suspects m with
  | some e => if e.accusers ||| bits_ = e.accusers then s else add s e
  | none =>
    if 2048 ≤ s.ask.suspects.length then s.raise 658 3 [m]
    else ((add s ⟨x.inc, 0, cause, s.time, none⟩).putMember m { x with state := 2 }).raise 658 1 [m]

/-- A device endorses an entry it has reason to (R462). -/
def State.endorse (s : State) (m via : Nat) : State :=
  match Tab.look s.ask.suspects m with
  | some e =>
    if !bit e.accusers s.me ∧ s.silent m ∧ s.fld ASK_HB_CFG_SEED ≤ popCount e.accusers then
      s.orSuspect m e.cause (2 ^ s.me) via
    else s
  | none => s

/-- An entry with more than N / 2 bits declares its subject FAILED. -/
def State.tally (s : State) (m : Nat) : State :=
  match Tab.look s.ask.suspects m with
  | some e => if s.groupN < 2 * popCount e.accusers then s.failMember m else s
  | none => s

/-- This device accuses a member (R458, R459); it does so again while the cause lasts. -/
def State.accuse (s : State) (m cause : Nat) : State :=
  let x := s.member m
  if m = s.me ∨ (x.state ≠ 1 ∧ x.state ≠ 2) then s
  else
    let s := s.orSuspect m cause (2 ^ s.me) s.me
    let s := if ((Tab.look s.ask.suspects m).bind AskSuspect.merged).isNone then s.stamp (.merge m) else s
    let s := s.modAsk (fun a => { a with suspects := Tab.upd a.suspects m (fun e => { e with merged := some (e.merged.getD [s.me]) }) })
    (s.tally m).countAsk

/-- Forward another member's membership frame to the neighbours, but not where it came from or to its sender (R459). -/
def State.forward (s : State) (type src srcPort inc via : Nat) (pl : List Byte) : State :=
  ((neighbours s.groupN s.me).filter (fun x => x ≠ via && x ≠ src)).foldl (fun s m =>
    s.portsUp.foldl (fun s p => s.sendOn p m type src srcPort inc pl) s) s

/-! ### Mending positions (R472) -/

/-- A member is ALIVE again: its absent positions are resynchronised (R472). -/
def State.resync (s : State) (m : Nat) : State :=
  s.ask.spreads.foldl (fun s kv =>
    let x := kv.2
    if !s.isHome x then s
    else
      (x.absent.filter (fun p => x.members[p]? = some m && (x.rebuild.map (fun r => r.1)) ≠ some p)).foldl (fun s p =>
        (s.raise 661 2 (w64 x.id ++ [m])).syncNext kv.1 p) s) s

/-- The descriptor of a spread namespace and its wrapped key, as NS_DESC carries them after the MSG_ID (log entry 57). -/
def State.descBody (s : State) (nsid : Nat) (x : Spread) (g : GroupKey) : List Byte :=
  let r := x.rebuild.getD (0xFF, 0, 0)
  let kek := kmac256 (s.frameKey g) (ascii "GLT-SPKW") x.nguid 32
  let key := ((s.nv.keyRec (nsid - 1)).map KeyRec.key).getD 0
  slice x.nguid 0 16 ++ leBytes 1 x.k ++ leBytes 1 x.m ++ leBytes 1 x.writeMin ++ leBytes 1 x.spares.length
    ++ slice (x.members.flatMap (fun m => leBytes 2 m)) 0 40 ++ slice (x.spares.flatMap (fun m => leBytes 2 m)) 0 8
    ++ leBytes 1 (b2n x.coarse) ++ leBytes 1 (b2n x.released) ++ leBytes 2 x.home ++ leBytes 8 x.size ++ leBytes 4 x.homeEpoch
    ++ leBytes 1 r.1 ++ leBytes 2 r.2.1 ++ leBytes 8 r.2.2 ++ slice (Config.keyWrap kek key) 0 72

/-- Every other member that holds a position of a namespace, or its rebuild's spare. -/
def State.spreadPeers (s : State) (x : Spread) : List Nat :=
  podsOf ((x.members ++ (x.rebuild.map (fun r => r.2.1)).toList).filter (fun m => m ≠ s.me))

/-- Send NS_DESC to every other member; a command waits for the acknowledgements. -/
def State.sendDesc (s : State) (nsid : Nat) (cmd : Option CmdRef) : State :=
  match s.spread nsid, s.activeKey with
  | some x, some g =>
    let l := s.spreadPeers x
    let s := match cmd with
      | some _ => s.modAsk (fun a => { a with descs := a.descs ++ [⟨nsid, cmd, l, []⟩] })
      | none => s
    let body := s.descBody nsid x g
    l.foldl (fun s m => s.askFor m 22 body [] (.desc nsid)) s
  | _, _ => s

/-- A mended chunk has been acknowledged: the rebuild or resynchronisation goes on. -/
def State.mended (s : State) (nsid pos stripe : Nat) : State :=
  match s.spread nsid with
  | none => s
  | some x =>
    match x.rebuild with
    | some (p, spare, next) =>
      if p = pos then
        if stripe ≠ next then s
        else if x.stripes ≤ next + 1 then
          let s := s.modSpread nsid (fun x => { x with
            rebuild := none, members := x.members.set pos spare, spares := x.spares.filter (fun m => m ≠ spare)
            absent := x.absent.filter (fun p => p ≠ pos), missed := Tab.del x.missed pos, whole := x.whole.filter (fun p => p ≠ pos) })
          (s.sendDesc nsid none).raise 661 6 (w64 x.id ++ [spare])
        else
          let s := s.modSpread nsid (fun x => { x with rebuild := some (p, spare, next + 1) })
          if (next + 1) % 1024 = 0 then s.sendDesc nsid none else s
      else s
    | none =>
      let s := s.modSpread nsid (fun x => { x with
        missed := Tab.upd x.missed pos (fun l => l.erase stripe)
        sync := if x.whole.contains pos ∧ stripe = Tab.lookD x.sync pos 0 then Tab.put x.sync pos (stripe + 1) else x.sync })
      s.syncNext nsid pos

/-- A rebuild of a position onto a member starts (R472). -/
def State.rebuildStart (s : State) (nsid pos spare : Nat) : State :=
  match s.spread nsid with
  | none => s
  | some x =>
    let s := s.modSpread nsid (fun x => { x with
      rebuild := some (pos, spare, 0), absent := if x.absent.contains pos then x.absent else x.absent ++ [pos] })
    (s.sendDesc nsid none).raise 661 4 (w64 x.id ++ [spare])

/-- REJOIN_TIMEOUT (R472): a member has not been ALIVE again within REJOIN_S, and the first ALIVE spare takes its position. -/
def State.rejoinTimeout (s : State) (nsid pos : Nat) : State :=
  match s.spread nsid with
  | none => s
  | some x =>
    if !s.isHome x ∨ !x.absent.contains pos ∨ x.rebuild.isSome ∨ (s.member (x.members.getD pos 0)).state = 1 then s
    else
      let s := s.notBefore (s.since (.absent nsid pos) + s.fld ASK_XFER_CFG_REJOIN_S * 1000000000)
      match x.spares.find? (fun m => m = s.me || (s.member m).state = 1) with
      | some m => s.rebuildStart nsid pos m
      | none => s

/-- REJOIN_TIMEOUT (R472). -/
def execRejoinTimeout (nsid pos : Nat) (s : State) : Res := (s.fresh.rejoinTimeout nsid pos).done s

/-- REBUILD_STRIPE (R472): the engine takes the next stripe. -/
def State.rebuildStripe (s : State) (nsid : Nat) : State :=
  match s.spread nsid with
  | none => s
  | some x =>
    match x.rebuild with
    | none => s
    | some (pos, _, next) =>
      if !s.isHome x ∨ s.mending nsid pos ∨ s.updating nsid next then s
      else s.fetchStart nsid next (x.idxAt next pos) (.mend pos)

/-- REBUILD_STRIPE (R472). -/
def execRebuildStripe (nsid : Nat) (s : State) : Res := (s.fresh.rebuildStripe nsid).done s

/-! ### Failures of data frames (R458, R468) -/

/-- A namespace's creation fails: its slot is empty again. -/
def State.nsUndo (s : State) (nsid : Nat) : State :=
  let s := s.modHost (fun h => { h with ns := Tab.del h.ns nsid, nsOps := h.nsOps.filter (fun o => o.nsid ≠ nsid) })
  let s := s.modNv (fun n => { n with keys := Tab.del n.keys (nsid - 1) })
  s.modAsk (fun a => { a with spreads := Tab.del a.spreads nsid, descs := a.descs.filter (fun v => v.nsid ≠ nsid) })

/-- The map unit code of an NS record: 0 FINE, 1 COARSE. -/
def State.nsRecord (s : State) (op nsid : Nat) (n : Ns) : State :=
  s.record 7 ((nsid - 1) * 2 ^ 40 + (if op = 1 then n.entries else 0)) (op + b2n n.coarse * 2 ^ 16)

/-- A namespace operation that waited for members has heard from all of them: a creation is recorded and completes with the
namespace's identifier, a format is recorded and completes. -/
def State.nsOpEnd (s : State) (nsid : Nat) (c : CmdRef) : State :=
  match s.host.nsOps.find? (fun o => o.nsid = nsid && o.cmd = c), s.nsOf nsid with
  | some o, some n =>
    let s := s.modHost (fun h => { h with nsOps := h.nsOps.erase o, ns := Tab.upd h.ns nsid (fun n => { n with status := 0 }) })
    if o.kind = 0 then (s.nsRecord 1 nsid n).endCmd c 0 0 false nsid else s.endCmd c 0 0 false 0
  | _, _ => s

/-- A member has answered an NS_DESC that a command waits for. -/
def State.descAnswer (s : State) (nsid m : Nat) : State :=
  match s.ask.descs.find? (fun v => v.nsid = nsid && v.waits.contains m) with
  | none => s
  | some v =>
    let w := v.waits.erase m
    let put := fun (s : State) (l : List AskVote) => s.modAsk (fun a => { a with descs := a.descs.erase v ++ l })
    if w.isEmpty then
      match v.cmd with
      | some c => (put s []).nsOpEnd nsid c
      | none => put s []
    else put s [{ v with waits := w, yes := v.yes ++ [m] }]

/-- A member refuses, or does not answer, an NS_DESC: a creation fails; a format goes on without it. -/
def State.descFail (s : State) (nsid m sct sc : Nat) (dnr : Bool) : State :=
  match s.host.nsOps.find? (fun o => o.nsid = nsid && o.kind = 0) with
  | some o => (s.nsUndo nsid).endCmd o.cmd sct sc dnr 0
  | none => s.descAnswer nsid m

/-- An adoption's votes are in, or a majority has accepted (R471): the new home confirms what its own chunks can and marks every
member that is not ALIVE absent, to be resynchronised in full. -/
def State.adoptTally (s : State) (v : AskVote) : State :=
  let drop := fun (s : State) => s.modAsk (fun a => { a with adopts := a.adopts.filter (fun x => x.nsid ≠ v.nsid) })
  match s.spread v.nsid with
  | none => drop s
  | some x =>
    let fin := fun (s : State) (sct sc : Nat) => match v.cmd with | some c => s.endCmd c sct sc false 0 | none => s
    if x.w < 2 * v.yes.length then
      let away := (List.range x.w).filter (fun p => match x.members[p]? with | some m => m ≠ s.me && (s.member m).state ≠ 1 | none => true)
      let s := (drop s).modSpread v.nsid (fun x => { x with
        home := s.me, homeEpoch := x.homeEpoch + 1, released := false, absent := away, whole := away, missed := [], sync := []
        version := x.chunkVer, prev := [] })
      let s := away.foldl (fun s p => s.stamp (.absent v.nsid p)) s
      let s := s.raise 661 7 (w64 x.id ++ [s.me])
      let s := match x.rebuild with | some r => s.raise 661 5 (w64 x.id ++ [r.2.1]) | none => s
      fin s 0 0
    else if v.waits.isEmpty then fin (drop s) 7 0x51
    else s.modAsk (fun a => { a with adopts := a.adopts.filter (fun y => y.nsid ≠ v.nsid) ++ [v] })

/-- A member has voted. -/
def State.adoptVote (s : State) (nsid m : Nat) (yes : Bool) : State :=
  match s.ask.adopts.find? (fun v => v.nsid = nsid && v.waits.contains m) with
  | none => s
  | some v => s.adoptTally { v with waits := v.waits.erase m, yes := if yes then v.yes ++ [m] else v.yes }

/-- An update is rolled back (R468): this device's chunks take their previous content, the command fails. Which frame tells the
other members the spec does not say (log entry 61). -/
def State.rollback (s : State) (c : CmdRef) (sct sc : Nat) (dnr : Bool) : State :=
  let ups := s.ask.updates.filter (fun kv => kv.2.cmd = c)
  let mine := fun (u : Nat) => ups.any (fun kv => kv.1 = u)
  let s := s.modAsk (fun a => { a with
    updates := a.updates.filter (fun kv => kv.2.cmd ≠ c)
    sends := a.sends.filter (fun x => match x.why with | .update u _ => !mine u | _ => true)
    puts := a.puts.filter (fun kv => match kv.2.from_ with | .update u _ => !mine u | _ => true) })
  let s := ups.foldl (fun s kv =>
    match s.spread kv.2.nsid with
    | none => s
    | some x =>
      let s := s.raise 661 9 (w64 x.id ++ [s.me])
      match Tab.look x.prev kv.2.stripe with
      | some (v, d, _) =>
        let s := s.modSpread kv.2.nsid (fun x => { x with
          prev := Tab.del x.prev kv.2.stripe, chunkVer := Tab.put x.chunkVer kv.2.stripe v })
        if d.isEmpty then s else s.commitUnit ⟨0x10000, 0, 0⟩ (laddrOf kv.2.nsid kv.2.stripe) d
      | none => s) s
  s.endCmd c sct sc dnr 0

/-- A position has not acknowledged an update and is absent: the update goes on without it, or is rolled back (R468). -/
def State.updateLost (s : State) (u pos : Nat) : State :=
  match Tab.look s.ask.updates u with
  | none => s
  | some x =>
    let s := s.markAbsent x.nsid pos
    let s := s.modSpread x.nsid (fun p =>
      let l := Tab.lookD p.missed pos []
      { p with missed := Tab.put p.missed pos (if l.contains x.stripe then l else l ++ [x.stripe]) })
    match s.spread x.nsid with
    | none => s
    | some p =>
      if p.present x.stripe < p.k + p.writeMin then s.rollback x.cmd 7 0x50 false else s.updateAck u pos

/-- A data frame has not been answered, or was refused: the operation ends as the spread rules state. -/
def State.sendLost (s : State) (x : AskSend) : State :=
  match x.why with
  | .update u pos => (s.updateLost u pos).scanGo
  | .fetch f idx =>
    let s := match Tab.look s.ask.fetches f with
      | some y => (match s.spread y.nsid with | some p => s.markAbsent y.nsid (p.pos y.stripe idx) | none => s)
      | none => s
    (s.fetchLost f idx).askProgress.scanGo
  | .desc n => s.descFail n x.dst 7 0x51 false
  | .adopt n => s.adoptVote n x.dst false
  | .mend _ _ _ => s

/-- RTO in nanoseconds. -/
def State.rto (s : State) : Nat := s.fld ASK_XFER_CFG_RTO * 10000

/-- ASK_RETRANSMIT (R458): a frame without an answer is sent again with a new SEQ, or given up and its destination accused. -/
def State.retransmit (s : State) (id : Nat) : State :=
  match s.ask.sends.find? (fun x => x.id = id) with
  | none => s
  | some x =>
    let s := s.notBefore (x.sentAt + s.rto)
    if x.tries < s.fld ASK_XFER_CFG_RETRIES then
      let s := s.modAsk (fun a => { a with
        sends := a.sends.map (fun y => if y.id = id then { y with tries := y.tries + 1, sentAt := s.time } else y) })
      s.sendVia (s.askBg x.why) x.dst x.type 1 x.fields x.chunk
    else ((s.modAsk (fun a => { a with sends := a.sends.filter (fun y => y.id ≠ id) })).accuse x.dst 2).sendLost x

/-- ASK_RETRANSMIT (R458). -/
def execAskRetransmit (id : Nat) (s : State) : Res := (s.fresh.retransmit id).done s

/-- ASK_MSGID_EXPIRY (R458). -/
def execAskMsgidExpiry (src id : Nat) (s : State) : Res :=
  (let s := s.fresh
   let s := match s.ask.msgs.find? (fun (m : AskMsg) => m.src = src && m.id = id) with
     | some m => s.notBefore (m.at_ + 2 * (s.fld ASK_XFER_CFG_RETRIES + 1) * s.rto)
     | none => s
   s.modAsk (fun a => { a with
    msgs := a.msgs.filter (fun m => !(m.src = src && m.id = id)), frags := a.frags.filter (fun m => !(m.src = src && m.id = id)) })).done s

/-! ### Receiving (R456, R457) -/

/-- Fields of a frame's header (Table 15.1). -/
structure AskHead where
  type : Nat
  flags : Nat
  src : Nat
  srcPort : Nat
  inc : Nat
  seq : Nat
  payload : List Byte
  deriving DecidableEq, Repr

/-- The header of a frame's bytes. -/
def headOf (b : List Byte) : AskHead :=
  let n := leAt b 4 2
  { type := leAt b 3 1, flags := leAt b 6 1, src := leAt b 12 2 % 2 ^ 14, srcPort := bits (leAt b 12 2) 14 14, inc := leAt b 20 4,
    seq := leAt b 24 8, payload := slice b 32 n }

/-- The frame types of Table 15.2. -/
def frameTypes : List Nat := [1, 2, 3, 4, 5, 6, 16, 17, 18, 19, 20, 21, 22, 23]

/-- Check 6: whether a SEQ is a replay. -/
def replayed (w : Option (Nat × Nat)) (seq : Nat) : Bool :=
  match w with
  | none => false
  | some (high, mask) => if high < seq then false else 64 ≤ high - seq || bit mask (high - seq)

/-- The window after a SEQ is accepted. -/
def windowWith (w : Option (Nat × Nat)) (seq : Nat) : Nat × Nat :=
  match w with
  | none => (seq, 1)
  | some (high, mask) =>
    if high < seq then (seq, (if 64 ≤ seq - high then 0 else mask * 2 ^ (seq - high) % 2 ^ 64) + 1)
    else (high, mask ||| 2 ^ (high - seq))

/-- The first check of Table 15.3 that a frame fails, 0 for none. -/
def State.frameCause (s : State) (f : AskFrame) (h : AskHead) : Nat :=
  let b := f.bytes
  let n := leAt b 4 2
  if !f.room then 7
  else if f.udpLen ≠ f.ipLen ∨ f.udpLen ≠ 56 + n ∨ 8192 < n ∨ !f.sumOk ∨ b.length ≠ 48 + n then 1
  else if f.ext ∨ slice b 0 2 ≠ [0x41#8, 0x4B#8] ∨ leAt b 2 1 ≠ 1 ∨ !frameTypes.contains h.type ∨ 32 ≤ h.flags ∨ leAt b 7 1 ≠ 0
      ∨ 2 ^ 15 ≤ leAt b 12 2 ∨ 2 ^ 14 ≤ leAt b 14 2 ∨ s.groupN ≤ h.src then 2
  else if f.udpPort ≠ s.fld ASK_NET_CFG_UDP_PORT ∨ slice b 8 4 ≠ slice s.groupId 0 4 ∨ leAt b 14 2 ≠ s.me then 3
  else
    match s.groupKeys.find? (fun g => g.epoch % 2 ^ 32 = leAt b 16 4) with
    | none => 4
    | some g =>
      if kmac256 (s.frameKey g) (ascii "AKF") (b.take (32 + n)) 16 ≠ slice b (32 + n) 16 then 5
      else if replayed (Tab.look s.ask.window (h.srcPort * 16384 + h.src)) h.seq then 6
      else 0

/-- A frame arrives: the checks, then what its type does. A frame whose type is not the row's is another row's. -/
def State.receive (s : State) (f : AskFrame) (type : Nat) (k : AskHead → State → State) : State :=
  let h := headOf f.bytes
  if !s.askOn ∨ !s.portsUp.contains f.port ∨ (frameTypes.contains h.type ∧ h.type ≠ type) then s
  else
    match s.frameCause f h with
    | 0 =>
      let key := h.srcPort * 16384 + h.src
      let s := s.modAsk (fun a => { a with window := Tab.put a.window key (windowWith (Tab.look a.window key) h.seq) })
      let m := s.member h.src
      let s := if f.via = h.src ∧ m.inc = h.inc ∧ m.state ≠ 0 then s.putMember h.src { m with heard := s.time } else s
      k h s
    | c => (s.countS ASK_DROP_COUNT ASK_DROP_OVF 1 (c - 1)).raise 657 c [f.port, h.src]

/-! ### Membership frames (Table 15.4) -/

/-- HEARTBEAT, ALIVE or JOIN of a member. -/
def State.hello (s : State) (f : AskFrame) (h : AskHead) : State :=
  if h.src = s.me then
    (s.modAsk (fun a => { a with stopped := true })).raise 659 5 [s.me, s.nv.incarnation]
  else
    let m := s.member h.src
    let alive : AskMember := ⟨1, h.inc, s.time⟩
    let on := fun (s : State) => (s.forward h.type h.src h.srcPort h.inc f.via []).countAsk
    let back := fun (s : State) => on (((s.putMember h.src alive).raise 659 1 [h.src, h.inc]).resync h.src)
    match m.state with
    | 0 => back s
    | 1 => if m.inc < h.inc then on (s.putMember h.src alive) else s
    | 2 =>
      if h.type ≠ 1 ∧ m.inc < h.inc then on ((((s.putMember h.src alive).freeSuspect h.src).raise 658 2 [h.src]).resync h.src) else s
    | _ => if h.type = 5 ∧ m.inc < h.inc then back s else s

/-- HEARTBEAT (R459, R460). -/
def execHeartbeat (f : AskFrame) (s : State) : Res := (s.fresh.receive f 1 (fun h s => s.hello f h)).done s

/-- ALIVE (R460). -/
def execAlive (f : AskFrame) (s : State) : Res := (s.fresh.receive f 3 (fun h s => s.hello f h)).done s

/-- JOIN (R460). -/
def execJoin (f : AskFrame) (s : State) : Res := (s.fresh.receive f 5 (fun h s => s.hello f h)).done s

/-- LEAVE (R460, R463). -/
def State.leave (s : State) (f : AskFrame) (h : AskHead) : State :=
  let m := s.member h.src
  if (m.state = 1 ∨ m.state = 2) ∧ m.inc = h.inc then
    let s := ((s.putMember h.src { m with state := 4 }).freeSuspect h.src).raise 659 2 [h.src, m.inc]
    ((s.memberGone h.src).forward 6 h.src h.srcPort h.inc f.via []).countAsk
  else s

/-- LEAVE (R463). -/
def execLeave (f : AskFrame) (s : State) : Res := (s.fresh.receive f 6 (fun h s => s.leave f h)).done s

/-- An ACCUSE or DECLARE (R461-R463). -/
def State.accused (s : State) (f : AskFrame) (h : AskHead) : State :=
  let pl := h.payload
  let subj := leAt pl 0 2
  let inc := leAt pl 8 4
  let map := accuseBitmap pl
  if subj = s.me then
    if inc ≠ s.nv.incarnation then s
    else if h.type = 2 then s.reborn.flood 3 []
    else ((s.raise 659 4 [s.me, inc]).reborn).flood 5 []
  else
    let m := s.member subj
    if inc ≠ m.inc ∨ (m.state ≠ 1 ∧ m.state ≠ 2) then s
    else
      let s := s.orSuspect subj (leAt pl 2 1) map f.via
      if h.type = 4 ∧ s.groupN < 2 * popCount map ∧ Tab.has s.ask.suspects subj then s.failMember subj
      else ((s.endorse subj f.via).tally subj).countAsk

/-- ACCUSE (R461). -/
def execAccuse (f : AskFrame) (s : State) : Res := (s.fresh.receive f 2 (fun h s => s.accused f h)).done s

/-- DECLARE (R462). -/
def execDeclare (f : AskFrame) (s : State) : Res := (s.fresh.receive f 4 (fun h s => s.accused f h)).done s

/-- HEARTBEAT_SEND (R459): a HEARTBEAT to every monitor on every UP port, once every HB; data frames that EGRESS_GBPS held go on. -/
def execHeartbeatSend (s : State) : Res :=
  let s := s.fresh
  (if s.fld ASK_VIEW_STAT_STATE = 2 then
    (((s.every .heartbeat (s.fld ASK_HB_CFG_HB * 100000)).floodTo (monitorsOf s.groupN s.me) 1 []).egressGo 0).egressGo 1
   else s).done s

/-- MEMBER_MISS_TIMEOUT (R459, R461, R462): a monitor accuses, again at every HB; any device with an entry may now endorse it. -/
def State.missed (s : State) (m : Nat) : State :=
  if (monitoredBy s.groupN s.me).contains m then (s.every (.accuse m) (s.fld ASK_HB_CFG_HB * 100000)).accuse m 1 else ((s.endorse m s.me).tally m).countAsk

/-- MEMBER_MISS_TIMEOUT (R459). -/
def execMemberMissTimeout (m : Nat) (s : State) : Res :=
  (let s := s.fresh
   if s.askOn then (s.notBefore ((s.member m).heard + s.fld ASK_HB_CFG_MISS * s.fld ASK_HB_CFG_HB * 100000)).missed m else s).done s

/-- GOSSIP_MERGE_FLUSH (R459): the merged changes of an entry go to the neighbours, not to a single one they came from. -/
def State.gossip (s : State) (m : Nat) : State :=
  match Tab.look s.ask.suspects m with
  | none => s
  | some e =>
    match e.merged with
    | none => s
    | some from_ =>
      let s := s.notBefore (s.since (.merge m) + s.fld ASK_HB_CFG_GOSSIP * 10000)
      let s := s.modAsk (fun a => { a with suspects := Tab.put a.suspects m { e with merged := none } })
      let one := match podsOf from_ with | [x] => some x | _ => none
      s.floodTo ((neighbours s.groupN s.me).filter (fun x => some x ≠ one)) 2 (accusePayload m e.cause e.inc e.accusers)

/-- GOSSIP_MERGE_FLUSH (R459). -/
def execGossipMergeFlush (m : Nat) (s : State) : Res := (s.fresh.gossip m).done s

/-! ### Data frames (R458, R465-R471) -/

/-- The namespace of a SPREAD_ID. -/
def State.spreadOf (s : State) (id : Nat) : Option (Nat × Spread) := s.ask.spreads.find? (fun kv => kv.2.id = id)

/-- A data frame that wants an answer: its fragments are gathered, a MSG_ID already acted on has its answer repeated, and a new
one is acted on once (R456, R458). -/
def State.request (s : State) (h : AskHead) (k : Nat → List Byte → List Byte → State → State) : State :=
  let pl := h.payload
  let id := leAt pl 0 8
  let nf := if h.type = 16 ∨ h.type = 17 ∨ h.type = 19 then fieldBytes h.type else pl.length
  match s.ask.msgs.find? (fun m => m.src = h.src && m.id = id && h.type ≠ 19) with
  | some m => (match m.answer with | some (t, f, c) => s.sendData h.src t 0 f c | none => s)
  | none =>
    let x := (s.ask.frags.find? (fun m => m.src = h.src && m.id = id)).getD ⟨h.src, h.type, id, pl.take nf, [], none⟩
    let frag := bits h.flags 3 1
    let x := { x with parts := Tab.put x.parts frag (pl.drop nf), last := if bit h.flags 4 then some frag else x.last }
    let others := fun (a : AskState) => a.frags.filter (fun m => !(m.src = h.src && m.id = id))
    match x.last with
    | none => s.modAsk (fun a => { a with frags := others a ++ [x] })
    | some n =>
      if (List.range (n + 1)).all (fun i => Tab.has x.parts i) then
        let s := s.modAsk (fun a => { a with
          frags := others a, msgs := if h.type = 19 then a.msgs else a.msgs ++ [⟨h.src, id, s.time, none⟩] })
        k id x.fields ((x.parts.take (n + 1)).flatMap (fun kv => kv.2)) s
      else s.modAsk (fun a => { a with frags := others a ++ [x] })

/-- CHUNK_WRITE or PARITY_DELTA at a member (R468). -/
def State.chunkUpdate (s : State) (h : AskHead) (delta : Bool) : State :=
  s.request h (fun id f chunk s =>
    match s.spreadOf (leAt f 8 8) with
    | none => s.askAck h.src id 3
    | some (nsid, x) =>
      if leAt f 32 4 < x.homeEpoch then s.askAck h.src id 1
      else s.putStart ⟨nsid, leAt f 16 8, leAt f 24 8, leAt f 36 4, delta, chunk, [], 0, .frame h.src id⟩)

/-- CHUNK_WRITE (R468). -/
def execChunkWrite (f : AskFrame) (s : State) : Res := (s.fresh.receive f 16 (fun h s => s.chunkUpdate h false)).done s

/-- PARITY_DELTA (R468). -/
def execParityDelta (f : AskFrame) (s : State) : Res := (s.fresh.receive f 17 (fun h s => s.chunkUpdate h true)).done s

/-- Answer with what flash holds of a chunk. -/
def State.localAnswer (s : State) (src id l v size : Nat) : State :=
  let e := s.mapEntry l
  if bit e 4 ∧ !bit e 2 then
    let (k, s) := s.askId
    (s.modAsk (fun a => { a with locals := Tab.put a.locals k (.answer src id v) })).startRead (.ask k) l e
  else s.askAnswer src id 19 (leBytes 8 id ++ leBytes 8 v) (List.replicate size 0#8)

/-- CHUNK_READ at a member (R469): the newest content, or the one kept from before an unconfirmed update past the version wanted. -/
def State.chunkRead (s : State) (h : AskHead) : State :=
  s.request h (fun id f _ s =>
    let stripe := leAt f 16 8
    let want := leAt f 24 8
    match s.spreadOf (leAt f 8 8) with
    | none => s.askAck h.src id 3
    | some (nsid, x) =>
      let v := Tab.lookD x.chunkVer stripe 0
      let give := fun (s : State) (v : Nat) (d : List Byte) => s.askAnswer h.src id 19 (leBytes 8 id ++ leBytes 8 v) d
      let l := laddrOf nsid stripe
      match Tab.look x.prev stripe with
      | some (pv, d, _) =>
        if want ≠ 0 ∧ pv ≤ want ∧ want < v then give s pv d
        else (match s.buffered l with
          | some d => give s v d
          | none => s.localAnswer h.src id l v x.unit)
      | none =>
        (match s.buffered l with
         | some d => give s v d
         | none => s.localAnswer h.src id l v x.unit))

/-- CHUNK_READ (R469). -/
def execChunkRead (f : AskFrame) (s : State) : Res := (s.fresh.receive f 18 (fun h s => s.chunkRead h)).done s

/-- An answered data frame is no longer waited for. -/
def State.answered (s : State) (src id : Nat) : Option AskSend × State :=
  match s.ask.sends.find? (fun x => x.id = id && x.dst = src) with
  | none => (none, s)
  | some x => (some x, s.modAsk (fun a => { a with sends := a.sends.filter (fun y => y.id ≠ id) }))

/-- CHUNK_DATA at the home (R469). -/
def State.chunkData (s : State) (h : AskHead) : State :=
  s.request h (fun id f chunk s =>
    match s.answered h.src id with
    | (some x, s) =>
      (match x.why with
       | .fetch g idx => ((s.fetchGot g idx (leAt f 8 8) chunk).askProgress).scanGo
       | _ => s)
    | (none, s) => s)

/-- CHUNK_DATA (R469). -/
def execChunkData (f : AskFrame) (s : State) : Res := (s.fresh.receive f 19 (fun h s => s.chunkData h)).done s

/-- ACK (R468, R471). -/
def State.ackCame (s : State) (h : AskHead) : State :=
  let result := leAt h.payload 8 1
  match s.answered h.src (leAt h.payload 0 8) with
  | (none, s) => s
  | (some x, s) =>
    match result, x.why with
    | 0, .update u pos => (s.updateAck u pos).scanGo
    | 0, .desc n => s.descAnswer n h.src
    | 0, .adopt n => s.adoptVote n h.src true
    | 0, .mend n pos st => s.mended n pos st
    | 0, .fetch _ _ => s
    | 1, .update u _ =>
      -- a later home has been accepted: this device no longer serves the namespace
      (match Tab.look s.ask.updates u with
       | some y => ((s.modSpread y.nsid (fun p => { p with released := true })).rollback y.cmd 7 0x51 false).scanGo
       | none => s)
    | 1, .adopt n => s.adoptVote n h.src false
    | 2, .update u _ =>
      (match Tab.look s.ask.updates u with
       | some y => (s.rollback y.cmd 0 0x81 true).scanGo
       | none => s)
    | 2, .desc n => s.descFail n h.src 1 0x15 true
    | _, _ => s.sendLost x

/-- ACK (R468). -/
def execAck (f : AskFrame) (s : State) : Res := (s.fresh.receive f 20 (fun h s => s.ackCame h)).done s

/-- CONFIRM (R468): previous versions of the updates named are discarded. -/
def State.confirmCame (s : State) (h : AskHead) : State :=
  let pl := h.payload
  match s.spreadOf (leAt pl 0 8) with
  | none => s
  | some (nsid, _) =>
    (List.range ((pl.length - 8) / 16)).foldl (fun s i =>
      let st := leAt pl (8 + 16 * i) 8
      s.modSpread nsid (fun x =>
        if Tab.lookD x.chunkVer st 0 = leAt pl (16 + 16 * i) 8 then { x with prev := Tab.del x.prev st } else x)) s

/-- CONFIRM (R468). -/
def execConfirm (f : AskFrame) (s : State) : Res := (s.fresh.receive f 21 (fun h s => s.confirmCame h)).done s

/-- Every chunk a slot holds is deallocated. -/
def State.dropChunks (s : State) (nsid : Nat) : State :=
  match s.nsOf nsid with
  | none => s
  | some n =>
    let s := s.modFtl (fun f => { f with wbuf := f.wbuf.map (fun w => if nsidOf w.laddr = nsid then { w with dead := true } else w) })
    let s := s.record 2 (laddrOf nsid 0) n.entries
    s.modSpread nsid (fun x => { x with version := [], chunkVer := [], prev := [], missed := [], unrec := [] })

/-- NS_DESC at a member (R465, R467): the descriptor and key are kept, in a free local slot for a namespace not yet known. -/
def State.descCame (s : State) (h : AskHead) : State :=
  s.request h (fun id b _ s =>
    let nguid := slice b 8 16
    let k := leAt b 24 1
    let m := leAt b 25 1
    let ids := fun (off n : Nat) => (List.range n).map (fun i => leAt b (off + 2 * i) 2)
    let rp := leAt b 92 1
    let x : Spread :=
      { nguid := nguid, k := k, m := m, writeMin := leAt b 26 1, members := ids 28 (k + m), spares := ids 68 (leAt b 27 1),
        coarse := leAt b 76 1 = 1, size := leAt b 80 8, homeEpoch := leAt b 88 4, home := leAt b 78 2, released := leAt b 77 1 = 1,
        version := [], chunkVer := [], prev := [], absent := [], missed := [], whole := [], sync := [],
        rebuild := if rp = 0xFF then none else some (rp, leAt b 93 2, leAt b 95 8), unrec := [] }
    let key := match s.groupKeys.head?, s.activeKey with
      | _, some g => Config.keyUnwrap (kmac256 (s.frameKey g) (ascii "GLT-SPKW") nguid 32) (slice b 103 72)
      | _, none => 0
    let keep := fun (s : State) (nsid : Nat) =>
      s.modNv (fun n => n.putKey (nsid - 1) key)
    match s.ask.spreads.find? (fun kv => kv.2.nguid = nguid) with
    | some (nsid, old) =>
      if x.homeEpoch < old.homeEpoch then s.askAck h.src id 1
      else
        let s := s.modSpread nsid (fun o => { x with
          version := o.version, chunkVer := o.chunkVer, prev := o.prev, absent := o.absent, missed := o.missed, whole := o.whole, sync := o.sync, unrec := o.unrec })
        let s := if ((s.nv.keyRec (nsid - 1)).map KeyRec.key) = some key then s else keep (s.dropChunks nsid) nsid
        s.askAck h.src id 0
    | none =>
      let nsid := (Tab.lowestFree (s.host.ns.map (fun kv => (kv.1 - 1, kv.2))) 8192).map (fun i => i + 1)
      match nsid with
      | none => s.askAck h.src id 2
      | some nsid =>
        let n : Ns :=
          { size := x.size / 4096, format := 3, dps := 0, extended := false, coarse := x.coarse, nguid := leNat nguid, shared := false,
            spread := true, hold := k, pods := [], status := 0, legacy := false }
        if !s.mapFits nsid n ∨ k = 0 then s.askAck h.src id 2
        else
          let s := s.modHost (fun y => { y with ns := Tab.put y.ns nsid n })
          let s := keep (s.modAsk (fun a => { a with spreads := Tab.put a.spreads nsid x })) nsid
          (s.nsRecord 1 nsid n).askAck h.src id 0)

/-- NS_DESC (R465). -/
def execNsDesc (f : AskFrame) (s : State) : Res := (s.fresh.receive f 22 (fun h s => s.descCame h)).done s

/-- ADOPT at a member (R471): the first proposal of an epoch value is accepted. -/
def State.adoptCame (s : State) (h : AskHead) : State :=
  s.request h (fun id b _ s =>
    match s.spreadOf (leAt b 8 8) with
    | none => s.askAck h.src id 3
    | some (nsid, x) =>
      let e := leAt b 16 4
      if e ≤ x.homeEpoch then s.askAck h.src id 1
      else (s.modSpread nsid (fun x => { x with homeEpoch := e, home := h.src, released := false })).askAck h.src id 0)

/-- ADOPT (R471). -/
def execAdopt (f : AskFrame) (s : State) : Res := (s.fresh.receive f 23 (fun h s => s.adoptCame h)).done s

/-! ### Ports and Neighbor Discovery (R450, R451) -/

/-- An Askif port trains (R451): type 1 CR4, 2 KR4, and its loss in units of 0.25 dB. -/
def State.askLinkUp (s : State) (p type loss : Nat) : State :=
  if Config.askPorts s.part ≤ p ∨ !s.domOn (33 + p) then s
  else
    let per := if type = 1 then s.fld ASK_PORT_CFG_LOSS_CU else s.fld ASK_PORT_CFG_LOSS_BP
    let len := if per = 0 then 255 else min 255 ((25 * loss - 200 + per) / (2 * per))
    let s := ((s.setFld ASK_PORT_STAT_STATE 2 p).setFld ASK_PORT_STAT_TYPE type p).setFld ASK_PORT_STAT_LOSS loss p
    let s := (s.setFld ASK_PORT_STAT_LEN_2CM len p).raise 656 1 [p]
    (if s.fld ASK_PORT_CFG_LEN_WARN < len then s.raise 656 3 [p] else s).askJoin

/-- ASK_LINK_UP (R451). -/
def execAskLinkUp (p type loss : Nat) (s : State) : Res := (s.fresh.askLinkUp p type loss).done s

/-- ASK_LINK_DOWN (R451). -/
def execAskLinkDown (p : Nat) (s : State) : Res :=
  let s := s.fresh
  (if s.portsUp.contains p then
    ((s.setFld ASK_PORT_STAT_STATE 0 p).countS ASK_PORT_STAT_DOWNS ASK_PORT_STAT_OVF 1 p).raise 656 2 [p] else s).done s

/-- NEIGHBOR_SOLICITATION (R450): a solicitation of the port's address is answered. -/
def execNeighborSolicitation (p target : Nat) (s : State) : Res :=
  let s := s.fresh
  (if s.portsUp.contains p ∧ target = s.askAddr p s.me then s.emit (.icmp p 136 (beBytes 16 target)) else s).done s

/-- NEIGHBOR_ADVERTISEMENT (R450): a member's link-layer address is known, and the frames that waited for it leave, membership frames first
(R452). -/
def State.resolve (s : State) (p m : Nat) (lladdr : List Byte) : State :=
  let k := p * 16384 + m
  let mine := s.ask.waiting.filter (fun w => w.port = p && w.dst = m)
  let s := s.modAsk (fun a => { a with
    resolved := Tab.put a.resolved k lladdr, waiting := a.waiting.filter (fun w => !(w.port = p && w.dst = m)) })
  if s.ask.stopped then s
  else (mine.filter (fun w => w.type ≤ 6) ++ mine.filter (fun w => 6 < w.type)).foldl (fun s w => s.enqueueOut w) s

/-- NEIGHBOR_ADVERTISEMENT (R450). -/
def execNeighborAdvertisement (p m : Nat) (lladdr : List Byte) (s : State) : Res :=
  (if s.fresh.portsUp.contains p then s.fresh.resolve p m lladdr else s.fresh).done s

/-- ECHO_REQUEST (R450): answered also while no epoch is active, but not once egress has stopped (R454). -/
def execEchoRequest (p : Nat) (body : List Byte) (s : State) : Res :=
  let s := s.fresh
  (if s.portsUp.contains p ∧ !s.ask.stopped then s.emit (.icmp p 129 body) else s).done s

/-! ### Askif Group Key (R455) -/

/-- Needs of a pod 0 command outside the safe configuration. -/
def pod0Cmd : AdminNeeds := ⟨true, true, false, false⟩

/-- Askif Group Key with an action. -/
def State.groupKeyCmd (s : State) (c : HostCmd) (act : Nat) : State :=
  s.admin c pod0Cmd (fun s =>
    let e := leAt c.data 32 8
    let held := s.groupKeys
    let put := fun (s : State) (l : List GroupKey) => s.modNv (fun n => { n with groupKeys := l })
    if Config.askPorts s.part = 0 then s.failV c 0x01 true 0
    else if c.xfer ≠ .ok then s.failXfer c c.xfer
    else if leAt c.data 40 1 ≠ act ∨ !allZero (slice c.data 41 7) then s.failG c 0x02
    else if act = 1 then
      if !s.sgn.mediaRoot then s.failG c 0x06
      else
        let g : GroupKey := ⟨e, slice c.data 0 32, false, s.nv.mediaEpoch⟩
        ((put s (held.filter GroupKey.active ++ [g])).raise 660 1 (w64 e)).succeed c
    else if act = 2 then
      if held.any (fun g => g.epoch = e) then
        (((put s (held.map (fun g => { g with active := g.epoch = e }))).raise 660 2 (w64 e)).askJoin).succeed c
      else s.failG c 0x02
    else
      match held.find? (fun g => g.epoch = e) with
      | some g => if g.active then s.failG c 0x02 else ((put s (held.erase g)).raise 660 3 (w64 e)).succeed c
      | none => s.succeed c)

/-- ASKIF_KEY_INSTALL_RX (R455). -/
def execAskifKeyInstallRx (c : HostCmd) (s : State) : Res := (s.fresh.groupKeyCmd c 1).done s

/-- ASKIF_KEY_ACTIVATE (R455). -/
def execAskifKeyActivate (c : HostCmd) (s : State) : Res := (s.fresh.groupKeyCmd c 2).done s

/-- ASKIF_KEY_REMOVE (R455). -/
def execAskifKeyRemove (c : HostCmd) (s : State) : Res := (s.fresh.groupKeyCmd c 3).done s

/-! ### Spread Control (R471) -/

/-- Spread Control with an action, on the spread namespace its NGUID names. What a namespace unknown here is answered with the
spec does not say: Invalid Field in Command (log entry 62). -/
def State.spreadCtl (s : State) (c : HostCmd) (act : Nat) (k : Nat → Spread → State → State) : State :=
  s.admin c ⟨true, true, true, true⟩ (fun s =>
    if Config.askPorts s.part = 0 then s.failV c 0x01 true 0
    else if c.xfer ≠ .ok then s.failXfer c c.xfer
    else if leAt c.data 16 1 ≠ act ∨ leAt c.data 17 1 ≠ 0 ∨ !allZero (slice c.data 22 10) ∨ (act ≠ 3 ∧ leAt c.data 18 4 ≠ 0) then
      s.failG c 0x02
    else
      match s.ask.spreads.find? (fun kv => kv.2.nguid = slice c.data 0 16) with
      | none => s.failG c 0x02
      | some (nsid, x) => k nsid x s)

/-- ADOPT (R471): allowed when the home has released the namespace, failed or left. -/
def State.adoptCmd (s : State) (c : HostCmd) : State :=
  s.spreadCtl c 1 (fun nsid x s =>
    let h := (s.member x.home).state
    if !x.members.contains s.me ∨ !(x.released ∨ h = 3 ∨ h = 4) then s.failG c 0x02
    else
      let peers := (s.spreadPeers x).filter (fun m => x.members.contains m)
      let v : AskVote := ⟨nsid, some (HostCmdRef c), peers, [s.me]⟩
      let s := peers.foldl (fun s m => s.askFor m 23 (leBytes 8 x.id ++ leBytes 4 (x.homeEpoch + 1)) [] (.adopt nsid)) s
      s.adoptTally v)

/-- SPREAD_ADOPT (R471). -/
def execSpreadAdopt (c : HostCmd) (s : State) : Res := (s.fresh.adoptCmd c).done s

/-- REPLACE (R471): a rebuild of the old member's position onto the new one starts at once. -/
def State.replaceCmd (s : State) (c : HostCmd) : State :=
  s.spreadCtl c 3 (fun nsid x s =>
    let old := leAt c.data 18 2
    let new := leAt c.data 20 2
    match x.members.findIdx? (fun m => m = old) with
    | none => s.failG c 0x02
    | some pos =>
      if !s.isHome x ∨ x.members.contains new then s.failG c 0x02
      else if new ≠ s.me ∧ (s.member new).state ≠ 1 then s.failV c 0x51 false 0
      else (s.rebuildStart nsid pos new).succeed c)

/-- SPREAD_REPLACE (R471). -/
def execSpreadReplace (c : HostCmd) (s : State) : Res := (s.fresh.replaceCmd c).done s

end Sys2Proof.Machine
end

