-- ==== Sys2Proof/Machine/Dram.lean ====
section
/-!
DEFINITION. The DRAM channels' own work and the memory protection unit's (chapter 12): training, initialisation, refresh, row
disturbance windows, retraining, self-refresh, scrubbing, bucket leaks and error injection.
-/
namespace Sys2Proof.Machine

/-- Change the memory state. -/
def State.modDram (s : State) (f : MemState → MemState) : State := { s with dram := f s.dram }

/-! ### Initial training (R368, R369, R383) -/

/-- GiB of a channel of a population of Table 12.1: ×8, two ranks, DENSITY code. None for one it does not list. -/
def channelGib (width8 ranks2 : Bool) (density : Nat) : Option Nat :=
  match width8, ranks2, density with
  | false, false, 0 => some 32
  | false, true, 0 => some 64
  | false, false, 1 => some 48
  | false, false, 2 => some 64
  | true, false, 0 => some 16
  | true, true, 0 => some 32
  | true, true, 1 => some 48
  | true, true, 2 => some 64
  | _, _, _ => none

/-- The population a channel's status shows. -/
def State.population (s : State) (c : Nat) : Nat × Nat × Nat :=
  (s.fld DRC_CH_STAT_WIDTH c, s.fld DRC_CH_STAT_RANKS2 c, s.fld DRC_CH_STAT_DENSITY c)

/-- The best settings a training found. -/
def State.margins (s : State) (c : Nat) (r : TrainReport) : State :=
  ((((s.setFld DRC_CH_MARGIN_RD_EYE_W r.rdEyeW c).setFld DRC_CH_MARGIN_WR_EYE_W r.wrEyeW c).setFld DRC_CH_MARGIN_RD_EYE_H r.rdEyeH c).setFld
    DRC_CH_MARGIN_WR_EYE_H r.wrEyeH c).modDram (fun d => { d with
      trainTemp := Tab.put d.trainTemp c r.tempC, trainAt := Tab.put d.trainAt c s.time })

/-- The present channels that are not fenced. -/
def State.goodChannels (s : State) : List Nat := (List.range (Config.drcCount s.part)).filter (fun c => !s.chanFenced c)

/-- Step 10 ends: populations that differ and an odd channel are fenced, and the address map is fixed (R368, R369). -/
def State.mapChannels (s : State) : State :=
  let p0 := s.population 0
  let s := s.goodChannels.foldl (fun s c => if s.population c = p0 then s else s.fenceChan c 4) s
  let s := if s.goodChannels.length % 2 = 1 then s.fenceChan (s.goodChannels.getLastD 0) 5 else s
  let l := s.goodChannels
  let gib := (channelGib (p0.1 = 1) (p0.2.1 = 1) p0.2.2).getD 0
  let cap := if s.flag CFG_MEM_INIT_DRAM_MODE then gib * 2 ^ 30 / 512 * 511 else gib * 2 ^ 30
  let s := l.foldl (fun s c => s.setFld DRC_CH_STAT_CAP_GIB (cap / 2 ^ 30) c) s
  let s := { (s.modDram (fun d => { d with mapped := l, chanCap := cap })) with dramEnd := l.length * cap }
  -- a fill that a reset interrupted restarts (Table 3.20)
  if s.boot.interrupted.contains 3 then
    { s with boot := { s.boot with interrupted := s.boot.interrupted.filter (fun c => c ≠ 3) } }.raise 8 3 [3]
  else s

/-- A channel's training ends at a rate, or fails at every one (R383). -/
def State.trainEnd (s : State) (c : Nat) (r : TrainReport) : State :=
  if Config.drcCount s.part ≤ c ∨ s.dram.trained.contains c ∨ !s.domOn (10 + c) then s
  else
    let s := ((s.setFld DRC_CH_STAT_WIDTH (b2n r.width8) c).setFld DRC_CH_STAT_RANKS2 (b2n r.ranks2) c).setFld DRC_CH_STAT_DENSITY r.density c
    let rate := min r.rate (s.fld DRC_CFG_RATE_MAX)
    let s := (s.setFld DRC_CH_STAT_RATE rate c).phaseTo 4
    let s :=
      if (channelGib r.width8 r.ranks2 r.density).isNone then s.fenceChan c 4
      else if rate = 0 then (s.raise 165 2 [c, 0]).fenceChan c 1
      else
        let s := ((s.setFld DRC_CH_STAT_STATE 2 c).modDram (fun d => { d with base := Tab.put d.base c 2 })).margins c r
        if rate < s.fld DRC_CFG_RATE_MAX then s.raise 165 1 [c, rate] else s
    let s := s.modDram (fun d => { d with trained := d.trained ++ [c] })
    if (List.range (Config.drcCount s.part)).all (fun c => s.dram.trained.contains c) then s.mapChannels else s

/-- DRAM_TRAINING_COMPLETE (R383). -/
def execDramTrainingComplete (c : Nat) (r : TrainReport) (s : State) : Res := (s.fresh.trainEnd c r).done s

/-! ### Initialisation (R81, R390-R392) -/

/-- Whether every unfenced channel and shared SRAM are initialised. -/
def State.initDone (s : State) : Bool :=
  s.flag CFG_MEM_INIT_SRAM_DONE && !s.dram.mapped.isEmpty && s.goodChannels.all (fun c => bit (s.fld CFG_MEM_INIT_DRAM_DONE) c)

/-- The lines of a channel have zeros and valid check bits, or their valid bits are clear (R390, R391). -/
def State.chanFilled (s : State) (u : Nat) : State :=
  let on := fun (a : Nat) => decide (a < 0xE000000000) && decide (s.chanOf a = u)
  let onCopy := fun (a : Nat) => decide (a < 0xE000000000) && s.mirrored a && decide (s.copyChan a = u)
  { s with mem := s.mem.filter (fun kv => !on kv.1) }.modDram (fun d => { d with
    valid := d.valid.filter (fun kv => !on (kv.1 * 64))
    bad := (Tab.mapVals (fun k (b : LineBad) => { b with
      prim := if on (k * 64) then 0 else b.prim, copy := if onCopy (k * 64) then 0 else b.copy }) d.bad).filter
        (fun kv => decide (kv.2.prim ≠ 0) || decide (kv.2.copy ≠ 0)) })

/-- Shared SRAM or a trained channel has been filled, or its bitmap cleared; unit 6 is shared SRAM. PROGRESS is 255 once every channel is done;
while one is not, how far the slowest has come is free, but never less than before. -/
def State.initUnit (s : State) (u : Nat) : State :=
  let s :=
    if u = 6 then
      let out := fun (a : Nat) => a < 0xE000000000 || 0xE008000000 ≤ a
      ({ s with mem := s.mem.filter (fun kv => out kv.1) }.modDram (fun d => { d with
        valid := d.valid.filter (fun kv => out (kv.1 * 64)), bad := d.bad.filter (fun kv => out (kv.1 * 64)) })).setFld CFG_MEM_INIT_SRAM_DONE 1
    else if u < Config.drcCount s.part ∧ s.dram.trained.contains u ∧ !s.chanFenced u then
      let s := s.chanFilled u
      let s := s.setFld CFG_MEM_INIT_DRAM_DONE (s.fld CFG_MEM_INIT_DRAM_DONE ||| 2 ^ u)
      if !s.dram.mapped.isEmpty ∧ s.goodChannels.all (fun c => bit (s.fld CFG_MEM_INIT_DRAM_DONE) c) then s.setFld CFG_MEM_INIT_PROGRESS 255
      else
        let p := s.fld CFG_MEM_INIT_PROGRESS
        let (v, s) := s.draw (max 1 (255 - p))
        s.setFld CFG_MEM_INIT_PROGRESS (p + v)
    else s
  if s.initDone then s.phaseTo 6 else s

/-- MEMORY_INIT_COMPLETE (R81). -/
def execMemoryInitComplete (u : Nat) (s : State) : Res := (s.fresh.initUnit u).done s

/-! ### Refresh and temperature (R380) -/

/-- Whether a channel serves requests: ACTIVE, RETRAINING or DEGRADED. -/
def State.serves (s : State) (c : Nat) : Bool :=
  let st := s.fld DRC_CH_STAT_STATE c
  c < Config.drcCount s.part && 2 ≤ st && st ≤ 4

/-- DRAM_REFRESH (R380): a same-bank refresh of a rank. -/
def execDramRefresh (c rank : Nat) (s : State) : Res :=
  (if s.serves c then
    s.fresh.modDram (fun d => { d with refreshes := Tab.put d.refreshes (2 * c + rank) (Tab.lookD d.refreshes (2 * c + rank) 0 + 1) })
   else s.fresh).done s

/-- A training burst on a channel: background work of at most 2 µs (R377, R384); how long it lasts is free. -/
def State.burst (s : State) (c : Nat) : State :=
  let (t, s) := s.draw 2001
  s.bgCharge 1 c t

/-- A full retraining begins (R384), its bursts spread over at most 50 ms: the channel serves with its previous settings. -/
def State.dramRetrain (s : State) (c : Nat) : State :=
  let st := s.fld DRC_CH_STAT_STATE c
  if st = 2 ∨ st = 4 then
    (((s.setFld DRC_CH_STAT_STATE 3 c).modDram (fun d => { d with base := Tab.put d.base c st })).stamp (.retry c)).burst c
  else s

/-- The place of a rank in the list of limits: hot ranks from 200 on, ranks above their operating limit from 100 on. -/
def rankKey (k c rank : Nat) : Nat := 100 * k + 2 * c + rank

/-- A reading of MR4 (R380, R384): whether it is above 85 °C, whether a component is above its limit, and its temperature. -/
def State.mr4 (s : State) (c rank : Nat) (hot above : Bool) (temp : Int) : State :=
  if !s.serves c then s
  else
    let has := fun (s : State) (k : Nat) => s.dram.limited.contains (rankKey k c rank)
    let set := fun (s : State) (k : Nat) (on : Bool) => s.modDram (fun d => { d with
      limited := if on then rankKey k c rank :: d.limited else d.limited.filter (fun x => x ≠ rankKey k c rank) })
    let s := if hot ∧ !has s 2 then (set s 2 true).raise 169 1 [c, rank] else if !hot then set s 2 false else s
    let s := s.setFld DRC_CH_STAT_HOT (b2n (s.dram.limited.contains (rankKey 2 c 0) || s.dram.limited.contains (rankKey 2 c 1))) c
    let s := if above ∧ !has s 1 then (set s 1 true).raise 169 2 [c, rank] else if !above then set s 1 false else s
    let last := Tab.lookD s.dram.trainTemp c temp
    if (s.fld DRC_TRAIN_CFG_RETRAIN_DT : Int) < temp - last ∨ (s.fld DRC_TRAIN_CFG_RETRAIN_DT : Int) < last - temp then s.dramRetrain c else s

/-- DRAM_MR4_POLL (R380): every 1 ms. -/
def execDramMr4Poll (c rank : Nat) (hot above : Bool) (temp : Int) (s : State) : Res :=
  ((s.fresh.every (.mr4 c rank) 1000000).mr4 c rank hot above temp).done s

/-! ### Row disturbance windows (R382) -/

/-- A refresh window of 32 ms ends: its aggressor records go, and a throttle lifts at the end of the second window. -/
def State.disturbEnd (s : State) (c : Nat) : State :=
  let s := s.modDram (fun d => { d with strikes := d.strikes.filter (fun kv => kv.1 / 256 ≠ c) })
  match Tab.lookD s.dram.throttleLeft c 0 with
  | 0 => s
  | 1 =>
    let m := s.fld DRC_CH_DIST_THROTTLED c
    let tag := (s.core (m - 0x10)).tag
    let s := s.modDram (fun d => { d with throttleLeft := Tab.del d.throttleLeft c })
    let s := (s.setFld DRC_CH_DIST_THR_ACTIVE 0 c).setFld DRC_CH_DIST_THROTTLED 0 c
    s.raiseWith 164 3 [c, m, if isCore m then tag else 0] (if isCore m then some tag else none) 0
  | n + 1 => s.modDram (fun d => { d with throttleLeft := Tab.put d.throttleLeft c n })

/-- DISTURB_WINDOW_END (R382). -/
def execDisturbWindowEnd (c : Nat) (s : State) : Res := ((s.fresh.every (.disturb c) 32000000).disturbEnd c).done s

/-! ### Retraining (R384, R385) -/

/-- A training burst or a retraining found no setting that passes: the channel keeps its last and is DEGRADED. -/
def State.degrade (s : State) (c : Nat) (was : Nat) : State :=
  let s := ((s.setFld DRC_CH_STAT_STATE 4 c).modDram (fun d => { d with base := Tab.put d.base c 4 })).stamp (.retry c)
  if was = 4 then s else s.raise 165 3 [c, s.fld DRC_CH_STAT_RATE c]

/-- A DQS oscillator read (R384): a drift above OSC_PS runs a burst, which passes or not. -/
def State.oscRead (s : State) (c drift : Nat) (ok : Bool) : State :=
  if !s.serves c ∨ drift ≤ s.fld DRC_TRAIN_CFG_OSC_PS then s
  else if ok then s.burst c
  else (s.burst c).degrade c (if s.fld DRC_CH_STAT_STATE c = 3 then Tab.lookD s.dram.base c 2 else s.fld DRC_CH_STAT_STATE c)

/-- DRAM_OSC_READ (R384), every OSC_MS: the drift of a rank in ps, and whether the burst it calls for passes step 6. -/
def execDramOscRead (c drift : Nat) (ok : Bool) (s : State) : Res :=
  (let s := s.fresh
   (s.every (.osc c) (s.fld DRC_TRAIN_CFG_OSC_MS * 1000000)).oscRead c drift ok).done s

/-- DRAM_RETRAIN_PERIODIC (R384): RETRAIN_H hours have passed since the last training. -/
def execDramRetrainPeriodic (c : Nat) (s : State) : Res :=
  (let s := s.fresh
   if s.fld DRC_CH_STAT_STATE c = 2 then
     (s.notBefore (Tab.lookD s.dram.trainAt c 0 + s.fld DRC_TRAIN_CFG_RETRAIN_H * 3600000000000)).dramRetrain c
   else s).done s

/-- A full retraining ends: with settings, or with none that passes (R385). -/
def State.retrainEnd (s : State) (c : Nat) (ok : Bool) (r : TrainReport) : State :=
  if s.fld DRC_CH_STAT_STATE c ≠ 3 then s
  else
    let was := Tab.lookD s.dram.base c 2
    if !ok then s.degrade c was
    else
      let s := ((s.setFld DRC_CH_STAT_STATE 2 c).modDram (fun d => { d with base := Tab.put d.base c 2 })).margins c r
      if was = 4 then s.raise 165 4 [c, s.fld DRC_CH_STAT_RATE c] else s

/-- DRAM_RETRAIN_DONE (R384, R385). -/
def execDramRetrainDone (c : Nat) (ok : Bool) (r : TrainReport) (s : State) : Res := (s.fresh.retrainEnd c ok r).done s

/-- DRAM_DEGRADED_RETRY (R385): ten minutes after its last try a DEGRADED channel tries again. -/
def execDramDegradedRetry (c : Nat) (s : State) : Res :=
  (let s := s.fresh
   if s.fld DRC_CH_STAT_STATE c = 4 then (s.notBefore (s.since (.retry c) + 600000000000)).dramRetrain c else s).done s

/-! ### Self-refresh (R388, R389) -/

/-- DRAM_SR_ENTRY (R388, R389): SR_IDLE has passed; a request present at the edge cancels the entry. -/
def execDramSrEntry (c : Nat) (present : Bool) (s : State) : Res :=
  (let st := s.fld DRC_CH_STAT_STATE c
   if s.flag DRC_SR_CFG_SR_EN ∧ !present ∧ (st = 2 ∨ st = 4) then
     let s := s.fresh
     (((s.notBefore (s.since (.request c) + s.fld DRC_SR_CFG_SR_IDLE * 1000)).setFld DRC_CH_STAT_STATE 6 c).modDram
       (fun d => { d with base := Tab.put d.base c st })).stamp (.selfRefresh c)
   else s.fresh).done s

/-- DRAM_DEEP_SR_ENTRY (R388): after DEEP_MS in SELF_REFRESH. -/
def execDramDeepSrEntry (c : Nat) (s : State) : Res :=
  (let s := s.fresh
   if s.flag DRC_SR_CFG_DEEP_EN ∧ s.fld DRC_CH_STAT_STATE c = 6 then
     (s.notBefore (s.since (.selfRefresh c) + s.fld DRC_SR_CFG_DEEP_MS * 1000000)).setFld DRC_CH_STAT_STATE 7 c
   else s).done s

/-- DRAM_SR_EXIT (R388): from the deep state the oscillators are read before the first request. -/
def execDramSrExit (c drift : Nat) (ok : Bool) (s : State) : Res :=
  (let deep := s.fld DRC_CH_STAT_STATE c = 7
   let t := s.fresh.wakeChan c
   if deep then t.oscRead c drift ok else t).done s

/-! ### Scrubbing (R393-R397) -/

/-- The DRAM address of a channel-local line. -/
def State.globalAddr (s : State) (i line : Nat) : Nat :=
  let n := s.dram.mapped.length
  (line * 64 / 4096 * n + i) * 4096 + line * 64 % 4096

/-- The primary line of a copy that lies in the upper half of a MIRRORED region (R374). -/
def State.primaryOf (s : State) (addr : Nat) : Nat :=
  match s.dregOf addr with
  | none => addr
  | some r =>
    let n := s.dram.mapped.length
    let o := addr - (s.fld MPR_DREG_BASE_BASE r * 2 + s.fld MPR_DREG_SIZE_SIZE r) * 0x100000
    let x := if o / 4096 % n < n / 2 then o + 4096 * (n / 2) else o - 4096 * (n / 2)
    s.fld MPR_DREG_BASE_BASE r * 0x200000 + x

/-- One copy in the upper half of a MIRRORED region is scrubbed. -/
def State.scrubCopy (s : State) (c addr : Nat) (pe : CellErr) : State :=
  let p := s.primaryOf addr
  let b := s.lineBad (p / 64)
  match readKind (s.dramCode addr) (s.flag DRC_CH_STAT_WIDTH c) b.copy pe with
  | 0 => s
  | 1 => (s.dramCorrected c addr).setBad (p / 64) { b with copy := 0 }
  | k =>
    ((s.dramUncorrectable c addr).setBad (p / 64) { b with copy := if b.copy = 0 then 3 else b.copy }).memUe (ueCause k true) 0x40 addr 0x58
      b.injected

/-- The scrubber reads a DRAM channel's next line, as background work that the channel grants (R36, R377); LIGHT regions and lines not valid are passed over, and a channel in self-refresh
is not woken. -/
def State.scrubDram (s : State) (c : Nat) (pe ce : CellErr) : State :=
  match s.dram.mapped.findIdx? (fun x => x = c) with
  | none => s
  | some i =>
    if !s.serves c ∨ !bit (s.fld CFG_MEM_INIT_DRAM_DONE) c then s
    else if (s.bgGrant 1 c true false).isNone then s.bgNote 1 c true
    else
      let s := s.bgCharge 1 c (s.lineNs c)
      let k := Tab.lookD s.dram.scrubAt c 0
      let a := s.globalAddr i k
      let s :=
        if s.dramCode a = 2 ∨ (s.swMode 0x40 ∧ !s.lineValid 0x40 a) then s
        else if s.upperHalf a then s.scrubCopy c a pe
        else (s.dramLine 0x58 a pe ce true).2
      if (k + 1) * 64 < s.dram.chanCap then s.modDram (fun d => { d with scrubAt := Tab.put d.scrubAt c (k + 1) })
      else s.modDram (fun d => { d with scrubAt := Tab.put d.scrubAt c 0, pass := Tab.put d.pass c (Tab.lookD d.pass c 0 + 1) })

/-- The scrubber reads the next line of shared SRAM or ledger memory. -/
def State.scrubFlat (s : State) (m t base size : Nat) (pe : CellErr) (mems : List Nat) : State :=
  let k := Tab.lookD s.dram.scrubAt m 0
  let a := base + 64 * k
  let s := if t = 0x41 ∧ (s.swMode 0x41 ∧ !s.lineValid 0x41 a) then s else (s.lineRead 0x58 t a pe .none true).2
  if (k + 1) * 64 < size then s.modDram (fun d => { d with scrubAt := Tab.put d.scrubAt m (k + 1) })
  else s.modDram (fun d => { d with
    scrubAt := Tab.put d.scrubAt m 0, pass := mems.foldl (fun t g => Tab.put t g (Tab.lookD t g 0 + 1)) d.pass })

/-- The scrubber reads a line of the caches and core-local memories of cob k (bucket 23 + k): which memory code and address an
uncorrectable one names the spec does not say (log entry 79). -/
def State.scrubCache (s : State) (k : Nat) (pe : CellErr) : State :=
  if Config.cobCount s.part ≤ k ∨ !s.domOn (2 + k) then s
  else
    match caught 0 false pe with
    | 0 => s
    | 1 => (s.countS MPR_SRAM_STAT_CE MPR_SRAM_STAT_OVF 1).bucketUp (23 + k)
    | _ =>
      let s := (s.countS MPR_SRAM_STAT_UE MPR_SRAM_STAT_OVF 1).regionFailed (23 + k)
      let (t, s) := s.draw 256
      let (a, s) := s.draw (2 ^ 48)
      s.memUe 2 t a 0x58 false

/-- One step of the scrubber in a memory: DRAM channels 0 to 5, 6 ledger memory, 7 shared SRAM, 8 + k the caches of cob k. -/
def State.scrubStep (s : State) (m : Nat) (pe ce : CellErr) : State :=
  if m < 6 then s.scrubDram m pe ce
  else if m = 6 then s.scrubFlat 6 0x42 0xE800000000 0x4000000 pe [6]
  else if m = 7 then
    if s.flag CFG_MEM_INIT_SRAM_DONE then s.scrubFlat 7 0x41 0xE000000000 0x8000000 pe ((List.range 128).map (fun g => 16 + g)) else s
  else s.scrubCache (m - 8) pe

/-- The time between two lines of a memory at the pass periods of Table 12.7, in ns. -/
def State.scrubGap (s : State) (m : Nat) : Nat :=
  if m < 6 then s.fld MPR_SCRUB_CFG_SCRUB_H * 3600000000000 / max 1 (s.dram.chanCap / 64)
  else if m = 6 then 86400000000000 / 2 ^ 20
  else if m = 7 then 10000000000 / 2 ^ 21
  else 0

/-- SCRUB_STEP (R393): the next line of a memory is due at the rate of its pass. -/
def execScrubStep (m : Nat) (pe ce : CellErr) (s : State) : Res :=
  (let s := s.fresh
   (s.every (.scrub m) (s.scrubGap m)).scrubStep m pe ce).done s

/-- A bucket falls by 1; below half of THRESH its region is GOOD again (R397). -/
def State.leakBucket (s : State) (b : Nat) : State :=
  let v := s.fld MPR_BKT_STAT_BUCKET b - 1
  let s := s.setFld MPR_BKT_STAT_BUCKET v b
  if 2 * v < s.fld MPR_SCRUB_CFG_THRESH then
    let s := s.modDram (fun d => { d with raised := d.raised.filter (fun x => x ≠ b) })
    if s.fld MPR_BKT_STAT_HEALTH b = 2 then s.setFld MPR_BKT_STAT_HEALTH 3 b else s
  else s

/-- BUCKET_LEAK (R386, R397), every LEAK_MS: a leak interval ends for every bucket and fence bucket. -/
def execBucketLeak (s : State) : Res :=
  (let s := s.fresh
   let t := (List.range 31).foldl (fun s b => s.leakBucket b) (s.every .leak (s.fld MPR_SCRUB_CFG_LEAK_MS * 1000000))
   (List.range (Config.drcCount s.part)).foldl (fun s c => s.setFld DRC_CH_FBKT_FBKT (s.fld DRC_CH_FBKT_FBKT c - 1) c) t).done s

/-! ### Error injection (R400) -/

/-- Whether an injection may name a line with a KIND, COPY and TARGET: DRAM or shared SRAM, no upper half, KIND 2 on STRONG alone. -/
def State.injectable (s : State) (w a : Nat) : Bool :=
  let k := bits w 30 28
  let t := targetOf a
  1 ≤ k && k ≤ 4 && bits w 27 26 ≠ 3 && (regionOf a).isSome && (if bit w 25 then t = 0x41 else t = 0x40)
    && !(t = 0x40 && s.upperHalf a) && (k ≠ 2 || (t = 0x40 && s.dramCode a = 1))

/-- A write of MPR_INJ_CTRL: it arms an error, applied at once with IMMEDIATE, or is discarded. -/
def State.injWrite (s : State) (m w : Nat) : State :=
  let a := s.pair MPR_INJ_ADDR_LO MPR_INJ_ADDR_HI / 64 * 64
  let put := fun (s : State) => s.putReg MPR_INJ_CTRL (w / 2 ^ 24 * 2 ^ 24 % 2 ^ 32)
  if !bit w 31 then put s
  else if !bit (s.fld SGN_TOKEN_LATCH_GRANT) 2 ∨ (!isMgmt m ∧ m ≠ 0xFE) ∨ !s.injectable w a then s.raise 168 2 (w64 a ++ [bits w 30 28])
  else
    let s := put s
    if bit w 24 then s.injectOn (a / 64) else s

/-- MPR_INJ_CTRL_WRITE (R400). -/
def execMprInjCtrlWrite (r : Req) (w : Nat) (s : State) : Res :=
  (s.fresh.atRegW r (MPR_INJ_CTRL.key 0 0) (fun s => s.injWrite r.master w)).done s

end Sys2Proof.Machine
end

