-- ==== Sys2Proof/Machine/Tasks.lean ====
section
/-!
DEFINITION. The task scheduler's commands (chapter 9).
-/
namespace Sys2Proof.Machine

/-- TSK_SUBMIT (R283): the write of TSK_SUBMIT_HI. -/
def execTskSubmit (r : Req) (addr : Nat) (s : State) : Res :=
  (s.fresh.atRegW r (TSK_SUBMIT_HI.key 0 0) (fun s => s.submitAt r addr)).done s

/-- TSK_FLAG_SET (R284). -/
def execTskFlagSet (r : Req) (w : Nat) (s : State) : Res :=
  (s.fresh.atRegW r (TSK_FLAG_SET.key 0 0) (fun s => s.flagSet r w)).done s

/-- TSK_CANCEL (R295). -/
def execTskCancel (r : Req) (w : Nat) (s : State) : Res :=
  (s.fresh.atRegW r (TSK_CANCEL.key 0 0) (fun s => s.cancelWrite r w)).done s

/-- TSK_CORE_TAKE (R290): core k's own read launches the task of its slot 0. -/
def execTskCoreTake (r : Req) (k : Nat) (s : State) : Res :=
  (s.fresh.atRegR r (TSK_CORE_TAKE.key (k / 8) (k % 8)) (fun s => s.launch k)).done s

/-- The end a core reports (R291, Table 9.22). -/
def State.coreEnd (s : State) (k w : Nat) : State :=
  let c := s.core k
  match c.running with
  | none => s
  | some i =>
    let cancelled := ((s.task i).map (fun t => bit t.flags 31)).getD false
    let code := w % 65536
    match bits w 31 30 with
    | 0 => s.endRunning k (if code = 0 then 0x01 else 0x10) code
    | 1 => s.endRunning k 0x13 code
    | 2 => if cancelled then s.endRunning k 0x12 0 else s.endRunning k 0x01 0
    | _ => s

/-- TSK_CORE_END (R291). -/
def execTskCoreEnd (r : Req) (k w : Nat) (s : State) : Res :=
  (s.fresh.atRegW r (TSK_CORE_END.key (k / 8) (k % 8)) (fun s => s.coreEnd k w)).done s

/-- The time limit of a task in nanoseconds (Table 9.4). -/
def State.limitOf (s : State) (t : Task) : Nat := if t.timeLimit = 0 then s.fld TSK_CTRL_DEF_LIMIT * 1000000 else t.timeLimit * 1000

/-- TASK_TIME_LIMIT (R291): the core takes the monitor's interrupt, and the monitor ends the running task as TIMEOUT. -/
def execTaskTimeLimit (i : Nat) (s : State) : Res :=
  (match s.fresh.task i with
   | some t => if t.st = TaskSt.running then (s.fresh.notBefore (t.launchedAt + s.limitOf t)).forceEnd i 2 else s.fresh
   | none => s.fresh).done s

/-- CANCEL_GRACE_EXPIRY (R295): a cancelled task that has not ended is ended as CANCELLED. -/
def execCancelGraceExpiry (i : Nat) (s : State) : Res :=
  (match s.fresh.task i with
   | some t =>
     if t.st = TaskSt.running ∧ t.cancelled then (s.fresh.notBefore (t.cancelAt + s.fld TSK_CTRL_CANCEL_GRACE * 1000)).forceEnd i 3
     else s.fresh
   | none => s.fresh).done s

/-- AFF_WINDOW_EXPIRY (R288): a ready task's preference window is over. -/
def execAffWindowExpiry (i : Nat) (s : State) : Res :=
  (match s.fresh.task i with
   | some t =>
     if t.st = TaskSt.ready then
       ((s.fresh.notBefore (t.readyAt + t.affWindow * 1000)).putTask i { t with windowOver := true }).dispatch
     else s.fresh
   | none => s.fresh).done s

/-- A task's state is latched for the writing master. -/
def State.taskQuery (s : State) (r : Req) (i : Nat) : State :=
  s.modTsk (fun k => { k with query := Tab.put k.query r.master (s.queryWord r (i % 65536)) })

/-- TSK_QUERY (Table 9.17). -/
def execTskQuery (r : Req) (i : Nat) (s : State) : Res :=
  (s.fresh.atRegW r (TSK_QUERY.key 0 0) (fun s => s.taskQuery r i)).done s

/-- Latch the result of a program command: 1 done, 2 refused (TSK_PROG_RES). -/
def State.progResult (s : State) (r : Req) (v : Nat) : State :=
  s.modTsk (fun k => { k with progRes := Tab.put k.progRes r.master v })

/-- Digest of a program image (R297): the 64-byte SHAKE256 output of what its signature covers. -/
def imageDigest (img : List Byte) : List Byte := shake512 (img.take (img.length - 1280))

/-- A handle becomes LOADED from the image at an address (R298, step 7): whether it was. -/
def State.loadHandle (s : State) (r : Req) (pod h addr : Nat) : Bool × State :=
  if Tab.has s.tsk.progs h then (false, s)
  else
    match s.load r addr 1864 with
    | (.ok, hd, s) =>
      if !progHeaderOk hd then (false, s)
      else
        match s.load r addr (leAt hd 8 4) with
        | (.ok, img, s) =>
          let waived := leAt hd 5 1 = 0xFF
          let g : Prog := { pod := pod, addr := addr, scratch := leAt hd 24 4, unloading := false, waived := waived, digest := imageDigest img }
          (true, (s.modTsk (fun k => { k with progs := Tab.put k.progs h g })).raisePod 499 (if waived then 3 else 1) [pod, h] pod)
        | (_, _, s) => (false, s)
    | (_, _, s) => (false, s)

/-- A write of TSK_PROG_CMD with LOAD. -/
def State.progLoad (s : State) (r : Req) (w : Nat) : State :=
  let (ok, s) := s.loadHandle r (bits w 27 16) (w % 1024) s.tsk.progAddr
  s.progResult r (if ok then 1 else 2)

/-- A write of TSK_PROG_CMD with UNLOAD. -/
def State.progUnload (s : State) (r : Req) (w : Nat) : State :=
  if Tab.has s.tsk.progs (w % 1024) then (s.unloadHandle (w % 1024) false).progResult r 1 else s.progResult r 2

/-- TSK_PROG_LOAD (R298). -/
def execTskProgLoad (r : Req) (w : Nat) (s : State) : Res :=
  (s.fresh.atRegW r (TSK_PROG_CMD.key 0 0) (fun s => s.progLoad r w)).done s

/-- TSK_PROG_UNLOAD (R299). -/
def execTskProgUnload (r : Req) (w : Nat) (s : State) : Res :=
  (s.fresh.atRegW r (TSK_PROG_CMD.key 0 0) (fun s => s.progUnload r w)).done s

/-- A core goes in or out of service (R292). -/
def State.online (s : State) (k : Nat) (on : Bool) : State :=
  let s := s.setFld TSK_CORE_CTRL_ONLINE (b2n on) (k / 8) (k % 8)
  (if on then s else s.unslot k).dispatch

/-- TSK_CORE_ONLINE (R292, Table 9.24). -/
def execTskCoreOnline (r : Req) (k w : Nat) (s : State) : Res :=
  (s.fresh.atRegW r (TSK_CORE_CTRL.key (k / 8) (k % 8)) (fun s => s.online k (bit w 31))).done s

end Sys2Proof.Machine
end

