-- ==== Sys2Proof/Machine/Image.lean ====
section
/-!
DEFINITION. The checks on a Dyren image (Table 3.9) and on a management firmware slot (Table 4.14, R113), over their bytes.
-/
namespace Sys2Proof.Machine

/-! ### Firmware slots (R112, R113) -/

/-- What a firmware slot's bytes say once its format is right: signer, length, SVN. -/
structure FwInfo where
  cls : Nat
  slot : Nat
  len : Nat
  svn : Nat
  digest : List Byte
  deriving DecidableEq, Repr

/-- Format fields and lengths of Table 4.14, and the slot's digest. -/
def fwInfo (b : List Byte) : Option FwInfo :=
  let len := leAt b 8 4
  if slice b 0 4 = ascii "GFWS" ∧ leAt b 4 1 = 1 ∧ leAt b 5 1 ≤ 1 ∧ leAt b 6 1 ≤ 3 ∧ leAt b 7 1 = 0 ∧ len % 8 = 0 ∧ 3144 ≤ len
      ∧ len ≤ 12582912 ∧ allZero (slice b 24 40) ∧ allZero (slice b 1857 7) then
    some ⟨leAt b 5 1, leAt b 6 1, len, leAt b 12 4, shake512 (slice b 0 (len - 1280))⟩
  else none

/-- Whether VERIFY_SLOT of a slot's digest returns VALID (R96, R101). -/
def OtpState.fwSigned (o : OtpState) (b : List Byte) (f : FwInfo) : Bool :=
  let key := slice b 64 1793
  Config.falconVerify key f.digest (slice b (f.len - 1280) 1280) && o.signerOk f.cls f.slot key

/-- A VERIFY_SLOT of a slot runs: the verification latch is replaced (R101). -/
def State.fwVerify (s : State) (b : List Byte) (f : FwInfo) : Bool × State :=
  let ok := s.otp.fwSigned b f
  (ok, s.modSgn (fun g => { g with latch := if ok then some (f.digest, f.cls, f.slot) else none }))

/-- The bytes of firmware slot k in the NOR, as far as its length says; its first 64 when they name no slot. -/
def State.norSlot (s : State) (k : Nat) : List Byte :=
  let off := 0x1000000 + (k - 1) * 0xC00000
  let h := s.norRd off 64
  let len := leAt h 8 4
  if slice h 0 4 = ascii "GFWS" ∧ len ≤ 12582912 then s.norRd off len else h

/-! ### Dyren images (R69-R73) -/

/-- A section: TYPE, where its value starts, LENGTH. -/
abbrev Section := Nat × Nat × Nat

/-- Walk count sections from an offset: they must end exactly at the end. -/
def walkSections (b : List Byte) (stop : Nat) : Nat → Nat → Option (List Section)
  | 0, off => if off = stop then some [] else none
  | n + 1, off =>
    if stop < off + 6 then none
    else
      let len := leAt b (off + 2) 4
      let next := roundUp (off + 6 + len) 8
      if stop < next then none
      else (walkSections b stop n next).map (fun l => (leAt b off 2, off + 6, len) :: l)

/-- TOTAL_LEN, SECTION_COUNT, FLAGS and SEQUENCE of a header. -/
def imgLen (b : List Byte) : Nat := leAt b 8 4

/-- SEQUENCE of a header. -/
def imgSeq (b : List Byte) : Nat := leAt b 16 8

/-- The sections of an image whose length is right. -/
def imgSections (b : List Byte) : Option (List Section) :=
  let len := imgLen b
  if 3120 ≤ len ∧ len ≤ 8388608 ∧ len % 8 = 0 then walkSections b (len - 1280) (leAt b 12 2) 1840 else none

/-- The padding that follows each section's value. -/
def padsZero (b : List Byte) (l : List Section) : Bool :=
  l.all (fun x => let e := x.2.1 + x.2.2; allZero (slice b e (roundUp e 8 - e)))

/-- The signer check of an image (check 5): a vendor signer only while no owner slot is usable. -/
def OtpState.imgSigner (o : OtpState) (b : List Byte) : Bool :=
  let cls := leAt b 24 1
  cls ≤ 1 && o.signerOk cls (leAt b 25 1) (slice b 32 1793)
    && !(cls = 0 && (List.range 4).any (fun k => o.usable 1 k))

/-- Checks 2 to 8 of Table 3.9 in order: the first that fails. -/
def State.imgCause (s : State) (b : List Byte) : Option Nat :=
  if slice b 0 4 ≠ ascii "DYRN" then some 2
  else if leAt b 4 1 ≠ 1 ∨ leAt b 6 2 ≠ 32 ∨ 1 < leAt b 14 2 ∨ !allZero (slice b 26 6) ∨ leAt b 1832 2 ≠ 1793
      ∨ !allZero (slice b 1834 6) then some 3
  else
    match imgSections b with
    | none => some 4
    | some l =>
      if !s.otp.imgSigner b then some 5
      else if !allZero (slice b 1825 7) ∨ !padsZero b l then some 6
      else if !Config.falconVerify (slice b 32 1793) (shake512 (slice b 0 (imgLen b - 1280))) (slice b (imgLen b - 1280) 1280) then some 7
      else if imgSeq b < s.nv.seqFloor then some 8
      else none

end Sys2Proof.Machine
end

