-- ==== Sys2Proof/Machine/NsCmds.lean ====
section
/-!
DEFINITION. Device self-tests (R342, R343), namespaces: creation, deletion, attachment and format (R333-R335), release of a
spread namespace (R471), and sanitize (R216, R217). Fields of host data and command dwords are those of NVMe 2.1.
-/
namespace Sys2Proof.Machine

/-! ### Device self-test (R342, R343) -/

/-- Needs of a pod 0 command that reads or writes media. -/
def pod0Media : AdminNeeds := ⟨true, true, true, true⟩

/-- The running self-test ends with a result code and the first failing segment: its entry heads the log of 20. -/
def State.selfTestEnd (s : State) (code seg : Nat) : State :=
  match s.host.selfTest.run with
  | none => s
  | some stc =>
    let s := s.modHost (fun h => { h with selfTest := { run := none, log := ((stc, code, seg) :: h.selfTest.log).take 20 } })
    s.raise 564 (if code = 0 then 2 else if code = 7 then 3 else 4) [code, seg]

/-- A self-test starts, 1 short or 2 extended; only one runs at a time. -/
def State.selfTestStart (s : State) (c : HostCmd) (stc : Nat) : State :=
  s.admin c ⟨true, true, true, true⟩ (fun s =>
    if s.host.selfTest.run.isSome then s.failS c 0x1D
    else ((s.modHost (fun h => { h with selfTest := { h.selfTest with run := some stc } })).raise 564 1 [0, 0]).succeed c)

/-- DEVICE_SELF_TEST_SHORT (R342). -/
def execDeviceSelfTestShort (c : HostCmd) (s : State) : Res := (s.fresh.selfTestStart c 1).done s

/-- DEVICE_SELF_TEST_EXTENDED (R342). -/
def execDeviceSelfTestExtended (c : HostCmd) (s : State) : Res := (s.fresh.selfTestStart c 2).done s

/-- DEVICE_SELF_TEST_ABORT (R343): the running test, if any, ends with result 0x1. -/
def execDeviceSelfTestAbort (c : HostCmd) (s : State) : Res :=
  (s.fresh.admin c pod0Cmd (fun s => (s.selfTestEnd 1 0).succeed c)).done s

/-- SELF_TEST_END (R343): every segment has passed, or one has failed (its number; 0 for none). -/
def execSelfTestEnd (seg : Nat) (s : State) : Res := (s.fresh.selfTestEnd (if seg = 0 then 0 else 7) seg).done s

/-! ### Quiescing a namespace (R333) -/

/-- Whether a started command of a namespace still runs. -/
def State.nsBusy (s : State) (nsid : Nat) : Bool :=
  s.host.out.any (fun o =>
    match o.io with
    | some (_, h) => h.nsid = nsid && o.stage ≠ .held && o.stage ≠ .fetched && o.stage ≠ .lockWait
    | none =>
      o.stage = .waitDurable && s.ftl.wbuf.any (fun w =>
        w.cmd = ⟨o.pod, o.qid, o.cid⟩ && nsidOf w.laddr = nsid && w.step < 4))

/-- Steps 2 and 4 of R333: commands fetched and not started fail with a generic status, and scan jobs end ABORTED. -/
def State.nsQuiet (s : State) (nsid sc : Nat) : State :=
  let idle := s.host.out.filter (fun o =>
    match o.io with
    | some (_, h) => h.nsid = nsid && (o.stage = .held || o.stage = .fetched || o.stage = .lockWait)
    | none => false)
  let s := idle.foldl (fun s o => s.endCmd ⟨o.pod, o.qid, o.cid⟩ 0 sc true 0) s
  s.abortScans (fun j => j.nsid = nsid) 1

/-- Every unit of a namespace is deallocated, metadata included. -/
def State.nsDealloc (s : State) (nsid : Nat) (n : Ns) : State :=
  let s := s.modFtl (fun f => { f with wbuf := f.wbuf.map (fun w => if nsidOf w.laddr = nsid then { w with dead := true } else w) })
  let s := s.record 2 (laddrOf nsid 0) n.units
  if n.mdGroup = 0 then s else s.record 2 (mdLaddr nsid 0) (ceilDiv n.units n.mdGroup)

/-- Change a namespace. -/
def State.modNs (s : State) (nsid : Nat) (f : Ns → Ns) : State := s.modHost (fun h => { h with ns := Tab.upd h.ns nsid f })

/-- An operation takes its place in the list, in place of what it was. -/
def State.putNsOp (s : State) (o : NsOp) : State :=
  s.modHost (fun h => { h with nsOps := h.nsOps.filter (fun x => !(x.nsid = o.nsid && x.cmd = o.cmd)) ++ [o] })

/-- An operation is over; its command completes with success once no other operation of it is left. -/
def State.nsOpGone (s : State) (o : NsOp) : State :=
  let s := s.modHost (fun h => { h with nsOps := h.nsOps.filter (fun x => !(x.nsid = o.nsid && x.cmd = o.cmd)) })
  if s.host.nsOps.any (fun x => x.cmd = o.cmd) then s else s.endCmd o.cmd 0 0 false 0

/-- Count a namespace at each pod it is attached to (Table 11.2). -/
def State.countNs (s : State) (p : Nat) : State :=
  let n := (s.host.ns.filter (fun kv => kv.2.pods.contains p)).length
  s.modPod p (fun e => { e with ns := n })

/-- A namespace is gone: its record, its attachments and what names it. -/
def State.nsGone (s : State) (o : NsOp) (n : Ns) : State :=
  let s := s.modFtl (fun f => { f with wbuf := f.wbuf.map (fun w => if nsidOf w.laddr = o.nsid then { w with dead := true } else w) })
  let s := (s.nsRecord 2 o.nsid n).modHost (fun h => { h with ns := Tab.del h.ns o.nsid })
  let s := s.modAsk (fun a => { a with spreads := Tab.del a.spreads o.nsid })
  (n.pods.foldl (fun s p => s.countNs p) s).nsOpGone o

/-- The units are deallocated and the new format holds (R335): bytes of the namespace stay what they were (log entry 64). The
chunks of a spread namespace go by the new key its members are told of (R467). -/
def State.nsFormatted (s : State) (o : NsOp) (n : Ns) : State :=
  let set := fun (s : State) => s.modNs o.nsid (fun n => { n with
    size := n.size * lbaBytes n.format / lbaBytes o.format, format := o.format, dps := o.dps, extended := o.extended })
  if n.spread then
    let s := (set (s.dropChunks o.nsid)).putNsOp { o with step := 2 }
    match s.spread o.nsid with
    | some x =>
      if (s.spreadPeers x).isEmpty ∨ s.activeKey.isNone then s.nsOpEnd o.nsid o.cmd else s.sendDesc o.nsid (some o.cmd)
    | none => s
  else ((set (s.nsDealloc o.nsid n)).modNs o.nsid (fun n => { n with status := s.nsKeyStatus o.nsid })).nsOpGone o

/-- RELEASE of a spread namespace (R471): every update is confirmed and service on this home stops. -/
def State.nsReleased (s : State) (o : NsOp) : State :=
  match s.spread o.nsid with
  | none => s.nsOpGone o
  | some x =>
    let s := (s.modSpread o.nsid (fun x => { x with released := true, prev := [] })).raise 661 8 (w64 x.id ++ [s.me])
    ((s.sendDesc o.nsid none).modNs o.nsid (fun n => { n with status := 0 })).nsOpGone o

/-- A quiesced namespace: the key operation under its permit (R441), or what needs none. -/
def State.nsReady (s : State) (o : NsOp) (n : Ns) : State :=
  let slot := o.nsid - 1
  let permit := fun (s : State) (op : Nat) => { s with hsk := { s.hsk with permits := s.hsk.permits ++ [(op, slot, o.cmd)] } }
  if o.kind = 3 then s.nsReleased o
  else if o.kind = 1 then (permit (s.putNsOp { o with step := 1 }) 3).keyCommand 0 3 slot (some o.cmd)
  else if o.rekey then (permit (s.putNsOp { o with step := 1 }) 2).keyCommand 0 2 slot (some o.cmd)
  else s.nsFormatted o n

/-- Namespaces that have become quiet go on. -/
def State.nsGo (s : State) : State :=
  (s.host.nsOps.filter (fun o => o.step = 0)).foldl (fun s o =>
    match s.nsOf o.nsid with
    | some n => if s.nsBusy o.nsid then s else s.nsReady o n
    | none => s.nsOpGone o) s

/-- The key engine has ended the operation a host command called for (R137, R334, R335). -/
def State.nsKeyDone (s : State) (slot : Nat) (c : CmdRef) (ok : Bool) : State :=
  let s := { s with hsk := { s.hsk with permits := s.hsk.permits.filter (fun p => p.2.2 ≠ c || p.2.1 ≠ slot) } }
  match s.host.nsOps.find? (fun o => o.nsid = slot + 1 && o.cmd = c && o.step = 1), s.nsOf (slot + 1) with
  | some o, some n =>
    if o.kind = 0 then
      if !ok then (s.nsUndo o.nsid).endCmd c 0 0x06 true 0
      else
        let s := s.putNsOp { o with step := 2 }
        match s.spread o.nsid with
        | some x => if (s.spreadPeers x).isEmpty then s.nsOpEnd o.nsid c else s.sendDesc o.nsid (some c)
        | none => s.nsOpEnd o.nsid c
    else if o.kind = 1 then s.nsGone o n
    else if ok then s.nsFormatted o n
    else
      let s := s.modHost (fun h => { h with nsOps := h.nsOps.filter (fun x => !(x.nsid = o.nsid && x.cmd = o.cmd)) })
      (s.modNs o.nsid (fun n => { n with status := s.nsKeyStatus o.nsid })).endCmd c 0 0x06 true 0
  | _, _ => s

/-- KEY_OPERATION_DONE (R137): the oldest operation on one slot ends; what a host command called for goes on. -/
def execKeyOperationDone (s : State) : Res :=
  (match s.fresh.keyEnd with
   | (some (x, ok), s) => (match x.cmd with | some c => s.nsKeyDone x.slot c ok | none => s)
   | (none, s) => s).done s

/-! ### Completion and its posting -/

/-- COMPLETION_POST (R314): a started command of a namespace that is being quiesced may have been the last. -/
def execCompletionPost (p q : Nat) (ok : Bool) (s : State) : Res := (s.fresh.post p q ok).nsGo.done s

/-! ### Namespace Management (R334) -/

/-- Fields of the host's data. -/
structure NsForm where
  format : Nat
  extended : Bool
  dps : Nat
  shared : Bool
  coarse : Bool
  spread : Bool
  deriving DecidableEq, Repr

/-- What creation reads (R328, R334): a generic status or a command specific one, or the fields. -/
def nsForm (d : List Byte) : Nat ⊕ Nat ⊕ NsForm :=
  let flbas := leAt d 26 1
  let dps := leAt d 29 1
  let format := flbas % 16 + bits flbas 6 5 * 16
  if leAt d 0 8 ≠ leAt d 8 8 ∨ leAt d 0 8 = 0 ∨ 1 < leAt d 3072 1 ∨ 1 < leAt d 3073 1 ∨ 1 < leAt d 30 1
      ∨ bit flbas 7 ∨ 16 ≤ dps ∨ 3 < dps % 8 then .inl 0x02
  else if 5 < format ∨ dps % 8 = 2 ∨ (dps % 8 ≠ 0 ∧ mdBytes format = 0) then .inr (.inl 0x0A)
  else .inr (.inr ⟨format, bit flbas 4, dps, leAt d 30 1 = 1, leAt d 3072 1 = 1, leAt d 3073 1 = 1⟩)

/-- Whether the spread fields of Table 15.7 are in range. -/
def State.spreadForm (s : State) (d : List Byte) : Option Spread :=
  let k := leAt d 3074 1
  let m := leAt d 3075 1
  let ns := leAt d 3077 1
  let ids := fun (off n : Nat) => (List.range n).map (fun i => leAt d (off + 2 * i) 2)
  let members := ids 3080 (k + m)
  let spares := ids 3120 ns
  if k < 2 ∨ 16 < k ∨ m < 1 ∨ 4 < m ∨ 20 < k + m ∨ m < leAt d 3076 1 ∨ 4 < ns ∨ leAt d 3078 2 ≠ 0
      ∨ !allZero (slice d (3080 + 2 * (k + m)) (40 - 2 * (k + m))) ∨ !allZero (slice d (3120 + 2 * ns) (8 - 2 * ns))
      ∨ members.eraseDups.length ≠ members.length ∨ members.any (fun x => s.groupN ≤ x) ∨ !members.contains s.me
      ∨ spares.any (fun x => members.contains x || s.groupN ≤ x) then none
  else
    some { nguid := [], k := k, m := m, writeMin := leAt d 3076 1, members := members, spares := spares,
           coarse := leAt d 3072 1 = 1, size := 0, homeEpoch := 1, home := s.me, released := false, version := [], chunkVer := [],
           prev := [], absent := [], missed := [], whole := [], sync := [], rebuild := none, unrec := [] }

/-- A namespace is entered and its key asked for; it is not ready until the key is made. -/
def State.nsEnter (s : State) (c : HostCmd) (nsid : Nat) (n : Ns) (x : Option Spread) : State :=
  let s := s.modHost (fun h => { h with ns := Tab.put h.ns nsid n })
  let s := match x with
    | some x => s.modAsk (fun a => { a with spreads := Tab.put a.spreads nsid x })
    | none => s
  let s := s.putNsOp ⟨0, HostCmdRef c, nsid, n.format, n.dps, n.extended, false, 1⟩
  s.keyCommand 0 1 (nsid - 1) (some (HostCmdRef c))

/-- Creation (R334, R465). -/
def State.nsCreate (s : State) (c : HostCmd) : State :=
  s.admin c pod0Media (fun s =>
    if c.xfer ≠ .ok then s.failXfer c c.xfer
    else
      match nsForm c.data with
      | .inl sc => s.failG c sc
      | .inr (.inl sc) => s.failS c sc
      | .inr (.inr f) =>
        if f.spread ∧ Config.askPorts s.part = 0 then s.failV c 0x01 true 0
        else if f.spread ∧ (f.dps % 8 ≠ 0 ∨ (f.format ≠ 0 ∧ f.format ≠ 3)) then s.failS c 0x0A
        else
          let form := if f.spread then s.spreadForm c.data else none
          if f.spread ∧ form.isNone then s.failG c 0x02
          else
            match (Tab.lowestFree (s.host.ns.map (fun kv => (kv.1 - 1, kv.2))) 8192).map (fun i => i + 1) with
            | none => s.failS c 0x16
            | some nsid =>
              -- the spec gives no value for the identifier: fresh bytes of the general generator (log entry 65)
              let (guid, s) := s.random 16
              let k := (form.map Spread.k).getD 0
              let n : Ns :=
                { size := leAt c.data 0 8, format := f.format, dps := f.dps, extended := f.extended, coarse := f.coarse,
                  nguid := leNat guid, shared := f.shared, spread := f.spread, hold := k, pods := [], status := 1, legacy := false }
              let away := ((form.map Spread.members).getD []).any (fun m => m ≠ s.me && (s.member m).state ≠ 1)
              if away then s.failV c 0x51 false 0
              else if !s.mapFits nsid n then s.failS c 0x15
              else s.nsEnter c nsid n (form.map (fun x => { x with nguid := guid, size := n.size * lbaBytes n.format })))

/-- NAMESPACE_CREATE (R334). -/
def execNamespaceCreate (c : HostCmd) (s : State) : Res := (s.fresh.nsCreate c).done s

/-- Whether a namespace can be named: it exists, hosts see it (R466), and it is neither being created nor deleted. -/
def State.nsNamed (s : State) (nsid : Nat) : Option Ns :=
  match s.nsOf nsid with
  | some n => if !s.hostSees nsid ∨ n.status = 4 ∨ s.host.nsOps.any (fun o => o.nsid = nsid && o.kind = 0) then none else some n
  | none => none

/-- An operation of a namespace begins by quiescing it: its status, and what unstarted commands end with. -/
def State.nsBegin (s : State) (o : NsOp) (status sc : Nat) : State :=
  ((s.modNs o.nsid (fun n => { n with status := status })).nsQuiet o.nsid sc).putNsOp o

/-- Deletion (R215, R333): of one namespace, or of every one. -/
def State.nsDelete (s : State) (c : HostCmd) : State :=
  s.admin c pod0Media (fun s =>
    let all := (s.host.ns.map (fun kv => kv.1)).filter (fun k => (s.nsNamed k).isSome)
    let ids := if c.nsid = 0xFFFFFFFF then all else all.filter (fun k => k = c.nsid)
    if ids.isEmpty then s.failG c 0x0B
    else if ids.any (fun k => s.host.nsOps.any (fun o => o.nsid = k)) then s.failG c 0x84
    else
      (ids.foldl (fun s k => s.nsBegin ⟨1, HostCmdRef c, k, 0, 0, false, false, 0⟩ 4 0x0B) s).nsGo)

/-- NAMESPACE_DELETE (R215). -/
def execNamespaceDelete (c : HostCmd) (s : State) : Res := (s.fresh.nsDelete c).done s

/-! ### Namespace Attachment (R320, Table 11.6) -/

/-- The controllers a controller list names. -/
def ctrlIds (d : List Byte) : List Nat := (List.range (leAt d 0 2)).map (fun i => leAt d (2 + 2 * i) 2)

/-- Whether a pod is there to hold an attachment. -/
def State.podExists (s : State) (p : Nat) : Bool :=
  match Tab.look s.pod.pods p with
  | some e => e.state ≠ 6
  | none => false

/-- What an attachment of a namespace to one controller fails with (command specific). -/
def State.attachBad (s : State) (n : Ns) (many : Bool) (p : Nat) : Option Nat :=
  if !s.podExists p then some 0x1C
  else if n.pods.contains p then some 0x18
  else if !n.shared ∧ (many ∨ !n.pods.isEmpty) then some 0x19
  else
    match Tab.look s.pod.pods p with
    | some e => if s.fld POD_ENV_W1_MAX_NS e.cls ≤ e.ns then some 0x27 else none
    | none => some 0x1C

/-- Namespace Attachment: sel 0 attaches, 1 detaches; every controller of the list is checked before any is changed. A spread
namespace attaches on its home alone (R471). -/
def State.attachCmd (s : State) (c : HostCmd) (sel : Nat) : State :=
  s.admin c ⟨true, true, false, false⟩ (fun s =>
    if c.xfer ≠ .ok then s.failXfer c c.xfer
    else
      match s.nsNamed c.nsid with
      | none => s.failG c 0x0B
      | some n =>
        let l := ctrlIds c.data
        if l.isEmpty ∨ 2047 < l.length then s.failS c 0x1C
        else if sel = 0 then
          if n.spread ∧ !(s.spread c.nsid).any s.isHome then s.failV c 0x51 false 0
          else
            match l.findSome? (fun p => s.attachBad n (decide (1 < l.length)) p) with
            | some sc => s.failS c sc
            | none => (l.foldl (fun s p => s.countNs p) (s.modNs c.nsid (fun n => { n with pods := podsOf (n.pods ++ l) }))).succeed c
        else if l.any (fun p => !s.podExists p) then s.failS c 0x1C
        else if l.any (fun p => !n.pods.contains p) then s.failS c 0x1A
        else
          (l.foldl (fun s p => s.countNs p)
            (s.modNs c.nsid (fun n => { n with pods := n.pods.filter (fun p => !l.contains p) }))).succeed c)

/-- NAMESPACE_ATTACH (R320). -/
def execNamespaceAttach (c : HostCmd) (s : State) : Res := (s.fresh.attachCmd c 0).done s

/-- NAMESPACE_DETACH (R320). -/
def execNamespaceDetach (c : HostCmd) (s : State) : Res := (s.fresh.attachCmd c 1).done s

/-! ### Format NVM (R335) -/

/-- Format NVM with a Secure Erase Setting: 0 none, 1 user data erase, 2 cryptographic erase. A format of a spread namespace
always replaces the key, the only way the spec gives of deallocating its members' chunks (log entry 63). -/
def State.formatCmd (s : State) (c : HostCmd) (ses : Nat) : State :=
  s.admin c ⟨false, true, true, true⟩ (fun s =>
    let w := c.cdw10
    let format := w % 16 + bits w 13 12 * 16
    let pi_ := bits w 7 5
    if c.pod ≠ 0 ∧ !s.permit c.pod 1 then s.failG c 0x01
    else
      match s.nsNamed c.nsid with
      | none => s.failG c 0x0B
      | some n =>
        if !n.pods.contains c.pod then s.failG c 0x0B
        else if s.host.nsOps.any (fun o => o.nsid = c.nsid) then s.failG c 0x84
        else if 16384 ≤ w ∨ 3 < pi_ then s.failG c 0x02
        else if 5 < format ∨ pi_ = 2 ∨ (pi_ ≠ 0 ∧ mdBytes format = 0) then s.failS c 0x0A
        else if n.spread ∧ (pi_ ≠ 0 ∨ (format ≠ 0 ∧ format ≠ 3)) then s.failS c 0x0A
        else if n.spread ∧ !(s.spread c.nsid).any s.isHome then s.failV c 0x51 false 0
        else if !s.mapFits c.nsid { n with format := format, size := n.size * lbaBytes n.format / lbaBytes format } then s.failS c 0x15
        else
          let o : NsOp := ⟨2, HostCmdRef c, c.nsid, format, pi_ + bits w 8 8 * 8, bit w 4, ses ≠ 0 || n.spread, 0⟩
          ((s.selfTestEnd 4 0).nsBegin o 3 0x84).nsGo)

/-- FORMAT_NVM_NO_SES (R335). -/
def execFormatNvmNoSes (c : HostCmd) (s : State) : Res := (s.fresh.formatCmd c 0).done s

/-- FORMAT_NVM_USER_ERASE (R335). -/
def execFormatNvmUserErase (c : HostCmd) (s : State) : Res := (s.fresh.formatCmd c 1).done s

/-- FORMAT_NVM_CRYPTO_ERASE (R335). -/
def execFormatNvmCryptoErase (c : HostCmd) (s : State) : Res := (s.fresh.formatCmd c 2).done s

/-! ### Release of a spread namespace (R471) -/

/-- RELEASE on the home: the namespace is quiesced, then released; commands to it meanwhile end as on a device that is not the
home. -/
def State.releaseCmd (s : State) (c : HostCmd) : State :=
  s.spreadCtl c 2 (fun nsid x s =>
    if !s.isHome x then s.failV c 0x51 false 0
    else if s.host.nsOps.any (fun o => o.nsid = nsid) then s.failG c 0x84
    else
      let idle := s.host.out.filter (fun o =>
        match o.io with
        | some (_, h) => h.nsid = nsid && (o.stage = .held || o.stage = .fetched || o.stage = .lockWait)
        | none => false)
      let s := idle.foldl (fun s o => s.endCmd ⟨o.pod, o.qid, o.cid⟩ 7 0x51 false 0) s
      ((s.abortScans (fun j => j.nsid = nsid) 1).putNsOp ⟨3, HostCmdRef c, nsid, 0, 0, false, false, 0⟩).nsGo)

/-- SPREAD_RELEASE (R471). -/
def execSpreadRelease (c : HostCmd) (s : State) : Res := (s.fresh.releaseCmd c).done s

/-! ### Sanitize (R216, R217) -/

/-- SANITIZE_STATE is written, and FTL_SAN_STAT follows it; the progress within a phase is open. -/
def State.setSan (s : State) (n : SanState) : State :=
  let (p, s) := s.draw (2 ^ 16)
  let s := { s with nv := { s.nv with sanitize := n } }
  let s := (s.setFld FTL_SAN_STAT_SANACT n.sanact).setFld FTL_SAN_STAT_PHASE n.phase
  let p := if n.phase = 0 ∨ n.phase = 5 then 0 else p
  (s.setFld FTL_SAN_STAT_PROGRESS p).setFld FTL_STAT_PROGRESS (p / 256)

/-- Sanitize with an action: 2 Block Erase, 4 Crypto Erase. It runs on after the command has completed. -/
def State.sanitizeCmd (s : State) (c : HostCmd) (act : Nat) : State :=
  s.admin c ⟨true, true, true, false⟩ (fun s =>
    let n := s.nv.sanitize
    if n.phase ≠ 0 ∧ n.phase ≠ 5 then s.failG c 0x1D
    else if bit c.cdw10 9 ∨ 1024 ≤ c.cdw10 then s.failG c 0x02
    else
      let s := (s.selfTestEnd 9 0).abortScans (fun _ => true) 2
      let s := s.setSan { n with sanact := act, phase := 1, ause := bit c.cdw10 3, failed := 0 }
      ((s.setFld FTL_STAT_STATE 6).raise 358 1 [act, 1]).succeed c)

/-- SANITIZE_BLOCK_ERASE (R217). -/
def execSanitizeBlockErase (c : HostCmd) (s : State) : Res := (s.fresh.sanitizeCmd c 2).done s

/-- SANITIZE_CRYPTO_ERASE (R217). -/
def execSanitizeCryptoErase (c : HostCmd) (s : State) : Res := (s.fresh.sanitizeCmd c 4).done s

/-- SANITIZE_EXIT_FAILURE (R216): the FAILED phase is left. -/
def execSanitizeExitFailure (c : HostCmd) (s : State) : Res :=
  (s.fresh.admin c ⟨true, true, false, false⟩ (fun s =>
    let n := s.nv.sanitize
    if n.phase = 5 then
      let s := s.setSan { n with sanact := 0, phase := 0, ause := false }
      (s.setFld FTL_STAT_STATE (if s.ftl.readOnly then 5 else 4)).succeed c
    else if n.phase ≠ 0 then s.failG c 0x1D
    else s.succeed c)).done s

/-- SANITIZE_OVERWRITE (R216): not supported. -/
def execSanitizeOverwrite (c : HostCmd) (s : State) : Res :=
  (s.fresh.admin c ⟨true, true, false, false⟩ (fun s => s.failG c 0x02)).done s

/-- Phase 1 (Table 6.12): what the write buffer and delta log hold is discarded and the bitmap cleared; host commands that were
under way end with Sanitize In Progress. -/
def State.sanDiscard (s : State) : State :=
  let open_ := s.host.out.filter (fun o => o.io.isSome || o.stage = .waitDurable)
  let s := open_.foldl (fun s o => s.endCmd ⟨o.pod, o.qid, o.cid⟩ 0 0x1D true 0) s
  let s := s.modCmp (fun c => { c with pipes := Tab.mapVals (fun _ p => { p with units := [] }) c.pipes })
  let s := s.modFtl (fun f => { f with
    wbuf := [], delta := [], deltaAt := none, frames := [], recDurable := f.recCount, reserved := [], reads := [] })
  { s.countFrames with nv := { s.nv with erased := [] } }

/-- Whether phase 3 is over: every block outside the archive has been erased, or entered as one that cannot be. -/
def State.sanErased (s : State) : Bool :=
  s.lunsInUse.all (fun i => (List.range s.lunBlocks).all (fun b =>
    (s.blk i b).pool = 5 || Tab.has s.nv.erased (2 ^ 20 * i + b)))

/-- Phase 4 (Table 6.12): an empty map under a fresh checkpoint, whose place is open, groups made anew, pools rebuilt. A block
that holds old pages may be erased; it is used again after that. -/
def State.sanRebuild (s : State) : State :=
  let (root, s) := s.draw (2 ^ 45)
  let s := s.modFtl (fun f => { f with
    map := [], dmap := [], media := [], lanes := [], jplaces := [], rootPfa := root, ckptRun := none, sinceCkpt := 0
    ckptGen := f.ckptGen + 1, victims := [], urgent := [], flushComplete := true, fullEpisode := false, allow := []
    legacy := false, legacyKey := [], parityLost := false
    blocks := Tab.mapVals (fun _ (x : Blk) => if x.pool = 3 then { x with released := true } else x) f.blocks })
  let s := { s with nv := { s.nv with
    mapCkpt := root % 2 ^ 45 * 2 ^ 19 + s.ftl.ckptGen % 2 ^ 16 * 8 + 1, rebuildCkpt := 0 } }
  let clean := fun (k : Nat) (b : SuperBlock) => b.lanes.all (fun i => (s.blk i (k % 2 ^ 14)).wp = 0)
  let s := s.modFtl (fun f => { f with
    sbs := Tab.mapVals (fun _ b => { b with state := 2, reclaimNo := 0, relNo := 0 }) (Tab.keep (fun k b => !clean k b) f.sbs) })
  let s := s.modFlash (fun f => { f with
    luns := Tab.mapVals (fun _ (l : Lun) => { l with natives := [], groups := Tab.mapVals (fun _ g => { g with active := false }) l.groups }) f.luns })
  let s := s.modAsk (fun a => { a with spreads := Tab.mapVals (fun _ x => { x with
    version := [], chunkVer := [], prev := [], missed := [], unrec := [] }) a.spreads })
  let s := s.modHost (fun h => { h with ns := Tab.mapVals (fun k n =>
    if n.status = 2 then { n with status := s.nsKeyStatus k } else { n with legacy := false }) h.ns })
  (s.setFld FTL_STAT_LEGACY 0).makeGroups

/-- A phase ends (Table 6.12). -/
def State.sanPhaseDone (s : State) : State :=
  let n := s.nv.sanitize
  if n.phase = 1 then
    let s := s.sanDiscard
    (s.setSan { s.nv.sanitize with phase := 2 }).keyCommand 0 4 0 none
  else if n.phase = 2 then
    if s.key.eraseAll.isSome then s
    else if (s.keyOf 8192).isSome then s.setSan { n with phase := if n.sanact = 2 then 3 else 4 }
    else (s.setSan { n with phase := 5, last := 3 }).raise 358 4 [n.sanact, 5]
  else if n.phase = 3 then (if s.sanErased then s.setSan { n with phase := 4 } else s)
  else if n.phase = 4 then
    let s := s.sanRebuild
    let s := s.setSan { n with sanact := 0, phase := 0, ause := false, last := 1 }
    (s.setFld FTL_STAT_STATE (if s.ftl.readOnly then 5 else 4)).raise 358 3 [n.sanact, 4]
  else s

/-- SANITIZE_PHASE_DONE (R217). -/
def execSanitizePhaseDone (s : State) : Res := s.fresh.sanPhaseDone.done s

end Sys2Proof.Machine
end

