-- ==== Sys2Proof/Machine/FwCmds.lean ====
section
/-!
DEFINITION. Firmware download, commit and activation without reset (R338-R340), and the configuration image's download and
commit (R341).
-/
namespace Sys2Proof.Machine

/-! ### Downloads (R338, R341) -/

/-- Bytes a download command carries: CDW10 counts dwords from zero. -/
def dlSize (c : HostCmd) : Nat := 4 * (c.cdw10 + 1)

/-- Byte offset of a download. -/
def dlOff (c : HostCmd) : Nat := 4 * c.cdw11

/-- Whether a download is in form: 4 KiB multiples within the staging buffer. -/
def dlBad (c : HostCmd) (room : Nat) : Bool :=
  dlSize c % 4096 ≠ 0 || dlOff c % 4096 ≠ 0 || room < dlOff c + dlSize c

/-- Whether a download overlaps one received since the last commit. -/
def dlOverlaps (c : HostCmd) (l : List (Nat × Nat)) : Bool :=
  l.any (fun r => r.1 < dlOff c + dlSize c && dlOff c < r.1 + r.2)

/-- FIRMWARE_IMAGE_DOWNLOAD (R338). -/
def execFirmwareImageDownload (c : HostCmd) (s : State) : Res :=
  (s.fresh.admin c ⟨true, false, false, true⟩ (fun s =>
    if dlBad c 12582912 then s.failG c 0x02
    else if dlOverlaps c s.host.fwRanges then s.failS c 0x14
    else if c.xfer ≠ .ok then s.failXfer c c.xfer
    else
      (s.modHost (fun h => { h with
        fwStage := memWrite h.fwStage (dlOff c) (slice c.data 0 (dlSize c)), fwRanges := h.fwRanges ++ [(dlOff c, dlSize c)] })).succeed c)).done s

/-- CONFIG_IMAGE_DOWNLOAD (R341). -/
def execConfigImageDownload (c : HostCmd) (s : State) : Res :=
  (s.fresh.admin c ⟨true, false, false, true⟩ (fun s =>
    if dlBad c 8388608 then s.failG c 0x02
    else if dlOverlaps c s.host.cfgRanges then s.failS c 0x14
    else if c.xfer ≠ .ok then s.failXfer c c.xfer
    else
      (s.modHost (fun h => { h with
        cfgStage := memWrite h.cfgStage (dlOff c) (slice c.data 0 (dlSize c)), cfgRanges := h.cfgRanges ++ [(dlOff c, dlSize c)] })).succeed c)).done s

/-- Bytes of a staging buffer; what was not received reads zero (log entry 66). -/
def stageBytes (t : Tab Byte) (off : Nat) : Nat → List Byte
  | 0 => []
  | n + 1 => Tab.lookD t off 0#8 :: stageBytes t (off + 1) n

/-- The staged firmware, as far as its length says. -/
def State.stagedFw (s : State) : List Byte :=
  let h := stageBytes s.host.fwStage 0 64
  let len := leAt h 8 4
  if slice h 0 4 = ascii "GFWS" ∧ len ≤ 12582912 then stageBytes s.host.fwStage 0 len else h

/-! ### Commit (R339) -/

/-- The checks of a commit: what it fails with (command specific), or the slot's fields; the latch is left by VERIFY_SLOT. -/
def State.fwCheck (s : State) (k : Nat) (img : List Byte) : (Nat ⊕ FwInfo) × State :=
  if k = 0 ∨ 4 < k ∨ k = s.nv.fwActive.slot then (.inl 0x06, s)
  else
    match fwInfo img with
    | none => (.inl 0x07, s)
    | some f =>
      let (ok, s) := s.fwVerify img f
      if !ok then (.inl 0x07, s)
      else if f.svn < s.nv.svnFloor then (.inl 0x13, s)
      else (.inr f, s)

/-- A slot is written to the NOR, and the staging buffer is free again. -/
def State.fwWrite (s : State) (k : Nat) (img : List Byte) : State :=
  let s := { s with boot := { s.boot with nor := norWrite s.boot.nor (0x1000000 + (k - 1) * 0xC00000) img } }
  s.modHost (fun h => { h with fwStage := [], fwRanges := [] })

/-- The lowest digest record that neither firmware word names (R124). -/
def NvState.freeDrec (n : NvState) : Nat :=
  (((List.range 4).find? (fun d =>
    (n.fwActive.slot = 0 || n.fwActive.drec ≠ d) && (n.fwPrev.slot = 0 || n.fwPrev.drec ≠ d))).getD 0)

/-- The ledger engine is asked to commit a slot (R124). -/
def State.fwActivate (s : State) (c : CmdRef) (k svn : Nat) (now : Bool) : Bool × State :=
  (s.modLdg (fun l => { l with activateSvn := svn })).activate k s.nv.freeDrec (some c) now

/-- Firmware Commit that writes or names a slot: write says whether the staged image goes to it, commit whether the slot is to run
from the next reset. -/
def State.fwCommit (s : State) (c : HostCmd) (write commit : Bool) : State :=
  s.admin c ⟨true, false, false, true⟩ (fun s =>
    let k := c.cdw10 % 8
    let img := if write then s.stagedFw else s.norSlot k
    match s.fwCheck k img with
    | (.inl sc, s) => s.failS c sc
    | (.inr f, s) =>
      let s := if write then s.fwWrite k (slice img 0 f.len) else s
      if !commit then s.succeed c
      else
        match s.fwActivate (HostCmdRef c) k f.svn false with
        | (true, s) => s
        | (false, s) => s.failS c 0x13)

/-- FW_COMMIT_REPLACE (R339): CA 000b. -/
def execFwCommitReplace (c : HostCmd) (s : State) : Res := (s.fresh.fwCommit c true false).done s

/-- FW_COMMIT_REPLACE_ACTIVATE (R339): CA 001b. -/
def execFwCommitReplaceActivate (c : HostCmd) (s : State) : Res := (s.fresh.fwCommit c true true).done s

/-- FW_COMMIT_ACTIVATE (R339): CA 010b. -/
def execFwCommitActivate (c : HostCmd) (s : State) : Res := (s.fresh.fwCommit c false true).done s

/-! ### Activation without reset (R340) -/

/-- The activation is over: its result (1 committed, 2 abandoned at maximum time, 3 refused), the pause, and fetch again. -/
def State.fwActOver (s : State) (slot result : Nat) : State :=
  let t := (s.host.fwAct.map FwAct.stopAt).getD s.time
  let s := (s.setFld NVQ_FW_ACT_RESULT result).setFld NVQ_FW_ACT_PAUSE_MS (min 65535 ((s.time - t) / 1000000))
  let s := (s.modHost (fun h => { h with fwAct := none })).setFld NVQ_STAT_FETCH_STOPPED 0
  (s.raise 563 (result + 1) [slot]).scanGo

/-- Steps 1 and 2 of Table 10.17: the slot is verified, then fetch and lock grants stop. In the safe configuration no firmware
runs to hand over, and the slot is committed for the next reset (log entry 67). -/
def State.fwActStart (s : State) (c : HostCmd) : State :=
  s.admin c ⟨true, false, false, true⟩ (fun s =>
    let k := c.cdw10 % 8
    match s.fwCheck k (s.norSlot k) with
    | (.inl sc, s) =>
      let s := if sc = 0x06 then s else (s.setFld NVQ_FW_ACT_RESULT 3).raise 563 4 [k]
      s.failS c sc
    | (.inr f, s) =>
      if s.safe then
        match s.fwActivate (HostCmdRef c) k f.svn false with
        | (true, s) => s
        | (false, s) => s.failS c 0x13
      else
        let s := s.modHost (fun h => { h with fwAct := some ⟨HostCmdRef c, k, 3, s.time⟩ })
        ((s.modLdg (fun l => { l with activateSvn := f.svn })).setFld NVQ_STAT_FETCH_STOPPED 1).raise 563 1 [k])

/-- FW_COMMIT_ACTIVATE_NOW (R340): CA 011b. -/
def execFwCommitActivateNow (c : HostCmd) (s : State) : Res := (s.fresh.fwActStart c).done s

/-- FW_ACTIVATE_TIMEOUT (R340): step 3 has exceeded its bound; nothing is committed. -/
def State.fwActTimeout (s : State) : State :=
  match s.host.fwAct with
  | none => s
  | some a =>
    if a.step ≠ 3 then s
    else ((s.notBefore (a.stopAt + 150000000)).fwActOver a.slot 2).endCmd a.cmd 1 0x12 true 0

/-- FW_ACTIVATE_TIMEOUT (R340). -/
def execFwActivateTimeout (s : State) : Res := s.fresh.fwActTimeout.done s

/-- Whether a command holds up step 3: it has started, and is neither the commit itself, an Asynchronous Event Request, nor what
a task or a paused scan serves. -/
def State.fwWaits (s : State) (a : FwAct) (o : OutCmd) : Bool :=
  let c : CmdRef := ⟨o.pod, o.qid, o.cid⟩
  !(o.stage = .held || o.stage = .fetched || o.stage = .lockWait) && c ≠ a.cmd
    && !(o.qid = 0 && (s.ctrl o.pod).aers.contains o.cid)
    && !s.tsk.tasks.any (fun kv => kv.2.cmd = some c) && !s.scn.jobs.any (fun kv => kv.2.cmd = some c)
    && !s.scn.held.any (fun h => h.1 = c) && !s.host.cqes.any (fun q => q.pod = o.pod && q.qid = o.qid && q.cid = o.cid)

/-- Step 3 is over: every started command has completed; the ledger engine is asked for the commit (step 4). -/
def State.fwActDrained (s : State) : State :=
  match s.host.fwAct with
  | none => s
  | some a =>
    if a.step ≠ 3 ∨ s.host.out.any (fun o => s.fwWaits a o) then s
    else
      match s.activate a.slot s.nv.freeDrec (some a.cmd) true with
      | (true, s) => s.modHost (fun h => { h with fwAct := some { a with step := 4 } })
      | (false, s) => (s.fwActOver a.slot 3).endCmd a.cmd 1 0x13 true 0

/-- FW_ACTIVATE_DRAIN_DONE (R340). -/
def execFwActivateDrainDone (s : State) : Res := s.fresh.fwActDrained.done s

/-- The ACTIVATE entry is in the ledger (R124): the digest record and both firmware words are written, the commit point (R93). A
commit for the next reset completes; an activation hands over to the new firmware (steps 5 and 6). -/
def State.fwCommitted (s : State) (slot drec svn : Nat) (digest : List Byte) (cmd : Option CmdRef) (now : Bool) : State :=
  let s := s.modNv (fun n => n.activated slot drec svn digest)
  match cmd with
  | none => s
  | some c =>
    if now then
      let s := { s with boot := { s.boot with fwSlot := slot, fwSvn := svn, fwDigest := digest } }
      (s.fwActOver slot 1).endCmd c 0 0 false 0
    else s.endCmd c 1 0x10 false 0

/-! ### Configuration image (R341) -/

/-- Configuration Image Commit: the copy written is the one not in use. -/
def State.cfgCommit (s : State) (c : HostCmd) : State :=
  s.admin c ⟨true, false, false, true⟩ (fun s =>
    let copy := if s.fld CFG_BOOT_STAT_COPY = 1 then 2 else 1
    let head := stageBytes s.host.cfgStage 0 32
    let len := imgLen head
    let img := if slice head 0 4 = ascii "DYRN" ∧ len ≤ 8388608 then stageBytes s.host.cfgStage 0 (max 1840 len) else head
    let s := s.modHost (fun h => { h with cfgStage := [], cfgRanges := [] })
    match s.imgCause img with
    | some cause => (s.raise 566 2 [copy, cause]).failV c 0x20 true cause
    | none =>
      let s := { s with boot := { s.boot with nor := norWrite s.boot.nor ((copy - 1) * 0x800000) (slice img 0 len) } }
      (s.raise 566 1 [copy, 0]).succeed c)

/-- CONFIG_IMAGE_COMMIT (R341). -/
def execConfigImageCommit (c : HostCmd) (s : State) : Res := (s.fresh.cfgCommit c).done s

end Sys2Proof.Machine
end

