-- ==== Sys2Proof/Machine/TrustCmds.lean ====
section
/-!
DEFINITION. Trust commands (R126-R130), the start of firmware, and Legacy Mount (R221).
-/
namespace Sys2Proof.Machine

/-! ### Firmware starts -/

/-- Firmware starts once its BOOT entry is written or could not be (R79, R121): controllers enabled in the mode that does not wait
for media become ready (R83). -/
def State.fwStarts (s : State) : State :=
  if s.safe ∨ s.boot.fwSlot = 0 ∨ s.boot.fwRunning then s
  else
    let s := { s with boot := { s.boot with fwRunning := true } }
    let s := s.setFld CFG_BOOT_STAT_PHASE 3
    s.modHost (fun h => { h with ctrls := Tab.mapVals (fun _ c =>
      if c.enabling ∧ bit c.cc 24 then { c with rdy := true, enabling := false } else c) h.ctrls })

/-! ### Quotes, nonces, tokens (R126, R127, R130) -/

/-- ATTESTATION_QUOTE (R130): CDW12-15 hold the verifier's nonce. -/
def execAttestationQuote (c : HostCmd) (s : State) : Res :=
  (s.fresh.admin c anyPod (fun s =>
    if c.xfer ≠ .ok then s.failXfer c c.xfer
    else s.quoteAsk (HostCmdRef c) (leBytes 4 c.cdw12 ++ leBytes 4 c.cdw13 ++ leBytes 4 c.cdw14 ++ leBytes 4 c.cdw15))).done s

/-- A path's nonce is replaced by 32 bytes of the general generator (R126). -/
def State.newNonce (s : State) (path : Nat) : List Byte × State :=
  let (n, s) := s.random 32
  (n, s.modSgn (fun g => { g with nonce := Tab.put g.nonce path n }))

/-- TOKEN_NONCE (R126). -/
def execTokenNonce (c : HostCmd) (s : State) : Res :=
  (s.fresh.admin c ⟨true, false, false, false⟩ (fun s =>
    if !s.rngOk then s.failG c 0x06
    else
      let (n, s) := s.newNonce 0
      s.giveData c n)).done s

/-- TOKEN_SUBMIT (R127): 3,336 bytes from the host. -/
def execTokenSubmit (c : HostCmd) (s : State) : Res :=
  (s.fresh.admin c ⟨true, false, false, false⟩ (fun s =>
    if c.xfer ≠ .ok then s.failXfer c c.xfer
    else s.tokenRequest 0 (.tokenCmd (HostCmdRef c) (slice c.data 0 3336)))).done s

/-! ### Ledger Read (R129, R130) -/

/-- The bytes of ring entries from an index on; none where one is not held. -/
def State.ringRun (s : State) (first : Nat) : Nat → Option (List Byte)
  | 0 => some []
  | n + 1 =>
    match s.ringEntry first with
    | none => none
    | some e => (s.ringRun (first + 1) n).map (fun l => slice (s.entryBytes e) 0 4096 ++ l)

/-- LEDGER_READ (R129): CDW10-11 first INDEX, CDW12 count, CDW13 bit 0 source. What the archive's pages hold the command carries;
the archive holds the entries of its epoch (log entry 68). -/
def execLedgerRead (c : HostCmd) (s : State) : Res :=
  (s.fresh.admin c ⟨true, false, false, false⟩ (fun s =>
    let first := c.cdw10 + c.cdw11 * 2 ^ 32
    let n := c.cdw12
    if n = 0 ∨ 256 < n ∨ 1 < c.cdw13 then s.failG c 0x02
    else if c.cdw13 = 1 then
      if s.safe ∨ first < s.nv.archA - s.nv.archCount ∨ s.nv.archA < first + n then s.failV c 0x10 true 0
      else s.giveData c (slice c.data 0 (4096 * n))
    else
      match s.ringRun first n with
      | some d => s.giveData c d
      | none => s.failV c 0x10 true 0)).done s

/-! ### Legacy Mount (R221) -/

/-- A unit of FMF-5 media enters the map, unless a newer version is there. -/
def State.legacyUnit (s : State) (u : LegacyUnit) : State :=
  let place := u.lun * 2 ^ 40 + u.block * 2 ^ 20 + u.frame * 2 ^ 6
  let key := ((s.nv.keyRec (u.laddr / 2 ^ 40)).map KeyRec.key).getD 0
  let s := s.modFtl (fun f => { f with media := Tab.put f.media place ⟨u.seq, u.laddr, 64, true, key, slice u.data 0 4096, slice u.data 0 4096⟩ })
  let k := sbOf u.lun u.block
  let l := ((s.lun u.lun).map Lun.pages).getD 0
  let s := s.putBlk u.lun u.block { s.blk u.lun u.block with pool := 1, wp := l }
  let b := Tab.lookD s.ftl.sbs k ⟨1, false, [], [], 0, s.time, s.time, [], 0, 0, 0⟩
  let s := s.modFtl (fun f => { f with sbs := Tab.put f.sbs k { b with lanes := if b.lanes.contains u.lun then b.lanes else b.lanes ++ [u.lun] } })
  let old := s.mapEntry u.laddr
  let newer := entryGrains old ≠ 0 && (match Tab.look s.ftl.media (entryPlace old) with | some x => decide (u.seq < x.seq) | none => true)
  if newer then s else s.record 0 u.laddr (place * 2 ^ 13 + 63 * 2 ^ 5 + 16 + 8)

/-- A namespace of FMF-5 media: its key record is rewrapped, its key pair a free value, and it is there for attachment. -/
def State.legacyNs (s : State) (x : LegacyNs) : State :=
  let (guid, s) := s.random 16
  let n : Ns :=
    { size := x.size, format := x.format, dps := 0, extended := false, coarse := false, nguid := leNat guid, shared := false,
      spread := false, hold := 0, pods := [], status := 0, legacy := true }
  let (k, s) := s.draw (2 ^ 512)
  let s := s.modNv (fun v => v.putKey (x.nsid - 1) k)
  ((s.modHost (fun h => { h with ns := Tab.put h.ns x.nsid n })).nsRecord 1 x.nsid n).raise 359 1 [x.nsid]

/-- LEGACY_MOUNT (R221): whether the frame code is the one R158 selects and the key unwraps the records, the namespaces the media
hold, and the units their block summaries list. -/
def execLegacyMount (c : HostCmd) (codeOk keyOk : Bool) (nss : List LegacyNs) (units : List LegacyUnit) (s : State) : Res :=
  (s.fresh.admin c pod0Media (fun s =>
    if c.xfer ≠ .ok then s.failXfer c c.xfer
    else if s.ftl.legacy ∨ nss.any (fun x => x.nsid = 0 || 8192 < x.nsid || (s.nsOf x.nsid).isSome) then s.failG c 0x0C
    else if !codeOk ∨ !keyOk then (nss.foldl (fun s x => s.raise 359 2 [x.nsid]) s).failG c 0x06
    else
      let s := nss.foldl (fun s x => s.legacyNs x) s
      let s := units.foldl (fun s u => s.legacyUnit u) s
      let s := s.modFtl (fun f => { f with legacy := true, legacyKey := slice c.data 0 32 })
      ((s.setFld FTL_STAT_LEGACY 1).setFld FTL_STAT_FULL 1).succeed c)).done s

end Sys2Proof.Machine
end

