-- ==== Sys2Proof/Machine/NvmCmds.lean ====
section
/-!
DEFINITION. The I/O commands (Table 10.12): the NVM command set, programs through NVMe (R263, R298, R323), Subsystem Local
Memory reads and copies (R352, R356), and the end of a ledger append (R123) with what it carries on.
-/
namespace Sys2Proof.Machine

/-! ### The NVM command set (R30-R33, R215, R321, R336) -/

/-- Flush (R336): it waits for every write buffered and every record appended before it. -/
def State.flushNvm (s : State) (c : HostCmd) : State :=
  let s := s.begin c 0 .started none
  let all := c.nsid = 0xFFFFFFFF
  match (if all then none else s.nsBar c) with
  | some sc => s.endCmd (HostCmdRef c) 0 sc (sc ≠ 0x82 || ((s.nsOf c.nsid).map Ns.status).getD 0 = 2) 0
  | none =>
    let f : FlushWait :=
      { cmd := some (HostCmdRef c), pod := c.pod, upTo := s.ftl.wnext, recs := s.ftl.recCount, ns := if all then none else some c.nsid }
    s.modHost (fun h => { h with flushes := h.flushes ++ [f] })

/-- NVM_FLUSH (R336). -/
def execNvmFlush (c : HostCmd) (s : State) : Res :=
  (if c.qid = 0 ∨ !s.fresh.takes c then s.fresh else s.fresh.flushNvm c).done s

/-- NVM_WRITE (R30). -/
def execNvmWrite (c : HostCmd) (s : State) : Res := (s.fresh.ioCmd (.io .write) c (fun s => s.ioBegin .write c)).done s

/-- NVM_READ (R32). -/
def execNvmRead (c : HostCmd) (s : State) : Res := (s.fresh.ioCmd (.io .read) c (fun s => s.ioBegin .read c)).done s

/-- WRITE_UNCORRECTABLE (R321). -/
def execWriteUncorrectable (c : HostCmd) (s : State) : Res :=
  (s.fresh.ioCmd (.io .writeUnc) c (fun s => s.ioBegin .writeUnc c)).done s

/-- COMPARE (R321). -/
def execCompare (c : HostCmd) (s : State) : Res := (s.fresh.ioCmd (.io .compare) c (fun s => s.ioBegin .compare c)).done s

/-- WRITE_ZEROES (R215). -/
def execWriteZeroes (c : HostCmd) (s : State) : Res :=
  (s.fresh.ioCmd (.io .writeZeroes) c (fun s => s.ioBegin .writeZeroes c)).done s

/-- DATASET_MANAGEMENT (R215). -/
def execDatasetManagement (c : HostCmd) (s : State) : Res := (s.fresh.ioCmd (.io .dsm) c (fun s => s.ioBegin .dsm c)).done s

/-- VERIFY (R321). -/
def execVerify (c : HostCmd) (s : State) : Res := (s.fresh.ioCmd (.io .verify) c (fun s => s.ioBegin .verify c)).done s

/-! ### Programs of a pod (R263, R298, R299, R323). Their command fields are PRESUMED: log entry 70. -/

/-- The key of a pod's program index or range set. -/
def progKey (pod k : Nat) : Nat := pod * 65536 + k

/-- The program index a command names. -/
def pindOf (c : HostCmd) : Nat := c.cdw10 % 65536

/-- The program store's first address: the top 512 MiB of the 64 GiB held back by R177 (DESIGN CHOICE, log entry 71). -/
def progStore : Nat := 0xFE0000000

/-- A place of size bytes in the program store that no loaded program holds. -/
def State.storePlace (s : State) (size : Nat) : Option Nat :=
  let free := fun (a : Nat) =>
    a + size ≤ 0x1000000000 && !s.host.progs.any (fun kv => kv.2.addr < a + size && a < kv.2.addr + kv.2.size)
  (progStore :: s.host.progs.map (fun kv => roundUp (kv.2.addr + kv.2.size) 4096)).find? free

/-- The lowest handle that is neither loaded nor promised to a load. -/
def State.freeHandle (s : State) : Option Nat :=
  let t := s.host.progs.foldl (fun t kv => if kv.2.scan then t else Tab.put t kv.2.handle ())
    (Tab.mapVals (fun _ _ => ()) s.tsk.progs)
  Tab.lowestFree t 1024

/-- Programs a pod holds: handles and scan programs. -/
def State.progsHeld (s : State) (pod : Nat) : Nat :=
  (s.tsk.progs.filter (fun kv => kv.2.pod = pod)).length
    + (s.host.progs.filter (fun kv => kv.1 / 65536 = pod && (kv.2.scan || !Tab.has s.tsk.progs kv.2.handle))).length

/-- A load is refused (R298, Table 10.13): TSK_PROGRAM with its cause, and the image freed. -/
def State.loadRefused (s : State) (c : CmdRef) (pod pind handle cause : Nat) : State :=
  let s := s.modHost (fun h => { h with progs := Tab.del h.progs (progKey pod pind) })
  (s.raisePod 499 cause [pod, handle] pod).endCmd c 7 0x36 (cause ≠ 6) cause

/-- Whether an image is in form (Table 9.11): its header, its length, and zeros where an unsigned one has them. -/
def imageOk (img : List Byte) : Bool :=
  let n := img.length
  progHeaderOk (slice img 0 1864) && leAt img 8 4 = n
    && (leAt img 5 1 ≠ 0xFF || (allZero (slice img 64 1800) && allZero (slice img (n - 1280) 1280)))

/-- Whether a signed image verifies (R96, R298 step 4), and the verification latch after it (R101). -/
def State.imageSigned (s : State) (img : List Byte) : Bool × State :=
  let key := slice img 64 1793
  let cls := leAt img 5 1
  let k := leAt img 6 1
  let ok := Config.falconVerify key (imageDigest img) (slice img (img.length - 1280) 1280) && s.otp.signerOk cls k key
  (ok, s.modSgn (fun g => { g with latch := if ok then some (imageDigest img, cls, k) else none }))

/-- Whether a waiver in effect covers an unsigned image (R298 step 5). -/
def State.waived (s : State) (pod : Nat) (digest : List Byte) : Bool :=
  s.sgn.waivers.any (fun w => (w.1 = 0xFFFF || w.1 = pod) && (allZero w.2 || w.2 = digest))

/-- A whole image has come (R298): the steps up to its ledger entry. One record goes into an entry of its own. -/
def State.loadImage (s : State) (c : HostCmd) (img : List Byte) : State :=
  let ref := HostCmdRef c
  let pind := pindOf c
  if ((Tab.look s.pod.pods c.pod).map Pod.prog).getD 0 ≤ s.progsHeld c.pod then s.loadRefused ref c.pod pind 0 2
  else
    match s.storePlace img.length, s.freeHandle with
    | some a, some h =>
      match s.store ⟨0x60, c.pod⟩ a img with
      | (.ok, s) =>
        if !imageOk img then s.loadRefused ref c.pod pind h 2
        else
          let d := imageDigest img
          let (ok, s) := if leAt img 5 1 = 0xFF then (s.waived c.pod d, s) else s.imageSigned img
          if !ok then s.loadRefused ref c.pod pind h 2
          else if s.ringRoom ≤ 64 then (s.appendRefused 1 4).loadRefused ref c.pod pind h 6
          else if s.nv.credits ≤ s.fwPending then (s.appendRefused 2 4).loadRefused ref c.pod pind h 6
          else
            let s := s.modHost (fun x => { x with progs := Tab.put x.progs (progKey c.pod pind) ⟨false, h, a, img.length⟩ })
            s.appendSubmit 4 (measurement 12 (c.pod + h * 2 ^ 16 + b2n (leAt img 5 1 = 0xFF) * 2 ^ 32) d)
              (.load ref c.pod pind h a img.length)
      -- step 1 fails: the spec shows no cause for it (log entry 72)
      | (_, s) => let (x, s) := s.draw 64; s.loadRefused ref c.pod pind h x
    | _, _ => let (x, s) := s.draw 64; s.loadRefused ref c.pod pind 0 x

/-- A whole scan program has come (R263): it is kept in the program store; its checks come at each submission (R260). -/
def State.loadScan (s : State) (c : HostCmd) (img : List Byte) : State :=
  let ref := HostCmdRef c
  if ((Tab.look s.pod.pods c.pod).map Pod.prog).getD 0 ≤ s.progsHeld c.pod then s.loadRefused ref c.pod (pindOf c) 0 2
  else
    match s.storePlace img.length with
    | some a =>
      (match s.store ⟨0x60, c.pod⟩ a img with
       | (.ok, s) =>
         (s.modHost (fun h => { h with progs := Tab.put h.progs (progKey c.pod (pindOf c)) ⟨true, 0, a, img.length⟩ })).succeed c
       | (_, s) => let (x, s) := s.draw 64; s.loadRefused ref c.pod (pindOf c) 0 x)
    | none => let (x, s) := s.draw 64; s.loadRefused ref c.pod (pindOf c) 0 x

/-- Load Program (R323): bytes come in order by LOFF (CDW15) and NUMB (CDW14) until PSIZE (CDW11) of them are there. -/
def State.loadProgram (s : State) (c : HostCmd) : State :=
  let s := s.begin c 0 .started none
  let type := c.cdw10 / 65536 % 256
  let key := progKey c.pod (pindOf c)
  let got := if c.cdw15 = 0 then [] else Tab.lookD s.host.loads key []
  if type ≠ 0xC0 ∧ type ≠ 0xC1 then s.failG c 0x02
  else if type = 0xC0 ∧ Config.scnEngines s.part = 0 then
    (s.modHost (fun h => { h with absentScans := key :: h.absentScans.filter (fun k => k ≠ key) })).failV c 0x01 true 0
  else if !s.permit c.pod (if type = 0xC0 then 3 else 2) then s.failG c 0x01
  else if pindOf c < 4 ∨ Tab.has s.host.progs key ∨ c.cdw11 = 0 ∨ 16777216 < c.cdw11 ∨ c.cdw14 = 0 ∨ 2097152 < c.cdw14
      ∨ c.cdw11 < c.cdw15 + c.cdw14 then s.failG c 0x02
  else if got.length ≠ c.cdw15 then s.failG c 0x0C
  else if c.xfer ≠ .ok then s.failXfer c c.xfer
  else
    let all := got ++ slice c.data 0 c.cdw14
    if all.length < c.cdw11 then (s.modHost (fun h => { h with loads := Tab.put h.loads key all })).succeed c
    else
      let s := s.modHost (fun h => { h with loads := Tab.del h.loads key })
      let s := s.modHost (fun h => { h with absentScans := h.absentScans.filter (fun k => k ≠ key) })
      if type = 0xC0 then s.loadScan c all else s.loadImage c all

/-- LOAD_PROGRAM (R323). -/
def execLoadProgram (c : HostCmd) (s : State) : Res :=
  (if c.qid = 0 ∨ !s.fresh.takes c then s.fresh else s.fresh.loadProgram c).done s

/-- The PROGRAM entry of a load has been appended (R298, step 7). -/
def State.loadDone (s : State) (c : CmdRef) (pod pind handle addr : Nat) : State :=
  if !Tab.has s.pod.pods pod ∨ !Tab.has s.host.progs (progKey pod pind) then s
  else
    match s.loadHandle ⟨0, 0⟩ pod handle addr with
    | (true, s) => s.endCmd c 0 0 false 0
    | (false, s) => s.loadRefused c pod pind handle 2

/-- Unload Program (R299). -/
def State.unloadProgram (s : State) (c : HostCmd) : State :=
  let s := s.begin c 0 .started none
  match Tab.look s.host.progs (progKey c.pod (pindOf c)) with
  | none => s.failG c 0x02
  | some g =>
    if !s.permit c.pod (if g.scan then 3 else 2) then s.failG c 0x01
    else if g.scan then (s.modHost (fun h => { h with progs := Tab.del h.progs (progKey c.pod (pindOf c)) })).succeed c
    else
      match Tab.look s.tsk.progs g.handle with
      | some p => if p.unloading then s.failG c 0x02 else (s.unloadHandle g.handle false).succeed c
      | none => s.failG c 0x02

/-- UNLOAD_PROGRAM (R299). -/
def execUnloadProgram (c : HostCmd) (s : State) : Res :=
  (if c.qid = 0 ∨ !s.fresh.takes c then s.fresh else s.fresh.unloadProgram c).done s

/-- PROGRAM_ACTIVATION_MANAGEMENT (R321): SEL 1 activates a program index, 0 deactivates it. -/
def State.progActivation (s : State) (c : HostCmd) : State :=
  let s := s.begin c 0 .started none
  let key := progKey c.pod (pindOf c)
  let sel := c.cdw10 / 65536 % 16
  let g := Tab.look s.host.progs key
  if (4 ≤ pindOf c ∧ g.isNone) ∨ 1 < sel then s.failG c 0x02
  else if !s.permit c.pod (if g.any (fun g => g.scan) then 3 else 2) then s.failG c 0x01
  else
    let rest := s.host.activated.filter (fun x => x ≠ key)
    (s.modHost (fun h => { h with activated := if sel = 1 then key :: rest else rest })).succeed c

/-- PROGRAM_ACTIVATION_MANAGEMENT. -/
def execProgramActivationManagement (c : HostCmd) (s : State) : Res :=
  (if c.qid = 0 ∨ !s.fresh.takes c then s.fresh else s.fresh.progActivation c).done s

/-- The NSID of a pod's memory namespace (R356). -/
def slmNs (pod : Nat) : Nat := 0x10000 + pod

/-- Bytes of a pod's memory namespace. -/
def State.slmSize (s : State) (pod : Nat) : Nat := ((Tab.look s.pod.pods pod).map Pod.memBytes).getD 0

/-- Memory Range Set Management (R263, R321): SEL 0 creates a set, whose number Dword 0 gives; SEL 1 removes one. -/
def State.rangeSet (s : State) (c : HostCmd) : State :=
  let s := s.begin c 0 .started none
  let sel := c.cdw10 / 65536 % 16
  let l := copyRanges c.data
  if !s.permit c.pod 2 ∧ !s.permit c.pod 3 then s.failG c 0x01
  else if 1 < sel then s.failG c 0x02
  else if sel = 1 then
    if Tab.has s.host.rangeSets (progKey c.pod (pindOf c)) then
      (s.modHost (fun h => { h with rangeSets := Tab.del h.rangeSets (progKey c.pod (pindOf c)) })).succeed c
    else s.failG c 0x02
  else if c.xfer ≠ .ok then s.failXfer c c.xfer
  else if l.isEmpty then s.failG c 0x02
  else if l.any (fun r => r.1 ≠ slmNs c.pod) then s.failG c 0x0B
  else if l.any (fun r => s.slmSize c.pod < r.2.1 + r.2.2) then s.failG c 0x80
  else
    match Tab.freeFrom s.host.rangeSets 65535 (progKey c.pod 1) with
    | some k =>
      if k / 65536 = c.pod then
        (s.modHost (fun h => { h with rangeSets := Tab.put h.rangeSets k (l.map (fun r => r.2)) })).succeed c (k % 65536)
      else s.failG c 0x06
    | none => s.failG c 0x06

/-- MEMORY_RANGE_SET_MANAGEMENT (R321). -/
def execMemoryRangeSetManagement (c : HostCmd) (s : State) : Res :=
  (if c.qid = 0 ∨ !s.fresh.takes c then s.fresh else s.fresh.rangeSet c).done s

/-- The address of a run of bytes of a pod's memory that lies in one piece. -/
def Pod.run (p : Pod) (x n : Nat) : Option Nat :=
  match p.addr x, p.addr (x + (n - 1)) with
  | some a, some b => if b = a + (n - 1) then some a else none
  | _, _ => none

/-- Execute Program of a scan program (R263): the descriptor the front end builds; a job limit holds the command. -/
def State.execScan (s : State) (c : HostCmd) (g : HostProg) : State :=
  match Tab.look s.pod.pods c.pod, (Tab.lookD s.host.rangeSets (progKey c.pod (c.cdw10 / 65536)) []).head? with
  | some p, some r =>
    (match p.run r.1 r.2 with
     | none => s.failG c 0x02
     | some a =>
       let d := slice c.data 0 24 ++ leBytes 8 g.addr ++ leBytes 8 a ++ leBytes 4 r.2 ++ List.replicate 20 0#8
       match s.scanTake ⟨0x60, c.pod⟩ 0 d (some (HostCmdRef c)) with
       | (.busy, s) => s.modScn (fun x => { x with held := x.held ++ [(HostCmdRef c, d)] })
       | (.ended, s) => s)
  | _, _ => s.failG c 0x02

/-- The descriptor of an Execute Program's task (R323, Table 9.3): PRIO 4, AFFINITY 0, no vine. -/
def progTask (kind prog pod arg limit : Nat) : List Byte :=
  leBytes 1 kind ++ leBytes 1 4 ++ leBytes 2 prog ++ leBytes 30 0 ++ leBytes 2 pod ++ leBytes 4 0 ++ leBytes 8 arg ++ leBytes 8 0
    ++ leBytes 4 limit ++ leBytes 4 0

/-- Where an Execute Program's parameters go: 64 bytes of the pod's memory that the spec does not place (log entry 73). -/
def State.putParams (s : State) (c : HostCmd) : Nat × State :=
  match Tab.look s.pod.pods c.pod with
  | none => s.draw (2 ^ 40)
  | some p =>
    if p.memBytes = 0 then s.draw (2 ^ 40)
    else
      let (k, s) := s.draw (p.memBytes / 64)
      (0x1000000000 + 64 * k, (s.podStore 0x60 p (64 * k) c.data (podFuel 64)).2)

/-- Execute Program of a program image or a built-in (R323). A refused submission has no status of the spec's (log entry 74). -/
def State.execTask (s : State) (c : HostCmd) (kind prog : Nat) : State :=
  if 64 < c.data.length then s.failG c 0x02
  else
    let (arg, s) := s.putParams c
    let (w, s) := s.submitTask ⟨0x60, c.pod⟩ (progTask kind prog c.pod arg c.cdw13) (some (HostCmdRef c))
    match w / 2 ^ 29 with
    | 1 => s
    | 4 => s.failG c 0x02
    | 5 => s.failG c 0x02
    | _ => s.endCmd (HostCmdRef c) 0 0x06 false 0

/-- Execute Program (R263, R323); one that names a scan program a part has no engines for ends with UNIT_ABSENT (R12; log entry 181). -/
def State.execProgram (s : State) (c : HostCmd) : State :=
  let s := s.begin c 0 .started none
  let g := Tab.look s.host.progs (progKey c.pod (pindOf c))
  let scan := g.any (fun g => g.scan)
  if 4 ≤ pindOf c ∧ g.isNone then
    (if s.host.absentScans.contains (progKey c.pod (pindOf c)) then s.failV c 0x01 true 0 else s.failG c 0x02)
  else if !s.permit c.pod (if scan then 3 else 2) then s.failG c 0x01
  else if c.xfer ≠ .ok then s.failXfer c c.xfer
  else
    match g with
    | none => s.execTask c 2 (1024 + pindOf c)
    | some x => if x.scan then s.execScan c x else s.execTask c 1 x.handle

/-- EXECUTE_PROGRAM (R323). -/
def execExecuteProgram (c : HostCmd) (s : State) : Res := (s.fresh.ioCmd .execProgram c (fun s => s.execProgram c)).done s

/-! ### Subsystem Local Memory (R352, R356) -/

/-- The namespaces attached to a pod, in order. -/
def State.nsOfPod (s : State) (p : Nat) : List Nat := (s.host.ns.filter (fun kv => kv.2.pods.contains p)).map (fun kv => kv.1)

/-- A pod's entry (Table 11.2); all zeros while it is FREE. -/
def State.podEntry (s : State) (p : Nat) : List Byte :=
  match Tab.look s.pod.pods p with
  | none => List.replicate 64 0#8
  | some e =>
    leBytes 1 e.state ++ leBytes 1 e.cls ++ leBytes 1 (e.port + 2 * b2n e.bound + 4 * b2n e.noPasid) ++ leBytes 1 0
      ++ leBytes 4 e.pasid ++ leBytes 2 e.weight ++ leBytes 2 e.ioq ++ leBytes 4 e.cmds ++ leBytes 4 e.tasks ++ leBytes 2 e.imsBase
      ++ leBytes 2 e.imsCount ++ leBytes 4 e.rdKiops ++ leBytes 4 e.wrKiops ++ leBytes 4 e.rdMbs ++ leBytes 4 e.wrMbs
      ++ leBytes 2 e.wbufPm ++ leBytes 2 e.ctx ++ leBytes 2 e.prog ++ leBytes 2 e.locks ++ leBytes 4 (e.memBytes / 0x200000)
      ++ leBytes 2 e.ns ++ leBytes 2 0 ++ leBytes 8 e.label

/-- Bytes of the pod control namespace (R352). -/
def State.podControl (s : State) (off : Nat) : Nat → List Byte
  | 0 => []
  | n + 1 =>
    (if 0x10000 ≤ off ∧ off < 0x50000 then (s.podEntry ((off - 0x10000) / 64)).getD (off % 64) 0#8 else 0#8) :: s.podControl (off + 1) n

/-- Byte address and length of a memory command. -/
def slmAt (c : HostCmd) : Nat := c.cdw10 + c.cdw11 * 2 ^ 32

/-- A bus error in pod memory ends a command (log entry 75). -/
def State.slmFail (s : State) (c : HostCmd) : State := s.endCmd (HostCmdRef c) 0 0x06 false 0

/-- Memory Read (R352, R356). -/
def State.slmRead (s : State) (c : HostCmd) : State :=
  let s := s.begin c 0 .started none
  let n := c.cdw12
  if c.nsid = 0xFFFF ∧ c.pod = 0 then
    if 2097152 < n then s.failG c 0x02
    else if 327680 < slmAt c + n then s.failG c 0x80
    else s.giveData c (s.podControl (slmAt c) n)
  else if c.nsid ≠ slmNs c.pod then s.failG c 0x0B
  else if 2097152 < n then s.failG c 0x02
  else if s.slmSize c.pod < slmAt c + n then s.failG c 0x80
  else
    match Tab.look s.pod.pods c.pod with
    | none => s.failG c 0x0B
    | some p =>
      match s.podLoad 0x60 p (slmAt c) n (podFuel n) with
      | (.ok, d, s) => s.giveData c d
      | (_, _, s) => s.slmFail c

/-- SLM_MEMORY_READ (R321). -/
def execSlmMemoryRead (c : HostCmd) (s : State) : Res := (s.fresh.ioCmd .memRead c (fun s => s.slmRead c)).done s

/-- Read the source ranges of a Memory Copy. -/
def State.gatherRanges (s : State) (p : Pod) : List (Nat × Nat × Nat) → BusStatus × List Byte × State
  | [] => (.ok, [], s)
  | r :: rest =>
    match s.podLoad 0x60 p r.2.1 r.2.2 (podFuel r.2.2) with
    | (.ok, d, s) => let (st, d', s) := s.gatherRanges p rest; (st, d ++ d', s)
    | (st, _, s) => (st, [], s)

/-- Memory Copy (R321): ranges of the pod's memory, one behind the other, to a place in it. -/
def State.slmCopy (s : State) (c : HostCmd) : State :=
  let s := s.begin c 0 .started none
  let l := copyRanges c.data
  let n := (l.map (fun r => r.2.2)).sum
  if c.nsid ≠ slmNs c.pod ∨ l.any (fun r => r.1 ≠ slmNs c.pod) then s.failG c 0x0B
  else if c.xfer ≠ .ok then s.failXfer c c.xfer
  else if s.slmSize c.pod < slmAt c + n ∨ l.any (fun r => s.slmSize c.pod < r.2.1 + r.2.2) then s.failG c 0x80
  else
    match Tab.look s.pod.pods c.pod with
    | none => s.failG c 0x0B
    | some p =>
      match s.gatherRanges p l with
      | (.ok, d, s) =>
        (match s.podStore 0x60 p (slmAt c) d (podFuel n) with
         | (.ok, s) => s.succeed c
         | (_, s) => s.slmFail c)
      | (_, _, s) => s.slmFail c

/-- SLM_MEMORY_COPY (R321). -/
def execSlmMemoryCopy (c : HostCmd) (s : State) : Res := (s.fresh.ioCmd .memCopy c (fun s => s.slmCopy c)).done s

/-! ### An append ends (R123) -/

/-- The entry is part of the ledger, and what it stands for goes on. -/
def State.appendEnd (s : State) : State :=
  match s.appendCommit with
  | (none, s) => s
  | (some r, s) =>
    match r.why with
    | .boot => s.fwStarts
    | .activate slot drec svn digest cmd now => s.fwCommitted slot drec svn digest cmd now
    | .token body _ path w => s.tokenAccepted body path r.entry.index w
    | .firmware m => s.setAppendRes m (2 ^ 30 + r.entry.index % 2 ^ 24)
    | .load c pod pind h a _ => s.loadDone c pod pind h a

/-- LEDGER_APPEND_COMMIT (R123). -/
def execLedgerAppendCommit (s : State) : Res := s.fresh.appendEnd.done s

end Sys2Proof.Machine
end

