-- ==== Sys2Proof/Machine/Ctrls.lean ====
section
/-!
DEFINITION. Controllers and the narrower resets (R83-R90, R337, R361): the order of resets, a controller's enabling, reset and
shutdown, register writes held while a pod is QUIESCED, and PERST# and function level resets.
-/
namespace Sys2Proof.Machine

/-! ### The order of resets (R89, Table 3.18) -/

/-- The port on which a pod is bound. -/
def State.portOfPod (s : State) (p : Nat) : Option Nat :=
  match Tab.look s.pod.pods p with
  | some e => if e.bound then some e.port else none
  | none => none

/-- Whether the scope of a reset contains another's or equals it: kinds and subjects of Table 3.16. -/
def State.scopeHolds (s : State) (k a : Nat) (l b : Nat) : Bool :=
  if k ≤ 3 then k ≤ l
  else if k ≤ 5 then (if l ≤ 5 then k ≤ l && a = b else s.portOfPod b = some a)
  else 6 ≤ l && a = b

/-- CFG_RESET_CAUSE takes a reset's code (Table 3.22). -/
def State.resetSeen (s : State) (kind : Nat) : State :=
  let s := s.setFld CFG_RESET_CAUSE_SEEN (s.fld CFG_RESET_CAUSE_SEEN ||| 2 ^ (kind - 1))
  if 5 ≤ kind then s
  else
    let s := s.setFld CFG_RESET_CAUSE_LAST kind
    if kind = 1 then s else s.countS CFG_RESET_CAUSE_COUNT CFG_RESET_CAUSE_OVF 1

/-- A pod command ends (R352, R353): cause 0 when done, with its result; a refusal is reported (Table 11.14). -/
def State.podEnd (s : State) (b : PodBy) (p op cause v : Nat) : State :=
  let s := if cause = 0 then s else s.raisePod 585 cause [p, op] p
  match b with
  | .cmd c => if cause = 0 then s.endCmd c 0 0 false v else s.endCmd c 7 0x40 true cause
  | .fw m => { s with pod := { s.pod with
      cmdRes := Tab.put s.pod.cmdRes m ((if cause = 0 then 1 else 2) * 2 ^ 30 + cause * 2 ^ 24 + v % 2 ^ 24) } }

/-- A pod's commands under way end superseded (R354): a quiesce (OP 5), and a reset or removal (OP 7 or 8). -/
def State.podSuperseded (s : State) (p : Nat) : State :=
  match Tab.look s.pod.pods p with
  | none => s
  | some e =>
    let s := s.modPod p (fun e => { e with waiters := [], by_ := none })
    let s := e.waiters.foldl (fun s b => s.podEnd b p 5 10 0) s
    match e.by_ with
    | some b => s.podEnd b p (if e.state = 6 then 8 else 7) 10 0
    | none => s

/-- Started writes of some pods whose data have fully arrived (R86). -/
def State.arrivedWrites (s : State) (pods : List Nat) : List CmdRef :=
  (s.host.out.filter (fun o => pods.contains o.pod && o.durable)).map (fun o => ⟨o.pod, o.qid, o.cid⟩)

/-- An activation without reset that a reset of kind 4 to 7 interrupts (Table 3.20): before the ledger engine is asked for the commit it is
abandoned, the old firmware runs and fetch goes on; after that the commit can no longer be stopped and the new firmware follows. What
result and status the abandoned activation shows is the model's choice (log entry 171). -/
def State.fwInterrupted (s : State) : State :=
  match s.host.fwAct with
  | none => s
  | some a =>
    if a.step = 3 then ((s.fwActOver a.slot 2).endCmd a.cmd 1 0x12 true 0).raise 8 4 [a.slot]
    else s.raise 8 5 [a.slot]

/-- A reset of kind 4 to 7 is requested: absorbed by one in progress that holds its scope, else it supersedes those it holds and k does its
work. SYS_RESET is raised as it completes, so that one that is superseded raises none (Table 3.18; log entry 172). -/
def State.resetAsk (s : State) (kind subject : Nat) (pods : List Nat) (k : State → State) : State :=
  if s.boot.resets.any (fun r => s.scopeHolds r.kind r.subject kind subject || (6 ≤ kind && r.kind ≤ 5 && r.pods.contains subject)) then s
  else
    let under := fun (r : ResetRun) => s.scopeHolds kind subject r.kind r.subject || (kind ≤ 5 && 6 ≤ r.kind && pods.contains r.subject)
    let keep := s.boot.resets.filter (fun r => !under r)
    let sup := s.boot.resets.filter under
    let run : ResetRun :=
      { kind := kind, subject := subject, pods := podsOf (pods ++ sup.flatMap ResetRun.pods),
        writes := s.arrivedWrites pods ++ sup.flatMap ResetRun.writes }
    let s := { s with boot := { s.boot with resets := keep ++ [run] } }
    let s := k (s.resetSeen kind).fwInterrupted
    (s.endTest).nsGo

/-! ### A controller (R83, R337) -/

/-- Whether a controller that is enabled may become ready: in the safe configuration at once, with CC.CRIME once firmware has
started, else when the namespaces are ready; never while its reset is still to complete. -/
def State.mayReady (s : State) (p : Nat) (c : Ctrl) : Bool :=
  c.enabling && !s.boot.resets.any (fun r => r.pods.contains p)
    && (s.safe || (if bit c.cc 24 then s.boot.fwRunning else s.boot.bootDone))

/-- CSTS.RDY is set on a controller that may become ready. -/
def State.ctrlReady (s : State) (p : Nat) : State :=
  let c := s.ctrl p
  if s.mayReady p c then s.setCtrl p { c with rdy := true, enabling := false } else s

/-- CC.EN rises: the admin queues exist from AQA, ASQ and ACQ, and the controller becomes ready when R83 says. -/
def State.ctrlEnable (s : State) (p v : Nat) : State :=
  let c := s.ctrl p
  let a : Sq := { size := bits c.aqa 11 0 + 1, base := c.asq, cqid := 0, prio := 0, head := 0, tail := 0 }
  let b : Cq := { size := bits c.aqa 27 16 + 1, base := c.acq, vector := 0, ien := true, head := 0, tail := 0, phase := true }
  (s.setCtrl p { c with cc := v, enabling := true, sqs := Tab.put c.sqs 0 a, cqs := Tab.put c.cqs 0 b }).ctrlReady p

/-- CC.EN falls: a controller reset (kind 6). CSTS.RDY stays set until it is complete (R87). -/
def State.ctrlReset (s : State) (p v : Nat) : State :=
  s.resetAsk 6 p [p] (fun s =>
    let s := if p = 0 ∧ s.host.selfTest.run = some 1 then s.selfTestEnd 2 0 else s
    let was := (s.ctrl p).rdy
    let s := s.resetPod p true
    s.setCtrl p { s.ctrl p with cc := v, rdy := was })

/-- A shutdown notification (R337): fetch stops, and the pod's writes become durable. -/
def State.shutdown (s : State) (p : Nat) : State :=
  let c := s.ctrl p
  if c.shst ≠ 0 then s
  else
    let f : FlushWait := { cmd := none, pod := p, upTo := s.ftl.wnext, recs := s.ftl.recCount, ns := none }
    (s.setCtrl p { c with shst := 1 }).modHost (fun h => { h with flushes := h.flushes ++ [f] })

/-- A write of CC. -/
def State.writeCC (s : State) (p v : Nat) : State :=
  let old := (s.ctrl p).cc
  if bit old 0 ∧ !bit v 0 then s.ctrlReset p v
  else
    let s := if !bit old 0 ∧ bit v 0 then s.ctrlEnable p v else s.setCtrl p { s.ctrl p with cc := v }
    if bits v 15 14 ≠ 0 ∧ bits v 15 14 ≠ bits old 15 14 then s.shutdown p else s

/-- A register write reaches a controller (R308): CC 0x14, AQA 0x24, ASQ 0x28, ACQ 0x30. -/
def State.ctrlWrite (s : State) (p : Nat) (w : Nat × Nat) : State :=
  let c := s.ctrl p
  if w.1 = 0x14 then s.writeCC p w.2
  else if w.1 = 0x24 then s.setCtrl p { c with aqa := w.2 }
  else if w.1 = 0x28 then s.setCtrl p { c with asq := w.2 }
  else if w.1 = 0x30 then s.setCtrl p { c with acq := w.2 }
  else s

/-- Register writes through a pod's window: discarded while it is not bound (R307), held while it is QUIESCED, the ninth noted
(R361). -/
def State.windowWrite (s : State) (p : Nat) (ws : List (Nat × Nat)) : State :=
  match Tab.look s.pod.pods p with
  | none => s
  | some e =>
    if !e.bound then s
    else if e.state = 4 then
      ws.foldl (fun s w =>
        let c := s.ctrl p
        if c.heldRegs.length < 8 then s.setCtrl p { c with heldRegs := c.heldRegs ++ [w] }
        else s.setCtrl p { c with ninth := true }) s
    else ws.foldl (fun s w => s.ctrlWrite p w) s

/-- CONTROLLER_ENABLE (R83): the host writes AQA, ASQ and ACQ and then CC with EN set. -/
def execControllerEnable (p cc aqa asq acq : Nat) (s : State) : Res :=
  (s.fresh.windowWrite p [(0x24, aqa), (0x28, asq), (0x30, acq), (0x14, setBits cc 0 0 1)]).done s

/-- CONTROLLER_RESET (R84): the host writes CC with EN clear. -/
def execControllerReset (p cc : Nat) (s : State) : Res :=
  (s.fresh.windowWrite p [(0x14, setBits cc 0 0 0)]).done s

/-- SHUTDOWN_NOTIFICATION (R337): the host writes CC.SHN, 1 normal or 2 abrupt. -/
def execShutdownNotification (p shn : Nat) (s : State) : Res :=
  (s.fresh.windowWrite p [(0x14, setBits (s.ctrl p).cc 15 14 shn)]).done s

/-! ### Ports and functions (R82, R84, Table 11.9) -/

/-- A pod under the reset of its port or function: its commands, tasks and queues as R86 says, then unbound and STOPPED;
pod 0 stays as it is but for its binding. -/
def State.portPod (s : State) (port cause p : Nat) : State :=
  let s := (s.podSuperseded p).resetPod p false
  let s := s.modPod p (fun e => { e with bound := false, state := if p = 0 then e.state else 1, pasid := 0, noPasid := false })
  if p = 0 then s else s.raisePod 586 cause [p, port] p

/-- A reset of kind 4 or 5 of a port. -/
def State.portReset (s : State) (kind port : Nat) : State :=
  let pods := s.boundTo port
  s.resetAsk kind port pods (fun s => pods.foldl (fun s p => s.portPod port (kind - 3) p) s)

/-- PERST_N of a port is asserted: before MOD_READY it only holds the port (R90); after, the link is down, fences of R59 in the
port's domains are lifted (Table 3.17), and the latches of Table 4.26 are cleared (R128). -/
def State.perstAssert (s : State) (port : Nat) : State :=
  if s.boot.perst.contains port then s
  else
    let s := { s with boot := { s.boot with perst := s.boot.perst ++ [port] } }
    if !s.boot.modReady ∨ !s.portOn port then s
    else
      let s := ((s.setFld HIF_LINK_STAT_STATE 0 port).setFld HIF_LINK_STAT_SPEED 0 port).setFld HIF_LINK_STAT_WIDTH 0 port
      let s := s.setFld HIF_LINK_STAT_FLIT 0 port
      let s := { s with hsf := { s.hsf with fenced := s.hsf.fenced.filter (fun t => t % 0x80 < 0x0F || 0x11 < t % 0x80) } }
      ((s.setFld SGN_TOKEN_LATCH_DEBUG 0).endWaivers (fun _ _ => true)).testDomain.portReset 4 port

/-- A port that is there, released from PERST# and powered starts training once MOD_READY is high (R82). -/
def State.startTraining (s : State) (port : Nat) : State :=
  if s.boot.modReady ∧ s.portOn port ∧ !s.boot.perst.contains port ∧ s.fld HIF_LINK_STAT_STATE port = 0 then
    s.setFld HIF_LINK_STAT_STATE 1 port
  else s

/-- PERST_N of a port is released. -/
def State.perstRelease (s : State) (port : Nat) : State :=
  ({ s with boot := { s.boot with perst := s.boot.perst.filter (fun x => x ≠ port) } }).startTraining port

/-- PERST_DEASSERT (R82). -/
def execPerstDeassert (port : Nat) (s : State) : Res := (s.fresh.perstRelease port).done s

end Sys2Proof.Machine
end

