-- ==== Sys2Proof/Machine/Pods.lean ====
section
/-!
DEFINITION. Pod commands (R349-R366), writes to Subsystem Local Memory, which carry the manager's pod commands, and the completion
of the narrower resets (R87).
-/
namespace Sys2Proof.Machine

/-! ### Blocks and their fields (Tables 11.1, 11.4) -/

/-- The named parameter bytes of each pod command: offset and length. -/
def podParams (op : Nat) : List (Nat × Nat) :=
  match op with
  | 1 => [(4, 1)]
  | 2 => [(4, 4), (8, 56)]
  | 3 => [(4, 1), (8, 4)]
  | 5 => [(4, 4)]
  | 9 => [(4, 1), (8, 4)]
  | 10 => [(4, 1), (8, 8), (16, 4)]
  | 11 => [(8, 8), (16, 4)]
  | 12 => [(4, 2), (8, 8), (16, 4), (20, 1)]
  | _ => []

/-- Every byte of a block that its command does not name is zero. -/
def podRest (op : Nat) (b : List Byte) : Bool :=
  (List.range 60).all (fun i =>
    (podParams op).any (fun r => r.1 ≤ i + 4 && i + 4 < r.1 + r.2) || b.getD (i + 4) 0#8 = 0#8)

/-- A block's form (cause 1 of Table 11.5), but for the ranges of a SET's words and an IMS vector. -/
def podForm (b : List Byte) : Bool :=
  let op := leAt b 0 1
  let f := leAt b
  b.length = 64 && 1 ≤ op && op ≤ 12 && f 1 1 = 0 && f 2 2 ≤ 4095 && podRest op b
    && (match op with
        | 1 => f 4 1 ≤ 15
        | 2 => (f 4 4 &&& (2 ^ 32 - 1 - 0xCFFC)) = 0
        | 3 => (f 4 1 &&& 0xFA) = 0 && f 8 4 < 2 ^ 20 && (!bit (f 4 1) 2 || f 8 4 = 0)
        | 5 => f 4 4 ≤ 65535
        | 9 => f 4 1 ≤ 7
        | 10 => f 4 1 ≤ 1 && f 8 8 % 4096 = 0
        | 12 => f 20 1 ≤ 1
        | _ => true)

/-- Bytes 8-63 of an entry as a pod's fields, taken over another entry's for the words a mask does not select. -/
def Pod.merge (e : Pod) (mask : Nat) (f : Nat → Nat → Nat) : Pod :=
  let on := fun (w : Nat) => bit mask w
  let e := if on 2 then { e with weight := f 8 2, ioq := f 10 2 } else e
  let e := if on 3 then { e with cmds := f 12 4 } else e
  let e := if on 4 then { e with tasks := f 16 4 } else e
  let e := if on 5 then { e with imsCount := f 22 2 } else e
  let e := if on 6 then { e with rdKiops := f 24 4 } else e
  let e := if on 7 then { e with wrKiops := f 28 4 } else e
  let e := if on 8 then { e with rdMbs := f 32 4 } else e
  let e := if on 9 then { e with wrMbs := f 36 4 } else e
  let e := if on 10 then { e with wbufPm := f 40 2, ctx := f 42 2 } else e
  let e := if on 11 then { e with prog := f 44 2, locks := f 46 2 } else e
  let e := if on 14 then { e with label := e.label / 2 ^ 32 * 2 ^ 32 + f 56 4 } else e
  if on 15 then { e with label := e.label % 2 ^ 32 + f 60 4 * 2 ^ 32 } else e

/-- Whether every field lies in its own range (Tables 11.1, 11.2). -/
def Pod.inRange (e : Pod) : Bool :=
  1 ≤ e.weight && e.weight ≤ 1000 && e.ioq ≤ 256 && 1 ≤ e.cmds && e.cmds ≤ 262144 && e.tasks ≤ 65536 && e.imsCount ≤ 2048
    && 1 ≤ e.wbufPm && e.wbufPm ≤ 1000 && e.ctx ≤ 4096 && e.prog ≤ 1024 && 1 ≤ e.locks && e.locks ≤ 32768

/-- A rate within its ceiling: 0 only where the envelope sets none. -/
def rateOk (v max : Nat) : Bool := max = 0 || (v ≠ 0 && v ≤ max)

/-- I/O queue pairs a controller holds. -/
def Ctrl.pairs (c : Ctrl) : Nat :=
  max (c.sqs.filter (fun kv => kv.1 ≠ 0)).length (c.cqs.filter (fun kv => kv.1 ≠ 0)).length

/-- Whether an entry lies within its class (R349; cause 3 of Table 11.5). -/
def State.within (s : State) (e : Pod) (pairs : Nat) : Bool :=
  let k := e.cls
  e.weight ≤ s.fld POD_ENV_W0_MAX_WEIGHT k && e.ioq ≤ s.fld POD_ENV_W1_MAX_IOQ k && pairs ≤ e.ioq
    && e.cmds ≤ s.reg POD_ENV_W2 k && e.tasks ≤ s.reg POD_ENV_W3 k && e.imsCount ≤ s.fld POD_ENV_W4_MAX_IMS k
    && e.ctx ≤ s.fld POD_ENV_W4_MAX_CTX k && e.prog ≤ s.fld POD_ENV_W5_MAX_PROG k && e.locks ≤ s.fld POD_ENV_W5_MAX_LOCKS k
    && rateOk e.rdKiops (s.reg POD_ENV_W6 k) && rateOk e.wrKiops (s.reg POD_ENV_W7 k) && rateOk e.rdMbs (s.reg POD_ENV_W8 k)
    && rateOk e.wrMbs (s.reg POD_ENV_W9 k) && e.wbufPm ≤ s.fld POD_ENV_W10_MAX_WBUF_PM k
    && e.memBytes / 0x200000 ≤ s.reg POD_ENV_W11 k

/-- Sum of a field over the pods but one. -/
def State.podSum (s : State) (but : Nat) (f : Pod → Nat) : Nat :=
  ((s.pod.pods.filter (fun kv => kv.1 ≠ but)).map (fun kv => f kv.2)).sum

/-! ### Interrupt entries (R353, R366) -/

/-- The lowest free run of n entries, none of them another pod's. -/
def State.imsRun (s : State) (p n : Nat) : Option Nat :=
  let taken := s.pod.pods.filter (fun kv => kv.1 ≠ p && kv.2.imsCount ≠ 0)
  let ok := fun (a : Nat) =>
    a + n ≤ 16384 && taken.all (fun kv => kv.2.imsBase + kv.2.imsCount ≤ a || a + n ≤ kv.2.imsBase)
  ((0 :: taken.map (fun kv => kv.2.imsBase + kv.2.imsCount)).filter ok).foldl
    (fun m a => match m with | none => some a | some b => some (min a b)) none

/-- A pod's entries move to a place of n entries; entries that both places hold keep what they held. -/
def State.imsMove (s : State) (e : Pod) (base n : Nat) : State :=
  let kept := (List.range (min n e.imsCount)).filterMap (fun v => (Tab.look s.pod.ims (e.imsBase + v)).map (fun i => (base + v, i)))
  let rest := s.pod.ims.filter (fun kv => kv.1 < e.imsBase || e.imsBase + e.imsCount ≤ kv.1)
  { s with pod := { s.pod with ims := kept.foldl (fun t kv => Tab.put t kv.1 kv.2) rest } }

/-- A pending message goes out where its entry is unmasked and its pod bound and not QUIESCED (R366). -/
def State.imsSend (s : State) (p v : Nat) : State :=
  match Tab.look s.pod.pods p with
  | none => s
  | some e =>
    match Tab.look s.pod.ims (e.imsBase + v) with
    | none => s
    | some i =>
      if i.pending ∧ !i.mask ∧ e.bound ∧ e.state ≠ 4 then
        ({ s with pod := { s.pod with ims := Tab.put s.pod.ims (e.imsBase + v) { i with pending := false } } }).emit (.msi p v i.addr i.data)
      else s

/-! ### Pod memory (R356) -/

/-- Runs of free 2 MiB units above the 64 GiB held back (log entry 76): start and length, given the ranges in use. -/
def freeRuns (stop : Nat) : List (Nat × Nat) → Nat → List (Nat × Nat)
  | [], at_ => if at_ < stop then [(at_, stop - at_)] else []
  | (b, n) :: rest, at_ => (if at_ < b then [(at_, b - at_)] else []) ++ freeRuns stop rest (max at_ (b + n))

/-- Ranges in use but one pod's one range, by rising base. -/
def State.rangesUsed (s : State) (p r : Nat) : List (Nat × Nat) :=
  let all := s.pod.pods.flatMap (fun kv => (kv.2.ranges.filter (fun x => kv.1 ≠ p || x.1 ≠ r)).map (fun x => x.2))
  (all.foldl (fun t x => if x.2 = 0 then t else Tab.put t x.1 x.2) ([] : Tab Nat))

/-- A place of n units: which free run and where in it the spec leaves open (log entry 76). -/
def State.placeUnits (s : State) (p r n : Nat) : Option Nat × State :=
  let runs := (freeRuns (s.dramEnd / 0x200000) (s.rangesUsed p r) 32768).filter (fun x => n ≤ x.2)
  let (i, s) := s.draw (max 1 runs.length)
  match runs[i]? with
  | none => (none, s)
  | some x => let (o, s) := s.draw (x.2 - n + 1); (some (x.1 + o), s)

/-- Units of 2 MiB read zero and are whole (R356). -/
def State.zeroUnits (s : State) (base n : Nat) : State :=
  let out := fun (a : Nat) => a < base * 0x200000 || (base + n) * 0x200000 ≤ a
  { s with
    mem := s.mem.filter (fun kv => out kv.1)
    dram := { s.dram with
      bad := s.dram.bad.filter (fun kv => out (kv.1 * 64))
      zeroed := s.dram.zeroed ++ ((List.range n).map (fun i => base + i)).filter (fun u => !s.dram.zeroed.contains u) } }

/-- Copy units of memory. -/
def State.copyUnits (s : State) (src dst n : Nat) : State :=
  let size := n * 0x200000
  let l := s.mem.filter (fun kv => src * 0x200000 ≤ kv.1 && kv.1 < src * 0x200000 + size)
  { s with mem := l.foldl (fun m kv => memPut m (dst * 0x200000 + (kv.1 - src * 0x200000)) kv.2) s.mem }

/-- Set a range of a pod's memory to n units: none where no free run is long enough. A range grows in place where it can. -/
def State.setRange (s : State) (p r n : Nat) : Option State :=
  match Tab.look s.pod.pods p with
  | none => none
  | some e =>
    let (base, len) := Tab.lookD e.ranges r (0, 0)
    let put := fun (s : State) (b : Nat) =>
      s.modPod p (fun e => { e with ranges := if n = 0 then Tab.del e.ranges r else Tab.put e.ranges r (b, n) })
    if n ≤ len then some (put (s.zeroUnits (base + n) (len - n)) base)
    else if len ≠ 0 ∧ base + n ≤ s.dramEnd / 0x200000 ∧ (s.rangesUsed p r).all (fun x => x.1 + x.2 ≤ base || base + n ≤ x.1) then
      some (put (s.zeroUnits (base + len) (n - len)) base)
    else
      match s.placeUnits p r n with
      | (some b, s) => some (put (((s.zeroUnits b n).copyUnits base b len).zeroUnits base len) b)
      | (none, _) => none

/-! ### Saved state (R364, R365) -/

/-- Status field of a completion entry, without its phase. -/
def cqeStatus (c : Cqe) : Nat := c.sc * 2 + c.sct * 2 ^ 9 + b2n c.dnr * 2 ^ 15

/-- Queue records: one for each submission queue with its completion queue (Table 11.10). -/
def Ctrl.queueRecords (c : Ctrl) : List (List Byte) :=
  c.sqs.map (fun kv =>
    let q := kv.2
    let x := (Tab.look c.cqs q.cqid).getD { size := 0, base := 0, vector := 0, ien := false, head := 0, tail := 0, phase := false }
    leBytes 2 kv.1 ++ leBytes 2 q.size ++ leBytes 2 q.cqid ++ leBytes 2 x.size ++ leBytes 2 x.vector ++ leBytes 8 q.base
      ++ leBytes 8 x.base ++ leBytes 2 q.head ++ leBytes 2 q.tail ++ leBytes 2 x.head ++ leBytes 2 x.tail ++ leBytes 1 q.prio
      ++ leBytes 1 (b2n x.ien) ++ leBytes 1 (b2n x.phase) ++ leBytes 3 0)

/-- The controller's 256 bytes: registers last written, four features, then requests outstanding and events pending (log entry 77). -/
def Ctrl.saved (c : Ctrl) : List Byte :=
  let regs := leBytes 20 0 ++ leBytes 4 c.cc ++ leBytes 12 0 ++ leBytes 4 c.aqa ++ leBytes 8 c.asq ++ leBytes 8 c.acq ++ leBytes 8 0
  let feats := leBytes 4 c.arb ++ leBytes 4 c.coal ++ leBytes 4 c.asyncCfg ++ leBytes 4 c.numQ
  let evs := c.aers.flatMap (fun a => leBytes 4 (2 ^ 31 + a)) ++ c.pendingEv.flatMap (fun d => leBytes 4 (d % 2 ^ 31))
  slice (regs ++ feats ++ evs) 0 256

/-- The saved state of a pod but for its memory and CRC: header and records. -/
def State.savedState (s : State) (p : Nat) (e : Pod) (mem : Bool) : List Byte :=
  let c := s.ctrl p
  let qs := c.queueRecords
  let ns := (s.nsOfPod p).map (fun k => leBytes 4 k ++ leBytes 16 (((s.nsOf k).map Ns.nguid).getD 0) ++ leBytes 4 0)
  let cq := (s.host.cqes.filter (fun x => x.pod = p)).map (fun x =>
    let hd := ((Tab.look c.sqs x.qid).map Sq.head).getD 0
    leBytes 2 x.cqid ++ leBytes 2 0 ++ leBytes 4 x.dw0 ++ leBytes 4 0 ++ leBytes 2 hd ++ leBytes 2 x.qid ++ leBytes 2 x.cid
      ++ leBytes 2 (cqeStatus x))
  let im := (List.range e.imsCount).map (fun v =>
    let i := (Tab.look s.pod.ims (e.imsBase + v)).getD ⟨0, 0, false, false⟩
    leBytes 8 i.addr ++ leBytes 4 i.data ++ leBytes 4 (b2n i.mask + 2 * b2n i.pending))
  let recs := (qs ++ ns ++ cq ++ im).flatten
  let total := 360 + recs.length + (if mem then e.memBytes else 0) + 4
  ascii "GPSV" ++ leBytes 1 1 ++ leBytes 1 (b2n mem) ++ leBytes 2 qs.length ++ leBytes 8 total ++ leBytes 16 s.otp.deviceId
    ++ leBytes 2 p ++ leBytes 1 e.cls ++ leBytes 1 0 ++ leBytes 2 ns.length ++ leBytes 2 im.length ++ leBytes 4 cq.length
    ++ leBytes 4 (e.memBytes / 0x200000) ++ (s.podEntry p).drop 8 ++ c.saved ++ recs

/-- SAVE (R364): a cause and the state, or the KiB written. -/
def State.podSave (s : State) (p : Nat) (b : List Byte) : Nat × Nat × State :=
  let mem := bit (leAt b 4 1) 0
  let off := leAt b 8 8
  let room := leAt b 16 4 * 1024
  match Tab.look s.pod.pods p, Tab.look s.pod.pods 0 with
  | some e, some z =>
    let hd := s.savedState p e mem
    let total := hd.length + (if mem then e.memBytes else 0) + 4
    if room < total ∨ z.memBytes < off + room then (9, 0, s)
    else
      let (st, body, s) := if mem then s.podLoad 0 e 0 e.memBytes (podFuel e.memBytes) else (.ok, [], s)
      let all := hd ++ slice body 0 (if mem then e.memBytes else 0)
      let out := all ++ leBytes 4 (crc32c all)
      -- a bus error in memory on the way has no cause of Table 11.5 (log entry 75)
      if st ≠ .ok then let (x, s) := s.draw 64; (x, 0, s)
      else
        match s.podStore 0 z off out (podFuel total) with
        | (.ok, s) => (0, ceilDiv total 1024, s)
        | (_, s) => let (x, s) := s.draw 64; (x, 0, s)
  | _, _ => (2, 0, s)

/-- The saved queues of a controller, from their records. -/
def restoreQueues (d : List Byte) (n : Nat) (c : Ctrl) : Ctrl :=
  (List.range n).foldl (fun c i =>
    let f := fun (o k : Nat) => leAt d (360 + 40 * i + o) k
    let q : Sq := { size := f 2 2, base := f 10 8, cqid := f 4 2, prio := f 34 1, head := f 26 2, tail := f 28 2 }
    let x : Cq :=
      { size := f 6 2, base := f 18 8, vector := f 8 2, ien := f 35 1 = 1, head := f 30 2, tail := f 32 2, phase := f 36 1 = 1 }
    { c with sqs := Tab.put c.sqs (f 0 2) q, cqs := Tab.put c.cqs (f 4 2) x }) c

/-- The saved controller. -/
def restoreCtrl (d : List Byte) (c : Ctrl) : Ctrl :=
  let f := fun (o k : Nat) => leAt d (104 + o) k
  let evs := (List.range 44).map (fun i => f (80 + 4 * i) 4)
  restoreQueues d (leAt d 6 2)
    { c with cc := f 0x14 4, aqa := f 0x24 4, asq := f 0x28 8, acq := f 0x30 8, arb := f 64 4, coal := f 68 4, asyncCfg := f 72 4,
             numQ := f 76 4, rdy := bit (f 0x14 4) 0, aers := (evs.filter (fun w => bit w 31)).map (fun w => w % 2 ^ 31),
             pendingEv := evs.filter (fun w => w ≠ 0 && !bit w 31) }

/-- Whether a namespace of a saved state is there and attachable to a pod (cause 8). -/
def State.savedNsOk (s : State) (p nsid guid : Nat) : Bool :=
  match s.nsOf nsid with
  | none => false
  | some n => n.nguid = guid && (n.pods.contains p || (s.attachBad n false p).isNone)

/-- Namespace records of a saved state: NSID and NGUID. -/
def savedNs (d : List Byte) : List (Nat × Nat) :=
  (List.range (leAt d 36 2)).map (fun i => let o := 360 + 40 * leAt d 6 2 + 24 * i; (leAt d o 4, leAt d (o + 4) 16))

/-- A pod's host ring is cleared, when the pod is removed or restored (R492). -/
def State.ringCleared (s : State) (p : Nat) : State :=
  s.modEvt (fun e => { e with hostRing := Tab.del e.hostRing p, noticed := e.noticed.filter (fun x => x ≠ p) })

/-- RESTORE's effects in their order (R365); none where memory has no free run. -/
def State.podRestored (s : State) (p : Nat) (e : Pod) (d : List Byte) (base : Nat) : Option State :=
  let old := Tab.lookD s.pod.pods p e
  let s := (s.ringCleared p).imsMove old base e.imsCount
  let s := s.modPod p (fun _ => { e with imsBase := base, state := 4, bound := false, ranges := old.ranges })
  let units := leAt d 44 4
  let drop := (old.ranges.map (fun x => x.1)).foldl (fun (s : State) r => (s.setRange p r 0).getD s) s
  match (if units = 0 then some drop else drop.setRange p 0 units) with
  | none => none
  | some s =>
    let nns := savedNs d
    let ncq := leAt d 40 4
    let nim := leAt d 38 2
    let cqAt := 360 + 40 * leAt d 6 2 + 24 * nns.length
    let imAt := cqAt + 20 * ncq
    let memAt := imAt + 16 * nim
    let s := if bit (leAt d 5 1) 0 then (s.podStore 0 (Tab.lookD s.pod.pods p e) 0 (slice d memAt (units * 0x200000)) (podFuel (units * 0x200000))).2
             else s
    let s := nns.foldl (fun s x => s.modNs x.1 (fun n => { n with pods := podsOf (p :: n.pods) })) s
    let s := s.countNs p
    let s := s.setCtrl p (restoreCtrl d (s.ctrl p))
    let cq := (List.range ncq).map (fun i =>
      let f := fun (o k : Nat) => leAt d (cqAt + 20 * i + o) k
      (⟨p, f 0 2, f 14 2, f 16 2, f 18 2 / 2 ^ 9 % 8, f 18 2 / 2 % 256, bit (f 18 2) 15, f 4 4⟩ : Cqe))
    let s := s.modHost (fun h => { h with cqes := h.cqes ++ cq })
    some ((List.range nim).foldl (fun s i =>
      let f := fun (o k : Nat) => leAt d (imAt + 16 * i + o) k
      { s with pod := { s.pod with ims := Tab.put s.pod.ims (base + i) ⟨f 0 8, f 8 4, bit (f 12 4) 0, bit (f 12 4) 1⟩ } }) s)

/-- RESTORE (R365): its checks in order, then its effects. -/
def State.podRestore (s : State) (p : Nat) (b : List Byte) : Nat × State :=
  let off := leAt b 8 8
  let room := leAt b 16 4 * 1024
  match Tab.look s.pod.pods p, Tab.look s.pod.pods 0 with
  | some old, some z =>
    if z.memBytes < off + room then (9, s)
    else
      match s.podLoad 0 z off room (podFuel room) with
      | (.ok, d, s1) =>
        let total := leAt d 8 8
        let body := d.take (total - 4)
        if slice d 0 4 ≠ ascii "GPSV" ∨ leAt d 4 1 ≠ 1 ∨ total < 364 ∨ room < total ∨ leAt d (total - 4) 4 ≠ crc32c body then (7, s1)
        else
          let f := fun (o k : Nat) => leAt d (40 + o) k
          let e := { old.merge 0xCFFC f with cls := leAt d 34 1 }
          let units := leAt d 44 4
          let sized := { e with ranges := if units = 0 then [] else [(0, (0, units))] }
          if 15 < e.cls ∨ s1.fld POD_ENV_W0_MAX_WEIGHT e.cls = 0 ∨ !e.inRange ∨ !s1.within sized 0 then (3, s1)
          else if 16384 < s1.podSum p Pod.ioq + e.ioq ∨ 16384 < s1.podSum p Pod.imsCount + e.imsCount
              ∨ s1.mapBudget < s1.mapUsed 0 + s1.podSum p Pod.memBytes + units * 0x200000 then (4, s1)
          else if !(savedNs d).all (fun x => s1.savedNsOk p x.1 x.2) then (8, s1)
          else
            (match s1.imsRun p e.imsCount with
             | none => (4, s1)
             | some base =>
               (match s1.podRestored p e d base with
                | none => (4, s1)
                | some s2 => (0, s2.raisePod 584 7 [p] p)))
      | (_, _, s1) => let (x, s1) := s1.draw 64; (x, s1)
  | _, _ => (2, s)

/-! ### The commands (Table 11.4) -/

/-- A pod as CREATE makes it (R351). -/
def State.newPod (s : State) (k : Nat) : Pod :=
  { Pod.zero with
    state := 1, cls := k, bound := false, noPasid := false, weight := min 100 (s.fld POD_ENV_W0_MAX_WEIGHT k), ioq := 0,
    cmds := s.reg POD_ENV_W2 k, tasks := s.reg POD_ENV_W3 k, imsCount := 0, rdKiops := s.reg POD_ENV_W6 k,
    wrKiops := s.reg POD_ENV_W7 k, rdMbs := s.reg POD_ENV_W8 k, wrMbs := s.reg POD_ENV_W9 k,
    wbufPm := s.fld POD_ENV_W10_MAX_WBUF_PM k, ctx := s.fld POD_ENV_W4_MAX_CTX k, prog := s.fld POD_ENV_W5_MAX_PROG k,
    locks := s.fld POD_ENV_W5_MAX_LOCKS k, tokensAt := s.time }

/-- SET (R353): the cause of its refusal, or the state. -/
def State.podSet (s : State) (p : Nat) (e : Pod) (b : List Byte) : Nat × State :=
  let mask := leAt b 4 4
  let n := e.merge mask (leAt b)
  let moves := n.imsCount ≠ e.imsCount
  if !n.inRange then (1, s)
  else if moves ∧ e.state ≠ 1 ∧ e.state ≠ 4 then (2, s)
  else if !s.within n (s.ctrl p).pairs then (3, s)
  else if 16384 < s.podSum p Pod.ioq + n.ioq ∨ 16384 < s.podSum p Pod.imsCount + n.imsCount then (4, s)
  else
    match (if moves then s.imsRun p n.imsCount else some e.imsBase) with
    | none => (4, s)
    | some base =>
      let s := if moves then s.imsMove e base n.imsCount else s
      let nw := if n.weight = e.weight then e.newWeight else e.newWeight.map (fun w => match w with | none => some e.weight | x => x)
      (0, s.modPod p (fun _ => { n with imsBase := base, newWeight := nw }))

/-- Whether another pod is in the way of a binding (cause 5, R355). -/
def State.pasidUsed (s : State) (p port pasid : Nat) (noPasid : Bool) : Bool :=
  (noPasid && port = 0) || s.pod.pods.any (fun kv => kv.1 ≠ p && kv.2.bound && kv.2.port = port
    && (if noPasid then kv.2.noPasid else !kv.2.noPasid && kv.2.pasid = pasid))

/-- RESUME (R361): held register writes in order, the ninth's effect, held interrupts, then fetch. -/
def State.podResume (s : State) (p : Nat) : State :=
  let c := s.ctrl p
  let s := s.modPod p (fun e => { e with state := 2 })
  let s := s.setCtrl p { c with heldRegs := [], ninth := false, cfs := c.cfs || c.ninth }
  let s := c.heldRegs.foldl (fun s w => s.ctrlWrite p w) s
  let s := match Tab.look s.pod.pods p with
    | none => s
    | some e =>
      let s := e.pendVec.foldl (fun (s : State) v => s.emit (.msix p v)) s
      let s := s.modPod p (fun e => { e with pendVec := [] })
      (List.range e.imsCount).foldl (fun s v => s.imsSend p v) s
  s.raisePod 584 4 [p] p

/-- IMS (R366): the cause, or the state. -/
def State.podIms (s : State) (p : Nat) (e : Pod) (b : List Byte) : Nat × State :=
  let v := leAt b 4 2
  if e.imsCount ≤ v then (1, s)
  else
    let old := (Tab.look s.pod.ims (e.imsBase + v)).map Ims.pending
    let i : Ims := ⟨leAt b 8 8, leAt b 16 4, bit (leAt b 20 1) 0, old.getD false⟩
    (0, ({ s with pod := { s.pod with ims := Tab.put s.pod.ims (e.imsBase + v) i } }).imsSend p v)

/-- MEM (R350, R356): the cause and the state, or the new MEM. -/
def State.podMem (s : State) (p : Nat) (e : Pod) (b : List Byte) : Nat × Nat × State :=
  let r := leAt b 4 1
  let n := leAt b 8 4
  let old := (Tab.lookD e.ranges r (0, 0)).2
  let mem := e.memBytes / 0x200000 - old + n
  if n < old ∧ e.state ≠ 1 ∧ e.state ≠ 4 then (2, 0, s)
  else if s.reg POD_ENV_W11 e.cls < mem then (3, 0, s)
  else if s.mapBudget < s.mapUsed 0 + s.podSum p Pod.memBytes + mem * 0x200000 then (4, 0, s)
  else
    match s.setRange p r n with
    | none => (4, 0, s)
    | some s => (0, mem, s)

/-- RESET or REMOVE begins (R362): reset kind 7; it ends with RESET_COMPLETE. -/
def State.podResetBegin (s : State) (p st : Nat) (b : PodBy) : State :=
  let s := s.podSuperseded p
  let s := s.resetAsk 7 p [p] (fun s => s.resetPod p false)
  s.modPod p (fun e => { e with state := st, by_ := some b })

/-- Whether a command is allowed in a pod's state (Table 11.4, R354); 0 is FREE. -/
def podAllowed (op st : Nat) (bound : Bool) : Bool :=
  match op with
  | 1 => st = 0
  | 2 => st ≠ 0 && st ≠ 6
  | 3 => st = 1 || (st = 4 && !bound)
  | 4 => st = 4 && bound
  | 5 => st = 2 || st = 3
  | 6 => st = 4 && bound
  | 7 => st = 2 || st = 4 || st = 3
  | 8 => st ≠ 0 && st ≠ 6
  | 9 => st ≠ 0 && st ≠ 6
  | 10 => st = 4
  | 11 => st = 1
  | 12 => st ≠ 0 && st ≠ 6
  | _ => false

/-- Perform a pod command whose block is in form on a pod in an allowed state: it ends, or goes on until a later command. -/
def State.podPerform (s : State) (by_ : PodBy) (p op : Nat) (e : Pod) (b : List Byte) : State :=
  let fin := fun (r : Nat × State) => r.2.podEnd by_ p op r.1 0
  match op with
  | 1 =>
    if s.fld POD_ENV_W0_MAX_WEIGHT (leAt b 4 1) = 0 then fin (3, s)
    else fin (0, ({ s with pod := { s.pod with pods := Tab.put s.pod.pods p (s.newPod (leAt b 4 1)) } }).raisePod 584 1 [p] p)
  | 2 => fin (s.podSet p e b)
  | 3 =>
    let w := leAt b 4 1
    if w % 2 = 1 ∧ !s.portOn 1 then fin (1, s)
    else if s.pasidUsed p (w % 2) (leAt b 8 4) (bit w 2) then fin (5, s)
    else fin (0, (s.modPod p (fun e => { e with
      bound := true, port := w % 2, noPasid := bit w 2, pasid := leAt b 8 4, state := if e.state = 1 then 2 else e.state })).raisePod 584 2 [p] p)
  | 4 => fin (0, (s.modPod p (fun e => { e with bound := false, noPasid := false, pasid := 0 })).raisePod 584 8 [p] p)
  | 5 =>
    if e.state = 3 then s.modPod p (fun e => { e with waiters := e.waiters ++ [by_] })
    else s.modPod p (fun e => { e with
      state := 3, graceMs := leAt b 4 4, quiesceAt := s.time, graceOver := false, waiters := [by_] })
  | 6 => fin (0, s.podResume p)
  | 7 => s.podResetBegin p 5 by_
  | 8 => s.podResetBegin p 6 by_
  | 9 => let (c, v, s) := s.podMem p e b; s.podEnd by_ p op c v
  | 10 => let (c, v, s) := s.podSave p b; s.podEnd by_ p op c v
  | 11 => fin (s.podRestore p b)
  | _ => fin (s.podIms p e b)

/-- One pod command with its checks (R352-R354, Table 11.5). -/
def State.podCommand (s : State) (by_ : PodBy) (b : List Byte) : State :=
  let op := leAt b 0 1
  let p := leAt b 2 2
  if !podForm b then s.podEnd by_ p op 1 0
  else if p = 0 ∧ [1, 3, 4, 5, 7, 8, 10, 11].contains op then s.podEnd by_ p op 6 0
  else
    let e := Tab.lookD s.pod.pods p Pod.zero
    let st := if Tab.has s.pod.pods p then e.state else 0
    if !podAllowed op st e.bound then s.podEnd by_ p op 2 0 else s.podPerform by_ p op e b

/-- Pod commands under way: quiesces, resets and removals. -/
def State.podRunning (s : State) : Nat := (s.pod.pods.map (fun kv => kv.2.waiters.length + b2n kv.2.by_.isSome)).sum

/-- Commands that waited because 16 ran are performed as others end (R352). -/
def State.podNext (s : State) : Nat → State
  | 0 => s
  | n + 1 =>
    match s.pod.waiting with
    | [] => s
    | w :: rest =>
      if 16 ≤ s.podRunning then s
      else (({ s with pod := { s.pod with waiting := rest } }).podCommand w.1 w.2).podNext n

/-- Commands that wait go on. -/
def State.podGo (s : State) : State := s.podNext s.pod.waiting.length

/-- A pod command arrives: at most 16 run at once (R352). -/
def State.podSubmit (s : State) (by_ : PodBy) (b : List Byte) : State :=
  if 16 ≤ s.podRunning ∨ !s.pod.waiting.isEmpty then { s with pod := { s.pod with waiting := s.pod.waiting ++ [(by_, b)] } }
  else (s.podCommand by_ b).podGo

/-- Memory Write (R352, R356). -/
def State.slmWrite (s : State) (c : HostCmd) : State :=
  let s := s.begin c 0 .started none
  let n := c.cdw12
  if c.nsid = 0xFFFF ∧ c.pod = 0 then
    if slmAt c ≠ 0 ∨ n ≠ 64 then s.failG c 0x02
    else if c.xfer ≠ .ok then s.failXfer c c.xfer
    else s.podSubmit (.cmd (HostCmdRef c)) (slice c.data 0 64)
  else if c.nsid ≠ slmNs c.pod then s.failG c 0x0B
  else if 2097152 < n then s.failG c 0x02
  else if s.slmSize c.pod < slmAt c + n then s.failG c 0x80
  else if c.xfer ≠ .ok then s.failXfer c c.xfer
  else
    match Tab.look s.pod.pods c.pod with
    | none => s.failG c 0x0B
    | some p =>
      match s.podStore 0x60 p (slmAt c) (slice c.data 0 n) (podFuel n) with
      | (.ok, s) => s.succeed c
      | (_, s) => s.slmFail c

/-- SLM_MEMORY_WRITE (R321). -/
def execSlmMemoryWrite (c : HostCmd) (s : State) : Res := (s.fresh.ioCmd .memWrite c (fun s => s.slmWrite c)).done s

/-- A pod command of firmware: the block at an address, its operation byte given or its own. -/
def State.podFw (s : State) (r : Req) (addr : Nat) (op : Option Nat) : State :=
  let s := { s with pod := { s.pod with cmdRes := Tab.put s.pod.cmdRes r.master (3 * 2 ^ 30) } }
  match s.load r addr 64 with
  | (.ok, b, s) => s.podSubmit (.fw r.master) (match op with | some o => leBytes 1 o ++ b.drop 1 | none => b)
  | (_, _, s) => s.podEnd (.fw r.master) 0 (op.getD 0) 1 0

/-- A pod command by the operation its row names: a Memory Write of its block to the pod control namespace (R352), or a write of
the block's address to POD_CMD_HI (R353). A block that cannot be read is taken as malformed (log entry 78). -/
def State.podVia (s : State) (op : Nat) (f : PodFrom) : State :=
  let named := fun (b : List Byte) => leBytes 1 op ++ b.drop 1
  match f with
  | .host c =>
    let c := { c with nsid := 0xFFFF, cdw10 := 0, cdw11 := 0, cdw12 := 64, data := named (slice c.data 0 64) }
    s.ioCmd .memWrite c (fun s => s.slmWrite c)
  | .fw r addr =>
    s.atRegW r (POD_CMD_HI.key 0 0) (fun s => s.podFw r addr (some op))

/-- POD_CREATE (R353). -/
def execPodCreate (f : PodFrom) (s : State) : Res := (s.fresh.podVia 1 f).done s

/-- POD_SET (R353). -/
def execPodSet (f : PodFrom) (s : State) : Res := (s.fresh.podVia 2 f).done s

/-- POD_BIND (R355). -/
def execPodBind (f : PodFrom) (s : State) : Res := (s.fresh.podVia 3 f).done s

/-- POD_UNBIND (R353). -/
def execPodUnbind (f : PodFrom) (s : State) : Res := (s.fresh.podVia 4 f).done s

/-- POD_QUIESCE (R361). -/
def execPodQuiesce (f : PodFrom) (s : State) : Res := (s.fresh.podVia 5 f).done s

/-- POD_RESUME (R361). -/
def execPodResume (f : PodFrom) (s : State) : Res := (s.fresh.podVia 6 f).done s

/-- POD_RESET (R362). -/
def execPodReset (f : PodFrom) (s : State) : Res := (s.fresh.podVia 7 f).done s

/-- POD_REMOVE (R362). -/
def execPodRemove (f : PodFrom) (s : State) : Res := (s.fresh.podVia 8 f).done s

/-- POD_MEM (R356). -/
def execPodMem (f : PodFrom) (s : State) : Res := (s.fresh.podVia 9 f).done s

/-- POD_SAVE (R364). -/
def execPodSave (f : PodFrom) (s : State) : Res := (s.fresh.podVia 10 f).done s

/-- POD_RESTORE (R365). -/
def execPodRestore (f : PodFrom) (s : State) : Res := (s.fresh.podVia 11 f).done s

/-- POD_IMS (R366). -/
def execPodIms (f : PodFrom) (s : State) : Res := (s.fresh.podVia 12 f).done s

/-! ### Quiesce (R361, Table 11.8) -/

/-- GRACE_MS have passed (step 3): running scans and unreleased tasks of the pod are cancelled. -/
def State.graceExpiry (s : State) (p : Nat) : State :=
  match Tab.look s.pod.pods p with
  | none => s
  | some e =>
    if e.state ≠ 3 ∨ e.graceOver then s
    else
      let jobs := (s.scn.jobs.filter (fun kv => kv.2.pod = p)).map (fun kv => kv.1)
      let held := s.scn.held.filter (fun h => h.1.pod = p)
      let n := jobs.length + held.length + (s.tsk.tasks.filter (fun kv => kv.2.pod = p)).length
      let s := (s.notBefore (e.quiesceAt + e.graceMs * 1000000)).modPod p (fun e => { e with graceOver := true })
      let s := s.modScn (fun x => { x with held := x.held.filter (fun h => h.1.pod ≠ p) })
      let s := held.foldl (fun s h => s.endCmd h.1 0 0x07 false 0) s
      let s := jobs.foldl (fun s j => s.endJob j 0x16 0) s
      let s := (s.cancelPod p false).scanGo
      if n = 0 then s else s.raisePod 587 1 [p, n] p

/-- POD_GRACE_EXPIRY (R361). -/
def execPodGraceExpiry (p : Nat) (s : State) : Res := (s.fresh.graceExpiry p).done s

/-- Whether a pod has drained (steps 2 to 5): no task or scan, every command but Asynchronous Event Requests completed and posted
unless its queue is full, and its writes durable. -/
def State.drained (s : State) (p : Nat) : Bool :=
  let c := s.ctrl p
  let stuck := fun (o : OutCmd) => s.host.cqes.any (fun q =>
    q.pod = p && q.qid = o.qid && q.cid = o.cid && ((Tab.look c.cqs q.cqid).map Cq.full).getD true)
  !s.tsk.tasks.any (fun kv => kv.2.pod = p) && !s.scn.jobs.any (fun kv => kv.2.pod = p)
    && (s.host.out.filter (fun o => o.pod = p && o.counts)).all (fun o => (o.qid = 0 && c.aers.contains o.cid) || stuck o)
    && s.flushed { cmd := none, pod := p, upTo := s.ftl.wnext, recs := ((Tab.look s.pod.pods p).map Pod.recMark).getD 0, ns := none }

/-- The pod becomes QUIESCED (step 5 ends). -/
def State.quiesceEnd (s : State) (p : Nat) : State :=
  match Tab.look s.pod.pods p with
  | none => s
  | some e =>
    if e.state ≠ 3 ∨ !s.drained p then s
    else
      let s := (s.modPod p (fun e => { e with state := 4, waiters := [] })).raisePod 584 3 [p] p
      (e.waiters.foldl (fun s b => s.podEnd b p 5 0 ((s.time - e.quiesceAt) / 1000000)) s).podGo

/-- POD_QUIESCE_COMPLETE (R361). -/
def execPodQuiesceComplete (p : Nat) (s : State) : Res := (s.fresh.quiesceEnd p).done s

/-! ### Resets of kind 4 to 7 end (R87) -/

/-- Steps 2 to 6 of a removal (R362). -/
def State.podGone (s : State) (p : Nat) : State :=
  let s := (s.nsOfPod p).foldl (fun s k => s.modNs k (fun n => { n with pods := n.pods.filter (fun x => x ≠ p) })) s
  let s := ((s.tsk.progs.filter (fun kv => kv.2.pod = p && !kv.2.unloading)).map (fun kv => kv.1)).foldl (fun s h => s.unloadHandle h false) s
  let s := s.modTsk (fun t => { t with vines := t.vines.filter (fun kv => kv.2.pod ≠ p), deficit := Tab.del t.deficit p })
  let s := s.ctxsFree (fun c => isCore c.owner && c.pod = p)
  let s := s.modHost (fun h => { h with
    progs := h.progs.filter (fun kv => kv.1 / 65536 ≠ p), loads := h.loads.filter (fun kv => kv.1 / 65536 ≠ p)
    absentScans := h.absentScans.filter (fun k => k / 65536 ≠ p)
    rangeSets := h.rangeSets.filter (fun kv => kv.1 / 65536 ≠ p), activated := h.activated.filter (fun k => k / 65536 ≠ p)
    ctrls := Tab.del h.ctrls p, deficit := Tab.del h.deficit p })
  let s := s.ringCleared p
  match Tab.look s.pod.pods p with
  | none => s
  | some e =>
    let s := s.imsMove e 0 0
    let s := (e.ranges.map (fun x => x.2)).foldl (fun s x => s.zeroUnits x.1 x.2) s
    { s with pod := { s.pod with pods := Tab.del s.pod.pods p } }

/-- Whether every write a reset makes durable has been journalled. -/
def State.resetDurable (s : State) (r : ResetRun) : Bool :=
  r.writes.all (fun c => !s.host.out.any (fun o => o.mute && o.pod = c.pod && o.qid = c.qid && o.cid = c.cid)
    && !s.ftl.wbuf.any (fun w => w.cmd = c))

/-- A reset of kind 4 to 7 is reported complete (R87, R94). -/
def State.resetEnd (s : State) (r : ResetRun) : State :=
  let s := { s with boot := { s.boot with resets := s.boot.resets.filter (fun x => x ≠ r) } }.raise 7 r.kind [r.subject]
  let s :=
    if r.kind ≤ 5 then
      if r.pods.contains 0 then (s.modPod 0 (fun e => { e with bound := true, noPasid := true })).ctrlReady 0 else s
    else
      let p := r.subject
      let s := if r.kind = 6 then (s.setCtrl p { s.ctrl p with rdy := false }).ctrlReady p else s
      match Tab.look s.pod.pods p with
      | none => s
      | some e =>
        if e.state = 5 then
          let s := s.modPod p (fun e => { e with state := if e.bound then 2 else 1, by_ := none })
          let s := (s.raisePod 584 5 [p] p).ctrlReady p
          match e.by_ with
          | some b => s.podEnd b p 7 0 0
          | none => s
        else if e.state = 6 then
          let s := (s.podGone p).raisePod 584 6 [p] p
          match e.by_ with
          | some b => s.podEnd b p 8 0 0
          | none => s
        else s
  s.podGo.nsGo

/-- RESET_COMPLETE (R87): of the reset of a kind and subject. -/
def execResetComplete (kind subject : Nat) (s : State) : Res :=
  (match s.boot.resets.find? (fun (r : ResetRun) => r.kind = kind && r.subject = subject && 4 ≤ r.kind) with
   | some r => if s.resetDurable r then s.fresh.resetEnd r else s.fresh
   | none => s.fresh).done s

/-- PERST_ASSERT (R84). -/
def execPerstAssert (port : Nat) (s : State) : Res := (s.fresh.perstAssert port).podGo.done s

/-- FUNCTION_LEVEL_RESET (R84). -/
def execFunctionLevelReset (port : Nat) (s : State) : Res :=
  (if s.portOn port ∧ s.boot.modReady then (s.fresh.portReset 5 port).podGo else s.fresh).done s

end Sys2Proof.Machine
end

