-- ==== Sys2Proof/Machine/PowerOps.lean ====
section
/-!
DEFINITION. Operations of the power unit and control engine that several commands share (chapter 13): power domains and what
their units do when they go and come, flash power groups, rails and ceilings, the hold-up registers.
-/
namespace Sys2Proof.Machine

/-- Change the power state. -/
def State.modPwr (s : State) (f : PwrState → PwrState) : State := { s with pwr := f s.pwr }

/-! ### Power domains (R410-R413, Table 13.10) -/

/-- Whether a domain has a unit that is present (Table 0.2). -/
def domPresent (p : Part) (d : Nat) : Bool :=
  if d < 2 then true
  else if d < 10 then d - 2 < Config.cobCount p
  else if d < 16 then d - 10 < Config.drcCount p
  else if d < 24 then 4 * (d - 16) < Config.fchCount p
  else if d < 28 then 8 * (d - 24) < Config.scnEngines p
  else if d < 30 then 8 * (d - 28) < Config.cmpPipes p
  else if d < 33 then true
  else if d < 35 then d - 33 < Config.askPorts p
  else d < 40

/-- Set the bit of a domain in a pair of registers. -/
def State.setDomBit (s : State) (lo hi : RegId) (d : Nat) (on : Bool) : State :=
  if d < 32 then s.putReg lo (setBits (s.reg lo) d d (b2n on)) else s.putReg hi (setBits (s.reg hi) (d - 32) (d - 32) (b2n on))

/-- The bit of a domain in PWR_DOM_REQ. -/
def State.domReq (s : State) (d : Nat) : Bool :=
  if d < 32 then bit (s.reg PWR_DOM_REQ_0) d else bit (s.reg PWR_DOM_REQ_1) (d - 32)

/-- Set the bit of a domain in PWR_DOM_REQ. -/
def State.setReq (s : State) (d : Nat) (on : Bool) : State := s.setDomBit PWR_DOM_REQ_0 PWR_DOM_REQ_1 d on

/-- Set the bit of a domain in PWR_DOM_STAT. -/
def State.setStat (s : State) (d : Nat) (on : Bool) : State := s.setDomBit PWR_DOM_STAT_0 PWR_DOM_STAT_1 d on

/-- The bits of a register that the applied configuration gives it (R77, R413). -/
def rwlMask (key : Nat) : Nat := ((findRow (key / 0x100000) (key % 0x100000)).map (fun r => r.rwl)).getD 0

/-- A register with its RWL bits kept and its other bits at reset. -/
def keepRwl (p : Part) (key : Nat) (v : Word) : Nat :=
  let m := rwlMask key
  (v.toNat &&& m) ||| (resetOf p key &&& ((2 ^ 32 - 1) - m))

/-- Registers that satisfy p start from their reset values, with the configuration applied to them (R413). -/
def State.restartRegs (s : State) (p : Nat → Bool) : State :=
  { s with regs := (s.regs.filter (fun kv => !p kv.1 || keepRwl s.part kv.1 kv.2 ≠ resetOf s.part kv.1)).map (fun kv =>
      if p kv.1 then (kv.1, BitVec.ofNat 32 (keepRwl s.part kv.1 kv.2)) else kv) }

/-- The domains of a target that can be fenced: a register window or an engine's data port (R59). -/
def targetDomains (t : Nat) : List Nat :=
  if t < 0x40 then regDomains t 0
  else if t = 0x80 + 0x13 then [28, 29]
  else if t = 0x80 + 0x11 then [30, 31]
  else regDomains (t - 0x80) 0

/-- Fences of targets whose domains are off are lifted (R59). -/
def State.liftFences (s : State) : State :=
  { s with hsf := { s.hsf with fenced := s.hsf.fenced.filter (fun t => (targetDomains t).isEmpty || (targetDomains t).any (fun d => s.domOn d)) } }

/-- A compression or decompression pipe loses power: its units wait for another pipe, its stream jobs go to one of their kind, or
end ABORTED when none is powered (Table 13.10, R223). -/
def State.pipeOff (s : State) (p : Nat) : State :=
  let x := s.pipe p
  if x.units.isEmpty ∧ x.jobs.isEmpty then s
  else
    let s := s.putPipe p ⟨if p < 32 then [] else x.units, [], []⟩
    let s := if p < 32 then x.units.foldl (fun s id => s.modWb id (fun w => { w with step := 0 })) s else s
    let s := x.jobs.foldl (fun s j =>
      match s.jobPipe (if p < 32 then 1 else 2) with
      | some (some q) =>
        let y := s.pipe q
        (s.putPipe q { y with jobs := y.jobs ++ [j] }).countJobs q
      | _ => s.jobEnd p j 0x16 0 0 0 0) s
    s.feedPipes

/-- What the units of a domain do when it is switched off (R172, R271, R292, R413). -/
def State.unitsOff (s : State) (d : Nat) : State :=
  if 2 ≤ d ∧ d < 10 then ((s.cobOff (d - 2)).ctxsFree (fun c => isCore c.owner && (c.owner - 0x10) / 8 = d - 2)).setFld CLE_STAT_STATE 0 (d - 1)
  else if 16 ≤ d ∧ d < 24 then
    let k := d - 16
    let s := s.modFlash (fun f => { f with luns := Tab.mapVals (fun i l =>
      if i / 256 = k then { l with groups := [], queue := [], running := none, suspended := none, features := [] } else l) f.luns })
    (List.range 4).foldl (fun s j => s.pipeOff (32 + 4 * k + j)) s
  else if d = 28 ∨ d = 29 then (List.range 8).foldl (fun s j => s.pipeOff (8 * (d - 28) + j)) s
  else if d = 33 ∨ d = 34 then
    (if s.fld ASK_PORT_STAT_STATE (d - 33) = 2 then s.raise 656 2 [d - 33] else s).setFld ASK_PORT_STAT_STATE 3 (d - 33)
  else if d = 39 then s.debugClose
  else s

/-- Registers and fences of a domain that is off (R59, R413); those shared with a domain still on stay. -/
def State.domRegs (s : State) (d : Nat) : State :=
  let s := { s with hiLatch := s.hiLatch.filter (fun kv =>
    let k := kv.1 % 0x4000000
    !(regDomains (k / 0x100000) (k % 0x100000)).contains d) }
  (s.restartRegs (fun key =>
    let ds := regDomains (key / 0x100000) (key % 0x100000)
    ds.contains d && !ds.any (fun e => s.domOn e))).liftFences

/-- A domain that is on is off from here on (R412, R413). -/
def State.domOff (s : State) (d : Nat) : State :=
  if !s.domOn d ∧ !s.pwr.isolating.contains d then s
  else
    let s := s.modPwr (fun w => { w with isolating := w.isolating.filter (fun x => x ≠ d), upping := w.upping.filter (fun x => x ≠ d) })
    let s := (s.setStat d false).unitsOff d
    let s := if 2 ≤ d ∧ d < 10 then s.setFld HSF_SPD_FACTOR 0 (d - 2) else s
    (s.domRegs d).raise 101 2 [d]

/-- What the units of a domain do when it is on. -/
def State.unitsOn (s : State) (d : Nat) : State :=
  if 2 ≤ d ∧ d < 10 then s.dispatch
  else if 16 ≤ d ∧ d < 24 then
    (List.range 4).foldl (fun s j =>
      let n := 4 * (d - 16) + j
      if s.flash.luns.any (fun kv => kv.1 / 64 = n) then s.chanStatus n else s) s
  else if 24 ≤ d ∧ d < 28 then s.scanGo
  else if d = 28 ∨ d = 29 then s.feedPipes
  else s

/-- A domain is on from here on (R412). -/
def State.domUp (s : State) (d : Nat) : State :=
  let s := s.modPwr (fun w => { w with upping := w.upping.filter (fun x => x ≠ d), isolating := w.isolating.filter (fun x => x ≠ d) })
  ((s.setStat d true).unitsOn d).raise 101 1 [d]

/-- A domain of a present unit is requested and on at once: what a start does (R411). -/
def State.domStart (s : State) (d : Nat) : State :=
  if !domPresent s.part d ∨ s.domOn d then s.setReq d (domPresent s.part d) else (s.setReq d true).domUp d

/-! ### Flash power groups (R414, R415) -/

/-- Flash power groups of a part: two for each flash group. -/
def fpgCount (p : Part) : Nat := Config.fchCount p / 2

/-- Groups asked for and off start their load test, four at most at once. -/
def State.fpgTests (s : State) : State :=
  (List.range (fpgCount s.part)).foldl (fun s g =>
    let busy := ((List.range 16).filter (fun k => s.fld PWR_FPG_STAT_STATE k = 1)).length
    if bit (s.fld PWR_FPG_CTRL_ON) g ∧ s.fld PWR_FPG_STAT_STATE g = 0 ∧ busy < 4 then
      (s.setFld PWR_FPG_STAT_STATE 1 g).stamp (.loadTest g)
    else s) s

/-- The LUNs of a group that is not ON end what they run and hold queued with LUN_UNAVAILABLE (R141, R415); whoever waits for a read of theirs
learns that it is lost. -/
def State.groupGone (s : State) (g : Nat) : State :=
  (s.groupLuns g).foldl (fun s i =>
    match s.lun i with
    | none => s
    | some l =>
      let ops := l.running.toList ++ l.suspended.toList ++ l.queue
      let s := s.putLun i { l with running := none, suspended := none, queue := [], resetting := none }
      let s := s.modFlash (fun f => { f with reserve := Tab.del f.reserve g })
      let s := ops.foldl (fun s o => (s.opEnd i o 0x14 0 0 0).ownerLost o) s
      s.lostReads i) s

/-- A draining group whose current is zero opens its switches (R415). -/
def State.fpgDrained (s : State) (g : Nat) : State :=
  if s.fld PWR_FPG_STAT_STATE g = 6 ∧ s.groupUse g = 0 then ((s.groupGone g).setFld PWR_FPG_STAT_STATE 0 g).fpgTests else s

/-! ### Rails and ceilings (R405, R422-R428) -/

/-- The control loop of a rail. -/
def State.loop (s : State) (n : Nat) : Loop :=
  Tab.lookD s.pwr.loops n
    { x1 := 0, x2 := 0, y1 := 0, y2 := 0, e1 := 0, e2 := 0, u1 := 0, u2 := 0, duty := 0, coef := [], newCoef := false, pre := 0,
      rampAt := 0, ovN := 0, uvN := 0, ocN := 0, plausN := 0, quiet := 0, rail := none, trim := 0 }

/-- Set a control loop. -/
def State.putLoop (s : State) (n : Nat) (l : Loop) : State := s.modPwr (fun w => { w with loops := Tab.put w.loops n l })

/-- The sensors that are not excluded. -/
def State.goodSensors (s : State) : List Nat := (List.range 48).filter (fun k => !s.flag PWR_SENSOR_EXCLUDED k)

/-- V_SUST in mV, at most 0.80 V while more than 8 sensors are excluded (R424). -/
def State.sustained (s : State) : Nat :=
  let v := s.fld PWR_GOV_CFG_V_SUST * 5
  if s.goodSensors.length < 40 then min v 800 else v

/-- The ceiling of L01-L09 in mV (R422, R427, R428). -/
def State.ceilOf (s : State) (n : Nat) : Nat :=
  if n = 9 then max 700 (s.pwr.ceil - s.pwr.uncoreDrop) else max 600 (s.pwr.ceil - s.pwr.cobDrop)

/-- The target a rail's register reads, in mV; those of L17 and L20 follow VCC_SEL and V_HOLD (Table 13.5). -/
def State.target (s : State) (n : Nat) : Nat :=
  if n = 17 then (if s.flag PWR_FLASH_LIMIT_VCC_SEL then 3300 else 2500)
  else if n = 20 then s.fld PWR_HOLD_CFG_V_HOLD * 1000
  else s.fld CLE_TARGET_TARGET n

/-- What a rail is held at in mV. -/
def State.railMv (s : State) (n : Nat) : Nat := (s.loop n).rail.getD (s.target n)

/-- Where a rail is to go: its target and trim within the ceiling (R422, R427). -/
def State.railGoal (s : State) (n : Nat) : Nat :=
  if 1 ≤ n ∧ n ≤ 9 then min (s.target n + (s.loop n).trim) (s.ceilOf n)
  else if n = 10 then (List.range 9).foldl (fun a k => max a (s.railMv (k + 1))) (min 950 (s.target 10 + (s.loop 10).trim))
  else s.target n

/-- Hold a rail at a voltage; a change of more than 10 mV suspends the plausibility check for 1 ms (R409). -/
def State.setRail (s : State) (n v : Nat) : State :=
  let l := s.loop n
  let old := s.railMv n
  let far := old + 10 < v || v + 10 < old
  s.putLoop n { l with rail := if v = s.target n then none else some v, quiet := if far then s.time + 1000000 else l.quiet }

/-- L10 follows the logic rails: raised before, and lowered after, any that would exceed it (R405). -/
def State.sramFollows (s : State) : State := s.setRail 10 (s.railGoal 10)

/-- One step of at most k mV of a rail towards its goal. -/
def State.railStep (s : State) (n k : Nat) : State :=
  let v := s.railMv n
  let g := s.railGoal n
  (s.setRail n (if v < g then min g (v + k) else max g (v - k))).sramFollows

/-- A loop that supplies power from now on regulates at its goal (cold start, Table 3.12). -/
def State.loopOn (s : State) (n : Nat) : State :=
  (s.setFld CLE_STAT_STATE 3 n).putLoop n { s.loop n with rail := none }

/-- A loop stops. -/
def State.loopOff (s : State) (n : Nat) : State := s.setFld CLE_STAT_STATE 0 n

/-! ### Governor status (Table 13.21) -/

/-- Surge budget used in the last 300 s, in nanoseconds, an episode still under way counted to now (R423). -/
def State.surgeUsed (s : State) : Nat :=
  let lo := s.time - 300000000000
  let one := fun (a b : Nat) => b - max a lo
  (s.pwr.episodes.map (fun e => one e.1 e.2)).sum + (match s.pwr.surge with | some a => one a s.time | none => 0)

/-- Surge budget that remains, in nanoseconds. -/
def State.surgeLeft (s : State) : Nat := s.fld PWR_GOV_CFG_SURGE_S * 1000000000 - s.surgeUsed

/-- PWR_GOV_STAT. -/
def State.govStat (s : State) : Nat :=
  let st :=
    if s.pwr.trip ≠ 0 then 5
    else if s.pwr.forced then 4
    else if s.pwr.surge.isSome then (if s.pwr.down then 2 else 1)
    else if s.pwr.powerActs ∨ s.pwr.tempActs ∨ s.pwr.inputActs then 3
    else 0
  let tj := s.goodSensors.foldl (fun a k => max a (toSigned 16 (s.fld PWR_SENSOR_TEMP k) / 16)) (-128)
  st * 2 ^ 29 + min 1023 (s.surgeLeft / 100000000) * 2 ^ 16 + min 255 (s.pwr.ceil / 5) * 2 ^ 8 + min 255 tj.toNat

/-! ### Hold-up bank (R417-R419) -/

/-- PWR_HOLD_STAT with a state. -/
def State.holdStat (s : State) (st : Nat) : State :=
  s.putReg PWR_HOLD_STAT (st * 2 ^ 29 + min 0x1FFF ((s.pwr.cNF + 5000) / 10000) * 2 ^ 16 + min 255 ((s.pwr.esr + 500) / 1000) * 2 ^ 8
    + min 255 (s.pwr.vBank / 250))

/-- Whether a bank has been measured and is there. -/
def State.bankKnown (s : State) : Bool := s.pwr.measuredAt.isSome && s.fld PWR_HOLD_STAT_STATE ≠ 3

/-- Energy and dirty bytes the bank covers (R419), each as a fraction: e_av in joules and d in bytes. -/
def State.bankCover (s : State) : (Nat × Nat) × (Nat × Nat) :=
  let p := s.fld PWR_FLUSH_CFG_P_FLUSH_W
  let cut := s.fld PWR_HOLD_CFG_V_CUT
  let v0 := min (s.fld PWR_HOLD_CFG_V_HOLD * 1000 - 4000) s.pwr.vBank * 1000
  let b := 92 * cut
  let a := cut * 1000000 * b + 100 * p * s.pwr.esr
  let x := v0 * v0 * (b * b) - a * a
  let full := s.fld PWR_FLUSH_CFG_R_FLUSH * 1000000000
  let rate := if s.nv.flushRate = 0 then full else min full s.nv.flushRate
  let eN := 46 * s.pwr.cNF * x
  let eD := b * b * 10 ^ 23
  let dD := eD * (16 + s.fld PWR_FLUSH_CFG_MARGIN) * p
  let tN := eN * 16 * 1000 - 5 * dD
  if s.bankKnown then ((eN, eD), (tN * rate, 1000 * dD)) else ((0, 1), (0, 1))

/-- Erased bytes of the flush reserve of the LUNs in use. -/
def State.reserveBytes (s : State) : Nat :=
  (s.lunsInUse.map (fun i =>
    match s.lun i with
    | none => 0
    | some l =>
      let n := l.blocks
      ((List.range n).filter (fun b => (s.blk i b).pool = 4 && (s.blk i b).wp = 0)).length * l.slcPages * l.pageBytes)).sum

/-- The limits delivered and their lowering to what the flush reserve holds (R197, R419): buffer and deltas in bytes, and whether the
reserve lowered them. -/
def State.effLimits (s : State) : Nat × Nat × Bool :=
  let bm := s.fld PWR_DIRTY_MAX_BUF_MAX
  let mm := s.fld PWR_DIRTY_MAX_MAP_MAX
  let d := s.bankCover.2
  let m := 2 ^ 20
  let buf := min (8192 * m) (min (bm * m) (d.1 * bm / (d.2 * max 1 (bm + mm))))
  let map := min (512 * m) (min (mm * m) (d.1 * mm / (d.2 * max 1 (bm + mm))))
  let room := s.reserveBytes - 64 * m
  if room < buf + map then (buf * room / (buf + map), map * room / (buf + map), true) else (buf, map, false)

end Sys2Proof.Machine
end

