-- ==== Sys2Proof/Machine/Flags.lean ====
section
/-!
DEFINITION. What a register reads (chapter 0): the views of state that has its home elsewhere, the registers proper, and the
latch of 64-bit pairs (R18).
-/
namespace Sys2Proof.Machine

/-! ### Views -/

/-- Word j of some bytes. -/
def wordAt (l : List Byte) (j : Nat) : Nat := leAt l (4 * j) 4

/-- A die excluded before step 5 of Table 5.1 takes no further part: its record holds nothing of a training (R142). -/
def Lun.untrained (l : Lun) : Lun :=
  { l with rate := 0, ext := 0, rdEyeW := 0, wrEyeW := 0, rdEyeH := 0, wrEyeH := 0, vref := 0, trainedAt := 0, temp := 0 }

/-- The die record of a LUN (Table 5.2). -/
def Lun.record (l : Lun) : List Byte :=
  let l := if l.status = 2 ∧ 2 ≤ l.exclCause ∧ l.exclCause ≤ 5 then l.untrained else l
  leBytes 1 l.status ++ leBytes 1 l.exclCause ++ leBytes 1 l.iface ++ leBytes 1 l.bpc ++ leBytes 4 l.jedecId ++ leBytes 2 l.pageBytes
    ++ leBytes 2 l.spareBytes ++ leBytes 2 l.pages ++ leBytes 2 l.planes ++ leBytes 4 l.blocks ++ leBytes 2 l.tR ++ leBytes 2 l.tProg
    ++ leBytes 2 l.tBers ++ leBytes 2 l.endurance ++ leBytes 1 l.offStep ++ leBytes 1 l.rate ++ leBytes 1 l.ext ++ leBytes 1 0
    ++ leBytes 1 l.rdEyeW ++ leBytes 1 l.wrEyeW ++ leBytes 2 l.rdEyeH ++ leBytes 2 l.wrEyeH ++ leBytes 2 l.vref ++ leBytes 8 l.trainedAt
    ++ leBytes 2 (ofSigned 16 l.temp) ++ List.replicate 14 0#8

/-- LUNs of a channel. -/
def State.chanLuns (s : State) (n : Nat) : List (Nat × Lun) := s.flash.luns.filter (fun kv => kv.1 / 64 = n)

/-- A mask of the die numbers of some LUNs. -/
def dieMask (l : List (Nat × Lun)) (c : Nat) : Nat :=
  l.foldl (fun a kv => if kv.1 % 64 / 8 = c then a + 2 ^ (kv.1 % 8) else a) 0

/-- FCH_LUN_MAP_c (Table 5.6). -/
def State.lunMap (s : State) (n c : Nat) : Nat :=
  let ls := s.chanLuns n
  dieMask ls c * 2 ^ 16 + dieMask (ls.filter (fun kv => 2 ≤ kv.2.status)) c * 2 ^ 8 + dieMask (ls.filter (fun kv => kv.2.status = 1)) c

/-- FCH_QSTAT (Table 5.10). -/
def State.qStat (s : State) (n : Nat) : Nat :=
  let ls := s.chanLuns n
  (ls.filter (fun kv => kv.2.running.isSome || kv.2.suspended.isSome)).length * 2 ^ 16 + (ls.map (fun kv => kv.2.queue.length)).sum

/-- TSK_COB_c_STAT (Table 9.20). -/
def State.cobStat (s : State) (c : Nat) : Nat :=
  let mask := fun (p : Nat → Bool) => (List.range 8).foldl (fun a k => if p k then a + 2 ^ k else a) 0
  b2n (!s.domOn (2 + c)) * 2 ^ 31 + mask (fun k => s.flag TSK_CORE_CTRL_ONLINE c k) * 2 ^ 16
    + mask (fun k => (s.core (8 * c + k)).running.isSome) * 2 ^ 8 + mask (fun k => (s.core (8 * c + k)).slot0.isSome)

/-- The task a core runs. -/
def State.runningTask (s : State) (k : Nat) : Option Task := (s.core k).running.bind (fun i => s.task i)

/-- A page register of a digest context for its owner (Tables 4.10 and 4.11). -/
def State.digWord (s : State) (c : Nat) (k : DigCtx → Nat) : Nat := ((Tab.look s.dig.ctx c).map k).getD 0

/-- VALID entries over all access tables. -/
def State.validEntries (s : State) : Nat :=
  ((List.range 68).map (fun t => ((List.range 32).filter (fun e => bit (s.accWord t e 0) 31)).length)).sum

/-- The heartbeat deadline in milliseconds (R445). -/
def State.hbLimit (s : State) : Nat :=
  let p := s.fld HSK_HB_CFG_PERIOD_MS
  if s.flag NVQ_STAT_FETCH_STOPPED then max p 500 else p

/-- A lockstep pair's watchdog. -/
def State.pairOf (s : State) (k : Nat) : Pair := Tab.lookD s.hsk.pairs k { last := 0, beatAt := 0, halfSeen := false }

/-- Whether the debug port holds a pair halted, its heartbeat suspended (Table 14.3). -/
def State.suspended (s : State) (k : Nat) : Bool := s.hsk.halted.contains (64 + k)

/-- HSK_HB_STAT (Table 14.9). -/
def State.hbStat (s : State) : Nat :=
  let live := ((List.range 2).filter (fun k => !s.suspended k)).map (fun k => s.pairOf k)
  let left := live.foldl (fun a p => min a ((p.beatAt + s.hbLimit * 1000000 - s.time) / 1000000)) 65535
  s.reg HSK_HB_STAT + (if s.hsk.armed then 2 ^ 31 + (if live.isEmpty then 0 else left) else 0)
    + b2n ((List.range 2).any (fun k => s.suspended k)) * 2 ^ 30

/-- Word k of the pod range table's entry of a pod (R435). -/
def State.podRangeWord (s : State) (p k : Nat) : Nat :=
  match (Tab.look s.pod.pods p).bind (fun e => Tab.look e.ranges (k / 2)) with
  | some x => if k % 2 = 0 then x.1 else x.2
  | none => 0

/-- PWR_WRGOV_STAT (R429): the level in permille of the bucket's depth. -/
def State.wrStat (s : State) : Nat :=
  let s' := s.wrFill
  let depth := s.fld PWR_WRGOV_CFG_DWPD_X100 * ((s.ftl.cap.getD 0) * 64) * s.fld PWR_WRGOV_CFG_BURST_H * 3600000000000
  let pm := if depth = 0 then 0 else s'.ftl.wrLevel.toNat * 1000 / depth
  pm * 2 ^ 22 + s.reg PWR_WRGOV_STAT % 2

/-- The configuration of a series: the fixed ones of Table 16.6, and REC_SER_s_CFG. -/
def State.seriesCfg (s : State) (k : Nat) : Nat × Nat :=
  let w0 := fun (win off lsb : Nat) => 2 * 2 ^ 30 + lsb * 2 ^ 24 + win * 2 ^ 18 + off / 4
  let w1 := fun (width step low : Nat) => (width - 1) * 2 ^ 27 + 2 ^ 25 + step * 2 ^ 16 + low
  if k < 990 then (s.reg REC_SER_W0 k, s.reg REC_SER_W1 k)
  else if k = 990 then (w0 0x09 0x28 0, w1 8 8 0)
  else if k = 991 then (w0 0x09 0x14 21, w1 11 32 300)
  else if k = 992 then (w0 0x09 0x14 0, w1 10 64 0)
  else (w0 0x0C (0x200 + 4 * (k - 993)) 30, w1 2 1 0)

/-- The record in a slot of the event ring (R482); a slot never written reads zero (log entry 56). -/
def State.ringWord (s : State) (slot j : Nat) : Nat := ((Tab.look s.recd.ring slot).map (fun r => wordAt r.bytes j)).getD 0

/-- A mask of the domains lo to lo + n - 1 that are on. -/
def State.domMask (s : State) (lo n : Nat) : Nat := (List.range n).foldl (fun a k => if s.domOn (lo + k) then a + 2 ^ k else a) 0

/-! ### One register -/

/-- What element i, j of a register reads for a master whose value has its home elsewhere; n is the flash channel. -/
def State.view (s : State) (m : Nat) (g : RegId) (i j n : Nat) : Option Nat :=
  let mine := fun (t : Tab Nat) => some (Tab.lookD t m 0)
  if g = CFG_SEQ_FLOOR_LO then some (s.nv.seqFloor % 2 ^ 32)
  else if g = CFG_SEQ_FLOOR_HI then some (s.nv.seqFloor / 2 ^ 32 % 2 ^ 32)
  else if g = HSF_PERT_GATE then
    let p := bit s.boot.testPermit 0 && !s.boot.permitGone
    let t := bit (s.fld SGN_TOKEN_LATCH_GRANT) 0
    some (b2n (p && t) * 2 ^ 31 + b2n p * 2 ^ 30 + b2n t * 2 ^ 29)
  else if g = SGN_OTP_STAT then some s.otpStat
  else if g = DIG_OPEN_RES then mine s.dig.openRes
  else if g = DIG_CTX_STAT then
    some (s.digWord i (fun x => x.state * 2 ^ 29 + x.alg * 2 ^ 25 + x.cause * 2 ^ 22 + x.owner * 2 ^ 12 + x.pod))
  else if g = DIG_CTX_OUT then some (s.digWord i (fun x => if x.state = 3 then wordAt x.out j else 0))
  else if g = LDG_STAT then some s.ldgStat
  else if g = LDG_APPEND_RES then mine s.ldg.appendRes
  else if g = KEY_NS_RES then mine s.key.nsRes
  else if g = KEY_MEDIA_EPOCH_LO then some (s.nv.mediaEpoch % 2 ^ 32)
  else if g = KEY_MEDIA_EPOCH_HI then some (s.nv.mediaEpoch / 2 ^ 32 % 2 ^ 32)
  else if g = FCH_STAT then
    some (s.reg (FCH_STAT.chan n) / 2 ^ 16 * 2 ^ 16 + ((s.chanLuns n).filter (fun kv => kv.2.status = 1)).length * 2 ^ 8
      + ((s.chanLuns n).filter (fun kv => 2 ≤ kv.2.status)).length)
  else if g = FCH_LUN_MAP then some (s.lunMap n i)
  else if g = FCH_QSTAT then some (s.qStat n)
  else if g = FCH_CREDIT_STAT then
    some (s.reg (FCH_CREDIT_STAT.chan n) / 2 ^ 16 * 2 ^ 16 + min 65535 ((s.chanLuns n).map (fun kv => kv.2.draw)).sum)
  else if g = FCH_DCMP_STAT then
    some (setBits (s.reg (FCH_DCMP_STAT.chan n)) 15 8 (min 255 (s.pipe (32 + n)).units.length))
  else if g = FCH_DIE then some (((s.lun (64 * n + i)).map (fun l => wordAt l.record j)).getD 0)
  else if g = LDP_GRP_RES then some (Tab.lookD s.flash.grpRes m 0 * 2 ^ 30)
  else if g = FTL_DIRTY_NOW then some s.dirtyNow
  else if g = CMP_CTX_OPEN_RES then mine s.cmp.openRes
  else if g = SCN_STAT then some (setBits (s.reg SCN_STAT) 27 24 (s.domMask 24 4))
  else if g = SCN_ENG_STAT then some (if s.domOn (24 + i / 8) then s.reg SCN_ENG_STAT i else 2 ^ 31)
  else if g = TSK_STAT then
    some (((List.range 4096).filter (fun v => s.tsk.tasks.any (fun kv => kv.2.vine = some v))).length * 2 ^ 17 + s.tsk.tasks.length)
  else if g = TSK_SUBMIT_RES then mine s.tsk.submitRes
  else if g = TSK_QUERY_RES then mine s.tsk.query
  else if g = TSK_PROG_RES then mine s.tsk.progRes
  else if g = TSK_COB_STAT then some (s.cobStat i)
  else if g = TSK_CORE_FLAGS then some (((s.runningTask (8 * i + j)).map Task.flags).getD 0)
  else if g = TSK_CORE_ARG_LO then some (((s.runningTask (8 * i + j)).map (fun t => t.arg % 2 ^ 32)).getD 0)
  else if g = TSK_CORE_ARG_HI then some (((s.runningTask (8 * i + j)).map (fun t => t.arg / 2 ^ 32 % 2 ^ 32)).getD 0)
  else if g = POD_STAT then
    some (s.pod.pods.length * 2 ^ 19 + (s.pod.pods.filter (fun kv => kv.2.state = 3 || kv.2.state = 4)).length * 2 ^ 6)
  else if g = POD_TOTALS then
    some ((s.pod.pods.map (fun kv => kv.2.ioq)).sum * 2 ^ 17 + (s.pod.pods.map (fun kv => kv.2.imsCount)).sum * 2 ^ 2)
  else if g = POD_CMD_RES then mine s.pod.cmdRes
  else if g = POD_ENTRY then some (wordAt (s.podEntry i) j)
  else if g = DRC_CH_REMAP then some (((Tab.look s.nv.remap (16 * i + j)).map (fun l => 2 ^ 31 + l % 2 ^ 30)).getD 0)
  else if g = MPR_SRAM_STAT then some (setBits (s.reg MPR_SRAM_STAT) 15 8 (s.remapUsed 6))
  else if g = LMC_STAT then some (setBits (s.reg LMC_STAT) 4 0 (s.remapUsed 7))
  else if g = PWR_GOV_STAT then some s.govStat
  else if g = PWR_WRGOV_STAT then some s.wrStat
  else if g = CLE_TARGET then some (s.target i)
  else if g = HSK_STAT then some (b2n s.boot.locked * 2 ^ 31 + b2n s.safe * 2 ^ 30 + s.validEntries)
  else if g = HSK_HB_STAT then some s.hbStat
  else if g = HSK_PODR then some (s.podRangeWord i j)
  else if g = ASK_INCARNATION then some (s.nv.incarnation % 2 ^ 32)
  else if g = ASK_MEMBER_RES then
    let q := Tab.lookD s.ask.query m 0
    some ((s.member q).state * 2 ^ 29 + ((Tab.look s.ask.suspects q).map (fun x => popCount x.accusers)).getD 0 * 2 ^ 14 + q)
  else if g = EVT_MQ_REC then some (((Tab.look s.evt.mq i).map (fun r => wordAt r.bytes j)).getD 0)
  else if g = EVT_ROUTE then some (s.routeOf i)
  else if g = REC_RING_HEAD_LO then some (s.recd.head % 2 ^ 32)
  else if g = REC_RING_HEAD_HI then some (s.recd.head / 2 ^ 32 % 2 ^ 32)
  else if g = REC_SNAP_RES then mine s.recd.snapRes
  else if g = REC_SER_W0 then some (s.seriesCfg i).1
  else if g = REC_SER_W1 then some (s.seriesCfg i).2
  else if g = REC_LIVE then some (wordAt ((s.live i).bytes i) j)
  else if g = REC_RING then some (s.ringWord i j)
  else none

/-- The identity word at a place, if it holds one (R5, R6). -/
def identityAt (p : Part) (win off : Nat) : Option Nat :=
  if off = 0 then
    (if unitPresent p win then some (idWord (winBase win) (if 0x20 ≤ win then win - 0x20 else 0)) else some 0)
  else
    match blockOf win off with
    | some n =>
      let stride := if win = 0x0D ∨ win = 0x0E then 0x1000 else 0x100
      if off % stride = 0 then (if blockPresent p win n then some (idWord win n) else some 0) else none
    | none => none

/-- What a register reads for a master that the gate lets through, but for the _HI latch: an offset that holds no register and
write-only bits read zero (R19, R23). -/
def State.readValue (s : State) (m key : Nat) : Nat :=
  let win := key / 0x100000
  let off := key % 0x100000
  match identityAt s.part win off with
  | some v => v
  | none =>
    match findRow win off with
    | none => 0
    | some r =>
      match r.indexOf off with
      | none => 0
      | some (i, j) =>
        match s.view m ⟨winBase win, r.off, r.s1, r.s2⟩ i j (win - winBase win) with
        | some v => v
        | none =>
          let v := s.getReg key
          v - (v &&& r.wo)

/-! ### 64-bit pairs (R18) -/

/-- The _LO registers of readable pairs; the _HI register follows at the next word. -/
def pairRegs : List RegId := [
  CFG_IMAGE_SEQ_LO, CFG_SEQ_FLOOR_LO, KEY_MEDIA_EPOCH_LO, FTL_SEQ_LO, FTL_JSEQ_LO, FTL_HOST_GRAINS_LO, FTL_MEDIA_GRAINS_LO,
  CMP_PIPE_UNITS_LO, CMP_PIPE_RAW_LO, CMP_PIPE_IN_LO, CMP_PIPE_OUT_LO, FCH_DCMP_OUT_LO, SCN_ENG_RECORDS_LO, SCN_ENG_MATCHED_LO,
  SCN_ENG_IN_LO, SCN_ENG_OUT_LO, TSK_CORE_ARG_LO, MPR_INJ_ADDR_LO, HSK_DENY_ADDR_LO, ASK_PREFIX_LO, REC_RING_HEAD_LO]

/-- Whether a place is the low word of a pair, or word 0 of a ring slot (R482). -/
def isPairLo (key : Nat) : Bool :=
  let win := key / 0x100000
  let off := key % 0x100000
  match findRow win off with
  | none => false
  | some r =>
    let g : RegId := ⟨winBase win, r.off, r.s1, r.s2⟩
    pairRegs.contains g || (g = REC_RING && (off - r.off) % 0x30 = 0)

/-- A read of a low word latches the upper word for its master. -/
def State.readLo (s : State) (m key : Nat) : Nat × State :=
  (s.readValue m key,
   if isPairLo key then
     { s with hiLatch := Tab.put s.hiLatch (m * 0x4000000 + key + 4) (BitVec.ofNat 32 (s.readValue m (key + 4))) }
   else s)

/-- What a read of any register gives a master: the latched word for the upper half of a pair. -/
def State.readWord (s : State) (m key : Nat) : Nat × State :=
  match Tab.look s.hiLatch (m * 0x4000000 + key) with
  | some v => (v.toNat, s)
  | none => s.readLo m key

/-! ### Reads with effects -/

/-- What a read of any register gives a master and leaves: the registers that hand out work (R169, R171, R289), random words
(R132), compare a digest (R111), or latch an upper word (R18). -/
def State.regRead (s : State) (r : Req) (key : Nat) : Nat × State :=
  let win := key / 0x100000
  let off := key % 0x100000
  let plain := s.readWord r.master key
  match findRow win off with
  | none => plain
  | some w =>
    match w.indexOf off with
    | none => plain
    | some (i, j) =>
      let g : RegId := ⟨winBase win, w.off, w.s1, w.s2⟩
      if g = LDP_PATROL_NEXT then s.patrolNext
      else if g = LDP_ADVISE_NEXT then s.adviseNext
      else if g = TSK_CORE_TAKE then s.launch (8 * i + j)
      else if g = KEY_RNG_DATA then (if s.rngOk then let (b, s) := s.random 4; (leNat b, s) else (0, s))
      else if g = DIG_CTX_CMP then (let (a, s) := s.draw 2; s.digCmp i (a = 1))
      else plain

end Sys2Proof.Machine
end

