-- ==== Sys2Proof/Machine/Operands.lean ====
section
/-!
DEFINITION. Operands of register writes: what a write leaves in a register by the access types of its bits (chapter 0, R77), and
the range checks that refuse it (R75, row 4; each field's table, R39, R56, R371, R374, R404, R416, R432, R485).
-/
namespace Sys2Proof.Machine

/-! ### Access types -/

/-- What a write leaves: RW bits take it, RWL bits only before the lock, W1C bits clear where it holds 1, and so do the counts
their bits clear (R20), which the callers name. -/
def RegRow.after (r : RegRow) (locked : Bool) (old w : Nat) : Nat :=
  let m := r.rw ||| (if locked then 0 else r.rwl)
  let keep := (2 ^ 32 - 1) - (m &&& (2 ^ 32 - 1))
  let v := (old &&& keep) ||| (w &&& m)
  v - (v &&& (r.w1c &&& w))

/-- The counts a W1C overflow bit clears with it (class S, R20). -/
def overflowCounts : List (Field × Field) := [
  (CFG_BGS_STAT_CAP_OVF, CFG_BGS_STAT_CAPPED), (CFG_BGS_STAT_MISS_OVF, CFG_BGS_STAT_MISSED),
  (CFG_RESET_CAUSE_OVF, CFG_RESET_CAUSE_COUNT), (HSF_WDOG_STAT_OVF, HSF_WDOG_STAT_STALLS),
  (LDP_TRACK_STAT_OVF, LDP_TRACK_STAT_SWEEPS), (LDP_TRACK_STAT_OVF, LDP_TRACK_STAT_STEPS),
  (FTL_GC_STAT_OVF, FTL_GC_STAT_URGENT_ENTRIES), (FTL_ERR_STAT_OVF, FTL_ERR_STAT_REBUILT),
  (FTL_ERR_STAT_OVF, FTL_ERR_STAT_REBUILD_FAIL), (FTL_ERR_STAT_OVF, FTL_ERR_STAT_RETIRED),
  (CMP_PIPE_STAT_VMIS_OVF, CMP_PIPE_STAT_VERIFY_MIS), (FCH_DCMP_STAT_OVF, FCH_DCMP_STAT_CONT_ERR),
  (NVQ_ERR_STAT_OVF, NVQ_ERR_STAT_LEN_ERR), (NVQ_ERR_STAT_OVF, NVQ_ERR_STAT_DMA_ERR), (NVQ_ERR_STAT_OVF, NVQ_ERR_STAT_PI_ERR),
  (HIF_LINK_STAT_OVF, HIF_LINK_STAT_RETRAINS), (DRC_CH_ERR_OVF, DRC_CH_ERR_CE), (DRC_CH_ERR_OVF, DRC_CH_ERR_UE),
  (DRC_CH_DIST_OVF, DRC_CH_DIST_DIRECTED), (MPR_SRAM_STAT_OVF, MPR_SRAM_STAT_CE), (MPR_SRAM_STAT_OVF, MPR_SRAM_STAT_UE),
  (LMC_STAT_OVF, LMC_STAT_CE), (LMC_STAT_OVF, LMC_STAT_UE), (CLE_STAT_OVF, CLE_STAT_FAULTS),
  (HSK_DENY_STAT_OVF, HSK_DENY_STAT_DENIED), (ASK_PORT_STAT_OVF, ASK_PORT_STAT_DOWNS),
  (ASK_DROP_OVF, ASK_DROP_COUNT), (EVT_STAT_OVF, EVT_STAT_MQ_LOST), (EVT_STAT_OVF, EVT_STAT_CLE_LOST)]

/-- Whether a field is one of the registers of a row. -/
def Field.inRow (f : Field) (win : Nat) (r : RegRow) : Bool := f.reg.win = winBase win && f.reg.off = r.off

/-- A value with the counts cleared whose overflow bits a write of w clears. -/
def clearCounts (win : Nat) (r : RegRow) (v w : Nat) : Nat :=
  overflowCounts.foldl (fun v x =>
    if x.1.inRow win r ∧ bit r.w1c x.1.lo ∧ bit w x.1.lo then setBits v x.2.hi x.2.lo 0 else v) v

/-! ### Ranges of single fields -/

/-- Fields with the least and greatest values their tables admit. -/
def fieldRanges : List (Field × Nat × Nat) := [
  (CFG_BGS_SHARE_CEIL, 0, 1000), (HSF_WDOG_CTRL_LIMIT, 1, 10000), (DIG_CTRL_IDLE_MS, 1, 60000), (FCH_CTRL_MAX_RATE, 1, 9),
  (FCH_CTRL_RETRAIN_DT, 5, 50), (FCH_CTRL_RETRAIN_H, 1, 168), (FCH_SCHED_BYPASS, 1, 255), (FCH_SCHED_CREDIT_WAIT, 1, 255),
  (LDP_CREDIT_COST_ERASE, 4, 255), (LDP_CREDIT_COST_PROGRAM, 3, 255), (LDP_CREDIT_COST_READ, 2, 255), (LDP_CODE_SOFT_ITER, 8, 64),
  (LDP_CODE_HARD_ITER, 4, 32), (LDP_TRACK_CFG_DITHER_STEPS, 1, 3), (LDP_TRACK_CFG_DITHER_RATIO, 1, 6), (LDP_TRACK_CFG_TRACK_N, 8, 255),
  (LDP_TRACK_CFG_HYST, 1, 255), (LDP_TRACK_CFG_TRACK_N_PATROL, 4, 255), (LDP_TRACK_LIM_OFF_MAX, 1, 127),
  (LDP_TRACK_LIM_ITER_DITHER_MAX, 1, 32), (LDP_TRACK_LIM_ITER_SWEEP, 1, 32), (LDP_TRACK_LIM_ITER_REFRESH, 1, 32),
  (LDP_PATROL_CFG_MIN_FRAMES, 16, 65535), (LDP_PATROL_CFG_PERIOD_H, 1, 168), (LDP_BOUNDS_0_MAX_PLANES, 1, 8),
  (LDP_BOUNDS_0_MAX_BLOCKS, 1, 16384), (LDP_BOUNDS_1_MAX_PAGES, 1, 4096), (LDP_BOUNDS_1_MIN_SPARE, 1024, 4096),
  (LDP_ARCHIVE_COUNT, 1, 15), (LDP_RESERVE_FLUSH_BLOCKS, 1, 32), (FTL_CTRL_SEAL_US, 5, 255), (FTL_GC_CTRL_FREE_HIGH, 0, 250),
  (FTL_GC_CTRL_FREE_URGENT, 5, 100), (FTL_GC_CTRL_RETAIN_DAYS, 7, 255), (FTL_SLC_CFG_CEIL_MAX, 0, 25), (FTL_SLC_CFG_FOLD_START, 10, 95),
  (FTL_WEAR_CFG_WL_DELTA, 50, 5000), (FTL_SPACE_CFG_OP_PERMILLE, 30, 250), (FTL_SPACE_CFG_SPARE_WARN, 2, 50),
  (FTL_SPACE_CFG_SPARE_RO, 1, 49), (FTL_JNL_CFG_CKPT_FRAMES, 1, 16), (FTL_JNL_CFG_FLUSH_US, 1, 100), (CMP_CTRL_VERIFY_FENCE, 1, 255),
  (CMP_CTRL_STREAM_FLOOR, 0, 500), (CMP_CTX_CFG_IDLE_S, 1, 3600), (SCN_CTRL_ORDER_WINDOW, 4, 64), (SCN_CTRL_POD_JOBS, 1, 256),
  (TSK_CTRL_DEF_LIMIT, 1, 65535), (TSK_CTRL_CANCEL_GRACE, 10, 65535), (HIF_PORT_CFG_MAX_SPEED, 1, 6), (HIF_PORT_CFG_LEN_WARN_CM, 10, 255),
  (HIF_PORT_CFG_LOSS_PER_CM, 10, 200), (DRC_CFG_RATE_MAX, 1, 5), (DRC_CFG_ROW_IDLE, 1, 255), (DRC_SCHED_WQ_HIGH, 0, 64),
  (DRC_SCHED_WQ_LOW, 0, 63), (DRC_SCHED_ROW_HIT_MAX, 1, 32), (DRC_SCHED_AGE_MAX, 1, 255), (DRC_DISTURB_DIST_THRESH, 512, 32768),
  (DRC_DISTURB_STRIKES, 1, 15), (DRC_DISTURB_THROTTLE, 1, 255), (DRC_TRAIN_CFG_OSC_MS, 1, 100), (DRC_TRAIN_CFG_OSC_PS, 1, 50),
  (DRC_TRAIN_CFG_RETRAIN_DT, 5, 40), (DRC_TRAIN_CFG_RETRAIN_H, 1, 168), (DRC_FENCE_CFG_CE_FENCE, 16, 65535),
  (DRC_FENCE_CFG_UE_FENCE, 1, 255), (DRC_SR_CFG_SR_IDLE, 1, 255), (DRC_SR_CFG_DEEP_MS, 1, 255), (MPR_SCRUB_CFG_SCRUB_H, 1, 168),
  (MPR_SCRUB_CFG_LEAK_MS, 10, 4000), (MPR_SCRUB_CFG_THRESH, 1, 4095), (MPR_DREG_BASE_CODE, 0, 2), (MPR_DREG_SIZE_SIZE, 1, 196608),
  (PWR_IN_CFG_P_LIM_W, 60, 300), (PWR_IN_CFG_I_LIM, 100, 900), (CLE_CTRL_ACTION, 0, 2), (CLE_CTRL_SAMPLE, 0, 7), (CLE_CTRL_SS_US, 1, 255),
  (CLE_CTRL_PLAUS_N, 2, 255), (CLE_LIMIT_OV, 2, 50), (CLE_LIMIT_UV, 2, 50), (PWR_FPG_CFG_BUDGET, 0, 2500),
  (PWR_FLASH_LIMIT_VCC_MAX, 100, 2500), (PWR_HOLD_CFG_V_HOLD, 40, 63), (PWR_HOLD_CFG_V_CUT, 18, 36), (PWR_HOLD_CFG_CHG, 25, 200),
  (PWR_FLUSH_CFG_P_FLUSH_W, 60, 160), (PWR_FLUSH_CFG_R_FLUSH, 4, 64), (PWR_FLUSH_CFG_MARGIN, 2, 15), (PWR_DIRTY_MAX_BUF_MAX, 64, 8192),
  (PWR_DIRTY_MAX_MAP_MAX, 8, 512), (PWR_GOV_CFG_V_SUST, 120, 180), (PWR_GOV_CFG_P_SUST_W, 60, 140), (PWR_GOV_CFG_SURGE_S, 0, 60),
  (PWR_GOV_CFG_T_GOV, 90, 110), (PWR_THERM_CFG_T_RESTART, 60, 95), (PWR_WRGOV_CFG_DWPD_X100, 0, 10000), (PWR_WRGOV_CFG_BURST_H, 1, 24),
  (POD_ENV_W0_MAX_WEIGHT, 0, 1000), (POD_ENV_W1_MAX_IOQ, 0, 256), (POD_ENV_W1_MAX_NS, 0, 8192), (⟨POD_ENV_W2, 31, 0⟩, 1, 262144),
  (⟨POD_ENV_W3, 31, 0⟩, 0, 65536), (POD_ENV_W4_MAX_IMS, 0, 2048), (POD_ENV_W4_MAX_CTX, 0, 4096), (POD_ENV_W5_MAX_PROG, 0, 1024),
  (POD_ENV_W5_MAX_LOCKS, 1, 32768), (POD_ENV_W10_MAX_WBUF_PM, 0, 1000), (HSK_HB_CFG_FALLBACK, 1, 15), (HSK_HB_CFG_PERIOD_MS, 10, 10000),
  (HSK_ASK_CFG_PREFIX_LEN, 0, 128), (HSK_ASK_CFG_EGRESS_GBPS, 1, 200), (HSK_ACC_W0_MODE, 0, 2), (ASK_CTRL_N, 1, 16384),
  (ASK_PORT_CFG_LOSS_CU, 1, 100), (ASK_PORT_CFG_LOSS_BP, 1, 100), (ASK_HB_CFG_HB, 1, 100), (ASK_HB_CFG_MISS, 2, 15),
  (ASK_HB_CFG_SEED, 1, 14), (ASK_HB_CFG_GOSSIP, 1, 100), (ASK_XFER_CFG_RTO, 1, 255), (ASK_XFER_CFG_RETRIES, 1, 15),
  (ASK_XFER_CFG_REJOIN_S, 10, 65535), (EVT_CTRL_COAL_US, 10, 1000000), (REC_CTRL_KEEP_MIN, 1, 240), (REC_SER_W0_KIND, 0, 2)]

/-- Whether a value lies in the ranges of its fields; a locked field ignores what is written to it, so nothing there is out of range. -/
def rangesOk (win : Nat) (r : RegRow) (locked : Bool) (v : Nat) : Bool :=
  fieldRanges.all (fun x => !x.1.inRow win r || (locked && bit r.rwl x.1.lo)
    || (x.2.1 ≤ bits v x.1.hi x.1.lo && bits v x.1.hi x.1.lo ≤ x.2.2))

/-! ### Rules that join fields and registers -/

/-- The permitted floors of Table 1.7. -/
def floorOk (n v : Nat) : Bool :=
  let f := bits v 9 0
  [10, 10, 0, 0].getD n 0 ≤ f && f ≤ [500, 200, 300, 500].getD n 0 && f ≤ bits v 25 16

/-- Whether two DRAM regions, base and size in 2 MiB units, overlap. -/
def regionsMeet (a b : Nat × Nat) : Bool := a.1 < b.1 + b.2 && b.1 < a.1 + a.2

/-- The rules of R371 and R374 for region n as it would stand; the installed capacity is not known before step 10, and the address
map's end stands for it (log entry 80). -/
def State.dregOk (s : State) (n base size : Nat) : Bool :=
  let b := bits base 17 0
  let m := 2 * Config.drcCount s.part
  let others := (List.range 16).filter (fun k => k ≠ n && s.flag MPR_DREG_BASE_VALID k)
  !bit base 31 ||
    (b + size ≤ 196608
      && !others.any (fun k => regionsMeet (b, size) (s.fld MPR_DREG_BASE_BASE k, s.fld MPR_DREG_SIZE_SIZE k))
      && (!bit base 28 || (b % m = 0 && size % m = 0)))

/-- The rules of R432 for entry e of target t as it would stand after word w takes v. -/
def State.accOk (s : State) (t e w v : Nat) : Bool :=
  let word := fun (k : Nat) => if k = w then v else s.accWord t e k
  !(w = 0 && bits v 30 29 = 2 && t ≠ 0x40)
    && (!bit (word 0) 31 || (bits (word 0) 15 8 ≤ bits (word 0) 23 16 && word 2 ≤ word 3))

/-- The rules of R485 for a series as it would stand. -/
def seriesOk (w0 w1 : Nat) (first : Bool) : Bool :=
  !(first && [5, 6, 8].contains (bits w0 23 18))
    && (bits w0 31 30 ≠ 2 || (bits w1 23 16 ≠ 0 && bits w0 28 24 + bits w1 31 27 ≤ 31))

/-- The settings of Table 13.4 a target may take, in mV, but for the ceiling. -/
def State.targetOk (s : State) (n v : Nat) : Bool :=
  if 1 ≤ n ∧ n ≤ 9 then 550 ≤ v && v ≤ 950 && v % 5 = 0
  else if n = 10 then 700 ≤ v && v ≤ 950
  else if n = 17 then v = (if s.flag PWR_FLASH_LIMIT_VCC_SEL then 3300 else 2500)
  else if n = 20 then v = s.fld PWR_HOLD_CFG_V_HOLD * 1000
  else if 22 ≤ n then v = 0
  else v = loopStart n

/-- The sum of the groups' budgets with group g's replaced (R416). -/
def State.budgetSum (s : State) (g v : Nat) : Nat :=
  ((List.range 16).map (fun k => if k = g then v else s.fld PWR_FPG_CFG_BUDGET k)).sum

/-- Rules that join the fields of element i, j of a register, or other registers, for the value it would take. -/
def State.joinOk (s : State) (win : Nat) (r : RegRow) (i j v : Nat) : Bool :=
  let is := fun (x : RegId) => x.win = winBase win && x.off = r.off
  if is CFG_BGS_SHARE then floorOk i v
  else if is FTL_GC_CTRL then bits v 15 8 < bits v 23 16 && bits v 23 16 < bits v 31 24
  else if is FTL_SPACE_CFG then bits v 15 8 < bits v 23 16
  else if is DRC_SCHED then bits v 23 16 < bits v 31 24
  else if is DRC_HINT then (List.range 16).all (fun k => bits v (2 * k + 1) (2 * k) ≠ 3)
  else if is MPR_DREG_BASE then s.dregOk i v (s.fld MPR_DREG_SIZE_SIZE i)
  else if is MPR_DREG_SIZE then s.dregOk i (s.reg MPR_DREG_BASE i) (bits v 17 0)
  else if is LMC_LREG then !bit v 31 || (1 ≤ bits v 21 11 && bits v 21 11 ≤ 1024)
  else if is PWR_IN_CFG then bits v 31 23 * 100 ≤ bits v 9 0 * 36
  else if is PWR_FPG_CFG then s.budgetSum i (bits v 31 16) ≤ s.fld PWR_FLASH_LIMIT_VCC_MAX
  else if is PWR_FLASH_LIMIT then s.budgetSum 16 0 ≤ bits v 15 0
  else if is PWR_HOLD_CFG then bits v 25 20 + 10 ≤ bits v 31 26
  else if is CLE_LIMIT then bits v 15 0 ≤ loopLimit i
  else if is CLE_TARGET then s.targetOk i (bits v 15 0)
  else if is HSK_ACC_W0 then s.accOk i j 0 v
  else if is HSK_ACC_W1 then s.accOk i j 1 v
  else if is HSK_ACC_W2 then s.accOk i j 2 v
  else if is HSK_ACC_W3 then s.accOk i j 3 v
  else if is ASK_CTRL then bits v 13 0 < bits v 30 16
  else if is REC_SER_W0 then seriesOk v (s.reg REC_SER_W1 i) true
  else if is REC_SER_W1 then seriesOk (s.reg REC_SER_W0 i) v false
  else true

/-- Whether the register's own range checks admit a value (R75, row 4). -/
def State.valueOk (s : State) (win : Nat) (r : RegRow) (i j v : Nat) : Bool :=
  rangesOk win r s.boot.locked v && ((s.boot.locked && r.rwl ≠ 0) || s.joinOk win r i j v)

/-- Bits of a register that read fixed and ignore writes: ACTION of the loops that always shut down (Table 13.6), the routes of
R480, and the fixed series (R487). -/
def fixedBits (win : Nat) (r : RegRow) (i old w : Nat) : Nat :=
  if CLE_CTRL.win = win ∧ CLE_CTRL.off = r.off ∧ (i = 0 ∨ (9 ≤ i ∧ i ≤ 11)) then setBits w 31 30 2
  else if EVT_ROUTE.win = win ∧ EVT_ROUTE.off = r.off then
    let w := if [5, 51, 705, 706, 713, 721].contains i then setBits w 1 1 1 else w
    if i = 720 then setBits w 0 0 0 else w
  else if REC_SER_W0.win = win ∧ (REC_SER_W0.off = r.off ∨ REC_SER_W1.off = r.off) ∧ 990 ≤ i then old
  else w

/-! ### A write -/

/-- What a write leaves in a register, or none when no register is there or its range checks refuse the value (R19, R20, R75, R77). -/
def State.written (s : State) (key w : Nat) : Option Nat :=
  let win := key / 0x100000
  let off := key % 0x100000
  (findRow win off).bind (fun r =>
    (r.indexOf off).bind (fun ij =>
      if s.valueOk win r ij.1 ij.2 w then
        let old := s.getReg key
        some (clearCounts win r (fixedBits win r ij.1 old (r.after s.boot.locked old w)) w)
      else none))

/-- The register takes the value written, or keeps its own. -/
def State.storeReg (s : State) (key w : Nat) : State :=
  match s.written key w with
  | some v => s.setReg key v
  | none => s

end Sys2Proof.Machine
end

