-- ==== Sys2Proof/Machine/Recorder.lean ====
section
/-!
DEFINITION. Event fabric and recorder commands (chapter 16): firmware events, the coalescing cache and the management queue,
the series and their history, and snapshots.
-/
namespace Sys2Proof.Machine

/-- Change the recorder. -/
def State.modRecd (s : State) (f : RecState → RecState) : State := { s with recd := f s.recd }

/-! ### Event fabric -/

/-- A write of EVT_RAISE (R477): a management core's firmware event of the subject it has written; any other is discarded. -/
def State.raiseFirmware (s : State) (m w : Nat) : State :=
  let n := w % 1024
  if isMgmt m ∧ 736 ≤ n ∧ n < 768 then s.raiseWith n (bits w 23 16) s.evt.raiseSubj none 8 else s

/-- EVT_RAISE (R477). -/
def execEvtRaise (r : Req) (w : Nat) (s : State) : Res :=
  (s.fresh.atRegW r (EVT_RAISE.key 0 0) (fun s => s.raiseFirmware r.master w)).done s

/-- COAL_ENTRY_CLOSE (R478): the window of the oldest open entry ends and its record is delivered. -/
def execCoalEntryClose (s : State) : Res :=
  (let s := s.fresh
   match s.evt.coal with
   | [] => s
   | e :: rest =>
     ((s.notBefore (e.first + s.fld EVT_CTRL_COAL_US * 1000)).setCoal rest).deliver (e.record false)).done s

/-- A write of EVT_MQ_RD (R483): one that would pass WR, or of another master than the management cores, is discarded. -/
def State.mqConsume (s : State) (m w : Nat) : State :=
  let v := w % 2048
  let rd := s.reg EVT_MQ_RD
  if isMgmt m ∧ (v + 2048 - rd) % 2048 ≤ (s.reg EVT_MQ_WR + 2048 - rd) % 2048 then s.putReg EVT_MQ_RD v else s

/-- EVT_MQ_RD_WRITE (R483). -/
def execEvtMqRdWrite (r : Req) (w : Nat) (s : State) : Res :=
  (s.fresh.atRegW r (EVT_MQ_RD.key 0 0) (fun s => s.mqConsume r.master w)).done s

/-! ### Samples (R485, R486) -/

/-- The bin of a sample: LOW is the lower edge of bin 0 (R485). -/
def binOf (v low : Int) (step : Nat) : Nat := if v < low then 0 else min 15 ((v - low) / (step : Int)).toNat

/-- One more in bin i, a class E counter: the block, and whether it saturated now. -/
def SeriesBlock.binUp (b : SeriesBlock) (i : Nat) : SeriesBlock × Bool :=
  let n := b.bins.getD i 0
  if n = 2 ^ 32 - 1 then (b, false)
  else
    let b := { b with bins := b.bins.set i (n + 1) }
    if n + 1 = 2 ^ 32 - 1 then (b.flagged 2, true) else (b, false)

/-- One sample counted by a KIND 2 series (Table 16.4); ties in MIN and MAX keep the earlier (R486). -/
def SeriesBlock.sample (b : SeriesBlock) (boot now : Nat) (v : Int) : SeriesBlock :=
  let (t, o) := satSum b.sum v
  let d := Nat.min 65535 (boot - b.boot)
  let first := b.count = 0
  let b1 := { b with count := (b.count + 1) % 2 ^ 64, sum := t }
  let b1 := if o then b1.flagged 0 else b1
  let b1 := if first ∨ v < b.min then { b1 with min := v, minAt := now, minBootD := d } else b1
  if first ∨ b.max < v then { b1 with max := v, maxAt := now, maxBootD := d } else b1

/-- One sample of a series: its source is read by the recorder as master 0xE8 while its domain is on (R485, R486). -/
def State.sampleSeries (s : State) (k : Nat) : State :=
  let (w0, w1) := s.seriesCfg k
  let key := bits w0 23 18 * 0x100000 + bits w0 17 0 * 4
  let win := key / 0x100000
  let off := key % 0x100000
  let low := toSigned 16 (bits w1 15 0)
  let failed := fun (s : State) => (s.putLive k ((s.live k).flagged 1)).raise 723 1 [k]
  if bits w0 31 30 ≠ 2 ∨ (winDefined win ∧ !s.powered win off) then s
  else
    match s.gateReg ⟨0xE8, 0⟩ key false with
    | .deny c => failed (s.denied ⟨0xE8, 0⟩ win (0xF000000000 + key) c)
    | .stall => failed (s.stalled 0xE8 win 2)
    | .err _ => failed s
    | g =>
      match s.slotPass 0xE8 win 1 with
      | (.hstall, s) => failed s
      | (_, s) =>
      let x := if g = Gate.go then s.readValue 0xE8 key else 0
      let wd := bits w1 31 27 + 1
      let f := bits x (bits w0 28 24 + wd - 1) (bits w0 28 24)
      let v := if bit w0 29 then toSigned wd f else (f : Int)
      let i := binOf v low (bits w1 23 16)
      let (b, sat) := ((s.live k).sample s.nv.bootNumber s.time v).binUp i
      let s := s.putLive k b
      if sat then s.raise 722 1 [k, i] else s

/-- PERIOD of a series in nanoseconds (Table 16.7). -/
def State.seriesPeriod (s : State) (k : Nat) : Nat :=
  [100000000, 1000000000, 10000000000, 60000000000].getD (bits (s.seriesCfg k).2 26 25) 0

/-- SERIES_SAMPLE (R485): the period of a SAMPLE series ends. -/
def execSeriesSample (k : Nat) (s : State) : Res :=
  (let s := s.fresh
   if 1024 ≤ k ∨ (s.seriesCfg k).1 / 2 ^ 30 ≠ 2 then s else (s.every (.series k) (s.seriesPeriod k)).sampleSeries k).done s

/-! ### History (R488, R489) -/

/-- A bin of a history block with a live bin added, and whether it saturated now. -/
def foldBin (a b : Nat) : Nat × Bool := (satAdd (2 ^ 32 - 1) a b, a < 2 ^ 32 - 1 && 2 ^ 32 - 1 ≤ a + b)

/-- A history block after a live block has been folded into it (R488, R490), and the bins that saturated. -/
def SeriesBlock.fold (h l : SeriesBlock) (sample : Bool) : SeriesBlock × List Nat :=
  let (t, o) := satSum h.sum l.sum
  let bins := List.zipWith foldBin h.bins l.bins
  let sats := (List.range 16).filter (fun i => (bins.getD i (0, false)).2)
  let first := h.count = 0
  let f := { h with gen := (h.gen + 2) % 2 ^ 32, count := (h.count + l.count) % 2 ^ 64, sum := t, bins := bins.map Prod.fst,
                    flags := h.flags ||| (l.flags % 8) ||| b2n o ||| (if sats.isEmpty then 0 else 4) }
  let d := fun (x : Nat) => Nat.min 65535 (l.boot + x - h.boot)
  let f := if sample && l.count ≠ 0 && (first || l.min < h.min) then { f with min := l.min, minAt := l.minAt, minBootD := d l.minBootD } else f
  (if l.count ≠ 0 && (first || h.max < l.max) then { f with max := l.max, maxAt := l.maxAt, maxBootD := d l.maxBootD } else f, sats)

/-- Fold the live block of series k into block i of its history. -/
def State.foldInto (s : State) (k i : Nat) (l : SeriesBlock) : State :=
  let h := s.historyBlock (32 * k + i)
  let (b, sats) := h.fold l ((s.seriesCfg k).1 / 2 ^ 30 = 2)
  let s := { s with nv := { s.nv with history := Tab.put s.nv.history (32 * k + i) b } }
  sats.foldl (fun s bin => s.raise 722 1 [k, bin]) s

/-- Every live block is folded into its lifetime and its current period block, and reopens (R488). -/
def State.fold (s : State) : State :=
  let s := s.recd.live.foldl (fun s kv =>
    if kv.2.count = 0 ∧ kv.2.flags = 0 then s else (s.foldInto kv.1 0 kv.2).foldInto kv.1 s.nv.period kv.2) s
  s.modRecd (fun r => { r with
    openBoot := s.nv.bootNumber
    openAt := s.time
    openGen := (r.openGen + 2) % 2 ^ 32
    live := Tab.mapVals (fun _ b => { SeriesBlock.fresh s.nv.bootNumber s.time with gen := (b.gen + 2) % 2 ^ 32 }) r.live })

/-- HISTORY_FOLD (R488): KEEP_MIN minutes after the last fold. -/
def execHistoryFold (s : State) : Res :=
  (s.fresh.notBefore (s.recd.openAt + s.fld REC_CTRL_KEEP_MIN * 60000000000)).fold.done s

/-- The next period block opens (R489); boot is the boot number it opens in. -/
def State.nextPeriod (s : State) (boot : Nat) : State :=
  let p := s.nv.period % 30 + 1
  let opened := fun (b : SeriesBlock) => { SeriesBlock.fresh boot s.time with gen := (b.gen + 2) % 2 ^ 32 }
  let n := s.nv
  { s with nv := { n with
      period := p
      periodAt := s.time
      history := Tab.mapVals (fun i b => if i % 32 = p then opened b else b) n.history
      histDef := Tab.put n.histDef p (opened (Tab.lookD n.histDef p (SeriesBlock.fresh 0 0))) } }

/-- HISTORY_PERIOD_CLOSE (R489): 24 h of device time after the period block opened. -/
def execHistoryPeriodClose (s : State) : Res :=
  ((s.fresh.notBefore (s.nv.periodAt + 86400000000000)).nextPeriod s.nv.bootNumber).done s

/-! ### Snapshots (R490) -/

/-- A write of REC_SNAP_CMD: one snapshot runs at a time; its copy is of the instant of the command. -/
def State.startSnapshot (s : State) (m : Nat) : State :=
  let res := fun (s : State) (c : Nat) => s.modRecd (fun r => { r with snapRes := Tab.put r.snapRes m (c * 2 ^ 30 + r.snapSeq % 2 ^ 30) })
  if s.recd.snapRun.isSome then res s 2
  else
    let n := (s.recd.snapSeq + 1) % 2 ^ 64
    let s := s.modRecd (fun r => { r with snapSeq := n, snapRun := some m })
    let (e, s) := s.store ⟨0xE8, 0⟩ (s.recd.snapAddr / 8 * 8) (s.snapshot n)
    res (s.modRecd (fun r => { r with snapBad := e ≠ .ok })) 3

/-- REC_SNAP_CMD (R490). -/
def execRecSnapCmd (r : Req) (s : State) : Res :=
  (s.fresh.atRegW r (REC_SNAP_CMD.key 0 0) (fun s => s.startSnapshot r.master)).done s

/-- SNAPSHOT_DONE (R490): the running snapshot ends; its master reads done, or refused when a write failed. -/
def execSnapshotDone (s : State) : Res :=
  (let s := s.fresh
   match s.recd.snapRun with
   | none => s
   | some m =>
     let v := Tab.lookD s.recd.snapRes m 0
     s.modRecd (fun r => { r with
       snapRun := none
       snapBad := false
       snapRes := if v / 2 ^ 30 = 3 then Tab.put r.snapRes m (v % 2 ^ 30 + (if r.snapBad then 2 else 1) * 2 ^ 30) else r.snapRes })).done s

end Sys2Proof.Machine
end

