-- ==== Sys2Proof/Machine/Flush.lean ====
section
/-!
DEFINITION. The emergency flush (R88, R155, R199), what becomes of it at the next start (R189), and the recovery of the map at step 13
of Table 3.12 (R218-R220) with the end of a start at step 14 (R94).
-/
namespace Sys2Proof.Machine

/-! ### What ends when the flush begins (R155, R199 step 1) -/

/-- The array report of an operation that ends well. -/
def goodEnd (l : Lun) : ArrayEnd := { ok := true, frames := [], tempC := l.temp, data := [], rowOk := true, hdrOk := true, retrainOk := true, sweep := [] }

/-- A program or erase that runs on a LUN ends well; a read or sweep that runs goes on to its own end. A suspended erase is abandoned, its
block unusable until it is erased again, and operations without FLUSH lose their reservation (R155). -/
def State.flushLun (s : State) (i : Nat) : State :=
  match s.lun i with
  | none => s
  | some l =>
    let ends := match l.running with | some o => o.op = 2 || o.op = 3 | none => false
    let q := l.queue.map (fun o => if bit o.flags 5 then o else { o with reserved := false })
    let s := s.putLun i { l with running := if ends then none else l.running, suspended := none, queue := q }
    let s := if q.any (fun o => o.reserved) then s
             else s.modFlash (fun f => { f with reserve := Tab.upd f.reserve (i / 128) (fun r => r.filter (fun j => j ≠ i)) })
    let s := match l.suspended with
      | some o => (s.putBlk i o.block { s.blk i o.block with torn := true }).opEnd i o 0x18 0 0 0
      | none => s
    match l.running with
    | some o =>
      if o.op = 2 then s.programEnd i l o true
      else if o.op = 3 then s.eraseEnd i l o (goodEnd l)
      else s
    | none => s

/-- A queued FLUSH program of a LUN runs to its end, if the checks and the gate let it start (R155, R440). -/
def State.flushOp (s : State) (i : Nat) (o : FlashOp) : State :=
  match s.lun i with
  | none => s
  | some l =>
    if !bit o.flags 5 ∨ o.op ≠ 2 ∨ !l.queue.contains o ∨ l.running.isSome ∨ !s.credit i o.cost then s
    else
      let s := s.putLun i { l with queue := l.queue.erase o }
      match s.programBad o i (s.blk i o.block).wp with
      | some c => s.opRefused i o c
      | none => s.programEnd i l o true

/-- The queued FLUSH programs of a LUN run in queue order. -/
def State.flushOps (s : State) (i : Nat) : State :=
  (((s.lun i).map (fun l => l.queue)).getD []).foldl (fun s o => s.flushOp i o) s

/-- Operations queued without FLUSH end ABORTED once the flush ends (R155). -/
def State.flushAborts (s : State) (i : Nat) : State :=
  match s.lun i with
  | none => s
  | some l =>
    let s := s.putLun i { l with queue := l.queue.filter (fun o => bit o.flags 5) }
    (l.queue.filter (fun o => !bit o.flags 5)).foldl (fun s o => (s.opEnd i o 0x18 0 0 0).ownerLost o) s

/-- Array operations cut off without a flush: a block whose erase ran or was suspended is unusable until it is erased again. -/
def State.cutLuns (s : State) : State :=
  s.flash.luns.foldl (fun s kv =>
    let ops := (kv.2.running.toList ++ kv.2.suspended.toList).filter (fun o => o.op = 3)
    ops.foldl (fun s o => s.putBlk kv.1 o.block { s.blk kv.1 o.block with torn := true }) s) s

/-- The flush begins: no operation without FLUSH starts any more. -/
def State.flushBegin (s : State) : State :=
  let s := (s.modFlash (fun f => { f with flushMode := true })).modFtl (fun f => { f with flushRun := true })
  s.lunsInUse.foldl (fun s i => s.flushLun i) s

/-! ### Writes whose data have arrived (R86, Table 3.17) -/

/-- What a unit holds that a command still waits for: its buffered version, else the extent on flash. -/
def State.unitNow (s : State) (laddr : Nat) : List Byte :=
  match s.lookUnit laddr with
  | .data d => d
  | .lost => []
  | .flash e => ((Tab.look s.ftl.media (entryPlace e)).map (fun x => x.plain)).getD []
  | .miss _ => ((Tab.look s.ftl.media (entryPlace (s.mapEntry laddr))).map (fun x => x.plain)).getD []

/-- A write whose data have fully arrived goes on to the write buffer, whatever it still waits for. -/
def State.commitArrived (s : State) (ref : CmdRef) : State :=
  match s.outCmd ref with
  | none => s
  | some o =>
    match o.io with
    | some (.write, c) =>
      (match s.nsOf c.nsid with
       | none => s
       | some n =>
         if n.spread then s
         else
           let got := o.need.map (fun l => (l, s.unitNow l))
           let o' := { o with need := [], got := o.got ++ got, stage := .started }
           (s.modOut ref (fun _ => o')).ioFinish o' .write c n)
    | _ => s

/-- Every such write of any pod. -/
def State.commitAllArrived (s : State) : State :=
  ((s.host.out.filter (fun o => o.arrived)).map (fun o => (⟨o.pod, o.qid, o.cid⟩ : CmdRef))).foldl (fun s c => s.commitArrived c) s

/-! ### Entries to the flush reserve (R199 step 2) -/

/-- Where the flush writes: the lane of the block it fills, the erased reserve blocks left, and whether they ran out. -/
structure Pack where
  cur : Option (Nat × Lane)
  left : List (Nat × Nat)
  short : Bool
  deriving DecidableEq, Repr

/-- The erased blocks of the flush reserve of every LUN whose credit gate grants a program, LUN by LUN (R155, R156). -/
def State.flushPlaces (s : State) : List (Nat × Nat) :=
  (s.lunsInUse.filter (fun i => s.credit i (s.opCost 2 1))).flatMap (fun i =>
    ((List.range (((s.lun i).map (fun l => l.blocks)).getD 0)).filter (fun b =>
      (s.blk i b).pool = 4 && (s.blk i b).wp = 0 && !(s.blk i b).torn)).map (fun b => (i, b)))

/-- A lane of the reserve: SLC, filled alone, so that no frame of it is parity of a stripe row. -/
def State.flushLane (s : State) (i b : Nat) : Lane :=
  { sb := sbOf i b, slc := true, idx := 2 ^ 40, width := 2 ^ 40 + 1, wl := 4,
    dataFrames := 4 * (((s.lun i).map Lun.slcPages).getD 1 - 1), base := 0, sealed := 0, cont := 0, recs := [], curAt := none,
    placed := [], lastSeq := 0, heads := [], toProgram := [], closed := false }

/-- The open block of the flush is sealed and programmed: its extents are on flash and their records made. -/
def State.flushSeal (s : State) (p : Pack) : State :=
  match p.cur with
  | none => s
  | some (i, l) =>
    let l := l.sealWordline s.time 64
    let b := l.sb % 2 ^ 14
    -- the frames' FLAGS: SLC and FLUSH (Table 6.2)
    let s := (s.putBlk i b { s.blk i b with wp := l.base / 4, group := 2 }).putHeads i b 5 l.heads
    l.placed.foldl (fun s q => s.extentDone i l q) s

/-- Place one extent, opening the next block when the one being filled is full. -/
def State.flushPut (s : State) (p : Pack) (e : Extent) (wb : Nat) : Nat → Pack × State
  | 0 => (p, s)
  | n + 1 =>
    match p.cur with
    | none =>
      (match p.left with
       | [] => ({ p with short := true }, s)
       | (i, b) :: rest => s.flushPut { p with cur := some (i, s.flushLane i b), left := rest } e wb n)
    | some (i, l) =>
      match l.put s.time e wb 16 with
      | some l' => ({ p with cur := some (i, l') }, s)
      | none => (s.flushSeal p).flushPut { p with cur := none } e wb n

/-- What a compression pipe makes of an entry that has not left one (R224-R230): grains, RAW and key; none without a key. -/
def State.pressed (s : State) (w : WEntry) : Option WEntry :=
  if 2 ≤ w.step then some w
  else
    let size := w.data.length
    let hold := ((s.nsOf (nsidOf w.laddr)).map Ns.hold).getD 0 ≠ 0 && !bit w.laddr 39
    let fenced := s.pipesOn.all (fun p => s.pipeFenced p) || hold
    let zero := !fenced && allZero w.data
    let g := ceilDiv (16 + (Config.deflate (s.fld CMP_CTRL_EFFORT_UNIT) w.data).length) 64
    let raw := !zero && (fenced || decide (size / 64 ≤ g))
    (s.keyOf (w.laddr / 2 ^ 40)).map (fun k =>
      { w with step := 2, grains := if zero then 0 else if raw then size / 64 else g, raw := raw, key := k
               body := if zero then [] else if raw then w.data else container (Config.deflate (s.fld CMP_CTRL_EFFORT_UNIT) w.data) w.data })

/-- One entry of the write buffer is flushed; an extent placed before keeps its sequence number (R184). -/
def State.flushEntry (s : State) (p : Pack) (w0 : WEntry) : Pack × State :=
  match s.pressed w0 with
  | none => (p, s.modWb w0.id (fun w => { w with step := 4, dead := true }))
  | some w =>
    if w.grains = 0 then (p, s.placeZero w)
    else
      let seq0 := s.pair FTL_SEQ_LO FTL_SEQ_HI
      let seq := if w.seq = 0 then seq0 else w.seq
      let s := if w.seq = 0 then s.putPair FTL_SEQ_LO FTL_SEQ_HI ((seq0 + 1) % 2 ^ 64) else s
      let s := s.modWb w.id (fun x => { x with seq := seq, grains := w.grains, raw := w.raw, key := w.key, body := w.body })
      s.flushPut p ⟨seq, w.laddr, w.grains, w.raw, w.key, w.data, w.body⟩ w.id 4096

/-- The entries not yet programmed, oldest first: all of them, or the first n when the energy ends there. -/
def State.flushEntries (s : State) (limit : Option Nat) : Pack × State :=
  let ws := s.ftl.wbuf.filter (fun w => w.step < 4 && !w.dead)
  let ws := match limit with | some n => ws.take n | none => ws
  let (p, s) := ws.foldl (fun (a : Pack × State) w => a.2.flushEntry a.1 w) (⟨none, s.flushPlaces, false⟩, s)
  (p, s.flushSeal p)

/-! ### The delta log (R199 steps 3 and 4) -/

/-- The frames of the flush are in METADATA blocks, the last one with FLUSH_COMPLETE (R199 step 4); which PFAs they take is free. -/
def State.flushFrames (s : State) (complete : Bool) : State :=
  let l := s.ftl.frames
  (List.range l.length).foldl (fun (s : State) k =>
    match l[k]? with
    | none => s
    | some j =>
      let (p, s) := s.draw (2 ^ 45)
      s.modFtl (fun f => { f with
        jstore := Tab.put f.jstore p (j, complete && decide (k + 1 = l.length)), jplaces := Tab.put f.jplaces j.jseq p })) s

/-- Every record is durable. Where the log is empty, the frame with FLUSH_COMPLETE holds no record. -/
def State.flushLog (s : State) (complete : Bool) : State :=
  let s := s.closeFrame
  let hor := s.horizonNow
  let s := if s.ftl.frames.isEmpty ∧ complete then
    s.modFtl (fun f => { f with frames := [⟨f.jnext, hor, []⟩], jnext := f.jnext + 1 }) else s
  let s := s.flushFrames complete
  let s := s.modFtl (fun f => { f with
    dmap := f.frames.foldl (fun m j => j.recs.foldl applyDelta m) f.dmap
    recDurable := f.recCount
    horizon := hor
    frames := []
    flushComplete := complete })
  ((s.putPair FTL_JSEQ_LO FTL_JSEQ_HI (s.ftl.jnext - 1)).countFrames).releaseDurable

/-- Steps 2 to 4 of the flush. It is complete when every entry found a place and its energy did not end before. -/
def State.flushRun (s : State) (limit : Option Nat) : State :=
  let s := if limit.isSome then s else s.lunsInUse.foldl (fun s i => s.flushOps i) s
  let (p, s) := s.flushEntries limit
  let s := if limit.isSome then s.modFtl (fun f => { f with flushComplete := false }) else s.flushLog (!p.short)
  s.lunsInUse.foldl (fun s i => s.flushAborts i) s

/-- The whole flush, run before a reset clears what it writes (R88); the accelerators run once the map has been recovered. -/
def State.emergencyFlush (s : State) : State :=
  if s.flag FTL_CTRL_ENABLE then s.commitAllArrived.flushBegin.flushRun none else s

/-! ### The start after a flush (R189, R219) -/

/-- The reserve blocks a flush programmed enter SLC_BUFFER, and the reserve is refilled from FREE blocks, the lowest first. -/
def State.flushSpilled (s : State) : State :=
  s.lunsInUse.foldl (fun s i =>
    match s.lun i with
    | none => s
    | some l =>
      let all := List.range l.blocks
      let used := all.filter (fun b => (s.blk i b).pool = 4 && (s.blk i b).wp ≠ 0)
      let s := used.foldl (fun s b =>
        let k := sbOf i b
        let sb : SuperBlock := (Tab.look s.ftl.sbs k).getD
          { state := 1, slc := true, lanes := [], retired := [], openSeq := s.pair FTL_SEQ_LO FTL_SEQ_HI, openedAt := s.time,
            closedAt := s.time, erased := [], reclaimNo := 0, relNo := 0, openNo := s.ftl.sbCount }
        (s.putBlk i b { s.blk i b with pool := 2 }).modFtl (fun f => { f with sbs := Tab.put f.sbs k { sb with lanes := sb.lanes ++ [i] } })) s
      let have_ := (all.filter (fun b => (s.blk i b).pool = 4)).length
      let free := all.filter (fun b => (s.blk i b).pool = 0 && (s.blk i b).wp = 0 && !(s.blk i b).torn && !Tab.has s.ftl.sbs (sbOf i b))
      (free.take (s.fld LDP_RESERVE_FLUSH_BLOCKS - have_)).foldl (fun s b => s.putBlk i b { s.blk i b with pool := 4 }) s) s

/-- Superblocks open at the reset are CLOSED: their lanes are gone; those being erased are erased again. -/
def State.closeOpen (s : State) : State :=
  s.ftl.sbs.foldl (fun s kv =>
    let b := kv.2
    if b.state = 0 then
      let s := s.modFtl (fun f => { f with sbs := Tab.put f.sbs kv.1 { b with state := 1, closedAt := s.time } })
      s.append 6 (b.openSeq % 2 ^ 40) (kv.1 / 2 ^ 14 * 2 ^ 58 + kv.1 % 2 ^ 14 * 2 ^ 44 + 1)
    else if b.state = 2 then s.modFtl (fun f => { f with sbs := Tab.put f.sbs kv.1 { b with erased := [] } })
    else s) s

/-- Operations that the reset interrupted go on at step 13: sanitize (1) and a scan rebuild (2) (Table 3.20); the cause stands
for the operation in the subject (log entry 173). -/
def State.resumed (s : State) : State :=
  let l := s.boot.interrupted.filter (fun c => c = 1 || c = 2)
  let s := { s with boot := { s.boot with interrupted := s.boot.interrupted.filter (fun c => c ≠ 1 && c ≠ 2) } }
  l.foldl (fun s c => s.raise 8 c [c]) s

/-- Step 14: the namespaces are ready, and so are the controllers that wait for them (R83, R94). -/
def State.bootDone (s : State) : State :=
  if s.boot.bootDone then s
  else
    let s := { s with boot := { s.boot with bootDone := true } }.phaseTo 7
    let s := (s.host.ctrls.map (fun kv => kv.1)).foldl (fun s p => s.ctrlReady p) s
    s.raise 9 1 [(s.time - s.boot.startAt) / 1000000]

/-- A key record that cannot be unwrapped is reported (R98, R138); one that an unfinished crypto erase has left under an old epoch is not. -/
def State.unwrapCheck (s : State) (slot : Nat) : State :=
  match s.nv.keyRec slot with
  | none => s
  | some k =>
    if !s.sgn.mediaRoot then s.raise 717 2 [slot]
    else if k.epoch = s.nv.mediaEpoch ∧ !k.intact then s.raise 717 1 [slot]
    else s

/-- Every namespace whose key is there is ready (R138). -/
def State.keysReady (s : State) : State :=
  let s := s.modHost (fun h => { h with ns := Tab.mapVals (fun k n =>
    if n.status = 1 ∨ n.status = 2 then { n with status := s.nsKeyStatus k } else n) h.ns })
  let slots : List Nat := ((s.host.ns.filter (fun kv => kv.2.status = 2)).map (fun kv => kv.1 - 1)) ++ [8192]
  slots.foldl State.unwrapCheck s

/-- The map pages not held are read, in background (R218). -/
def State.pagesLoad (s : State) : State := s.ftl.unheld.foldl (fun s k => s.readPage k) s

/-- FTL_SEQ at a start: 2^20 above the highest value found on flash or in the journal (R184); where none is found it stays at reset. -/
def State.seqResumed (s : State) : State :=
  let found := s.ftl.media.foldl (fun a kv => max a kv.2.seq) s.ftl.horizon
  if s.ftl.media.isEmpty ∧ s.ftl.jplaces.isEmpty then s else s.putPair FTL_SEQ_LO FTL_SEQ_HI ((found + 2 ^ 20) % 2 ^ 64)

/-- Map recovery ends (R218): treeOk tells whether root and tree verified, ms how long it took. By a checkpoint the map pages load in
background, and a unit whose page is not held yet waits for it (R178). -/
def State.mapRecover (s : State) (ms : Nat) (treeOk : Bool) : State :=
  let full := s.nv.mapCkpt % 2 = 0 ∨ !treeOk
  let tail := !s.ftl.flushComplete
  let cause := if full then (if s.nv.rebuildCkpt ≠ 0 then 4 else 3) else if tail then 2 else 1
  let s := (s.phaseTo 6).firstFormat
  let m := if full then s.fullMap else if tail then s.tailScan s.ftl.dmap else s.ftl.dmap
  let s := s.modFtl (fun f => { f with
    map := m, dmap := m, ckptRun := if full then some f.jnext else f.ckptRun, groupAt := s.time
    unheld := if full then [] else f.dir.map (fun kv => kv.1), dir := if full then [] else f.dir })
  let s := s.seqResumed
  let s := (s.setFld FTL_STAT_FULL (b2n full)).setFld FTL_STAT_TAIL (b2n (!full && tail))
  let s := s.setFld FTL_STAT_LEGACY (b2n s.ftl.legacy)
  let s := (s.makeGroups.flushSpilled.closeOpen).resumed.raise 352 cause [ms]
  let s :=
    if s.nv.breach then (s.setFld FTL_DUR_BREACH 1).raise 353 4 [s.fld FTL_DUR_WT_CAUSE] else s
  let s := s.setFld FTL_STAT_STATE (if s.nv.sanitize.phase ≠ 0 then 6 else if s.ftl.readOnly then 5 else 4)
  let s := s.setFld FTL_CTRL_ENABLE 1
  let s := s.keysReady
  let s := s.sets.foldl (fun s t => s.urgency t) s
  let s := if s.nv.sanitize.phase ≠ 0 ∧ s.nv.sanitize.phase ≠ 5 then
    s.raise 358 2 [s.nv.sanitize.sanact, s.nv.sanitize.phase] else s
  s.spareCheck.pagesLoad.bootDone

/-- MAP_RECOVERY_COMPLETE (R218-R220): step 13 of Table 3.12 has recovered the map. -/
def execMapRecoveryComplete (ms : Nat) (treeOk : Bool) (s : State) : Res := (s.fresh.mapRecover ms treeOk).done s

end Sys2Proof.Machine
end

