-- ==== Sys2Proof/Machine/Reset.lean ====
section
/-!
DEFINITION. The resets of the whole device (R84, R85, Tables 3.16, 3.17): cold (1), NVM subsystem (2) and watchdog (3): the emergency
flush before them (R88), what each clears and keeps, and what is to be resumed after it (R92).
-/
namespace Sys2Proof.Machine

/-- The windows that stand in D00 (Table 1.1). -/
def inD00 (win : Nat) : Bool := [0x00, 0x01, 0x03, 0x04, 0x09, 0x0A, 0x17].contains win

/-! ### Registers -/

/-- What a register holds after an NSSR (2) or watchdog reset (3): in D00 it keeps what it holds, elsewhere it starts from its reset
value; fields the image sets are read again after an NSSR and kept by a watchdog reset (Table 3.17). EXPIRIES is held in D00 (R447),
and the health DEGRADED or FAILED of a memory region holds until a cold reset (R397). -/
def regAfter (p : Part) (kind key : Nat) (v : Word) : Nat :=
  let win := key / 0x100000
  let off := key % 0x100000
  let m := rwlMask key
  if inD00 win then (if kind = 2 then (v.toNat &&& ((2 ^ 32 - 1) - m)) ||| (resetOf p key &&& m) else v.toNat)
  else if key = HSK_HB_STAT.key 0 0 then v.toNat
  else if win = 0x0C ∧ 0x200 ≤ off ∧ off < 0x27C ∧ v.toNat < 2 ^ 31 then v.toNat / 2 ^ 29 * 2 ^ 29
  else if kind = 3 then keepRwl p key v
  else resetOf p key

/-- The registers after a device-wide reset. -/
def State.regsAfter (s : State) (kind : Nat) : Tab Word :=
  if kind = 1 then []
  else
    (s.regs.map (fun kv => (kv.1, regAfter s.part kind kv.1 kv.2))).filterMap (fun kv =>
      if kv.2 = resetOf s.part kv.1 then none else some (kv.1, BitVec.ofNat 32 kv.2))

/-- Status of the start itself, which begins anew: CFG_BOOT_STAT and what CFG_MEM_INIT shows; the applied sequence number is read
again with the image. -/
def State.bootRegs (s : State) (kind : Nat) : State :=
  let s := if kind = 3 then s.setFld CFG_BOOT_STAT_PHASE 0 else s.putReg CFG_BOOT_STAT 0
  let s := ((s.setFld CFG_MEM_INIT_SRAM_DONE 0).setFld CFG_MEM_INIT_DRAM_DONE 0).setFld CFG_MEM_INIT_PROGRESS 0
  if kind = 3 then s else s.putPair CFG_IMAGE_SEQ_LO CFG_IMAGE_SEQ_HI 0

/-! ### What the reset interrupts (R92, Table 3.20) -/

/-- Whether a hardware fill of DRAM or shared SRAM runs: between training and the last DONE bit. -/
def State.fillRuns (s : State) : Bool :=
  let ph := s.fld CFG_BOOT_STAT_PHASE
  4 ≤ ph && ph < 15
    && ((!s.flag CFG_MEM_INIT_DRAM_MODE && s.dram.mapped.any (fun c => !bit (s.fld CFG_MEM_INIT_DRAM_DONE) c))
        || (!s.flag CFG_MEM_INIT_SRAM_MODE && !s.flag CFG_MEM_INIT_SRAM_DONE))

/-- Whether a full rebuild of the map runs at step 13; bad tells that the root or its tree has failed (R218). -/
def State.rebuildRuns (s : State) (bad : Bool) : Bool :=
  s.fld CFG_BOOT_STAT_PHASE = 6 && (s.nv.mapCkpt % 2 = 0 || bad) && !s.lunsInUse.isEmpty

/-- Note the long operations the reset interrupts; the checkpoint of a rebuild is in ledger memory, its value a free one, and so is whether a
VALID checkpoint's tree has been found bad, which only the end of the recovery reports. -/
def State.noteInterrupted (s0 : State) : State :=
  let (b, s) := if s0.rebuildRuns true && !s0.rebuildRuns false then s0.draw 2 else (0, s0)
  let runs := s.rebuildRuns (decide (b = 1))
  let act := match s.host.fwAct with
    | some a => [if s.nv.fwActive.slot = a.slot then 5 else 4]
    | none => []
  let l := (if s.nv.sanitize.phase ≠ 0 ∧ s.nv.sanitize.phase ≠ 5 then [1] else []) ++ (if runs then [2] else []) ++ (if s.fillRuns then [3] else []) ++ act
  let s := { s with boot := { s.boot with interrupted := podsOf (s.boot.interrupted ++ l) } }
  if runs ∧ s.nv.rebuildCkpt = 0 then
    let (v, s) := s.draw (2 ^ 64 - 1)
    s.modNv (fun n => { n with rebuildCkpt := v + 1 })
  else s

/-! ### Units -/

/-- The host interface after a device-wide reset: queues and commands are gone, pods but pod 0 with them, namespaces wait for step 13;
what a namespace command had begun to create is undone. -/
def State.hostCleared (s : State) : State :=
  let s := s.selfTestEnd 8 0
  let s := (s.host.nsOps.filter (fun o => o.kind = 0)).foldl (fun s o => s.nsUndo o.nsid) s
  s.modHost (fun h => { State.reset.host with
    ns := Tab.mapVals (fun _ n => { n with status := 1, pods := n.pods.filter (fun p => p = 0) }) h.ns
    selfTest := h.selfTest
    tsOffset := h.tsOffset })

/-- Memory state that only a cold reset ends: ledger memory's own, and units found unmappable. -/
def MemState.kept (d : MemState) : MemState :=
  { State.reset.dram with
    bad := d.bad.filter (fun kv => 0xE800000000 ≤ kv.1 * 64)
    watch := d.watch.filter (fun kv => kv.1 = 6)
    pass := d.pass.filter (fun kv => kv.1 = 6)
    scrubAt := d.scrubAt.filter (fun kv => kv.1 = 6)
    unmappable := d.unmappable }

/-- A superblock after a reset: a RECLAIMABLE state whose record was not durable is lost, and so is what lost records released (R204). -/
def SuperBlock.onRestart (b : SuperBlock) (durable : Nat) : SuperBlock :=
  { b with state := if b.state = 2 ∧ durable < b.reclaimNo then 1 else b.state, relNo := min b.relNo durable }

/-- The translation layer: what DRAM held is gone, the durable map and what is on flash stay. -/
def FtlState.kept (f : FtlState) : FtlState :=
  { State.reset.ftl with
    map := f.dmap, dmap := f.dmap, media := f.media, blocks := f.blocks, wnext := f.wnext, recCount := f.recDurable,
    recDurable := f.recDurable, jnext := f.jnext, horizon := f.horizon, flushComplete := f.flushComplete, ckptGen := f.ckptGen,
    heads := f.heads, jstore := f.jstore, dir := f.dir, saved := f.saved, sbCount := f.sbCount,
    sbs := Tab.mapVals (fun _ b => b.onRestart f.recDurable) f.sbs, jplaces := f.jplaces, rootPfa := f.rootPfa, readNext := f.readNext, cap := f.cap, s0 := f.s0, archive := f.archive,
    spareWarned := f.spareWarned, readOnly := f.readOnly, usedWarned := f.usedWarned, badWarned := f.badWarned, legacy := f.legacy,
    wrLevel := f.wrLevel, wrAt := f.wrAt }

/-- A spread namespace after a reset: no bitmaps, so that absent members are resynchronised in full, and a rebuild goes back to its last
progress point (R472). -/
def Spread.onRestart (x : Spread) : Spread :=
  { x with missed := [], whole := x.absent, sync := [], rebuild := x.rebuild.map (fun r => (r.1, r.2.1, r.2.2 / 1024 * 1024)) }

/-- Every unit outside D00 and ledger memory starts anew; the upper words that reads of D00's pairs have latched stay (R18). -/
def State.unitsCleared (s : State) : State :=
  let s := s.cutLuns.hostCleared
  { s with
    hiLatch := s.hiLatch.filter (fun kv => inD00 (kv.1 % 0x4000000 / 0x100000))
    mem := []
    dramEnd := 0
    bg := []
    hsf := State.reset.hsf
    hsk := { State.reset.hsk with cleanSince := s.hsk.cleanSince }
    evt := { s.evt with hostRing := [], noticed := [] }
    sgn := State.reset.sgn
    dig := State.reset.dig
    ldg := State.reset.ldg
    key := State.reset.key
    flash := { State.reset.flash with patrolAt := s.time, dayAt := s.time }
    tsk := State.reset.tsk
    pod := State.reset.pod
    dram := s.dram.kept
    ftl := s.ftl.kept
    cmp := State.reset.cmp
    scn := State.reset.scn
    ask := { State.reset.ask with spreads := Tab.mapVals (fun _ x => x.onRestart) s.ask.spreads, next := s.ask.next } }

/-- The start-up state: firmware does not run, MOD_READY falls, no other reset is in progress. -/
def State.bootCleared (s : State) (kind : Nat) : State :=
  let b := { s.boot with
    modReady := false, fwSlot := 0, fwSvn := 0, fwDigest := State.reset.boot.fwDigest, fwRunning := false, bootDone := false,
    recs := [], booted := false, startAt := s.time, resets := [], permitGone := true }
  { s with boot := if kind = 3 then b else { b with
      locked := false, testPermit := 0, board := State.reset.boot.board, imageDigest := State.reset.boot.imageDigest,
      imageSigner := State.reset.boot.imageSigner, floorAt8 := 0 } }

/-! ### Domains, loops and governors -/

/-- Domains an NSSR leaves on, and those a watchdog reset resets in place (R411). -/
def State.domsAfter (s : State) (kind d : Nat) : Bool :=
  if d < 2 then true
  else if kind ≠ 3 then false
  else if 10 ≤ d ∧ d < 16 then !s.safe && domPresent s.part d
  else if d = 31 then s.flag HIF_PORT_CFG_SPLIT && s.domOn 31
  else if (2 ≤ d ∧ d < 10) ∨ (24 ≤ d ∧ d < 30) ∨ d = 33 ∨ d = 34 ∨ d = 39 then false
  else s.domOn d

/-- The domains after the reset; a watchdog reset reports those it switches off. -/
def State.domsReset (s : State) (kind : Nat) : State :=
  let on := (List.range 40).filter (fun d => s.domsAfter kind d)
  let off := (List.range 40).filter (fun d => s.domOn d && !on.contains d)
  let mask := fun (lo : Nat) => on.foldl (fun a d => if lo ≤ d ∧ d < lo + 32 then a + 2 ^ (d - lo) else a) 0
  let s := s.modPwr (fun w => { w with upping := [], isolating := [] })
  let s := ((s.putReg PWR_DOM_REQ_0 (mask 0)).putReg PWR_DOM_STAT_0 (mask 0)).putReg PWR_DOM_REQ_1 (mask 32)
  let s := s.putReg PWR_DOM_STAT_1 (mask 32)
  let s := (List.range 8).foldl (fun s c => s.setFld CLE_STAT_STATE 0 (c + 1)) s
  if kind = 3 then off.foldl (fun s d => s.raise 101 2 [d]) s else s

/-- The power unit: the last measurement stays in D00 (R418), the trip is over, and the ceiling is that of a start (Table 3.12). -/
def State.pwrCleared (s : State) : State :=
  s.modPwr (fun w => { w with
    trip := 0, dark := false, thermLow := false, ceil := 800, cobDrop := 0, uncoreDrop := 0, powerActs := false, tempActs := false,
    inputActs := false, forced := false, surge := none, down := false, coolSince := none, lowSince := none
    episodes := w.episodes ++ (match w.surge with | some a => [(a, s.time)] | none => []) })

/-! ### The reset -/

/-- Every task ends, as CANCELLED (Table 3.17). -/
def State.cancelAll (s : State) : State := (s.tsk.tasks.map (fun kv => kv.1)).foldl (fun s i => s.cancelTask i true) s

/-- An NSSR (2) or watchdog reset (3): every task is cancelled, the flush, LEAVE on every UP Askif port, and the units of its scope cleared. -/
def State.deviceReset (s : State) (kind : Nat) : State :=
  let s := s.cancelAll.emergencyFlush
  let s := if s.askOn then s.flood 6 [] else s
  let s := (s.resetSeen kind).noteInterrupted
  let s := ((s.unitsCleared.bootCleared kind).domsReset kind).pwrCleared
  ({ s with regs := s.regsAfter kind }.bootRegs kind).raise 7 kind []

/-- What a cold reset loses besides (Table 3.17): device time, the event ring and recorder in D00, the straps and the measurement. The
breach of hold-up is noted (R199), numbering resumes beyond the base (R476), a period block closes (R489), and the write-rate bucket is
full (R429). -/
def State.coldReset (s : State) (pins : Pins) (vBank : Nat) : State :=
  let broken := s.holdUp && !s.ftl.flushComplete
  let s := s.noteInterrupted
  let trip := s.pwr.tripSeen
  let s := { s.unitsCleared with time := 0, regs := [] }.bootCleared 1
  let s := s.modNv (fun n => { n with breach := n.breach || broken })
  let s := { s with
    hiLatch := []
    timers := []
    flash := State.reset.flash
    hsk := State.reset.hsk
    dram := { State.reset.dram with bad := s.dram.bad }
    evt := State.reset.evt
    recd := { State.reset.recd with nextSeq := s.nv.recSeqBase + 2 ^ 20, openBoot := s.nv.bootNumber + 1 }
    pwr := { State.reset.pwr with ready := false, tripSeen := trip, vBank := vBank, pfailLow := false, thermLow := false }
    boot := { s.boot with
      pins := pins, creditAt := 0, jtagIr := 0, i3cAddr := none
      perst := (if pins.perstA then [0] else []) ++ (if pins.perstB then [1] else []) } }
  let s := s.modHost (fun h => { h with tsOffset := 0 })
  let s := s.modFtl (fun f => { f with wrLevel := 2 ^ 200, wrAt := 0 })
  ((s.nextPeriod (s.nv.bootNumber + 1)).resetSeen 1).raise 7 1 []

end Sys2Proof.Machine
end

