-- ==== Sys2Proof/Machine/Power.lean ====
section
/-!
DEFINITION. The control engine's loops and rails (R405-R409, R422, R427), power domains at run time (R410-R413) and flash power groups
(R414, R415).
-/
namespace Sys2Proof.Machine

/-! ### Targets (R405, R422) -/

/-- A loop's target takes a value in mV that Table 13.4 admits, at most the ceiling; the rail moves there afterwards, and a trim ends
when the target changes (R422, R427). -/
def State.setTarget (s : State) (n v : Nat) : State :=
  if !s.targetOk n v then s
  else
    let at_ := s.railMv n
    let old := s.target n
    let v := if 1 ≤ n ∧ n ≤ 9 then min v (s.ceilOf n) else v
    let l := s.loop n
    let far := old + 10 < v || v + 10 < old
    let s := s.putLoop n { l with trim := if v = old then l.trim else 0, quiet := if far then s.time + 1000000 else l.quiet }
    let s := s.putReg CLE_TARGET v n
    if n ≤ 9 then s.setRail n at_ else if n = 10 then s.sramFollows else s

/-- CLE_TARGET_WRITE (R422). -/
def execCleTargetWrite (r : Req) (n w : Nat) (s : State) : Res :=
  (s.fresh.atRegW r (CLE_TARGET.key n 0) (fun s => s.setTarget n (w % 65536))).done s

/-- CLE_COEF_WRITE: a write of COEF_5 makes the set be applied at the loop's next sample (R406). -/
def State.coefWrite (s : State) (n w : Nat) : State :=
  let s := s.storeReg (CLE_COEF.key n 5) w
  s.putLoop n { s.loop n with newCoef := true }

/-- CLE_COEF_WRITE (R406, Table 13.8). -/
def execCleCoefWrite (r : Req) (n w : Nat) (s : State) : Res :=
  (s.fresh.atRegW r (CLE_COEF.key n 5) (fun s => s.coefWrite n w)).done s

/-- A surge's ceiling moves by one step of 10 mV: up to 0.90 V, or down to the sustained point, where the episode ends (R423). -/
def State.surgeStep (s : State) : State :=
  match s.pwr.surge with
  | none => s.modPwr (fun w => { w with ceil := min w.ceil s.sustained })
  | some a =>
    if !s.pwr.down then
      if s.pwr.powerActs ∨ s.pwr.tempActs then s else s.modPwr (fun w => { w with ceil := max w.ceil (min 900 (w.ceil + 10)) })
    else
      let c := if s.sustained < s.pwr.ceil then max s.sustained (s.pwr.ceil - 10) else s.pwr.ceil
      let s := s.modPwr (fun w => { w with ceil := c })
      if c ≤ s.sustained then
        s.modPwr (fun w => { w with surge := none, down := false, episodes := w.episodes ++ [(a, s.time)] })
      else s

/-- TARGET_RAMP_STEP: the uncore is held until firmware takes over the governor (R79); then the surge's ceiling and each of L01-L09
move by one step of 10 mV towards where they are to be (R405, R422, R423). -/
def State.rampStep (s : State) : State :=
  if !s.boot.fwRunning then s
  else (List.range 9).foldl (fun s k => s.railStep (k + 1) 10) s.surgeStep

/-- The time of one step of 10 mV: 100 µs, and 20 µs on the way to the sustained point from 105 °C (R405, R425). -/
def State.rampGap (s : State) : Nat := if s.pwr.forced ∧ s.pwr.surge.isSome then 20000 else 100000

/-- TARGET_RAMP_STEP (R405). -/
def execTargetRampStep (s : State) : Res := ((s.fresh.every .ramp s.rampGap).rampStep).done s

/-! ### Loop arithmetic (R406) -/

/-- sat16: saturate to Q1.15. -/
def sat16 (v : Int) : Int := max (-32768) (min 32767 v)

/-- The 40-bit signed accumulator. -/
def acc40 (v : Int) : Int := toSigned 40 (ofSigned 40 v)

/-- Full scale of a loop in mV (Table 13.4). -/
def fullScale (n : Nat) : Nat :=
  [16000, 1200, 1200, 1200, 1200, 1200, 1200, 1200, 1200, 1200, 1200, 1200, 1600, 1600, 2400, 2400, 2400, 4000, 1600, 2400, 80000,
   16000, 16000, 16000].getD n 16000

/-- A voltage in mV as Q1.15 of a loop's full scale, which 0x7FFF represents; rounded to the nearest. -/
def toQ15 (n mv : Nat) : Int := ((mv * 32767 * 2 + fullScale n) / (2 * fullScale n) : Nat)

/-- Word k of the coefficients in force. -/
def State.coefWord (s : State) (n k : Nat) : Nat :=
  let l := (s.loop n).coef
  if l.isEmpty then resetOf s.part (CLE_COEF.key n k) else l.getD k 0

/-- The upper half of a coefficient word. -/
def State.coefHi (s : State) (n k : Nat) : Int := toSigned 16 (bits (s.coefWord n k) 31 16)

/-- The lower half of a coefficient word. -/
def State.coefLo (s : State) (n k : Nat) : Int := toSigned 16 (bits (s.coefWord n k) 15 0)

/-- A coefficient set written since the last sample is applied as one. -/
def State.coefApply (s : State) (n : Nat) : State :=
  let l := s.loop n
  if l.newCoef then s.putLoop n { l with newCoef := false, coef := (List.range 6).map (fun k => s.reg CLE_COEF n k) } else s

/-- The notch biquad on the error: the error it gives, and the loop with its history. -/
def State.notch (s : State) (n : Nat) (e : Int) (l : Loop) : Int × Loop :=
  if !s.flag CLE_CTRL_NOTCH_EN n then (e, l)
  else
    let acc := s.coefHi n 3 * e + s.coefLo n 3 * l.x1 + s.coefHi n 4 * l.x2
    let acc := acc40 (acc - (s.coefLo n 4 * l.y1 + s.coefHi n 5 * l.y2) * 2)
    let y := sat16 (acc / 32768)
    (y, { l with x1 := e, x2 := l.x1, y1 := y, y2 := l.y1 })

/-- The feed-forward term; the spec states none for an input of 0 V. -/
def State.feedForward (s : State) (n tgt vIn : Nat) : Int × State :=
  if !s.flag CLE_CTRL_FF_EN n then (0, s)
  else if vIn = 0 then let (v, s) := s.draw 32768; ((v : Int), s)
  else (sat16 (toSigned 16 (s.fld CLE_FF_FF_GAIN n) * tgt / vIn), s)

/-- One sample of the arithmetic: the loop with its duty and history, and whether the duty is at its clamp. -/
def State.loopArith (s : State) (n : Nat) (ref v : Int) (tgt vIn : Nat) : State :=
  let l := s.loop n
  let (e, l) := s.notch n (ref - v) l
  let acc := (s.coefHi n 0 * e + s.coefLo n 0 * l.e1 + s.coefHi n 1 * l.e2) * ((2 ^ bits (s.coefWord n 2) 2 0 : Nat) : Int)
  let acc := acc40 (acc - (s.coefLo n 1 * l.u1 + s.coefHi n 2 * l.u2) * 2)
  let uc := sat16 (acc / 32768)
  let (ff, s) := s.feedForward n tgt vIn
  let lo := Config.dutyMin n - ff
  let hi := Config.dutyMax n - ff
  let uc := max lo (min hi uc)
  let s := s.putLoop n { l with duty := uc + ff, e1 := e, e2 := l.e1, u1 := uc, u2 := l.u1 }
  s.setFld CLE_STAT_SATURATED (b2n (decide (uc = lo ∨ uc = hi))) n

/-! ### The plausibility model (R409) -/

/-- The bounds of the fitted R, within 25 % of R_INIT. -/
def State.rBounds (s : State) (n : Nat) : Nat × Nat := let r := s.fld CLE_PLAUS_R_INIT n; (ceilDiv (r * 3) 4, min 65535 (r * 5 / 4))

/-- The bounds of the fitted efficiency: 0.80 to 1.00 in Q1.15. -/
def etaBounds : Nat × Nat := (26215, 32767)

/-- A model not fitted yet starts from R_INIT and an efficiency within its bounds, which the spec does not give. -/
def State.modelInit (s : State) (n : Nat) : State :=
  if s.fld CLE_MODEL_ETA n ≠ 0 then s
  else
    let (v, s) := s.draw (etaBounds.2 + 1 - etaBounds.1)
    (s.setFld CLE_MODEL_R (s.fld CLE_PLAUS_R_INIT n) n).setFld CLE_MODEL_ETA (etaBounds.1 + v) n

/-- Whether measured and predicted output differ by more than PLAUS_MV: v in Q1.15, vIn in mV, i in units of 10 mA, exactly. -/
def State.implausible (s : State) (n : Nat) (v : Int) (vIn i : Nat) : Bool :=
  let pred := (s.loop n).duty * vIn * s.fld CLE_MODEL_ETA n * 1000 - ((i * s.fld CLE_MODEL_R n * 2 ^ 30 : Nat) : Int)
  let meas := v * ((fullScale n * 1000 * 2 ^ 30 : Nat) : Int)
  let d := meas - pred * 32767
  decide (((s.fld CLE_PLAUS_PLAUS_MV n * 1000 * 2 ^ 30 * 32767 : Nat) : Int) < (d.natAbs : Int))

/-- One least-squares step in steady operation: what it gives is open within the bounds; a parameter that reaches a bound is reported. -/
def State.refit (s : State) (n : Nat) : State :=
  let (rl, rh) := s.rBounds n
  let (el, eh) := etaBounds
  let r0 := s.fld CLE_MODEL_R n
  let e0 := s.fld CLE_MODEL_ETA n
  let (a, s) := s.draw (rh + 1 - rl)
  let (b, s) := s.draw (eh + 1 - el)
  let r := rl + a
  let e := el + b
  let s := (s.setFld CLE_MODEL_R r n).setFld CLE_MODEL_ETA e n
  let rb := r = rl ∨ r = rh
  let eb := e = el ∨ e = eh
  let s := s.setFld CLE_STAT_DRIFT (b2n (decide (rb ∨ eb))) n
  let s := if rb ∧ r ≠ r0 then s.raise 100 1 [n] else s
  if eb ∧ e ≠ e0 then s.raise 100 2 [n] else s

/-! ### Faults (R408) -/

/-- The domains a loop supplies: a cob's, and those of the PHYs, the DRAM channels and the flash groups (Table 13.4, log entry 82). -/
def loopDomains (n : Nat) : List Nat :=
  if 1 ≤ n ∧ n ≤ 8 then [n + 1]
  else if n = 12 ∨ n = 13 then (List.range 14).map (fun k => 10 + k) ++ [33, 34]
  else if 14 ≤ n ∧ n ≤ 16 then (List.range 6).map (fun k => 10 + k)
  else if n = 17 ∨ n = 18 then (List.range 8).map (fun k => 16 + k)
  else []

/-- The switches of a flash power group open at once, whatever it runs. -/
def State.groupOpen (s : State) (g : Nat) : State :=
  let s := s.setFld PWR_FPG_CTRL_ON (setBits (s.fld PWR_FPG_CTRL_ON) g g 0)
  if s.fld PWR_FPG_STAT_STATE g = 0 then s else (s.groupGone g).setFld PWR_FPG_STAT_STATE 0 g

/-- ACTION 1: what the loop supplies is switched off. -/
def State.suppliedOff (s : State) (n : Nat) : State :=
  let s := if n = 17 ∨ n = 18 then (List.range (fpgCount s.part)).foldl (fun s g => s.groupOpen g) s else s
  (loopDomains n).foldl (fun s d => (s.setReq d false).domOff d) s

/-- Domains step 3 of Table 13.18 switches off. -/
def failDomains : List Nat := [2, 3, 4, 5, 6, 7, 8, 9, 24, 25, 26, 27, 30, 31, 33, 34, 39]

/-- Open coalescing entries close at once when a power fail or trip is declared (R479). -/
def State.closeNow (s : State) : State := (State.drain drainFuel s).closeAll

/-- Host fetch stops and the shutdown with flush begins: steps 3 and 4 of Table 13.18 on input power (R408, R425). -/
def State.shutdownBegin (s : State) : State :=
  if s.pwr.trip ≠ 0 ∨ s.pwr.fail ≠ 0 then s
  else
    let s := s.closeNow
    let s := { s with boot := { s.boot with modReady := false } }
    let s := s.setFld NVQ_STAT_FETCH_STOPPED 1
    let s := s.modPwr (fun w => { w with trip := 1, failAt := s.time, failDirty := s.dirtyBuf + s.dirtyMap })
    let s : State := failDomains.foldl (fun s d => (s.setReq d false).domOff d) s
    let s := if 800 < s.railMv 9 then s.setRail 9 800 else s
    (if s.flag FTL_CTRL_ENABLE then s.commitAllArrived.flushBegin else s).raise 98 1 [0, 0]

/-- A loop faults: it stops switching and its ACTION applies. -/
def State.loopFault (s : State) (n cause : Nat) : State :=
  let l := s.loop n
  let s := s.putLoop n { l with duty := 0, ovN := 0, uvN := 0, ocN := 0, plausN := 0, rampAt := s.time }
  let s := (s.setFld CLE_STAT_STATE 4 n).setFld CLE_STAT_CAUSE cause n
  let s := (s.countS CLE_STAT_FAULTS CLE_STAT_OVF 1 n).raise 99 cause [n]
  let act := if n = 0 ∨ (9 ≤ n ∧ n ≤ 11) then 2 else s.fld CLE_CTRL_ACTION n
  if act = 1 then s.suppliedOff n else if act = 2 then s.shutdownBegin else s

/-- The comparators' and the plausibility check's counts after a sample, and the first fault they give (R408, R409). -/
def State.loopWatch (s : State) (n : Nat) (v : Int) (tgt vIn i : Nat) (state : Nat) : Option Nat × State :=
  let l := s.loop n
  let mv := v * (fullScale n : Int) * 100
  let at_ := fun (pct : Nat) => ((tgt * 32767 * pct : Nat) : Int)
  let ov := decide (at_ (100 + s.fld CLE_LIMIT_OV n) < mv)
  let uv := state = 3 && decide (mv < at_ (100 - s.fld CLE_LIMIT_UV n))
  let oc := decide (s.fld CLE_LIMIT_OC n < i)
  let pl := state = 3 && decide (l.quiet ≤ s.time) && s.implausible n v vIn i
  let up := fun (b : Bool) (k : Nat) => if b then k + 1 else 0
  let l := { l with ovN := up ov l.ovN, uvN := up uv l.uvN, ocN := up oc l.ocN, plausN := up pl l.plausN }
  let k := s.fld CLE_CTRL_PLAUS_N n
  let s := s.putLoop n l
  (if 2 ≤ l.ovN then some 3 else if k ≤ l.uvN then some 4 else if 2 ≤ l.ocN then some 2 else if k ≤ l.plausN then some 1 else none, s)

/-! ### A sample -/

/-- The ramp of soft start in nanoseconds. -/
def State.rampNs (s : State) (n : Nat) : Nat := s.fld CLE_CTRL_SS_US n * 10000

/-- The reference at a sample (R407): the ramp from the pre-bias, then the target. -/
def State.loopRef (s : State) (n : Nat) (tq : Int) (state : Nat) : Int :=
  let l := s.loop n
  let t := s.rampNs n
  let el := min t (s.time - l.rampAt)
  if state = 2 ∧ 0 < t then l.pre + (tq - l.pre) * el / t else tq

/-- Soft start's outcome at a sample: within 2 % of the target after the ramp it regulates; not so by twice the ramp time it faults. -/
def State.softEnd (s : State) (n : Nat) (v tq : Int) : State :=
  let el := s.time - (s.loop n).rampAt
  let close := decide (((v - tq).natAbs : Int) * 50 ≤ tq)
  if el < s.rampNs n then s
  else if close then s.setFld CLE_STAT_STATE 3 n
  else if 2 * s.rampNs n ≤ el then s.loopFault n 5
  else s

/-- One sample of an enabled loop (R406-R409): output in Q1.15, input in mV, output current in units of 10 mA, and whether current and
input have been steady for 1 ms. -/
def State.loopSample (s : State) (n : Nat) (v : Int) (vIn i : Nat) (steady : Bool) : State :=
  let state := s.fld CLE_STAT_STATE n
  if 22 ≤ n ∨ state = 0 ∨ state = 4 then s
  else
    let v := sat16 v
    let mv := ((max 0 v) * (fullScale n : Int) / 32767).toNat
    let s := (s.setFld CLE_MEAS_MV (min 65535 mv) n).setFld CLE_MEAS_CUR (min 65535 i) n
    let s := (s.coefApply n).modelInit n
    if state = 1 then
      (s.putLoop n { s.loop n with pre := v, rampAt := s.time }).setFld CLE_STAT_STATE 2 n
    else
      let tgt := s.railMv n
      let tq := toQ15 n tgt
      let (f, s) := s.loopWatch n v tgt vIn i state
      match f with
      | some c => s.loopFault n c
      | none =>
        let s := s.loopArith n (s.loopRef n tq state) v tgt vIn
        let s := if steady ∧ state = 3 then s.refit n else s
        if state = 2 then s.softEnd n v tq else s

/-- LOOP_SAMPLE (R406): at 2 MHz / (SAMPLE + 1). -/
def execLoopSample (n : Nat) (v : Int) (vIn i : Nat) (steady : Bool) (s : State) : Res :=
  ((s.fresh.every (.sample n) (500 * (s.fld CLE_CTRL_SAMPLE n + 1))).loopSample n v vIn i steady).done s

/-- LOOP_FAULT_RETRY: soft start begins again 10 ms after a fault of ACTION 0 (R408). -/
def State.loopRetry (s : State) (n : Nat) : State :=
  if s.fld CLE_STAT_STATE n = 4 ∧ s.fld CLE_CTRL_ACTION n = 0 ∧ s.pwr.trip = 0 ∧ s.pwr.fail = 0 then
    (s.notBefore ((s.loop n).rampAt + 10000000)).setFld CLE_STAT_STATE 1 n
  else s

/-- LOOP_FAULT_RETRY (R408). -/
def execLoopFaultRetry (n : Nat) (s : State) : Res := (s.fresh.loopRetry n).done s

/-! ### Power domains at run time (R410-R413, Table 13.10) -/

/-- Domains whose request bit is fixed: D00 and D01 always, the others once step 7 has switched them on (R411). -/
def State.domFixed (s : State) (d : Nat) : Bool :=
  d < 2 || ((d = 30 || d = 31 || d = 32 || (35 ≤ d && d < 39)) && s.domOn 30)
    || (10 ≤ d && d < 16 && s.chanFenced (d - 10) && !s.domReq d)

/-- Whether a domain may be switched on at run time. -/
def State.mayOn (s : State) (d : Nat) : Bool :=
  domPresent s.part d
    && ((2 ≤ d && d < 10) || (16 ≤ d && d < 30) || d = 33 || d = 34
      || (d = 39 && (s.flag SGN_TOKEN_LATCH_TEST || s.flag SGN_TOKEN_LATCH_DEBUG)))

/-- Whether a domain may be switched off at run time. -/
def State.mayOff (s : State) (d : Nat) : Bool :=
  if (2 ≤ d ∧ d < 10) ∨ (24 ≤ d ∧ d < 28) then true
  else if 10 ≤ d ∧ d < 16 then s.chanFenced (d - 10)
  else if 16 ≤ d ∧ d < 24 then
    let k := d - 16
    [2 * k, 2 * k + 1].all (fun g => !List.contains [1, 2, 6] (s.fld PWR_FPG_STAT_STATE g))
      && (List.range 4).all (fun j => !s.flag (FCH_CTRL_ENABLE.chan (4 * k + j)))
  else if d = 28 ∨ d = 29 then s.domOn (57 - d) || !s.flag FTL_CTRL_ENABLE
  else if d = 33 ∨ d = 34 then s.fld ASK_PORT_STAT_STATE (34 - d) = 2 || !s.flag ASK_CTRL_ENABLE
  else if d = 39 then !s.flag SGN_TOKEN_LATCH_TEST && !s.flag SGN_TOKEN_LATCH_DEBUG
  else false

/-- One bit of a request: unchanged and fixed bits do nothing, a change that is not allowed is refused. -/
def State.domAsk (s : State) (d : Nat) (on : Bool) : State :=
  if s.domFixed d ∨ s.domReq d = on then s
  else if !(if on then s.mayOn d else s.mayOff d) then s.raise 101 3 [d]
  else if on then
    let s := ((s.setReq d true).modPwr (fun w => { w with upping := w.upping ++ [d] })).stamp (.powerUp d)
    if 2 ≤ d ∧ d < 10 then (s.putLoop (d - 1) { s.loop (d - 1) with rail := none }).setFld CLE_STAT_STATE 1 (d - 1) else s
  else
    let s := (s.setReq d false).modPwr (fun w => { w with upping := w.upping.filter (fun x => x ≠ d) })
    if s.domOn d then s.modPwr (fun w => { w with isolating := w.isolating ++ [d] }) else s

/-- A write of PWR_DOM_REQ_0 or _1. -/
def State.domReqWrite (s : State) (hi : Bool) (w : Nat) : State :=
  (List.range (if hi then 8 else 32)).foldl (fun s k => s.domAsk (if hi then 32 + k else k) (bit w k)) s

/-- PWR_DOMAIN_REQUEST (R410): a write of PWR_DOM_REQ_0, or of _1. -/
def execPwrDomainRequest (r : Req) (hi : Bool) (w : Nat) (s : State) : Res :=
  (s.fresh.atRegW r ((if hi then PWR_DOM_REQ_1 else PWR_DOM_REQ_0).key 0 0) (fun s => s.domReqWrite hi w)).done s

/-- The power-up time of a domain in nanoseconds (Table 13.10), at N80. -/
def powerUpNs (d : Nat) : Nat := if 2 ≤ d ∧ d < 10 then 50000 else if 16 ≤ d ∧ d < 24 then 100000 else if d = 33 ∨ d = 34 then 200000 else 20000

/-- A domain's power-up ends (R412). -/
def State.domUpDone (s : State) (d : Nat) : State :=
  if !s.pwr.upping.contains d ∨ s.pwr.isolating.contains d then s
  else
    let s := s.notBefore (s.since (.powerUp d) + powerUpNs d)
    let s := if 2 ≤ d ∧ d < 10 ∧ s.fld CLE_STAT_STATE (d - 1) ≠ 4 then s.loopOn (d - 1) else s
    (if d = 33 ∨ d = 34 then s.setFld ASK_PORT_STAT_STATE 0 (d - 33) else s).domUp d

/-- DOMAIN_POWER_UP_DONE (R412). -/
def execDomainPowerUpDone (d : Nat) (s : State) : Res := (s.fresh.domUpDone d).done s

/-- A domain being switched off is isolated: every transaction granted before has been acknowledged (R412). -/
def State.domIsolate (s : State) (d : Nat) : State :=
  if !s.pwr.isolating.contains d then s
  else
    let again := s.pwr.upping.contains d
    let s := s.domOff d
    if again then s.modPwr (fun w => { w with upping := w.upping ++ [d] }) else s

/-- DOMAIN_ISOLATE (R412). -/
def execDomainIsolate (d : Nat) (s : State) : Res := (s.fresh.domIsolate d).done s

/-! ### Flash power groups (R414, R415) -/

/-- A group's bit is set: its load test begins, at most four at once. -/
def State.fpgSet (s : State) (g : Nat) : State :=
  if fpgCount s.part ≤ g then s
  else (s.setFld PWR_FPG_CTRL_ON (setBits (s.fld PWR_FPG_CTRL_ON) g g 1)).fpgTests

/-- A group's bit is cleared: an ON group drains, one in a test or a fault is off. -/
def State.fpgClear (s : State) (g : Nat) : State :=
  let s := s.setFld PWR_FPG_CTRL_ON (setBits (s.fld PWR_FPG_CTRL_ON) g g 0)
  let st := s.fld PWR_FPG_STAT_STATE g
  if st = 2 then (s.setFld PWR_FPG_STAT_STATE 6 g).fpgDrained g
  else if st = 1 ∨ (3 ≤ st ∧ st ≤ 5) then (s.setFld PWR_FPG_STAT_STATE 0 g).fpgTests
  else s

/-- A write of PWR_FPG_CTRL: the bits that change. -/
def State.fpgWrite (s : State) (w : Nat) : State :=
  (List.range 16).foldl (fun s g =>
    let old := bit (s.fld PWR_FPG_CTRL_ON) g
    if bit w g = old then s else if bit w g then s.fpgSet g else s.fpgClear g) s

/-- FPG_SET (R414): a write of PWR_FPG_CTRL that sets bits of the groups in w. -/
def execFpgSet (r : Req) (w : Nat) (s : State) : Res :=
  (s.fresh.atRegW r (PWR_FPG_CTRL.key 0 0) (fun s => s.fpgWrite w)).done s

/-- FPG_CLEAR (R415): a write of PWR_FPG_CTRL that clears the bits of groups not in w. -/
def execFpgClear (r : Req) (w : Nat) (s : State) : Res :=
  (s.fresh.atRegW r (PWR_FPG_CTRL.key 0 0) (fun s => s.fpgWrite w)).done s

/-- A load test ends: resistance in tenths of an ohm, packages estimated. -/
def State.fpgTested (s : State) (g ohm10 pkg : Nat) : State :=
  if s.fld PWR_FPG_STAT_STATE g ≠ 1 then s
  else
    let pkg := min 31 pkg
    let s := s.setFld PWR_FPG_STAT_PKG_EST pkg g
    let want := s.fld PWR_FPG_CFG_EXPECT_PKG g
    let s := s.notBefore (s.since (.loadTest g) + 5000000)
    (if ohm10 < 20 then (s.setFld PWR_FPG_STAT_STATE 3 g).raise 102 1 [g, pkg]
     else if pkg = 0 then (s.setFld PWR_FPG_STAT_STATE 4 g).raise 102 3 [g, pkg]
     else
      let s := if want ≠ 0 ∧ want ≠ pkg then s.raise 102 2 [g, pkg] else s
      ((s.setFld PWR_FPG_STAT_STATE 2 g).setFld PWR_FPG_STAT_SCALE 16 g).groupStart g).fpgTests

/-- FPG_LOAD_TEST_DONE (R414). -/
def execFpgLoadTestDone (g ohm10 pkg : Nat) (s : State) : Res := (s.fresh.fpgTested g ohm10 pkg).done s

/-- FPG_DRAIN_DONE (R415). -/
def execFpgDrainDone (g : Nat) (s : State) : Res := (s.fresh.fpgDrained g).done s

/-- A group's current exceeds 1.5 × BUDGET for 10 µs: its switches open at once. -/
def State.fpgOver (s : State) (g i : Nat) : State :=
  let st := s.fld PWR_FPG_STAT_STATE g
  if st ≠ 2 ∧ st ≠ 6 then s
  else
    let s := s.setFld PWR_FPG_STAT_IVCC (min 65535 i) g
    if 2 * i ≤ 3 * s.fld PWR_FPG_CFG_BUDGET g then s
    else ((s.groupGone g).setFld PWR_FPG_STAT_STATE 5 g).raise 102 4 [g, s.fld PWR_FPG_STAT_PKG_EST g]

/-- FPG_OVERCURRENT (R415): i is the current in units of 10 mA. -/
def execFpgOvercurrent (g i : Nat) (s : State) : Res := (s.fresh.fpgOver g i).done s

end Sys2Proof.Machine
end

