-- ==== Sys2Proof/Machine/Supply.lean ====
section
/-!
DEFINITION. Power input and its loss (R402-R404, R420), the hold-up bank and the dirty limit (R417-R419), the governors of power, input
and temperature with surge and trips (R422-R428).
-/
namespace Sys2Proof.Machine

/-! ### Surge (R423) -/

/-- The junction temperature in sixteenths of a degree: the hottest sensor not excluded (R424). -/
def State.junction (s : State) : Int :=
  s.goodSensors.foldl (fun a k => max a (toSigned 16 (s.fld PWR_SENSOR_TEMP k))) (-32768)

/-- Surge budget that remains in units of 0.1 s, as BUDGET_LEFT shows it. -/
def State.surgeTenths (s : State) : Nat := s.surgeLeft / 100000000

/-- Surge ends: the rails step down from here on. -/
def State.surgeEnd (s : State) (cause : Nat) : State :=
  if s.pwr.surge.isSome ∧ !s.pwr.down then (s.modPwr (fun w => { w with down := true })).raise 103 cause [s.surgeTenths] else s

/-- Surge is entered when everything it takes holds. -/
def State.surgeTry (s : State) : State :=
  if s.flag PWR_GOV_REQ_SURGE ∧ s.fld PWR_GOV_CFG_SURGE_S ≠ 0 ∧ s.junction ≤ 95 * 16 ∧ 1000000000 ≤ s.surgeLeft
      ∧ !s.pwr.powerActs ∧ !s.pwr.tempActs ∧ !s.pwr.inputActs ∧ !s.pwr.forced ∧ s.pwr.surge.isNone ∧ s.pwr.trip = 0 ∧ s.pwr.fail = 0
      ∧ 40 ≤ s.goodSensors.length then
    (s.modPwr (fun w => { w with surge := some s.time, down := false })).raise 103 1 [s.surgeTenths]
  else s

/-- A write of PWR_GOV_REQ. -/
def State.surgeWrite (s : State) (w : Nat) : State :=
  let s := s.storeReg (PWR_GOV_REQ.key 0 0) w
  if s.flag PWR_GOV_REQ_SURGE then s.surgeTry else s.surgeEnd 5

/-- SURGE_REQUEST (R423). -/
def execSurgeRequest (r : Req) (w : Nat) (s : State) : Res :=
  (s.fresh.atRegW r (PWR_GOV_REQ.key 0 0) (fun s => s.surgeWrite w)).done s

/-- SURGE_BUDGET_EXPIRY: what remains of the budget is the time of the step-down, 10 mV per 100 µs. -/
def execSurgeBudgetExpiry (s : State) : Res :=
  (let s := s.fresh
   let keep := ceilDiv (s.pwr.ceil - s.sustained) 10 * 100000
   let s := if s.pwr.surge.isSome then s.notBefore (s.time + (s.surgeLeft - keep)) else s
   if s.surgeLeft ≤ keep then s.surgeEnd 2 else s).done s

/-- SURGE_BUDGET_RETURN: an episode has left the 300 s window. -/
def execSurgeBudgetReturn (s : State) : Res :=
  (let s := s.fresh
   let s := match s.pwr.episodes.find? (fun (e : Nat × Nat) => s.time < e.2 + 300000000000) with
     | some e => if s.surgeLeft < 1000000000 then s.notBefore (e.1 + 300000000000 + (1000000000 - s.surgeLeft)) else s
     | none => s
   s.surgeTry).done s

/-! ### The governor of controller power (R422) and what the control engine reads (R427) -/

/-- The rails that HSF_SPEED_LOW records name are trimmed up by 10 mV, at most 30 mV in all. -/
def State.trims (s : State) : State :=
  let mine := s.evt.cleQ.filter (fun r => r.number = 42)
  let s := s.modEvt (fun e => { e with cleQ := [], cleLost := false })
  mine.foldl (fun s r =>
    let n := s.fld HSF_SPD_LOOP (r.subj.getD 0 0)
    let l := s.loop n
    let at_ := s.railMv n
    if n = 0 then s
    else
      let s := s.putLoop n { l with trim := min 30 (l.trim + 10) }
      s.setRail n (max at_ (min (s.railGoal n) (at_ + 10)))) s

/-- The uncore ceiling falls by 10 mV while a channel reports DRC_THERMAL cause 2, and is restored at the same rate. -/
def State.uncoreStep (s : State) : State :=
  let hot := s.dram.limited.any (fun k => 100 ≤ k && k < 200)
  if hot then (if 700 < s.ceilOf 9 then s.modPwr (fun w => { w with uncoreDrop := w.uncoreDrop + 10 }) else s)
  else s.modPwr (fun w => { w with uncoreDrop := w.uncoreDrop - 10 })

/-- Where the ceiling may rise to. -/
def State.ceilTop (s : State) : Nat := if s.pwr.surge.isSome ∧ !s.pwr.down then 900 else s.sustained

/-- The ceiling is back where it may be: no limit acts on it any more. -/
def State.ceilRestored (s : State) : State :=
  if s.ceilTop ≤ s.pwr.ceil ∧ (s.pwr.powerActs ∨ s.pwr.tempActs) then
    ((s.modPwr (fun w => { w with powerActs := false, tempActs := false })).raise 104 2 [s.pwr.ceil / 5]).surgeTry
  else s

/-- One step of the governor: the controller power in mW over its limit lowers the ceiling; below 95 % of it, where the power acted, and below
T_GOV - 3 °C, where the temperature did, the ceiling rises again (R422, R425). -/
def State.powerStep (s : State) (mw : Nat) : State :=
  let s := s.trims.uncoreStep
  let limit := if s.pwr.surge.isSome ∧ !s.pwr.down then 165000 else s.fld PWR_GOV_CFG_P_SUST_W * 1000
  if limit < mw then
    let s := s.modPwr (fun w => { w with ceil := if 600 < w.ceil then max 600 (w.ceil - 10) else w.ceil })
    let was := s.pwr.powerActs
    let s := s.modPwr (fun w => { w with powerActs := true })
    if was then s else s.raise 104 4 [s.pwr.ceil / 5]
  else if (s.pwr.powerActs ∨ s.pwr.tempActs) ∧ (!s.pwr.powerActs ∨ mw * 100 < limit * 95)
      ∧ (!s.pwr.tempActs ∨ decide (s.junction < ((s.fld PWR_GOV_CFG_T_GOV : Nat) - 3 : Int) * 16)) then
    (s.modPwr (fun w => { w with ceil := if w.ceil < s.ceilTop then min s.ceilTop (w.ceil + 10) else w.ceil })).ceilRestored
  else s

/-- GOVERNOR_POWER_STEP (R422): every 10 ms, with the controller power averaged over 100 ms in mW. -/
def execGovernorPowerStep (mw : Nat) (s : State) : Res := ((s.fresh.every .govern 10000000).powerStep mw).done s

/-! ### The input limit (R428) -/

/-- The groups whose budgets the governor scales. -/
def State.scaledGroups (s : State) : List Nat := (List.range (fpgCount s.part)).filter (fun g => s.fld PWR_FPG_STAT_SCALE g ≠ 0)

/-- One step down: the cob ceilings first, then the groups' budgets, once in 1 ms. -/
def State.inputDown (s : State) : State :=
  if 600 < s.pwr.ceil - s.pwr.cobDrop then s.modPwr (fun w => { w with cobDrop := w.cobDrop + 10 })
  else if s.time < s.since .budget + 1000000 then s
  else s.scaledGroups.foldl (fun s g => s.setFld PWR_FPG_STAT_SCALE (max 8 (s.fld PWR_FPG_STAT_SCALE g - 1)) g) (s.stamp .budget)

/-- One step back, in reverse order. -/
def State.inputUp (s : State) : State :=
  let low := s.scaledGroups.filter (fun g => s.fld PWR_FPG_STAT_SCALE g < 16)
  if low.isEmpty then s.modPwr (fun w => { w with cobDrop := w.cobDrop - 10 })
  else if s.time < s.since .budget + 1000000 then s
  else low.foldl (fun s g => (s.setFld PWR_FPG_STAT_SCALE (s.fld PWR_FPG_STAT_SCALE g + 1) g).groupStart g) (s.stamp .budget)

/-- The hardware current limit begins to act: PWR_INPUT cause 3 (R404). -/
def State.limits (s : State) (vin : Nat) : State := ((s.setFld PWR_IN_STAT_ILIM 1).stamp .limiting).raise 96 3 [vin]

/-- One step of the governor of input power: mW averaged over 1 ms, the input voltage in 0.1 V and current in 10 mA, and whether the
hardware limits the current. -/
def State.inputStep (s : State) (mw vin iin : Nat) (lim : Bool) : State :=
  let s := (s.setFld PWR_IN_STAT_VIN vin).setFld PWR_IN_STAT_IIN iin
  let s := if !lim then s.setFld PWR_IN_STAT_ILIM 0 else if s.flag PWR_IN_STAT_ILIM then s else s.limits vin
  let limit := s.fld PWR_IN_CFG_P_LIM_W * 1000
  if limit < mw then
    let was := s.pwr.inputActs
    let s := (s.inputDown.modPwr (fun w => { w with inputActs := true, lowSince := none })).surgeEnd 5
    if was then s else s.raise 104 3 [s.pwr.ceil / 5]
  else if mw * 100 < limit * 95 then
    let since := s.pwr.lowSince.getD s.time
    let s := s.modPwr (fun w => { w with lowSince := some since })
    if !s.pwr.inputActs ∨ s.time < since + 10000000 then s
    else
      let s := s.inputUp
      if s.pwr.cobDrop = 0 ∧ s.scaledGroups.all (fun g => s.fld PWR_FPG_STAT_SCALE g = 16) then
        ((s.modPwr (fun w => { w with inputActs := false })).raise 104 2 [s.pwr.ceil / 5]).surgeTry
      else s
  else s.modPwr (fun w => { w with lowSince := none })

/-- INPUT_POWER_STEP (R428): every 100 µs. -/
def execInputPowerStep (mw vin iin : Nat) (lim : Bool) (s : State) : Res := ((s.fresh.every .input 100000).inputStep mw vin iin lim).done s

/-! ### The hold-up bank (R417-R419) -/

/-- WT_CAUSE as the limits stand (Table 6.15). -/
def State.wtCause (s : State) (ok : Bool) : Nat :=
  if s.fld PWR_HOLD_STAT_STATE = 3 then 2
  else if s.pwr.measuredAt.isNone then 1
  else if !ok then 3
  else if s.flag FTL_CTRL_FORCE_WT then 4
  else 0

/-- Subject of PWR_HOLDUP: C in units of 10 µF and ESR in mΩ, as PWR_HOLD_STAT shows them. -/
def State.bankSubject (s : State) : List Nat := [(s.pwr.cNF + 5000) / 10000, (s.pwr.esr + 500) / 1000]

/-- A limit is computed and delivered (R197, R198, R419); fresh after a measurement. -/
def State.deliverLimit (s : State) (fresh : Bool) : State :=
  let m := 2 ^ 20
  let (buf, map, short) := s.effLimits
  let ((eN, eD), (dN, dD)) := s.bankCover
  let ok := decide (64 * m ≤ buf ∧ 8 * m ≤ map)
  let b0 := s.fld FTL_DIRTY_LIMIT_BUF_MIB
  let m0 := s.fld FTL_DIRTY_LIMIT_MAP_MIB
  let above := fun (b k : Nat) => decide (b * m < s.dirtyBuf) || decide (k * m < s.dirtyMap)
  let wasOk := decide (64 ≤ b0 ∧ 8 ≤ m0)
  let now := above (buf / m) (map / m)
  let lower := decide (buf / m < b0 ∨ map / m < m0)
  let s := (s.setFld FTL_DIRTY_LIMIT_BUF_MIB (buf / m)).setFld FTL_DIRTY_LIMIT_MAP_MIB (map / m)
  let s := s.setFld FTL_DUR_RESERVE_SHORT (b2n short)
  let s := s.putReg PWR_HOLD_BUDGET (min 0xFFFF (eN * 250 / eD) * 2 ^ 16 + min 0xFFFF (dN / (dD * m)))
  let s := if s.bankKnown ∧ !ok ∧ (fresh ∨ wasOk) then s.raise 97 3 s.bankSubject else s
  let cause := s.wtCause ok
  let stay := cause = 0
  let s := s.modFtl (fun f => { f with holdUpReady := decide stay, wtPending := f.wtPending || (s.holdUp && !decide stay) })
  let s := if s.holdUp ∧ !s.ftl.wtPending then s else s.setFld FTL_DUR_WT_CAUSE cause
  let s := if s.holdUp ∧ now ∧ lower then s.raise 353 3 [s.fld FTL_DUR_WT_CAUSE] else s
  let s := if (s.holdUp && now) || s.ftl.wtPending then s.hurry else s
  s.modeFall

/-- DIRTY_LIMIT_RECOMPUTE (R419): every 1 ms, with the bank voltage in mV. -/
def State.recompute (s : State) (v : Nat) : State :=
  let s := s.modPwr (fun w => { w with vBank := v })
  (s.holdStat (s.fld PWR_HOLD_STAT_STATE)).deliverLimit false

/-- DIRTY_LIMIT_RECOMPUTE (R419). -/
def execDirtyLimitRecompute (v : Nat) (s : State) : Res := ((s.fresh.every .dirty 1000000).recompute v).done s

/-- A measurement begins by a method (R418). -/
def State.measureBegin (s : State) (method : Nat) : State :=
  if s.pwr.fail ≠ 0 ∨ s.pwr.trip ≠ 0 ∨ s.pwr.method ≠ 0 then s
  else (s.modPwr (fun w => { w with method := method })).holdStat 1

/-- BANK_MEASURE_PERIODIC: 24 h after the last measurement, once the bank is within 1 V of V_HOLD (R418). -/
def execBankMeasurePeriodic (s : State) : Res :=
  (let s := s.fresh
   match s.pwr.measuredAt with
   | some t =>
     if s.fld PWR_HOLD_CFG_V_HOLD * 1000 ≤ s.pwr.vBank + 1000 then (s.notBefore (t + 86400000000000)).measureBegin 2 else s
   | none => s).done s

/-- The capacitance in nF that a measurement gives: method 1 from the time in µs of the 16 V window, method 2 from the time and the fall
in mV; no fall leaves it open. -/
def State.bankC (s : State) (us fall : Nat) : Nat × State :=
  if s.pwr.method = 1 then (s.fld PWR_HOLD_CFG_CHG * us * 10 / 16, s)
  else if fall = 0 then s.draw (2 ^ 40)
  else (us * 100000 / fall, s)

/-- A measurement ends (R417, R418): whether the bank rose within 100 ms, the times and voltages measured, the step of the 2.0 A pulse
in µV, and the bank's voltage in mV. -/
def State.measureEnd (s : State) (rose : Bool) (us fall stepUv v : Nat) : State :=
  if s.pwr.method = 0 ∨ s.pwr.fail ≠ 0 then s
  else
    let old := if s.pwr.measuredAt.isSome then s.pwr.cNF else 0
    let (c, s) := s.bankC us fall
    let s := s.modPwr (fun w => { w with method := 0, vBank := v })
    if !rose ∨ c < 470000 then
      let s := (s.modPwr (fun w => { w with cNF := 0, esr := 0, measuredAt := none })).holdStat 3
      (s.raise 97 2 s.bankSubject).deliverLimit true
    else
      let s := (s.modPwr (fun w => { w with cNF := c, esr := stepUv / 2, measuredAt := some s.time })).holdStat 2
      let s := s.raise 97 1 s.bankSubject
      (if c * 10 < old * 9 then s.raise 97 4 s.bankSubject else s).deliverLimit true

/-- BANK_MEASURE_DONE (R418). -/
def execBankMeasureDone (rose : Bool) (us fall stepUv v : Nat) (s : State) : Res := (s.fresh.measureEnd rose us fall stepUv v).done s

/-! ### Power fail (R403, R420) -/

/-- What has been raised is delivered, and the live blocks are folded into history (R488). -/
def State.foldNow (s : State) : State := (State.drain drainFuel s).fold

/-- MOD_READY falls (R499). -/
def State.notReady (s : State) : State := { s with boot := { s.boot with modReady := false } }

/-- Step 1: the declaration, with what the power unit shows of it. -/
def State.failDeclare (s : State) (above : Bool) (vin : Nat) : State :=
  let s := s.closeNow.notReady
  let dirty := if s.pwr.trip = 1 then s.pwr.failDirty else s.dirtyBuf + s.dirtyMap
  let s := s.modPwr (fun w => { w with pfailLow := true, fail := 1, failAt := s.time, failDirty := dirty, method := 0, upping := [] })
  let s := ((s.setFld PWR_IN_STAT_VIN vin).setFld PWR_IN_STAT_PFAIL 1).setFld PWR_IN_STAT_OV (b2n above)
  let s := s.raise 96 (if above then 2 else 1) [vin]
  if s.fld PWR_HOLD_STAT_STATE = 3 then s else s.holdStat 4

/-- Steps 3 and 4: the domains go, live data are folded while there is energy, and the flush begins unless a trip's runs already. -/
def State.failSteps (s : State) (tripped : Nat) : State :=
  let s := s.modPwr (fun w => { w with trip := 0 })
  let s : State := failDomains.foldl (fun s d => (s.setReq d false).domOff d) s
  let s := if 800 < s.railMv 9 then s.setRail 9 800 else s
  let s := if 0 < s.bankCover.1.1 then s.foldNow else s
  if tripped = 1 then s
  else (if s.flag FTL_CTRL_ENABLE then s.flushBegin else s).raise 98 1 [0, 0]

/-- A power fail is declared (steps 1 to 4 of Table 13.18): by overvoltage, or by undervoltage or reverse current; the input voltage
in units of 0.1 V. After a trip that holds D00 alone, only L11's reserve is left. -/
def State.powerFail (s : State) (above : Bool) (vin : Nat) : State :=
  if s.pwr.ready ∨ s.pwr.fail ≠ 0 then s
  else if s.pwr.trip = 2 then (s.failDeclare above vin).modPwr (fun w => { w with fail := 2, ready := true }) |>.stamp .off
  else (s.failDeclare above vin).failSteps s.pwr.trip

/-- POWER_FAIL (R403). -/
def execPowerFail (above : Bool) (vin : Nat) (s : State) : Res := (s.fresh.powerFail above vin).done s

/-- INPUT_CURRENT_LIMIT (R404). -/
def execInputCurrentLimit (vin iin : Nat) (s : State) : Res :=
  (let s := (s.fresh.setFld PWR_IN_STAT_VIN vin).setFld PWR_IN_STAT_IIN iin
   if s.flag PWR_IN_STAT_ILIM then s else s.limits vin).done s

/-- CURRENT_LIMIT_TIMEOUT: 50 ms of limiting with the bus below 10.8 V (R404). -/
def execCurrentLimitTimeout (vin : Nat) (s : State) : Res :=
  (let s := s.fresh
   if s.flag PWR_IN_STAT_ILIM then (s.notBefore (s.since .limiting + 50000000)).powerFail false vin else s).done s

/-- Step 5: every rail except L11 is off, and every domain but D00. -/
def State.railsOff (s : State) : State :=
  let s := (List.range 39).foldl (fun s k => (s.setReq (k + 1) false).domOff (k + 1)) s
  let s := (List.range 24).foldl (fun s n => if n = 11 then s else s.setFld CLE_STAT_STATE 0 n) s
  let s := { s with
    boot := { s.boot with fwRunning := false, fwSlot := 0, fwSvn := 0 }
    hsk := { s.hsk with armed := false, pairs := [] } }
  s.modPwr (fun w => { w with dark := true, upping := [], isolating := [] })

/-- The rate step 4 achieved in bytes per second, written for R419 when it took more than 5 ms. -/
def State.flushRated (s : State) (bytes ns : Nat) : Nat × State :=
  if 5000000 < ns then
    let v := bytes * 1000000000 / (ns - 5000000)
    (v, s.modNv (fun n => { n with flushRate := v }))
  else (0, s)

/-- No flush is relied on: the log is complete only when nothing was dirty. -/
def State.noFlush (s : State) : State :=
  s.modFtl (fun f => { f with flushComplete := f.flushComplete && f.wbuf.isEmpty && f.frames.isEmpty && f.delta.isEmpty })

/-- What follows step 4: a flush that HOLD_UP durability relied on and that did not complete is a breach (R199); D00 alone is held, by L11's
reserve after a power fail, from input power after a trip. What the reserve still holds once the bus has collapsed is free (R421). -/
def State.afterFlush (s : State) : State :=
  let s := if s.holdUp ∧ !s.ftl.flushComplete then s.modNv (fun n => { n with breach := true }) else s
  let s := s.railsOff
  if s.pwr.fail = 1 then
    let (v, s) := s.draw (2 ^ 16)
    (s.modPwr (fun w => { w with fail := 2, ready := true, reserve := v })).stamp .off
  else s.modPwr (fun w => { w with trip := 2 })

/-- The flush of step 4 ends (R420). In WRITE_THROUGH a power fail relies on none: the running programs have ended. -/
def State.flushDone (s : State) (ns : Nat) : State :=
  if s.pwr.fail ≠ 1 ∧ s.pwr.trip ≠ 1 then s
  else
    let bytes := s.pwr.failDirty
    let runs := s.flag FTL_CTRL_ENABLE && (s.holdUp || s.pwr.fail ≠ 1)
    let s := if runs then s.flushRun none else s.noFlush
    let (v, s) := if runs then s.flushRated bytes ns else (0, s)
    (s.raise 98 2 [ns / 1000000, v / 1000000]).afterFlush

/-- POWER_FAIL_FLUSH_DONE (R420): the flush of a power fail, or of a trip, took that many nanoseconds. -/
def execPowerFailFlushDone (ns : Nat) (s : State) : Res := ((s.fresh.notBefore (s.pwr.failAt + ns)).flushDone ns).done s

/-- The bank reaches v_c before step 4 ends: the first n entries have been programmed (R420). -/
def State.cutoff (s : State) (ns n : Nat) : State :=
  if s.pwr.fail ≠ 1 then s
  else
    let runs := s.flag FTL_CTRL_ENABLE && s.holdUp
    let ws := (s.ftl.wbuf.filter (fun w => w.step < 4 && !w.dead)).take n
    let bytes := (ws.map (fun w => s.unitBytes w.laddr)).sum
    let s := if runs then s.flushRun (some n) else s.modFtl (fun f => { f with flushComplete := false })
    let (v, s) := if runs then s.flushRated bytes ns else (0, s)
    (s.raise 98 3 [ns / 1000000, v / 1000000]).afterFlush

/-- HOLDUP_CUTOFF (R420). -/
def execHoldupCutoff (ns n : Nat) (s : State) : Res := ((s.fresh.notBefore (s.pwr.failAt + ns)).cutoff ns n).done s

/-! ### Temperature (R424-R426) -/

/-- The four nearest sensorNeighbours of a sensor in a row of 48; the spec does not place the sensors (log entry 83). -/
def sensorNeighbours (k : Nat) : List Nat :=
  if k < 2 then (List.range 5).filter (fun j => j ≠ k)
  else if 45 < k then ((List.range 5).map (fun j => 43 + j)).filter (fun j => j ≠ k)
  else [k - 2, k - 1, k + 1, k + 2]

/-- Insert into a rising list. -/
def insertInt (x : Int) : List Int → List Int
  | [] => [x]
  | y :: l => if x ≤ y then x :: y :: l else y :: insertInt x l

/-- Twice the median of four readings. -/
def twiceMedian (l : List Int) : Int :=
  let m := l.foldr insertInt []
  m.getD 1 0 + m.getD 2 0

/-- One sensor's comparison with its sensorNeighbours: ten reports in a row more than 15 °C apart exclude it. -/
def State.sensorCheck (s : State) (temps : List Int) (k : Nat) : State :=
  if s.flag PWR_SENSOR_EXCLUDED k then s
  else
    let d := 2 * temps.getD k 0 - twiceMedian ((sensorNeighbours k).map (fun j => temps.getD j 0))
    let n := if 480 < d.natAbs then Tab.lookD s.pwr.odd k 0 + 1 else 0
    let s := s.modPwr (fun w => { w with odd := Tab.put w.odd k n })
    if n < 10 then s
    else
      let s := (s.setFld PWR_SENSOR_EXCLUDED 1 k).raise 106 1 [k]
      if s.goodSensors.length = 39 then s.raise 106 2 [k] else s

/-- The temperature governor: at T_GOV the ceiling falls by 10 mV per 1 ms, down to 0.60 V. -/
def State.tempStep (s : State) : State :=
  if ((s.fld PWR_GOV_CFG_T_GOV * 16 : Nat) : Int) ≤ s.junction ∧ (!s.pwr.tempActs ∨ s.pwr.govAt + 1000000 ≤ s.time) then
    let s := s.modPwr (fun w => { w with
      tempActs := true, govAt := s.time, ceil := if 600 < w.ceil then max 600 (w.ceil - 10) else w.ceil })
    s.raise 104 1 [s.pwr.ceil / 5]
  else s

/-- The hottest sensor that is not excluded. -/
def State.hottestSensor (s : State) : Nat :=
  (s.goodSensors.find? (fun k => decide (toSigned 16 (s.fld PWR_SENSOR_TEMP k) = s.junction))).getD 0

/-- What the junction temperature brings about (Table 13.19). -/
def State.thermal (s : State) : State :=
  let tj := s.junction
  if 115 * 16 ≤ tj ∧ s.pwr.trip = 0 ∧ s.pwr.fail = 0 ∧ !s.pwr.ready then
    ((s.modPwr (fun w => { w with thermLow := true })).raise 105 1 [s.hottestSensor]).shutdownBegin
  else
    let s := if 105 * 16 ≤ tj ∧ !s.pwr.forced then
        (s.modPwr (fun w => { w with forced := true, down := w.surge.isSome })).raise 103 4 [s.surgeTenths]
      else if tj ≤ 95 * 16 then s.modPwr (fun w => { w with forced := false })
      else s
    let s := if 98 * 16 ≤ tj then s.surgeEnd 3 else s
    s.tempStep.surgeTry

/-- The sensors report (R424): 48 temperatures in sixteenths of a degree. -/
def State.sensors (s : State) (temps : List Int) : State :=
  let s := (List.range 48).foldl (fun s k => s.setFld PWR_SENSOR_TEMP (ofSigned 16 (temps.getD k 0)) k) s
  let s := (List.range 48).foldl (fun s k => s.sensorCheck temps k) s
  let cool := decide (s.junction < ((s.fld PWR_THERM_CFG_T_RESTART * 16 : Nat) : Int))
  let s := s.modPwr (fun w => { w with
    coolSince := if cool then some (w.coolSince.getD s.time) else none
    ceil := if w.surge.isNone then min w.ceil s.sustained else w.ceil })
  s.thermal

/-- THERMAL_SENSOR_REPORT (R424). -/
def execThermalSensorReport (temps : List Int) (s : State) : Res := ((s.fresh.every .sensors 100000).sensors temps).done s

/-- The comparator at 125 °C: every rail except L11 is off at once; a flush that ran has programmed its first n entries (R425, R426). -/
def State.compTrip (s : State) (sensor n : Nat) : State :=
  if s.pwr.dark ∨ s.pwr.ready then s
  else
    let flushing := s.ftl.flushRun
    let s := s.closeNow.notReady.modPwr (fun w => { w with thermLow := true, tripSeen := some sensor, coolSince := none })
    (if flushing then s.flushRun (some n) else s.cutLuns.noFlush).afterFlush

/-- THERMAL_COMPARATOR_TRIP (R425). -/
def execThermalComparatorTrip (sensor n : Nat) (s : State) : Res := (s.fresh.compTrip sensor n).done s

end Sys2Proof.Machine
end

