-- ==== Sys2Proof/Machine/Boot.lean ====
section
/-!
DEFINITION. Start-up (chapter 3): the choice and application of the image (R72-R77), the safe configuration (R78), the ROM's steps of a
cold start (R79), the start of firmware (R80, R113-R115, R447), and the device-wide resets with the start that follows them.
-/
namespace Sys2Proof.Machine

/-- Change the start-up state. -/
def State.modBoot (s : State) (f : BootState → BootState) : State := { s with boot := f s.boot }

/-- An event is raised and delivered at once, by the routes in force now (R94). -/
def State.raiseNow (s : State) (number cause : Nat) (subj : List Nat) : State := State.drain drainFuel (s.raise number cause subj)

/-! ### The safe configuration (R78, Table 3.11) -/

/-- What the image has written: RW and RWL bits return to their reset values, but for the requests of domains and groups. -/
def State.imageUndone (s : State) : State :=
  { s with regs := s.regs.filterMap (fun kv =>
      if kv.1 = PWR_DOM_REQ_0.key 0 0 ∨ kv.1 = PWR_DOM_REQ_1.key 0 0 ∨ kv.1 = PWR_FPG_CTRL.key 0 0 then some kv
      else
        let m := ((findRow (kv.1 / 0x100000) (kv.1 % 0x100000)).map (fun r => r.rw ||| r.rwl)).getD 0
        let d := resetOf s.part kv.1
        let v := (kv.2.toNat &&& ((2 ^ 32 - 1) - m)) ||| (d &&& m)
        if v = d then none else some (kv.1, BitVec.ofNat 32 v)) }

/-- What step 8 brought up goes down again: the groups open, D10-D23 and L12-L18 are off; port B is down. -/
def State.step8Undone (s : State) : State :=
  let s := (List.range 16).foldl (fun s g => s.groupOpen g) s
  let s := (List.range 14).foldl (fun s k => (s.setReq (10 + k) false).domOff (10 + k)) s
  let s := (List.range 7).foldl (fun s k => s.loopOff (12 + k)) s
  (s.setReq 31 false).domOff 31

/-- The power limits of the safe configuration. -/
def State.safePower (s : State) : State :=
  let s := (s.setFld PWR_IN_CFG_P_LIM_W 150).setFld PWR_IN_CFG_I_LIM 417
  ((s.putReg CLE_TARGET 700 9).putLoop 9 { s.loop 9 with trim := 0, rail := none }).sramFollows

/-- The device enters the safe configuration with a cause of Table 3.27. -/
def State.enterSafe (s : State) (cause : Nat) : State :=
  if s.safe then s
  else
    let s := (State.drain drainFuel s).imageUndone
    let s := s.modBoot (fun b => { b with
      locked := true, testPermit := 0, permitGone := true, board := State.reset.boot.board, imageDigest := State.reset.boot.imageDigest
      imageSigner := State.reset.boot.imageSigner })
    let s := ((s.setFld CFG_BOOT_STAT_SAFE 1).setFld CFG_BOOT_STAT_SAFE_CAUSE cause).setFld CFG_BOOT_STAT_PHASE 15
    let s := (s.setFld CFG_BOOT_STAT_COPY 0).putPair CFG_IMAGE_SEQ_LO CFG_IMAGE_SEQ_HI 0
    let s := s.step8Undone.safePower.raiseNow 5 cause []
    s.host.ctrls.foldl (fun s kv => s.ctrlReady kv.1) s

/-! ### Choosing a copy (R72, R73) -/

/-- The bytes of a copy, as far as its length says; those up to its key trailer when its header is no image's. -/
def State.copyBytes (s : State) (c : Nat) : List Byte :=
  let h := s.norRd (c * 0x800000) 1840
  if slice h 0 4 = ascii "DYRN" ∧ imgLen h ≤ 8388608 then s.norRd (c * 0x800000) (max 1840 (imgLen h)) else h

/-- SEQUENCE of a copy whose header is readable and whose MAGIC is correct. -/
def State.copySeq (s : State) (c : Nat) (r : NorRead) : Option Nat :=
  let h := s.norRd (c * 0x800000) 32
  if r ≠ .noHeader ∧ slice h 0 4 = ascii "DYRN" then some (imgSeq h) else none

/-- The copy tried first. -/
def State.firstCopy (s : State) (a b : NorRead) : Nat :=
  match s.copySeq 0 a, s.copySeq 1 b with
  | some x, some y => if x < y then 1 else 0
  | none, some _ => 1
  | _, _ => 0

/-- The check a copy fails (Table 3.9). -/
def State.copyCause (s : State) (c : Nat) (r : NorRead) : Option Nat :=
  match r with
  | .ok => s.imgCause (s.copyBytes c)
  | _ => some 1

/-- A copy is tried: whether it passes; a rejected one is reported. A SEQUENCE that could not be read is open. -/
def State.tryCopy (s : State) (c : Nat) (r : NorRead) : Bool × State :=
  match s.copyCause c r with
  | none => (true, s.setFld CFG_BOOT_STAT_COPY (c + 1))
  | some k =>
    let s := if c = 0 then s.setFld CFG_BOOT_STAT_REJ_A k else s.setFld CFG_BOOT_STAT_REJ_B k
    let (q, s) := match r with
      | .noHeader => s.draw (2 ^ 64)
      | _ => (imgSeq (s.norRd (c * 0x800000) 32), s)
    (false, s.raiseNow 1 k (c :: w64 q))

/-- The copy that passes: the one preferred, else the other. -/
def State.chooseCopy (s : State) (a b : NorRead) : Option Nat × State :=
  let f := s.firstCopy a b
  let read := fun (c : Nat) => if c = 0 then a else b
  let (ok, s) := s.tryCopy f (read f)
  if ok then (some f, s)
  else
    let (ok, s) := s.tryCopy (1 - f) (read (1 - f))
    (if ok then some (1 - f) else none, s)

/-! ### Applying sections (R75, R76, Table 3.10) -/

/-- Whether a list section may write a place (Table 3.4). -/
def sectionMay (code win off : Nat) : Bool :=
  if code = 3 then win = 0x09 || win = 0x0A
  else if code = 4 then win = 0x0C || win = 0x0D || win = 0x17 || (win = 0x01 && 0x30 ≤ off && off < 0x40)
  else if code = 5 then win = 0x15 || (0x20 ≤ win && win < 0x40)
  else if code = 6 then win = 0x12 || win = 0x13
  else if code = 7 then win = 0x11 || win = 0x10 || win = 0x0F
  else if code = 8 then win = 0x02 || (win = 0x0B && off < 0x100)
  else if code = 9 then 0x05 ≤ win && win ≤ 0x08
  else if code = 10 then win = 0x01 && 0x200 ≤ off && off < 0x250
  else if code = 12 then win = 0x16
  else if code = 13 then win = 0x14
  else if code = 14 then win = 0x0E
  else if code = 15 then win = 0x03 || win = 0x04
  else false

/-- Class and instance of the unit or block at a place, as its identity word gives them. -/
def placeUnit (win off : Nat) : Nat × Nat :=
  match blockOf win off with
  | some n => (win, n)
  | none => (winBase win, if 0x20 ≤ win then win - 0x20 else 0)

/-- An image entry's write: domain and group requests and targets in their own way, other registers as a write leaves them; of a
register whose domain is off only the RWL bits are held (R413). -/
def State.imageWrite (s : State) (win off v : Nat) : Option State :=
  let key := win * 0x100000 + off
  match s.written key v with
  | none => none
  | some x =>
    if win = 0x0A ∧ 0x1000 ≤ off ∧ off % 0x100 = 0x08 then some (s.setTarget ((off - 0x1000) / 0x100) (v % 65536))
    else if win = 0x0A ∧ 0x1000 ≤ off ∧ off % 0x100 = 0x24 then some (s.coefWrite ((off - 0x1000) / 0x100) v)
    else
      let x := if s.powered win off then x else keepRwl s.part key (BitVec.ofNat 32 x)
      let x := if key = PWR_DOM_REQ_0.key 0 0 then x ||| 3 else x
      some (s.setReg key x)

/-- An entry's outcome without REQUIRED is reported; with it the device enters the safe configuration. -/
def State.imageFault (s : State) (required : Bool) (safeCause number cause : Nat) (subj : List Nat) : State :=
  if required then s.enterSafe safeCause else s.raiseNow number cause subj

/-- One entry of a list section (Table 3.5): the state, and the first place of the section found in an absent unit. -/
def State.applyEntry (s : State) (code : Nat) (required : Bool) (e : List Byte) (gone : Option (Nat × Nat)) : Option (Nat × Nat) × State :=
  let win := leAt e 0 1
  let off := leAt e 4 4
  let no := fun (c : Nat) => (gone, s.imageFault required 4 3 c [code, win, off])
  if !allZero (slice e 1 3) ∨ 0x3F < win ∨ off % 4 ≠ 0 ∨ 0x100000 ≤ off then no 4
  else if !sectionMay code win off then no 2
  else if !placePresent s.part win off then
    if required then (gone, s.enterSafe 2) else (some (gone.getD (win, off)), s)
  else if ((findRow win off).bind (fun r => r.indexOf off)).isNone ∧ (identityAt s.part win off).isNone then no 3
  else
    match s.imageWrite win off (leAt e 8 4) with
    | some s =>
      -- the blocks recorded at first format stay in force (R145)
      let differs : Bool := match s.ftl.archive with | some a => decide (a ≠ (s.fld LDP_ARCHIVE_FIRST, s.fld LDP_ARCHIVE_COUNT)) | none => false
      (gone, if win * 0x100000 + off = LDP_ARCHIVE.key 0 0 ∧ differs = true then s.raiseNow 3 1 [code, win, off] else s)
    | none => if (identityAt s.part win off).isSome then (gone, s) else no 1

/-- The entries of a list section in order, until the safe configuration is entered. -/
def State.applyEntries (s : State) (code : Nat) (required : Bool) (b : List Byte) (off : Nat) (gone : Option (Nat × Nat)) :
    Nat → Option (Nat × Nat) × State
  | 0 => (gone, s)
  | n + 1 =>
    if s.safe then (gone, s)
    else
      let (gone, s) := s.applyEntry code required (slice b off 12) gone
      s.applyEntries code required b (off + 12) gone n

/-- The fields of SYS_CAP_UNITS: high and low bit (Table 0.5). -/
def capFields : List (Nat × Nat) := [(31, 26), (25, 22), (21, 19), (18, 14), (13, 8), (7, 2), (1, 0)]

/-- The fields of the VARIANT expectation that are not met, with cause and lowest bit (Table 3.7). -/
def variantFails (have_ want : Nat) (exact : Bool) : List (Nat × Nat) :=
  capFields.filterMap (fun f =>
    let a := bits have_ f.1 f.2
    let b := bits want f.1 f.2
    if a < b then some (1, f.2) else if exact ∧ a ≠ b then some (2, f.2) else none)

/-- A structured section's value takes effect. -/
def State.applyStruct (s : State) (code : Nat) (required : Bool) (v : List Byte) : State :=
  if code = 1 then s.modBoot (fun b => { b with board := v })
  else if code = 11 then s.modBoot (fun b => { b with testPermit := leNat v })
  else
    let bad := variantFails (Config.capUnits s.part) (leAt v 0 4) (bit (leAt v 4 4) 0)
    if required ∧ !bad.isEmpty then s.enterSafe 5 else bad.foldl (fun s x => s.raiseNow 4 x.1 [x.2]) s

/-- The length of a structured section. -/
def structLen (code : Nat) : Nat := if code = 1 then 104 else if code = 2 then 8 else 4

/-- Whether a structured section's value has its length and its zeros. -/
def structOk (code : Nat) (v : List Byte) : Bool :=
  v.length = structLen code && (code ≠ 2 || leAt v 4 4 / 2 = 0) && (code ≠ 11 || leNat v / 16 = 0)

/-- One section is applied; seen are the structured types that came before. -/
def State.applySection (s : State) (b : List Byte) (x : Section) (seen : List Nat) : List Nat × State :=
  let code := x.1 % 2 ^ 15
  let required := bit x.1 15
  let v := slice b x.2.1 x.2.2
  if s.safe then (seen, s)
  else if code = 0 ∨ 15 < code then (seen, s.imageFault required 3 2 2 [code, 0, 0])
  else if code = 1 ∨ code = 2 ∨ code = 11 then
    if seen.contains code then (seen, s.imageFault required 4 2 3 [code, 0, 0])
    else if !structOk code v then (code :: seen, s.imageFault required 4 3 4 [code, 0, 0])
    else (code :: seen, s.applyStruct code required v)
  else if x.2.2 % 12 ≠ 0 then (seen, s.imageFault required 4 3 4 [code, 0, 0])
  else
    let (gone, s) := s.applyEntries code required b x.2.1 none (x.2.2 / 12)
    match gone with
    | some p => (seen, if s.safe then s else s.raiseNow 2 1 [code, (placeUnit p.1 p.2).1, (placeUnit p.1 p.2).2])
    | none => (seen, s)

/-- The sections in image order. -/
def State.applyAll (s : State) (b : List Byte) : List Section → List Nat → State
  | [], _ => s
  | x :: rest, seen =>
    let (seen, s) := s.applySection b x seen
    s.applyAll b rest seen

/-- The last section has been applied: the locks (R77), and the floor that RAISE_FLOOR raises (R74). -/
def State.imageLock (s : State) (b : List Byte) : State :=
  if s.safe then s
  else
    let seq := imgSeq b
    let s := s.modBoot (fun x => { x with locked := true, permitGone := false })
    let s := (s.putPair CFG_IMAGE_SEQ_LO CFG_IMAGE_SEQ_HI seq).setFld CFG_BOOT_STAT_PHASE 2
    let s := s.modPwr (fun w => { w with ceil := s.sustained })
    if bit (leAt b 14 2) 0 ∧ s.nv.seqFloor < seq then (s.modNv (fun n => { n with seqFloor := seq })).raiseNow 6 1 (w64 seq) else s

/-! ### The ROM's steps (R79) -/

/-- Record measurements of the start (Table 4.15). -/
def State.measure (s : State) (l : List (List Byte)) : State := s.modBoot (fun b => { b with recs := b.recs ++ l })

/-- Step 3: the entropy source passes its start-up test and both generators are instantiated (R131, R132; KEY_RNG_HEALTH_FAIL reports a test
that fails), and records 1 to 4. -/
def State.step3 (s : State) : State :=
  let s := ((s.setFld KEY_RNG_STAT_ES_OK 1).setFld KEY_RNG_STAT_DRBG_OK 1).setFld KEY_RNG_STAT_FAIL 0
  let s := { s with key := { s.key with keyGen := ⟨s.freeCtr, 0⟩, general := ⟨s.freeCtr + 1, 0⟩ }, freeCtr := s.freeCtr + 2 }
  let slots := (List.range 8).flatMap (fun k => (s.otp.slot (k / 4) (k % 4)).getD (List.replicate 64 0#8))
  s.measure [
    measurement 1 0x10000 (slice romDigest 0 64),
    measurement 2 s.otpStat (shake512 slots),
    measurement 3 (s.reg CFG_RESET_CAUSE) [],
    measurement 4 (Config.capUnits s.part) []]

/-- Steps 4 to 6: a copy is chosen and applied, with records 5 to 8. -/
def State.steps456 (s : State) (a b : NorRead) : State :=
  let s := State.drain drainFuel (s.setFld CFG_BOOT_STAT_PHASE 1)
  let floor := s.nv.seqFloor
  let s := s.modBoot (fun x => { x with floorAt8 := floor })
  let (c, s) := s.chooseCopy a b
  match c with
  | none =>
    let s := s.enterSafe 1
    s.measure [measurement 6 (s.reg CFG_BOOT_STAT) [], measurement 7 floor [], measurement 8 0 []]
  | some c =>
    let img := s.copyBytes c
    let dig := shake512 (slice img 0 (imgLen img - 1280))
    let signer := shake512 (slice img 32 1793)
    let s := s.modBoot (fun x => { x with imageDigest := dig, imageSigner := signer })
    let s := s.measure [measurement 5 (imgSeq img) dig, measurement 6 (s.reg CFG_BOOT_STAT) signer, measurement 7 floor []]
    let s := (s.applyAll img ((imgSections img).getD []) []).imageLock img
    s.measure [measurement 8 s.boot.testPermit []]

/-- Pod 0 as it exists from step 7 (R351, Table 11.9). -/
def State.podZero (s : State) : State :=
  { s with pod := { s.pod with pods := Tab.put s.pod.pods 0 { s.newPod 0 with state := 2, port := 0, bound := true, noPasid := true, ioq := 256 } } }

/-- The ports are configured and MOD_READY rises: ports released from PERST# start training (R82, R499). -/
def State.portsReady (s : State) : State :=
  let s := s.podZero.modBoot (fun b => { b with modReady := true })
  (s.startTraining 0).startTraining 1

/-- Step 7: the domains of R411; a 125 °C trip before this start is raised (R425). -/
def State.step7 (s : State) : State :=
  let s : State := [30, 32, 35, 36, 37, 38].foldl (fun s d => s.domStart d) s
  let s := if s.flag HIF_PORT_CFG_SPLIT ∧ !s.safe then s.domStart 31 else s
  let s := match s.pwr.tripSeen with
    | some k => (s.raise 105 2 [k]).modPwr (fun w => { w with tripSeen := none })
    | none => s
  s.portsReady

/-- Step 8: L12-L18, D10-D23 and the flash power groups, but in the safe configuration; the hold-up charger, and after a cold reset
the bank's measurement (R411, R414, R418). -/
def State.step8 (s : State) (cold : Bool) : State :=
  let s := if s.safe then s
    else
      let s : State := (List.range 7).foldl (fun s k => s.loopOn (12 + k)) s
      let s : State := (List.range 14).foldl (fun s k => s.domStart (10 + k)) s
      (s.setFld PWR_FPG_CTRL_ON (s.fld PWR_FPG_CTRL_ON ||| (2 ^ fpgCount s.part - 1))).fpgTests
  let s := s.loopOn 20
  if cold then s.measureBegin (if s.pwr.vBank + 17000 ≤ s.fld PWR_HOLD_CFG_V_HOLD * 1000 then 1 else 2) else s

/-- Steps 3 to 8 of a start that reads the image. -/
def State.start (s : State) (cold : Bool) (a b : NorRead) : State := ((s.step3.steps456 a b).step7).step8 cold

/-- A cold start (R79): rails of steps 1 and 2, the straps, then the ROM's steps; with BSCAN_EN_N low it stops at the end of step 2
(R501). -/
def State.coldStart (s : State) (pins : Pins) (a b : NorRead) (vBank : Nat) : State :=
  let s := (s.coldReset pins vBank).setStat 0 true
  let s : State := [0, 9, 10, 11, 19].foldl (fun s n => s.loopOn n) s
  if pins.bscanEnN then (s.domStart 1).start true a b else s.setStat 1 false

/-- COLD_START (R79): the input rises through 35 V, with the levels of the straps and PERST_N, how the reads of both copies go, and the
bank's voltage in mV. Without an input that was lost before, there is no t0 (Table 13.1). -/
def execColdStart (pins : Pins) (a b : NorRead) (vBank : Nat) (s : State) : Res :=
  (let s := s.fresh
   if s.pwr.ready then s.coldStart pins a b vBank else s).done s

/-- POWER_RETURN_RESTART (R403): input came back during a power-fail sequence that has completed, and 100 ms later the device begins
again at t0; vin is the input voltage in 0.1 V. -/
def execPowerReturnRestart (vin : Nat) (pins : Pins) (a b : NorRead) (vBank : Nat) (s : State) : Res :=
  (let s := s.fresh
   if s.pwr.fail = 2 then
     (State.drain drainFuel ((s.notBefore (s.since .off + 100000000)).raise 96 4 [vin])).coldStart pins a b vBank else s).done s

/-! ### NVM subsystem reset (R84) -/

/-- Whether the device runs as far as a device-wide reset can act on it. -/
def State.alive (s : State) : Bool := !s.pwr.ready && s.pwr.fail = 0 && s.boot.pins.bscanEnN

/-- An NVM subsystem reset and the start that follows it. -/
def State.nssr (s : State) (a b : NorRead) : State :=
  if s.alive then (((s.deviceReset 2).nsGo).domStart 1).start false a b else s

/-- NSSR_WRITE (R84): the host writes NSSR in pod 0's window; another value does nothing. -/
def execNssrWrite (value : Nat) (a b : NorRead) (s : State) : Res :=
  (let s := s.fresh
   match Tab.look s.pod.pods 0 with
   | some e => if value = 0x4E564D65 ∧ e.bound then s.nssr a b else s
   | none => s).done s

/-- THERMAL_RESTART (R426): after a trip the junction has stayed below T_RESTART for 10 s. -/
def execThermalRestart (a b : NorRead) (s : State) : Res :=
  (let s := s.fresh
   match s.pwr.coolSince with
   | some t => if s.pwr.trip = 2 then (s.notBefore (t + 10000000000)).nssr a b else s
   | none => s).done s

/-! ### Firmware (R80, R113-R115, R445, R447) -/

/-- Whether the slot a firmware word names verifies at step 9, and what it is; the verification replaces the latch (R101, R113). -/
def State.slotVerifies (s : State) (f : FwWord) (r : NorRead) : Option FwInfo × State :=
  let b := s.norSlot f.slot
  match (if r = .ok then fwInfo b else none) with
  | none => (none, s)
  | some i =>
    let (ok, s) := s.fwVerify b i
    (if ok ∧ s.nv.svnFloor ≤ i.svn ∧ i.digest = s.nv.digestOf f ∧ i.svn = f.svn then some i else none, s)

/-- Try firmware words in order: the slot that verifies, with its word and whether it is FW_PREVIOUS. SYS_RESUMED's subject 'Operation' has no
encoding in the spec: the number of the slot concerned for causes 4 to 6, the cause itself for 1 to 3 (log entry 173). -/
def State.trySlots (s : State) : List (FwWord × Bool × NorRead) → Option (FwWord × Bool × FwInfo) × State
  | [] => (none, s)
  | (f, prev, r) :: rest =>
    if f.slot = 0 then s.trySlots rest
    else
      let s := if prev then s.raise 8 6 [f.slot] else s
      match s.slotVerifies f r with
      | (some i, s) => (some (f, prev, i), s)
      | (none, s) => s.trySlots rest

/-- Record 9 of the BOOT entry. -/
def bootFwRecord (f : FwWord × Bool × FwInfo) (started : Bool) : List Byte :=
  fwRecord 9 f.1.slot f.2.2.svn f.2.2.digest (b2n f.2.1 + 2 * b2n (!started))

/-- The BOOT entry is appended, or counted as unrecorded when no position is free (R115, R121). -/
def State.bootAppend (s : State) (fw : List (List Byte)) : State :=
  let ten := measurement 10 (s.nv.epoch * 2 ^ 32 + s.nv.archCount) s.archivedHead.2
  let body := (s.boot.recs ++ fw ++ [ten]).flatten
  if s.ringRoom = 0 then (s.unrecorded 1).fwStarts else s.appendSubmit 1 body .boot

/-- The watchdog is armed: the first beat of each pair must carry 1 (R445). -/
def State.arm (s : State) : State :=
  let p : Pair := { last := 0, beatAt := s.time, halfSeen := false }
  { s with hsk := { s.hsk with armed := true, pairs := [(0, p), (1, p)], cleanSince := s.time } }

/-- Firmware of a slot is started once its entry is written; an activation a reset interrupted is reported (R92), with the slot as the operation
(log entry 173). -/
def State.fwTake (s : State) (f : FwWord) (i : FwInfo) : State :=
  let s := s.modBoot (fun b => { b with fwSlot := f.slot, fwSvn := i.svn, fwDigest := i.digest })
  let s := (s.modLdg (fun l => { l with bootedSvn := i.svn })).arm
  let act := s.boot.interrupted.filter (fun c => c = 4 || c = 5)
  let s := s.modBoot (fun b => { b with interrupted := b.interrupted.filter (fun c => c ≠ 4 && c ≠ 5) })
  act.foldl (fun s c => s.raise 8 c [f.slot]) s

/-- Step 9: the slot of R80 or R447, the BOOT entry, and firmware or the safe configuration. -/
def State.step9 (s : State) (ra rp : NorRead) : State :=
  let s := s.modBoot (fun b => { b with booted := true })
  let act := (s.nv.fwActive, false, ra)
  let prev := (s.nv.fwPrev, true, rp)
  let due := s.fld HSK_HB_CFG_FALLBACK ≤ s.fld HSK_HB_STAT_EXPIRIES
  let (f, s) := s.trySlots (if due then [prev, act] else [act, prev])
  match f with
  | none => (if s.safe then s else s.enterSafe 7).bootAppend []
  | some x =>
    let full := decide (s.archiveCap ≤ s.nv.archCount) || s.nv.fullEpoch == some s.nv.epoch
    if s.safe then s.bootAppend [bootFwRecord x false]
    else if full then (s.bootAppend [bootFwRecord x false]).enterSafe 6
    else (s.fwTake x.1 x.2.2).bootAppend [bootFwRecord x true]

/-- FIRMWARE_BOOT (R80): how the reads of the slots that FW_ACTIVE and FW_PREVIOUS name go. -/
def execFirmwareBoot (ra rp : NorRead) (s : State) : Res :=
  (let s := s.fresh
   if s.alive ∧ s.pwr.trip = 0 ∧ s.boot.modReady ∧ !s.boot.booted then s.step9 ra rp else s).done s

end Sys2Proof.Machine
end

