-- ==== Sys2Proof/Machine/Husk.lean ====
section
/-!
DEFINITION. The husk's heartbeat watchdog (R445-R447), and the test and management pins (R501, R502).
-/
namespace Sys2Proof.Machine

/-! ### Heartbeat watchdog -/

/-- Change a pair's watchdog. -/
def State.putPairDog (s : State) (k : Nat) (p : Pair) : State := { s with hsk := { s.hsk with pairs := Tab.put s.hsk.pairs k p } }

/-- A write of HSK_HB_k: while armed, the next number with its complement renews the deadline, anything else is discarded (R445). -/
def State.beat (s : State) (k w : Nat) : State :=
  if !s.hsk.armed then s
  else
    let p := s.pairOf k
    let v := w % 65536
    if v = (p.last + 1) % 65536 ∧ w / 65536 % 65536 = 65535 - v then s.putPairDog k { last := v, beatAt := s.time, halfSeen := false }
    else s.raise 50 2 [k]

/-- HEARTBEAT_BEAT (R445): a write of HSK_HB_0 or HSK_HB_1. -/
def execHeartbeatBeat (r : Req) (k w : Nat) (s : State) : Res :=
  (s.fresh.atRegW r (HSK_HB.key (k % 2) 0) (fun s => s.beat (k % 2) w)).done s

/-- HEARTBEAT_HALF_PERIOD (R445): reported once for each beat that is late. -/
def execHeartbeatHalfPeriod (k : Nat) (s : State) : Res :=
  (let s := s.fresh
   let p := s.pairOf (k % 2)
   if s.hsk.armed ∧ !s.suspended (k % 2) ∧ !p.halfSeen then
     let s := s.notBefore (p.beatAt + s.fld HSK_HB_CFG_PERIOD_MS * 500000)
     (s.putPairDog (k % 2) { p with halfSeen := true }).raise 50 1 [k % 2]
   else s).done s

/-- The watchdog reset and the start that follows it: the image is not read, and what it set holds (Table 14.4, steps 3 to 5). -/
def State.watchdogReset (s : State) : State :=
  let s := (s.deviceReset 3).nsGo.step3
  s.portsReady

/-- Step 1 and 2 of Table 14.4: the expiry is counted and reported at once, by the routes in force before the reset. -/
def State.expire (s : State) (k : Nat) : State :=
  let s := s.countS HSK_HB_STAT_EXPIRIES HSK_HB_STAT_OVF 1
  let s := s.raiseNow 51 (k + 1) [s.fld HSK_HB_STAT_EXPIRIES]
  { s with hsk := { s.hsk with armed := false, cleanSince := s.time } }

/-- WATCHDOG_EXPIRY (R446): a running pair's deadline passes. -/
def execWatchdogExpiry (k : Nat) (s : State) : Res :=
  (let s := s.fresh
   if s.hsk.armed ∧ !s.suspended (k % 2) then
     ((s.notBefore ((s.pairOf (k % 2)).beatAt + s.hbLimit * 1000000)).expire (k % 2)).watchdogReset
   else s).done s

/-- EXPIRIES_CLEAR (R447): firmware has run for 1 h without expiry. -/
def execExpiriesClear (s : State) : Res :=
  (let s := s.fresh
   if s.hsk.armed then (s.notBefore (s.hsk.cleanSince + 3600000000000)).setFld HSK_HB_STAT_EXPIRIES 0 else s).done s

/-! ### Test port (R501) -/

/-- The test port works while the device has power. -/
def State.testPort (s : State) : Bool := !s.pwr.ready

/-- IDCODE of a part. -/
def idcode (p : Part) : Nat :=
  match p with
  | .glt7440 => 0x17440B47
  | .glt7430 => 0x17430B47
  | .glt7420 => 0x17420B47

/-- An instruction is loaded: 0 BYPASS, 1 IDCODE, 2 SAMPLE/PRELOAD, 3 EXTEST, 4 CLAMP, 5 HIGHZ. Those of 3 and above are BYPASS unless
BSCAN_EN_N was sampled low. What stands between TDI and TDO is the bypass bit, the IDCODE, or the boundary register, whose cells the spec
does not list: a free value. -/
def State.jtag (s : State) (i : Nat) : State :=
  if !s.testPort then s
  else
    let i := if 3 ≤ i ∧ s.boot.pins.bscanEnN then 0 else i
    let s := s.modBoot (fun b => { b with jtagIr := i })
    if i = 1 then s.emit (.jtag 1 (idcode s.part))
    else if i = 2 ∨ i = 3 then
      let (v, s) := s.draw (2 ^ 64)
      s.emit (.jtag 2 v)
    else s.emit (.jtag 0 0)

/-- JTAG_BYPASS. -/
def execJtagBypass (s : State) : Res := (s.fresh.jtag 0).done s

/-- JTAG_IDCODE. -/
def execJtagIdcode (s : State) : Res := (s.fresh.jtag 1).done s

/-- JTAG_SAMPLE_PRELOAD. -/
def execJtagSamplePreload (s : State) : Res := (s.fresh.jtag 2).done s

/-- JTAG_EXTEST. -/
def execJtagExtest (s : State) : Res := (s.fresh.jtag 3).done s

/-- JTAG_CLAMP. -/
def execJtagClamp (s : State) : Res := (s.fresh.jtag 4).done s

/-- JTAG_HIGHZ. -/
def execJtagHighz (s : State) : Res := (s.fresh.jtag 5).done s

end Sys2Proof.Machine
end

