-- ==== Sys2Proof/Machine/Mi.lean ====
section
/-!
DEFINITION. The NVMe-MI endpoint (R494, Table 16.9): asynchronous messages, the polls, configuration, and the vendor's commands.
Response layouts are those of NVMe-MI 2.0 (log entry 50); the bytes the spec does not give a value are free.
-/
namespace Sys2Proof.Machine

/-- The endpoint answers while the device has its input; unpowered there is no answer. -/
def State.miUp (s : State) : Bool := !s.pwr.ready && s.pwr.fail = 0

/-- A successful answer. -/
def State.miOk (s : State) (d : List Byte) : State := s.emit (.mi 0x00 d)

/-- Invalid Parameter. -/
def State.miBad (s : State) : State := s.emit (.mi 0x04 [])

/-- The 7-bit address by the straps, or the dynamic one (R502). -/
def State.miAddress (s : State) : Nat :=
  s.boot.i3cAddr.getD (0x1D + 2 * b2n s.boot.pins.miAddr1 + b2n s.boot.pins.miAddr0)

/-- SMBALERT_N is driven low in SMBus mode while records wait unsent (R502). -/
def State.smbAlert (s : State) : Bool := s.boot.pins.miSel && !s.evt.miQ.isEmpty

/-- MI_AEM_SEND (R494): with messages enabled and a path, the oldest waiting record is sent. -/
def execMiAemSend (s : State) : Res :=
  (let s := s.fresh
   match s.evt.miQ with
   | r :: rest => if s.evt.miOn ∧ s.miUp then (s.modEvt (fun e => { e with miQ := rest })).emit (.aem r.bytes) else s
   | [] => s).done s

/-- The pods that exist, in rising order: the controllers, whose IDs are pod numbers. -/
def State.controllers (s : State) : List Nat := s.pod.pods.map (fun kv => kv.1)

/-- Data of Read NVMe-MI Data Structure: 0 the subsystem, 1 a port, 2 the controller list, 3 a controller. The part number is readable here (R4),
at a place of the subsystem's structure that the spec does not name (log entry 180). -/
def State.miStructure (s : State) (dtyp port ctrl : Nat) : State :=
  if dtyp = 0 then
    let (d, s) := s.openForm 32 [(1, leBytes 1 2), (2, leBytes 1 0), (8, slice (modelNumber s.part) 0 24)]
    s.miOk d
  else if dtyp = 1 then
    if 2 < port then s.miBad
    else
      let (d, s) := s.openForm 32 [(0, leBytes 1 (if port = 2 then 2 else 1))]
      s.miOk d
  else if dtyp = 2 then
    let l := (s.controllers.filter (fun p => ctrl ≤ p)).take 2047
    s.miOk (leBytes 2 l.length ++ l.flatMap (fun p => leBytes 2 p))
  else if dtyp = 3 then
    match Tab.look s.pod.pods ctrl with
    | none => s.miBad
    | some e =>
      let (d, s) := s.openForm 32 [(0, leBytes 1 e.port)]
      s.miOk d
  else s.miBad

/-- MI_READ_DATA_STRUCTURE (Table 16.9). -/
def execMiReadDataStructure (dtyp port ctrl : Nat) (s : State) : Res :=
  (let s := s.fresh
   if s.miUp then s.miStructure dtyp port ctrl else s).done s

/-- MI_SUBSYSTEM_HEALTH_POLL: composite temperature, Critical Warning (R345) and Percentage Used. -/
def execMiSubsystemHealthPoll (s : State) : Res :=
  (let s := s.fresh
   if s.miUp then
     let (d, s) := s.openForm 8 [
       (1, leBytes 1 (255 - s.critical 0 % 256)), (2, leBytes 1 (ofSigned 8 ((s.composite : Int) - 273))), (3, leBytes 1 s.percentUsed)]
     s.miOk d
   else s).done s

/-- MI_CONTROLLER_HEALTH_POLL: one controller, by pod. -/
def execMiControllerHealthPoll (p : Nat) (s : State) : Res :=
  (let s := s.fresh
   if !s.miUp then s
   else if !Tab.has s.pod.pods p then s.miBad
   else
     let c := s.ctrl p
     let (d, s) := s.openForm 16 [
       (0, leBytes 2 p), (2, leBytes 2 (b2n c.rdy + 2 * b2n c.cfs + 4 * c.shst)), (4, leBytes 2 s.composite), (6, leBytes 1 s.percentUsed),
       (7, leBytes 1 s.availSpare), (8, leBytes 1 (s.critical p))]
     s.miOk d).done s

/-- A configuration's value: 1 bus frequency, 3 MCTP transmission unit, 4 asynchronous events. -/
def State.miConfig (s : State) (id : Nat) : Option Nat :=
  if id = 1 then some s.evt.miFreq else if id = 3 then some s.evt.miMtu else if id = 4 then some (b2n s.evt.miOn) else none

/-- MI_CONFIGURATION_SET: frequency codes 1 to 3 (100 kHz, 400 kHz, 1 MHz), units from 64 bytes, events on or off. -/
def execMiConfigurationSet (id value : Nat) (s : State) : Res :=
  (let s := s.fresh
   if !s.miUp then s
   else if id = 1 ∧ 1 ≤ value ∧ value ≤ 3 then (s.modEvt (fun e => { e with miFreq := value })).miOk []
   else if id = 3 ∧ 64 ≤ value ∧ value < 65536 then (s.modEvt (fun e => { e with miMtu := value })).miOk []
   else if id = 4 ∧ value < 2 then (s.modEvt (fun e => { e with miOn := decide (value = 1) })).miOk []
   else s.miBad).done s

/-- MI_CONFIGURATION_GET. -/
def execMiConfigurationGet (id : Nat) (s : State) : Res :=
  (let s := s.fresh
   if !s.miUp then s
   else
     match s.miConfig id with
     | some v => s.miOk (leBytes 3 v)
     | none => s.miBad).done s

/-- MI_RESET: answered, then the NVM subsystem reset, with how the reads of both image copies go. -/
def execMiReset (a b : NorRead) (s : State) : Res :=
  (let s := s.fresh
   if s.miUp then (s.miOk []).nssr a b else s).done s

/-- Records of the event ring from a SEQ on, at most n, in order; those overwritten are passed over (R482). -/
def State.ringFrom (s : State) (seq n : Nat) : List EvtRec :=
  let first := max seq (s.recd.head - 16383)
  ((List.range n).filterMap (fun i =>
    if first + i ≤ s.recd.head then (Tab.look s.recd.ring ((first + i) % 16384)).filter (fun r => r.seq = first + i) else none))

/-- MI_EVENT_READ: up to 64 records from a SEQ. -/
def execMiEventRead (seq count : Nat) (s : State) : Res :=
  (let s := s.fresh
   if s.miUp then s.miOk ((s.ringFrom seq (min 64 count)).flatMap EvtRec.bytes) else s).done s

/-- MI_SERIES_READ: block 0 live, 1 lifetime, 2 to 31 the period blocks; not in the safe configuration. -/
def execMiSeriesRead (k block : Nat) (s : State) : Res :=
  (let s := s.fresh
   if !s.miUp then s
   else if s.safe then s.emit (.mi 0x03 [])
   else if 1024 ≤ k ∨ 31 < block then s.miBad
   else if block = 0 then s.miOk ((s.live k).bytes k)
   else s.miOk ((s.historyBlock (32 * k + (block - 1))).bytes k)).done s

/-- MI_BOOT_STATUS: CFG_BOOT_STAT, CFG_RESET_CAUSE and FTL_DUR; FTL_DUR reads zero while its domain is off. -/
def execMiBootStatus (s : State) : Res :=
  (let s := s.fresh
   let dur := if s.powered 0x12 FTL_DUR.off then s.reg FTL_DUR else 0
   if s.miUp then s.miOk (leBytes 4 (s.reg CFG_BOOT_STAT) ++ leBytes 4 (s.reg CFG_RESET_CAUSE) ++ leBytes 4 dur) else s).done s

/-- MI_TOKEN_NONCE (R126): path 1's nonce is replaced and returned. -/
def execMiTokenNonce (s : State) : Res :=
  (let s := s.fresh
   if !s.miUp then s
   else if !s.domOn 1 ∨ !s.rngOk then s.emit (.mi 0x02 [])
   else
     let (n, s) := s.newNonce 1
     s.miOk n).done s

/-- MI_TOKEN_SUBMIT (R127): the token goes to the signing unit on path 1, and its end is the answer. -/
def execMiTokenSubmit (token : List Byte) (s : State) : Res :=
  (let s := s.fresh
   if !s.miUp then s
   else if !s.domOn 1 then s.emit (.mi 0x02 [])
   else s.tokenRequest 1 (.tokenMi (slice token 0 3336))).done s

/-- DYNAMIC_ADDRESS_ASSIGNMENT (R502): in I3C mode the endpoint takes a 7-bit dynamic address. -/
def execDynamicAddressAssignment (addr : Nat) (s : State) : Res :=
  (let s := s.fresh
   if s.miUp ∧ !s.boot.pins.miSel then s.modBoot (fun b => { b with i3cAddr := some (addr % 128) }) else s).done s

end Sys2Proof.Machine
end

