-- ==== Sys2Proof/Machine/Fabric.lean ====
section
/-!
DEFINITION. The handshake fabric (chapter 2): its watchdog, speed monitors and perturbation slots, the windows of background
shares (R37), and the reads and writes of registers and memory that have no row of their own (R23, R41).
-/
namespace Sys2Proof.Machine

/-! ### Perturbation (R63-R65) -/

/-- Whether HSF_PERT_GATE.OPEN reads 1 (R63). -/
def State.pertOpen (s : State) : Bool :=
  bit s.boot.testPermit 0 && !s.boot.permitGone && bit (s.fld SGN_TOKEN_LATCH_GRANT) 0

/-- Ports no slot may act on (R65). -/
def pertForbidden (side : Bool) (port : Nat) : Bool :=
  if side then [0x00, 0x01, 0x02, 0x03, 0x04, 0x09, 0x0A, 0x0B, 0x17, 0x42, 0x82, 0x83, 0x84, 0x89, 0x8A, 0x97].contains port
  else [0xE8, 0xE9, 0xF0].contains port

/-- The cause of HSF_PERTURB_DENIED for a slot's value, 0 when it is accepted. Where several of R65's cases hold the spec does not say which
cause is reported: the model takes the closed gate first, then MODE 3, then the port (log entry 169). -/
def State.pertCause (s : State) (w : Nat) : Nat :=
  if !s.pertOpen then 1 else if bits w 30 29 = 3 then 3 else if pertForbidden (bit w 28) (bits w 7 0) then 2 else 0

/-- A write of HSF_PERT_SLOT_n (R64, R65): checked when it sets EN or changes MODE, SIDE or PORT of an enabled slot; MODE 3 is refused
always. The LFSR starts from SEED, or 1, when EN goes from 0 to 1. -/
def State.pertSlot (s : State) (n w : Nat) : State :=
  let old := s.reg HSF_PERT_SLOT n
  let enabling := bit w 31 && !bit old 31
  let changing := bit old 31 && (bits w 30 28 ≠ bits old 30 28 || bits w 7 0 ≠ bits old 7 0)
  let c := s.pertCause w
  if (enabling || changing) ∧ c ≠ 0 then s.raise 44 c [n, bits w 7 0]
  else if bits w 30 29 = 3 then s
  else
    let s := s.storeReg (HSF_PERT_SLOT.key n 0) w
    if enabling then
      let seed := s.fld HSF_PERT_PARAM_SEED n
      State.raise { s with hsf := { s.hsf with lfsr := Tab.put s.hsf.lfsr n (if seed = 0 then 1 else seed) } } 43 1 [n, bits w 7 0]
    else s

/-- HSF_PERT_SLOT_WRITE (R65): slots 0 to 3. -/
def execHsfPertSlotWrite (r : Req) (n w : Nat) (s : State) : Res :=
  (s.fresh.atRegW r (HSF_PERT_SLOT.key (n % 4) 0) (fun s => s.pertSlot (n % 4) w)).done s

/-- HSF_PERT_PARAM_WRITE (R64). -/
def execHsfPertParamWrite (r : Req) (n w : Nat) (s : State) : Res :=
  (s.fresh.atRegW r (HSF_PERT_PARAM.key (n % 4) 0) (fun s => s.storeReg (HSF_PERT_PARAM.key (n % 4) 0) w)).done s

/-- The held acknowledge whose hold ends first, among the oldest of each master at each target (R62). -/
def firstHeld : List HeldAck → List (Nat × Nat) → Option HeldAck → Option HeldAck
  | [], _, best => best
  | x :: rest, seen, best =>
    if seen.contains (x.master, x.target) then firstHeld rest seen best
    else
      firstHeld rest ((x.master, x.target) :: seen)
        (match best with
         | some b => if x.until_ < b.until_ then some x else some b
         | none => some x)

/-! ### Handshake watchdog (R55, R58) -/

/-- The write of a digest context's owner that ended with HSTALL clears the context (R108). -/
def State.stallCtx (s : State) (c : Nat) : State :=
  match Tab.look s.dig.ctx c with
  | some x => if x.isOpen then s.digBusErr c x else s
  | none => s

/-- The digest context whose page an address lies in. -/
def ctxAt (addr : Nat) : Option Nat :=
  let key := addr - 0xF000000000
  if 0xF000000000 ≤ addr ∧ key / 0x100000 = 0x05 ∧ 0x1000 ≤ key % 0x100000 ∧ key % 0x100000 < 0x2000 then some ((key % 0x100000 - 0x1000) / 0x100)
  else none

/-- A transaction whose acknowledge a slot holds for LIMIT or longer ends with HSTALL (R55, R57): its acknowledge is discarded when it
comes (R58). -/
def State.heldStall (s : State) (x : HeldAck) : State :=
  let s := s.notBefore (x.at_ + s.wdogNs)
  let s := State.stalled { s with hsf := { s.hsf with held := s.hsf.held.erase x } } x.master x.target 1
  let s := match x.ctx with
    | some c => s.stallCtx c
    | none => s
  s.emit (.bus .hstall [])

/-- PERTURB_HOLD_EXPIRY (R64): a held acknowledge is released, or its transaction is ended by the watchdog before (R57). -/
def execPerturbHoldExpiry (s : State) : Res :=
  (let s := s.fresh
   match firstHeld s.hsf.held [] none with
   | some x =>
     if x.at_ + s.wdogNs ≤ max s.time x.until_ then s.heldStall x
     else State.emit { (s.notBefore x.until_) with hsf := { s.hsf with held := s.hsf.held.erase x } } x.ack
   | none => s).done s

/-- The target code of an address (Table 2.5). -/
def codeOf (addr : Nat) : Option Nat :=
  match dataPort addr with
  | some p => some (0x80 + p.1)
  | none => (regionOf addr).map (fun x => x.1)

/-- Whether a write passes every check in front of its target, so that it may have been forwarded there (R58). -/
def State.forwards (s : State) (r : Req) (t addr : Nat) (d : List Byte) : Bool :=
  codeOf addr = some t
    && (if t < 0x40 then d.length = 4 && s.gateReg r (addr - 0xF000000000) true = .go
        else if t < 0x80 then s.gateMem r addr d.length false true = .go && sizeOk t addr d.length
        else true)

/-- HSF_WDOG_TIMEOUT (R55): a transaction of r at target t, to which no acknowledge has come within LIMIT, ends with HSTALL. It is the oldest
one whose acknowledge a slot holds past LIMIT, else one issued now. A write may be forwarded already: its address and bytes (R58). -/
def execHsfWdogTimeout (r : Req) (t : Nat) (write : Option (Nat × List Byte)) (s : State) : Res :=
  (let s := s.fresh
   if !s.issues r ∨ s.hsf.fenced.contains t then s
   else
     match s.hsf.held.find? (fun x => x.master = r.master && x.target = t && x.at_ + s.wdogNs ≤ x.until_) with
     | some x => s.heldStall x
     | none =>
       let go := match write with
         | some w => s.forwards r t w.1 w.2
         | none => false
       let s := (s.notBefore (s.time + s.wdogNs)).stalled r.master t 1
       let s := match write with
         | some w =>
           let s := if go then { s with hsf := { s.hsf with late := s.hsf.late ++ [({ req := r, target := t, addr := w.1, data := w.2, lost := false } : LateWrite)] } } else s
           (match ctxAt w.1 with
            | some c => (match Tab.look s.dig.ctx c with
              | some x => if x.ownedBy r then s.stallCtx c else s
              | none => s)
            | none => s)
         | none => s
       s.emit (.bus .hstall [])).done s

/-! ### Register writes (R23, R77) -/

/-- An invalid value of a register that only the image sets is reported as it is discarded (R39, R56). -/
def State.imageOnly (s : State) (code key w : Nat) : State :=
  if (s.written key w).isNone ∧ !s.boot.locked then s.raise 3 1 [code, key / 0x100000, key % 0x100000] else s.storeReg key w

/-- A write to the page of digest context c (Table 4.10). -/
def State.ctxWrite (s : State) (g : RegId) (c j w : Nat) (x : DigCtx) : State :=
  let half := fun (y : DigCtx) =>
    match x.state with
    | 1 => s.putCtx c y
    | 4 => s
    | _ => s.digMisuse c x 2
  if g = DIG_CTX_CLOSE then { s with dig := { s.dig with ctx := Tab.del s.dig.ctx c } }
  else if g = DIG_CTX_DATA_LO then half { x with dataLo := w }
  else if g = DIG_CTX_DATA_HI then s.digData c x (x.dataLo + w * 2 ^ 32)
  else if g = DIG_CTX_LAST_LO then s.digLast c x (w + x.lastHi * 2 ^ 32)
  else if g = DIG_CTX_LAST_HI then s.digLast c x (x.lastLo + w * 2 ^ 32)
  else if g = DIG_CTX_FINAL then s.digFinal c x w
  else if g = DIG_CTX_SRC_LO then s.putCtx c { x with srcLo := w }
  else if g = DIG_CTX_SRC_HI then s.putCtx c { x with srcHi := w }
  else if g = DIG_CTX_SRC_LEN then s.digSrc c x w
  else if g = DIG_CTX_EXP then s.putCtx c { x with exp := x.exp.set j w }
  else s.putCtx c x

/-- The first halves of 64-bit addresses and what goes before a command, kept for the writing master. -/
def State.keepHalf (s : State) (m : Nat) (g : RegId) (i n w : Nat) : Option State :=
  let put := fun (t : Tab Nat) (k : Nat) => Tab.put t k w
  if g = SGN_SUBMIT_LO then some (s.modSgn (fun x => { x with submitLo := put x.submitLo m }))
  else if g = LDG_APPEND_LO then some (s.modLdg (fun x => { x with appendLo := put x.appendLo m }))
  else if g = LDG_APPEND_HI then some (s.modLdg (fun x => { x with appendHi := put x.appendHi m }))
  else if g = LDG_ACTIVATE_SVN then some (s.modLdg (fun x => { x with activateSvn := w }))
  else if g = LDG_ARCHIVED_ACK_LO then some (s.modLdg (fun x => { x with ackLo := put x.ackLo m }))
  else if g = FCH_SUBMIT_LO then some (s.modFlash (fun x => { x with submitLo := put x.submitLo (32 * m + n) }))
  else if g = CMP_JOB_SUBMIT_LO then some (s.modCmp (fun x => { x with submitLo := put x.submitLo m }))
  else if g = SCN_SUBMIT_LO then some (s.modScn (fun x => { x with submitLo := put x.submitLo m }))
  else if g = SCN_CANCEL_LO then some (s.modScn (fun x => { x with cancelLo := put x.cancelLo m }))
  else if g = TSK_SUBMIT_LO then some (s.modTsk (fun x => { x with submitLo := put x.submitLo m }))
  else if g = TSK_PROG_ADDR_LO then some (s.modTsk (fun x => { x with progAddr := x.progAddr / 2 ^ 32 * 2 ^ 32 + w }))
  else if g = TSK_PROG_ADDR_HI then some (s.modTsk (fun x => { x with progAddr := x.progAddr % 2 ^ 32 + w * 2 ^ 32 }))
  else if g = POD_CMD_LO then some { s with pod := { s.pod with cmdLo := put s.pod.cmdLo m } }
  else if g = REC_SNAP_ADDR_LO then some (s.modRecd (fun x => { x with snapAddr := x.snapAddr / 2 ^ 32 * 2 ^ 32 + w }))
  else if g = REC_SNAP_ADDR_HI then some (s.modRecd (fun x => { x with snapAddr := x.snapAddr % 2 ^ 32 + w * 2 ^ 32 }))
  else if g = EVT_RAISE_SUBJ then some (if isMgmt m then s.modEvt (fun x => { x with raiseSubj := x.raiseSubj.set i w }) else s)
  else if g = ASK_MEMBER_QUERY then some (s.modAsk (fun x => { x with query := Tab.put x.query m (w % 16384) }))
  else none

/-- The writes that submit an address, whose low half was written before. -/
def State.submitHi (s : State) (r : Req) (g : RegId) (n w : Nat) : Option State :=
  let m := r.master
  let addr := fun (t : Tab Nat) (k : Nat) => Tab.lookD t k 0 + w * 2 ^ 32
  if g = SGN_SUBMIT_HI then some (s.sgnSubmit r (addr s.sgn.submitLo m / 64 * 64))
  else if g = LDG_ARCHIVED_ACK_HI then some (s.archivedAck (addr s.ldg.ackLo m))
  else if g = FCH_SUBMIT_HI then some (s.submitFlash r n (addr s.flash.submitLo (32 * m + n)))
  else if g = CMP_JOB_SUBMIT_HI then some (s.jobSubmit r (addr s.cmp.submitLo m / 64 * 64))
  else if g = SCN_SUBMIT_HI then some (s.scanSubmit r (addr s.scn.submitLo m))
  else if g = SCN_CANCEL_HI then some (s.scanCancel (addr s.scn.cancelLo m))
  else if g = TSK_SUBMIT_HI then some (s.submitAt r (addr s.tsk.submitLo m))
  else if g = POD_CMD_HI then some (s.podFw r (addr s.pod.cmdLo m) none)
  else none

/-- The writes that are a command of a unit, each with a row of its own. -/
def State.unitCommand (s : State) (r : Req) (g : RegId) (i j w : Nat) : Option State :=
  if g = DIG_OPEN then some (s.digOpen r w)
  else if g = LDG_APPEND_CTRL then some (s.fwAppend r w)
  else if g = LDG_ACTIVATE then some (s.activate (w % 8) (bits w 5 4) none false).2
  else if g = KEY_NS_CMD then some (s.keyCommand r.master (bits w 31 28) (bits w 13 0) none)
  else if g = LDP_GRP_CMD then some (s.grpCmd r (bits w 31 28) w)
  else if g = FTL_GC_VICTIM then some (s.victimWrite w)
  else if g = CMP_CTX_OPEN then some (s.ctxOpen r w)
  else if g = CMP_CTX_CLOSE then some (s.ctxClose r w)
  else if g = TSK_FLAG_SET then some (s.flagSet r w)
  else if g = TSK_CANCEL then some (s.cancelWrite r w)
  else if g = TSK_QUERY then some (s.taskQuery r w)
  else if g = TSK_PROG_CMD then
    some (if bits w 31 28 = 1 then s.progLoad r w else if bits w 31 28 = 2 then s.progUnload r w else s.progResult r 2)
  else if g = TSK_CORE_END then some (s.coreEnd (8 * i + j) w)
  else if g = TSK_CORE_CTRL then some (s.online (8 * i + j) (bit w 31))
  else if g = MPR_INJ_CTRL then some (s.injWrite r.master w)
  else if g = CLE_TARGET then some (s.setTarget i (w % 65536))
  else if g = CLE_COEF ∧ j = 5 then some (s.coefWrite i w)
  else if g = PWR_DOM_REQ_0 then some (s.domReqWrite false w)
  else if g = PWR_DOM_REQ_1 then some (s.domReqWrite true w)
  else if g = PWR_FPG_CTRL then some (s.fpgWrite w)
  else if g = PWR_GOV_REQ then some (s.surgeWrite w)
  else if g = HSK_HB then some (s.beat i w)
  else if g = EVT_RAISE then some (s.raiseFirmware r.master w)
  else if g = EVT_MQ_RD then some (s.mqConsume r.master w)
  else if g = REC_SNAP_CMD then some (s.startSnapshot r.master)
  else if g = HSF_PERT_SLOT then some (s.pertSlot i w)
  else none

/-- The effect of a register write that the gate lets through; an offset without a register discards it (R23). -/
def State.writeEffect (s : State) (r : Req) (key w : Nat) : State :=
  let win := key / 0x100000
  match findRow win (key % 0x100000) with
  | none => s
  | some row =>
    match row.indexOf (key % 0x100000) with
    | none => s
    | some (i, j) =>
      let g : RegId := ⟨winBase win, row.off, row.s1, row.s2⟩
      match s.unitCommand r g i j w with
      | some s => s
      | none =>
        match s.submitHi r g (win - winBase win) w with
        | some s => s
        | none =>
          match s.keepHalf r.master g i (win - winBase win) w with
          | some s => s
          | none =>
            if g = CFG_BGS_SHARE then s.imageOnly 10 key w
            else if g = HSF_WDOG_CTRL then s.imageOnly 8 key w
            else if g = EVT_TSUB_W0 ∨ g = EVT_TSUB_W1 then (if isMgmt r.master then s.storeReg key w else s)
            else if g = FTL_DUR then
              (if bit w 30 then s.modNv (fun n => { n with breach := false }) else s).storeReg key w
            else s.storeReg key w

/-- The effect of the owner's write to a context's page; an offset without a register discards it (R23). -/
def State.pageEffect (s : State) (key w : Nat) (x : DigCtx) : State :=
  let win := key / 0x100000
  let off := key % 0x100000
  match (findRow win off).bind (fun row => (row.indexOf off).map (fun ij => (row, ij))) with
  | some (row, ij) => s.ctxWrite ⟨win, row.off, row.s1, row.s2⟩ ij.1 ij.2 w x
  | none => s.putCtx ((off - 0x1000) / 0x100) x

/-- Which register an address holds, when it is a submission to an absent flash channel, which completes with UNIT_ABSENT (R11). -/
def absentSubmit (p : Part) (key : Nat) : Bool :=
  0x20 ≤ key / 0x100000 && key / 0x100000 < 0x40 && key % 0x100000 = FCH_SUBMIT_HI.off && !unitPresent p (key / 0x100000)

/-- A register write by a master, wherever it lands. -/
def State.regStore (s : State) (r : Req) (key w : Nat) : State :=
  let win := key / 0x100000
  let off := key % 0x100000
  if win = 0x05 ∧ 0x1000 ≤ off ∧ off < 0x2000 then
    s.atCtx r key ((off - 0x1000) / 0x100) (fun x s => s.pageEffect key w x)
  else if absentSubmit s.part key then s.submitOp r (win - 0x20) (Tab.lookD s.flash.submitLo (32 * r.master + (win - 0x20)) 0 + w * 2 ^ 32)
  else if win < 0x40 ∧ 0x20 ≤ win ∧ off = FCH_SUBMIT_LO.off ∧ !unitPresent s.part win then
    match s.gateReg r key true with
    | .quiet => (s.modFlash (fun x => { x with submitLo := Tab.put x.submitLo (32 * r.master + (win - 0x20)) w })).atRegW r key id
    | _ => s.atRegW r key id
  else s.atRegW r key (fun s => s.writeEffect r key w)

/-! ### Registers seen by the host (R25, R307-R309)

The table has no row for a host's read of BAR0 or BAR2: it is a form of REGISTER_LO_READ, and a host's write one of REGISTER_WRITE, whose key is
2^32 + port × 2^28 + (BAR2: 2^27) + offset (log entry 182). -/

/-- CAP of a controller (Table 10.7); NSSRS is pod 0's alone. -/
def capReg (p : Nat) : Nat :=
  0x3FFF + 2 ^ 16 + 2 ^ 17 + 0xF0 * 2 ^ 24 + b2n (p = 0) * 2 ^ 36 + 0x41 * 2 ^ 37 + 4 * 2 ^ 52 + 3 * 2 ^ 59

/-- A controller register of a pod at an aligned offset of its window (Tables 10.6, 10.7): CAP, VS, CC, CSTS, AQA, ASQ, ACQ, CRTO; the
registers of what is not supported, and doorbells, read zero (log entry 182). -/
def State.ctrlRead (s : State) (p off : Nat) : Nat :=
  let c := s.ctrl p
  if off = 0x00 then capReg p % 2 ^ 32
  else if off = 0x04 then capReg p / 2 ^ 32
  else if off = 0x08 then 0x00020100
  else if off = 0x14 then c.cc
  else if off = 0x1C then b2n c.rdy + 2 * b2n c.cfs + 4 * c.shst
  else if off = 0x24 then c.aqa
  else if off = 0x28 then c.asq % 2 ^ 32
  else if off = 0x2C then c.asq / 2 ^ 32
  else if off = 0x30 then c.acq % 2 ^ 32
  else if off = 0x34 then c.acq / 2 ^ 32
  else if off = 0x68 then 0x000400F0
  else 0

/-- Whether the pod of a window is bound to the function of a port (R307). -/
def State.boundOn (s : State) (port p : Nat) : Bool :=
  match Tab.look s.pod.pods p with
  | some e => e.bound && e.port = port
  | none => false

/-- The status window of BAR2 (Table 10.8) at an aligned offset, and the state the read leaves: one of device time's low word latches the
upper (R18). -/
def State.statusRead (s : State) (port off : Nat) : Nat × State :=
  let v := fun (g : RegId) (i : Nat) => s.readValue 0 (g.key i 0)
  if off = 0x000 then (Config.capUnits s.part, s)
  else if off = 0x004 then (v CFG_BOOT_STAT 0, s)
  else if off = 0x008 then (v CFG_RESET_CAUSE 0, s)
  else if off = 0x00C then (v FTL_DUR 0, s)
  else if off = 0x010 then
    (s.time % 2 ^ 32, s.modHost (fun h => { h with barTime := Tab.put h.barTime port (s.time / 2 ^ 32 % 2 ^ 32) }))
  else if off = 0x014 then (Tab.lookD s.host.barTime port (s.time / 2 ^ 32 % 2 ^ 32), s)
  else if off = 0x018 then (s.composite % 2 ^ 16 * 2 ^ 16 + s.critical 0 % 256, s)
  else if off = 0x01C then (v FTL_STAT 0, s)
  else if off = 0x020 then (v HIF_LINK_STAT 0, s)
  else if off = 0x024 then (v HIF_LINK_STAT 1, s)
  else if off = 0x028 then (v HIF_CHAN 0, s)
  else if off = 0x02C then (v HIF_CHAN 1, s)
  else if off = 0x030 then (v FTL_SPARE_STAT 0, s)
  else (0, s)

/-- A host's read of 4 bytes through a port, which answers from step 7 on. -/
def State.hostRead (s : State) (key : Nat) : State :=
  let port := key / 2 ^ 28
  let off := key % 2 ^ 27 / 4 * 4
  if !s.boot.modReady ∨ !s.portOn port then s
  else if key / 2 ^ 27 % 2 = 1 then
    let (v, s) := s.statusRead port (off % 0x1000)
    s.emit (.bar (leBytes 4 v))
  else
    let p := off / 0x4000
    s.emit (.bar (leBytes 4 (if s.boundOn port p ∧ off % 0x4000 < 0x1000 then s.ctrlRead p (off % 0x4000) else 0)))

/-- A host's write of 4 bytes through a port: a controller register of a bound pod takes it, one of BAR2 or anywhere else is discarded. The
writes that are commands of their own (CC, doorbells, NSSR) have rows of their own too. -/
def State.hostWrite (s : State) (key w : Nat) : State :=
  let port := key / 2 ^ 28
  let off := key % 2 ^ 27 / 4 * 4
  let p := off / 0x4000
  let o := off % 0x4000
  let c := s.ctrl p
  if !s.boot.modReady ∨ !s.portOn port ∨ key / 2 ^ 27 % 2 = 1 ∨ !s.boundOn port p then s
  else if o = 0x28 then s.windowWrite p [(0x28, c.asq / 2 ^ 32 * 2 ^ 32 + w)]
  else if o = 0x2C then s.windowWrite p [(0x28, c.asq % 2 ^ 32 + w * 2 ^ 32)]
  else if o = 0x30 then s.windowWrite p [(0x30, c.acq / 2 ^ 32 * 2 ^ 32 + w)]
  else if o = 0x34 then s.windowWrite p [(0x30, c.acq % 2 ^ 32 + w * 2 ^ 32)]
  else if o = 0x14 ∨ o = 0x24 then s.windowWrite p [(o, w)]
  else s

/-- REGISTER_WRITE (R23): key is window × 1 MiB + offset. A register with a row of its own has that row's effect. -/
def execRegisterWrite (r : Req) (key w : Nat) (s : State) : Res :=
  (if 2 ^ 32 ≤ key then s.fresh.hostWrite (key - 2 ^ 32) (w % 2 ^ 32) else s.fresh.regStore r key (w % 2 ^ 32)).done s

/-- REGISTER_LO_READ (R18): the read of any register; one of a low word latches the upper. -/
def execRegisterLoRead (r : Req) (key : Nat) (s : State) : Res :=
  (if 2 ^ 32 ≤ key then s.fresh.hostRead (key - 2 ^ 32) else s.fresh.atRegR r key (fun s => s.regRead r key)).done s

/-! ### Memory (R41) -/

/-- The place a register access of a wrong size or alignment stands for: none, so that the gate answers DECERR (R23). -/
def wrongPlace (addr : Nat) : Nat := (addr - 0xF000000000) / 4 * 4 + 1

/-- Whether an address lies in the register windows' region or above it. -/
def inWindows (addr : Nat) : Bool := 0xF000000000 ≤ addr

/-- An access to the data port of instance i of window w (R10, R59, R413): one of an absent unit ends with ABSENT, one of a window that is not
defined or of a unit whose domain is off with DECERR. No register or command of the spec says what a present port gives or takes by a
plain access: a read's bytes are free values, a write changes nothing (log entry 164). -/
def State.portAccess (s : State) (r : Req) (w i n : Nat) (write : Bool) : State :=
  let t := 0x80 + w
  if !s.issues r then s
  else if s.hsf.fenced.contains t then (s.stalled r.master t 2).answer r.master t .hstall []
  else if !winDefined w then s.answer r.master t .decerr []
  else if !portPresent s.part w i then s.answer r.master t .absent []
  else if !((portDomains w i).isEmpty || (portDomains w i).any (fun d => s.domOn d)) then s.answer r.master t .decerr []
  else if write then s.answer r.master t .ok []
  else
    let d := (List.range n).map (fun k => BitVec.ofNat 8 (Config.freeValue (s.freeCtr + k)))
    State.answer { s with freeCtr := s.freeCtr + n } r.master t .ok d

/-- A read of n bytes by a master at an internal address. -/
def State.busRead (s : State) (r : Req) (addr n : Nat) (pe ce : CellErr) (hot : Bool) : State :=
  if let some p := dataPort addr then s.portAccess r p.1 p.2 n false
  else if inWindows addr then
    let key := if n = 4 then addr - 0xF000000000 else wrongPlace addr
    s.atRegR r key (fun s => s.regRead r key)
  else s.memRead r addr n pe ce hot

/-- A write of bytes by a master at an internal address. -/
def State.busWrite (s : State) (r : Req) (addr : Nat) (d : List Byte) (hot : Bool) : State :=
  if let some p := dataPort addr then s.portAccess r p.1 p.2 d.length true
  else if inWindows addr then s.regStore r (if d.length = 4 then addr - 0xF000000000 else wrongPlace addr) (leNat d)
  else s.memWriteOp r addr d hot

/-- MEMORY_READ (R41): what the array shows of the line, in its primary and its mirror copy, and whether the DRAM bank reaches its refresh
management threshold (R379), come with the command. -/
def execMemoryRead (r : Req) (addr n : Nat) (pe ce : CellErr) (hot : Bool) (s : State) : Res := (s.fresh.busRead r addr n pe ce hot).done s

/-- MEMORY_WRITE (R41): a write, or an atomic of a core (R278). -/
def execMemoryWrite (r : Req) (addr : Nat) (d : List Byte) (f : Option Atomic) (hot : Bool) (s : State) : Res :=
  (match f with
   | some a => s.fresh.atomicOp r addr d a hot
   | none => s.fresh.busWrite r addr d hot).done s

/-- A register write that its target performs, its checks made before it was forwarded. -/
def State.regLate (s : State) (r : Req) (key w : Nat) : State :=
  let win := key / 0x100000
  let off := key % 0x100000
  if !placePresent s.part win off ∨ !s.powered win off then s
  else if win = 0x05 ∧ 0x1000 ≤ off ∧ off < 0x2000 then
    match Tab.look s.dig.ctx ((off - 0x1000) / 0x100) with
    | some x => if x.ownedBy r then s.pageEffect key w x else s
    | none => s
  else s.writeEffect r key w

/-- What the target of a forwarded write does when it performs it (R58): no check is made again and no acknowledge reaches the master. -/
def State.lateEffect (s : State) (x : LateWrite) : State :=
  if x.target < 0x40 then s.regLate x.req (x.addr - 0xF000000000) (leNat x.data)
  else if x.target = 0x42 then
    (if 0x1C00000 ≤ x.addr - 0xE800000000 then s.generalWrite (x.addr - 0xE800000000) x.data else s)
  else if x.target < 0x43 then ((s.lineWrite x.req.master x.target x.addr x.data).2).breakReservations (x.addr / 64)
  else s

/-- The writes of one master to one target that were issued before one performed now are performed no more (R42). -/
def lateOvertake (x : LateWrite) (l : List LateWrite) : List LateWrite :=
  l.map (fun y => if y.req.master = x.req.master ∧ y.target = x.target then { y with lost := true } else y)

/-- LATE_ACKNOWLEDGE (R58): the acknowledge of write i of those forwarded before their HSTALL; the port discards it, and the target has
performed the write or never will; never after a later write of its master to its target was performed (R42). -/
def execLateAcknowledge (i : Nat) (performed : Bool) (s : State) : Res :=
  (let s := s.fresh
   match s.hsf.late[i]? with
   | none => s
   | some x =>
     let rest := s.hsf.late.eraseIdx i
     if performed ∧ !x.lost then
       State.lateEffect { s with hsf := { s.hsf with late := lateOvertake x (rest.take i) ++ rest.drop i } } x
     else { s with hsf := { s.hsf with late := rest } }).done s

/-! ### Speed monitors (R60, R61) -/

/-- Table 2.2: junction in °C and the factor in hundredths at each rail voltage. -/
def speedTable : List (Int × List Nat) := [
  (-20, [38, 47, 74, 103, 125, 134]), (0, [40, 49, 75, 102, 123, 132]), (25, [42, 51, 76, 102, 121, 130]),
  (50, [44, 53, 77, 101, 119, 128]), (70, [45, 55, 78, 100, 117, 126]), (85, [46, 56, 78, 98, 115, 123]),
  (98, [47, 57, 78, 96, 113, 121]), (105, [47, 57, 77, 95, 112, 120]), (115, [47, 57, 76, 93, 110, 118])]

/-- The columns of Table 2.2 in mV. -/
def speedVolts : List Nat := [550, 600, 700, 800, 900, 950]

/-- The column below and above a voltage that the table spans. -/
def speedCol (mv : Nat) : Option Nat := (List.range 5).find? (fun i => speedVolts.getD i 0 ≤ mv && mv ≤ speedVolts.getD (i + 1) 0)

/-- The row below and above a temperature, in 1/16 °C, that the table spans. -/
def speedRow (t : Int) : Option Nat :=
  (List.range 8).find? (fun i => (speedTable.getD i (0, [])).1 * 16 ≤ t && t ≤ (speedTable.getD (i + 1) (0, [])).1 * 16)

/-- The guaranteed factor at a voltage and temperature, in hundredths, as numerator and denominator: linear in voltage, then in
temperature (R46). -/
def speedFactor (mv : Nat) (t : Int) : Option (Int × Int) :=
  match speedCol mv, speedRow t with
  | some c, some k =>
    let v1 := speedVolts.getD c 0
    let v2 := speedVolts.getD (c + 1) 0
    let (t1, l1) := speedTable.getD k (0, [])
    let (t2, l2) := speedTable.getD (k + 1) (0, [])
    let at_ := fun (l : List Nat) => ((l.getD c 0 * (v2 - mv) + l.getD (c + 1) 0 * (mv - v1) : Nat) : Int)
    some (at_ l1 * (t2 * 16 - t) + at_ l2 * (t - t1 * 16), ((v2 - v1 : Nat) : Int) * ((t2 - t1) * 16))
  | _, _ => none

/-- Whether a FACTOR (units of 1/16,384) is more than 3 % below the table (R61). -/
def speedLow (factor mv : Nat) (t : Int) : Bool :=
  match speedFactor mv t with
  | some (n, d) => (factor : Int) * 10000 * d < 97 * 16384 * n
  | none => false

/-- Whether the domain of a monitor's rail is on. -/
def State.monitorOn (s : State) (n : Nat) : Bool := decide (8 ≤ n) || s.domOn (2 + n)

/-- SPEED_MONITOR_GATE (R60, R61): monitor n ends a gate with the factor measured, at the junction temperature of its nearest sensor in
1/16 °C; HSF_SPEED_LOW at most once a second. R61 bounds repeats only while the condition lasts: the model keeps the last time across a
recovery too (log entry 170). -/
def execSpeedMonitorGate (n factor : Nat) (temp : Int) (s : State) : Res :=
  (let s := s.fresh
   if 16 ≤ n ∨ !s.monitorOn n ∨ s.pwr.ready ∨ s.pwr.fail ≠ 0 then s
   else
     let s := (s.every (.gate n) 10000).setFld HSF_SPD_FACTOR (min factor 65535) n
     let due : Bool := match Tab.look s.hsf.lowAt n with
       | some t => decide (t + 1000000000 ≤ s.time)
       | none => true
     if due ∧ speedLow (min factor 65535) (s.railMv (s.fld HSF_SPD_LOOP n)) temp then
       State.raise { s with hsf := { s.hsf with lowAt := Tab.put s.hsf.lowAt n s.time } } 42 1 [n]
     else s).done s

/-! ### Background shares (R37) -/

/-- Instances of a shared resource (R35). -/
def bgCount (p : Part) (n : Nat) : Nat := [Config.fchCount p, Config.drcCount p, Config.cobCount p, Config.askPorts p].getD n 0

/-- BG_SHARE_WINDOW_END (R35, R37): the accounting window of instance i of resource n ends; MISSED, CAPPED, and what the next window carries. -/
def execBgShareWindowEnd (n i : Nat) (s : State) : Res :=
  (let s := s.fresh
   if 4 ≤ n ∨ bgCount s.part n ≤ i then s
   else
     let s := s.every (.window n i) (bgPeriod n)
     let a := s.bgAcct n i
     let floor := s.fld CFG_BGS_SHARE_FLOOR n
     let short := a.waiting && decide (a.used * 1000 < floor * bgWindow n)
     let s := if short then s.countS CFG_BGS_STAT_MISSED CFG_BGS_STAT_MISS_OVF 1 n else s
     let s := if a.heldAtCeil then s.countS CFG_BGS_STAT_CAPPED CFG_BGS_STAT_CAP_OVF 1 n else s
     let carry := if short then floor - a.used * 1000 / bgWindow n else 0
     let s := s.setBg n i { used := 0, carry := carry, waiting := false, heldAtCeil := false }
     if n = 2 then s.dispatch else if n = 3 then s.egressGo i else s).done s

end Sys2Proof.Machine
end

