-- ==== Sys2Proof/Machine/Debug.lean ====
section
/-!
DEFINITION. The debug port (R444): halting, core registers, and bus accesses under master ID 0xFE.
-/
namespace Sys2Proof.Machine

/-- The debug port's request. -/
def debugReq : Req := ⟨0xFE, 0⟩

/-- Something to be halted joins what is. -/
def State.halt (s : State) (k : Nat) : State := { s with hsk := { s.hsk with halted := podsOf (k :: s.hsk.halted) } }

/-- A register of a core that the debug port reads: the value it holds, or a free one, which a halted core then keeps. -/
def State.coreRead (s : State) (k n : Nat) : Nat × State :=
  let c := s.core k
  if n = 0 then (0, s)
  else
    match Tab.look c.regs.known n with
    | some v => (v, s)
    | none =>
      if c.regs.clean then (0, s)
      else
        let (v, s) := s.draw (2 ^ 64)
        (v, if s.hsk.halted.contains k then s.putCore k { c with regs := { c.regs with known := Tab.put c.regs.known n v } } else s)

/-- What a running core's program has done to its registers is free (log entry 183). -/
def State.coreRan (s : State) (k : Nat) : State :=
  if (s.core k).running.isSome then s.putCore k { (s.core k) with regs := .wild } else s

/-- Halting, running on and stepping, and registers: application cores at both levels, lockstep pairs at level 2 (Table 14.3). What registers a
management core has the spec does not say, and no row reaches them. -/
def State.debugRun (s : State) (op : DebugOp) : State :=
  match op with
  | .haltCore k => if k < coreCount s.part then (if s.hsk.halted.contains k then s else (s.coreRan k).halt k) else s
  | .stepCore k => if k < coreCount s.part ∧ s.hsk.halted.contains k then s.coreRan k else s
  | .runCore k => if k < coreCount s.part then s.debugResume (fun x => x = k) else s
  | .coreReg k n none =>
    if k < coreCount s.part then
      let (v, s) := s.coreRead k n
      s.emit (.bus .ok (leBytes 8 v))
    else s
  | .coreReg k n (some v) =>
    if k < coreCount s.part ∧ n ≠ 0 then
      s.putCore k { (s.core k) with regs := { (s.core k).regs with known := Tab.put (s.core k).regs.known n v } }
    else s
  | .haltPair k => if k < 2 ∧ s.hsk.debugLevel = 2 then s.halt (64 + k) else s
  | .runPair k => if k < 2 ∧ s.hsk.debugLevel = 2 then s.debugResume (fun x => x = 64 + k) else s
  | _ => s

/-- DEBUG_PORT_ACCESS (R444): nothing while the port is closed; bus accesses meet the access table and the reach of the level. -/
def execDebugPortAccess (op : DebugOp) (s : State) : Res :=
  (let s := s.fresh
   if s.hsk.debugLevel = 0 then s
   else
     match op with
     | .read addr n => s.busRead debugReq addr n CellErr.none CellErr.none false
     | .write addr d => s.busWrite debugReq addr d false
     | op => s.debugRun op).done s

end Sys2Proof.Machine
end

