-- ==== Sys2Proof/Machine/Dispatch.lean ====
section
/-!
DEFINITION. exec: one arm per command, each one direct call of its meaning.
-/
namespace Sys2Proof.Machine

def exec (i : Instr) (s : State) : Host.Outcome State Fault Refusal :=
  match i with
  | .registerWrite r key w => Sys2Proof.Machine.execRegisterWrite r key w s
  | .memoryRead r addr n pe ce hot => Sys2Proof.Machine.execMemoryRead r addr n pe ce hot s
  | .memoryWrite r addr d f hot => Sys2Proof.Machine.execMemoryWrite r addr d f hot s
  | .bgShareWindowEnd n k => Sys2Proof.Machine.execBgShareWindowEnd n k s
  | .hsfWdogTimeout r t write => Sys2Proof.Machine.execHsfWdogTimeout r t write s
  | .lateAcknowledge k performed => Sys2Proof.Machine.execLateAcknowledge k performed s
  | .speedMonitorGate n factor temp => Sys2Proof.Machine.execSpeedMonitorGate n factor temp s
  | .hsfPertSlotWrite r n w => Sys2Proof.Machine.execHsfPertSlotWrite r n w s
  | .hsfPertParamWrite r n w => Sys2Proof.Machine.execHsfPertParamWrite r n w s
  | .perturbHoldExpiry => Sys2Proof.Machine.execPerturbHoldExpiry s
  | .coldStart pins a b vBank => Sys2Proof.Machine.execColdStart pins a b vBank s
  | .identityKeyReady cause => Sys2Proof.Machine.execIdentityKeyReady cause s
  | .firmwareBoot ra rp => Sys2Proof.Machine.execFirmwareBoot ra rp s
  | .dramTrainingComplete c r => Sys2Proof.Machine.execDramTrainingComplete c r s
  | .flashDiscoveryComplete n dies => Sys2Proof.Machine.execFlashDiscoveryComplete n dies s
  | .memoryInitComplete u => Sys2Proof.Machine.execMemoryInitComplete u s
  | .mapRecoveryComplete ms treeOk => Sys2Proof.Machine.execMapRecoveryComplete ms treeOk s
  | .fwSvnFloorRaise => Sys2Proof.Machine.execFwSvnFloorRaise s
  | .nssrWrite value a b => Sys2Proof.Machine.execNssrWrite value a b s
  | .perstAssert port => Sys2Proof.Machine.execPerstAssert port s
  | .perstDeassert port => Sys2Proof.Machine.execPerstDeassert port s
  | .functionLevelReset port => Sys2Proof.Machine.execFunctionLevelReset port s
  | .controllerReset p cc => Sys2Proof.Machine.execControllerReset p cc s
  | .controllerEnable p cc aqa asq acq => Sys2Proof.Machine.execControllerEnable p cc aqa asq acq s
  | .shutdownNotification p shn => Sys2Proof.Machine.execShutdownNotification p shn s
  | .resetComplete kind subject => Sys2Proof.Machine.execResetComplete kind subject s
  | .sgnSign r addr => Sys2Proof.Machine.execSgnSign r addr s
  | .sgnVerify r addr => Sys2Proof.Machine.execSgnVerify r addr s
  | .sgnVerifySlot r addr => Sys2Proof.Machine.execSgnVerifySlot r addr s
  | .sgnToken r addr => Sys2Proof.Machine.execSgnToken r addr s
  | .sgnOpComplete fault => Sys2Proof.Machine.execSgnOpComplete fault s
  | .digOpen r w => Sys2Proof.Machine.execDigOpen r w s
  | .digCtxClose r c => Sys2Proof.Machine.execDigCtxClose r c s
  | .digCtxData r c w => Sys2Proof.Machine.execDigCtxData r c w s
  | .digCtxLast r c w => Sys2Proof.Machine.execDigCtxLast r c w s
  | .digCtxFinal r c w => Sys2Proof.Machine.execDigCtxFinal r c w s
  | .digCtxSrcLen r c w => Sys2Proof.Machine.execDigCtxSrcLen r c w s
  | .digEngineRead c => Sys2Proof.Machine.execDigEngineRead c s
  | .digPermutation fault => Sys2Proof.Machine.execDigPermutation fault s
  | .digCmpRead r c agree => Sys2Proof.Machine.execDigCmpRead r c agree s
  | .digIdleTimeout c => Sys2Proof.Machine.execDigIdleTimeout c s
  | .digClearedExpiry c => Sys2Proof.Machine.execDigClearedExpiry c s
  | .ldgAppendSubmit r w => Sys2Proof.Machine.execLdgAppendSubmit r w s
  | .ledgerAppendCommit => Sys2Proof.Machine.execLedgerAppendCommit s
  | .ldgActivate r w => Sys2Proof.Machine.execLdgActivate r w s
  | .ldgArchivedAck r addr => Sys2Proof.Machine.execLdgArchivedAck r addr s
  | .ldgCreditRegain => Sys2Proof.Machine.execLdgCreditRegain s
  | .keyRngDataRead r => Sys2Proof.Machine.execKeyRngDataRead r s
  | .keyRngHealthFail bits => Sys2Proof.Machine.execKeyRngHealthFail bits s
  | .keyGenerate r slot => Sys2Proof.Machine.execKeyGenerate r slot s
  | .keyReplace r slot => Sys2Proof.Machine.execKeyReplace r slot s
  | .keyDestroy r slot => Sys2Proof.Machine.execKeyDestroy r slot s
  | .keyCryptoEraseAll r => Sys2Proof.Machine.execKeyCryptoEraseAll r s
  | .keyEraseAllComplete => Sys2Proof.Machine.execKeyEraseAllComplete s
  | .fchRead r n addr => Sys2Proof.Machine.execFchRead r n addr s
  | .fchProgram r n addr => Sys2Proof.Machine.execFchProgram r n addr s
  | .fchErase r n addr => Sys2Proof.Machine.execFchErase r n addr s
  | .fchSweep r n addr => Sys2Proof.Machine.execFchSweep r n addr s
  | .fchGetFeature r n addr => Sys2Proof.Machine.execFchGetFeature r n addr s
  | .fchSetFeature r n addr => Sys2Proof.Machine.execFchSetFeature r n addr s
  | .fchOpComplete k e => Sys2Proof.Machine.execFchOpComplete k e s
  | .fchArrayTimeout k => Sys2Proof.Machine.execFchArrayTimeout k s
  | .lunOffline k => Sys2Proof.Machine.execLunOffline k s
  | .eraseResume k => Sys2Proof.Machine.execEraseResume k s
  | .creditReservationTake k => Sys2Proof.Machine.execCreditReservationTake k s
  | .creditWaitLong k => Sys2Proof.Machine.execCreditWaitLong k s
  | .dieRetrainPeriodic k ok tempC => Sys2Proof.Machine.execDieRetrainPeriodic k ok tempC s
  | .ldpcFrameDecode k f ok => Sys2Proof.Machine.execLdpcFrameDecode k f ok s
  | .patrolPeriod => Sys2Proof.Machine.execPatrolPeriod s
  | .ldpPatrolNextRead r => Sys2Proof.Machine.execLdpPatrolNextRead r s
  | .ldpAdviseNextRead r => Sys2Proof.Machine.execLdpAdviseNextRead r s
  | .grpCreate r w => Sys2Proof.Machine.execGrpCreate r w s
  | .grpCopy r w => Sys2Proof.Machine.execGrpCopy r w s
  | .grpFree r w => Sys2Proof.Machine.execGrpFree r w s
  | .grpRead r w => Sys2Proof.Machine.execGrpRead r w s
  | .grpWrite r w => Sys2Proof.Machine.execGrpWrite r w s
  | .frameSealTimeout k => Sys2Proof.Machine.execFrameSealTimeout k s
  | .journalFlushTimeout => Sys2Proof.Machine.execJournalFlushTimeout s
  | .journalFrameDurable pfa => Sys2Proof.Machine.execJournalFrameDurable pfa s
  | .checkpointCommit report => Sys2Proof.Machine.execCheckpointCommit report s
  | .gcExtentMove laddr old new lost => Sys2Proof.Machine.execGcExtentMove laddr old new lost s
  | .ftlGcVictim r w => Sys2Proof.Machine.execFtlGcVictim r w s
  | .nativeGroupCreate => Sys2Proof.Machine.execNativeGroupCreate s
  | .compressionUnitDone p mismatch => Sys2Proof.Machine.execCompressionUnitDone p mismatch s
  | .decompressExtentDone n got rowOk => Sys2Proof.Machine.execDecompressExtentDone n got rowOk s
  | .cmpCtxOpen r w => Sys2Proof.Machine.execCmpCtxOpen r w s
  | .cmpCtxClose r h => Sys2Proof.Machine.execCmpCtxClose r h s
  | .cmpJobSubmit r addr => Sys2Proof.Machine.execCmpJobSubmit r addr s
  | .cmpJobComplete p mismatch => Sys2Proof.Machine.execCmpJobComplete p mismatch s
  | .cmpCtxIdle h => Sys2Proof.Machine.execCmpCtxIdle h s
  | .scnSubmit r addr => Sys2Proof.Machine.execScnSubmit r addr s
  | .scnCancel r addr => Sys2Proof.Machine.execScnCancel r addr s
  | .scanUnitDone e => Sys2Proof.Machine.execScanUnitDone e s
  | .tskSubmit r addr => Sys2Proof.Machine.execTskSubmit r addr s
  | .tskFlagSet r w => Sys2Proof.Machine.execTskFlagSet r w s
  | .tskCancel r w => Sys2Proof.Machine.execTskCancel r w s
  | .tskCoreTake r k => Sys2Proof.Machine.execTskCoreTake r k s
  | .tskCoreEnd r k w => Sys2Proof.Machine.execTskCoreEnd r k w s
  | .taskTimeLimit k => Sys2Proof.Machine.execTaskTimeLimit k s
  | .cancelGraceExpiry k => Sys2Proof.Machine.execCancelGraceExpiry k s
  | .affWindowExpiry k => Sys2Proof.Machine.execAffWindowExpiry k s
  | .tskQuery r k => Sys2Proof.Machine.execTskQuery r k s
  | .tskProgLoad r w => Sys2Proof.Machine.execTskProgLoad r w s
  | .tskProgUnload r w => Sys2Proof.Machine.execTskProgUnload r w s
  | .tskCoreOnline r k w => Sys2Proof.Machine.execTskCoreOnline r k w s
  | .linkUp p speed width flit preset loss refl => Sys2Proof.Machine.execLinkUp p speed width flit preset loss refl s
  | .linkDown p => Sys2Proof.Machine.execLinkDown p s
  | .atsInvalidate p tag => Sys2Proof.Machine.execAtsInvalidate p tag s
  | .sqTailDoorbell p q v => Sys2Proof.Machine.execSqTailDoorbell p q v s
  | .cqHeadDoorbell p q v => Sys2Proof.Machine.execCqHeadDoorbell p q v s
  | .commandFetch cid bytes ok => Sys2Proof.Machine.execCommandFetch cid bytes ok s
  | .heldEntryAdmit pod qid cid => Sys2Proof.Machine.execHeldEntryAdmit pod qid cid s
  | .lockGrant => Sys2Proof.Machine.execLockGrant s
  | .completionPost p q ok => Sys2Proof.Machine.execCompletionPost p q ok s
  | .hostDataPulled pod qid cid => Sys2Proof.Machine.execHostDataPulled pod qid cid s
  | .writeBufferAdmit pod qid cid => Sys2Proof.Machine.execWriteBufferAdmit pod qid cid s
  | .writeRateAdmit pod qid cid => Sys2Proof.Machine.execWriteRateAdmit pod qid cid s
  | .nvmFlushComplete => Sys2Proof.Machine.execNvmFlushComplete s
  | .deleteIoSq c => Sys2Proof.Machine.execDeleteIoSq c s
  | .deleteIoCq c => Sys2Proof.Machine.execDeleteIoCq c s
  | .createIoSq c => Sys2Proof.Machine.execCreateIoSq c s
  | .createIoCq c => Sys2Proof.Machine.execCreateIoCq c s
  | .identify c => Sys2Proof.Machine.execIdentify c s
  | .abort c => Sys2Proof.Machine.execAbort c s
  | .getFeatures c => Sys2Proof.Machine.execGetFeatures c s
  | .setArbitration c => Sys2Proof.Machine.execSetArbitration c s
  | .setPowerManagement c => Sys2Proof.Machine.execSetPowerManagement c s
  | .setTemperatureThreshold c => Sys2Proof.Machine.execSetTemperatureThreshold c s
  | .setVolatileWriteCache c => Sys2Proof.Machine.execSetVolatileWriteCache c s
  | .setNumberOfQueues c => Sys2Proof.Machine.execSetNumberOfQueues c s
  | .setInterruptCoalescing c => Sys2Proof.Machine.execSetInterruptCoalescing c s
  | .setInterruptVectorConfig c => Sys2Proof.Machine.execSetInterruptVectorConfig c s
  | .setWriteAtomicity c => Sys2Proof.Machine.execSetWriteAtomicity c s
  | .setAsyncEventConfig c => Sys2Proof.Machine.execSetAsyncEventConfig c s
  | .setTimestamp c => Sys2Proof.Machine.execSetTimestamp c s
  | .asyncEventRequest c => Sys2Proof.Machine.execAsyncEventRequest c s
  | .logErrorInformation c => Sys2Proof.Machine.execLogErrorInformation c s
  | .logSmartHealth c => Sys2Proof.Machine.execLogSmartHealth c s
  | .logFirmwareSlot c => Sys2Proof.Machine.execLogFirmwareSlot c s
  | .logCommandsSupported c => Sys2Proof.Machine.execLogCommandsSupported c s
  | .logDeviceSelfTest c => Sys2Proof.Machine.execLogDeviceSelfTest c s
  | .logTelemetryHostInitiated c => Sys2Proof.Machine.execLogTelemetryHostInitiated c s
  | .logSanitizeStatus c => Sys2Proof.Machine.execLogSanitizeStatus c s
  | .logLedgerStatus c => Sys2Proof.Machine.execLogLedgerStatus c s
  | .logIdentity c => Sys2Proof.Machine.execLogIdentity c s
  | .namespaceCreate c => Sys2Proof.Machine.execNamespaceCreate c s
  | .namespaceDelete c => Sys2Proof.Machine.execNamespaceDelete c s
  | .namespaceAttach c => Sys2Proof.Machine.execNamespaceAttach c s
  | .namespaceDetach c => Sys2Proof.Machine.execNamespaceDetach c s
  | .formatNvmNoSes c => Sys2Proof.Machine.execFormatNvmNoSes c s
  | .formatNvmUserErase c => Sys2Proof.Machine.execFormatNvmUserErase c s
  | .formatNvmCryptoErase c => Sys2Proof.Machine.execFormatNvmCryptoErase c s
  | .sanitizeBlockErase c => Sys2Proof.Machine.execSanitizeBlockErase c s
  | .sanitizeCryptoErase c => Sys2Proof.Machine.execSanitizeCryptoErase c s
  | .sanitizeExitFailure c => Sys2Proof.Machine.execSanitizeExitFailure c s
  | .sanitizeOverwrite c => Sys2Proof.Machine.execSanitizeOverwrite c s
  | .sanitizePhaseDone => Sys2Proof.Machine.execSanitizePhaseDone s
  | .firmwareImageDownload c => Sys2Proof.Machine.execFirmwareImageDownload c s
  | .fwCommitReplace c => Sys2Proof.Machine.execFwCommitReplace c s
  | .fwCommitReplaceActivate c => Sys2Proof.Machine.execFwCommitReplaceActivate c s
  | .fwCommitActivate c => Sys2Proof.Machine.execFwCommitActivate c s
  | .fwCommitActivateNow c => Sys2Proof.Machine.execFwCommitActivateNow c s
  | .fwActivateTimeout => Sys2Proof.Machine.execFwActivateTimeout s
  | .fwActivateDrainDone => Sys2Proof.Machine.execFwActivateDrainDone s
  | .deviceSelfTestShort c => Sys2Proof.Machine.execDeviceSelfTestShort c s
  | .deviceSelfTestExtended c => Sys2Proof.Machine.execDeviceSelfTestExtended c s
  | .deviceSelfTestAbort c => Sys2Proof.Machine.execDeviceSelfTestAbort c s
  | .selfTestEnd seg => Sys2Proof.Machine.execSelfTestEnd seg s
  | .attestationQuote c => Sys2Proof.Machine.execAttestationQuote c s
  | .tokenNonce c => Sys2Proof.Machine.execTokenNonce c s
  | .tokenSubmit c => Sys2Proof.Machine.execTokenSubmit c s
  | .ledgerRead c => Sys2Proof.Machine.execLedgerRead c s
  | .legacyMount c codeOk keyOk nss units => Sys2Proof.Machine.execLegacyMount c codeOk keyOk nss units s
  | .configImageDownload c => Sys2Proof.Machine.execConfigImageDownload c s
  | .configImageCommit c => Sys2Proof.Machine.execConfigImageCommit c s
  | .askifKeyInstallRx c => Sys2Proof.Machine.execAskifKeyInstallRx c s
  | .askifKeyActivate c => Sys2Proof.Machine.execAskifKeyActivate c s
  | .askifKeyRemove c => Sys2Proof.Machine.execAskifKeyRemove c s
  | .spreadAdopt c => Sys2Proof.Machine.execSpreadAdopt c s
  | .spreadRelease c => Sys2Proof.Machine.execSpreadRelease c s
  | .spreadReplace c => Sys2Proof.Machine.execSpreadReplace c s
  | .nvmFlush c => Sys2Proof.Machine.execNvmFlush c s
  | .nvmWrite c => Sys2Proof.Machine.execNvmWrite c s
  | .nvmRead c => Sys2Proof.Machine.execNvmRead c s
  | .writeUncorrectable c => Sys2Proof.Machine.execWriteUncorrectable c s
  | .compare c => Sys2Proof.Machine.execCompare c s
  | .writeZeroes c => Sys2Proof.Machine.execWriteZeroes c s
  | .datasetManagement c => Sys2Proof.Machine.execDatasetManagement c s
  | .verify c => Sys2Proof.Machine.execVerify c s
  | .executeProgram c => Sys2Proof.Machine.execExecuteProgram c s
  | .loadProgram c => Sys2Proof.Machine.execLoadProgram c s
  | .unloadProgram c => Sys2Proof.Machine.execUnloadProgram c s
  | .programActivationManagement c => Sys2Proof.Machine.execProgramActivationManagement c s
  | .memoryRangeSetManagement c => Sys2Proof.Machine.execMemoryRangeSetManagement c s
  | .slmMemoryRead c => Sys2Proof.Machine.execSlmMemoryRead c s
  | .slmMemoryWrite c => Sys2Proof.Machine.execSlmMemoryWrite c s
  | .slmMemoryCopy c => Sys2Proof.Machine.execSlmMemoryCopy c s
  | .podCreate f => Sys2Proof.Machine.execPodCreate f s
  | .podSet f => Sys2Proof.Machine.execPodSet f s
  | .podBind f => Sys2Proof.Machine.execPodBind f s
  | .podUnbind f => Sys2Proof.Machine.execPodUnbind f s
  | .podQuiesce f => Sys2Proof.Machine.execPodQuiesce f s
  | .podGraceExpiry p => Sys2Proof.Machine.execPodGraceExpiry p s
  | .podQuiesceComplete p => Sys2Proof.Machine.execPodQuiesceComplete p s
  | .podResume f => Sys2Proof.Machine.execPodResume f s
  | .podReset f => Sys2Proof.Machine.execPodReset f s
  | .podRemove f => Sys2Proof.Machine.execPodRemove f s
  | .podMem f => Sys2Proof.Machine.execPodMem f s
  | .podSave f => Sys2Proof.Machine.execPodSave f s
  | .podRestore f => Sys2Proof.Machine.execPodRestore f s
  | .podIms f => Sys2Proof.Machine.execPodIms f s
  | .dramRefresh c rank => Sys2Proof.Machine.execDramRefresh c rank s
  | .dramMr4Poll c rank hot above temp => Sys2Proof.Machine.execDramMr4Poll c rank hot above temp s
  | .disturbWindowEnd c => Sys2Proof.Machine.execDisturbWindowEnd c s
  | .dramOscRead c drift ok => Sys2Proof.Machine.execDramOscRead c drift ok s
  | .dramRetrainPeriodic c => Sys2Proof.Machine.execDramRetrainPeriodic c s
  | .dramRetrainDone c ok r => Sys2Proof.Machine.execDramRetrainDone c ok r s
  | .dramDegradedRetry c => Sys2Proof.Machine.execDramDegradedRetry c s
  | .dramSrEntry c present => Sys2Proof.Machine.execDramSrEntry c present s
  | .dramDeepSrEntry c => Sys2Proof.Machine.execDramDeepSrEntry c s
  | .dramSrExit c drift ok => Sys2Proof.Machine.execDramSrExit c drift ok s
  | .scrubStep m pe ce => Sys2Proof.Machine.execScrubStep m pe ce s
  | .bucketLeak => Sys2Proof.Machine.execBucketLeak s
  | .mprInjCtrlWrite r w => Sys2Proof.Machine.execMprInjCtrlWrite r w s
  | .powerFail above vin => Sys2Proof.Machine.execPowerFail above vin s
  | .powerFailFlushDone ns => Sys2Proof.Machine.execPowerFailFlushDone ns s
  | .holdupCutoff ns n => Sys2Proof.Machine.execHoldupCutoff ns n s
  | .powerReturnRestart vin pins a b vBank => Sys2Proof.Machine.execPowerReturnRestart vin pins a b vBank s
  | .inputCurrentLimit vin iin => Sys2Proof.Machine.execInputCurrentLimit vin iin s
  | .currentLimitTimeout vin => Sys2Proof.Machine.execCurrentLimitTimeout vin s
  | .loopSample n v vIn k steady => Sys2Proof.Machine.execLoopSample n v vIn k steady s
  | .loopFaultRetry n => Sys2Proof.Machine.execLoopFaultRetry n s
  | .targetRampStep => Sys2Proof.Machine.execTargetRampStep s
  | .cleTargetWrite r n w => Sys2Proof.Machine.execCleTargetWrite r n w s
  | .cleCoefWrite r n w => Sys2Proof.Machine.execCleCoefWrite r n w s
  | .pwrDomainRequest r hi w => Sys2Proof.Machine.execPwrDomainRequest r hi w s
  | .domainPowerUpDone d => Sys2Proof.Machine.execDomainPowerUpDone d s
  | .domainIsolate d => Sys2Proof.Machine.execDomainIsolate d s
  | .fpgSet r w => Sys2Proof.Machine.execFpgSet r w s
  | .fpgClear r w => Sys2Proof.Machine.execFpgClear r w s
  | .fpgLoadTestDone g ohm10 pkg => Sys2Proof.Machine.execFpgLoadTestDone g ohm10 pkg s
  | .fpgDrainDone g => Sys2Proof.Machine.execFpgDrainDone g s
  | .fpgOvercurrent g k => Sys2Proof.Machine.execFpgOvercurrent g k s
  | .bankMeasurePeriodic => Sys2Proof.Machine.execBankMeasurePeriodic s
  | .bankMeasureDone rose us fall stepUv v => Sys2Proof.Machine.execBankMeasureDone rose us fall stepUv v s
  | .dirtyLimitRecompute v => Sys2Proof.Machine.execDirtyLimitRecompute v s
  | .governorPowerStep mw => Sys2Proof.Machine.execGovernorPowerStep mw s
  | .inputPowerStep mw vin iin lim => Sys2Proof.Machine.execInputPowerStep mw vin iin lim s
  | .surgeRequest r w => Sys2Proof.Machine.execSurgeRequest r w s
  | .surgeBudgetExpiry => Sys2Proof.Machine.execSurgeBudgetExpiry s
  | .thermalSensorReport temps => Sys2Proof.Machine.execThermalSensorReport temps s
  | .thermalComparatorTrip sensor n => Sys2Proof.Machine.execThermalComparatorTrip sensor n s
  | .thermalRestart a b => Sys2Proof.Machine.execThermalRestart a b s
  | .heartbeatBeat r k w => Sys2Proof.Machine.execHeartbeatBeat r k w s
  | .heartbeatHalfPeriod k => Sys2Proof.Machine.execHeartbeatHalfPeriod k s
  | .watchdogExpiry k => Sys2Proof.Machine.execWatchdogExpiry k s
  | .expiriesClear => Sys2Proof.Machine.execExpiriesClear s
  | .debugPortAccess op => Sys2Proof.Machine.execDebugPortAccess op s
  | .jtagBypass => Sys2Proof.Machine.execJtagBypass s
  | .jtagIdcode => Sys2Proof.Machine.execJtagIdcode s
  | .jtagSamplePreload => Sys2Proof.Machine.execJtagSamplePreload s
  | .jtagExtest => Sys2Proof.Machine.execJtagExtest s
  | .jtagClamp => Sys2Proof.Machine.execJtagClamp s
  | .jtagHighz => Sys2Proof.Machine.execJtagHighz s
  | .askLinkUp p type loss => Sys2Proof.Machine.execAskLinkUp p type loss s
  | .askLinkDown p => Sys2Proof.Machine.execAskLinkDown p s
  | .heartbeat f => Sys2Proof.Machine.execHeartbeat f s
  | .accuse f => Sys2Proof.Machine.execAccuse f s
  | .alive f => Sys2Proof.Machine.execAlive f s
  | .declare f => Sys2Proof.Machine.execDeclare f s
  | .join f => Sys2Proof.Machine.execJoin f s
  | .leave f => Sys2Proof.Machine.execLeave f s
  | .chunkWrite f => Sys2Proof.Machine.execChunkWrite f s
  | .parityDelta f => Sys2Proof.Machine.execParityDelta f s
  | .chunkRead f => Sys2Proof.Machine.execChunkRead f s
  | .chunkData f => Sys2Proof.Machine.execChunkData f s
  | .ack f => Sys2Proof.Machine.execAck f s
  | .confirm f => Sys2Proof.Machine.execConfirm f s
  | .nsDesc f => Sys2Proof.Machine.execNsDesc f s
  | .adopt f => Sys2Proof.Machine.execAdopt f s
  | .heartbeatSend => Sys2Proof.Machine.execHeartbeatSend s
  | .memberMissTimeout m => Sys2Proof.Machine.execMemberMissTimeout m s
  | .gossipMergeFlush m => Sys2Proof.Machine.execGossipMergeFlush m s
  | .askRetransmit id => Sys2Proof.Machine.execAskRetransmit id s
  | .askMsgidExpiry src id => Sys2Proof.Machine.execAskMsgidExpiry src id s
  | .rejoinTimeout nsid pos => Sys2Proof.Machine.execRejoinTimeout nsid pos s
  | .rebuildStripe nsid => Sys2Proof.Machine.execRebuildStripe nsid s
  | .evtRaise r w => Sys2Proof.Machine.execEvtRaise r w s
  | .coalEntryClose => Sys2Proof.Machine.execCoalEntryClose s
  | .evtMqRdWrite r w => Sys2Proof.Machine.execEvtMqRdWrite r w s
  | .seriesSample k => Sys2Proof.Machine.execSeriesSample k s
  | .historyFold => Sys2Proof.Machine.execHistoryFold s
  | .historyPeriodClose => Sys2Proof.Machine.execHistoryPeriodClose s
  | .recSnapCmd r => Sys2Proof.Machine.execRecSnapCmd r s
  | .snapshotDone => Sys2Proof.Machine.execSnapshotDone s
  | .miAemSend => Sys2Proof.Machine.execMiAemSend s
  | .miReadDataStructure dtyp port ctrl => Sys2Proof.Machine.execMiReadDataStructure dtyp port ctrl s
  | .miSubsystemHealthPoll => Sys2Proof.Machine.execMiSubsystemHealthPoll s
  | .miControllerHealthPoll p => Sys2Proof.Machine.execMiControllerHealthPoll p s
  | .miConfigurationSet id value => Sys2Proof.Machine.execMiConfigurationSet id value s
  | .miConfigurationGet id => Sys2Proof.Machine.execMiConfigurationGet id s
  | .miReset a b => Sys2Proof.Machine.execMiReset a b s
  | .miEventRead seq count => Sys2Proof.Machine.execMiEventRead seq count s
  | .miSeriesRead k block => Sys2Proof.Machine.execMiSeriesRead k block s
  | .miBootStatus => Sys2Proof.Machine.execMiBootStatus s
  | .miTokenNonce => Sys2Proof.Machine.execMiTokenNonce s
  | .miTokenSubmit token => Sys2Proof.Machine.execMiTokenSubmit token s
  | .registerLoRead r key => Sys2Proof.Machine.execRegisterLoRead r key s
  | .keyOperationDone => Sys2Proof.Machine.execKeyOperationDone s
  | .surgeBudgetReturn => Sys2Proof.Machine.execSurgeBudgetReturn s
  | .neighborSolicitation p target => Sys2Proof.Machine.execNeighborSolicitation p target s
  | .neighborAdvertisement p m lladdr => Sys2Proof.Machine.execNeighborAdvertisement p m lladdr s
  | .echoRequest p body => Sys2Proof.Machine.execEchoRequest p body s
  | .dynamicAddressAssignment addr => Sys2Proof.Machine.execDynamicAddressAssignment addr s
  | .invalidCommandOpcode mi c => Sys2Proof.Machine.execInvalidCommandOpcode mi c s
  | .invalidLogPage c => Sys2Proof.Machine.execInvalidLogPage c s
  | .featureIdentifierInvalid c => Sys2Proof.Machine.execFeatureIdentifierInvalid c s

end Sys2Proof.Machine
end

