-- ==== Sys2Proof/Safety.lean ====
section
/-!
DEFINITION. The terms claims are made in: a sound state and a one-way step; what completion of a command means, with and without a bus
acknowledge; and frames, by the fields of State.
-/
namespace Sys2Proof.Machine

/-- A sound state: every waiting command is well-formed, and OTP has its four owner slots. -/
def State.sound (s : State) : Bool := s.pending.all Instr.wf && decide (s.otp.owner.length = 4)

/-- What never goes back from s to t: the part and the device identity stay, a programmed owner slot keeps its digest, a set revocation bit
stays set (R95), and FW_SVN_FLOOR, SEQ_FLOOR and the incarnation do not fall (R114, R74, R460). -/
def State.onlyForward (s t : State) : Prop :=
  t.part = s.part ∧ t.otp.deviceId = s.otp.deviceId ∧ t.otp.vendor = s.otp.vendor
    ∧ (∀ (k : Nat) (d : List Byte), k < 4 → s.otp.owner.getD k none = some d → t.otp.owner.getD k none = some d)
    ∧ (∀ k : Nat, s.otp.revoked.testBit k = true → t.otp.revoked.testBit k = true)
    ∧ s.nv.svnFloor ≤ t.nv.svnFloor ∧ s.nv.seqFloor ≤ t.nv.seqFloor ∧ s.nv.incarnation ≤ t.nv.incarnation

/-! ### Frames -/

/-- The fields of State by name. -/
inductive StateField where
  | part | time | freeCtr | out | regs | hiLatch | mem | dramEnd | bg | boot | hsf | hsk | evt | recd | otp | sgn | dig | ldg | key | nv
  | flash | tsk | host | pod | dram | ftl | cmp | scn | ask | pwr | timers | pending
  deriving DecidableEq, Repr

/-- A field is the same in two states. -/
def StateField.same (s t : State) : StateField → Prop
  | .part => t.part = s.part
  | .time => t.time = s.time
  | .freeCtr => t.freeCtr = s.freeCtr
  | .out => t.out = s.out
  | .regs => t.regs = s.regs
  | .hiLatch => t.hiLatch = s.hiLatch
  | .mem => t.mem = s.mem
  | .dramEnd => t.dramEnd = s.dramEnd
  | .bg => t.bg = s.bg
  | .boot => t.boot = s.boot
  | .hsf => t.hsf = s.hsf
  | .hsk => t.hsk = s.hsk
  | .evt => t.evt = s.evt
  | .recd => t.recd = s.recd
  | .otp => t.otp = s.otp
  | .sgn => t.sgn = s.sgn
  | .dig => t.dig = s.dig
  | .ldg => t.ldg = s.ldg
  | .key => t.key = s.key
  | .nv => t.nv = s.nv
  | .flash => t.flash = s.flash
  | .tsk => t.tsk = s.tsk
  | .host => t.host = s.host
  | .pod => t.pod = s.pod
  | .dram => t.dram = s.dram
  | .ftl => t.ftl = s.ftl
  | .cmp => t.cmp = s.cmp
  | .scn => t.scn = s.scn
  | .ask => t.ask = s.ask
  | .pwr => t.pwr = s.pwr
  | .timers => t.timers = s.timers
  | .pending => t.pending = s.pending

/-- Nothing outside the named fields differs between s and t. -/
def State.onlyChanges (s t : State) (l : List StateField) : Prop := ∀ p : StateField, p ∉ l → p.same s t

/-- No register outside the named keys (window × 1 MiB + offset) differs between s and t. -/
def State.regsBut (s t : State) (l : List Nat) : Prop := ∀ k : Nat, k ∉ l → t.getReg k = s.getReg k

/-! ### Completion -/

/-- exec on a command answers the next state that delivery of events and the one-way merge make of a state with the property P. Delivery
touches queues of events, the recorder and what they reach alone (Obligations.DeliveryFrame); the merge touches the part, the queue,
programmed OTP and three words of ledger memory alone. -/
def Completes (c : Instr) (s : State) (P : State → Prop) : Prop :=
  ∃ t, exec c s = .next (s.oneWay (State.drain drainFuel t)) ∧ P t

/-- exec on a command of a master answers a next state in which the target acknowledged it without error, with that data, after leaving a
state with the property P. -/
def Acks (c : Instr) (s : State) (r : Req) (target : Nat) (data : List Byte) (P : State → Prop) : Prop :=
  ∃ t, exec c s = .next (s.oneWay (State.drain drainFuel (t.answer r.master target .ok data))) ∧ P t

/-- As Acks, for a write to the page of digest context c; where a slot holds its acknowledge, the hold knows the context (R108). -/
def AcksPage (i : Instr) (s : State) (r : Req) (c : Nat) (P : State → Prop) : Prop :=
  ∃ t, exec i s = .next (s.oneWay (State.drain drainFuel (s.heldCtx (t.answer r.master 0x05 .ok []) c))) ∧ P t

/-- As Acks, but the transaction ends with that status: an error gives no data but what is stated. -/
def EndsWith (c : Instr) (s : State) (r : Req) (target : Nat) (st : BusStatus) (data : List Byte) (P : State → Prop) : Prop :=
  ∃ t, exec c s = .next (s.oneWay (State.drain drainFuel (t.answer r.master target st data))) ∧ P t

/-- The part issues the requester's master ID, and every check in front of a register lets its access through. -/
abbrev State.grants (s : State) (r : Req) (key : Nat) (write : Bool) : Prop :=
  s.issues r = true ∧ s.gateReg r key write = .go

/-- An admin command is fetched now, everything it needs is there (R83, R92, R320), and no completion of its identifier waits. -/
abbrev State.admits (s : State) (c : HostCmd) (n : AdminNeeds) : Prop :=
  c.qid = 0 ∧ s.takes c = true ∧ (n.pod0 = true → c.pod = 0) ∧ (n.notSafe = true → s.safe = false)
    ∧ (n.noSanitize = true → s.nv.sanitize.phase = 0) ∧ (n.media = true → s.boot.bootDone = true ∨ s.safe = true)
    ∧ s.host.cqes.all (fun x => !(x.pod = c.pod && x.qid = c.qid && x.cid = c.cid)) = true

/-- An I/O command is fetched now (R313), and no completion of its identifier waits. -/
abbrev State.takesIo (s : State) (c : HostCmd) : Prop :=
  c.qid ≠ 0 ∧ s.takes c = true
    ∧ s.host.cqes.all (fun x => !(x.pod = c.pod && x.qid = c.qid && x.cid = c.cid)) = true

/-- An I/O command is fetched now, the lock table has room for it (R319), and neither a rate nor a quota holds it (R360). -/
abbrev State.admitsIo (s : State) (h : HeldKind) (c : HostCmd) : Prop :=
  s.takesIo c ∧ (h.needsLock c = true → s.host.locks.length < 32768) ∧ s.holdCause h c = none
    ∧ (s.outCmd (HostCmdRef c)).any (fun o => o.held.isSome) = false

/-- A namespace serves a command's pod: attached, ready, with its key, and no sanitize under way (R83, R92, R138, R325). -/
abbrev State.nsServes (s : State) (c : HostCmd) (n : Ns) : Prop :=
  s.nsOf c.nsid = some n ∧ n.pods.contains c.pod = true ∧ n.status = 0 ∧ s.nv.sanitize.phase = 0 ∧ s.flag FTL_CTRL_ENABLE = true

/-- The state in which a fetched admin command runs: it is outstanding (R313). -/
def State.begunBy (s : State) (c : HostCmd) : State := s.fresh.begin c 0 .started none

/-- The completion of a command fetched in s waits in t for its queue, with that status. -/
def State.posts (s t : State) (c : HostCmd) (sct sc : Nat) (dnr : Bool) (dw0 : Nat) : Prop :=
  ⟨c.pod, s.cqOf c.pod c.qid, c.qid, c.cid, sct, sc, dnr, dw0⟩ ∈ t.host.cqes

/-! ### Frames of the group -/

/-- A frame of a type arrives at a port that is UP, and passes every check of Table 15.3. -/
abbrev State.acceptsFrame (s : State) (f : AskFrame) (type : Nat) : Prop :=
  s.askOn = true ∧ f.port ∈ s.portsUp ∧ (headOf f.bytes).type = type ∧ s.frameCause f (headOf f.bytes) = 0

/-- The state in which an accepted frame acts: its SEQ has entered the window (R457), and its sender has been heard (R459). -/
def State.tookFrame (s : State) (f : AskFrame) : State :=
  let h := headOf f.bytes
  let k := h.srcPort * 16384 + h.src
  let s := s.fresh.modAsk (fun a => { a with window := Tab.put a.window k (windowWith (Tab.look a.window k) h.seq) })
  if f.via = h.src ∧ (s.member h.src).inc = h.inc ∧ (s.member h.src).state ≠ 0 then
    s.putMember h.src { s.member h.src with heard := s.time }
  else s

/-- The data frame is whole, and its MSG_ID has not been acted on (R456, R458). -/
abbrev State.newMessage (s : State) (f : AskFrame) : Prop :=
  let h := headOf f.bytes
  bits h.flags 3 1 = 0 ∧ bit h.flags 4 = true
    ∧ s.ask.msgs.all (fun m => !(m.src = h.src && m.id = leAt h.payload 0 8)) = true
    ∧ s.ask.frags.all (fun m => !(m.src = h.src && m.id = leAt h.payload 0 8)) = true

/-- The state after an accepted new message has been noted; CHUNK_DATA, an answer itself, is not. -/
def State.noted (s : State) (f : AskFrame) : State :=
  let h := headOf f.bytes
  (s.tookFrame f).modAsk (fun a => { a with
    msgs := if h.type = 19 then a.msgs else a.msgs ++ [⟨h.src, leAt h.payload 0 8, s.time, none⟩] })

/-- The registers whose write does more than store: commands, submissions, halves of addresses, and those with checks of their own. -/
def commandRegs : List RegId := [
  DIG_OPEN, LDG_APPEND_CTRL, LDG_ACTIVATE, KEY_NS_CMD, LDP_GRP_CMD, FTL_GC_VICTIM, CMP_CTX_OPEN, CMP_CTX_CLOSE, TSK_FLAG_SET, TSK_CANCEL,
  TSK_QUERY, TSK_PROG_CMD, TSK_CORE_END, TSK_CORE_CTRL, MPR_INJ_CTRL, CLE_TARGET, CLE_COEF, PWR_DOM_REQ_0, PWR_DOM_REQ_1, PWR_FPG_CTRL,
  PWR_GOV_REQ, HSK_HB, EVT_RAISE, EVT_MQ_RD, REC_SNAP_CMD, HSF_PERT_SLOT, SGN_SUBMIT_HI, LDG_ARCHIVED_ACK_HI, FCH_SUBMIT_HI,
  CMP_JOB_SUBMIT_HI, SCN_SUBMIT_HI, SCN_CANCEL_HI, TSK_SUBMIT_HI, POD_CMD_HI, SGN_SUBMIT_LO, LDG_APPEND_LO, LDG_APPEND_HI,
  LDG_ACTIVATE_SVN, LDG_ARCHIVED_ACK_LO, FCH_SUBMIT_LO, CMP_JOB_SUBMIT_LO, SCN_SUBMIT_LO, SCN_CANCEL_LO, TSK_SUBMIT_LO, TSK_PROG_ADDR_LO,
  TSK_PROG_ADDR_HI, POD_CMD_LO, REC_SNAP_ADDR_LO, REC_SNAP_ADDR_HI, EVT_RAISE_SUBJ, ASK_MEMBER_QUERY, CFG_BGS_SHARE, HSF_WDOG_CTRL,
  EVT_TSUB_W0, EVT_TSUB_W1, FTL_DUR]

/-- The register at a key: its place in the map and its element. -/
def regAt (key : Nat) : Option (RegId × Nat × Nat) :=
  (findRow (key / 0x100000) (key % 0x100000)).bind (fun row =>
    (row.indexOf (key % 0x100000)).map (fun ij => (⟨winBase (key / 0x100000), row.off, row.s1, row.s2⟩, ij.1, ij.2)))

/-- A register that a write only stores to, outside the pages of the digest contexts. -/
def plainRegister (key : Nat) : Bool :=
  (match regAt key with | some (g, _, _) => !commandRegs.contains g | none => false)
    && !(key / 0x100000 = 0x05 && 0x1000 ≤ key % 0x100000 && key % 0x100000 < 0x2000)

/-- The registers whose read does more than give a value. -/
def effectReads : List RegId := [LDP_PATROL_NEXT, LDP_ADVISE_NEXT, TSK_CORE_TAKE, KEY_RNG_DATA, DIG_CTX_CMP]

/-- A register that a read only reads. -/
def plainRead (key : Nat) : Bool := match regAt key with | some (g, _, _) => !effectReads.contains g | none => true

end Sys2Proof.Machine
end

