-- ==== Sys2Proof/Certificates/Slice0/Obligations.lean ====
section
/-!
DEFINITION. The statements for the provers: each is a claim about the model that the rules of spec/ give.
-/
open Sys2Proof
open Sys2Proof.Machine

/-- A granted write of a plain register stores what its access types leave, and a granted read gives its value and latches the upper half of a
pair. REGISTER_WRITE of a register that only stores and that its range checks admit: the register takes the value State.written computes,
every other register keeps its own, and nothing but registers and the acknowledge changes. REGISTER_LO_READ of a register whose read has no
other effect and whose upper half is not already latched: the acknowledge carries its value, and a low word latches the upper word for that
master. HSF_PERT_PARAM_WRITE: the parameters take the value written. -/
def Obligations.RegisterAccessCompletes : Prop :=
  (∀ (s : State) (r : Req) (key w v : Nat), key < 2 ^ 32 → s.grants r key true → plainRegister key = true →
      s.written key (w % 2 ^ 32) = some v →
      Acks (.registerWrite r key w) s r (key / 0x100000) [] (fun t =>
        t.getReg key = v % 2 ^ 32 ∧ s.regsBut t [key] ∧ s.onlyChanges t [.regs, .out]))
  ∧ (∀ (s : State) (r : Req) (key : Nat), key < 2 ^ 32 → s.grants r key false → plainRead key = true →
      Tab.look s.hiLatch (r.master * 0x4000000 + key) = none →
      Acks (.registerLoRead r key) s r (key / 0x100000) (leBytes 4 (s.fresh.readValue r.master key)) (fun t =>
        s.onlyChanges t [.hiLatch, .out]
        ∧ (isPairLo key = true → Tab.look t.hiLatch (r.master * 0x4000000 + key + 4)
            = some (BitVec.ofNat 32 (s.fresh.readValue r.master (key + 4))))
        ∧ (isPairLo key = false → t.hiLatch = s.hiLatch)))
  ∧ (∀ (s : State) (r : Req) (n w v : Nat), s.grants r (HSF_PERT_PARAM.key (n % 4) 0) true →
      s.written (HSF_PERT_PARAM.key (n % 4) 0) w = some v →
      Acks (.hsfPertParamWrite r n w) s r HSF_PERT_PARAM.win [] (fun t =>
        t.reg HSF_PERT_PARAM (n % 4) = v % 2 ^ 32 ∧ s.regsBut t [HSF_PERT_PARAM.key (n % 4) 0] ∧ s.onlyChanges t [.regs, .out]))

/-- A granted memory read gives the bytes of its region, and a granted write is what every later read sees. MEMORY_READ whose line reads without
error answers the bytes that its region holds after the line's own error handling. MEMORY_WRITE to DRAM or shared SRAM whose line takes the
write: the bytes written read back, every byte outside the line reads as before, reservations on the line are gone, and everything else is
as the line's own error handling leaves it. A load-reserve gives the old value and holds the reservation. Row disturbance (hot) is left to
its own command. -/
def Obligations.MemoryAccessCompletes : Prop :=
  (∀ (s u : State) (r : Req) (addr n : Nat) (pe ce : CellErr), inWindows addr = false → s.issues r = true →
      s.gateMem r addr n true false = .go → sizeOk (targetOf addr) addr n = true →
      s.fresh.lineRead r.master (targetOf addr) addr pe ce false = (.ok, u) →
      Acks (.memoryRead r addr n pe ce false) s r (targetOf addr) (u.rawRead (targetOf addr) addr n) (fun t => t = u))
  ∧ (∀ (s u : State) (r : Req) (addr : Nat) (d : List Byte), inWindows addr = false → s.issues r = true →
      s.gateMem r addr d.length false true = .go → sizeOk (targetOf addr) addr d.length = true → targetOf addr ≠ 0x42 →
      s.fresh.lineWrite r.master (targetOf addr) addr d = (.ok, u) →
      Acks (.memoryWrite r addr d none false) s r (targetOf addr) [] (fun t =>
        t.rd addr d.length = d
        ∧ (∀ a : Nat, a / 64 ≠ addr / 64 → Tab.lookD t.mem a 0#8 = Tab.lookD s.mem a 0#8)
        ∧ (∀ kv ∈ t.dram.reserved, kv.2 ≠ addr / 64)
        ∧ u.onlyChanges t [.dram]))
  ∧ (∀ (s u : State) (r : Req) (addr : Nat) (d : List Byte), s.issues r = true →
      (targetOf addr = 0x40 ∨ targetOf addr = 0x41) → (regionOf addr).isSome = true →
      s.gateMem r addr d.length true true = .go → (d.length = 4 ∨ d.length = 8) → addr % d.length = 0 →
      s.fresh.lineRead r.master (targetOf addr) addr .none .none false = (.ok, u) →
      Acks (.memoryWrite r addr d (some .lr) false) s r (targetOf addr) (leBytes d.length (u.rdN addr d.length)) (fun t =>
        Tab.look t.dram.reserved r.master = some (addr / 64) ∧ t.mem = u.mem ∧ u.onlyChanges t [.dram]))

/-- The fabric's watchdog, late acknowledges, speed monitors, perturbation slots and share windows do what their rules say. BG_SHARE_WINDOW_END
zeroes the account, carries the shortfall and counts MISSED or CAPPED. HSF_WDOG_TIMEOUT answers HSTALL, records the stall and fences a
fenceable target at the FENCE_COUNT-th stall within 1 s. LATE_ACKNOWLEDGE is discarded; a write that was performed has its target's effect,
unless a later one of its master and target was performed before. SPEED_MONITOR_GATE reports FACTOR, and HSF_SPEED_LOW at most once a
second. HSF_PERT_SLOT_WRITE enables or changes a slot, or is discarded with HSF_PERTURB_DENIED and its cause. PERTURB_HOLD_EXPIRY releases
the acknowledge whose hold ends first, or ends its transaction with HSTALL where the hold reaches LIMIT. The watchdog's and the monitors'
times are kept to; that a speed monitor's last event is kept across a recovery (log entry 170), the order of HSF_PERTURB_DENIED's causes
(log entry 169) and where a share window begins (log entry 85) are the model's choices. -/
def Obligations.FabricCommandsComplete : Prop :=
  (∀ (s : State) (n i : Nat), n < 4 → i < bgCount s.part n →
      let a := s.bgAcct n i
      let floor := s.fld CFG_BGS_SHARE_FLOOR n
      let short := a.waiting = true ∧ a.used * 1000 < floor * bgWindow n
      Completes (.bgShareWindowEnd n i) s (fun t => ∃ u, t = (if n = 2 then u.dispatch else if n = 3 then u.egressGo i else u)
        ∧ u.time = max s.time (s.since (.window n i) + bgPeriod n) ∧ u.since (.window n i) = u.time
        ∧ (short → u.bgAcct n i = ⟨0, floor - a.used * 1000 / bgWindow n, false, false⟩)
        ∧ (¬ short → u.bgAcct n i = ⟨0, 0, false, false⟩)
        ∧ (short → u.fld CFG_BGS_STAT_MISSED n = satAdd 0x7FFF (s.fld CFG_BGS_STAT_MISSED n) 1)
        ∧ (¬ short → u.fld CFG_BGS_STAT_MISSED n = s.fld CFG_BGS_STAT_MISSED n)
        ∧ (a.heldAtCeil = true → u.fld CFG_BGS_STAT_CAPPED n = satAdd 0x7FFF (s.fld CFG_BGS_STAT_CAPPED n) 1)
        ∧ (a.heldAtCeil = false → u.fld CFG_BGS_STAT_CAPPED n = s.fld CFG_BGS_STAT_CAPPED n)
        ∧ (∀ k, k ≠ 64 * n + i → Tab.look u.bg k = Tab.look s.bg k)
        ∧ s.regsBut u [CFG_BGS_STAT.key n 0] ∧ s.onlyChanges u [.regs, .bg, .out, .time, .timers]))
  ∧ (∀ (s : State) (r : Req) (g : Nat) (write : Option (Nat × List Byte)), s.issues r = true → g ∉ s.hsf.fenced →
      s.hsf.held.find? (fun x => x.master = r.master && x.target = g && x.at_ + s.wdogNs ≤ x.until_) = none →
      (∀ w, write = some w → ctxAt w.1 = none) →
      let ends := s.time + s.wdogNs
      let recent := (s.hsf.stalls ++ [(g, ends)]).filter (fun x => ends < x.2 + 1000000000)
      Completes (.hsfWdogTimeout r g write) s (fun t => t.out = [.bus .hstall []] ∧ t.time = ends
        ∧ t.fld HSF_WDOG_STAT_STALLS = satAdd 127 (s.fld HSF_WDOG_STAT_STALLS) 1
        ∧ t.fld HSF_WDOG_STAT_LAST_MASTER = r.master % 256 ∧ t.fld HSF_WDOG_STAT_LAST_TARGET = g % 256
        ∧ t.hsf.late = s.hsf.late ++ (write.toList.filter (fun w => s.forwards r g w.1 w.2)).map (fun w => ⟨r, g, w.1, w.2, false⟩)
        ∧ (g ∈ t.hsf.fenced ↔ fenceable g = true ∧ s.fld HSF_WDOG_CTRL_FENCE_COUNT ≠ 0
            ∧ s.fld HSF_WDOG_CTRL_FENCE_COUNT ≤ (recent.filter (fun x => x.1 = g)).length)
        ∧ (∀ k, k ≠ g → (k ∈ t.hsf.fenced ↔ k ∈ s.hsf.fenced))
        ∧ s.regsBut t [HSF_WDOG_STAT.key 0 0] ∧ s.onlyChanges t [.regs, .hsf, .evt, .out, .time]))
  ∧ (∀ (s : State) (i : Nat) (x : LateWrite), s.hsf.late[i]? = some x →
      Completes (.lateAcknowledge i false) s (fun t =>
        t.hsf.late = s.hsf.late.eraseIdx i ∧ t.out = [] ∧ s.onlyChanges t [.hsf, .out])
      ∧ (x.lost = true → Completes (.lateAcknowledge i true) s (fun t =>
        t.hsf.late = s.hsf.late.eraseIdx i ∧ t.out = [] ∧ s.onlyChanges t [.hsf, .out]))
      ∧ (x.lost = false → Completes (.lateAcknowledge i true) s (fun t =>
        let u : State := { s.fresh with hsf := { s.hsf with
          late := lateOvertake x ((s.hsf.late.eraseIdx i).take i) ++ (s.hsf.late.eraseIdx i).drop i } }
        t = u.lateEffect x ∧ (x.target = 0x41 → t.out = [] ∧ t.mem = (u.lineWrite x.req.master 0x41 x.addr x.data).2.mem))))
  ∧ (∀ (s : State) (n factor : Nat) (temp : Int), n < 16 → s.monitorOn n = true → s.pwr.ready = false → s.pwr.fail = 0 →
      Completes (.speedMonitorGate n factor temp) s (fun t => t.fld HSF_SPD_FACTOR n = min factor 65535
        ∧ (s.fld HSF_SPD_LOOP n = t.fld HSF_SPD_LOOP n)
        ∧ t.time = max s.time (s.since (.gate n) + 10000) ∧ t.since (.gate n) = t.time
        ∧ ((∃ at_, Tab.look s.hsf.lowAt n = some at_ ∧ t.time < at_ + 1000000000) → t.evt = s.evt)
        ∧ (Tab.look s.hsf.lowAt n = none → speedLow (min factor 65535) (t.railMv (s.fld HSF_SPD_LOOP n)) temp = true →
            t.evt.inbox = s.evt.inbox ++ [⟨42, 1, [n], none, 0, t.time⟩])
        ∧ s.regsBut t [HSF_SPD.key n 0] ∧ s.onlyChanges t [.regs, .hsf, .evt, .out, .time, .timers]))
  ∧ (∀ (s : State) (r : Req) (n w v : Nat), n < 4 → s.grants r (HSF_PERT_SLOT.key n 0) true → bits w 30 29 ≠ 3 →
      (bit w 31 = false ∨ s.pertCause w = 0) → (bit (s.reg HSF_PERT_SLOT n) 31 = false ∨ s.pertCause w = 0) →
      s.written (HSF_PERT_SLOT.key n 0) w = some v →
      Acks (.hsfPertSlotWrite r n w) s r HSF_PERT_SLOT.win [] (fun t => t.reg HSF_PERT_SLOT n = v % 2 ^ 32
        ∧ (bit w 31 = true → bit (s.reg HSF_PERT_SLOT n) 31 = false →
            t.evt.inbox = s.evt.inbox ++ [⟨43, 1, [n, bits w 7 0], none, 0, s.time⟩]
            ∧ Tab.look t.hsf.lfsr n = some (max 1 (s.fld HSF_PERT_PARAM_SEED n)))
        ∧ s.regsBut t [HSF_PERT_SLOT.key n 0] ∧ s.onlyChanges t [.regs, .hsf, .evt, .out]))
  ∧ (∀ (s : State) (r : Req) (n w : Nat), n < 4 → s.grants r (HSF_PERT_SLOT.key n 0) true →
      bit w 31 = true → bit (s.reg HSF_PERT_SLOT n) 31 = false → s.pertCause w ≠ 0 →
      Acks (.hsfPertSlotWrite r n w) s r HSF_PERT_SLOT.win [] (fun t =>
        t.evt.inbox = s.evt.inbox ++ [⟨44, s.pertCause w, [n, bits w 7 0], none, 0, s.time⟩] ∧ s.onlyChanges t [.evt, .out]))
  ∧ (∀ (s : State) (x : HeldAck), firstHeld s.hsf.held [] none = some x → max s.time x.until_ < x.at_ + s.wdogNs →
      Completes .perturbHoldExpiry s (fun t => t.out = [x.ack] ∧ t.time = max s.time x.until_ ∧ t.hsf.held = s.hsf.held.erase x
        ∧ s.onlyChanges t [.time, .hsf, .out]))
  ∧ (∀ (s : State) (x : HeldAck), firstHeld s.hsf.held [] none = some x → x.at_ + s.wdogNs ≤ max s.time x.until_ → x.ctx = none →
      Completes .perturbHoldExpiry s (fun t => t.out = [.bus .hstall []] ∧ t.time = max s.time (x.at_ + s.wdogNs)
        ∧ t.hsf.held = s.hsf.held.erase x ∧ t.fld HSF_WDOG_STAT_STALLS = satAdd 127 (s.fld HSF_WDOG_STAT_STALLS) 1
        ∧ s.regsBut t [HSF_WDOG_STAT.key 0 0] ∧ s.onlyChanges t [.time, .hsf, .regs, .evt, .out]))

/-- A start runs from t0, a device-wide reset clears what its scope holds, and the ROM's steps follow each. COLD_START, and POWER_RETURN_RESTART
after a completed power-fail sequence: device time, memory, pods and tasks start anew under the sampled straps, then the ROM's steps run;
with BSCAN_EN_N low they stop at the end of step 2. NSSR_WRITE of the value in a bound pod 0's window, THERMAL_RESTART after a trip, and
WATCHDOG_EXPIRY: memory, pods, tasks and flash commands are gone, firmware does not run, and SYS_RESET is raised; an NSSR reads the image
again and a watchdog reset does not. FIRMWARE_BOOT with neither slot naming an image enters the safe configuration with cause 7; with a slot
that verifies, that slot's firmware is taken and its BOOT entry appended. -/
def Obligations.StartsAndDeviceResetsComplete : Prop :=
  (∀ (s : State) (pins : Pins) (a b : NorRead) (v : Nat), s.pwr.ready = true →
      Completes (.coldStart pins a b v) s (fun t => ∃ u : State, u = s.fresh.coldReset pins v
        ∧ u.time = 0 ∧ u.mem = [] ∧ u.pod = State.reset.pod ∧ u.tsk = State.reset.tsk ∧ u.boot.pins = pins ∧ u.boot.modReady = false
        ∧ (pins.bscanEnN = true → t = State.start (State.domStart ([0, 9, 10, 11, 19].foldl (fun s n => s.loopOn n) (u.setStat 0 true)) 1) true a b)
        ∧ (pins.bscanEnN = false → t = State.setStat ([0, 9, 10, 11, 19].foldl (fun s n => s.loopOn n) (u.setStat 0 true)) 1 false)))
  ∧ (∀ (s : State) (vin v : Nat) (pins : Pins) (a b : NorRead), s.pwr.fail = 2 →
      Completes (.powerReturnRestart vin pins a b v) s (fun t =>
        t = (State.drain drainFuel ((s.fresh.notBefore (s.since .off + 100000000)).raise 96 4 [vin])).coldStart pins a b v))
  ∧ (∀ (s : State) (a b : NorRead) (e : Pod), s.alive = true → Tab.look s.pod.pods 0 = some e → e.bound = true →
      Completes (.nssrWrite 0x4E564D65 a b) s (fun t => ∃ u : State, t = State.start (State.domStart u.nsGo 1) false a b
        ∧ u.mem = [] ∧ u.pod = State.reset.pod ∧ u.tsk = State.reset.tsk ∧ u.flash = { State.reset.flash with patrolAt := u.time, dayAt := u.time }
        ∧ u.boot.modReady = false ∧ u.boot.fwRunning = false ∧ (∃ e ∈ u.evt.inbox, e.number = 7 ∧ e.cause = 2)))
  ∧ (∀ (s : State) (a b : NorRead) (at_ : Nat), s.alive = true → s.pwr.trip = 2 → s.pwr.coolSince = some at_ →
      Completes (.thermalRestart a b) s (fun t => ∃ u : State, t = State.start (State.domStart u.nsGo 1) false a b
        ∧ u.mem = [] ∧ u.pod = State.reset.pod ∧ u.tsk = State.reset.tsk ∧ u.pwr.trip = 0 ∧ u.boot.modReady = false))
  ∧ (∀ (s : State) (k : Nat), s.hsk.armed = true → s.suspended (k % 2) = false →
      Completes (.watchdogExpiry k) s (fun t => ∃ u : State, t = (u.nsGo.step3).portsReady
        ∧ u.mem = [] ∧ u.pod = State.reset.pod ∧ u.tsk = State.reset.tsk ∧ u.hsk.armed = false ∧ u.boot.fwRunning = false
        ∧ (∃ e ∈ u.evt.inbox, e.number = 7 ∧ e.cause = 3)))
  ∧ (∀ (s : State) (ra rp : NorRead), s.alive = true → s.pwr.trip = 0 → s.boot.modReady = true → s.boot.booted = false →
      s.safe = false → s.nv.fwActive.slot = 0 → s.nv.fwPrev.slot = 0 →
      Completes (.firmwareBoot ra rp) s (fun t => ∃ u : State, t = (u.enterSafe 7).bootAppend [] ∧ u.boot.booted = true
        ∧ s.onlyChanges u [.boot, .out]))
  ∧ (∀ (s : State) (ra rp : NorRead) (x : FwWord × Bool × FwInfo) (u : State), s.alive = true → s.pwr.trip = 0 →
      s.boot.modReady = true → s.boot.booted = false → s.fld HSK_HB_STAT_EXPIRIES < s.fld HSK_HB_CFG_FALLBACK →
      State.trySlots { s.fresh with boot := { s.boot with booted := true } } [(s.nv.fwActive, false, ra), (s.nv.fwPrev, true, rp)]
        = (some x, u) → u.safe = false → u.nv.archCount < u.archiveCap → u.nv.fullEpoch ≠ some u.nv.epoch →
      Completes (.firmwareBoot ra rp) s (fun t => ∃ v : State, t = v.bootAppend [bootFwRecord x true]
        ∧ v.boot.fwSlot = x.1.slot ∧ v.boot.fwSvn = x.2.2.svn ∧ v.boot.fwDigest = x.2.2.digest ∧ v.ldg.bootedSvn = x.2.2.svn
        ∧ v.hsk.armed = true))

/-- A controller is enabled, reset and shut down as its register writes say, and ports and functions are reset and released. CONTROLLER_ENABLE
through a bound pod's window, not QUIESCED and not enabled, makes the admin queues from AQA, ASQ and ACQ and sets CC; CSTS.RDY is set at
once where R83 allows it. CONTROLLER_RESET of an enabled controller with no reset that holds its scope starts a reset of kind 6 and leaves
CC without EN. SHUTDOWN_NOTIFICATION sets the shutdown in progress and flushes the pod's writes. PERST_ASSERT and FUNCTION_LEVEL_RESET start
resets of kinds 4 and 5 for every pod bound to the port; PERST_DEASSERT releases the port; RESET_COMPLETE ends a reset whose started writes
are durable, and raises SYS_RESET then (log entry 172: the model raises it at completion, so that a superseded reset raises none). -/
def Obligations.ControllerAndPortResetsComplete : Prop :=
  (∀ (s : State) (p cc aqa asq acq : Nat) (e : Pod), Tab.look s.pod.pods p = some e → e.bound = true → e.state ≠ 4 →
      bit (s.ctrl p).cc 0 = false → bits cc 15 14 = 0 → cc < 2 ^ 32 →
      Completes (.controllerEnable p cc aqa asq acq) s (fun t =>
        (t.ctrl p).cc = setBits cc 0 0 1
        ∧ Tab.look (t.ctrl p).sqs 0 = some ⟨bits aqa 11 0 + 1, asq, 0, 0, 0, 0⟩
        ∧ Tab.look (t.ctrl p).cqs 0 = some ⟨bits aqa 27 16 + 1, acq, 0, true, 0, 0, true⟩
        ∧ (s.safe = true → s.boot.resets.any (fun r => r.pods.contains p) = false → (t.ctrl p).rdy = true)
        ∧ s.onlyChanges t [.host, .out]))
  ∧ (∀ (s : State) (p cc : Nat) (e : Pod), Tab.look s.pod.pods p = some e → e.bound = true → e.state ≠ 4 →
      bit (s.ctrl p).cc 0 = true → s.boot.resets.any (fun r => s.scopeHolds r.kind r.subject 6 p || (r.kind ≤ 5 && r.pods.contains p)) = false →
      s.host.fwAct = none → (p = 0 → s.host.selfTest.run ≠ some 1) →
      Completes (.controllerReset p cc) s (fun t => ∃ u v : State, t = u.endTest.nsGo
        ∧ u = (State.resetPod v p true).setCtrl p { State.ctrl (State.resetPod v p true) p with cc := setBits cc 0 0 0, rdy := (s.ctrl p).rdy }
        ∧ (∃ r ∈ v.boot.resets, r.kind = 6 ∧ r.subject = p ∧ p ∈ r.pods)
        ∧ s.onlyChanges v [.boot, .regs, .out]))
  ∧ (∀ (s : State) (p shn : Nat) (e : Pod), Tab.look s.pod.pods p = some e → e.bound = true → e.state ≠ 4 →
      bit (s.ctrl p).cc 0 = true → (s.ctrl p).shst = 0 → (shn = 1 ∨ shn = 2) → bits (s.ctrl p).cc 15 14 ≠ shn →
      Completes (.shutdownNotification p shn) s (fun t =>
        (t.ctrl p).shst = 1 ∧ t.host.flushes = s.host.flushes ++ [⟨none, p, s.ftl.wnext, s.ftl.recCount, none⟩]
        ∧ s.onlyChanges t [.host, .out]))
  ∧ (∀ (s : State) (port : Nat), s.boot.perst.contains port = false → s.boot.modReady = true → s.portOn port = true →
      s.boot.resets.any (fun r => s.scopeHolds r.kind r.subject 4 port) = false → s.host.fwAct = none →
      s.tsk.progs.all (fun kv => !kv.2.waived) = true →
      Completes (.perstAssert port) s (fun t => ∃ v : State,
        t = State.podGo (State.nsGo (State.endTest ((s.boundTo port).foldl (fun x p => x.portPod port 1 p) v)))
        ∧ port ∈ v.boot.perst ∧ v.fld HIF_LINK_STAT_STATE port = 0 ∧ v.fld SGN_TOKEN_LATCH_DEBUG = 0 ∧ v.sgn.waivers = []
        ∧ (∀ k, k ∈ v.hsf.fenced ↔ k ∈ s.hsf.fenced ∧ (k % 0x80 < 0x0F ∨ 0x11 < k % 0x80))
        ∧ (∃ r ∈ v.boot.resets, r.kind = 4 ∧ r.subject = port ∧ ∀ p ∈ s.boundTo port, p ∈ r.pods)
        ∧ s.onlyChanges v [.boot, .hsf, .hsk, .sgn, .regs, .evt, .out]))
  ∧ (∀ (s : State) (port : Nat), s.boot.perst.contains port = false → s.boot.modReady = false →
      Completes (.perstAssert port) s (fun t => ∃ v : State, t = v.podGo ∧ v.boot.perst = s.boot.perst ++ [port]
        ∧ s.onlyChanges v [.boot, .out]))
  ∧ (∀ (s : State) (port : Nat),
      Completes (.perstDeassert port) s (fun t => t.boot.perst = s.boot.perst.filter (fun x => x ≠ port)
        ∧ (s.boot.modReady = true → s.portOn port = true → s.fld HIF_LINK_STAT_STATE port = 0 → t.fld HIF_LINK_STAT_STATE port = 1)
        ∧ s.regsBut t [HIF_LINK_STAT.key port 0] ∧ s.onlyChanges t [.boot, .regs, .out]))
  ∧ (∀ (s : State) (port : Nat), s.portOn port = true → s.boot.modReady = true →
      s.boot.resets.any (fun r => s.scopeHolds r.kind r.subject 5 port) = false → s.host.fwAct = none →
      Completes (.functionLevelReset port) s (fun t => ∃ v : State,
        t = State.podGo (State.nsGo (State.endTest ((s.boundTo port).foldl (fun x p => x.portPod port 2 p) v)))
        ∧ (∃ r ∈ v.boot.resets, r.kind = 5 ∧ r.subject = port ∧ ∀ p ∈ s.boundTo port, p ∈ r.pods)
        ∧ s.onlyChanges v [.boot, .regs, .out]))
  ∧ (∀ (s : State) (kind subject : Nat) (r : ResetRun),
      s.boot.resets.find? (fun (r : ResetRun) => r.kind = kind && r.subject = subject && 4 ≤ r.kind) = some r → s.resetDurable r = true →
      Completes (.resetComplete kind subject) s (fun t => ∃ v : State, t = v.podGo.nsGo
        ∧ v.boot.resets = s.boot.resets.filter (fun x => x ≠ r)
        ∧ (kind ≤ 5 → v.evt.inbox = s.evt.inbox ++ [⟨7, kind, [subject], none, 0, s.time⟩])))

/-- Heartbeats renew their deadline, the debug port acts within its level, and the test port gives what its instruction selects. HEARTBEAT_BEAT
with the next number and its complement renews the pair's deadline and anything else is discarded with HSK_HB cause 2. HEARTBEAT_HALF_PERIOD
reports a late beat once. EXPIRIES_CLEAR returns EXPIRIES to 0. DEBUG_PORT_ACCESS halts and runs cores, reads registers through the gate,
and does nothing while the port is closed. BYPASS, IDCODE and SAMPLE/PRELOAD load their instruction, EXTEST, CLAMP and HIGHZ theirs when
BSCAN_EN_N was low and BYPASS otherwise (the IDCODE and the boundary register's bits: log entries). -/
def Obligations.HuskCommandsComplete : Prop :=
  (∀ (s : State) (r : Req) (k w : Nat), k < 2 → s.grants r (HSK_HB.key k 0) true → s.hsk.armed = true →
      (w % 65536 = ((s.pairOf k).last + 1) % 65536 → w / 65536 % 65536 = 65535 - w % 65536 →
        Acks (.heartbeatBeat r k w) s r HSK_HB.win [] (fun t =>
          Tab.look t.hsk.pairs k = some ⟨w % 65536, s.time, false⟩ ∧ s.onlyChanges t [.hsk, .out]))
      ∧ (¬ (w % 65536 = ((s.pairOf k).last + 1) % 65536 ∧ w / 65536 % 65536 = 65535 - w % 65536) →
        Acks (.heartbeatBeat r k w) s r HSK_HB.win [] (fun t =>
          t.evt.inbox = s.evt.inbox ++ [⟨50, 2, [k], none, 0, s.time⟩] ∧ s.onlyChanges t [.evt, .out])))
  ∧ (∀ (s : State) (k : Nat), k < 2 → s.hsk.armed = true → s.suspended k = false → (s.pairOf k).halfSeen = false →
      Completes (.heartbeatHalfPeriod k) s (fun t =>
        t.time = max s.time ((s.pairOf k).beatAt + s.fld HSK_HB_CFG_PERIOD_MS * 500000)
        ∧ Tab.look t.hsk.pairs k = some { s.pairOf k with halfSeen := true }
        ∧ t.evt.inbox = s.evt.inbox ++ [⟨50, 1, [k], none, 0, t.time⟩] ∧ s.onlyChanges t [.time, .hsk, .evt, .out]))
  ∧ (∀ s : State, s.hsk.armed = true →
      Completes .expiriesClear s (fun t => t.fld HSK_HB_STAT_EXPIRIES = 0 ∧ t.time = max s.time (s.hsk.cleanSince + 3600000000000)
        ∧ s.regsBut t [HSK_HB_STAT.key 0 0] ∧ s.onlyChanges t [.time, .regs, .out]))
  ∧ (∀ (s : State) (op : DebugOp), s.hsk.debugLevel = 0 → Completes (.debugPortAccess op) s (fun t => t = s.fresh))
  ∧ (∀ (s : State) (k : Nat), s.hsk.debugLevel ≠ 0 → k < coreCount s.part →
      Completes (.debugPortAccess (.haltCore k)) s (fun t => k ∈ t.hsk.halted ∧ (∀ x ∈ s.hsk.halted, x ∈ t.hsk.halted)
        ∧ s.onlyChanges t [.hsk, .tsk, .out])
      ∧ Completes (.debugPortAccess (.runCore k)) s (fun t => k ∉ t.hsk.halted ∧ (∀ x, x ≠ k → (x ∈ t.hsk.halted ↔ x ∈ s.hsk.halted))
        ∧ s.onlyChanges t [.hsk, .out]))
  ∧ (∀ (s : State) (key : Nat), s.hsk.debugLevel ≠ 0 → s.grants debugReq key false →
      Acks (.debugPortAccess (.read (0xF000000000 + key) 4)) s debugReq (key / 0x100000) (leBytes 4 (s.fresh.regRead debugReq key).1)
        (fun t => t = (s.fresh.regRead debugReq key).2))
  ∧ (∀ s : State, s.testPort = true →
      Completes .jtagBypass s (fun t => t.boot.jtagIr = 0 ∧ t.out = [.jtag 0 0] ∧ s.onlyChanges t [.boot, .out])
      ∧ Completes .jtagIdcode s (fun t => t.boot.jtagIr = 1 ∧ t.out = [.jtag 1 (idcode s.part)] ∧ s.onlyChanges t [.boot, .out])
      ∧ Completes .jtagSamplePreload s (fun t => t.boot.jtagIr = 2 ∧ (∃ v, t.out = [.jtag 2 v]) ∧ s.onlyChanges t [.boot, .freeCtr, .out]))
  ∧ (∀ s : State, s.testPort = true → s.boot.pins.bscanEnN = false →
      Completes .jtagExtest s (fun t => t.boot.jtagIr = 3 ∧ (∃ v, t.out = [.jtag 2 v]) ∧ s.onlyChanges t [.boot, .freeCtr, .out])
      ∧ Completes .jtagClamp s (fun t => t.boot.jtagIr = 4 ∧ t.out = [.jtag 0 0] ∧ s.onlyChanges t [.boot, .out])
      ∧ Completes .jtagHighz s (fun t => t.boot.jtagIr = 5 ∧ t.out = [.jtag 0 0] ∧ s.onlyChanges t [.boot, .out]))
  ∧ (∀ s : State, s.testPort = true → s.boot.pins.bscanEnN = true → ∀ c ∈ [Instr.jtagExtest, .jtagClamp, .jtagHighz],
      Completes c s (fun t => t.boot.jtagIr = 0 ∧ t.out = [.jtag 0 0] ∧ s.onlyChanges t [.boot, .out]))

/-- Requests enter the signing unit's queue, TOKEN its reserved entry, and an ended SIGN leaves a signature, a result and an idle unit.
SGN_SIGN, SGN_VERIFY and SGN_VERIFY_SLOT of a readable block with room in the general queue put the request at its end; with 16 waiting,
BUSY is written to its RESULT. SGN_TOKEN takes the reserved entry and consumes the path's nonce. SGN_OP_COMPLETE of a SIGN writes the
signature and VALID and leaves the unit to its next request; a quote gives its body and signature to the host. IDENTITY_KEY_READY gives both
keys or raises SGN_IDKEY_FAIL. ATTESTATION_QUOTE waits for the unit or fails without an identity key. TOKEN_NONCE replaces and returns path
0's nonce. TOKEN_SUBMIT consumes it and hands the token to the unit. -/
def Obligations.SigningCommandsComplete : Prop :=
  (∀ (s u : State) (r : Req) (addr op : Nat) (d : List Byte) (c : Instr),
      (c, op) ∈ [(Instr.sgnSign r addr, 1), (.sgnVerify r addr, 2), (.sgnVerifySlot r addr, 3)] →
      s.grants r (SGN_SUBMIT_HI.key 0 0) true → s.fresh.load ⟨0x52, 0⟩ (addr / 64 * 64) 128 = (.ok, d, u) → leAt d 0 1 = op →
      (u.sgn.queue.length < 16 → Acks c s r SGN_SUBMIT_HI.win [] (fun t => ∃ v : State, t = v.sgnStart
        ∧ v.sgn.queue = u.sgn.queue ++ [(⟨addr / 64 * 64, r.master, r.pod, op, leAt d 1 1, leAt d 2 1, leAt d 3 1, leAt d 8 8, leAt d 16 8,
            slice d 64 64, []⟩, .none)]
        ∧ v.fld SGN_STAT_QUEUED = u.sgn.queue.length + 1 ∧ u.onlyChanges v [.sgn, .regs]))
      ∧ (16 ≤ u.sgn.queue.length → Acks c s r SGN_SUBMIT_HI.win [] (fun t =>
        t = (u.store ⟨0x52, 0⟩ (addr / 64 * 64 + 4) (leBytes 4 0x69969669)).2)))
  ∧ (∀ (s u : State) (r : Req) (addr : Nat) (d : List Byte), s.grants r (SGN_SUBMIT_HI.key 0 0) true →
      s.fresh.load ⟨0x52, 0⟩ (addr / 64 * 64) 128 = (.ok, d, u) → leAt d 0 1 = 4 → u.sgn.tokenReq = none →
      Acks (.sgnToken r addr) s r SGN_SUBMIT_HI.win [] (fun t => ∃ v : State, t = v.sgnStart
        ∧ (∃ q : SgnReq, v.sgn.tokenReq = some (q, .none) ∧ q.addr = addr / 64 * 64 ∧ q.master = r.master
          ∧ q.nonce = Tab.lookD u.sgn.nonce (leAt d 3 1) [])
        ∧ Tab.look v.sgn.nonce (leAt d 3 1) = none ∧ u.onlyChanges v [.sgn]))
  ∧ (∀ (s : State) (q : SgnReq), s.sgn.running = 3 → s.sgn.curr = some (q, .none) → q.op = 1 → s.sgn.idKey = true →
      let sig := slice (Config.falconSign s.idSeed q.digest s.freeCtr) 0 1280
      Completes (.sgnOpComplete false) s (fun t => ∃ u v w : State, t = w.quotesIn w.sgn.heldQuotes.length ∧ w = v.sgnStart
        ∧ v = { u with sgn := { u.sgn with running := 0, curr := none } }
        ∧ u = (State.store (State.store { s.fresh with freeCtr := s.freeCtr + 1 } ⟨0x52, 0⟩ q.sigAddr sig).2 ⟨0x52, 0⟩ (q.addr + 4)
            (leBytes 4 0xA55A5AA5)).2))
  ∧ (∀ (s : State) (q : SgnReq) (c : CmdRef) (body : List Byte), s.sgn.running = 3 → s.sgn.curr = some (q, .quote c body) → q.op = 1 →
      s.sgn.idKey = true →
      let sig := slice (Config.falconSign s.idSeed q.digest s.freeCtr) 0 1280
      Completes (.sgnOpComplete false) s (fun t => ∃ u w : State, t = w.quotesIn w.sgn.heldQuotes.length
        ∧ w = State.sgnStart { u with sgn := { u.sgn with running := 0, curr := none } }
        ∧ u.out = [.host c.pod c.qid c.cid (body ++ sig)] ∧ sig.length = 1280))
  ∧ (∀ (s : State) (cause : Nat), s.fld SGN_STAT_IDKEY = 0 → s.boot.pins.bscanEnN = true →
      Completes (.identityKeyReady cause) s (fun t => ∃ v : State, t = v.sgnStart
        ∧ (cause = 0 → v.fld SGN_STAT_IDKEY = 1 ∧ v.sgn.idKey = true ∧ v.sgn.mediaRoot = true ∧ v.evt = s.evt)
        ∧ (cause ≠ 0 → v.fld SGN_STAT_IDKEY = 2 ∧ v.sgn.idKey = false ∧ v.sgn.mediaRoot = false
            ∧ v.evt.inbox = s.evt.inbox ++ [⟨704, cause, [], none, 0, s.time⟩])
        ∧ s.onlyChanges v [.regs, .sgn, .evt, .out]))
  ∧ (∀ (s : State) (c : HostCmd), s.admits c anyPod → c.xfer = .ok →
      (s.fld SGN_STAT_IDKEY = 2 → Completes (.attestationQuote c) s (fun t => s.posts t c 7 0x12 true 0))
      ∧ (s.fld SGN_STAT_IDKEY ≠ 2 → Completes (.attestationQuote c) s (fun t => ∃ v : State, t = v.quotesIn v.sgn.heldQuotes.length
        ∧ ∃ q, v.sgn.heldQuotes = s.sgn.heldQuotes ++ [(q, .quote (HostCmdRef c)
            (leBytes 4 c.cdw12 ++ leBytes 4 c.cdw13 ++ leBytes 4 c.cdw14 ++ leBytes 4 c.cdw15))])))
  ∧ (∀ (s : State) (c : HostCmd), s.admits c ⟨true, false, false, false⟩ → s.rngOk = true → c.xfer = .ok →
      Completes (.tokenNonce c) s (fun t => s.posts t c 0 0 false 0
        ∧ ∃ n, n.length = 32 ∧ Tab.look t.sgn.nonce 0 = some n ∧ t.out = [.host c.pod c.qid c.cid n]))
  ∧ (∀ (s : State) (c : HostCmd), s.admits c ⟨true, false, false, false⟩ → c.xfer = .ok → s.sgn.tokenReq = none → s.sgn.heldTokens = [] →
      s.ldg.run = none → s.ldg.wait = [] →
      Completes (.tokenSubmit c) s (fun t => ∃ v : State, t = v.sgnStart
        ∧ (∃ q : SgnReq, v.sgn.tokenReq = some (q, .tokenCmd (HostCmdRef c) (slice c.data 0 3336)) ∧ q.path = 0
          ∧ q.nonce = Tab.lookD s.sgn.nonce 0 [])
        ∧ Tab.look v.sgn.nonce 0 = none ∧ s.onlyChanges v [.host, .regs, .sgn, .out]))

/-- Digest contexts open in the lowest free slot, take words in order, finish, compare, and clear with their cause. DIG_OPEN with fields in
range opens the lowest free slot for the master, or reads BUSY. The owner's DATA, LAST, FINAL, SRC_LEN and CLOSE act on its own context in
the ABSORB state as R105 to R110 say; FINAL with a count outside 1 to 8 clears it for misuse. An engine read brings the bytes up to the
line's end, or a bus error clears the context. A permutation absorbs one block of the context next in rotation, and a disagreement of the
shadow core clears every open context. CMP compares OUT with EXP. Idle contexts are cleared after IDLE_MS and cleared ones freed 1 ms after.
Only the engine's own state, the acknowledge and events change. -/
def Obligations.DigestCommandsComplete : Prop :=
  (∀ (s : State) (r : Req) (w : Nat), s.grants r (DIG_OPEN.key 0 0) true → digOpenOk w = true →
      (∀ c, Tab.lowestFree s.dig.ctx 16 = some c → Acks (.digOpen r w) s r DIG_OPEN.win [] (fun t =>
        Tab.look t.dig.openRes r.master = some (2 ^ 30 + c)
        ∧ (∃ x : DigCtx, Tab.look t.dig.ctx c = some x ∧ x.state = 1 ∧ x.alg = bits w 31 28 ∧ x.owner = r.master ∧ x.outLen = bits w 27 21
            ∧ x.keyLen = bits w 20 14 ∧ x.custLen = bits w 13 6 ∧ x.sponge = 0 ∧ x.buf = [] ∧ x.lastWrite = s.time)
        ∧ (∀ k, k ≠ c → Tab.look t.dig.ctx k = Tab.look s.dig.ctx k) ∧ s.onlyChanges t [.dig, .out]))
      ∧ (Tab.lowestFree s.dig.ctx 16 = none → Acks (.digOpen r w) s r DIG_OPEN.win [] (fun t =>
        Tab.look t.dig.openRes r.master = some (2 * 2 ^ 30) ∧ t.dig.ctx = s.dig.ctx ∧ s.onlyChanges t [.dig, .out])))
  ∧ (∀ (s : State) (r : Req) (c w : Nat) (x : DigCtx), c < 16 → Tab.look s.dig.ctx c = some x → x.state = 1 →
      (s.grants r (DIG_CTX_DATA_HI.key c 0) true → x.buf.length < 2 * digRate x.alg →
        AcksPage (.digCtxData r c w) s r c (fun t => Tab.look t.dig.ctx c = some (DigCtx.feed { x with lastWrite := s.time } (leBytes 8 w))
          ∧ (∀ k, k ≠ c → Tab.look t.dig.ctx k = Tab.look s.dig.ctx k) ∧ s.onlyChanges t [.dig, .out]))
      ∧ (s.grants r (DIG_CTX_LAST_HI.key c 0) true → AcksPage (.digCtxLast r c w) s r c (fun t =>
          Tab.look t.dig.ctx c = some { x with lastWrite := s.time, lastLo := w % 2 ^ 32, lastHi := w / 2 ^ 32 % 2 ^ 32 }
          ∧ (∀ k, k ≠ c → Tab.look t.dig.ctx k = Tab.look s.dig.ctx k) ∧ s.onlyChanges t [.dig, .out]))
      ∧ (s.grants r (DIG_CTX_FINAL.key c 0) true → x.alg ≠ 4 → x.buf.length < 2 * digRate x.alg →
          (bit w 31 = true → bits w 3 0 = 0 → AcksPage (.digCtxFinal r c w) s r c (fun t =>
            Tab.look t.dig.ctx c = some (DigCtx.finish { x with lastWrite := s.time } []) ∧ s.onlyChanges t [.dig, .out]))
          ∧ (bit w 31 = false → 1 ≤ bits w 3 0 → bits w 3 0 ≤ 8 → AcksPage (.digCtxFinal r c w) s r c (fun t =>
            Tab.look t.dig.ctx c = some (DigCtx.finish { x with lastWrite := s.time }
              ((leBytes 4 x.lastLo ++ leBytes 4 x.lastHi).take (bits w 3 0))) ∧ s.onlyChanges t [.dig, .out]))
          ∧ (bit w 31 = false → (bits w 3 0 = 0 ∨ 8 < bits w 3 0) → AcksPage (.digCtxFinal r c w) s r c (fun t =>
            Tab.look t.dig.ctx c = some (DigCtx.cleared { x with lastWrite := s.time } 2 s.time)
            ∧ t.evt.inbox = s.evt.inbox ++ [⟨708, 1, [c, x.owner], none, 0, s.time⟩] ∧ s.onlyChanges t [.dig, .evt, .out])))
      ∧ (s.grants r (DIG_CTX_SRC_LEN.key c 0) true → w % 8 = 0 → x.srcLeft = 0 → AcksPage (.digCtxSrcLen r c w) s r c (fun t =>
          Tab.look t.dig.ctx c = some { x with lastWrite := s.time, srcLeft := w, srcAt := x.srcLo + x.srcHi * 2 ^ 32 }
          ∧ s.onlyChanges t [.dig, .out])))
  ∧ (∀ (s : State) (r : Req) (c : Nat) (x : DigCtx), c < 16 → Tab.look s.dig.ctx c = some x → s.grants r (DIG_CTX_CLOSE.key c 0) true →
      AcksPage (.digCtxClose r c) s r c (fun t => Tab.look t.dig.ctx c = none
        ∧ (∀ k, k ≠ c → Tab.look t.dig.ctx k = Tab.look s.dig.ctx k) ∧ s.onlyChanges t [.dig, .out]))
  ∧ (∀ (s u : State) (c : Nat) (x : DigCtx) (d : List Byte), Tab.look s.dig.ctx c = some x → x.state = 1 → x.srcLeft ≠ 0 →
      x.buf.length < 2 * digRate x.alg → s.fresh.load ⟨0x51, x.pod⟩ x.srcAt (min x.srcLeft (64 - x.srcAt % 64)) = (.ok, d, u) →
      Tab.look u.dig.ctx c = some x →
      Completes (.digEngineRead c) s (fun t => Tab.look t.dig.ctx c = some { x.feed d with
          srcLeft := (x.feed d).srcLeft - min x.srcLeft (64 - x.srcAt % 64), srcAt := (x.feed d).srcAt + min x.srcLeft (64 - x.srcAt % 64) }
        ∧ u.onlyChanges t [.dig]))
  ∧ (∀ (s u : State) (c : Nat) (x : DigCtx) (e : BusStatus) (d : List Byte), Tab.look s.dig.ctx c = some x → x.state = 1 → x.srcLeft ≠ 0 →
      s.fresh.load ⟨0x51, x.pod⟩ x.srcAt (min x.srcLeft (64 - x.srcAt % 64)) = (e, d, u) → e ≠ .ok →
      Completes (.digEngineRead c) s (fun t => Tab.look t.dig.ctx c = some (x.cleared 1 u.time)
        ∧ t.evt.inbox = u.evt.inbox ++ [⟨709, 1, [c, x.owner], none, 0, u.time⟩] ∧ u.onlyChanges t [.dig, .evt]))
  ∧ (∀ (s : State) (c : Nat) (x : DigCtx), s.digNext = some c → Tab.look s.dig.ctx c = some x →
      Completes (.digPermutation 0) s (fun t => Tab.look t.dig.ctx c = some x.permute ∧ t.dig.lastServed = c
        ∧ (∀ k, k ≠ c → Tab.look t.dig.ctx k = Tab.look s.dig.ctx k) ∧ s.onlyChanges t [.dig, .out])
      ∧ (∀ f, f ≠ 0 → Completes (.digPermutation f) s (fun t =>
          (∀ k y, Tab.look s.dig.ctx k = some y → Tab.look t.dig.ctx k = some (if y.isOpen then y.cleared 3 s.time else y))
          ∧ t.evt.inbox = s.evt.inbox ++ [⟨710, min f 2, [], none, 0, s.time⟩] ∧ s.onlyChanges t [.dig, .evt, .out])))
  ∧ (∀ (s : State) (r : Req) (c : Nat) (x : DigCtx), c < 16 → s.grants r (DIG_CTX_CMP.key c 0) false → Tab.look s.dig.ctx c = some x →
      x.state = 3 →
      Acks (.digCmpRead r c true) s r 0x05 (leBytes 4
        (if x.out.take x.outBytes = (x.exp.flatMap (fun v => leBytes 4 v)).take x.outBytes then 0xA55A5AA5 else 0x3CC3C33C))
        (fun t => s.onlyChanges t [.out]))
  ∧ (∀ (s : State) (c : Nat) (x : DigCtx), Tab.look s.dig.ctx c = some x →
      (x.isOpen = true → Completes (.digIdleTimeout c) s (fun t => Tab.look t.dig.ctx c = some (x.cleared 4 t.time)
        ∧ t.time = max s.time (x.lastWrite + s.fld DIG_CTRL_IDLE_MS * 1000000)
        ∧ t.evt.inbox = s.evt.inbox ++ [⟨709, 2, [c, x.owner], none, 0, t.time⟩] ∧ s.onlyChanges t [.time, .dig, .evt, .out]))
      ∧ (x.state = 4 → Completes (.digClearedExpiry c) s (fun t => Tab.look t.dig.ctx c = none
        ∧ t.time = max s.time (x.clearedAt + 1000000)
        ∧ (∀ k, k ≠ c → Tab.look t.dig.ctx k = Tab.look s.dig.ctx k) ∧ s.onlyChanges t [.time, .dig, .out])))

/-- Ledger entries are appended one at a time with index, chain hash and signature, slots are activated, the archive advances, and credits
return. LDG_APPEND_SUBMIT within its checks begins an entry of the next index whose PREV_HASH is the chain hash of the newest, or waits
behind the append under way; without credit it is refused with cause 2. LEDGER_APPEND_COMMIT of a signed entry makes it the newest, takes
its credit and answers the submitter; without the permit of the LMC it waits. LDG_ACTIVATE of a verified slot begins the ACTIVATE entry.
LDG_ARCHIVED_ACK advances ARCHIVED when the copy's hash is the entry's chain hash. LDG_CREDIT_REGAIN gives one credit up to 64, 56.25 s of
device time after the last. FW_SVN_FLOOR_RAISE raises the floor to the booted SVN. LEDGER_READ gives the ring's entries. LEGACY_MOUNT keeps
the key and reports LEGACY. -/
def Obligations.LedgerCommandsComplete : Prop :=
  (∀ (s u : State) (r : Req) (w : Nat) (body : List Byte), s.grants r (LDG_APPEND_CTRL.key 0 0) true →
      (bits w 31 24 = 4 ∨ bits w 31 24 = 5) → bits w 11 0 ≤ 2688 → 64 < s.ringRoom → s.fwPending < s.nv.credits →
      s.fresh.load ⟨0x50, 0⟩ (Tab.lookD s.ldg.appendLo r.master 0 + Tab.lookD s.ldg.appendHi r.master 0 * 2 ^ 32) (bits w 11 0)
        = (.ok, body, u) →
      (u.ldg.run = none → u.fld SGN_STAT_IDKEY ≠ 2 → Acks (.ldgAppendSubmit r w) s r LDG_APPEND_CTRL.win [] (fun t =>
        ∃ (v : State) (e : LedgerEntry), t = v.sgnStart ∧ e.kind = bits w 31 24 ∧ e.index = u.nv.newest + 1 ∧ e.time = u.time
          ∧ e.boot = u.nv.bootNumber ∧ e.missed = u.nv.missed ∧ e.body = body
          ∧ (∀ p, u.ringEntry u.nv.newest = some p → e.prevHash = u.chainHash p)
          ∧ Tab.look v.nv.ring (e.index % 4096) = some e ∧ v.ldg.run = some ⟨e, u.nv.missedOvf, .firmware r.master, false⟩
          ∧ v.nv.newest = u.nv.newest ∧ v.sgn.ledgerReq = some (shake512 (v.entryHead e)) ∧ u.onlyChanges v [.nv, .ldg, .sgn]))
      ∧ (u.ldg.run ≠ none → Acks (.ldgAppendSubmit r w) s r LDG_APPEND_CTRL.win [] (fun t =>
        t.ldg.wait = u.ldg.wait ++ [(bits w 31 24, body, .firmware r.master)] ∧ u.onlyChanges t [.ldg])))
  ∧ (∀ (s : State) (r : Req) (w : Nat), s.grants r (LDG_APPEND_CTRL.key 0 0) true →
      (bits w 31 24 = 4 ∨ bits w 31 24 = 5) → bits w 11 0 ≤ 2688 → 64 < s.ringRoom → s.nv.credits ≤ s.fwPending →
      Acks (.ldgAppendSubmit r w) s r LDG_APPEND_CTRL.win [] (fun t =>
        Tab.look t.ldg.appendRes r.master = some (2 * 2 ^ 30 + 2 * 2 ^ 24)
        ∧ t.evt.inbox = s.evt.inbox ++ [⟨711, 2, [bits w 31 24], none, 0, s.time⟩] ∧ t.nv = s.nv ∧ s.onlyChanges t [.ldg, .evt, .out]))
  ∧ (∀ (s : State) (x : AppendRun) (m : Nat), s.ldg.run = some x → x.signed = true → x.why = .firmware m → s.ldg.wait = [] → s.lmcPermit = true →
      Completes .ledgerAppendCommit s (fun t => t.nv.newest = x.entry.index ∧ t.nv.missed = s.nv.missed - x.entry.missed
        ∧ t.nv.credits = s.nv.credits - 1 ∧ t.ldg.run = none
        ∧ Tab.look t.ldg.appendRes m = some (2 ^ 30 + x.entry.index % 2 ^ 24) ∧ s.onlyChanges t [.nv, .ldg, .out]))
  ∧ (∀ (s : State) (x : AppendRun) (slot drec svn : Nat) (digest : List Byte), s.ldg.run = some x → x.signed = true →
      x.why = .activate slot drec svn digest none false → s.ldg.wait = [] → s.lmcPermit = true → drec < s.nv.fwDigest.length →
      Completes .ledgerAppendCommit s (fun t => t.nv.newest = x.entry.index ∧ t.nv.fwPrev = s.nv.fwActive
        ∧ t.nv.fwActive = ⟨slot, drec, svn⟩ ∧ t.nv.fwDigest[drec]? = some digest ∧ s.onlyChanges t [.nv, .ldg, .out]))
  ∧ (∀ (s : State) (r : Req) (w : Nat) (d : List Byte), s.grants r (LDG_ACTIVATE.key 0 0) true →
      s.activateOk (w % 8) (bits w 5 4) = some d →
      (s.ringRoom ≠ 0 → s.ldg.run = none → Acks (.ldgActivate r w) s r LDG_ACTIVATE.win [] (fun t => ∃ x : AppendRun,
        t.ldg.run = some x ∧ x.entry.kind = 2 ∧ x.entry.index = s.nv.newest + 1
        ∧ x.why = .activate (w % 8) (bits w 5 4) s.ldg.activateSvn d none false ∧ t.nv.fwActive = s.nv.fwActive))
      ∧ (s.ringRoom = 0 → Acks (.ldgActivate r w) s r LDG_ACTIVATE.win [] (fun t =>
        t.evt.inbox = s.evt.inbox ++ [⟨711, 1, [2], none, 0, s.time⟩] ∧ s.onlyChanges t [.evt, .out])))
  ∧ (∀ (s u : State) (r : Req) (addr : Nat) (copy : List Byte) (e : LedgerEntry), s.grants r (LDG_ARCHIVED_ACK_HI.key 0 0) true →
      s.nv.archCount < s.archiveCap → s.ringEntry s.nv.archA = some e → s.fresh.load ⟨0x50, 0⟩ addr 4096 = (.ok, copy, u) →
      u.otp.deviceId = s.otp.deviceId →
      (shake512 copy = s.chainHash e → Acks (.ldgArchivedAck r addr) s r LDG_ARCHIVED_ACK_HI.win [] (fun t =>
        t.nv.archA = u.nv.archA + 1 ∧ u.onlyChanges t [.nv, .evt]))
      ∧ (shake512 copy ≠ s.chainHash e → Acks (.ldgArchivedAck r addr) s r LDG_ARCHIVED_ACK_HI.win [] (fun t =>
        t.nv = u.nv ∧ t.evt.inbox = u.evt.inbox ++ [⟨711, 4, [e.kind], none, 0, u.time⟩])))
  ∧ (∀ s : State, Completes .ldgCreditRegain s (fun t =>
      t.nv = { s.nv with credits := if s.nv.credits < 63 then s.nv.credits + 1 else 64 }
      ∧ t.time = max s.time (s.boot.creditAt + 56250000000) ∧ t.boot.creditAt = s.boot.creditAt + 56250000000
      ∧ s.onlyChanges t [.nv, .time, .boot, .out]))
  ∧ (∀ s : State, s.lmcPermit = false → Completes .ledgerAppendCommit s (fun t => t = s.fresh))
  ∧ (∀ s : State, s.boot.bootDone = true →
      Completes .fwSvnFloorRaise s (fun t => t.nv = { s.nv with svnFloor := max s.nv.svnFloor s.ldg.bootedSvn } ∧ s.onlyChanges t [.nv, .out]))
  ∧ (∀ (s : State) (c : HostCmd) (d : List Byte), s.admits c ⟨true, false, false, false⟩ → c.xfer = .ok → c.cdw13 = 0 → 1 ≤ c.cdw12 →
      c.cdw12 ≤ 256 →
      (s.ringRun (c.cdw10 + c.cdw11 * 2 ^ 32) c.cdw12 = some d → Completes (.ledgerRead c) s (fun t =>
        t.out = [.host c.pod c.qid c.cid d] ∧ s.posts t c 0 0 false 0 ∧ s.onlyChanges t [.host, .hsk, .regs, .out]))
      ∧ (s.ringRun (c.cdw10 + c.cdw11 * 2 ^ 32) c.cdw12 = none → Completes (.ledgerRead c) s (fun t => s.posts t c 7 0x10 true 0)))
  ∧ (∀ (s : State) (c : HostCmd) (nss : List LegacyNs) (units : List LegacyUnit), s.admits c pod0Media → c.xfer = .ok →
      s.ftl.legacy = false → nss.any (fun x => x.nsid = 0 || 8192 < x.nsid || (s.nsOf x.nsid).isSome) = false →
      Completes (.legacyMount c true true nss units) s (fun t => ∃ v : State, t = v.succeed c ∧ v.ftl.legacy = true
        ∧ v.ftl.legacyKey = slice c.data 0 32 ∧ v.fld FTL_STAT_LEGACY = 1 ∧ v.fld FTL_STAT_FULL = 1))

/-- Key commands begin under their permits, end with a new key, no key or a new epoch, and random words come from the general generator.
KEY_GENERATE of an empty slot, and KEY_REPLACE and KEY_DESTROY under their permits, begin and read as running; without a permit they are
refused with HSK_MEDIA_DENIED. KEY_CRYPTO_ERASE_ALL raises MEDIA_EPOCH at once. KEY_OPERATION_DONE of a firmware command leaves a new key
under the current epoch, or no key for DESTROY, or fails for want of randomness. KEY_ERASE_ALL_COMPLETE gives every slot of a namespace, and
slot 8,192, a key under the epoch. KEY_RNG_DATA_READ gives 32 bits of the general instance, reseeded after 2^20 requests, zero once it is
not instantiated, and KEY_RNG_HEALTH_FAIL, for raw bits that fail a test of R131, uninstantiates both (the proportion test's cutoff: log
entry 177). -/
def Obligations.KeyCommandsComplete : Prop :=
  (∀ (s : State) (r : Req) (slot : Nat), slot ≤ 8192 → s.grants r (KEY_NS_CMD.key 0 0) true →
      (Tab.has s.nv.keys slot = false → (slot = 8192 → s.ftl.cap = none) → Acks (.keyGenerate r slot) s r KEY_NS_CMD.win [] (fun t =>
        t.key.run = s.key.run ++ [⟨1, slot, r.master, none⟩] ∧ Tab.look t.key.nsRes r.master = some 0 ∧ s.onlyChanges t [.key, .out]))
      ∧ (Tab.has s.nv.keys slot = true ∨ (slot = 8192 ∧ s.ftl.cap.isSome = true) → Acks (.keyGenerate r slot) s r KEY_NS_CMD.win [] (fun t =>
        t.key.run = s.key.run ∧ Tab.look t.key.nsRes r.master = some (3 * 2 ^ 30) ∧ s.onlyChanges t [.key, .out]))
      ∧ (s.permitted 2 slot = true → Acks (.keyReplace r slot) s r KEY_NS_CMD.win [] (fun t =>
        t.key.run = s.key.run ++ [⟨2, slot, r.master, none⟩] ∧ Tab.look t.key.nsRes r.master = some 0 ∧ s.onlyChanges t [.key, .out]))
      ∧ (s.permitted 3 slot = true → Acks (.keyDestroy r slot) s r KEY_NS_CMD.win [] (fun t =>
        t.key.run = s.key.run ++ [⟨3, slot, r.master, none⟩] ∧ Tab.look t.key.nsRes r.master = some 0 ∧ s.onlyChanges t [.key, .out]))
      ∧ (s.permitted 3 slot = false → Acks (.keyDestroy r slot) s r KEY_NS_CMD.win [] (fun t =>
        t.key.run = s.key.run ∧ Tab.look t.key.nsRes r.master = some (3 * 2 ^ 30)
        ∧ t.evt.inbox = s.evt.inbox ++ [⟨49, 5, [0x08, r.master], none, 0, s.time⟩] ∧ s.onlyChanges t [.key, .evt, .out])))
  ∧ (∀ (s : State) (r : Req), s.grants r (KEY_NS_CMD.key 0 0) true → s.permitted 4 0 = true →
      Acks (.keyCryptoEraseAll r) s r KEY_NS_CMD.win [] (fun t => t.nv = { s.nv with mediaEpoch := s.nv.mediaEpoch + 1 }
        ∧ t.key.eraseAll = some r.master ∧ Tab.look t.key.nsRes r.master = some 0
        ∧ t.evt.inbox = s.evt.inbox ++ [⟨716, 2, w64 (s.nv.mediaEpoch + 1), none, 0, s.time⟩] ∧ s.onlyChanges t [.nv, .key, .evt, .out]))
  ∧ (∀ (s : State) (x : KeyRun) (l : List KeyRun), s.key.run = x :: l → x.cmd = none → s.key.keyGen.reqs < 2 ^ 20 →
      (x.op = 3 → Completes .keyOperationDone s (fun t => t.key.run = l ∧ Tab.look t.nv.keys x.slot = none
        ∧ Tab.look t.key.nsRes x.master = some (2 ^ 30) ∧ s.onlyChanges t [.nv, .key, .out]))
      ∧ (x.op ≠ 3 → s.canMakeKeys = true → Completes .keyOperationDone s (fun t => t.key.run = l
        ∧ t.nv.keyRec x.slot = some ⟨leNat (slice (Config.drbg s.key.keyGen.seed (s.key.keyGen.reqs + 1) 64) 0 64), s.nv.mediaEpoch, true⟩
        ∧ t.key.keyGen.reqs = s.key.keyGen.reqs + 1 ∧ (∀ k, k ≠ x.slot → Tab.look t.nv.keys k = Tab.look s.nv.keys k)
        ∧ Tab.look t.key.nsRes x.master = some (2 ^ 30) ∧ s.onlyChanges t [.nv, .key, .evt, .out]))
      ∧ (x.op ≠ 3 → s.canMakeKeys = false → Completes .keyOperationDone s (fun t => t.key.run = l ∧ t.nv = s.nv
        ∧ Tab.look t.key.nsRes x.master = some (2 * 2 ^ 30) ∧ s.onlyChanges t [.key, .evt, .out])))
  ∧ (∀ (s : State) (m : Nat), s.key.eraseAll = some m → s.canMakeKeys = true →
      Completes .keyEraseAllComplete s (fun t => t.key.eraseAll = none ∧ Tab.look t.key.nsRes m = some (2 ^ 30)
        ∧ (∀ k ∈ s.oldKeys, ∃ y, t.nv.keyRec k = some y ∧ y.epoch = s.nv.mediaEpoch)
        ∧ (∃ y, t.nv.keyRec 8192 = some y ∧ y.epoch = s.nv.mediaEpoch) ∧ s.onlyChanges t [.nv, .key, .freeCtr, .out]))
  ∧ (∀ (s : State) (r : Req), s.grants r (KEY_RNG_DATA.key 0 0) false →
      (s.rngOk = true → s.key.general.reqs < 2 ^ 20 →
        Acks (.keyRngDataRead r) s r KEY_RNG_DATA.win (leBytes 4 (leNat (slice (Config.drbg s.key.general.seed (s.key.general.reqs + 1) 4) 0 4)))
          (fun t => t.key = { s.key with general := ⟨s.key.general.seed, s.key.general.reqs + 1⟩ } ∧ s.onlyChanges t [.key, .out]))
      ∧ (s.rngOk = true → 2 ^ 20 ≤ s.key.general.reqs →
        Acks (.keyRngDataRead r) s r KEY_RNG_DATA.win (leBytes 4 (leNat (slice (Config.drbg s.freeCtr 1 4) 0 4)))
          (fun t => t.key = { s.key with general := ⟨s.freeCtr, 1⟩ } ∧ t.freeCtr = s.freeCtr + 1 ∧ s.onlyChanges t [.key, .freeCtr, .out]))
      ∧ (s.rngOk = false → Acks (.keyRngDataRead r) s r KEY_RNG_DATA.win (leBytes 4 0) (fun t => s.onlyChanges t [.out])))
  ∧ (∀ (s : State) (b : Bool) (raw : List Bool), healthCause b raw = none → Completes (.keyRngHealthFail ⟨b, raw⟩) s (fun t => t = s.fresh))
  ∧ (∀ (s : State) (b : Bool) (raw : List Bool) (cause : Nat), healthCause b raw = some cause → 1 ≤ cause ∧ cause ≤ 3 ∧
      Completes (.keyRngHealthFail ⟨b, raw⟩) s (fun t => t.fld KEY_RNG_STAT_ES_OK = 0 ∧ t.rngOk = false ∧ t.fld KEY_RNG_STAT_FAIL = cause
        ∧ t.evt.inbox = s.evt.inbox ++ [⟨715, cause, [], none, 0, s.time⟩]
        ∧ s.regsBut t [KEY_RNG_STAT_FAIL.reg.key 0 0] ∧ s.onlyChanges t [.regs, .key, .evt, .out]))

/-- Set Features sets the pod's own value, Get Features gives it, and what is not supported fails by name. Each Set Features command that the
pod may send and that names no saved value sets the feature in the pod's own controller, or fails where Table 10.20 says so (a power state
other than PS0, WCE 0, a reserved queue count), and completes; it changes nothing but the host interface. SET_TIMESTAMP moves device time
forward, or holds an offset where the host's value lies behind. GET_FEATURES gives the current value. An unlisted feature identifier fails
with Invalid Field in Command, and SV set with Feature Identifier Not Saveable (the status values are PRESUMED, log entry 7). -/
def Obligations.FeatureCommandsComplete : Prop :=
  (∀ (s : State) (c : HostCmd), s.admits c ⟨false, true, false, false⟩ → bit c.cdw10 31 = false →
      Completes (.setArbitration c) s (fun t => s.posts t c 0 0 false 0 ∧ (t.ctrl c.pod).arb = c.cdw11 - bits c.cdw11 7 3 * 8
        ∧ s.onlyChanges t [.host, .hsk, .regs, .out])
      ∧ Completes (.setPowerManagement c) s (fun t =>
        (c.cdw11 % 32 = 0 → s.posts t c 0 0 false 0) ∧ (c.cdw11 % 32 ≠ 0 → s.posts t c 0 0x02 true 0))
      ∧ (bits c.cdw11 19 16 ≤ 8 → bits c.cdw11 21 20 = 0 →
          Completes (.setTemperatureThreshold c) s (fun t => s.posts t c 0 0 false 0
            ∧ (t.ctrl c.pod).threshold (bits c.cdw11 19 16) 0 = c.cdw11 % 2 ^ 16 ∧ s.onlyChanges t [.host, .hsk, .regs, .out]))
      ∧ (bits c.cdw11 19 16 ≤ 8 → bits c.cdw11 21 20 = 1 →
          Completes (.setTemperatureThreshold c) s (fun t => s.posts t c 0 0 false 0
            ∧ (t.ctrl c.pod).threshold (bits c.cdw11 19 16) 1 = c.cdw11 % 2 ^ 16 ∧ s.onlyChanges t [.host, .hsk, .regs, .out]))
      ∧ Completes (.setVolatileWriteCache c) s (fun t =>
        (c.cdw11 % 2 = 1 → s.posts t c 0 0 false 0) ∧ (c.cdw11 % 2 = 0 → s.posts t c 1 0x0E true 0))
      ∧ (c.cdw11 % 2 ^ 16 ≠ 0xFFFF → c.cdw11 / 2 ^ 16 ≠ 0xFFFF →
          Completes (.setNumberOfQueues c) s (fun t => s.posts t c 0 0 false (t.queuesWord c.pod)
            ∧ (∀ e, Tab.look s.pod.pods c.pod = some e → (t.ctrl c.pod).numQ
                = min (c.cdw11 % 2 ^ 16 + 1) e.ioq + min (c.cdw11 / 2 ^ 16 + 1) e.ioq * 2 ^ 16)
            ∧ s.onlyChanges t [.host, .hsk, .regs, .out]))
      ∧ Completes (.setInterruptCoalescing c) s (fun t => s.posts t c 0 0 false 0 ∧ (t.ctrl c.pod).coal = c.cdw11 % 2 ^ 16
        ∧ s.onlyChanges t [.host, .hsk, .regs, .out])
      ∧ (c.cdw11 % 2 ^ 16 < s.vectors c.pod →
          Completes (.setInterruptVectorConfig c) s (fun t => s.posts t c 0 0 false 0
            ∧ Tab.look (t.ctrl c.pod).vecCfg (c.cdw11 % 2 ^ 16) = some (c.cdw11 % 2 ^ 17) ∧ s.onlyChanges t [.host, .hsk, .regs, .out]))
      ∧ Completes (.setWriteAtomicity c) s (fun t =>
        (c.cdw11 % 2 = 0 → s.posts t c 0 0 false 0) ∧ (c.cdw11 % 2 = 1 → s.posts t c 0 0x02 true 0))
      ∧ Completes (.setAsyncEventConfig c) s (fun t => s.posts t c 0 0 false 0 ∧ (t.ctrl c.pod).asyncCfg = c.cdw11
        ∧ s.onlyChanges t [.host, .hsk, .regs, .out]))
  ∧ (∀ (s : State) (c : HostCmd), s.admits c anyPod → bit c.cdw10 31 = false → c.pod = 0 → c.xfer = .ok →
      Completes (.setTimestamp c) s (fun t => s.posts t c 0 0 false 0
        ∧ (s.time < leAt c.data 0 6 * 1000000 → t.time = leAt c.data 0 6 * 1000000 ∧ t.host.tsOffset = 0)
        ∧ (leAt c.data 0 6 * 1000000 ≤ s.time → t.time = s.time ∧ t.timestamp = leAt c.data 0 6)
        ∧ s.onlyChanges t [.time, .host, .hsk, .regs, .evt, .out]))
  ∧ (∀ (s : State) (c : HostCmd), s.admits c anyPod → featureIds.contains (c.cdw10 % 256) = true → bits c.cdw10 10 8 = 0 →
      (c.cdw10 % 256 = 0x04 → bits c.cdw11 19 16 ≤ 8 ∧ bits c.cdw11 21 20 ≤ 1) →
      (c.cdw10 % 256 ≠ 0x0E → Completes (.getFeatures c) s (fun t =>
        s.posts t c 0 0 false (s.feature c.pod (c.cdw10 % 256) c.cdw11) ∧ s.onlyChanges t [.host, .hsk, .regs, .out]))
      ∧ (c.cdw10 % 256 = 0x0E → c.xfer = .ok → Completes (.getFeatures c) s (fun t =>
        s.posts t c 0 0 false 0 ∧ (∃ o : Nat, t.out = [.host c.pod c.qid c.cid (leBytes 6 s.timestamp ++ leBytes 1 o ++ [0#8])])
        ∧ s.onlyChanges t [.host, .hsk, .regs, .freeCtr, .out])))
  ∧ (∀ (s : State) (c : HostCmd), s.admits c ⟨false, true, false, false⟩ →
      (featureIds.contains (c.cdw10 % 256) = false →
        Completes (.featureIdentifierInvalid c) s (fun t => s.posts t c 0 0x02 true 0 ∧ t.host.ns = s.host.ns))
      ∧ (featureIds.contains (c.cdw10 % 256) = true → bit c.cdw10 31 = true →
        Completes (.featureIdentifierInvalid c) s (fun t => s.posts t c 1 0x0D true 0 ∧ t.host.ns = s.host.ns)))

/-- Get Log Page gives the part of the page asked for, Identify the structure asked for, and unlisted pages and opcodes fail. For every page of
Table 10.19 (Device Self-test, Sanitize Status and Ledger Status for pod 0 alone) a request of at most 2 MiB whose offset lies in the page
gives the page's bytes from the offset on and completes; bytes past the page's end are free (log entry 52). A telemetry request with bit 8
set captures new data and raises the generation number; with bit 15 clear it lets the pod's notices go again. Identify gives the controller,
the pod's list of active namespaces, and a namespace's structure, zeros where it is not attached to the pod. An unlisted log page fails with
Invalid Log Page, and an opcode that is not supported with Invalid Command Opcode (status values are PRESUMED, log entry 7). -/
def Obligations.LogPagesAndIdentifyAnswer : Prop :=
  (∀ (s : State) (c : HostCmd) (i : Instr) (page : State → List Byte × State),
      (i, page) ∈ [(Instr.logErrorInformation c, fun u : State => u.errorLog c.pod), (.logSmartHealth c, fun u => u.smartLog c.pod),
        (.logFirmwareSlot c, State.firmwareLog), (.logCommandsSupported c, State.effectsLog), (.logDeviceSelfTest c, State.selfTestLog),
        (.logTelemetryHostInitiated c, fun u => u.telemetryLog c), (.logSanitizeStatus c, State.sanitizeLog),
        (.logLedgerStatus c, fun u => (u.ledgerStatus, u)), (.logIdentity c, fun u => (u.identityLog, u))] →
      s.admits c anyPod → c.xfer = .ok → (i ∈ [Instr.logDeviceSelfTest c, .logSanitizeStatus c, .logLedgerStatus c] → c.pod = 0) →
      let size := 4 * (c.cdw10 / 2 ^ 16 + c.cdw11 % 2 ^ 16 * 2 ^ 16 + 1)
      let off := c.cdw12 + c.cdw13 * 2 ^ 32
      let p := page (s.begunBy c)
      size ≤ 2097152 → off ≤ p.1.length →
      Completes i s (fun t => s.posts t c 0 0 false 0
        ∧ (∃ rest, t.out = [.host c.pod c.qid c.cid ((p.1.drop off).take size ++ rest)] ∧ ((p.1.drop off).take size ++ rest).length = size)
        ∧ p.2.onlyChanges t [.host, .hsk, .freeCtr, .out]
        ∧ (i ≠ .logTelemetryHostInitiated c → s.onlyChanges t [.host, .hsk, .regs, .freeCtr, .out])
        ∧ (i = .logTelemetryHostInitiated c → s.onlyChanges t [.host, .hsk, .regs, .freeCtr, .out, .recd, .evt]
            ∧ (bit c.cdw10 8 = true → t.recd.telGen = (s.recd.telGen + 1) % 256
                ∧ Tab.look t.recd.tel c.pod = some ((s.begunBy c).capture c.pod))
            ∧ (bit c.cdw10 15 = false → c.pod ∉ t.evt.noticed))))
  ∧ (∀ (s : State) (c : HostCmd), s.admits c anyPod → c.xfer = .ok →
      (c.cdw10 % 256 = 0x01 → Completes (.identify c) s (fun t => s.posts t c 0 0 false 0
        ∧ t.out = [.host c.pod c.qid c.cid ((s.begunBy c).identifyCtrl c.pod).1] ∧ s.onlyChanges t [.host, .hsk, .regs, .freeCtr, .out]))
      ∧ (c.cdw10 % 256 = 0x02 → Completes (.identify c) s (fun t => s.posts t c 0 0 false 0
        ∧ t.out = [.host c.pod c.qid c.cid (idList ((s.begunBy c).nsList c.pod c.nsid false))]
        ∧ s.onlyChanges t [.host, .hsk, .regs, .out]))
      ∧ (c.cdw10 % 256 = 0x00 → (∀ n, s.nsOf c.nsid = some n → c.pod ∉ n.pods) →
        Completes (.identify c) s (fun t => s.posts t c 0 0 false 0 ∧ t.out = [.host c.pod c.qid c.cid (List.replicate 4096 0#8)]
          ∧ s.onlyChanges t [.host, .hsk, .regs, .out]))
      ∧ (∀ n : Ns, c.cdw10 % 256 = 0x00 → s.safe = false → s.hostSees c.nsid = true → s.nsOf c.nsid = some n → c.pod ∈ n.pods →
        Completes (.identify c) s (fun t => s.posts t c 0 0 false 0
          ∧ t.out = [.host c.pod c.qid c.cid ((s.begunBy c).identifyNs n).1] ∧ s.onlyChanges t [.host, .hsk, .regs, .freeCtr, .out])))
  ∧ (∀ (s : State) (c : HostCmd), s.admits c anyPod → c.cdw10 % 256 ∉ [0x01, 0x02, 0x03, 0x05, 0x06, 0x07, 0x81, 0xC2, 0xC3] →
      Completes (.invalidLogPage c) s (fun t => s.posts t c 1 0x09 true 0 ∧ s.onlyChanges t [.host, .hsk, .ftl, .pod, .regs, .out]))
  ∧ (∀ (s : State) (c : HostCmd), s.takes c = true →
      s.host.cqes.all (fun x => !(x.pod = c.pod && x.qid = c.qid && x.cid = c.cid)) = true →
      Completes (.invalidCommandOpcode false c) s (fun t => s.posts t c 0 0x01 true 0
        ∧ s.onlyChanges t [.host, .hsk, .ftl, .pod, .regs, .out]))
  ∧ (∀ (s : State) (c : HostCmd), Completes (.invalidCommandOpcode true c) s (fun t => t.out = [.mi 3 []] ∧ s.onlyChanges t [.out]))

/-- Links, doorbells, fetch, queue creation and deletion, Abort, event requests and the end of a Flush have the effect of chapter 10. LINK_UP of
a port that is on shows speed, width, FLIT and preset, LINK_UP below the configured speed or width raises PCIE_LINK, and a link that was up
counts a retraining. LINK_DOWN clears the status, and every pod bound to the port shows CFS and is fetched from no more. An ATS invalidation
is answered. A doorbell with a value in range moves the queue's tail or head alone, and one that names no queue or moves too far is
discarded with its event. COMMAND_FETCH takes the next entry of the queue that the deficit rotation and the pod's arbitration choose, and
charges its cost. Queue creation checks in the order of the spec and enters the queue; deletion removes it. ABORT of an unstarted command
ends it with Abort Requested and completes with dword 0 of 0; of an unknown one with 1. An Asynchronous Event Request is held. A Flush whose
writes are all durable completes. -/
def Obligations.HostLinkAndQueueCommandsComplete : Prop :=
  (∀ (s : State) (p speed width preset loss refl : Nat) (flit : Bool), s.portOn p = true → p < 2 → s.boot.modReady = true → p ∉ s.boot.perst →
      speed < 8 → width < 32 → preset < 16 →
      Completes (.linkUp p speed width flit preset loss refl) s (fun t => ∃ v : State, t = v.estimate p speed loss refl
        ∧ v.fld HIF_LINK_STAT_STATE p = 2 ∧ v.fld HIF_LINK_STAT_SPEED p = speed ∧ v.fld HIF_LINK_STAT_WIDTH p = width
        ∧ v.fld HIF_LINK_STAT_FLIT p = b2n flit ∧ v.fld HIF_LINK_STAT_PRESET p = preset
        ∧ v.evt.inbox = s.evt.inbox ++ (if speed < s.fld HIF_PORT_CFG_MAX_SPEED ∨ width < s.portWidth then
            [⟨560, 1, [p], none, 0, s.time⟩] else [])
        ∧ s.onlyChanges v [.regs, .evt, .out]))
  ∧ (∀ (s : State) (p : Nat), p < 2 → s.fld HIF_LINK_STAT_STATE p = 2 →
      Completes (.linkDown p) s (fun t => t.fld HIF_LINK_STAT_STATE p = 0 ∧ t.fld HIF_LINK_STAT_SPEED p = 0 ∧ t.fld HIF_LINK_STAT_WIDTH p = 0
        ∧ t.evt.inbox = s.evt.inbox ++ [⟨560, 2, [p], none, 0, s.time⟩]
        ∧ (∀ q ∈ s.boundTo p, (t.ctrl q).cfs = true ∧ q ∈ t.host.stopped ∧ (t.host.cqes.any (fun x => x.pod = q)) = false)
        ∧ t.nv = s.nv ∧ t.mem = s.mem))
  ∧ (∀ (s : State) (p tag : Nat), Completes (.atsInvalidate p tag) s (fun t => t.out = [.ats p tag] ∧ s.onlyChanges t [.out]))
  ∧ (∀ (s : State) (p q v : Nat), s.windowOpen p = true →
      (∀ x : Sq, (s.ctrl p).sq q = some x → v < x.size → (v + x.size - x.tail) % x.size ≤ (x.head + x.size - 1 - x.tail) % x.size →
        Completes (.sqTailDoorbell p q v) s (fun t => (t.ctrl p).sq q = some { x with tail := v }
          ∧ (∀ k, k ≠ q → (t.ctrl p).sq k = (s.ctrl p).sq k) ∧ s.onlyChanges t [.host, .out]))
      ∧ (∀ x : Cq, Tab.look (s.ctrl p).cqs q = some x → v < x.size → (v + x.size - x.head) % x.size ≤ (x.tail + x.size - x.head) % x.size →
        Completes (.cqHeadDoorbell p q v) s (fun t => Tab.look (t.ctrl p).cqs q = some { x with head := v }
          ∧ (∀ k, k ≠ q → Tab.look (t.ctrl p).cqs k = Tab.look (s.ctrl p).cqs k) ∧ s.onlyChanges t [.host, .out]))
      ∧ ((s.ctrl p).sq q = none → Completes (.sqTailDoorbell p q v) s (fun t =>
          t.evt.inbox = s.evt.inbox ++ [⟨561, 1, [p, q], some p, 0, s.time⟩] ∧ (t.ctrl p).sqs = (s.ctrl p).sqs))
      ∧ (Tab.look (s.ctrl p).cqs q = none → Completes (.cqHeadDoorbell p q v) s (fun t =>
          t.evt.inbox = s.evt.inbox ++ [⟨561, 1, [p, q], some p, 0, s.time⟩] ∧ (t.ctrl p).cqs = (s.ctrl p).cqs)))
  ∧ (∀ (s : State) (p cid bytes q last : Nat) (pods : Tab Pod) (d : Tab Int),
      rotate 0 8 s.fetchable 100000 s.pod.pods (Tab.keep (fun p _ => s.fetchable.contains p) s.host.deficit) s.host.lastPod
        = (some p, pods, d, last) →
      ((s.ctrl p).pick (s.readyQueues p)).1 = some q →
      Completes (.commandFetch cid bytes true) s (fun t =>
        (∃ o, t.outCmd ⟨p, q, cid⟩ = some o ∧ o.stage = .fetched ∧ o.held = none ∧ o.io = none)
        ∧ (t.ctrl p).sqs = Tab.upd (s.ctrl p).sqs q (fun y => { y with head := (y.head + 1) % y.size })
        ∧ Tab.lookD t.host.deficit p 0 = Tab.lookD d p 0 - ((1 + ceilDiv bytes 4096 : Nat) : Int) ∧ t.host.lastPod = last
        ∧ s.onlyChanges t [.host, .pod, .regs, .out]))
  ∧ (∀ (s : State) (c : HostCmd), s.admits c anyPod → s.safe = false → c.cdw10 % 2 ^ 16 ≠ 0 → 1 ≤ c.cdw10 / 2 ^ 16 → c.cdw10 / 2 ^ 16 < 16384 →
      bit c.cdw11 0 = true →
      (c.cdw10 % 2 ^ 16 ≤ s.queueLimit c.pod 1 → Tab.has (s.ctrl c.pod).cqs (c.cdw10 % 2 ^ 16) = false → c.cdw11 / 2 ^ 16 < s.vectors c.pod →
        Completes (.createIoCq c) s (fun t => s.posts t c 0 0 false 0
          ∧ Tab.look (t.ctrl c.pod).cqs (c.cdw10 % 2 ^ 16)
              = some ⟨c.cdw10 / 2 ^ 16 + 1, leAt c.data 0 8, c.cdw11 / 2 ^ 16, bit c.cdw11 1, 0, 0, true⟩
          ∧ s.onlyChanges t [.host, .hsk, .regs, .out]))
      ∧ (c.cdw10 % 2 ^ 16 ≤ s.queueLimit c.pod 0 → (s.ctrl c.pod).sq (c.cdw10 % 2 ^ 16) = none → c.cdw11 / 2 ^ 16 ≠ 0 →
        Tab.has (s.ctrl c.pod).cqs (c.cdw11 / 2 ^ 16) = true → (bits c.cdw11 2 1 = 0 → s.permit c.pod 0 = true) →
        Completes (.createIoSq c) s (fun t => s.posts t c 0 0 false 0
          ∧ (t.ctrl c.pod).sq (c.cdw10 % 2 ^ 16)
              = some ⟨c.cdw10 / 2 ^ 16 + 1, leAt c.data 0 8, c.cdw11 / 2 ^ 16, bits c.cdw11 2 1, 0, 0⟩
          ∧ s.onlyChanges t [.host, .hsk, .regs, .out])))
  ∧ (∀ (s : State) (c : HostCmd), s.admits c ⟨false, true, false, false⟩ → c.cdw10 % 2 ^ 16 ≠ 0 →
      (Tab.has (s.ctrl c.pod).sqs (c.cdw10 % 2 ^ 16) = true → (s.host.out.any (fun o => o.pod = c.pod && o.qid = c.cdw10 % 2 ^ 16)) = false →
        Completes (.deleteIoSq c) s (fun t => s.posts t c 0 0 false 0
          ∧ (t.ctrl c.pod).sqs = Tab.del (s.ctrl c.pod).sqs (c.cdw10 % 2 ^ 16) ∧ s.onlyChanges t [.host, .hsk, .regs, .out]))
      ∧ (Tab.has (s.ctrl c.pod).cqs (c.cdw10 % 2 ^ 16) = true → ((s.ctrl c.pod).sqs.any (fun kv => kv.2.cqid = c.cdw10 % 2 ^ 16)) = false →
        Completes (.deleteIoCq c) s (fun t => s.posts t c 0 0 false 0
          ∧ (t.ctrl c.pod).cqs = Tab.del (s.ctrl c.pod).cqs (c.cdw10 % 2 ^ 16) ∧ s.onlyChanges t [.host, .hsk, .regs, .out])))
  ∧ (∀ (s : State) (c : HostCmd), s.admits c ⟨false, true, false, false⟩ →
      (s.host.out.filter (fun o => o.pod = c.pod && o.abort)).length < 8 → HostCmdRef c ≠ ⟨c.pod, c.cdw10 % 2 ^ 16, c.cdw10 / 2 ^ 16⟩ →
      (s.outCmd ⟨c.pod, c.cdw10 % 2 ^ 16, c.cdw10 / 2 ^ 16⟩ = none → Completes (.abort c) s (fun t => s.posts t c 0 0 false 1
        ∧ s.onlyChanges t [.host, .hsk, .regs, .out]))
      ∧ (∀ o, s.outCmd ⟨c.pod, c.cdw10 % 2 ^ 16, c.cdw10 / 2 ^ 16⟩ = some o → o.stage = .fetched → o.mute = false →
        (s.host.cqes.any (fun x => x.pod = c.pod && x.qid = c.cdw10 % 2 ^ 16 && x.cid = c.cdw10 / 2 ^ 16)) = false →
        Completes (.abort c) s (fun t => s.posts t c 0 0 false 0
          ∧ ⟨c.pod, o.cqid, c.cdw10 % 2 ^ 16, c.cdw10 / 2 ^ 16, 0, 0x07, false, 0⟩ ∈ t.host.cqes
          ∧ s.onlyChanges t [.host, .hsk, .ftl, .pod, .regs, .out])))
  ∧ (∀ (s : State) (c : HostCmd), s.admits c ⟨false, true, false, false⟩ → (s.ctrl c.pod).aers.length < 16 → (s.ctrl c.pod).pendingEv = [] →
      Completes (.asyncEventRequest c) s (fun t => (t.ctrl c.pod).aers = (s.ctrl c.pod).aers ++ [c.cid] ∧ t.host.cqes = s.host.cqes
        ∧ s.onlyChanges t [.host, .regs, .out]))
  ∧ (∀ (s : State) (f : FlushWait), s.host.flushes.find? (fun f => s.flushed f) = some f →
      (∀ c, f.cmd = some c → Completes .nvmFlushComplete s (fun t => ∃ v : State, t = v.endCmd c 0 0 false 0
        ∧ v.host = { s.host with flushes := s.host.flushes.erase f } ∧ s.onlyChanges v [.host, .out]))
      ∧ (f.cmd = none → (s.ctrl f.pod).shst = 1 → Completes .nvmFlushComplete s (fun t => (t.ctrl f.pod).shst = 2
        ∧ t.host.flushes = s.host.flushes.erase f ∧ s.onlyChanges t [.host, .out])))

/-- A namespace is entered with its key asked for, quiesced before it is deleted, formatted or released, and attached by its list.
NAMESPACE_CREATE of a form that is in range and fits enters the lowest free namespace, not yet ready, with a fresh NGUID (log entry 65), and
asks the key engine for its key. NAMESPACE_DELETE and FORMAT_NVM set the namespace's status, enter the operation and go on as soon as the
namespace is quiet; a format with SES 1 or 2 replaces the key. SPREAD_RELEASE on the home does so too. Neither quiescing touches the
nonvolatile records, keys, OTP or ledger. NAMESPACE_ATTACH and NAMESPACE_DETACH of a list that passes every check change the namespace's
pods by the list, count them at each pod, and change nothing else but the host interface. COMPLETION_POST of a queue with room writes the
completion with the queue's phase, advances its tail and ends the command. -/
def Obligations.NamespaceCommandsComplete : Prop :=
  (∀ (s : State) (c : HostCmd) (f : NsForm) (i : Nat), s.admits c pod0Media → c.xfer = .ok → nsForm c.data = .inr (.inr f) → f.spread = false →
      Tab.lowestFree (s.host.ns.map (fun kv => (kv.1 - 1, kv.2))) 8192 = some i → Tab.has s.nv.keys i = false → s.key.general.reqs < 2 ^ 20 →
      let g : Drbg := ⟨s.key.general.seed, s.key.general.reqs + 1⟩
      let n : Ns := ⟨leAt c.data 0 8, f.format, f.dps, f.extended, f.coarse, leNat (slice (Config.drbg g.seed g.reqs 16) 0 16), f.shared, false, 0,
        [], 1, false⟩
      ({ s.begunBy c with key := { s.key with general := g } } : State).mapFits (i + 1) n = true →
      Completes (.namespaceCreate c) s (fun t => Tab.look t.host.ns (i + 1) = some n
        ∧ ⟨0, HostCmdRef c, i + 1, f.format, f.dps, f.extended, false, 1⟩ ∈ t.host.nsOps
        ∧ t.key.run = s.key.run ++ [⟨1, i, 0, some (HostCmdRef c)⟩] ∧ t.key.general = g
        ∧ (∀ k, k ≠ i + 1 → Tab.look t.host.ns k = Tab.look s.host.ns k)
        ∧ s.onlyChanges t [.host, .regs, .key, .out]))
  ∧ (∀ (s : State) (c : HostCmd) (n : Ns), s.admits c pod0Media → c.nsid ≠ 0xFFFFFFFF → s.nsNamed c.nsid = some n →
      (s.host.nsOps.any (fun o => o.nsid = c.nsid)) = false →
      Completes (.namespaceDelete c) s (fun t => ∃ v : State, t = v.nsGo
        ∧ Tab.look v.host.ns c.nsid = some { n with status := 4 }
        ∧ ⟨1, HostCmdRef c, c.nsid, 0, 0, false, false, 0⟩ ∈ v.host.nsOps
        ∧ v.nv = s.nv ∧ v.key = s.key ∧ v.otp = s.otp ∧ v.ldg = s.ldg))
  ∧ (∀ (s : State) (c : HostCmd) (n : Ns) (i : Instr) (ses : Nat),
      (i, ses) ∈ [(Instr.formatNvmNoSes c, 0), (.formatNvmUserErase c, 1), (.formatNvmCryptoErase c, 2)] →
      let format := c.cdw10 % 16 + bits c.cdw10 13 12 * 16
      s.admits c ⟨false, true, true, true⟩ → (c.pod = 0 ∨ s.permit c.pod 1 = true) → s.nsNamed c.nsid = some n → c.pod ∈ n.pods →
      (s.host.nsOps.any (fun o => o.nsid = c.nsid)) = false → c.cdw10 < 16384 → format ≤ 5 → bits c.cdw10 7 5 ∈ [0, 1, 3] →
      (bits c.cdw10 7 5 ≠ 0 → mdBytes format ≠ 0) → n.spread = false →
      (s.begunBy c).mapFits c.nsid { n with format := format, size := n.size * lbaBytes n.format / lbaBytes format } = true →
      Completes i s (fun t => ∃ v : State, t = v.nsGo
        ∧ Tab.look v.host.ns c.nsid = some { n with status := 3 }
        ∧ ⟨2, HostCmdRef c, c.nsid, format, bits c.cdw10 7 5 + bits c.cdw10 8 8 * 8, bit c.cdw10 4, decide (ses ≠ 0), 0⟩ ∈ v.host.nsOps
        ∧ v.host.selfTest.run = none ∧ v.nv = s.nv ∧ v.key = s.key ∧ v.otp = s.otp ∧ v.ldg = s.ldg))
  ∧ (∀ (s : State) (c : HostCmd) (x : Spread) (nsid : Nat), s.admits c ⟨true, true, true, true⟩ → Config.askPorts s.part ≠ 0 → c.xfer = .ok →
      leAt c.data 16 1 = 2 → leAt c.data 17 1 = 0 → leAt c.data 18 4 = 0 → allZero (slice c.data 22 10) = true →
      s.ask.spreads.find? (fun kv => kv.2.nguid = slice c.data 0 16) = some (nsid, x) → s.isHome x = true →
      (s.host.nsOps.any (fun o => o.nsid = nsid)) = false →
      Completes (.spreadRelease c) s (fun t => ∃ v : State, t = v.nsGo
        ∧ ⟨3, HostCmdRef c, nsid, 0, 0, false, false, 0⟩ ∈ v.host.nsOps ∧ v.nv = s.nv ∧ v.key = s.key ∧ v.otp = s.otp ∧ v.ldg = s.ldg))
  ∧ (∀ (s : State) (c : HostCmd) (n : Ns), s.admits c ⟨true, true, false, false⟩ → c.xfer = .ok → s.nsNamed c.nsid = some n →
      ctrlIds c.data ≠ [] → (ctrlIds c.data).length ≤ 2047 →
      (n.spread = false → (ctrlIds c.data).findSome? (fun p => s.attachBad n (decide (1 < (ctrlIds c.data).length)) p) = none →
        Completes (.namespaceAttach c) s (fun t => s.posts t c 0 0 false 0
          ∧ Tab.look t.host.ns c.nsid = some { n with pods := podsOf (n.pods ++ ctrlIds c.data) }
          ∧ (∀ p e, p ∈ ctrlIds c.data → Tab.look t.pod.pods p = some e →
              e.ns = (t.host.ns.filter (fun kv => kv.2.pods.contains p)).length)
          ∧ s.onlyChanges t [.host, .hsk, .pod, .regs, .out]))
      ∧ ((∀ p ∈ ctrlIds c.data, s.podExists p = true ∧ p ∈ n.pods) →
        Completes (.namespaceDetach c) s (fun t => s.posts t c 0 0 false 0
          ∧ Tab.look t.host.ns c.nsid = some { n with pods := n.pods.filter (fun p => !(ctrlIds c.data).contains p) }
          ∧ (∀ p e, p ∈ ctrlIds c.data → Tab.look t.pod.pods p = some e →
              e.ns = (t.host.ns.filter (fun kv => kv.2.pods.contains p)).length)
          ∧ s.onlyChanges t [.host, .hsk, .pod, .regs, .out])))
  ∧ (∀ (s : State) (p q : Nat) (e : Cqe) (x : Cq) (pe : Pod), s.host.cqes.find? (fun e => e.pod = p && e.cqid = q) = some e →
      Tab.look (s.ctrl p).cqs q = some x → x.full = false → Tab.look s.pod.pods p = some pe → pe.bound = true → pe.state ≠ 4 →
      Completes (.completionPost p q true) s (fun t => ∃ v : State, t = v.nsGo
        ∧ (∃ l, v.out = .cqe p q e.qid e.cid e.sct e.sc e.dnr e.dw0 x.phase :: l)
        ∧ v.host.cqes = s.host.cqes.erase e
        ∧ (v.outCmd ⟨p, e.qid, e.cid⟩ = none)
        ∧ (Tab.look (v.ctrl p).cqs q).map Cq.tail = some ((x.tail + 1) % x.size)
        ∧ s.onlyChanges v [.host, .pod, .regs, .out]))

/-- One self-test runs at a time and heads the log when it ends; Sanitize enters phase 1 and its phases follow Table 6.12.
DEVICE_SELF_TEST_SHORT and EXTENDED start the one test; ABORT and the test's end put an entry at the head of the log of 20 results, raise
DEVICE_SELF_TEST and leave no test running. SANITIZE_BLOCK_ERASE and CRYPTO_ERASE from no sanitize or a failed one end the self-test and
every scan, write SANITIZE_STATE with phase 1, set FTL_STAT.STATE and complete. EXIT_FAILURE leaves the FAILED phase; OVERWRITE fails with
Invalid Field in Command. SANITIZE_PHASE_DONE: phase 1 empties write buffer, delta log and frames and starts the whole-device crypto erase;
phase 2 goes to 3 (Block Erase) or 4, or to FAILED when no key could be made; phase 3 ends once every block outside the archive is erased;
phase 4 leaves an empty map, no sanitize, and SANITIZE_RESULT success. -/
def Obligations.SelfTestAndSanitizeComplete : Prop :=
  (∀ (s : State) (c : HostCmd) (i : Instr) (stc : Nat), (i, stc) ∈ [(Instr.deviceSelfTestShort c, 1), (.deviceSelfTestExtended c, 2)] →
      s.admits c ⟨true, true, true, true⟩ →
      (s.host.selfTest.run = none → Completes i s (fun t => s.posts t c 0 0 false 0 ∧ t.host.selfTest = { s.host.selfTest with run := some stc }
        ∧ t.evt.inbox = s.evt.inbox ++ [⟨564, 1, [0, 0], none, 0, s.time⟩] ∧ s.onlyChanges t [.host, .hsk, .regs, .evt, .out]))
      ∧ (∀ k, s.host.selfTest.run = some k → Completes i s (fun t => s.posts t c 1 0x1D true 0 ∧ t.host.selfTest = s.host.selfTest)))
  ∧ (∀ (s : State) (c : HostCmd) (stc : Nat), s.admits c pod0Cmd → s.host.selfTest.run = some stc →
      Completes (.deviceSelfTestAbort c) s (fun t => s.posts t c 0 0 false 0
        ∧ t.host.selfTest = ⟨none, ((stc, 1, 0) :: s.host.selfTest.log).take 20⟩
        ∧ t.evt.inbox = s.evt.inbox ++ [⟨564, 4, [1, 0], none, 0, s.time⟩] ∧ s.onlyChanges t [.host, .hsk, .regs, .evt, .out]))
  ∧ (∀ (s : State) (seg stc : Nat), s.host.selfTest.run = some stc →
      Completes (.selfTestEnd seg) s (fun t =>
        t.host = { s.host with selfTest := ⟨none, ((stc, if seg = 0 then 0 else 7, seg) :: s.host.selfTest.log).take 20⟩ }
        ∧ t.evt.inbox = s.evt.inbox ++ [⟨564, if seg = 0 then 2 else 3, [if seg = 0 then 0 else 7, seg], none, 0, s.time⟩]
        ∧ s.onlyChanges t [.host, .evt, .out]))
  ∧ (∀ (s : State) (c : HostCmd) (i : Instr) (act : Nat), (i, act) ∈ [(Instr.sanitizeBlockErase c, 2), (.sanitizeCryptoErase c, 4)] →
      s.admits c ⟨true, true, true, false⟩ → s.nv.sanitize.phase ∈ [0, 5] → bit c.cdw10 9 = false → c.cdw10 < 1024 →
      Completes i s (fun t => ∃ v : State, t = v.succeed c ∧ v.host.selfTest.run = none
        ∧ v.nv = { s.nv with sanitize := ⟨act, 1, bit c.cdw10 3, 0, s.nv.sanitize.last⟩ }
        ∧ v.fld FTL_SAN_STAT_SANACT = act ∧ v.fld FTL_SAN_STAT_PHASE = 1 ∧ v.fld FTL_STAT_STATE = 6
        ∧ ⟨358, 1, [act, 1], none, 0, s.time⟩ ∈ v.evt.inbox))
  ∧ (∀ (s : State) (c : HostCmd), s.admits c ⟨true, true, false, false⟩ →
      (s.nv.sanitize.phase = 5 → Completes (.sanitizeExitFailure c) s (fun t => s.posts t c 0 0 false 0
        ∧ t.nv = { s.nv with sanitize := ⟨0, 0, false, s.nv.sanitize.failed, s.nv.sanitize.last⟩ }
        ∧ t.fld FTL_SAN_STAT_PHASE = 0 ∧ t.fld FTL_STAT_STATE = (if s.ftl.readOnly then 5 else 4)
        ∧ s.onlyChanges t [.host, .hsk, .nv, .regs, .freeCtr, .out]))
      ∧ (s.nv.sanitize.phase = 0 → Completes (.sanitizeExitFailure c) s (fun t => s.posts t c 0 0 false 0
        ∧ s.onlyChanges t [.host, .hsk, .regs, .out]))
      ∧ Completes (.sanitizeOverwrite c) s (fun t => s.posts t c 0 0x02 true 0
        ∧ s.onlyChanges t [.host, .hsk, .ftl, .pod, .regs, .out]))
  ∧ (∀ s : State,
      (s.nv.sanitize.phase = 1 → Completes .sanitizePhaseDone s (fun t =>
        t.nv.sanitize = { s.nv.sanitize with phase := 2 } ∧ t.nv.mediaEpoch = s.nv.mediaEpoch + 1 ∧ t.key.eraseAll = some 0
        ∧ t.nv.keys = s.nv.keys ∧ t.ftl.wbuf = [] ∧ t.ftl.delta = [] ∧ t.ftl.frames = [] ∧ t.ftl.map = s.ftl.map))
      ∧ (s.nv.sanitize.phase = 2 → s.key.eraseAll = none → (s.keyOf 8192).isSome = true → Completes .sanitizePhaseDone s (fun t =>
        t.nv = { s.nv with sanitize := { s.nv.sanitize with phase := if s.nv.sanitize.sanact = 2 then 3 else 4 } }
        ∧ s.onlyChanges t [.nv, .regs, .freeCtr, .out]))
      ∧ (s.nv.sanitize.phase = 2 → s.key.eraseAll = none → s.keyOf 8192 = none → Completes .sanitizePhaseDone s (fun t =>
        t.nv = { s.nv with sanitize := { s.nv.sanitize with phase := 5, last := 3 } }
        ∧ t.evt.inbox = s.evt.inbox ++ [⟨358, 4, [s.nv.sanitize.sanact, 5], none, 0, s.time⟩]
        ∧ s.onlyChanges t [.nv, .regs, .evt, .freeCtr, .out]))
      ∧ (s.nv.sanitize.phase = 3 → s.sanErased = true → Completes .sanitizePhaseDone s (fun t =>
        t.nv = { s.nv with sanitize := { s.nv.sanitize with phase := 4 } } ∧ s.onlyChanges t [.nv, .regs, .freeCtr, .out]))
      ∧ (s.nv.sanitize.phase = 4 → Completes .sanitizePhaseDone s (fun t =>
        t.nv.sanitize = ⟨0, 0, false, s.nv.sanitize.failed, 1⟩ ∧ t.fld FTL_SAN_STAT_PHASE = 0 ∧ t.ftl.map = [] ∧ t.ftl.dmap = []
        ∧ t.nv.rebuildCkpt = 0 ∧ t.fld FTL_STAT_STATE = (if s.ftl.readOnly then 5 else 4)
        ∧ ⟨358, 3, [s.nv.sanitize.sanact, 4], none, 0, s.time⟩ ∈ t.evt.inbox)))

/-- Downloads are staged, a commit verifies the image before it writes or names a slot, and activation without reset stops fetch first. A
download in 4 KiB multiples that overlaps none received stages its bytes. FIRMWARE_COMMIT of a slot from 1 to 4 that is not active checks
format, signature, signer and SVN in that order; a failed check writes nothing. REPLACE writes the staged image to the slot's place in the
NOR; REPLACE_ACTIVATE and ACTIVATE ask the ledger engine for an ACTIVATE entry with the lowest digest record that neither firmware word
names; ACTIVATE_NOW stops fetch and waits at step 3. Draining done, the same entry is asked for; the bound of step 3 exceeded, nothing is
committed and fetch runs again. CONFIG_IMAGE_COMMIT writes the copy not in use when the image passes every check, and else fails with the
first cause. (Which signatures verify is left open: Config.falconVerify.) -/
def Obligations.FirmwareCommandsComplete : Prop :=
  (∀ (s : State) (c : HostCmd), s.admits c ⟨true, false, false, true⟩ → c.xfer = .ok →
      (dlBad c 12582912 = false → dlOverlaps c s.host.fwRanges = false → Completes (.firmwareImageDownload c) s (fun t =>
        s.posts t c 0 0 false 0 ∧ t.host.fwStage = memWrite s.host.fwStage (dlOff c) (slice c.data 0 (dlSize c))
        ∧ t.host.fwRanges = s.host.fwRanges ++ [(dlOff c, dlSize c)] ∧ s.onlyChanges t [.host, .hsk, .regs, .out]))
      ∧ (dlBad c 8388608 = false → dlOverlaps c s.host.cfgRanges = false → Completes (.configImageDownload c) s (fun t =>
        s.posts t c 0 0 false 0 ∧ t.host.cfgStage = memWrite s.host.cfgStage (dlOff c) (slice c.data 0 (dlSize c))
        ∧ t.host.cfgRanges = s.host.cfgRanges ++ [(dlOff c, dlSize c)] ∧ s.onlyChanges t [.host, .hsk, .regs, .out])))
  ∧ (∀ (s : State) (c : HostCmd) (f : FwInfo), s.admits c ⟨true, false, false, true⟩ → 1 ≤ c.cdw10 % 8 → c.cdw10 % 8 ≤ 4 →
      c.cdw10 % 8 ≠ s.nv.fwActive.slot →
      let k := c.cdw10 % 8
      let asks := fun (t : State) (now : Bool) => ∃ x : AppendRun, t.ldg.run = some x ∧ x.entry.kind = 2
        ∧ x.why = .activate k s.nv.freeDrec f.svn f.digest (some (HostCmdRef c)) now ∧ t.nv.fwActive = s.nv.fwActive
        ∧ (s.nv.fwActive.slot ≠ 0 → s.nv.fwActive.drec ≠ s.nv.freeDrec) ∧ (s.nv.fwPrev.slot ≠ 0 → s.nv.fwPrev.drec ≠ s.nv.freeDrec)
      (fwInfo s.stagedFw = some f →
        Completes (.fwCommitReplace c) s (fun t =>
          (s.otp.fwSigned s.stagedFw f = false → s.posts t c 1 0x07 true 0 ∧ t.boot.nor = s.boot.nor)
          ∧ (s.otp.fwSigned s.stagedFw f = true → f.svn < s.nv.svnFloor → s.posts t c 1 0x13 true 0 ∧ t.boot.nor = s.boot.nor)
          ∧ (s.otp.fwSigned s.stagedFw f = true → s.nv.svnFloor ≤ f.svn → s.posts t c 0 0 false 0
              ∧ t.boot.nor = norWrite s.boot.nor (0x1000000 + (k - 1) * 0xC00000) (slice s.stagedFw 0 f.len)
              ∧ t.sgn.latch = some (f.digest, f.cls, f.slot) ∧ t.host.fwStage = [] ∧ t.nv = s.nv
              ∧ s.onlyChanges t [.boot, .host, .hsk, .sgn, .regs, .out])))
      ∧ (fwInfo s.stagedFw = some f → s.ldg.run = none → s.ringRoom ≠ 0 → s.otp.usable f.cls f.slot = true →
        Completes (.fwCommitReplaceActivate c) s (fun t =>
          (s.otp.fwSigned s.stagedFw f = false → s.posts t c 1 0x07 true 0 ∧ t.boot.nor = s.boot.nor)
          ∧ (s.otp.fwSigned s.stagedFw f = true → s.nv.svnFloor ≤ f.svn → asks t false
              ∧ t.boot.nor = norWrite s.boot.nor (0x1000000 + (k - 1) * 0xC00000) (slice s.stagedFw 0 f.len))))
      ∧ (fwInfo (s.norSlot k) = some f → s.ldg.run = none → s.ringRoom ≠ 0 → s.otp.usable f.cls f.slot = true →
        Completes (.fwCommitActivate c) s (fun t => t.boot.nor = s.boot.nor
          ∧ (s.otp.fwSigned (s.norSlot k) f = false → s.posts t c 1 0x07 true 0)
          ∧ (s.otp.fwSigned (s.norSlot k) f = true → s.nv.svnFloor ≤ f.svn → asks t false)))
      ∧ (fwInfo (s.norSlot k) = some f → s.safe = false → Completes (.fwCommitActivateNow c) s (fun t => t.boot = s.boot ∧ t.nv = s.nv
          ∧ (s.otp.fwSigned (s.norSlot k) f = false → s.posts t c 1 0x07 true 0 ∧ t.fld NVQ_FW_ACT_RESULT = 3
              ∧ t.evt.inbox = s.evt.inbox ++ [⟨563, 4, [k], none, 0, s.time⟩])
          ∧ (s.otp.fwSigned (s.norSlot k) f = true → s.nv.svnFloor ≤ f.svn → t.host.fwAct = some ⟨HostCmdRef c, k, 3, s.time⟩
              ∧ t.fld NVQ_STAT_FETCH_STOPPED = 1 ∧ t.ldg = { s.ldg with activateSvn := f.svn }
              ∧ t.evt.inbox = s.evt.inbox ++ [⟨563, 1, [k], none, 0, s.time⟩]
              ∧ s.onlyChanges t [.host, .sgn, .ldg, .regs, .evt, .out]))))
  ∧ (∀ (s : State) (a : FwAct), s.host.fwAct = some a → a.step = 3 →
      Completes .fwActivateTimeout s (fun t => ∃ v : State, t = v.scanGo.endCmd a.cmd 1 0x12 true 0 ∧ v.host = { s.host with fwAct := none }
        ∧ v.fld NVQ_FW_ACT_RESULT = 2 ∧ v.fld NVQ_STAT_FETCH_STOPPED = 0
        ∧ v.evt.inbox = s.evt.inbox ++ [⟨563, 3, [a.slot], none, 0, v.time⟩] ∧ v.time = max s.time (a.stopAt + 150000000)
        ∧ s.onlyChanges v [.host, .time, .regs, .evt, .out])
      ∧ (∀ d, s.host.out.any (fun o => s.fwWaits a o) = false → s.activateOk a.slot s.nv.freeDrec = some d → s.ringRoom ≠ 0 → s.ldg.run = none →
        Completes .fwActivateDrainDone s (fun t => t.host = { s.host with fwAct := some { a with step := 4 } }
          ∧ (∃ x : AppendRun, t.ldg.run = some x ∧ x.entry.kind = 2 ∧ x.why = .activate a.slot s.nv.freeDrec s.ldg.activateSvn d (some a.cmd) true)
          ∧ t.nv.fwActive = s.nv.fwActive)))
  ∧ (∀ (s : State) (c : HostCmd), s.admits c ⟨true, false, false, true⟩ →
      let copy := if s.fld CFG_BOOT_STAT_COPY = 1 then 2 else 1
      let head := stageBytes s.host.cfgStage 0 32
      let img := if slice head 0 4 = ascii "DYRN" ∧ imgLen head ≤ 8388608 then stageBytes s.host.cfgStage 0 (max 1840 (imgLen head)) else head
      Completes (.configImageCommit c) s (fun t => t.host.cfgStage = [] ∧ t.host.cfgRanges = []
        ∧ (s.imgCause img = none → s.posts t c 0 0 false 0
            ∧ t.boot = { s.boot with nor := norWrite s.boot.nor ((copy - 1) * 0x800000) (slice img 0 (imgLen head)) }
            ∧ t.evt.inbox = s.evt.inbox ++ [⟨566, 1, [copy, 0], none, 0, s.time⟩] ∧ s.onlyChanges t [.boot, .host, .hsk, .regs, .evt, .out])
        ∧ (∀ cause, s.imgCause img = some cause → s.posts t c 7 0x20 true cause ∧ t.boot = s.boot
            ∧ t.evt.inbox = s.evt.inbox ++ [⟨566, 2, [copy, cause], none, 0, s.time⟩])))

/-- While the device has its input, the NVMe-MI endpoint answers each command with what its rule names. MI_AEM_SEND sends the oldest waiting
record. The data structures, polls, configuration, event and series reads, boot status and nonce are answered with the data their rules
name; bytes the spec leaves open are free. MI_TOKEN_SUBMIT hands the token to the signing unit. DYNAMIC_ADDRESS_ASSIGNMENT takes a 7-bit
address in I3C mode. Response layouts are the family's (log entry 50). -/
def Obligations.ManagementInterfaceAnswers : Prop :=
  (∀ (s : State) (r : EvtRec) (l : List EvtRec), s.miUp = true → s.evt.miOn = true → s.evt.miQ = r :: l →
      Completes .miAemSend s (fun t => t.out = [.aem r.bytes] ∧ t.evt.miQ = l ∧ s.onlyChanges t [.evt, .out]))
  ∧ (∀ (s : State) (port ctrl : Nat), s.miUp = true →
      Completes (.miReadDataStructure 2 port ctrl) s (fun t =>
        t.out = [.mi 0 (leBytes 2 ((s.controllers.filter (fun p => ctrl ≤ p)).take 2047).length
          ++ ((s.controllers.filter (fun p => ctrl ≤ p)).take 2047).flatMap (fun p => leBytes 2 p))] ∧ s.onlyChanges t [.out])
      ∧ (∀ dtyp, dtyp = 0 ∨ (dtyp = 1 ∧ port ≤ 2) ∨ (dtyp = 3 ∧ (Tab.look s.pod.pods ctrl).isSome = true) →
          Completes (.miReadDataStructure dtyp port ctrl) s (fun t => (∃ d, t.out = [.mi 0 d]) ∧ s.onlyChanges t [.freeCtr, .out])))
  ∧ (∀ s : State, s.miUp = true →
      Completes .miSubsystemHealthPoll s (fun t => ∃ d, t.out = [.mi 0 d] ∧ d.length = 8
        ∧ leAt d 1 1 = 255 - s.critical 0 % 256 ∧ leAt d 2 1 = ofSigned 8 ((s.composite : Int) - 273) ∧ leAt d 3 1 = s.percentUsed % 256
        ∧ s.onlyChanges t [.freeCtr, .out]))
  ∧ (∀ (s : State) (p : Nat), s.miUp = true → Tab.has s.pod.pods p = true →
      Completes (.miControllerHealthPoll p) s (fun t => ∃ d, t.out = [.mi 0 d] ∧ d.length = 16
        ∧ leAt d 0 2 = p % 65536 ∧ leAt d 4 2 = s.composite % 65536 ∧ s.onlyChanges t [.freeCtr, .out]))
  ∧ (∀ (s : State) (v : Nat), s.miUp = true →
      (1 ≤ v → v ≤ 3 → Completes (.miConfigurationSet 1 v) s (fun t => t.evt.miFreq = v ∧ t.out = [.mi 0 []] ∧ s.onlyChanges t [.evt, .out]))
      ∧ (64 ≤ v → v < 65536 →
          Completes (.miConfigurationSet 3 v) s (fun t => t.evt.miMtu = v ∧ t.out = [.mi 0 []] ∧ s.onlyChanges t [.evt, .out]))
      ∧ (v < 2 → Completes (.miConfigurationSet 4 v) s (fun t =>
          (t.evt.miOn = true ↔ v = 1) ∧ t.out = [.mi 0 []] ∧ s.onlyChanges t [.evt, .out]))
      ∧ (∀ id, s.miConfig id = some v →
          Completes (.miConfigurationGet id) s (fun t => t.out = [.mi 0 (leBytes 3 v)] ∧ s.onlyChanges t [.out])))
  ∧ (∀ (s : State) (a b : NorRead), s.miUp = true → s.boot.pins.bscanEnN = true →
      Completes (.miReset a b) s (fun t => ∃ u : State, t = ((u.nsGo).domStart 1).start false a b
        ∧ u.mem = [] ∧ u.pod = State.reset.pod ∧ u.tsk = State.reset.tsk ∧ u.boot.modReady = false ∧ u.boot.fwRunning = false))
  ∧ (∀ (s : State) (seq n : Nat), s.miUp = true →
      Completes (.miEventRead seq n) s (fun t =>
        t.out = [.mi 0 ((s.ringFrom seq (min 64 n)).flatMap EvtRec.bytes)] ∧ s.onlyChanges t [.out]))
  ∧ (∀ (s : State) (k b : Nat), s.miUp = true → s.safe = false → k < 1024 →
      Completes (.miSeriesRead k 0) s (fun t => t.out = [.mi 0 ((s.live k).bytes k)] ∧ s.onlyChanges t [.out])
      ∧ (1 ≤ b → b ≤ 31 → Completes (.miSeriesRead k b) s (fun t =>
          t.out = [.mi 0 ((s.historyBlock (32 * k + (b - 1))).bytes k)] ∧ s.onlyChanges t [.out])))
  ∧ (∀ s : State, s.miUp = true →
      Completes .miBootStatus s (fun t => t.out = [.mi 0 (leBytes 4 (s.reg CFG_BOOT_STAT) ++ leBytes 4 (s.reg CFG_RESET_CAUSE)
        ++ leBytes 4 (if s.powered 0x12 FTL_DUR.off then s.reg FTL_DUR else 0))] ∧ s.onlyChanges t [.out]))
  ∧ (∀ s : State, s.miUp = true → s.domOn 1 = true → s.rngOk = true →
      Completes .miTokenNonce s (fun t => ∃ n, t.out = [.mi 0 n] ∧ n.length = 32 ∧ Tab.look t.sgn.nonce 1 = some n))
  ∧ (∀ (s : State) (token : List Byte), s.miUp = true → s.domOn 1 = true →
      Completes (.miTokenSubmit token) s (fun t => t = s.fresh.tokenRequest 1 (.tokenMi (slice token 0 3336))
        ∧ (s.sgn.tokenReq = none → s.sgn.heldTokens = [] → s.ldg.run = none → s.ldg.wait = [] → ∃ v : State, t = v.sgnStart
          ∧ (∃ q : SgnReq, v.sgn.tokenReq = some (q, .tokenMi (slice token 0 3336)) ∧ q.nonce = Tab.lookD s.sgn.nonce 1 [])
          ∧ Tab.look v.sgn.nonce 1 = none)))
  ∧ (∀ (s : State) (addr : Nat), s.miUp = true → s.boot.pins.miSel = false →
      Completes (.dynamicAddressAssignment addr) s (fun t =>
        t.boot = { s.boot with i3cAddr := some (addr % 128) } ∧ s.onlyChanges t [.boot, .out]))

/-- A flash descriptor in form enters its LUN's queue, a refused one ends with its status, and ends and timeouts have their effect. FCH_READ,
PROGRAM, ERASE, SWEEP, GET_FEATURE and SET_FEATURE of a readable descriptor in form, on a channel of the part and a LUN in use with room in
its queue, put the operation at the queue's end with its cost, after the husk's check of a program or an erase; what fails that check ends
REFUSED with HSK_LIMIT and FCH events. FCH_OP_COMPLETE of a program that succeeded moves the block's write pointer past the wordline, of an
erase puts it to 0 and counts it, of SET_FEATURE holds the value; a program or erase that failed retires the block. FCH_ARRAY_TIMEOUT, at 4
times the typical time an operation has run, ends it TIMEOUT and resets the LUN, which a later report makes ready (log entry 184); a LUN not
ready then goes offline with its queue ABORTED. ERASE_RESUME lets the suspended erase run on, once its 300 µs are over while foreground
reads wait; CREDIT_RESERVATION_TAKE reserves for the operation that has waited CREDIT_WAIT, its LUN at the end of its group's reservations,
and CREDIT_WAIT_LONG raises FCH_CHANNEL. -/
def Obligations.FlashOperationsComplete : Prop :=
  (∀ (s u : State) (r : Req) (n addr op : Nat) (d : List Byte) (i : Instr) (l : Lun),
      (i, op) ∈ [(Instr.fchRead r n addr, 1), (.fchProgram r n addr, 2), (.fchErase r n addr, 3), (.fchSweep r n addr, 4),
        (.fchGetFeature r n addr, 5), (.fchSetFeature r n addr, 6)] →
      n < Config.fchCount s.part → s.grants r ((FCH_SUBMIT_HI.chan n).key 0 0) true → s.fresh.load ⟨0x70 + n, 0⟩ addr 64 = (.ok, d, u) →
      leAt d 0 1 = op → descMalformed d = false →
      let k := 64 * n + 8 * (leAt d 2 1 % 8) + leAt d 2 1 / 8 % 8
      let o : FlashOp := { opOfBytes r addr u.time d with cost := u.opCost op (opOfBytes r addr u.time d).planeCount }
      u.lunServes k = true → u.lun k = some l → opOutside l o = false → l.queue.length < 32 →
      ((op = 2 → u.programBad o k (u.wpAfter k o.block) = none) → (op = 3 → u.eraseBad k o.block = none) →
        Acks i s r (FCH_SUBMIT_HI.chan n).win [] (fun t => ∃ v : State,
          t = v.lunStart k 33
          ∧ v.lun k = some { l with queue := l.queue ++ [o] } ∧ (∀ j, j ≠ k → v.lun j = u.lun j) ∧ u.onlyChanges v [.flash]))
      ∧ (∀ c, op = 2 → u.programBad o k (u.wpAfter k o.block) = some c →
        Acks i s r (FCH_SUBMIT_HI.chan n).win [] (fun t => ∃ v : State, t = v.opEnd k o 0x15 0 0 0
          ∧ v.evt.inbox = u.evt.inbox ++ [⟨225 + 4 * n, 5, [k % 64, o.block], none, 0, u.time⟩, ⟨49, c, [0x70 + n, r.master], none, 0, u.time⟩]
          ∧ u.onlyChanges v [.evt]))
      ∧ (∀ c, op = 3 → u.eraseBad k o.block = some c →
        Acks i s r (FCH_SUBMIT_HI.chan n).win [] (fun t => ∃ v : State, t = v.opEnd k o 0x15 0 0 0
          ∧ v.evt.inbox = u.evt.inbox ++ [⟨225 + 4 * n, 5, [k % 64, o.block], none, 0, u.time⟩, ⟨49, c, [0x70 + n, r.master], none, 0, u.time⟩]
          ∧ u.onlyChanges v [.evt])))
  ∧ (∀ (s : State) (i : Nat) (l : Lun) (o : FlashOp) (e : ArrayEnd), s.lun i = some l → l.running = some o →
      let w : State := if bit o.flags 4 then s.fresh.putLun i { l with running := none } else (s.fresh.putLun i { l with running := none }).gcOpen i o.block
      (o.op = 2 → e.ok = true → o.addr ≠ 0 → Completes (.fchOpComplete i e) s (fun t => ∃ v : State,
        t = ((v.opEnd i o 0x01 0 0 0).gcFull i o.block).afterOp i
        ∧ v.lun i = w.lun i ∧ (v.blk i o.block).wp = o.page + l.wordline (bit o.flags 4) ∧ w.onlyChanges v [.ftl, .regs]))
      ∧ (o.op = 2 → e.ok = false → o.addr ≠ 0 → Completes (.fchOpComplete i e) s (fun t => ∃ v : State,
        t = ((((v.opEnd i o 0x11 0 0 0).retire i o.block 2).raise 356 1 [i, o.block]).sbRetire (sbOf i o.block) i).afterOp i
        ∧ v.lun i = w.lun i ∧ (v.blk i o.block).wp = o.page + l.wordline (bit o.flags 4)
        ∧ v.evt.inbox = w.evt.inbox ++ [⟨225 + 4 * (i / 64), 1, [i % 64, o.block], none, 0, w.time⟩]
        ∧ w.onlyChanges v [.ftl, .regs, .evt]))
      ∧ (o.op = 3 → e.ok = false → s.sanErasing = false → Completes (.fchOpComplete i e) s (fun t => ∃ v : State,
        t = ((((v.opEnd i o 0x12 0 0 0).retire i o.block 3).raise 356 2 [i, o.block])).afterOp i
        ∧ v.evt.inbox = s.evt.inbox ++ [⟨225 + 4 * (i / 64), 2, [i % 64, o.block], none, 0, s.time⟩]
        ∧ s.onlyChanges v [.flash, .regs, .evt, .out]))
      ∧ (o.op = 3 → e.ok = true → Tab.look s.ftl.sbs (sbOf i o.block) = none → Completes (.fchOpComplete i e) s (fun t => ∃ v x y : State,
        x = v.opEnd i o 0x01 0 0 0
        ∧ y = (if x.sanErasing then { x with nv := { x.nv with erased := Tab.put x.nv.erased (2 ^ 20 * i + o.block) true } } else x)
        ∧ t = ((if (y.fld (FCH_CTRL_RETRAIN_DT.chan (i / 64)) : Int) < e.tempC - l.temp
              ∨ e.tempC - l.temp < -(y.fld (FCH_CTRL_RETRAIN_DT.chan (i / 64)) : Int) then y.retrain i e.retrainOk e.tempC else y).wearCheck i).afterOp i
        ∧ (v.blk i o.block).wp = 0 ∧ (v.blk i o.block).pe = (s.blk i o.block).pe + 1
        ∧ (∀ p z, Tab.look v.ftl.media p = some z → p / 2 ^ 40 = i → p / 2 ^ 20 % 2 ^ 20 ≠ o.block)
        ∧ s.onlyChanges v [.flash, .ftl, .regs, .evt, .out]))
      ∧ (o.op = 6 → Completes (.fchOpComplete i e) s (fun t => ∃ (b : BusStatus) (x : List Byte) (v : State),
        State.load { s.fresh with flash := { s.flash with luns := Tab.put s.flash.luns i { l with running := none } } } ⟨0x70 + i / 64, 0⟩ o.bufAddr 4
          = (b, x, v)
        ∧ t = ((v.putLun i { l with running := none, features := Tab.put l.features (o.page % 256) (leNat x) }).opEnd i o 0x01 0 0 0).afterOp i))
      ∧ (o.op ∈ [3, 4, 5, 6] → Completes (.fchArrayTimeout i) s (fun t => ∃ v : State,
        t = (if o.op = 3 then ((v.opEnd i o 0x13 0 0 0).retire i o.block 3).raise 356 2 [i, o.block] else v.opEnd i o 0x13 0 0 0)
        ∧ v.lun i = some { l with running := none, resetting := some (v.time, o.cost) }
        ∧ v.time = max s.time (l.startedAt + (4 * s.arrayNs l o - l.ranNs))
        ∧ v.evt.inbox = s.evt.inbox ++ [⟨225 + 4 * (i / 64), 3, [i % 64, o.block], none, 0, v.time⟩]
        ∧ v.fld (FCH_ERR_STAT_TIMEOUT.chan (i / 64)) = min 511 (s.fld (FCH_ERR_STAT_TIMEOUT.chan (i / 64)) + 1)
        ∧ s.onlyChanges v [.flash, .time, .regs, .evt, .out])))
  ∧ (∀ (s : State) (i : Nat) (l : Lun) (e : ArrayEnd) (x : Nat × Nat), s.lun i = some l → l.running = none → l.resetting = some x →
      Completes (.fchOpComplete i e) s (fun t => t = (s.fresh.putLun i { l with resetting := none }).afterOp i))
  ∧ (∀ (s : State) (i : Nat) (l : Lun), s.lun i = some l →
      (∀ x : Nat × Nat, l.resetting = some x → l.status = 1 →
        Completes (.lunOffline i) s (fun t => ∃ v w y : State,
          w = (l.suspended.toList ++ l.queue).foldl (fun v o => (v.opEnd i o 0x18 0 0 0).ownerLost o) v
          ∧ y = State.chanStatus (match Tab.look w.ftl.lanes i with | some la => w.laneDrop i la | none => w) (i / 64)
          ∧ t = (if y.fld (FCH_STAT_STATE.chan (i / 64)) = 4 then y.raise (224 + 4 * (i / 64)) 4 [0, 0] else y).groupStart (i / 128)
          ∧ v.lun i = some { l with status := 3, exclCause := 7, queue := [], running := none, suspended := none, resetting := none }
          ∧ v.time = max s.time (x.1 + 10000000)
          ∧ v.evt.inbox = s.evt.inbox ++ [⟨225 + 4 * (i / 64), 4, [i % 64, 0], none, 0, v.time⟩]
          ∧ s.onlyChanges v [.flash, .time, .evt, .out]))
      ∧ (∀ o, l.suspended = some o → l.running = none → Completes (.eraseResume i) s (fun t =>
        t.lun i = some { l with running := some o, suspended := none, startedAt := t.time } ∧ (∀ j, j ≠ i → t.lun j = s.lun j)
        ∧ t.time = (if l.queue.any (fun q => q.op = 1 && !s.isBg i q) then max s.time (l.suspAt + 300000) else s.time)
        ∧ s.onlyChanges t [.flash, .time, .out])))
  ∧ (∀ (s : State) (i : Nat) (o : FlashOp) (l : Lun), s.waitsCredit i = some o → s.lun i = some l →
      (i ∉ Tab.lookD s.flash.reserve (i / 128) [] → Completes (.creditReservationTake i) s (fun t =>
        Tab.look t.flash.reserve (i / 128) = some (Tab.lookD s.flash.reserve (i / 128) [] ++ [i])
        ∧ t.lun i = some { l with queue := l.queue.map (fun q => if q = o then { q with reserved := true } else q) }
        ∧ (∀ j, j ≠ i → t.lun j = s.lun j)
        ∧ t.time = max s.time (o.waitAt.getD s.time + s.fld (FCH_SCHED_CREDIT_WAIT.chan (i / 64)) * 100000)
        ∧ t.fld (FCH_CREDIT_STAT_RESERVED.chan (i / 64)) = min 32767 (s.fld (FCH_CREDIT_STAT_RESERVED.chan (i / 64)) + 1)
        ∧ s.onlyChanges t [.flash, .time, .regs, .out]))
      ∧ Completes (.creditWaitLong i) s (fun t =>
        t.evt.inbox = s.evt.inbox ++ [⟨224 + 4 * (i / 64), 5, [i % 64, 0], none, 0, t.time⟩]
        ∧ t.time = max s.time (o.waitAt.getD s.time + s.fld (FCH_SCHED_CREDIT_WAIT.chan (i / 64)) * 1000000)
        ∧ s.onlyChanges t [.evt, .time, .out]))

/-- Discovery lists the dies that answered, retraining, tracking and patrol keep their groups, and group commands act on their group.
FLASH_DISCOVERY_COMPLETE leaves on the channel only LUNs of dies that answered, each in use without a cause or excluded with one; none
answering leaves the channel failed with FCH_CHANNEL cause 4. A die retrained RETRAIN_H hours after its last training holds the time and
temperature, its margins free (log entry 188); one that failed lowers its channel's rate by one. LDPC_FRAME_DECODE of a READ moves the
group's iteration average by 1/64 and advises a sweep above its limit. PATROL_PERIOD, PERIOD_H hours after the last, enters groups read too
little into the patrol list and starts their counts anew, and a day's averages once a day has passed. A read of LDP_PATROL_NEXT or
LDP_ADVISE_NEXT returns and removes the list's first entry, or 0. LDP_GRP_CMD CREATE, COPY, FREE, READ and WRITE act on the named group of a
LUN of an enabled channel and give result 1, or 2 where they cannot. -/
def Obligations.DiscoveryTrackingAndGroupCommandsComplete : Prop :=
  (∀ (s : State) (n : Nat) (dies : List DieReport), n < Config.fchCount s.part → s.fld PWR_FPG_STAT_STATE (n / 2) = 2 →
      Completes (.flashDiscoveryComplete n dies) s (fun t =>
        (∀ i l, t.lun i = some l → i / 64 = n → (∃ d ∈ dies, d.answers = true ∧ i = 64 * n + d.die ∧ (d.pageOk = true → l.blocks = d.blocks ∧ l.pages = d.pages))
          ∧ (l.status = 1 ∧ l.exclCause = 0 ∨ l.status = 2 ∧ l.exclCause ≠ 0))
        ∧ ((∀ d ∈ dies, d.answers = false) → t.fld (FCH_STAT_STATE.chan n) = 4
          ∧ ⟨224 + 4 * n, 4, [0, 0], none, 0, s.time⟩ ∈ t.evt.inbox)
        ∧ (∀ d ∈ dies, d.answers = false → d.die < 64 → ⟨224 + 4 * n, 1, [d.die, 1], none, 0, s.time⟩ ∈ t.evt.inbox)
        ∧ s.onlyChanges t [.flash, .ftl, .nv, .regs, .evt, .out]))
  ∧ (∀ (s : State) (i : Nat) (l : Lun) (tempC : Int), s.lun i = some l → l.status = 1 →
      let ends := max s.time (l.trainedAt + s.fld (FCH_CTRL_RETRAIN_H.chan (i / 64)) * 3600000000000)
      Completes (.dieRetrainPeriodic i true tempC) s (fun t => t.time = ends
        ∧ (∃ a b c d e, t.lun i = some { l with
            rdEyeW := a, wrEyeW := b, rdEyeH := c, wrEyeH := d, vref := e, trainedAt := ends, temp := tempC })
        ∧ (∀ j, j ≠ i → t.lun j = s.lun j) ∧ s.onlyChanges t [.flash, .bg, .freeCtr, .time, .out])
      ∧ Completes (.dieRetrainPeriodic i false tempC) s (fun t =>
        (∀ j x, t.lun j = some x → j / 64 = i / 64 → x.status = 1 → x.rate ≤ max 1 (s.fld (FCH_STAT_RATE.chan (i / 64)) - 1))
        ∧ t.evt.inbox = s.evt.inbox ++ [⟨224 + 4 * (i / 64), 3, [i % 64, max 1 (s.fld (FCH_STAT_RATE.chan (i / 64)) - 1)], none, 0, ends⟩]
        ∧ t.time = ends ∧ s.onlyChanges t [.flash, .bg, .freeCtr, .time, .regs, .evt, .out]))
  ∧ (∀ (s : State) (i : Nat) (l : Lun) (o : FlashOp) (f : FrameStat) (ok : Bool), s.lun i = some l → l.running = some o → o.op = 1 →
      64 ≤ f.zeros → (l.group o.group).active = true →
      let step := s.stepOf o f
      let limit := if step < 3 then s.fld LDP_CODE_HARD_ITER else s.fld LDP_CODE_SOFT_ITER
      let avg := avg64 (l.group o.group).iterAvg (if ok then min f.iters limit else limit + 1 : Nat)
      Completes (.ldpcFrameDecode i f ok) s (fun t =>
        (∃ l', t.lun i = some l' ∧ (l'.group o.group).iterAvg = avg ∧ (l'.group o.group).active = true
          ∧ (l'.group o.group).frames = (l.group o.group).frames + b2n (step = 0))
        ∧ (((s.fld LDP_TRACK_LIM_ITER_SWEEP * 256 : Nat) : Int) < avg → (i, o.group, 2) ∈ t.flash.advise)
        ∧ s.onlyChanges t [.flash, .regs, .evt, .out]))
  ∧ (∀ s : State, Completes .patrolPeriod s (fun t =>
      t.time = max s.time (s.flash.patrolAt + s.fld LDP_PATROL_CFG_PERIOD_H * 3600000000000) ∧ t.flash.patrolAt = t.time ∧
      (∀ i l k g, s.lun i = some l → l.status = 1 → Tab.look l.groups k = some g → g.active = true →
        (g.frames < s.fld LDP_PATROL_CFG_MIN_FRAMES → (i, k) ∈ t.flash.patrol)
        ∧ (∃ l', t.lun i = some l' ∧ (l'.group k).frames = 0
          ∧ (s.flash.dayAt + 86400000000000 ≤ t.time → (l'.group k).patrolSum = 0 ∧ (l'.group k).patrolCount = 0)))
      ∧ s.onlyChanges t [.flash, .time, .evt, .out]))
  ∧ (∀ (s : State) (r : Req),
      (s.grants r (LDP_PATROL_NEXT.key 0 0) false →
        (s.flash.patrol = [] → Acks (.ldpPatrolNextRead r) s r LDP_PATROL_NEXT.win (leBytes 4 0) (fun t => s.onlyChanges t [.out]))
        ∧ (∀ i g rest, s.flash.patrol = (i, g) :: rest →
          Acks (.ldpPatrolNextRead r) s r LDP_PATROL_NEXT.win (leBytes 4 (trackWord i g 0)) (fun t =>
            t.flash = { s.flash with patrol := rest } ∧ s.onlyChanges t [.flash, .out])))
      ∧ (s.grants r (LDP_ADVISE_NEXT.key 0 0) false →
        (s.flash.advise = [] → Acks (.ldpAdviseNextRead r) s r LDP_ADVISE_NEXT.win (leBytes 4 0) (fun t => s.onlyChanges t [.out]))
        ∧ (∀ i g c rest, s.flash.advise = (i, g, c) :: rest →
          Acks (.ldpAdviseNextRead r) s r LDP_ADVISE_NEXT.win (leBytes 4 (trackWord i g c)) (fun t =>
            t.flash = { s.flash with advise := rest } ∧ s.onlyChanges t [.flash, .out]))))
  ∧ (∀ (s : State) (r : Req) (w : Nat) (l : Lun), s.grants r (LDP_GRP_CMD.key 0 0) true →
      let n := bits w 15 11
      let i := 64 * n + 8 * bits w 10 8 + bits w 7 5
      let k := bits w 20 16
      let src := bits w 25 21
      s.lun i = some l → n < Config.fchCount s.part → s.flag (FCH_CTRL_ENABLE.chan n) = true →
      ((l.group k).active = false → bits w 27 26 ≠ 0 → Acks (.grpCreate r w) s r LDP_GRP_CMD.win [] (fun t =>
        (∃ l', t.lun i = some l' ∧ l'.group k = { Group.free with active := true, mode := bits w 27 26, gen := ((l.group k).gen + 1) % 256 }
          ∧ (∀ j, j ≠ k → l'.group j = l.group j)) ∧ Tab.look t.flash.grpRes r.master = some 1 ∧ s.onlyChanges t [.flash, .out]))
      ∧ ((l.group k).active = true → Acks (.grpCreate r w) s r LDP_GRP_CMD.win [] (fun t => t.lun i = some l
        ∧ Tab.look t.flash.grpRes r.master = some 2 ∧ s.onlyChanges t [.flash, .out]))
      ∧ ((l.group k).active = false → (l.group src).active = true → Acks (.grpCopy r w) s r LDP_GRP_CMD.win [] (fun t =>
        (∃ l', t.lun i = some l' ∧ (l'.group k).active = true ∧ (l'.group k).mode = (l.group src).mode
          ∧ (∀ th x, Tab.look (l.group src).thr th = some x → ((l'.group k).th th).off = x.off) ∧ (l'.group k).gen = ((l.group k).gen + 1) % 256
          ∧ (∀ j, j ≠ k → l'.group j = l.group j)) ∧ Tab.look t.flash.grpRes r.master = some 1 ∧ s.onlyChanges t [.flash, .out]))
      ∧ Acks (.grpFree r w) s r LDP_GRP_CMD.win [] (fun t =>
        (∃ l', t.lun i = some l' ∧ l'.group k = { l.group k with active := false } ∧ (∀ j, j ≠ k → l'.group j = l.group j))
        ∧ Tab.look t.flash.grpRes r.master = some 1 ∧ s.onlyChanges t [.flash, .out])
      ∧ Acks (.grpRead r w) s r LDP_GRP_CMD.win [] (fun t => t.lun i = some l
        ∧ (∀ j, j < 4 → t.reg LDP_GRP_DATA j = (l.group k).dataWord j % 2 ^ 32) ∧ Tab.look t.flash.grpRes r.master = some 1
        ∧ s.onlyChanges t [.flash, .regs, .out])
      ∧ ((∀ th, 1 ≤ th → th ≤ 15 → -(s.fld LDP_TRACK_LIM_OFF_MAX : Int) ≤ s.grpOffset th ∧ s.grpOffset th ≤ s.fld LDP_TRACK_LIM_OFF_MAX) →
        Acks (.grpWrite r w) s r LDP_GRP_CMD.win [] (fun t =>
          (∃ l', t.lun i = some l' ∧ (∀ th, 1 ≤ th → th ≤ 15 → (l'.group k).th th = { Thresh.zero with off := s.grpOffset th, plus := ((l.group k).th th).plus })
            ∧ (l'.group k).active = (l.group k).active ∧ (l'.group k).mode = (l.group k).mode
            ∧ (l'.group k).gen = ((l.group k).gen + 1) % 256 ∧ (∀ j, j ≠ k → l'.group j = l.group j))
          ∧ Tab.look t.flash.grpRes r.master = some 1 ∧ s.onlyChanges t [.flash, .out])))

/-- Seal and journal timeouts, durable frames, checkpoints, garbage collection, native groups and recovery move the map as chapter 6 says.
FRAME_SEAL_TIMEOUT seals the lane's open wordline SEAL_US after its first extent. JOURNAL_FLUSH_TIMEOUT forms a frame of the held records
under the next sequence number; JOURNAL_FRAME_DURABLE makes the oldest frame's records durable, in order, and lets what waited on them go.
CHECKPOINT_COMMIT writes MAP_CKPT once with the root and the next generation, VALID, saves the map directory and the groups' tracker state,
and releases older frames. GC_EXTENT_MOVE of an extent of its set's victim into native blocks of another superblock sets the entry to the
new place only while it still names the old one, and makes an unreadable extent's unit unrecoverable. A write of FTL_GC_VICTIM adds a known,
closed superblock to the priority list and lets its set choose a victim. NATIVE_GROUP_CREATE, a day after the last, gives each LUN a new
active group in its native mode. MAP_RECOVERY_COMPLETE by checkpoint takes the durable map, shows how it recovered, raises FTL_RECOVERY with
its cause, and ends the start. -/
def Obligations.TranslationCommandsComplete : Prop :=
  (∀ (s : State) (i : Nat) (l : Lane), Tab.look s.ftl.lanes i = some l → (l.curAt.isSome ∨ l.toProgram ≠ []) →
      Completes (.frameSealTimeout i) s (fun t => ∃ v : State, t = (v.sealRows l.sb).sbProgram l.sb
        ∧ Tab.look v.ftl.lanes i = some (if l.curAt.isNone then l else l.sealWordline v.time 64) ∧ v.ftl.map = s.ftl.map
        ∧ v.time = (match l.curAt with | some a => max s.time (a + s.fld FTL_CTRL_SEAL_US * 1000) | none => s.time)
        ∧ s.onlyChanges v [.ftl, .time, .out]))
  ∧ (∀ s : State, s.ftl.delta ≠ [] → Completes .journalFlushTimeout s (fun t =>
      t.ftl.frames = s.ftl.frames ++ [⟨s.ftl.jnext, s.horizonNow, s.ftl.delta⟩] ∧ t.ftl.delta = [] ∧ t.ftl.jnext = s.ftl.jnext + 1
      ∧ t.ftl.map = s.ftl.map ∧ t.ftl.recDurable = s.ftl.recDurable
      ∧ t.time = (match s.ftl.deltaAt with | some d => max s.time (d + s.fld FTL_JNL_CFG_FLUSH_US * 100000) | none => s.time)
      ∧ t.fld FTL_JNL_STAT_PENDING = min 65535 t.ftl.frames.length ∧ s.onlyChanges t [.ftl, .time, .regs, .out]))
  ∧ (∀ (s : State) (pfa : Nat) (j : JFrame) (rest : List JFrame), s.ftl.frames = j :: rest →
      Completes (.journalFrameDurable pfa) s (fun t => ∃ v : State, t = v.releaseDurable.reclaimAll.wtCheck
        ∧ v.ftl.frames = rest ∧ v.ftl.recDurable = s.ftl.recDurable + j.recs.length ∧ v.ftl.horizon = j.horizon
        ∧ v.ftl.dmap = j.recs.foldl applyDelta s.ftl.dmap ∧ Tab.look v.ftl.jplaces j.jseq = some pfa
        ∧ Tab.look v.ftl.jstore pfa = some (j, false) ∧ v.ftl.map = s.ftl.map
        ∧ (j.jseq < 2 ^ 64 → v.pair FTL_JSEQ_LO FTL_JSEQ_HI = j.jseq) ∧ s.onlyChanges v [.ftl, .regs, .out]))
  ∧ (∀ (s : State) (root j : Nat) (pages : List (Nat × Nat)), s.ftl.ckptRun = some j → Completes (.checkpointCommit ⟨root, pages⟩) s (fun t =>
      t.nv = { s.nv with mapCkpt := root % 2 ^ 45 * 2 ^ 19 + (s.ftl.ckptGen + 1) % 2 ^ 16 * 8 + 1, rebuildCkpt := 0 }
      ∧ t.ftl.ckptRun = none ∧ t.ftl.rootPfa = root ∧ t.ftl.ckptGen = s.ftl.ckptGen + 1 ∧ t.ftl.map = s.ftl.map
      ∧ (∀ k, k < j → Tab.look t.ftl.jplaces k = none) ∧ t.ftl.dir = s.ckptDir pages
      ∧ (∀ i l, i ∈ s.lunsInUse → s.lun i = some l → Tab.look t.ftl.saved i = some (l.natives, l.groups))
      ∧ s.onlyChanges t [.nv, .ftl, .bg, .freeCtr, .out]))
  ∧ (∀ (s : State) (laddr old new : Nat) (e : Extent),
      let may := (s.fresh.gcPick (entryLun old % 64)).gcMayMove old new
      (may = true → Tab.look s.ftl.media (entryPlace old) = some e → s.mapEntry laddr = old → e.laddr = laddr → new ≠ 0 →
        Completes (.gcExtentMove laddr old new false) s (fun t => ∃ v : State, t = v.reclaimAll ∧ v.mapEntry laddr = new
          ∧ (∀ k, k ≠ laddr → v.mapEntry k = s.mapEntry k) ∧ Tab.look v.ftl.media (entryPlace new) = some e
          ∧ v.ftl.recCount = s.ftl.recCount + 1 ∧ s.onlyChanges v [.ftl, .regs, .out]))
      ∧ (may = false → Completes (.gcExtentMove laddr old new false) s (fun t => t = s.fresh.gcPick (entryLun old % 64)))
      ∧ (may = true → Tab.look s.ftl.media (entryPlace old) = some e → s.mapEntry laddr ≠ old →
        Completes (.gcExtentMove laddr old new false) s (fun t => t.ftl.map = s.ftl.map ∧ t.ftl.delta = s.ftl.delta
          ∧ Tab.look t.ftl.media (entryPlace new) = some e ∧ s.onlyChanges t [.ftl, .out]))
      ∧ (s.mapEntry laddr = old → entryGrains old ≠ 0 → Completes (.gcExtentMove laddr old new true) s (fun t => ∃ v : State,
          t = v.reclaimAll ∧ v.mapEntry laddr = entryUnrec ∧ (∀ k, k ≠ laddr → v.mapEntry k = s.mapEntry k)
          ∧ s.onlyChanges v [.ftl, .regs, .out])))
  ∧ (∀ (s : State) (r : Req) (w : Nat) (b : SuperBlock), s.grants r (FTL_GC_VICTIM.key 0 0) true → bits w 31 30 ≠ 0 →
      let k := bits w 19 14 * 2 ^ 14 + bits w 13 0
      Tab.look s.ftl.sbs k = some b → b.state ≠ 0 → (s.ftl.victims.any (fun v => v.1 = k)) = false →
      Acks (.ftlGcVictim r w) s r FTL_GC_VICTIM.win [] (fun t => ∃ v : State, t = v.gcPick (bits w 19 14)
        ∧ v.ftl = { s.ftl with victims := s.ftl.victims ++ [(k, bits w 31 30)] } ∧ s.onlyChanges v [.ftl, .out]))
  ∧ (∀ s : State, s.lunsInUse.Nodup → Completes .nativeGroupCreate s (fun t => t.ftl.groupAt = t.time ∧ t.time = max s.time (s.ftl.groupAt + 86400000000000) ∧ t.ftl.map = s.ftl.map
      ∧ (∀ i l k, i ∈ s.lunsInUse → s.lun i = some l → l.natives.length < 28 → 4 ≤ k → k < 32 → (l.group k).active = false →
        ∃ l' n, t.lun i = some l' ∧ l'.natives.getLast? = some n ∧ 4 ≤ n ∧ n < 32 ∧ (l'.group n).active = true
          ∧ (l'.group n).mode = l.nativeMode)
      ∧ s.onlyChanges t [.flash, .ftl, .time, .out]))
  ∧ (∀ (s : State) (ms : Nat) (treeOk : Bool), s.boot.bootDone = false →
      Completes (.mapRecoveryComplete ms treeOk) s (fun t =>
        let full := decide (s.nv.mapCkpt % 2 = 0) || !treeOk
        let cause := if full then (if s.nv.rebuildCkpt ≠ 0 then 4 else 3) else if s.ftl.flushComplete then 1 else 2
        t.boot.bootDone = true ∧ ⟨352, cause, [ms], none, 0, s.time⟩ ∈ t.evt.inbox
        ∧ ⟨9, 1, [(s.time - s.boot.startAt) / 1000000], none, 0, s.time⟩ ∈ t.evt.inbox
        ∧ t.fld FTL_STAT_FULL = b2n full ∧ t.fld FTL_STAT_TAIL = b2n (!full && !s.ftl.flushComplete) ∧ t.fld FTL_CTRL_ENABLE = 1
        ∧ (full = false → s.ftl.flushComplete = true → t.ftl.map = s.ftl.dmap ∧ t.ftl.dmap = s.ftl.dmap)))

/-- Pipes finish their oldest unit, extent or stream job, contexts have one owner, and scan jobs are submitted, cancelled and released.
COMPRESSION_UNIT_DONE takes the oldest unit of a powered pipe, counts it and gives its version grains and RAW as R224 to R229 say, ready to
be placed. DECOMPRESS_EXTENT_DONE hands the plain unit to its owner, or counts and reports the cause. CMP_CTX_OPEN gives the lowest free
slot to its master or a refusal; CLOSE by the owner frees it and leaves none of its jobs queued; IDLE_S without a job frees it with
CMP_JOB_ERROR. CMP_JOB_SUBMIT queues a job of an owned context on the chosen pipe; CMP_JOB_COMPLETE runs the oldest job to its stop and
completes its descriptor. SCN_SUBMIT of a readable descriptor in range with a valid program makes a job; one without the right ends
NO_RIGHT. SCN_CANCEL ends the job of that descriptor; SCAN_UNIT_DONE counts an engine's unit and stages its result. LOCK_GRANT grants the
first request that nothing earlier conflicts with. -/
def Obligations.PipelineAndScanCommandsComplete : Prop :=
  (∀ (s : State) (p id k : Nat) (rest : List Nat) (w : WEntry) (mismatch : Bool), (s.pipe p).units = id :: rest → p < Config.cmpPipes s.part →
      s.domOn (28 + p / 8) = true → s.ftl.wbuf.find? (fun w => w.id = id) = some w → s.keyOf (w.laddr / 2 ^ 40) = some k →
      Completes (.compressionUnitDone p mismatch) s (fun t => ∃ v : State, t = v.placeAll.feedPipes.wtCheck ∧ (v.pipe p).units = rest
        ∧ (let hold := ((s.nsOf (nsidOf w.laddr)).map Ns.hold).getD 0 ≠ 0 && !bit w.laddr 39
           let fenced := s.pipeFenced p || hold
           let zero := !fenced && allZero w.data
           let g := ceilDiv (16 + (Config.deflate (s.fld CMP_CTRL_EFFORT_UNIT) w.data).length) 64
           let small := !fenced && !zero && decide (g < w.data.length / 64)
           let raw := !zero && (!small || mismatch)
           let grains := if zero then 0 else if raw then w.data.length / 64 else g
           let body := if zero then [] else if raw then w.data else container (Config.deflate (s.fld CMP_CTRL_EFFORT_UNIT) w.data) w.data
           v.ftl.wbuf = s.ftl.wbuf.map (fun x => if x.id = id then { x with step := 2, grains := grains, raw := raw, key := k, body := body } else x)
           ∧ v.pair CMP_PIPE_OUT_LO CMP_PIPE_OUT_HI p = (s.pair CMP_PIPE_OUT_LO CMP_PIPE_OUT_HI p + grains * 64) % 2 ^ 64)
        ∧ v.pair CMP_PIPE_UNITS_LO CMP_PIPE_UNITS_HI p = (s.pair CMP_PIPE_UNITS_LO CMP_PIPE_UNITS_HI p + 1) % 2 ^ 64
        ∧ s.onlyChanges v [.ftl, .cmp, .regs, .evt, .out]))
  ∧ (∀ (s : State) (n j key : Nat) (rest : List Nat) (x : ReadJob) (e : Extent) (got : UnitRead) (plain : List Byte) (rowOk : Bool), (s.pipe (32 + n)).units = j :: rest →
      Tab.look s.ftl.reads j = some x → (∀ a b, x.owner ≠ .tag a b) → Tab.look s.ftl.media (entryPlace x.entry) = some e →
      (s.keyOf (x.laddr / 2 ^ 40) = some key → e.readAs key (decide (entryPlace x.entry % 64 = 0)) got = (0, plain) →
        Completes (.decompressExtentDone n got rowOk) s (fun t => ∃ v : State,
        t = (v.readDone j x plain).scanGo ∧ (v.pipe (32 + n)).units = rest
        ∧ v.pair (FCH_DCMP_OUT_LO.chan n) (FCH_DCMP_OUT_HI.chan n)
            = (s.pair (FCH_DCMP_OUT_LO.chan n) (FCH_DCMP_OUT_HI.chan n) + plain.length) % 2 ^ 64
        ∧ s.onlyChanges v [.cmp, .regs, .out]))
      ∧ (s.keyOf (x.laddr / 2 ^ 40) = none → Completes (.decompressExtentDone n got rowOk) s (fun t => ∃ v : State,
        t = (v.readLost j).scanGo ∧ v.evt.inbox = s.evt.inbox ++ [⟨418, 2, [n, x.laddr / 2 ^ 40, x.laddr % 2 ^ 40], none, 0, s.time⟩]
        ∧ s.onlyChanges v [.cmp, .regs, .evt, .out])))
  ∧ (∀ (s : State) (r : Req) (w : Nat), s.grants r (CMP_CTX_OPEN.key 0 0) true → (bits w 31 30 = 1 ∨ bits w 31 30 = 2) → bits w 29 28 ≠ 3 →
      (isCore r.master = true → (s.cmp.ctxs.filter (fun kv => isCore kv.2.owner && kv.2.pod = r.pod)).length
          < ((Tab.look s.pod.pods r.pod).map Pod.ctx).getD 0) →
      (∀ h, Tab.lowestFree s.cmp.ctxs 4096 = some h → Acks (.cmpCtxOpen r w) s r CMP_CTX_OPEN.win [] (fun t =>
        Tab.look t.cmp.openRes r.master = some (2 ^ 30 + h)
        ∧ Tab.look t.cmp.ctxs h = some ⟨r.master, r.pod, bits w 31 30, bits w 29 28, bits w 27 26, 0, s.time, [], 0, []⟩
        ∧ (∀ k, k ≠ h → Tab.look t.cmp.ctxs k = Tab.look s.cmp.ctxs k) ∧ s.onlyChanges t [.cmp, .regs, .out]))
      ∧ (Tab.lowestFree s.cmp.ctxs 4096 = none → Acks (.cmpCtxOpen r w) s r CMP_CTX_OPEN.win [] (fun t =>
        Tab.look t.cmp.openRes r.master = some (2 * 2 ^ 30) ∧ t.cmp.ctxs = s.cmp.ctxs ∧ s.onlyChanges t [.cmp, .out])))
  ∧ (∀ (s : State) (r : Req) (h : Nat) (c : CmpCtx), s.grants r (CMP_CTX_CLOSE.key 0 0) true → Tab.look s.cmp.ctxs (h % 4096) = some c →
      (c.ownedBy r = true → Acks (.cmpCtxClose r h) s r CMP_CTX_CLOSE.win [] (fun t => Tab.look t.cmp.ctxs (h % 4096) = none
        ∧ (∀ k, k ≠ h % 4096 → Tab.look t.cmp.ctxs k = Tab.look s.cmp.ctxs k)
        ∧ (∀ p, ((t.pipe p).jobs.any (fun j => j.ctx = h % 4096)) = false)))
      ∧ (c.ownedBy r = false → Acks (.cmpCtxClose r h) s r CMP_CTX_CLOSE.win [] (fun t => s.onlyChanges t [.out])))
  ∧ (∀ (s : State) (h : Nat) (c : CmpCtx), Tab.look s.cmp.ctxs h = some c → (s.cmp.pipes.any (fun kv => kv.2.jobs.any (fun j => j.ctx = h))) = false →
      Completes (.cmpCtxIdle h) s (fun t => Tab.look t.cmp.ctxs h = none ∧ t.time = max s.time (c.lastUsed + s.fld CMP_CTX_CFG_IDLE_S * 1000000000)
        ∧ t.evt.inbox = s.evt.inbox ++ [⟨419, 6, [h, c.owner], none, 0, t.time⟩] ∧ s.onlyChanges t [.time, .cmp, .regs, .evt, .out]))
  ∧ (∀ (s u : State) (r : Req) (addr p : Nat) (d : List Byte) (c : CmpCtx), s.grants r (CMP_JOB_SUBMIT_HI.key 0 0) true →
      s.fresh.load (pipeReq 0 0) (addr / 64 * 64) 64 = (.ok, d, u) → leAt d 0 1 < 8 → leAt d 1 3 = 0 → leAt d 4 4 < 4096 → leAt d 28 4 ≠ 0 →
      leAt d 36 4 = 0 → leAt d 40 2 = 0 → Tab.look u.cmp.ctxs (leAt d 4 4) = some c → ¬(bit (leAt d 0 1) 2 = true ∧ c.kind = 2) →
      c.ownedBy r = true → u.jobPipe c.kind = some (some p) →
      Acks (.cmpJobSubmit r addr) s r CMP_JOB_SUBMIT_HI.win [] (fun t =>
        (t.pipe p).jobs = (u.pipe p).jobs ++ [⟨addr / 64 * 64, r.master, r.pod, leAt d 4 4, leAt d 0 1, leAt d 8 8, leAt d 16 8, leAt d 24 4,
          leAt d 28 4, leAt d 32 4, u.cmp.jobNo⟩]
        ∧ Tab.look t.cmp.ctxs (leAt d 4 4) = some { c with lastUsed := u.time } ∧ u.onlyChanges t [.cmp, .regs]))
  ∧ (∀ (s u : State) (p : Nat) (j : CmpJob) (rest : List CmpJob) (c : CmpCtx) (inp : List Byte), (s.pipe p).jobs = j :: rest →
      (s.cmp.pipes.any (fun kv => kv.2.jobs.any (fun k => k.ctx = j.ctx && k.no < j.no))) = false → Tab.look s.cmp.ctxs j.ctx = some c →
      (bit j.flags 0 = true ∨ c.state < 2) →
      State.load ((s.fresh.putPipe p { s.pipe p with jobs := rest }).countJobs p) (pipeReq p j.pod) j.inAddr j.inLen = (.ok, inp, u) →
      let c0 := if bit j.flags 0 then { c with state := 0, taken := [], made := 0, cuts := [] } else c
      let run := if c.kind = 1 then runCompress c0 j inp false (Config.freeValue u.freeCtr % (j.inLen + 1)) else runExpand c0 j inp
      Completes (.cmpJobComplete p false) s (fun t => ∃ v w : State,
        t = v.jobEnd p j run.status run.cause run.used run.out.length run.ctx.checkNow
        ∧ w = (State.store { u with freeCtr := u.freeCtr + 1 } (pipeReq p j.pod) j.outAddr run.out).2
        ∧ Tab.look v.cmp.ctxs j.ctx = some { run.ctx with lastUsed := w.time } ∧ w.onlyChanges v [.cmp, .evt]))
  ∧ (∀ (s u : State) (r : Req) (addr : Nat) (d : List Byte), s.grants r (SCN_SUBMIT_HI.key 0 0) true →
      s.fresh.load scanReq (addr / 64 * 64) 64 = (.ok, d, u) →
      (u.mayScan r none (leAt d 4 4) = false → Acks (.scnSubmit r addr) s r SCN_SUBMIT_HI.win [] (fun t =>
        t = u.scanEnd (addr / 64 * 64) r.pod none (leAt d 44 4) 0x13 0 0 (leAt d 8 8)))
      ∧ (∀ (v : State) (p : List Byte) (n : Ns), u.mayScan r none (leAt d 4 4) = true → u.scn.jobs.length < 256 →
        (u.scn.jobs.filter (fun kv => kv.2.pod = r.pod)).length < u.fld SCN_CTRL_POD_JOBS → u.nsOf (leAt d 4 4) = some n → leAt d 16 8 ≠ 0 →
        leAt d 8 8 + leAt d 16 8 ≤ n.units → u.loadProg (leAt d 24 8) = (.ok, p, v) → 64 + 16 * leAt p 19 1 ≤ leAt d 40 4 →
        leAt d 0 1 < 2 → leAt d 1 3 = 0 → leAt d 32 8 % 8 = 0 → leAt d 48 2 = 0 → progCause p = none → (progOf p).bloomK = 0 →
        Acks (.scnSubmit r addr) s r SCN_SUBMIT_HI.win [] (fun t => ∃ (w : State) (b : ScanJob), t = w.bloomStart.scanIssue
          ∧ w.job v.scn.nextJob = some b ∧ b.addr = addr / 64 * 64 ∧ b.master = r.master ∧ b.pod = r.pod ∧ b.nsid = leAt d 4 4
          ∧ b.start = leAt d 8 8 ∧ b.count = leAt d 16 8 ∧ b.next = b.start ∧ b.resAddr = leAt d 32 8 ∧ b.resLen = leAt d 40 4
          ∧ b.evFlag = leAt d 44 4 ∧ b.prog = progOf p ∧ b.cmd = none ∧ v.onlyChanges w [.scn])))
  ∧ (∀ (s : State) (r : Req) (addr j : Nat) (b : ScanJob), s.grants r (SCN_CANCEL_HI.key 0 0) true →
      s.scn.jobs.find? (fun kv => kv.2.addr = addr / 64 * 64 && kv.2.cmd.isNone) = some (j, b) → s.job j = some b →
      Acks (.scnCancel r addr) s r SCN_CANCEL_HI.win [] (fun t => ∃ v : State, t = v.scanGo ∧ v.job j = none
        ∧ ⟨464, 4, [b.pod, b.nsid], some b.pod, 0, s.time⟩ ∈ v.evt.inbox ∧ v.ftl.map = s.ftl.map ∧ v.nv = s.nv))
  ∧ (∀ (s : State) (e : Nat) (x : ScanIn) (b : ScanJob) (d : List Byte), s.domOn (24 + e / 8) = true → e < Config.scnEngines s.part →
      (Tab.lookD s.scn.queue e []).find? (fun x => x.data.isSome) = some x → x.data = some d → s.job x.job = some b →
      Completes (.scanUnitDone e) s (fun t => ∃ v : State, t = (v.stage x.job x.unit (scanUnit b.prog b.bloom d)).scanGo
        ∧ Tab.look v.scn.queue e = some ((Tab.lookD s.scn.queue e []).erase x)
        ∧ v.pair SCN_ENG_RECORDS_LO SCN_ENG_RECORDS_HI e
            = (s.pair SCN_ENG_RECORDS_LO SCN_ENG_RECORDS_HI e + (scanUnit b.prog b.bloom d).records) % 2 ^ 64
        ∧ v.pair SCN_ENG_IN_LO SCN_ENG_IN_HI e = (s.pair SCN_ENG_IN_LO SCN_ENG_IN_HI e + d.length) % 2 ^ 64
        ∧ s.onlyChanges v [.scn, .regs, .evt, .out]))
  ∧ (∀ (s : State) (l : Lock), s.flag NVQ_STAT_FETCH_STOPPED = false →
      s.host.locks.find? (fun l => !l.granted && grantable s.host.locks l) = some l →
      Completes .lockGrant s (fun t => ∃ v : State,
        t = (if 2 ^ 16 ≤ l.cmd.pod then v.scanStart (l.cmd.pod - 2 ^ 16) l.cmd.cid else v.ioStart l.cmd)
        ∧ v.host = { s.host with locks := s.host.locks.map (fun x => if x = l then { x with granted := true } else x) }
        ∧ s.onlyChanges v [.host, .regs, .out]))

/-- Tasks are submitted, flagged, launched, ended, cancelled and queried, programs loaded and unloaded, cores put in and out of service.
TSK_SUBMIT of a readable descriptor in range with a free entry, quota, a loaded or built-in program and scratch makes a WAITING task with
the descriptor's fields and gives ACCEPTED with generation and index; a field out of range gives MALFORMED with its cause. TSK_FLAG_SET sets
the named flag of the named generation and looks whether the task is ready; a word that names no task raises TSK_STALE_FLAG. A read of
TSK_CORE_TAKE launches the slotted task, sets the pod tag and the entry registers (clearing the others first where the tag changes), or
gives 0. TSK_CORE_END, the time limit and the cancel grace end the running task with the outcome of Table 9.22. TSK_CANCEL sets flag 31 of a
running task and ends one not started. TSK_QUERY latches the state for the writing master. LOAD of a valid image makes a LOADED handle,
UNLOAD frees one no task names. TSK_CORE_CTRL.ONLINE puts a core in or out of service. -/
def Obligations.TaskCommandsComplete : Prop :=
  (∀ (s u : State) (r : Req) (addr : Nat) (d : List Byte), s.grants r (TSK_SUBMIT_HI.key 0 0) true →
      s.fresh.load r (addr / 64 * 64) 64 = (.ok, d, u) →
      (∀ c, descBad d = some c → Acks (.tskSubmit r addr) s r TSK_SUBMIT_HI.win [] (fun t =>
        Tab.look t.tsk.submitRes r.master = some (4 * 2 ^ 29 + c * 2 ^ 26) ∧ t.tsk.tasks = u.tsk.tasks ∧ u.onlyChanges t [.tsk]))
      ∧ (∀ (i : Nat) (pe : Pod),
        let f := fieldAt d
        let vine := if bit (f 14 2) 15 then some (f 14 2 % 4096) else none
        let ve : Option Vine := vine.bind (fun v => Tab.look u.tsk.vines v)
        let pod := if isCore r.master then r.pod
          else match ve with | some e => (if isMgmt r.master then e.pod else f 34 2) | none => f 34 2
        let g := Tab.look u.tsk.progs (f 2 2)
        descBad d = none → Tab.lowestFree u.tsk.tasks 65536 = some i → Tab.look u.pod.pods pod = some pe →
        (u.tsk.tasks.filter (fun kv => kv.2.pod = pod)).length < pe.tasks →
        (f 0 1 = 1 → ∃ p, g = some p ∧ p.pod = pod ∧ p.unloading = false ∧ (p.scratch = 0 ∨ u.scratchUsed pod + p.scratch ≤ pe.memBytes)) →
        (f 0 1 ≠ 1 → f 2 2 < 1028) → (∀ e, ve = some e → e.pod = pod) →
        Acks (.tskSubmit r addr) s r TSK_SUBMIT_HI.win [] (fun t => ∃ (v : State) (x : Task),
          t = (v.enter i x).modTsk (fun k => { k with
            submitRes := Tab.put k.submitRes r.master (2 ^ 29 + Tab.lookD u.tsk.gens i 0 * 2 ^ 16 + i) })
          ∧ x.st = .waiting ∧ x.gen = Tab.lookD u.tsk.gens i 0 ∧ x.kind = f 0 1 ∧ x.prio = f 1 1 ∧ x.program = f 2 2 ∧ x.waitMask = f 4 4
          ∧ x.flags = f 8 4 ∧ x.pod = pod ∧ x.vine = vine ∧ x.affinity = f 16 8 ∧ x.prefer = f 24 8 ∧ x.doneFlag = f 36 4 ∧ x.arg = f 40 8
          ∧ x.compAddr = f 48 8 / 16 * 16 ∧ x.timeLimit = f 56 4 ∧ x.submitter = r.master ∧ x.launched = false ∧ x.cancelled = false
          ∧ v.tsk.tasks = u.tsk.tasks ∧ u.onlyChanges v [.tsk])))
  ∧ (∀ (s : State) (r : Req) (w : Nat), s.grants r (TSK_FLAG_SET.key 0 0) true → bit w 31 = true →
      (∀ x : Task, s.task (w % 65536) = some x → bits w 30 24 = x.gen → bits w 20 16 ≠ 31 → (isCore r.master = true → x.pod = r.pod) →
        Acks (.tskFlagSet r w) s r TSK_FLAG_SET.win [] (fun t => ∃ v : State, t = (v.readyCheck (w % 65536)).dispatch
          ∧ v.task (w % 65536) = some { x with flags := x.flags ||| 2 ^ bits w 20 16 }
          ∧ (∀ j, j ≠ w % 65536 → v.task j = s.task j) ∧ s.onlyChanges v [.tsk, .out]))
      ∧ (s.task (w % 65536) = none → Acks (.tskFlagSet r w) s r TSK_FLAG_SET.win [] (fun t =>
        t.evt.inbox = s.evt.inbox ++ [⟨497, 2, [r.master, w % 65536], none, 0, s.time⟩] ∧ s.onlyChanges t [.regs, .evt, .out])))
  ∧ (∀ (s : State) (r : Req) (w : Nat) (x : Task), s.grants r (TSK_CANCEL.key 0 0) true → bit w 31 = true → bit w 23 = false →
      s.task (w % 65536) = some x → bits w 30 24 = x.gen → (isCore r.master = true → x.pod = r.pod) →
      (x.st = .running → Acks (.tskCancel r w) s r TSK_CANCEL.win [] (fun t =>
        t.task (w % 65536) = some { x with
          cancelled := true, flags := x.flags ||| 2 ^ 31, cancelAt := if x.cancelled then x.cancelAt else s.time }
        ∧ t.out = (if x.cancelIrq && !x.cancelled then [.coreIrq x.core 0] else []) ∧ s.onlyChanges t [.tsk, .out]))
      ∧ (x.st = .waiting ∨ x.st = .ready → Acks (.tskCancel r w) s r TSK_CANCEL.win [] (fun t => ∃ v : State, t = v.taskOver (w % 65536) 0x12 0
        ∧ v.task (w % 65536) = some { x with cancelled := true, flags := x.flags ||| 2 ^ 31 } ∧ s.onlyChanges v [.tsk, .out])))
  ∧ (∀ (s : State) (r : Req) (k : Nat), s.grants r (TSK_CORE_TAKE.key (k / 8) (k % 8)) false →
      (∀ i x, (s.core k).running = none → (s.core k).slot0 = some i → s.task i = some x →
        Acks (.tskCoreTake r k) s r TSK_CORE_TAKE.win (leBytes 4 (2 ^ 31 + x.gen * 2 ^ 24 + x.prio * 2 ^ 21 + i)) (fun t => ∃ v : State,
          t = v.dispatch ∧ v.core k = ⟨(s.core k).slot1, none, some i, x.pod,
            (if (s.core k).tag = x.pod then (s.core k).regs else .cleared).entry x.arg i x.gen
              (if x.kind = 1 then ((Tab.look s.tsk.progs x.program).map Prog.scratch).getD 0 else 0)⟩
          ∧ v.task i = some { x with st := .running, core := k, launched := true, launchedAt := s.time } ∧ s.onlyChanges v [.tsk, .out]))
      ∧ (((s.core k).running ≠ none ∨ (s.core k).slot0 = none) →
        Acks (.tskCoreTake r k) s r TSK_CORE_TAKE.win (leBytes 4 0) (fun t => s.onlyChanges t [.out])))
  ∧ (∀ (s : State) (k i : Nat) (x : Task), (s.core k).running = some i → s.task i = some x →
      let ends := fun (u : State) (t : State) (status code : Nat) => ∃ v : State, t = v.taskOver i status code ∧ (v.core k).running = none
        ∧ v.task i = some x ∧ v.out = u.out ∧ u.onlyChanges v [.tsk, .bg, .evt]
      (∀ (r : Req) (w st code : Nat), s.grants r (TSK_CORE_END.key (k / 8) (k % 8)) true →
        (bits w 31 30 = 0 ∧ w % 65536 = 0 ∧ st = 0x01 ∧ code = 0 ∨ bits w 31 30 = 0 ∧ w % 65536 ≠ 0 ∧ st = 0x10 ∧ code = w % 65536
          ∨ bits w 31 30 = 1 ∧ st = 0x13 ∧ code = w % 65536 ∨ bits w 31 30 = 2 ∧ bit x.flags 31 = true ∧ st = 0x12 ∧ code = 0) →
        Acks (.tskCoreEnd r k w) s r TSK_CORE_END.win [] (fun t => ends s.fresh t st code))
      ∧ (x.st = .running → x.core = k →
        Completes (.taskTimeLimit i) s (fun t => ∃ u : State, ends u t 0x11 0 ∧ u.time = max s.time (x.launchedAt + s.limitOf x)
          ∧ u.out = [.coreIrq k 1] ∧ u.evt.inbox = s.evt.inbox ++ [⟨496, 2, [x.pod, i], some x.pod, 0, u.time⟩]
          ∧ s.onlyChanges u [.time, .regs, .evt, .out])
        ∧ (x.cancelled = true → Completes (.cancelGraceExpiry i) s (fun t => ∃ u : State, ends u t 0x12 0 ∧ u.out = []
          ∧ u.time = max s.time (x.cancelAt + s.fld TSK_CTRL_CANCEL_GRACE * 1000)
          ∧ u.evt.inbox = s.evt.inbox ++ [⟨496, 3, [x.pod, i], some x.pod, 0, u.time⟩] ∧ s.onlyChanges u [.time, .regs, .evt, .out]))))
  ∧ (∀ (s : State) (i : Nat) (x : Task), s.task i = some x → x.st = .ready → Completes (.affWindowExpiry i) s (fun t => ∃ v : State,
      t = v.dispatch ∧ v.task i = some { x with windowOver := true } ∧ v.time = max s.time (x.readyAt + x.affWindow * 1000)
      ∧ s.onlyChanges v [.time, .tsk, .out]))
  ∧ (∀ (s : State) (r : Req) (i : Nat), s.grants r (TSK_QUERY.key 0 0) true → Acks (.tskQuery r i) s r TSK_QUERY.win [] (fun t =>
      Tab.look t.tsk.query r.master = some (s.queryWord r (i % 65536)) ∧ t.tsk.tasks = s.tsk.tasks ∧ s.onlyChanges t [.tsk, .out]))
  ∧ (∀ (s : State) (r : Req) (w : Nat), s.grants r (TSK_PROG_CMD.key 0 0) true →
      (∀ (u v : State) (hd img : List Byte), Tab.has s.tsk.progs (w % 1024) = false → s.fresh.load r s.tsk.progAddr 1864 = (.ok, hd, u) →
        progHeaderOk hd = true → u.load r s.tsk.progAddr (leAt hd 8 4) = (.ok, img, v) →
        Acks (.tskProgLoad r w) s r TSK_PROG_CMD.win [] (fun t =>
          Tab.look t.tsk.progs (w % 1024)
            = some ⟨bits w 27 16, s.tsk.progAddr, leAt hd 24 4, false, decide (leAt hd 5 1 = 0xFF), imageDigest img⟩
          ∧ Tab.look t.tsk.progRes r.master = some 1
          ∧ t.evt.inbox = v.evt.inbox ++ [⟨499, if leAt hd 5 1 = 0xFF then 3 else 1, [bits w 27 16, w % 1024], some (bits w 27 16), 0, v.time⟩]
          ∧ v.onlyChanges t [.tsk, .evt]))
      ∧ (Tab.has s.tsk.progs (w % 1024) = true → Acks (.tskProgLoad r w) s r TSK_PROG_CMD.win [] (fun t =>
        t.tsk.progs = s.tsk.progs ∧ Tab.look t.tsk.progRes r.master = some 2 ∧ s.onlyChanges t [.tsk, .out]))
      ∧ (∀ g : Prog, Tab.look s.tsk.progs (w % 1024) = some g →
        (s.tsk.tasks.any (fun kv => kv.2.kind = 1 && kv.2.program = w % 1024)) = false →
        Acks (.tskProgUnload r w) s r TSK_PROG_CMD.win [] (fun t => Tab.look t.tsk.progs (w % 1024) = none
          ∧ Tab.look t.tsk.progRes r.master = some 1
          ∧ t.evt.inbox = s.evt.inbox ++ [⟨499, 4, [g.pod, w % 1024], some g.pod, 0, s.time⟩] ∧ s.onlyChanges t [.tsk, .host, .evt, .out])))
  ∧ (∀ (s : State) (r : Req) (k w : Nat), k < 128 → s.grants r (TSK_CORE_CTRL.key (k / 8) (k % 8)) true →
      Acks (.tskCoreOnline r k w) s r TSK_CORE_CTRL.win [] (fun t => ∃ v : State, t = v.dispatch
        ∧ v.fld TSK_CORE_CTRL_ONLINE (k / 8) (k % 8) = b2n (bit w 31)
        ∧ (bit w 31 = false → (v.core k).slot0 = none ∧ (v.core k).slot1 = none ∧ (v.core k).running = (s.core k).running)
        ∧ (bit w 31 = true → v.tsk = s.tsk) ∧ s.onlyChanges v [.regs, .tsk, .out]))

/-- Reads, writes, compares, verifies, zeroings, deallocations and flushes take their lock, start, and finish with the effect of Table 10.12.
Every command on logical blocks that passes the checks of R325 is outstanding and has entered the lock order with a range that holds its
units, EXCLUSIVE unless it is a read, a compare or a verify; it is started at once where no earlier request conflicts, and waits otherwise.
A read whose units are all at hand sends their data to the host and succeeds; a verify succeeds; a compare succeeds or fails with Compare
Failure by whether the data are equal. Write Uncorrectable marks every unit UNREC in the map; Write Zeroes of whole units makes them zero,
or deallocated with DEAC; Dataset Management with Deallocate makes them deallocated, and without it has no effect. Versions of those units
in the write buffer are dead. Each of these then commits: its lock goes, and it completes as the durability asks. A Flush waits for what has
been written and recorded before it. -/
def Obligations.NvmCommandsStartAndFinish : Prop :=
  (∀ (s : State) (i : Instr) (k : IoKind) (c : HostCmd) (n : Ns) (a b : Nat),
      (i, k) ∈ [(Instr.nvmRead c, IoKind.read), (.nvmWrite c, .write), (.writeUncorrectable c, .writeUnc), (.compare c, .compare),
        (.writeZeroes c, .writeZeroes), (.datasetManagement c, .dsm), (.verify c, .verify)] →
      s.admitsIo (.io k) c → s.nsServes c n →
      (n.spread = true → (s.spread c.nsid).any s.isHome = true ∧ s.host.nsOps.any (fun o => o.nsid = c.nsid && o.kind = 3) = false) →
      (∀ r ∈ ioRanges k c, r.1 + r.2 ≤ n.size) →
      ((k = .read ∨ k = .write ∨ k = .compare) → c.nlb * lbaBytes n.format ≤ 2097152 ∧ c.xfer.badList = false) →
      ((k = .write ∨ k = .writeUnc ∨ (k = .writeZeroes ∧ bit c.cdw12 25 = false)) → s.ftl.readOnly = false) →
      (k = .dsm → bit c.cdw11 2 = true ∧ c.xfer = .ok) → (n.touched k c).head? = some a → (n.touched k c).getLast? = some b →
      Completes i s (fun t => ∃ (v : State) (l : Lock) (o : OutCmd), v.host.locks = s.host.locks ++ [l] ∧ l.ns = c.nsid ∧ l.cmd = HostCmdRef c
        ∧ (l.first, l.last) = (if n.hold ≠ 0 ∧ l.excl = true then n.lockRange true (a / n.hold * n.hold) ((b / n.hold + 1) * n.hold - 1)
            else n.lockRange l.excl a b)
        ∧ l.excl = !(k = .read || k = .compare || k = .verify)
        ∧ l.granted = s.host.locks.all (fun x => !x.conflicts l)
        ∧ v.outCmd (HostCmdRef c) = some o ∧ o.io = some (k, c) ∧ o.stage = .fetched ∧ s.onlyChanges v [.pod, .host, .regs, .out]
        ∧ t = (if l.granted then v.ioStart (HostCmdRef c) else v.modOut (HostCmdRef c) (fun o => { o with stage := .lockWait }))))
  ∧ (∀ (s : State) (i : Instr) (k : IoKind) (c : HostCmd) (n : Ns) (o : OutCmd),
      (i, k) ∈ [(Instr.nvmRead c, IoKind.read), (.compare c, .compare), (.verify c, .verify)] →
      s.admitsIo (.io k) c → s.nsServes c n → n.spread = false → c.slba + c.nlb ≤ n.size → (k ≠ .verify → c.nlb * lbaBytes n.format ≤ 2097152 ∧ c.xfer = .ok) →
      s.host.locks.all (fun x => x.ns ≠ c.nsid) = true → o.got.map Prod.fst = n.needs k c →
      (∀ x ∈ o.got, s.lookUnit x.1 = .data x.2) →
      Completes i s (fun t => (∀ sc, o.piOutBad n c = some sc →
          s.posts t c 2 sc true 0 ∧ t.out = [] ∧ t.evt.inbox = s.evt.inbox ++ [⟨562, 3, [c.pod, c.nsid], some c.pod, 0, s.time⟩])
        ∧ (o.piOutBad n c = none → t.evt = s.evt
        ∧ (k = .read → s.posts t c 0 0 false 0 ∧ t.out = [.host c.pod c.qid c.cid (o.dataOut n c)])
        ∧ (k = .verify → s.posts t c 0 0 false 0 ∧ t.out = [])
        ∧ (k = .compare → t.out = [] ∧ (if o.dataOut n c = slice c.data 0 (n.xferBytes c) then s.posts t c 0 0 false 0 else s.posts t c 2 0x85 true 0)))
        ∧ t.host.locks.any (fun l => l.cmd = HostCmdRef c) = false ∧ t.ftl.map = s.ftl.map ∧ t.ftl.wbuf = s.ftl.wbuf
        ∧ s.onlyChanges t [.host, .hsk, .ftl, .pod, .regs, .evt, .out]))
  ∧ (∀ (s : State) (i : Instr) (k : IoKind) (c : HostCmd) (n : Ns),
      (i, k) ∈ [(Instr.writeUncorrectable c, IoKind.writeUnc), (.writeZeroes c, .writeZeroes), (.datasetManagement c, .dsm)] →
      s.admitsIo (.io k) c → s.nsServes c n → n.spread = false → 1 ≤ c.nsid → c.nsid ≤ 8192 → n.size ≤ 2 ^ 39 →
      (∀ r ∈ ioRanges k c, r.1 + r.2 ≤ n.size) →
      ((k = .writeUnc ∨ (k = .writeZeroes ∧ bit c.cdw12 25 = false)) → s.ftl.readOnly = false) →
      (k = .dsm → bit c.cdw11 2 = true ∧ c.xfer = .ok) → s.host.locks.all (fun x => x.ns ≠ c.nsid) = true → n.touched k c ≠ [] →
      s.pageMissing ((n.touched k c).map (laddrOf c.nsid)) = false →
      s.admitBar c.pod 0 (if k = .writeUnc then (n.touched k c).length else (runsOf (n.touched k c)).length) false = 0 →
      (k ≠ .writeUnc → n.mdGroup = 0 ∧ (n.touched k c).all (n.whole (ioRanges k c)) = true) →
      Completes i s (fun t => ∃ v : State, t = v.committed (HostCmdRef c)
        ∧ (∀ u ∈ n.touched k c, v.buffered (laddrOf c.nsid u) = none
            ∧ v.mapEntry (laddrOf c.nsid u)
                = (if k = .writeUnc then entryUnrec else if k = .dsm ∨ bit c.cdw12 25 = true then 0 else entryZero))
        ∧ (∀ l, l ∉ (n.touched k c).map (laddrOf c.nsid) → v.buffered l = s.buffered l ∧ v.mapEntry l = s.mapEntry l)
        ∧ s.onlyChanges v [.host, .ftl, .pod, .regs, .out]))
  ∧ (∀ (s : State) (c : HostCmd) (n : Ns), s.admitsIo (.io .dsm) c → s.nsServes c n → n.spread = false → bit c.cdw11 2 = false → c.xfer = .ok →
      (∀ r ∈ ioRanges .dsm c, r.1 + r.2 ≤ n.size) →
      Completes (.datasetManagement c) s (fun t => s.posts t c 0 0 false 0 ∧ t.ftl.map = s.ftl.map ∧ t.ftl.wbuf = s.ftl.wbuf
        ∧ s.onlyChanges t [.host, .hsk, .ftl, .pod, .regs, .out]))
  ∧ (∀ (s : State) (c : HostCmd), s.takesIo c → (c.nsid ≠ 0xFFFFFFFF → s.nsBar c = none) →
      Completes (.nvmFlush c) s (fun t =>
        t.host.flushes = s.host.flushes ++ [⟨some (HostCmdRef c), c.pod, s.ftl.wnext, s.ftl.recCount,
          if c.nsid = 0xFFFFFFFF then none else some c.nsid⟩]
        ∧ t.host.cqes = s.host.cqes ∧ (∃ o, t.outCmd (HostCmdRef c) = some o ∧ o.stage = .started) ∧ s.onlyChanges t [.host, .regs, .out]))

/-- A write's data are checked, admitted and committed; what waits for room, rate or a token goes on when it is looked at again. When all data
of a started write have arrived, HOST_DATA_PULLED checks its transfer and protection information and its room; admitted, its grains are
reserved (R212), its bytes leave the write-rate bucket (R429), it counts as arrived, and it goes on. Once none of its units is missing, each
unit it covers has its new data as the version in the write buffer, and the write commits (R31, R327). A write that finds the dirty limit or
its pod's share reached waits for room. WRITE_BUFFER_ADMIT and WRITE_RATE_ADMIT look at such a waiting write again, with the same outcome.
HELD_ENTRY_ADMIT of a held entry that nothing holds any more takes its tokens and its count, and starts a command on logical blocks; another
entry then counts as fetched. No write changes the map before its units are placed. -/
def Obligations.HostDataIsAdmittedAndCommitted : Prop :=
  (∀ (s : State) (i : Instr) (pod qid cid : Nat) (o : OutCmd) (c : HostCmd) (n : Ns),
      (i, o.stage) ∈ [(Instr.hostDataPulled pod qid cid, Stage.started), (.writeBufferAdmit pod qid cid, .waitBuffer),
        (.writeRateAdmit pod qid cid, .waitRate)] →
      s.outCmd ⟨pod, qid, cid⟩ = some o → HostCmdRef c = ⟨pod, qid, cid⟩ → o.io = some (.write, c) → o.arrived = false → s.nsOf c.nsid = some n →
      n.spread = false → c.xfer = .ok → n.piInBad c = none →
      (∀ k, s.ftl.cap = some k → s.validGrains + s.reservedGrains + s.reserveOf .write c n ≤ k) →
      let mds := n.mdUnits (n.touched .write c)
      s.pageMissing ((n.touched .write c).map (laddrOf c.nsid) ++ mds.map (mdLaddr c.nsid)) = false →
      let bytes := ((n.touched .write c).map (fun _ => n.unit)).sum + mds.length * 4096
      let bar := s.admitBar pod bytes ((n.touched .write c).length + mds.length) true
      (bar = 0 → Completes i s (fun t => ∃ v : State,
        t = (v.modOut ⟨pod, qid, cid⟩ (fun o => { o with arrived := true, bytes := bytes, stage := .started })).ioProgress ⟨pod, qid, cid⟩
        ∧ v.host = s.host ∧ v.ftl.reserved = s.ftl.reserved ++ [(⟨pod, qid, cid⟩, s.reserveOf .write c n)]
        ∧ v.ftl.wrLevel = s.wrFill.ftl.wrLevel - ((n.xferBytes c * 864000000000000000 : Nat) : Int) ∧ v.ftl.wrWaiting = false
        ∧ v.ftl.map = s.ftl.map ∧ v.ftl.wbuf = s.ftl.wbuf ∧ s.onlyChanges v [.ftl, .regs, .evt, .out]))
      ∧ (bar = 1 ∨ bar = 3 → Completes i s (fun t => ∃ p : OutCmd, t.outCmd ⟨pod, qid, cid⟩ = some p ∧ p.stage = .waitBuffer
        ∧ p.io = o.io ∧ p.arrived = false ∧ t.ftl.wbuf = s.ftl.wbuf ∧ t.host.cqes = s.host.cqes
        ∧ s.onlyChanges t (if bar = 1 then [.ftl, .host, .out] else [.ftl, .host, .pod, .regs, .evt, .out])))
      ∧ (bar = 2 → Completes i s (fun t => ∃ p : OutCmd, t.outCmd ⟨pod, qid, cid⟩ = some p ∧ p.stage = .waitRate
        ∧ p.io = o.io ∧ p.arrived = false ∧ t.ftl.wbuf = s.ftl.wbuf ∧ t.fld PWR_WRGOV_STAT_WAITING = (if s.ftl.wrWaiting then s.fld PWR_WRGOV_STAT_WAITING else 1)
        ∧ t.host.cqes = s.host.cqes ∧ s.onlyChanges t [.ftl, .host, .regs, .evt, .out])))
  ∧ (∀ (s : State) (i : Instr) (pod qid cid : Nat) (o : OutCmd) (c : HostCmd) (n : Ns),
      (i, o.stage) ∈ [(Instr.hostDataPulled pod qid cid, Stage.started), (.writeBufferAdmit pod qid cid, .waitBuffer),
        (.writeRateAdmit pod qid cid, .waitRate)] →
      s.outCmd ⟨pod, qid, cid⟩ = some o → HostCmdRef c = ⟨pod, qid, cid⟩ → o.io = some (.write, c) → o.arrived = false → o.need = [] → s.nsOf c.nsid = some n →
      n.spread = false → n.mdGroup = 0 → c.xfer = .ok → n.piInBad c = none →
      (∀ k, s.ftl.cap = some k → s.validGrains + s.reservedGrains + s.reserveOf .write c n ≤ k) →
      s.pageMissing ((n.touched .write c).map (laddrOf c.nsid)) = false →
      s.admitBar pod ((n.touched .write c).map (fun _ => n.unit)).sum (n.touched .write c).length true = 0 →
      Completes i s (fun t => ∃ v : State, t = v.committed ⟨pod, qid, cid⟩
        ∧ (∀ u ∈ n.touched .write c, v.buffered (laddrOf c.nsid u)
            = some (o.merge n c.nsid u [(c.slba, c.nlb)] (fun lba => (n.lbaOf c.pract c.nlb c.data (lba - c.slba)).1)))
        ∧ (∀ l, l ∉ (n.touched .write c).map (laddrOf c.nsid) → v.buffered l = s.buffered l) ∧ v.ftl.map = s.ftl.map
        ∧ v.host.locks = s.host.locks ∧ s.onlyChanges v [.host, .ftl, .cmp, .regs, .evt, .out]))
  ∧ (∀ (s : State) (pod qid cid : Nat) (o : OutCmd) (h : HeldKind) (x : HostCmd), s.outCmd ⟨pod, qid, cid⟩ = some o → o.held = some (h, x) →
      HostCmdRef x = ⟨pod, qid, cid⟩ → s.holdCause h x = none → s.canFetch pod = true →
      Completes (.heldEntryAdmit pod qid cid) s (fun t => ∃ v : State,
        v.pod = { s.pod with pods := Tab.upd (s.takeTokens h x).pod.pods pod (fun p => { p with heldEpisode := false }) }
        ∧ s.onlyChanges v [.pod, .out]
        ∧ (match h with
           | .io k => t = v.ioBegin k x
           | _ => (∃ p : OutCmd, t.outCmd ⟨pod, qid, cid⟩ = some p ∧ p.stage = .fetched ∧ p.held = some (h, x)) ∧ t.pod = v.pod
               ∧ s.onlyChanges t [.pod, .host, .regs, .out])))

/-- Programs are loaded, activated, executed and unloaded through NVMe, and a pod's memory is read, written and copied. LOAD_PROGRAM keeps a
chunk that follows the bytes already there, and succeeds. With the last byte, a scan program is kept in the program store, a program image
whose form is wrong is refused with TSK_PROGRAM 2, and an unsigned image under a waiver goes on to its ledger entry. UNLOAD_PROGRAM forgets
a scan program and unloads a handle. PROGRAM_ACTIVATION_MANAGEMENT activates or deactivates an index. MEMORY_RANGE_SET_MANAGEMENT makes a
set of ranges of the pod's memory with the lowest free number, or removes one. EXECUTE_PROGRAM of a built-in or of a loaded image submits a
task of the pod with PRIO 4 that answers for the command; of a scan program it submits the scan, or waits where a job limit is reached.
SLM_MEMORY_READ gives the pod control namespace or the pod's memory to the host, SLM_MEMORY_WRITE writes the pod's memory, and
SLM_MEMORY_COPY copies ranges of it. Their command fields are the model's choice (log entry 70). -/
def Obligations.ProgramAndMemoryCommandsComplete : Prop :=
  (∀ (s : State) (c : HostCmd), s.takesIo c → 4 ≤ pindOf c → Tab.has s.host.progs (progKey c.pod (pindOf c)) = false → 1 ≤ c.cdw14 →
      c.cdw14 ≤ 2097152 → c.cdw11 ≤ 16777216 → c.cdw15 + c.cdw14 ≤ c.cdw11 → c.xfer = .ok → c.data.length = c.cdw14 →
      (c.cdw15 ≠ 0 → (Tab.lookD s.host.loads (progKey c.pod (pindOf c)) []).length = c.cdw15) →
      ((c.cdw10 / 65536 % 256 = 0xC0 ∧ Config.scnEngines s.part ≠ 0 ∧ s.permit c.pod 3 = true)
        ∨ (c.cdw10 / 65536 % 256 = 0xC1 ∧ s.permit c.pod 2 = true)) →
      let key := progKey c.pod (pindOf c)
      let all := (if c.cdw15 = 0 then [] else Tab.lookD s.host.loads key []) ++ c.data
      let u := (s.begunBy c).modHost (fun h => { h with loads := Tab.del h.loads key })
      (c.cdw15 + c.cdw14 < c.cdw11 → Completes (.loadProgram c) s (fun t => s.posts t c 0 0 false 0
        ∧ t.host.loads = Tab.put s.host.loads key all ∧ t.host.progs = s.host.progs ∧ s.onlyChanges t [.host, .hsk, .regs, .out]))
      ∧ (∀ (a : Nat) (w : State), c.cdw15 + c.cdw14 = c.cdw11 → s.progsHeld c.pod < ((Tab.look s.pod.pods c.pod).map Pod.prog).getD 0 →
        s.storePlace c.cdw11 = some a → u.store ⟨0x60, c.pod⟩ a all = (.ok, w) →
        (c.cdw10 / 65536 % 256 = 0xC0 → Completes (.loadProgram c) s (fun t => s.posts t c 0 0 false 0
          ∧ t.host.progs = Tab.put s.host.progs key ⟨true, 0, a, c.cdw11⟩ ∧ t.host.loads = Tab.del s.host.loads key
          ∧ w.onlyChanges t [.host, .hsk]))
        ∧ (∀ h, c.cdw10 / 65536 % 256 = 0xC1 → s.freeHandle = some h →
          (imageOk all = false → Completes (.loadProgram c) s (fun t => s.posts t c 7 0x36 true 2
            ∧ t.evt.inbox = w.evt.inbox ++ [⟨499, 2, [c.pod, h], some c.pod, 0, s.time⟩] ∧ t.host.progs = Tab.del s.host.progs key
            ∧ w.onlyChanges t [.host, .hsk, .ftl, .pod, .regs, .evt]))
          ∧ (imageOk all = true → leAt all 5 1 = 0xFF → s.waived c.pod (imageDigest all) = true → 64 < w.ringRoom → w.fwPending < w.nv.credits →
            Completes (.loadProgram c) s (fun t => ∃ v : State,
              t = v.appendSubmit 4 (measurement 12 (c.pod + h * 2 ^ 16 + 2 ^ 32) (imageDigest all))
                (.load (HostCmdRef c) c.pod (pindOf c) h a c.cdw11)
              ∧ v.host.progs = Tab.put s.host.progs key ⟨false, h, a, c.cdw11⟩ ∧ w.onlyChanges v [.host])))))
  ∧ (∀ (s : State) (c : HostCmd) (g : HostProg), s.takesIo c → Tab.look s.host.progs (progKey c.pod (pindOf c)) = some g →
      s.permit c.pod (if g.scan then 3 else 2) = true →
      (g.scan = true → Completes (.unloadProgram c) s (fun t => s.posts t c 0 0 false 0
        ∧ t.host.progs = Tab.del s.host.progs (progKey c.pod (pindOf c)) ∧ s.onlyChanges t [.host, .hsk, .regs, .out]))
      ∧ (∀ p : Prog, g.scan = false → Tab.look s.tsk.progs g.handle = some p → p.unloading = false →
        Completes (.unloadProgram c) s (fun t => ∃ v : State, t = v.succeed c
          ∧ v = ((s.begunBy c).modTsk (fun k => { k with progs := Tab.put k.progs g.handle { p with unloading := true } })).handleFree g.handle)))
  ∧ (∀ (s : State) (c : HostCmd), s.takesIo c → (4 ≤ pindOf c → Tab.has s.host.progs (progKey c.pod (pindOf c)) = true) →
      c.cdw10 / 65536 % 16 ≤ 1 →
      s.permit c.pod (if (Tab.look s.host.progs (progKey c.pod (pindOf c))).any (fun g => g.scan) then 3 else 2) = true →
      Completes (.programActivationManagement c) s (fun t => s.posts t c 0 0 false 0
        ∧ (progKey c.pod (pindOf c) ∈ t.host.activated ↔ c.cdw10 / 65536 % 16 = 1)
        ∧ (∀ k, k ≠ progKey c.pod (pindOf c) → (k ∈ t.host.activated ↔ k ∈ s.host.activated)) ∧ s.onlyChanges t [.host, .hsk, .regs, .out]))
  ∧ (∀ (s : State) (c : HostCmd), s.takesIo c → (s.permit c.pod 2 = true ∨ s.permit c.pod 3 = true) →
      (∀ k, c.cdw10 / 65536 % 16 = 0 → c.xfer = .ok → copyRanges c.data ≠ [] → (∀ r ∈ copyRanges c.data, r.1 = slmNs c.pod
          ∧ r.2.1 + r.2.2 ≤ s.slmSize c.pod) → Tab.freeFrom s.host.rangeSets 65535 (progKey c.pod 1) = some k → k / 65536 = c.pod →
        Completes (.memoryRangeSetManagement c) s (fun t => s.posts t c 0 0 false (k % 65536)
          ∧ t.host.rangeSets = Tab.put s.host.rangeSets k ((copyRanges c.data).map (fun r => r.2)) ∧ s.onlyChanges t [.host, .hsk, .regs, .out]))
      ∧ (c.cdw10 / 65536 % 16 = 1 → Tab.has s.host.rangeSets (progKey c.pod (pindOf c)) = true →
        Completes (.memoryRangeSetManagement c) s (fun t => s.posts t c 0 0 false 0
          ∧ t.host.rangeSets = Tab.del s.host.rangeSets (progKey c.pod (pindOf c)) ∧ s.onlyChanges t [.host, .hsk, .regs, .out])))
  ∧ (∀ (s : State) (c : HostCmd), s.admitsIo .execProgram c → c.xfer = .ok →
      let u := (s.takeTokens .execProgram c).begunBy c
      (∀ (i : Nat) (pe : Pod) (kind prog : Nat), s.permit c.pod 2 = true → c.data.length ≤ 64 → c.pod ≤ 4095 →
        Tab.lowestFree s.tsk.tasks 65536 = some i → Tab.look s.pod.pods c.pod = some pe → Tab.lookD s.tsk.gens i 0 < 128 →
        (s.tsk.tasks.filter (fun kv => kv.2.pod = c.pod)).length < pe.tasks →
        (kind = 2 ∧ prog = 1024 + pindOf c ∧ pindOf c < 4 ∧ Tab.look s.host.progs (progKey c.pod (pindOf c)) = none
          ∨ kind = 1 ∧ prog < 1024 ∧ (∃ g p, Tab.look s.host.progs (progKey c.pod (pindOf c)) = some g ∧ g.scan = false ∧ g.handle = prog
            ∧ Tab.look s.tsk.progs prog = some p ∧ p.pod = c.pod ∧ p.unloading = false
            ∧ (p.scratch = 0 ∨ s.scratchUsed c.pod + p.scratch ≤ pe.memBytes))) →
        Completes (.executeProgram c) s (fun t => ∃ (v : State) (x : Task), t = v.enter i x ∧ v = (u.putParams c).2
          ∧ x.st = .waiting ∧ x.kind = kind ∧ x.program = prog ∧ x.prio = 4 ∧ x.affinity = 0 ∧ x.pod = c.pod ∧ x.vine = none
          ∧ x.arg = (u.putParams c).1 % 2 ^ 64 ∧ x.timeLimit = c.cdw13 % 2 ^ 32 ∧ x.submitter = 0x60 ∧ x.cmd = some (HostCmdRef c)))
      ∧ (∀ (g : HostProg) (p : Pod) (r : Nat × Nat) (rest : List (Nat × Nat)) (a : Nat), s.permit c.pod 3 = true →
        Tab.look s.host.progs (progKey c.pod (pindOf c)) = some g → g.scan = true → Tab.look u.pod.pods c.pod = some p →
        Tab.lookD s.host.rangeSets (progKey c.pod (c.cdw10 / 65536)) [] = r :: rest → p.run r.1 r.2 = some a →
        let d := slice c.data 0 24 ++ leBytes 8 g.addr ++ leBytes 8 a ++ leBytes 4 r.2 ++ List.replicate 20 0#8
        Completes (.executeProgram c) s (fun t =>
          t = (match u.scanTake ⟨0x60, c.pod⟩ 0 d (some (HostCmdRef c)) with
            | (.busy, w) => w.modScn (fun x => { x with held := x.held ++ [(HostCmdRef c, d)] })
            | (.ended, w) => w))))
  ∧ (∀ (s : State) (c : HostCmd), s.admitsIo .memRead c → c.cdw12 ≤ 2097152 → c.xfer = .ok →
      let u := (s.takeTokens .memRead c).begunBy c
      (c.nsid = 0xFFFF → c.pod = 0 → slmAt c + c.cdw12 ≤ 327680 → Completes (.slmMemoryRead c) s (fun t => s.posts t c 0 0 false 0
        ∧ t.out = [.host c.pod c.qid c.cid (s.podControl (slmAt c) c.cdw12)] ∧ s.onlyChanges t [.host, .hsk, .pod, .regs, .out]))
      ∧ (∀ (p : Pod) (d : List Byte) (w : State), c.nsid = slmNs c.pod → Tab.look u.pod.pods c.pod = some p → slmAt c + c.cdw12 ≤ p.memBytes →
        u.podLoad 0x60 p (slmAt c) c.cdw12 (podFuel c.cdw12) = (.ok, d, w) → Completes (.slmMemoryRead c) s (fun t => s.posts t c 0 0 false 0
          ∧ t.out = w.out ++ [.host c.pod c.qid c.cid d] ∧ w.onlyChanges t [.host, .hsk, .out])))
  ∧ (∀ (s : State) (c : HostCmd) (p : Pod) (w : State), s.admitsIo .memWrite c → c.nsid = slmNs c.pod → c.cdw12 ≤ 2097152 → c.xfer = .ok →
      Tab.look (s.takeTokens .memWrite c).pod.pods c.pod = some p → slmAt c + c.cdw12 ≤ p.memBytes →
      ((s.takeTokens .memWrite c).begunBy c).podStore 0x60 p (slmAt c) (slice c.data 0 c.cdw12) (podFuel c.cdw12) = (.ok, w) →
      Completes (.slmMemoryWrite c) s (fun t => s.posts t c 0 0 false 0 ∧ t.mem = w.mem ∧ w.onlyChanges t [.host, .hsk]))
  ∧ (∀ (s : State) (c : HostCmd) (p : Pod) (d : List Byte) (v w : State), s.admitsIo .memCopy c → c.nsid = slmNs c.pod → c.xfer = .ok →
      (∀ r ∈ copyRanges c.data, r.1 = slmNs c.pod ∧ r.2.1 + r.2.2 ≤ p.memBytes) →
      Tab.look (s.takeTokens .memCopy c).pod.pods c.pod = some p → slmAt c + ((copyRanges c.data).map (fun r => r.2.2)).sum ≤ p.memBytes →
      ((s.takeTokens .memCopy c).begunBy c).gatherRanges p (copyRanges c.data) = (.ok, d, v) →
      v.podStore 0x60 p (slmAt c) d (podFuel ((copyRanges c.data).map (fun r => r.2.2)).sum) = (.ok, w) →
      Completes (.slmMemoryCopy c) s (fun t => s.posts t c 0 0 false 0 ∧ t.mem = w.mem ∧ w.onlyChanges t [.host, .hsk]))

/-- Pod commands given through POD_CMD_HI create, set, bind, unbind, quiesce, resume, reset, remove, size, save and restore pods. A master
writes the address of a block to POD_CMD_HI. Where fewer than 16 pod commands run and none waits, its operation is performed on the pod it
names: CREATE makes a CREATED pod of a class that exists with that class's defaults; SET replaces the words of its mask, and moves the
interrupt entries where their number changes; BIND gives the pod its port and PASID and makes it ACTIVE; UNBIND takes them away; QUIESCE
begins to drain; RESUME makes it ACTIVE again with the register writes that were held; RESET and REMOVE begin a reset of kind 7; MEM sizes a
range of pod memory and reports the units; SAVE writes the state with its CRC and reports the KiB; RESTORE runs its checks; IMS sets one
interrupt entry. POD_CMD_RES shows DONE with the value, a refusal with its cause, or BUSY while the command goes on. Each of these raises
its event and touches the pod's state and what the operation names. -/
def Obligations.PodCommandsComplete : Prop :=
  (∀ (s u : State) (i : Instr) (r : Req) (addr op : Nat) (d : List Byte),
      (i, op) ∈ [(Instr.podCreate (.fw r addr), 1), (.podSet (.fw r addr), 2), (.podBind (.fw r addr), 3), (.podUnbind (.fw r addr), 4),
        (.podQuiesce (.fw r addr), 5), (.podResume (.fw r addr), 6), (.podReset (.fw r addr), 7), (.podRemove (.fw r addr), 8),
        (.podMem (.fw r addr), 9), (.podSave (.fw r addr), 10), (.podRestore (.fw r addr), 11), (.podIms (.fw r addr), 12)] →
      s.grants r (POD_CMD_HI.key 0 0) true →
      State.load { s.fresh with pod := { s.pod with cmdRes := Tab.put s.pod.cmdRes r.master (3 * 2 ^ 30) } } r addr 64 = (.ok, d, u) →
      u.podRunning < 16 → u.pod.waiting = [] →
      let b := leBytes 1 op ++ d.drop 1
      let p := leAt b 2 2
      let A := fun (P : State → Prop) => Acks i s r POD_CMD_HI.win [] P
      let res := fun (t : State) (v : Nat) => Tab.look t.pod.cmdRes r.master = some v
      let others := fun (t : State) => ∀ k, k ≠ p → Tab.look t.pod.pods k = Tab.look u.pod.pods k
      (podForm b = false → A (fun t => res t (2 * 2 ^ 30 + 2 ^ 24) ∧ t.pod.pods = u.pod.pods
        ∧ t.evt.inbox = u.evt.inbox ++ [⟨585, 1, [p, op], some p, 0, u.time⟩] ∧ u.onlyChanges t [.pod, .evt]))
      ∧ (podForm b = true → p = 0 → op ∈ [1, 3, 4, 5, 7, 8, 10, 11] → A (fun t => res t (2 * 2 ^ 30 + 6 * 2 ^ 24) ∧ t.pod.pods = u.pod.pods
        ∧ t.evt.inbox = u.evt.inbox ++ [⟨585, 6, [p, op], some p, 0, u.time⟩] ∧ u.onlyChanges t [.pod, .evt]))
      ∧ (podForm b = true → p ≠ 0 → op = 1 → Tab.look u.pod.pods p = none →
        (u.fld POD_ENV_W0_MAX_WEIGHT (leAt b 4 1) ≠ 0 → A (fun t => res t (2 ^ 30) ∧ Tab.look t.pod.pods p = some (u.newPod (leAt b 4 1))
          ∧ others t ∧ t.evt.inbox = u.evt.inbox ++ [⟨584, 1, [p], some p, 0, u.time⟩] ∧ u.onlyChanges t [.pod, .evt]))
        ∧ (u.fld POD_ENV_W0_MAX_WEIGHT (leAt b 4 1) = 0 → A (fun t => res t (2 * 2 ^ 30 + 3 * 2 ^ 24) ∧ t.pod.pods = u.pod.pods)))
      ∧ (podForm b = true → p ≠ 0 → op ≠ 1 → Tab.look u.pod.pods p = none → A (fun t => res t (2 * 2 ^ 30 + 2 * 2 ^ 24)
        ∧ t.pod.pods = u.pod.pods ∧ t.evt.inbox = u.evt.inbox ++ [⟨585, 2, [p, op], some p, 0, u.time⟩] ∧ u.onlyChanges t [.pod, .evt]))
      ∧ (∀ e : Pod, podForm b = true → Tab.look u.pod.pods p = some e → (p = 0 → op ∉ [1, 3, 4, 5, 7, 8, 10, 11]) →
        (podAllowed op e.state e.bound = false → A (fun t => res t (2 * 2 ^ 30 + 2 * 2 ^ 24) ∧ t.pod.pods = u.pod.pods
          ∧ t.evt.inbox = u.evt.inbox ++ [⟨585, 2, [p, op], some p, 0, u.time⟩] ∧ u.onlyChanges t [.pod, .evt]))
        ∧ (podAllowed op e.state e.bound = true →
          (op = 2 → ∀ base, let n := e.merge (leAt b 4 4) (leAt b)
            n.inRange = true → (n.imsCount ≠ e.imsCount → e.state = 1 ∨ e.state = 4) → u.within n (u.ctrl p).pairs = true →
            u.podSum p Pod.ioq + n.ioq ≤ 16384 → u.podSum p Pod.imsCount + n.imsCount ≤ 16384 →
            (if n.imsCount ≠ e.imsCount then u.imsRun p n.imsCount else some e.imsBase) = some base →
            A (fun t => res t (2 ^ 30) ∧ others t ∧ Tab.look t.pod.pods p = some { n with
                imsBase := base
                newWeight := if n.weight = e.weight then e.newWeight else e.newWeight.map (fun w => some (w.getD e.weight)) }
              ∧ u.onlyChanges t [.pod]))
          ∧ (op = 3 → (leAt b 4 1 % 2 = 1 → u.portOn 1 = true) →
            (u.pasidUsed p (leAt b 4 1 % 2) (leAt b 8 4) (bit (leAt b 4 1) 2) = false → A (fun t => res t (2 ^ 30) ∧ others t
              ∧ Tab.look t.pod.pods p = some { e with
                  bound := true, port := leAt b 4 1 % 2, noPasid := bit (leAt b 4 1) 2, pasid := leAt b 8 4
                  state := if e.state = 1 then 2 else e.state }
              ∧ t.evt.inbox = u.evt.inbox ++ [⟨584, 2, [p], some p, 0, u.time⟩] ∧ u.onlyChanges t [.pod, .evt]))
            ∧ (u.pasidUsed p (leAt b 4 1 % 2) (leAt b 8 4) (bit (leAt b 4 1) 2) = true → A (fun t =>
              res t (2 * 2 ^ 30 + 5 * 2 ^ 24) ∧ t.pod.pods = u.pod.pods)))
          ∧ (op = 4 → A (fun t => res t (2 ^ 30) ∧ others t
            ∧ Tab.look t.pod.pods p = some { e with bound := false, noPasid := false, pasid := 0 }
            ∧ t.evt.inbox = u.evt.inbox ++ [⟨584, 8, [p], some p, 0, u.time⟩] ∧ u.onlyChanges t [.pod, .evt]))
          ∧ (op = 5 → A (fun t => res t (3 * 2 ^ 30) ∧ others t ∧ Tab.look t.pod.pods p = some (if e.state = 3 then
                { e with waiters := e.waiters ++ [.fw r.master] }
              else { e with state := 3, graceMs := leAt b 4 4, quiesceAt := u.time, graceOver := false, waiters := [.fw r.master] })
            ∧ u.onlyChanges t [.pod]))
          ∧ (op = 6 → (u.ctrl p).heldRegs = [] → A (fun t => res t (2 ^ 30) ∧ others t
            ∧ Tab.look t.pod.pods p = some { e with state := 2, pendVec := [] }
            ∧ t.ctrl p = { u.ctrl p with ninth := false, cfs := (u.ctrl p).cfs || (u.ctrl p).ninth }
            ∧ t.evt.inbox = u.evt.inbox ++ [⟨584, 4, [p], some p, 0, u.time⟩] ∧ u.onlyChanges t [.pod, .host, .evt, .out]))
          ∧ ((op = 7 ∨ op = 8) → u.boot.resets = [] → e.waiters = [] → e.by_ = none → A (fun t => res t (3 * 2 ^ 30)
            ∧ (∃ e', Tab.look t.pod.pods p = some e' ∧ e'.state = op - 2 ∧ e'.by_ = some (.fw r.master))
            ∧ (∃ x ∈ t.boot.resets, x.kind = 7 ∧ x.subject = p)))
          ∧ (op = 9 → ∀ w, let old := (Tab.lookD e.ranges (leAt b 4 1) (0, 0)).2
            let mem := e.memBytes / 0x200000 - old + leAt b 8 4
            (leAt b 8 4 < old → e.state = 1 ∨ e.state = 4) → mem ≤ u.reg POD_ENV_W11 e.cls →
            u.mapUsed 0 + u.podSum p Pod.memBytes + mem * 0x200000 ≤ u.mapBudget → u.setRange p (leAt b 4 1) (leAt b 8 4) = some w →
            A (fun t => res t (2 ^ 30 + mem % 2 ^ 24) ∧ t.pod.pods = w.pod.pods ∧ w.onlyChanges t [.pod]))
          ∧ (op = 10 → ∀ (z : Pod) (w : State), bit (leAt b 4 1) 0 = false → Tab.look u.pod.pods 0 = some z →
            let h := u.savedState p e false
            h.length + 4 ≤ leAt b 16 4 * 1024 → leAt b 8 8 + leAt b 16 4 * 1024 ≤ z.memBytes →
            u.podStore 0 z (leAt b 8 8) (h ++ leBytes 4 (crc32c h)) (podFuel (h.length + 4)) = (.ok, w) →
            A (fun t => res t (2 ^ 30 + ceilDiv (h.length + 4) 1024 % 2 ^ 24) ∧ t.mem = w.mem ∧ t.pod.pods = u.pod.pods ∧ w.onlyChanges t [.pod]))
          ∧ (op = 11 → A (fun t => ∃ (x : Nat) (w : State), u.podRestore p b = (x, w) ∧ t = (w.podEnd (.fw r.master) p 11 x 0).podGo
            ∧ (x = 0 → ∃ e', Tab.look w.pod.pods p = some e' ∧ e'.state = 4 ∧ e'.bound = false)
            ∧ (x = 0 → ⟨584, 7, [p], some p, 0, u.time⟩ ∈ w.evt.inbox)))
          ∧ (op = 12 → let v := leAt b 4 2
            (v < e.imsCount → A (fun t => res t (2 ^ 30) ∧ t.pod.pods = u.pod.pods
              ∧ (∃ x, Tab.look t.pod.ims (e.imsBase + v) = some x ∧ x.addr = leAt b 8 8 ∧ x.data = leAt b 16 4 ∧ x.mask = bit (leAt b 20 1) 0)
              ∧ (∀ k, k ≠ e.imsBase + v → Tab.look t.pod.ims k = Tab.look u.pod.ims k) ∧ u.onlyChanges t [.pod, .out]))
            ∧ (e.imsCount ≤ v → A (fun t => res t (2 * 2 ^ 30 + 2 ^ 24) ∧ t.pod.ims = u.pod.ims)))))
      )
  ∧ (∀ (s : State) (p : Nat) (e : Pod), Tab.look s.pod.pods p = some e → e.state = 3 →
      (e.graceOver = false → Completes (.podGraceExpiry p) s (fun t => t.time = max s.time (e.quiesceAt + e.graceMs * 1000000)
        ∧ (∃ e', Tab.look t.pod.pods p = some e' ∧ e'.graceOver = true ∧ e'.state = 3) ∧ (t.scn.held.any (fun h => h.1.pod = p)) = false
        ∧ (let n := (s.scn.jobs.filter (fun kv => kv.2.pod = p)).length + (s.scn.held.filter (fun h => h.1.pod = p)).length
              + (s.tsk.tasks.filter (fun kv => kv.2.pod = p)).length
           n ≠ 0 → ⟨587, 1, [p, n], some p, 0, t.time⟩ ∈ t.evt.inbox)))
      ∧ (s.drained p = true → Completes (.podQuiesceComplete p) s (fun t => ∃ v : State,
        t = (e.waiters.foldl (fun s b => s.podEnd b p 5 0 ((s.time - e.quiesceAt) / 1000000)) v).podGo
        ∧ v.pod.pods = Tab.upd s.pod.pods p (fun e => { e with state := 4, waiters := [] })
        ∧ v.evt.inbox = s.evt.inbox ++ [⟨584, 3, [p], some p, 0, s.time⟩] ∧ s.onlyChanges v [.pod, .evt, .out])))

/-- DRAM channels train, initialise, refresh, retrain, sleep and are scrubbed; buckets leak; an armed error is injected or discarded.
DRAM_TRAINING_COMPLETE shows the population, the rate and the margins, makes the channel ACTIVE, raises DRC_DEGRADED below the configured
rate, and fixes the address map with the last channel. MEMORY_INIT_COMPLETE marks its unit done; shared SRAM reads zero then. An initialised
channel's lines read zero. DRAM_REFRESH counts. DRAM_MR4_POLL keeps the hot and over-limit ranks, and a temperature further from the last
training than RETRAIN_DT begins a retraining. DISTURB_WINDOW_END forgets the channel's strikes and lifts a throttle at its second window's
end. DRAM_OSC_READ with a drift above OSC_PS whose burst fails makes the channel DEGRADED. Retraining begins, periodic or as a retry, and
ends with settings or DEGRADED. Self-refresh is entered, deepened and left with the state before it. SCRUB_STEP reads its memory's next line
and moves on; no stored byte changes. BUCKET_LEAK takes 1 from every bucket. MPR_INJ_CTRL_WRITE arms an injection under its grant, applies
an IMMEDIATE one, or is discarded with MEM_INJECTED 2. -/
def Obligations.MemoryChannelCommandsComplete : Prop :=
  (∀ (s : State) (c : Nat) (r : TrainReport), c < Config.drcCount s.part → c < 6 → c ∉ s.dram.trained → s.domOn (10 + c) = true →
      channelGib r.width8 r.ranks2 r.density ≠ none → min r.rate (s.fld DRC_CFG_RATE_MAX) < 8 →
      let rate := min r.rate (s.fld DRC_CFG_RATE_MAX)
      let fin := fun (v : State) => if (List.range (Config.drcCount v.part)).all (fun c => v.dram.trained.contains c) then v.mapChannels else v
      (rate ≠ 0 → Completes (.dramTrainingComplete c r) s (fun t => ∃ v : State, t = fin v
        ∧ v.fld DRC_CH_STAT_STATE c = 2 ∧ v.fld DRC_CH_STAT_RATE c = rate ∧ v.fld DRC_CH_STAT_WIDTH c = b2n r.width8
        ∧ v.fld DRC_CH_STAT_RANKS2 c = b2n r.ranks2 ∧ v.fld DRC_CH_STAT_DENSITY c = r.density
        ∧ v.fld DRC_CH_MARGIN_RD_EYE_W c = r.rdEyeW % 256 ∧ v.fld DRC_CH_MARGIN_WR_EYE_W c = r.wrEyeW % 256
        ∧ v.fld DRC_CH_MARGIN_RD_EYE_H c = r.rdEyeH % 256 ∧ v.fld DRC_CH_MARGIN_WR_EYE_H c = r.wrEyeH % 256
        ∧ Tab.look v.dram.trainTemp c = some r.tempC ∧ v.dram.trained = s.dram.trained ++ [c]
        ∧ v.evt.inbox = s.evt.inbox ++ (if rate < s.fld DRC_CFG_RATE_MAX then [⟨165, 1, [c, rate], none, 0, s.time⟩] else [])
        ∧ s.onlyChanges v [.regs, .dram, .evt, .out]))
      ∧ (rate = 0 → Completes (.dramTrainingComplete c r) s (fun t => ∃ v : State, t = fin v ∧ v.dram.trained = s.dram.trained ++ [c]
        ∧ (s.chanFenced c = false → v.fld DRC_CH_STAT_STATE c = 5 ∧ v.chanFenced c = true)
        ∧ ⟨165, 2, [c, 0], none, 0, s.time⟩ ∈ v.evt.inbox ∧ s.onlyChanges v [.regs, .dram, .ftl, .freeCtr, .evt, .out])))
  ∧ (∀ (s : State), Completes (.memoryInitComplete 6) s (fun t => t.flag CFG_MEM_INIT_SRAM_DONE = true
      ∧ (∀ a, 0xE000000000 ≤ a → a < 0xE008000000 → Tab.lookD t.mem a 0#8 = 0#8)
      ∧ (∀ a, (a < 0xE000000000 ∨ 0xE008000000 ≤ a) → Tab.lookD t.mem a 0#8 = Tab.lookD s.mem a 0#8)
      ∧ s.onlyChanges t [.mem, .dram, .regs, .out]))
  ∧ (∀ (s : State) (u : Nat), u < Config.drcCount s.part → u < 6 → u ∈ s.dram.trained → s.chanFenced u = false →
      Completes (.memoryInitComplete u) s (fun t => bit (t.fld CFG_MEM_INIT_DRAM_DONE) u = true
        ∧ (∀ a, Tab.lookD t.mem a 0#8 = if a < 0xE000000000 ∧ s.chanOf a = u then 0#8 else Tab.lookD s.mem a 0#8)
        ∧ s.fld CFG_MEM_INIT_PROGRESS ≤ t.fld CFG_MEM_INIT_PROGRESS
        ∧ (t.dram.mapped ≠ [] → t.goodChannels.all (fun c => bit (t.fld CFG_MEM_INIT_DRAM_DONE) c) = true → t.fld CFG_MEM_INIT_PROGRESS = 255)
        ∧ s.onlyChanges t [.mem, .dram, .regs, .freeCtr, .out]))
  ∧ (∀ (s : State) (c rank : Nat), s.serves c = true → c < 6 → rank < 2 →
      Completes (.dramRefresh c rank) s (fun t => Tab.look t.dram.refreshes (2 * c + rank) = some (Tab.lookD s.dram.refreshes (2 * c + rank) 0 + 1)
        ∧ s.onlyChanges t [.dram, .out])
      ∧ (∀ (hot above : Bool) (temp : Int), Completes (.dramMr4Poll c rank hot above temp) s (fun t =>
        let far := decide (s.fld DRC_TRAIN_CFG_RETRAIN_DT < (temp - Tab.lookD s.dram.trainTemp c temp).natAbs)
        t.time = max s.time (s.since (.mr4 c rank) + 1000000) ∧ (rankKey 2 c rank ∈ t.dram.limited ↔ hot = true) ∧ (rankKey 1 c rank ∈ t.dram.limited ↔ above = true)
        ∧ (∀ k, k ≠ rankKey 2 c rank → k ≠ rankKey 1 c rank → (k ∈ t.dram.limited ↔ k ∈ s.dram.limited))
        ∧ t.evt.inbox = s.evt.inbox
          ++ (if hot = true ∧ rankKey 2 c rank ∉ s.dram.limited then [⟨169, 1, [c, rank], none, 0, t.time⟩] else [])
          ++ (if above = true ∧ rankKey 1 c rank ∉ s.dram.limited then [⟨169, 2, [c, rank], none, 0, t.time⟩] else [])
        ∧ t.fld DRC_CH_STAT_STATE c = (if far then 3 else s.fld DRC_CH_STAT_STATE c)
        ∧ s.onlyChanges t [.time, .timers, .freeCtr, .bg, .dram, .regs, .evt, .out]))
      ∧ (∀ (drift : Nat) (ok : Bool), Completes (.dramOscRead c drift ok) s (fun t =>
        let was := if s.fld DRC_CH_STAT_STATE c = 3 then Tab.lookD s.dram.base c 2 else s.fld DRC_CH_STAT_STATE c
        (s.fld DRC_TRAIN_CFG_OSC_PS < drift → ok = false → t.fld DRC_CH_STAT_STATE c = 4 ∧ Tab.look t.dram.base c = some 4
          ∧ t.evt.inbox = s.evt.inbox ++ (if was = 4 then [] else [⟨165, 3, [c, s.fld DRC_CH_STAT_RATE c], none, 0, t.time⟩])
          ∧ s.onlyChanges t [.time, .timers, .freeCtr, .bg, .dram, .regs, .evt, .out])
        ∧ t.time = max s.time (s.since (.osc c) + s.fld DRC_TRAIN_CFG_OSC_MS * 1000000)
        ∧ (drift ≤ s.fld DRC_TRAIN_CFG_OSC_PS → s.onlyChanges t [.time, .timers, .out])
        ∧ (ok = true → s.onlyChanges t [.time, .timers, .freeCtr, .bg, .out]))))
  ∧ (∀ (s : State) (c : Nat), Completes (.disturbWindowEnd c) s (fun t => t.time = max s.time (s.since (.disturb c) + 32000000)
      ∧ (∀ k, Tab.look t.dram.strikes k = if k / 256 = c then none else Tab.look s.dram.strikes k)
      ∧ (Tab.lookD s.dram.throttleLeft c 0 = 0 → t.regs = s.regs ∧ t.evt = s.evt)
      ∧ (Tab.lookD s.dram.throttleLeft c 0 = 1 → t.flag DRC_CH_DIST_THR_ACTIVE c = false ∧ t.fld DRC_CH_DIST_THROTTLED c = 0
          ∧ (∃ x ∈ t.evt.inbox, x.number = 164 ∧ x.cause = 3 ∧ x.subj.head? = some c))
      ∧ (∀ n, Tab.lookD s.dram.throttleLeft c 0 = n + 2 → Tab.lookD t.dram.throttleLeft c 0 = n + 1 ∧ t.regs = s.regs ∧ t.evt = s.evt)
      ∧ s.onlyChanges t [.time, .timers, .dram, .regs, .evt, .out]))
  ∧ (∀ (s : State) (c : Nat) (r : TrainReport), c < 6 →
      (s.fld DRC_CH_STAT_STATE c = 2 → Completes (.dramRetrainPeriodic c) s (fun t => t.fld DRC_CH_STAT_STATE c = 3
        ∧ Tab.look t.dram.base c = some 2 ∧ t.time = max s.time (Tab.lookD s.dram.trainAt c 0 + s.fld DRC_TRAIN_CFG_RETRAIN_H * 3600000000000)
        ∧ s.onlyChanges t [.time, .timers, .freeCtr, .bg, .dram, .regs, .out]))
      ∧ (s.fld DRC_CH_STAT_STATE c = 4 → Completes (.dramDegradedRetry c) s (fun t => t.fld DRC_CH_STAT_STATE c = 3
        ∧ Tab.look t.dram.base c = some 4 ∧ t.time = max s.time (s.since (.retry c) + 600000000000)
        ∧ s.onlyChanges t [.time, .timers, .freeCtr, .bg, .dram, .regs, .out]))
      ∧ (s.fld DRC_CH_STAT_STATE c = 3 → Completes (.dramRetrainDone c true r) s (fun t => t.fld DRC_CH_STAT_STATE c = 2
          ∧ t.fld DRC_CH_MARGIN_RD_EYE_W c = r.rdEyeW % 256 ∧ Tab.look t.dram.trainTemp c = some r.tempC ∧ Tab.look t.dram.trainAt c = some s.time
          ∧ t.evt.inbox = s.evt.inbox ++ (if Tab.lookD s.dram.base c 2 = 4 then [⟨165, 4, [c, s.fld DRC_CH_STAT_RATE c], none, 0, s.time⟩] else [])
          ∧ s.onlyChanges t [.dram, .regs, .evt, .out])
        ∧ Completes (.dramRetrainDone c false r) s (fun t => t.fld DRC_CH_STAT_STATE c = 4
          ∧ t.evt.inbox = s.evt.inbox ++ (if Tab.lookD s.dram.base c 2 = 4 then [] else [⟨165, 3, [c, s.fld DRC_CH_STAT_RATE c], none, 0, s.time⟩])
          ∧ s.onlyChanges t [.timers, .dram, .regs, .evt, .out]))
      ∧ (s.flag DRC_SR_CFG_SR_EN = true → (s.fld DRC_CH_STAT_STATE c = 2 ∨ s.fld DRC_CH_STAT_STATE c = 4) →
        Completes (.dramSrEntry c false) s (fun t => t.fld DRC_CH_STAT_STATE c = 6 ∧ Tab.look t.dram.base c = some (s.fld DRC_CH_STAT_STATE c)
          ∧ t.time = max s.time (s.since (.request c) + s.fld DRC_SR_CFG_SR_IDLE * 1000) ∧ s.onlyChanges t [.time, .timers, .dram, .regs, .out])
        ∧ Completes (.dramSrEntry c true) s (fun t => s.onlyChanges t [.out]))
      ∧ (s.flag DRC_SR_CFG_DEEP_EN = true → s.fld DRC_CH_STAT_STATE c = 6 → Completes (.dramDeepSrEntry c) s (fun t =>
        t.fld DRC_CH_STAT_STATE c = 7 ∧ t.time = max s.time (s.since (.selfRefresh c) + s.fld DRC_SR_CFG_DEEP_MS * 1000000)
        ∧ s.onlyChanges t [.time, .regs, .out]))
      ∧ (∀ (drift : Nat) (ok : Bool), 6 ≤ s.fld DRC_CH_STAT_STATE c → Tab.lookD s.dram.base c 2 < 8 →
        (s.fld DRC_CH_STAT_STATE c = 6 ∨ drift ≤ s.fld DRC_TRAIN_CFG_OSC_PS ∨ ok = true) → Completes (.dramSrExit c drift ok) s (fun t =>
          t.fld DRC_CH_STAT_STATE c = Tab.lookD s.dram.base c 2 ∧ s.onlyChanges t [.timers, .freeCtr, .bg, .regs, .out])))
  ∧ (∀ (s : State) (m i : Nat) (pe ce : CellErr), m < 6 → s.dram.mapped.findIdx? (fun x => x = m) = some i → s.serves m = true →
      bit (s.fld CFG_MEM_INIT_DRAM_DONE) m = true →
      let k := Tab.lookD s.dram.scrubAt m 0
      let a := s.globalAddr i k
      s.dramCode a ≠ 2 → (s.swMode 0x40 = true → s.lineValid 0x40 a = true) → s.upperHalf a = false →
      let w := s.fresh.every (.scrub m) (s.scrubGap m)
      (s.bgGrant 1 m true false = none → Completes (.scrubStep m pe ce) s (fun t => t = w.bgNote 1 m true))
      ∧ (s.bgGrant 1 m true false ≠ none → Completes (.scrubStep m pe ce) s (fun t => ∃ v : State,
        v = ((w.bgCharge 1 m (s.lineNs m)).dramLine 0x58 a pe ce true).2 ∧ t.mem = s.mem
        ∧ Tab.look t.dram.scrubAt m = some (if (k + 1) * 64 < v.dram.chanCap then k + 1 else 0) ∧ v.onlyChanges t [.dram])))
  ∧ (∀ (s : State) (pe ce : CellErr), Completes (.scrubStep 6 pe ce) s (fun t => ∃ v : State,
      let k := Tab.lookD s.dram.scrubAt 6 0
      v = ((s.fresh.every (.scrub 6) (s.scrubGap 6)).lineRead 0x58 0x42 (0xE800000000 + 64 * k) pe .none true).2 ∧ t.mem = s.mem
      ∧ Tab.look t.dram.scrubAt 6 = some (if (k + 1) * 64 < 0x4000000 then k + 1 else 0) ∧ v.onlyChanges t [.dram]))
  ∧ (∀ (s : State) (k : Nat) (pe ce : CellErr), k < Config.cobCount s.part → s.domOn (2 + k) = true → caught 0 false pe = 1 →
      Completes (.scrubStep (8 + k) pe ce) s (fun t =>
        t = (((s.fresh.every (.scrub (8 + k)) (s.scrubGap (8 + k))).countS MPR_SRAM_STAT_CE MPR_SRAM_STAT_OVF 1).bucketUp (23 + k)) ∧ t.mem = s.mem))
  ∧ (∀ (s : State), Completes .bucketLeak s (fun t =>
      (∀ b, b < 31 → t.fld MPR_BKT_STAT_BUCKET b = s.fld MPR_BKT_STAT_BUCKET b - 1
        ∧ t.fld MPR_BKT_STAT_HEALTH b = (if s.fld MPR_BKT_STAT_HEALTH b = 2
            ∧ 2 * (s.fld MPR_BKT_STAT_BUCKET b - 1) < s.fld MPR_SCRUB_CFG_THRESH then 3 else s.fld MPR_BKT_STAT_HEALTH b))
      ∧ (∀ c, c < Config.drcCount s.part → t.fld DRC_CH_FBKT_FBKT c = s.fld DRC_CH_FBKT_FBKT c - 1)
      ∧ t.time = max s.time (s.since .leak + s.fld MPR_SCRUB_CFG_LEAK_MS * 1000000) ∧ s.onlyChanges t [.time, .timers, .dram, .regs, .out]))
  ∧ (∀ (s : State) (r : Req) (w : Nat), s.grants r (MPR_INJ_CTRL.key 0 0) true → bit w 31 = true →
      let a := s.pair MPR_INJ_ADDR_LO MPR_INJ_ADDR_HI / 64 * 64
      (bit (s.fld SGN_TOKEN_LATCH_GRANT) 2 = true → (isMgmt r.master = true ∨ r.master = 0xFE) → s.injectable w a = true →
        Acks (.mprInjCtrlWrite r w) s r MPR_INJ_CTRL.win [] (fun t => ∃ v : State, t = (if bit w 24 then v.injectOn (a / 64) else v)
          ∧ v.reg MPR_INJ_CTRL = w / 2 ^ 24 * 2 ^ 24 % 2 ^ 32 ∧ s.regsBut v [MPR_INJ_CTRL.key 0 0] ∧ s.onlyChanges v [.regs, .out]))
      ∧ (bit (s.fld SGN_TOKEN_LATCH_GRANT) 2 = false → Acks (.mprInjCtrlWrite r w) s r MPR_INJ_CTRL.win [] (fun t =>
        t.evt.inbox = s.evt.inbox ++ [⟨168, 2, w64 a ++ [bits w 30 28], none, 0, s.time⟩] ∧ s.onlyChanges t [.evt, .out])))

/-- Control loops sample and fault, targets and coefficients are written, rails ramp, domains and flash power groups come and go. A LOOP_SAMPLE
of an enabled loop shows what was measured; in prebias it starts the ramp, in regulation it gives a duty within its clamp or a fault.
LOOP_FAULT_RETRY starts again. CLE_TARGET_WRITE takes an admitted value, at most the ceiling, while the rail stays where it is;
TARGET_RAMP_STEP moves each of L01 to L09 by at most 10 mV towards its goal. CLE_COEF_WRITE makes the set apply at the next sample.
PWR_DOMAIN_REQUEST of one changed bit begins a power-up or an isolation, or is refused with PWR_DOMAIN 3; DOMAIN_POWER_UP_DONE makes the
domain on, DOMAIN_ISOLATE makes it off. FPG_SET begins a load test, FPG_CLEAR a drain or an end, FPG_LOAD_TEST_DONE gives ON or a fault by
resistance and packages, FPG_DRAIN_DONE opens the switches once nothing runs, FPG_OVERCURRENT above one and a half budgets opens them at
once. -/
def Obligations.LoopsDomainsAndPowerGroupsComplete : Prop :=
  (∀ (s : State) (n vIn i : Nat) (v : Int) (steady : Bool), n < 22 →
      let mv := ((max 0 (sat16 v)) * (fullScale n : Int) / 32767).toNat
      (s.fld CLE_STAT_STATE n = 1 → Completes (.loopSample n v vIn i steady) s (fun t => t.fld CLE_STAT_STATE n = 2 ∧ (t.loop n).pre = sat16 v
        ∧ t.time = max s.time (s.since (.sample n) + 500 * (s.fld CLE_CTRL_SAMPLE n + 1)) ∧ (t.loop n).rampAt = t.time ∧ t.fld CLE_MEAS_MV n = min 65535 mv ∧ t.fld CLE_MEAS_CUR n = min 65535 i
        ∧ s.onlyChanges t [.time, .timers, .pwr, .regs, .freeCtr, .out]))
      ∧ (s.fld CLE_STAT_STATE n = 3 → s.fld CLE_MODEL_ETA n ≠ 0 →
        let u := (((s.fresh.every (.sample n) (500 * (s.fld CLE_CTRL_SAMPLE n + 1))).setFld CLE_MEAS_MV (min 65535 mv) n).setFld CLE_MEAS_CUR (min 65535 i) n).coefApply n
        ((u.loopWatch n (sat16 v) (s.railMv n) vIn i 3).1 = none → Completes (.loopSample n v vIn i false) s (fun t =>
          t.fld CLE_STAT_STATE n = 3 ∧ Config.dutyMin n ≤ (t.loop n).duty ∧ (Config.dutyMin n ≤ Config.dutyMax n → (t.loop n).duty ≤ Config.dutyMax n)
          ∧ t.fld CLE_MEAS_MV n = min 65535 mv ∧ t.fld CLE_MEAS_CUR n = min 65535 i
          ∧ s.onlyChanges t [.time, .timers, .pwr, .regs, .freeCtr, .out]))
        ∧ (∀ c, (u.loopWatch n (sat16 v) (s.railMv n) vIn i 3).1 = some c → Completes (.loopSample n v vIn i steady) s (fun t =>
          t = (u.loopWatch n (sat16 v) (s.railMv n) vIn i 3).2.loopFault n c)))
      ∧ (s.fld CLE_STAT_STATE n = 4 → s.fld CLE_CTRL_ACTION n = 0 → s.pwr.trip = 0 → s.pwr.fail = 0 →
        Completes (.loopFaultRetry n) s (fun t => t.fld CLE_STAT_STATE n = 1 ∧ t.time = max s.time ((s.loop n).rampAt + 10000000)
          ∧ s.onlyChanges t [.time, .regs, .out])))
  ∧ (∀ (s : State) (r : Req) (n w : Nat), n < 24 →
      (s.grants r (CLE_TARGET.key n 0) true →
        (s.targetOk n (w % 65536) = true → Acks (.cleTargetWrite r n w) s r CLE_TARGET.win [] (fun t =>
          t.fld CLE_TARGET_TARGET n = (if 1 ≤ n ∧ n ≤ 9 then min (w % 65536) (s.ceilOf n) else w % 65536)
          ∧ (n ≤ 9 → t.railMv n = s.railMv n) ∧ s.onlyChanges t [.pwr, .regs, .out]))
        ∧ (s.targetOk n (w % 65536) = false → Acks (.cleTargetWrite r n w) s r CLE_TARGET.win [] (fun t => s.onlyChanges t [.out])))
      ∧ (s.grants r (CLE_COEF.key n 5) true → Acks (.cleCoefWrite r n w) s r CLE_COEF.win [] (fun t => (t.loop n).newCoef = true
        ∧ t.regs = (s.fresh.storeReg (CLE_COEF.key n 5) w).regs ∧ s.onlyChanges t [.pwr, .regs, .out])))
  ∧ (∀ s : State, let u := s.fresh.every .ramp s.rampGap
    Completes .targetRampStep s (fun t => t.time = max s.time (s.since .ramp + s.rampGap)
      ∧ (s.boot.fwRunning = true → ∀ n, 1 ≤ n → n ≤ 9 → t.railMv n = (if s.railMv n < u.surgeStep.railGoal n then
          min (u.surgeStep.railGoal n) (s.railMv n + 10) else max (u.surgeStep.railGoal n) (s.railMv n - 10)))
      ∧ (s.boot.fwRunning = false → t.pwr = s.pwr) ∧ s.onlyChanges t [.time, .timers, .pwr, .out]))
  ∧ (∀ (s : State) (r : Req) (hi : Bool) (w d : Nat), s.grants r ((if hi then PWR_DOM_REQ_1 else PWR_DOM_REQ_0).key 0 0) true →
      ((hi = false ∧ d < 32) ∨ (hi = true ∧ 32 ≤ d ∧ d < 40)) →
      (∀ k, k ≠ d → ((hi = false ∧ k < 32) ∨ (hi = true ∧ 32 ≤ k ∧ k < 40)) → bit w (k % 32) = s.domReq k) →
      bit w (d % 32) ≠ s.domReq d → s.domFixed d = false →
      let A := Acks (.pwrDomainRequest r hi w) s r PWR_DOM_REQ_0.win []
      (s.domReq d = false → s.mayOn d = true → A (fun t => t.domReq d = true ∧ t.pwr.upping = s.pwr.upping ++ [d]
          ∧ t.pwr.isolating = s.pwr.isolating ∧ (∀ k, k < 40 → k ≠ d → t.domReq k = s.domReq k) ∧ s.onlyChanges t [.timers, .pwr, .regs, .out]))
      ∧ (s.domReq d = true → s.mayOff d = true → A (fun t => t.domReq d = false
          ∧ t.pwr.isolating = (if s.domOn d then s.pwr.isolating ++ [d] else s.pwr.isolating)
          ∧ (∀ k, k < 40 → k ≠ d → t.domReq k = s.domReq k) ∧ s.onlyChanges t [.pwr, .regs, .out]))
      ∧ ((if s.domReq d then s.mayOff d else s.mayOn d) = false → A (fun t =>
          t.evt.inbox = s.evt.inbox ++ [⟨101, 3, [d], none, 0, s.time⟩] ∧ s.onlyChanges t [.evt, .out])))
  ∧ (∀ (s : State) (d : Nat), d < 40 →
      (d ∈ s.pwr.upping → d ∉ s.pwr.isolating → Completes (.domainPowerUpDone d) s (fun t => ∃ v : State,
        t = (v.unitsOn d).raise 101 1 [d] ∧ v.domOn d = true ∧ d ∉ v.pwr.upping
        ∧ v.time = max s.time (s.since (.powerUp d) + powerUpNs d) ∧ s.onlyChanges v [.time, .pwr, .regs, .out]))
      ∧ (d ∈ s.pwr.isolating → Completes (.domainIsolate d) s (fun t => t.domOn d = false ∧ d ∉ t.pwr.isolating
        ∧ (d ∈ t.pwr.upping ↔ d ∈ s.pwr.upping) ∧ ⟨101, 2, [d], none, 0, s.time⟩ ∈ t.evt.inbox)))
  ∧ (∀ (s : State) (r : Req) (w g : Nat), s.grants r (PWR_FPG_CTRL.key 0 0) true → g < fpgCount s.part → g < 16 →
      (∀ k, k < 16 → k ≠ g → bit w k = bit (s.fld PWR_FPG_CTRL_ON) k) → bit w g ≠ bit (s.fld PWR_FPG_CTRL_ON) g →
      (∀ k, k < 16 → k ≠ g → bit (s.fld PWR_FPG_CTRL_ON) k = true → s.fld PWR_FPG_STAT_STATE k ≠ 0) →
      (bit w g = true → s.fld PWR_FPG_STAT_STATE g = 0 → ((List.range 16).filter (fun k => s.fld PWR_FPG_STAT_STATE k = 1)).length < 4 →
        Acks (.fpgSet r w) s r PWR_FPG_CTRL.win [] (fun t => bit (t.fld PWR_FPG_CTRL_ON) g = true ∧ t.fld PWR_FPG_STAT_STATE g = 1
          ∧ (∀ k, k < 16 → k ≠ g → t.fld PWR_FPG_STAT_STATE k = s.fld PWR_FPG_STAT_STATE k) ∧ s.onlyChanges t [.timers, .regs, .out]))
      ∧ (bit w g = false → s.fld PWR_FPG_STAT_STATE g = 2 → s.groupUse g ≠ 0 → Acks (.fpgClear r w) s r PWR_FPG_CTRL.win [] (fun t =>
          bit (t.fld PWR_FPG_CTRL_ON) g = false ∧ t.fld PWR_FPG_STAT_STATE g = 6 ∧ s.onlyChanges t [.regs, .out]))
      ∧ (bit w g = false → (s.fld PWR_FPG_STAT_STATE g = 1 ∨ s.fld PWR_FPG_STAT_STATE g = 3 ∨ s.fld PWR_FPG_STAT_STATE g = 4
            ∨ s.fld PWR_FPG_STAT_STATE g = 5) → Acks (.fpgClear r w) s r PWR_FPG_CTRL.win [] (fun t =>
          bit (t.fld PWR_FPG_CTRL_ON) g = false ∧ t.fld PWR_FPG_STAT_STATE g = 0 ∧ s.onlyChanges t [.regs, .out])))
  ∧ (∀ (s : State) (g ohm10 pkg : Nat), g < 16 → s.fld PWR_FPG_STAT_STATE g = 1 →
      let p := min 31 pkg
      Completes (.fpgLoadTestDone g ohm10 pkg) s (fun t => ∃ v : State, v.fld PWR_FPG_STAT_PKG_EST g = p
        ∧ v.time = max s.time (s.since (.loadTest g) + 5000000)
        ∧ (ohm10 < 20 → t = v.fpgTests ∧ v.fld PWR_FPG_STAT_STATE g = 3 ∧ v.evt.inbox = s.evt.inbox ++ [⟨102, 1, [g, p], none, 0, v.time⟩])
        ∧ (20 ≤ ohm10 → pkg = 0 → t = v.fpgTests ∧ v.fld PWR_FPG_STAT_STATE g = 4
            ∧ v.evt.inbox = s.evt.inbox ++ [⟨102, 3, [g, 0], none, 0, v.time⟩])
        ∧ (20 ≤ ohm10 → pkg ≠ 0 → t = (v.groupStart g).fpgTests ∧ v.fld PWR_FPG_STAT_STATE g = 2 ∧ v.fld PWR_FPG_STAT_SCALE g = 16
            ∧ v.evt.inbox = s.evt.inbox ++ (if s.fld PWR_FPG_CFG_EXPECT_PKG g ≠ 0 ∧ s.fld PWR_FPG_CFG_EXPECT_PKG g ≠ p then
                [⟨102, 2, [g, p], none, 0, v.time⟩] else []))
        ∧ s.onlyChanges v [.time, .regs, .evt, .out]))
  ∧ (∀ (s : State) (g i : Nat), g < 16 →
      (s.fld PWR_FPG_STAT_STATE g = 6 → s.groupUse g = 0 → Completes (.fpgDrainDone g) s (fun t => ∃ v : State, t = v.fpgTests
        ∧ v = (s.fresh.groupGone g).setFld PWR_FPG_STAT_STATE 0 g ∧ v.fld PWR_FPG_STAT_STATE g = 0))
      ∧ ((s.fld PWR_FPG_STAT_STATE g = 2 ∨ s.fld PWR_FPG_STAT_STATE g = 6) → Completes (.fpgOvercurrent g i) s (fun t =>
        (2 * i ≤ 3 * s.fld PWR_FPG_CFG_BUDGET g → t.fld PWR_FPG_STAT_IVCC g = min 65535 i ∧ s.onlyChanges t [.regs, .out])
        ∧ (3 * s.fld PWR_FPG_CFG_BUDGET g < 2 * i → t.fld PWR_FPG_STAT_STATE g = 5
            ∧ ⟨102, 4, [g, s.fld PWR_FPG_STAT_PKG_EST g], none, 0, s.time⟩ ∈ t.evt.inbox))))

/-- Power fails and trips run their sequence, the bank is measured, limits are delivered, and the governors move the ceiling. POWER_FAIL, and
CURRENT_LIMIT_TIMEOUT while limiting, declare a power fail: PFAIL_N low, the input shown, PWR_FAIL raised, MOD_READY gone, and steps 3 and 4
begin. POWER_FAIL_FLUSH_DONE and HOLDUP_CUTOFF end the flush, report it and leave every rail but L11 off. INPUT_CURRENT_LIMIT shows and
reports limiting. BANK_MEASURE_PERIODIC begins a measurement of method 2; BANK_MEASURE_DONE gives C and ESR or declares the bank bad, and
delivers limits. DIRTY_LIMIT_RECOMPUTE delivers the limits the bank covers. GOVERNOR_POWER_STEP lowers the ceiling over the limit by 10 mV;
INPUT_POWER_STEP lowers the cobs' or counts time below 95 %. SURGE_REQUEST enters surge when everything holds, or ends one;
SURGE_BUDGET_EXPIRY ends it at the budget, SURGE_BUDGET_RETURN enters it again. THERMAL_SENSOR_REPORT takes 48 temperatures, and at 115 °C
the shutdown begins; THERMAL_COMPARATOR_TRIP turns the rails off. -/
def Obligations.PowerSupplyAndThermalCommandsComplete : Prop :=
  (∀ (s : State) (i : Instr) (above : Bool) (vin : Nat), (i = .powerFail above vin ∨ (i = .currentLimitTimeout vin ∧ above = false
        ∧ s.flag PWR_IN_STAT_ILIM = true)) → s.pwr.ready = false → s.pwr.fail = 0 →
      Completes i s (fun t => ∃ v : State,
        t = (if s.pwr.trip = 2 then (v.modPwr (fun w => { w with fail := 2, ready := true })).stamp .off else v.failSteps s.pwr.trip)
        ∧ v.pwr.pfailLow = true ∧ v.pwr.fail = 1 ∧ v.pwr.failAt = v.time ∧ v.pwr.method = 0 ∧ v.pwr.upping = [] ∧ v.boot.modReady = false
        ∧ v.flag PWR_IN_STAT_PFAIL = true ∧ v.flag PWR_IN_STAT_OV = above ∧ v.fld PWR_IN_STAT_VIN = vin % 2048
        ∧ (∃ x ∈ v.evt.inbox, x.number = 96 ∧ x.cause = (if above then 2 else 1) ∧ x.subj = [vin])
        ∧ (s.fld PWR_HOLD_STAT_STATE ≠ 3 → v.fld PWR_HOLD_STAT_STATE = 4)
        ∧ v.time = (if i = .powerFail above vin then s.time else max s.time (s.since .limiting + 50000000))))
  ∧ (∀ (s : State) (ns n : Nat),
      ((s.pwr.fail = 1 ∨ s.pwr.trip = 1) → Completes (.powerFailFlushDone ns) s (fun t => t.pwr.dark = true
        ∧ (if s.pwr.fail = 1 then t.pwr.fail = 2 ∧ t.pwr.ready = true else t.pwr.trip = 2) ∧ t.boot.fwRunning = false
        ∧ (∀ k, k < 24 → k ≠ 11 → t.fld CLE_STAT_STATE k = 0) ∧ (∀ d, 1 ≤ d → d < 40 → t.domOn d = false)
        ∧ (∃ x ∈ t.evt.inbox, x.number = 98 ∧ x.cause = 2 ∧ x.subj.head? = some (ns / 1000000))))
      ∧ (s.pwr.fail = 1 → Completes (.holdupCutoff ns n) s (fun t => t.pwr.dark = true ∧ t.pwr.fail = 2 ∧ t.pwr.ready = true
        ∧ t.boot.fwRunning = false ∧ (∀ k, k < 24 → k ≠ 11 → t.fld CLE_STAT_STATE k = 0)
        ∧ (∃ x ∈ t.evt.inbox, x.number = 98 ∧ x.cause = 3 ∧ x.subj.head? = some (ns / 1000000)))))
  ∧ (∀ (s : State) (vin iin : Nat), Completes (.inputCurrentLimit vin iin) s (fun t => t.flag PWR_IN_STAT_ILIM = true
      ∧ t.fld PWR_IN_STAT_VIN = vin % 2048 ∧ t.fld PWR_IN_STAT_IIN = iin % 1024
      ∧ t.evt.inbox = s.evt.inbox ++ (if s.flag PWR_IN_STAT_ILIM then [] else [⟨96, 3, [vin], none, 0, s.time⟩]) ∧ s.onlyChanges t [.timers, .regs, .evt, .out]))
  ∧ (∀ (s : State) (t0 : Nat), s.pwr.measuredAt = some t0 →
      s.fld PWR_HOLD_CFG_V_HOLD * 1000 ≤ s.pwr.vBank + 1000 → s.pwr.fail = 0 → s.pwr.trip = 0 → s.pwr.method = 0 →
      Completes .bankMeasurePeriodic s (fun t => t.pwr = { s.pwr with method := 2 } ∧ t.fld PWR_HOLD_STAT_STATE = 1
        ∧ t.time = max s.time (t0 + 86400000000000) ∧ s.onlyChanges t [.time, .pwr, .regs, .out]))
  ∧ (∀ (s : State) (us fall step mv : Nat), s.pwr.method ≠ 0 → s.pwr.fail = 0 →
      Completes (.bankMeasureDone false us fall step mv) s (fun t => ∃ v : State, t = v.deliverLimit true ∧ v.pwr.method = 0
        ∧ v.pwr.measuredAt = none ∧ v.pwr.vBank = mv ∧ v.fld PWR_HOLD_STAT_STATE = 3
        ∧ v.evt.inbox = s.evt.inbox ++ [⟨97, 2, [0, 0], none, 0, s.time⟩] ∧ s.onlyChanges v [.pwr, .regs, .evt, .freeCtr, .out])
      ∧ (∀ c, (s.pwr.method = 1 → c = s.fld PWR_HOLD_CFG_CHG * us * 10 / 16) → (s.pwr.method ≠ 1 → fall ≠ 0 ∧ c = us * 100000 / fall) →
        470000 ≤ c → Completes (.bankMeasureDone true us fall step mv) s (fun t => ∃ v : State, t = v.deliverLimit true
          ∧ v.pwr = { s.pwr with method := 0, vBank := mv, cNF := c, esr := step / 2, measuredAt := some s.time }
          ∧ v.fld PWR_HOLD_STAT_STATE = 2
          ∧ v.evt.inbox = s.evt.inbox ++ [⟨97, 1, [(c + 5000) / 10000, (step / 2 + 500) / 1000], none, 0, s.time⟩]
            ++ (if s.pwr.measuredAt.isSome ∧ c * 10 < s.pwr.cNF * 9 then
                [⟨97, 4, [(c + 5000) / 10000, (step / 2 + 500) / 1000], none, 0, s.time⟩] else [])
          ∧ s.onlyChanges v [.pwr, .regs, .evt, .out])))
  ∧ (∀ (s : State) (mv : Nat), Completes (.dirtyLimitRecompute mv) s (fun t => ∃ v : State, t = v.deliverLimit false
      ∧ v.pwr = { s.pwr with vBank := mv } ∧ v.time = max s.time (s.since .dirty + 1000000) ∧ s.onlyChanges v [.time, .timers, .pwr, .regs, .out]
      ∧ t.fld FTL_DIRTY_LIMIT_BUF_MIB = v.effLimits.1 / 2 ^ 20 ∧ t.fld FTL_DIRTY_LIMIT_MAP_MIB = v.effLimits.2.1 / 2 ^ 20
      ∧ t.flag FTL_DUR_RESERVE_SHORT = v.effLimits.2.2))
  ∧ (∀ (s : State) (mw : Nat), Completes (.governorPowerStep mw) s (fun t =>
      let u := (s.fresh.every .govern 10000000).trims.uncoreStep
      let limit := if s.pwr.surge.isSome ∧ s.pwr.down = false then 165000 else s.fld PWR_GOV_CFG_P_SUST_W * 1000
      (limit < mw → t.pwr.powerActs = true ∧ t.pwr.ceil = (if 600 < s.pwr.ceil then max 600 (s.pwr.ceil - 10) else s.pwr.ceil)
        ∧ t.evt.inbox = u.evt.inbox ++ (if s.pwr.powerActs then [] else [⟨104, 4, [t.pwr.ceil / 5], none, 0, t.time⟩])
        ∧ u.onlyChanges t [.pwr, .evt])
      ∧ (mw ≤ limit → limit * 95 ≤ mw * 100 → (s.pwr.powerActs = true ∨ s.pwr.tempActs = false) → t = u)
      ∧ (mw ≤ limit → (s.pwr.powerActs = true ∨ s.pwr.tempActs = true) → (s.pwr.powerActs = true → mw * 100 < limit * 95) →
        (s.pwr.tempActs = true → s.junction < ((s.fld PWR_GOV_CFG_T_GOV : Nat) - 3 : Int) * 16) → ∃ v : State, t = v.ceilRestored
        ∧ v.pwr = { u.pwr with ceil := if u.pwr.ceil < u.ceilTop then min u.ceilTop (u.pwr.ceil + 10) else u.pwr.ceil } ∧ u.onlyChanges v [.pwr])))
  ∧ (∀ (s : State) (mw vin iin : Nat) (lim : Bool), Completes (.inputPowerStep mw vin iin lim) s (fun t =>
      let limit := s.fld PWR_IN_CFG_P_LIM_W * 1000
      t.time = max s.time (s.since .input + 100000)
      ∧ t.fld PWR_IN_STAT_VIN = vin % 2048 ∧ t.fld PWR_IN_STAT_IIN = iin % 1024 ∧ t.flag PWR_IN_STAT_ILIM = lim
      ∧ (limit < mw → t.pwr.inputActs = true ∧ t.pwr.lowSince = none
        ∧ (600 < s.pwr.ceil - s.pwr.cobDrop → t.pwr.cobDrop = s.pwr.cobDrop + 10)
        ∧ (s.pwr.inputActs = false → ⟨104, 3, [s.pwr.ceil / 5], none, 0, t.time⟩ ∈ t.evt.inbox))
      ∧ (mw * 100 < limit * 95 → s.pwr.inputActs = false → t.pwr = { s.pwr with lowSince := some (s.pwr.lowSince.getD t.time) })
      ∧ (mw ≤ limit → limit * 95 ≤ mw * 100 → t.pwr = { s.pwr with lowSince := none })))
  ∧ (∀ (s : State) (r : Req) (w : Nat), s.grants r (PWR_GOV_REQ.key 0 0) true →
      let u := s.fresh.storeReg (PWR_GOV_REQ.key 0 0) w
      (u.flag PWR_GOV_REQ_SURGE = true → s.fld PWR_GOV_CFG_SURGE_S ≠ 0 → s.junction ≤ 95 * 16 → 1000000000 ≤ s.surgeLeft →
        s.pwr.powerActs = false → s.pwr.tempActs = false → s.pwr.inputActs = false → s.pwr.forced = false → s.pwr.surge = none →
        s.pwr.trip = 0 → s.pwr.fail = 0 → 40 ≤ s.goodSensors.length → Acks (.surgeRequest r w) s r PWR_GOV_REQ.win [] (fun t =>
          t.pwr = { s.pwr with surge := some s.time, down := false }
          ∧ t.evt.inbox = s.evt.inbox ++ [⟨103, 1, [s.surgeTenths], none, 0, s.time⟩] ∧ t.regs = u.regs ∧ s.onlyChanges t [.pwr, .regs, .evt, .out]))
      ∧ (∀ a, u.flag PWR_GOV_REQ_SURGE = false → s.pwr.surge = some a → s.pwr.down = false → Acks (.surgeRequest r w) s r PWR_GOV_REQ.win [] (fun t =>
          t.pwr = { s.pwr with down := true } ∧ (∃ x, t.evt.inbox = s.evt.inbox ++ [x] ∧ x.number = 103 ∧ x.cause = 5)
          ∧ t.regs = u.regs ∧ s.onlyChanges t [.pwr, .regs, .evt, .out])))
  ∧ (∀ (s : State) (a : Nat), s.pwr.surge = some a → s.pwr.down = false →
      let keep := ceilDiv (s.pwr.ceil - s.sustained) 10 * 100000
      Completes .surgeBudgetExpiry s (fun t => t.time = s.time + (s.surgeLeft - keep)
        ∧ (t.surgeLeft ≤ keep → t.pwr.down = true ∧ t.evt.inbox = s.evt.inbox ++ [⟨103, 2, [t.surgeTenths], none, 0, t.time⟩])
        ∧ (keep < t.surgeLeft → t.pwr = s.pwr ∧ t.evt = s.evt) ∧ s.onlyChanges t [.time, .pwr, .evt, .out]))
  ∧ (∀ (s : State), Completes .surgeBudgetReturn s (fun t => ∃ v : State, t = v.surgeTry ∧ s.onlyChanges v [.time, .out]
      ∧ (∀ e, s.pwr.episodes.find? (fun (e : Nat × Nat) => s.time < e.2 + 300000000000) = some e → s.surgeLeft < 1000000000 →
          v.time = max s.time (e.1 + 300000000000 + (1000000000 - s.surgeLeft)))))
  ∧ (∀ (s : State) (temps : List Int), Completes (.thermalSensorReport temps) s (fun t => ∃ v : State, t = v.thermal
      ∧ (∀ k, k < 48 → v.fld PWR_SENSOR_TEMP k = ofSigned 16 (temps.getD k 0)) ∧ s.onlyChanges v [.time, .timers, .pwr, .regs, .evt, .out]
      ∧ v.time = max s.time (s.since .sensors + 100000)
      ∧ (115 * 16 ≤ v.junction → s.pwr.trip = 0 → s.pwr.fail = 0 → s.pwr.ready = false → t.pwr.thermLow = true ∧ t.pwr.trip = 1)
      ∧ (v.junction < 115 * 16 → 105 * 16 ≤ v.junction → t.pwr.forced = true)))
  ∧ (∀ (s : State) (sensor n : Nat), s.pwr.dark = false → s.pwr.ready = false → Completes (.thermalComparatorTrip sensor n) s (fun t =>
      t.pwr.thermLow = true ∧ t.pwr.tripSeen = some sensor ∧ t.pwr.dark = true ∧ t.boot.fwRunning = false ∧ t.boot.modReady = false
      ∧ (if s.pwr.fail = 1 then t.pwr.fail = 2 ∧ t.pwr.ready = true else t.pwr.trip = 2)
      ∧ (∀ k, k < 24 → k ≠ 11 → t.fld CLE_STAT_STATE k = 0)))

/-- Frames are checked, members come, leave, are suspected and fail, and ports and Neighbor Discovery answer. A frame that fails a check of
Table 15.3 is dropped, counted under its cause and reported, whatever its type. A HEARTBEAT, ALIVE or JOIN of an unknown member makes it
ALIVE and raises ASK_MEMBER; one under a higher incarnation renews it; one that claims this device's own identifier stops egress. A LEAVE
makes its sender LEFT. An ACCUSE or DECLARE of this device raises its incarnation; of another, it joins the suspect's bitmap, and a DECLARE
with a majority makes it FAILED. HEARTBEAT_SEND sends to every monitor on every UP port. MEMBER_MISS_TIMEOUT accuses a silent monitored
member. GOSSIP_MERGE_FLUSH forwards a merged entry once. ASK_RETRANSMIT sends again, or gives up and accuses. ASK_MSGID_EXPIRY forgets a
MSG_ID. ASK_LINK_UP and DOWN show and report a port. Neighbor solicitations of the port's own address and echo requests are answered, an
advertisement resolves a member. -/
def Obligations.GroupMembershipCommandsComplete : Prop :=
  (∀ (s : State) (f : AskFrame) (i : Instr) (type : Nat), (i, type) ∈ [(Instr.heartbeat f, 1), (.accuse f, 2), (.alive f, 3), (.declare f, 4),
        (.join f, 5), (.leave f, 6), (.chunkWrite f, 16), (.parityDelta f, 17), (.chunkRead f, 18), (.chunkData f, 19), (.ack f, 20),
        (.confirm f, 21), (.nsDesc f, 22), (.adopt f, 23)] →
      s.askOn = true → f.port ∈ s.portsUp → (headOf f.bytes).type = type → s.frameCause f (headOf f.bytes) ≠ 0 →
      let k := s.frameCause f (headOf f.bytes)
      Completes i s (fun t => t.fld ASK_DROP_COUNT (k - 1) = min (2 ^ (ASK_DROP_COUNT.hi + 1 - ASK_DROP_COUNT.lo) - 1) (s.fld ASK_DROP_COUNT (k - 1) + 1)
        ∧ t.evt.inbox = s.evt.inbox ++ [⟨657, k, [f.port, (headOf f.bytes).src], none, 0, s.time⟩] ∧ s.onlyChanges t [.regs, .evt, .out]))
  ∧ (∀ (s : State) (f : AskFrame) (i : Instr) (type : Nat), (i, type) ∈ [(Instr.heartbeat f, 1), (.alive f, 3), (.join f, 5)] →
      s.acceptsFrame f type →
      let h := headOf f.bytes
      let m := s.member h.src
      (h.src = s.me → Completes i s (fun t => t.ask.stopped = true
        ∧ t.evt.inbox = s.evt.inbox ++ [⟨659, 5, [s.me, s.nv.incarnation], none, 0, s.time⟩] ∧ s.onlyChanges t [.ask, .evt, .out]))
      ∧ (h.src ≠ s.me → (m.state = 0 ∨ (3 ≤ m.state ∧ type = 5 ∧ m.inc < h.inc)) → Completes i s (fun t =>
        t.member h.src = ⟨1, h.inc, s.time⟩ ∧ ⟨659, 1, [h.src, h.inc], none, 0, s.time⟩ ∈ t.evt.inbox))
      ∧ (h.src ≠ s.me → m.state = 1 → m.inc < h.inc → Completes i s (fun t => t.member h.src = ⟨1, h.inc, s.time⟩
        ∧ t.ask.suspects = s.ask.suspects))
      ∧ (h.src ≠ s.me → m.state = 1 → h.inc ≤ m.inc → Completes i s (fun t => t = s.tookFrame f))
      ∧ (h.src ≠ s.me → m.state = 2 → type ≠ 1 → m.inc < h.inc → Completes i s (fun t => t.member h.src = ⟨1, h.inc, s.time⟩
        ∧ Tab.look t.ask.suspects h.src = none ∧ ⟨658, 2, [h.src], none, 0, s.time⟩ ∈ t.evt.inbox)))
  ∧ (∀ (s : State) (f : AskFrame), s.acceptsFrame f 6 →
      let h := headOf f.bytes
      let m := s.member h.src
      (m.state = 1 ∨ m.state = 2) → m.inc = h.inc → Completes (.leave f) s (fun t => (t.member h.src).state = 4 ∧ (t.member h.src).inc = m.inc
        ∧ Tab.look t.ask.suspects h.src = none ∧ ⟨659, 2, [h.src, m.inc], none, 0, s.time⟩ ∈ t.evt.inbox))
  ∧ (∀ (s : State) (f : AskFrame) (i : Instr) (type : Nat), (i, type) ∈ [(Instr.accuse f, 2), (.declare f, 4)] → s.acceptsFrame f type →
      let pl := (headOf f.bytes).payload
      let subj := leAt pl 0 2
      let u := s.tookFrame f
      (subj = s.me → leAt pl 8 4 = s.nv.incarnation → Completes i s (fun t => t.nv.incarnation = s.nv.incarnation + 1
        ∧ (type = 4 → ⟨659, 4, [s.me, s.nv.incarnation], none, 0, s.time⟩ ∈ t.evt.inbox)))
      ∧ (subj = s.me → leAt pl 8 4 ≠ s.nv.incarnation → Completes i s (fun t => t = u))
      ∧ (subj ≠ s.me → leAt pl 8 4 = (u.member subj).inc → ((u.member subj).state = 1 ∨ (u.member subj).state = 2) →
        Completes i s (fun t => ∃ v : State,
          v = u.orSuspect subj (leAt pl 2 1) (accuseBitmap pl) f.via
          ∧ t = (if type = 4 ∧ s.groupN < 2 * popCount (accuseBitmap pl) ∧ Tab.has v.ask.suspects subj = true then v.failMember subj
                 else ((v.endorse subj f.via).tally subj).countAsk)
          ∧ (type = 4 → s.groupN < 2 * popCount (accuseBitmap pl) → Tab.has v.ask.suspects subj = true →
              (t.member subj).state = 3 ∧ ⟨659, 3, [subj, (u.member subj).inc], none, 0, s.time⟩ ∈ t.evt.inbox))))
  ∧ (∀ (s : State) (g : GroupKey) (p m : Nat), s.fld ASK_VIEW_STAT_STATE = 2 → s.activeKey = some g → s.groupN ≤ 16384 → p ∈ s.portsUp →
      m ∈ monitorsOf s.groupN s.me → Completes .heartbeatSend s (fun t =>
        t = (((s.fresh.every .heartbeat (s.fld ASK_HB_CFG_HB * 100000)).floodTo (monitorsOf s.groupN s.me) 1 []).egressGo 0).egressGo 1
        ∧ t.time = max s.time (s.since .heartbeat + s.fld ASK_HB_CFG_HB * 100000)
        ∧ Tab.look t.ask.seqOut (p * 16384 + m) = some (Tab.lookD s.ask.seqOut (p * 16384 + m) 0 + 1)))
  ∧ (∀ (s : State) (m : Nat), s.askOn = true → m ∈ monitoredBy s.groupN s.me → m ≠ s.me → ((s.member m).state = 1 ∨ (s.member m).state = 2) →
      (Tab.has s.ask.suspects m = true ∨ s.ask.suspects.length < 2048) →
      Completes (.memberMissTimeout m) s (fun t =>
        t.time = max (max s.time ((s.member m).heard + s.fld ASK_HB_CFG_MISS * s.fld ASK_HB_CFG_HB * 100000))
          (s.since (.accuse m) + s.fld ASK_HB_CFG_HB * 100000)
        ∧ ((∃ e, Tab.look t.ask.suspects m = some e ∧ bit e.accusers s.me = true) ∨ (t.member m).state = 3)))
  ∧ (∀ (s : State) (m : Nat) (e : AskSuspect) (l : List Nat), Tab.look s.ask.suspects m = some e → e.merged = some l →
      Completes (.gossipMergeFlush m) s (fun t => Tab.look t.ask.suspects m = some { e with merged := none }
        ∧ t.time = max s.time (s.since (.merge m) + s.fld ASK_HB_CFG_GOSSIP * 10000)
        ∧ (∀ k, k ≠ m → Tab.look t.ask.suspects k = Tab.look s.ask.suspects k)))
  ∧ (∀ (s : State) (id : Nat) (x : AskSend), s.ask.sends.find? (fun x => x.id = id) = some x →
      (x.tries < s.fld ASK_XFER_CFG_RETRIES → Completes (.askRetransmit id) s (fun t => ∃ v : State, t = v.sendVia (v.askBg x.why) x.dst x.type 1 x.fields x.chunk
        ∧ v.time = max s.time (x.sentAt + s.rto)
        ∧ v.ask.sends = s.ask.sends.map (fun y => if y.id = id then { y with tries := y.tries + 1, sentAt := v.time } else y)
        ∧ s.onlyChanges v [.time, .ask, .out]))
      ∧ (s.fld ASK_XFER_CFG_RETRIES ≤ x.tries → Completes (.askRetransmit id) s (fun t => ∃ v : State, t = (v.accuse x.dst 2).sendLost x
        ∧ v.ask.sends = s.ask.sends.filter (fun y => y.id ≠ id) ∧ v.time = max s.time (x.sentAt + s.rto) ∧ s.onlyChanges v [.time, .ask, .out])))
  ∧ (∀ (s : State) (src id : Nat), Completes (.askMsgidExpiry src id) s (fun t =>
      t.ask.msgs = s.ask.msgs.filter (fun m => !(m.src = src && m.id = id))
      ∧ t.ask.frags = s.ask.frags.filter (fun m => !(m.src = src && m.id = id))
      ∧ (∀ m, s.ask.msgs.find? (fun m => m.src = src && m.id = id) = some m →
        t.time = max s.time (m.at_ + 2 * (s.fld ASK_XFER_CFG_RETRIES + 1) * s.rto)) ∧ s.onlyChanges t [.time, .ask, .out]))
  ∧ (∀ (s : State) (p type loss : Nat), p < 2 → p < Config.askPorts s.part → s.domOn (33 + p) = true →
      Completes (.askLinkUp p type loss) s (fun t => ∃ v : State, t = v.askJoin ∧ v.fld ASK_PORT_STAT_STATE p = 2
        ∧ v.fld ASK_PORT_STAT_TYPE p = type % 4 ∧ v.fld ASK_PORT_STAT_LOSS p = loss % 256
        ∧ v.evt.inbox.take (s.evt.inbox.length + 1) = s.evt.inbox ++ [⟨656, 1, [p], none, 0, s.time⟩] ∧ s.onlyChanges v [.regs, .evt, .out]))
  ∧ (∀ (s : State) (p : Nat), p ∈ s.portsUp →
      Completes (.askLinkDown p) s (fun t => t.fld ASK_PORT_STAT_STATE p = 0
        ∧ t.evt.inbox = s.evt.inbox ++ [⟨656, 2, [p], none, 0, s.time⟩] ∧ s.onlyChanges t [.regs, .evt, .out])
      ∧ Completes (.neighborSolicitation p (s.askAddr p s.me)) s (fun t => t.out = [.icmp p 136 (beBytes 16 (s.askAddr p s.me))]
        ∧ s.onlyChanges t [.out])
      ∧ (∀ target, target ≠ s.askAddr p s.me → Completes (.neighborSolicitation p target) s (fun t => t.out = [] ∧ s.onlyChanges t [.out]))
      ∧ (∀ body, s.ask.stopped = false → Completes (.echoRequest p body) s (fun t => t.out = [.icmp p 129 body] ∧ s.onlyChanges t [.out]))
      ∧ (∀ m ll, Completes (.neighborAdvertisement p m ll) s (fun t => ∃ v : State, Tab.look v.ask.resolved (p * 16384 + m) = some ll
        ∧ v.ask.waiting = s.ask.waiting.filter (fun w => !(w.port = p && w.dst = m)) ∧ v.out = [] ∧ s.onlyChanges v [.ask, .out]
        ∧ (let mine := s.ask.waiting.filter (fun w => w.port = p && w.dst = m)
           t = (if s.ask.stopped then v
             else (mine.filter (fun w => w.type ≤ 6) ++ mine.filter (fun w => 6 < w.type)).foldl (fun u w => u.enqueueOut w) v)))))

/-- Chunks are written, read, acknowledged and confirmed; adoption, replacement and rebuild proceed; group keys are kept. A new whole data frame
acts once. CHUNK_WRITE and PARITY_DELTA of a known namespace under a current home epoch begin an update of the chunk; CHUNK_READ of a
buffered chunk is answered with it. A frame that names an unknown namespace is acknowledged with result 3, one of an earlier home epoch with
1. CHUNK_DATA gives its chunk to the fetch that asked for it; ACK ends the wait of its sender's position, descriptor, vote or mended chunk;
CONFIRM discards the previous version it names. NS_DESC of a new namespace is kept in a free slot; ADOPT of a later epoch is accepted. Under
pod 0, INSTALL_RX keeps a receive secret in place of an earlier one, ACTIVATE makes a held epoch active, REMOVE forgets an inactive one;
each raises ASK_KEY. SPREAD_ADOPT asks every member for its vote; SPREAD_REPLACE, REJOIN_TIMEOUT and REBUILD_STRIPE start and carry on a
rebuild. -/
def Obligations.ChunkAndGroupKeyCommandsComplete : Prop :=
  (∀ (s : State) (f : AskFrame) (i : Instr) (type : Nat) (delta : Bool), (i, type, delta) ∈ [(Instr.chunkWrite f, 16, false), (.parityDelta f, 17, true)] →
      s.acceptsFrame f type → s.newMessage f →
      let h := headOf f.bytes
      let id := leAt h.payload 0 8
      let b := h.payload.take (fieldBytes type)
      let u := s.noted f
      (s.spreadOf (leAt b 8 8) = none → Completes i s (fun t => t = u.askAck h.src id 3))
      ∧ (∀ nsid x, s.spreadOf (leAt b 8 8) = some (nsid, x) →
        (leAt b 32 4 < x.homeEpoch → Completes i s (fun t => t = u.askAck h.src id 1))
        ∧ (x.homeEpoch ≤ leAt b 32 4 → Completes i s (fun t =>
          t = u.putStart ⟨nsid, leAt b 16 8, leAt b 24 8, leAt b 36 4, delta, h.payload.drop (fieldBytes type), [], 0, .frame h.src id⟩))))
  ∧ (∀ (s : State) (f : AskFrame), s.acceptsFrame f 18 → s.newMessage f →
      let h := headOf f.bytes
      let id := leAt h.payload 0 8
      let st := leAt h.payload 16 8
      let u := s.noted f
      (s.spreadOf (leAt h.payload 8 8) = none → Completes (.chunkRead f) s (fun t => t = u.askAck h.src id 3))
      ∧ (∀ nsid x d, s.spreadOf (leAt h.payload 8 8) = some (nsid, x) → Tab.look x.prev st = none → s.buffered (laddrOf nsid st) = some d →
        Completes (.chunkRead f) s (fun t => t = u.askAnswer h.src id 19 (leBytes 8 id ++ leBytes 8 (Tab.lookD x.chunkVer st 0)) d)))
  ∧ (∀ (s : State) (f : AskFrame) (x : AskSend) (g idx : Nat), s.acceptsFrame f 19 →
      let h := headOf f.bytes
      let id := leAt h.payload 0 8
      bits h.flags 3 1 = 0 → bit h.flags 4 = true → s.ask.frags.all (fun m => !(m.src = h.src && m.id = id)) = true →
      s.ask.sends.find? (fun x => x.id = id && x.dst = h.src) = some x → x.why = .fetch g idx →
      Completes (.chunkData f) s (fun t => ∃ v : State,
        t = ((v.fetchGot g idx (leAt h.payload 8 8) (h.payload.drop 16)).askProgress).scanGo
        ∧ v.ask.sends = s.ask.sends.filter (fun y => y.id ≠ id) ∧ v.ask.fetches = s.ask.fetches ∧ s.onlyChanges v [.ask, .out]))
  ∧ (∀ (s : State) (f : AskFrame), s.acceptsFrame f 20 →
      let h := headOf f.bytes
      let id := leAt h.payload 0 8
      (s.ask.sends.find? (fun x => x.id = id && x.dst = h.src) = none → Completes (.ack f) s (fun t => t = s.tookFrame f))
      ∧ (∀ x : AskSend, s.ask.sends.find? (fun x => x.id = id && x.dst = h.src) = some x → leAt h.payload 8 1 = 0 →
        Completes (.ack f) s (fun t => ∃ v : State, v.ask.sends = s.ask.sends.filter (fun y => y.id ≠ id) ∧ s.onlyChanges v [.ask, .out]
          ∧ (match x.why with
             | .update u pos => t = (v.updateAck u pos).scanGo
             | .desc n => t = v.descAnswer n h.src
             | .adopt n => t = v.adoptVote n h.src true
             | .mend n pos st => t = v.mended n pos st
             | .fetch _ _ => t = v))))
  ∧ (∀ (s : State) (f : AskFrame) (nsid : Nat) (x : Spread), s.acceptsFrame f 21 →
      let pl := (headOf f.bytes).payload
      pl.length = 24 → s.spreadOf (leAt pl 0 8) = some (nsid, x) → s.spread nsid = some x →
      Completes (.confirm f) s (fun t => t.spread nsid = some
          (if Tab.lookD x.chunkVer (leAt pl 8 8) 0 = leAt pl 16 8 then { x with prev := Tab.del x.prev (leAt pl 8 8) } else x)
        ∧ (∀ k, k ≠ nsid → t.spread k = s.spread k) ∧ s.onlyChanges t [.ask, .out]))
  ∧ (∀ (s : State) (f : AskFrame) (slot : Nat), s.acceptsFrame f 22 → s.newMessage f →
      let h := headOf f.bytes
      let b := h.payload
      s.ask.spreads.all (fun kv => kv.2.nguid ≠ slice b 8 16) = true →
      Tab.lowestFree (s.host.ns.map (fun kv => (kv.1 - 1, kv.2))) 8192 = some slot → 1 ≤ leAt b 24 1 →
      Completes (.nsDesc f) s (fun t => ∃ (v : State) (n : Ns), n.size = leAt b 80 8 / 4096 ∧ n.format = 3 ∧ n.coarse = decide (leAt b 76 1 = 1)
        ∧ n.spread = true ∧ n.hold = leAt b 24 1 ∧ n.pods = [] ∧ n.status = 0
        ∧ t = v.askAck h.src (leAt b 0 8) (if s.mapFits (slot + 1) n then 0 else 2)
        ∧ (if s.mapFits (slot + 1) n then v.nsOf (slot + 1) = some n
            ∧ (∃ x, v.spread (slot + 1) = some x ∧ x.nguid = slice b 8 16 ∧ x.k = leAt b 24 1 ∧ x.m = leAt b 25 1
              ∧ x.home = leAt b 78 2 ∧ x.homeEpoch = leAt b 88 4 ∧ x.size = leAt b 80 8)
           else v = s.noted f)))
  ∧ (∀ (s : State) (f : AskFrame), s.acceptsFrame f 23 → s.newMessage f →
      let h := headOf f.bytes
      let id := leAt h.payload 0 8
      (s.spreadOf (leAt h.payload 8 8) = none → Completes (.adopt f) s (fun t => t = (s.noted f).askAck h.src id 3))
      ∧ (∀ nsid x, s.spreadOf (leAt h.payload 8 8) = some (nsid, x) → s.spread nsid = some x →
        (leAt h.payload 16 4 ≤ x.homeEpoch → Completes (.adopt f) s (fun t => t = (s.noted f).askAck h.src id 1))
        ∧ (x.homeEpoch < leAt h.payload 16 4 → Completes (.adopt f) s (fun t => ∃ v : State, t = v.askAck h.src id 0
          ∧ v.spread nsid = some { x with homeEpoch := leAt h.payload 16 4, home := h.src, released := false } ∧ s.onlyChanges v [.ask, .out]))))
  ∧ (∀ (s : State) (c : HostCmd), s.admits c pod0Cmd → Config.askPorts s.part ≠ 0 → c.xfer = .ok → allZero (slice c.data 41 7) = true →
      let e := leAt c.data 32 8
      let held := s.groupKeys
      (leAt c.data 40 1 = 1 → s.sgn.mediaRoot = true → Completes (.askifKeyInstallRx c) s (fun t => s.posts t c 0 0 false 0
        ∧ t.nv = { s.nv with groupKeys := held.filter GroupKey.active ++ [⟨e, slice c.data 0 32, false, s.nv.mediaEpoch⟩] }
        ∧ t.evt.inbox = s.evt.inbox ++ [⟨660, 1, w64 e, none, 0, s.time⟩] ∧ s.onlyChanges t [.host, .hsk, .nv, .regs, .evt, .out]))
      ∧ (leAt c.data 40 1 = 2 → held.any (fun g => g.epoch = e) = true → Completes (.askifKeyActivate c) s (fun t => s.posts t c 0 0 false 0
        ∧ t.nv.groupKeys = held.map (fun g => { g with active := g.epoch = e }) ∧ ⟨660, 2, w64 e, none, 0, s.time⟩ ∈ t.evt.inbox))
      ∧ (∀ g, leAt c.data 40 1 = 3 → held.find? (fun g => g.epoch = e) = some g → g.active = false →
        Completes (.askifKeyRemove c) s (fun t => s.posts t c 0 0 false 0 ∧ t.nv = { s.nv with groupKeys := held.erase g }
          ∧ t.evt.inbox = s.evt.inbox ++ [⟨660, 3, w64 e, none, 0, s.time⟩] ∧ s.onlyChanges t [.host, .hsk, .nv, .regs, .evt, .out])))
  ∧ (∀ (s : State) (c : HostCmd) (nsid : Nat) (x : Spread), s.admits c ⟨true, true, true, true⟩ → Config.askPorts s.part ≠ 0 → c.xfer = .ok →
      leAt c.data 17 1 = 0 → allZero (slice c.data 22 10) = true →
      s.ask.spreads.find? (fun kv => kv.2.nguid = slice c.data 0 16) = some (nsid, x) → s.spread nsid = some x →
      (leAt c.data 16 1 = 1 → leAt c.data 18 4 = 0 → x.members.contains s.me = true →
        (x.released = true ∨ (s.member x.home).state = 3 ∨ (s.member x.home).state = 4) →
        Completes (.spreadAdopt c) s (fun t =>
          let peers := (s.spreadPeers x).filter (fun m => x.members.contains m)
          t = (peers.foldl (fun s m => s.askFor m 23 (leBytes 8 x.id ++ leBytes 4 (x.homeEpoch + 1)) [] (.adopt nsid)) (s.begunBy c)).adoptTally
            ⟨nsid, some (HostCmdRef c), peers, [s.me]⟩))
      ∧ (∀ pos, leAt c.data 16 1 = 3 → x.members.findIdx? (fun m => m = leAt c.data 18 2) = some pos → s.isHome x = true →
        x.members.contains (leAt c.data 20 2) = false → (leAt c.data 20 2 = s.me ∨ (s.member (leAt c.data 20 2)).state = 1) →
        Completes (.spreadReplace c) s (fun t => s.posts t c 0 0 false 0 ∧ t.spread nsid = some { x with
            rebuild := some (pos, leAt c.data 20 2, 0), absent := if x.absent.contains pos then x.absent else x.absent ++ [pos] }
          ∧ ⟨661, 4, w64 x.id ++ [leAt c.data 20 2], none, 0, s.time⟩ ∈ t.evt.inbox)))
  ∧ (∀ (s : State) (nsid pos m : Nat) (x : Spread), s.spread nsid = some x → s.isHome x = true →
      (x.absent.contains pos = true → x.rebuild = none → x.spares.find? (fun m => m = s.me || (s.member m).state = 1) = some m →
        (s.member (x.members.getD pos 0)).state ≠ 1 → Completes (.rejoinTimeout nsid pos) s (fun t =>
          t.time = max s.time (s.since (.absent nsid pos) + s.fld ASK_XFER_CFG_REJOIN_S * 1000000000) ∧ t.spread nsid = some { x with rebuild := some (pos, m, 0) }
          ∧ ⟨661, 4, w64 x.id ++ [m], none, 0, t.time⟩ ∈ t.evt.inbox))
      ∧ (∀ next, x.rebuild = some (pos, m, next) → s.mending nsid pos = false → s.updating nsid next = false → Completes (.rebuildStripe nsid) s (fun t =>
        t = s.fresh.fetchStart nsid next (x.idxAt next pos) (.mend pos))))

/-- Firmware events are raised, coalescing windows end, the queue is consumed, and series are sampled, folded and snapshot. A granted write of
EVT_RAISE by a management core with a firmware event number raises that event with the cause written and the subject words written before;
another is discarded. COAL_ENTRY_CLOSE delivers the oldest open entry's one record when its window ends. A write of EVT_MQ_RD by a
management core stores a count that does not pass WR and discards one that would. SERIES_SAMPLE counts one sample of a KIND 2 series whose
source answers the recorder, and nothing for another kind. HISTORY_FOLD adds a live block's COUNT to its lifetime and current period block,
and reopens every live block. HISTORY_PERIOD_CLOSE opens the next of the 30 period blocks, not before 24 h have passed, and leaves the other
period blocks as they are. REC_SNAP_CMD starts a snapshot and writes its copy, or is refused while one runs; SNAPSHOT_DONE ends it with
done, or refused when a write failed. -/
def Obligations.EventAndRecorderCommandsComplete : Prop :=
  (∀ (s : State) (r : Req) (w : Nat), s.grants r (EVT_RAISE.key 0 0) true →
      (isMgmt r.master = true → 736 ≤ w % 1024 → w % 1024 < 768 → Acks (.evtRaise r w) s r EVT_RAISE.win [] (fun t =>
        t.evt.inbox = s.evt.inbox ++ [⟨w % 1024, bits w 23 16, s.evt.raiseSubj, none, 8, s.time⟩] ∧ s.onlyChanges t [.evt, .out]))
      ∧ (isMgmt r.master = false ∨ w % 1024 < 736 ∨ 768 ≤ w % 1024 →
        Acks (.evtRaise r w) s r EVT_RAISE.win [] (fun t => s.onlyChanges t [.out])))
  ∧ (∀ (s : State) (e : CoalEntry) (rest : List CoalEntry), s.evt.coal = e :: rest →
      Completes .coalEntryClose s (fun t => ∃ v : State, t = v.deliver (e.record false)
        ∧ v.time = max s.time (e.first + s.fld EVT_CTRL_COAL_US * 1000) ∧ v.evt = { s.evt with coal := rest }
        ∧ s.onlyChanges v [.time, .evt, .regs, .out]))
  ∧ (∀ (s : State) (r : Req) (w : Nat), s.grants r (EVT_MQ_RD.key 0 0) true → isMgmt r.master = true →
      let ahead := (s.reg EVT_MQ_WR + 2048 - s.reg EVT_MQ_RD) % 2048
      let step := (w % 2048 + 2048 - s.reg EVT_MQ_RD) % 2048
      (step ≤ ahead → Acks (.evtMqRdWrite r w) s r EVT_MQ_RD.win [] (fun t => t.reg EVT_MQ_RD = w % 2048
        ∧ s.regsBut t [EVT_MQ_RD.key 0 0] ∧ s.onlyChanges t [.regs, .out]))
      ∧ (ahead < step → Acks (.evtMqRdWrite r w) s r EVT_MQ_RD.win [] (fun t => s.onlyChanges t [.out])))
  ∧ (∀ (s : State) (k : Nat), k < 1024 →
      let key := bits (s.seriesCfg k).1 23 18 * 0x100000 + bits (s.seriesCfg k).1 17 0 * 4
      (bits (s.seriesCfg k).1 31 30 = 2 → s.powered (key / 0x100000) (key % 0x100000) = true → s.gateReg ⟨0xE8, 0⟩ key false = .go →
        ∀ (st : BusStatus) (u : State), (s.fresh.every (.series k) (s.seriesPeriod k)).slotPass 0xE8 (key / 0x100000) 1 = (st, u) → st ≠ .hstall →
        Completes (.seriesSample k) s (fun t => (t.live k).count = ((s.live k).count + 1) % 2 ^ 64 ∧ (t.live k).boot = (s.live k).boot
          ∧ (t.live k).gen = ((s.live k).gen + 2) % 2 ^ 32 ∧ (∀ j, j ≠ k → t.live j = s.live j)
          ∧ t.time = max s.time (s.since (.series k) + s.seriesPeriod k) ∧ u.onlyChanges t [.recd, .evt]))
      ∧ (bits (s.seriesCfg k).1 31 30 ≠ 2 → Completes (.seriesSample k) s (fun t => s.onlyChanges t [.out])))
  ∧ (∀ (s : State) (k : Nat) (b : SeriesBlock), s.recd.live = [(k, b)] → b.count ≠ 0 → 1 ≤ s.nv.period → s.nv.period ≤ 30 →
      Completes .historyFold s (fun t => t.time = max s.time (s.recd.openAt + s.fld REC_CTRL_KEEP_MIN * 60000000000)
        ∧ (t.historyBlock (32 * k)).count = ((s.historyBlock (32 * k)).count + b.count) % 2 ^ 64
        ∧ (t.historyBlock (32 * k + s.nv.period)).count = ((s.historyBlock (32 * k + s.nv.period)).count + b.count) % 2 ^ 64
        ∧ (∀ i, i ≠ 32 * k → i ≠ 32 * k + s.nv.period → t.historyBlock i = s.historyBlock i)
        ∧ (∀ j, (t.live j).count = 0) ∧ t.recd.openAt = t.time ∧ t.recd.openBoot = s.nv.bootNumber
        ∧ s.onlyChanges t [.time, .nv, .recd, .evt, .out]))
  ∧ (∀ s : State, Completes .historyPeriodClose s (fun t => t.time = max s.time (s.nv.periodAt + 86400000000000)
      ∧ t.nv.period = s.nv.period % 30 + 1 ∧ t.nv.periodAt = t.time ∧ (∀ i, i % 32 = t.nv.period → (t.historyBlock i).count = 0)
      ∧ (∀ i, i % 32 ≠ 0 → i % 32 ≠ t.nv.period → t.historyBlock i = s.historyBlock i) ∧ s.onlyChanges t [.time, .nv, .out]))
  ∧ (∀ (s : State) (r : Req), s.grants r (REC_SNAP_CMD.key 0 0) true →
      (∀ m, s.recd.snapRun = some m → Acks (.recSnapCmd r) s r REC_SNAP_CMD.win [] (fun t =>
        Tab.look t.recd.snapRes r.master = some (2 * 2 ^ 30 + s.recd.snapSeq % 2 ^ 30) ∧ t.recd.snapSeq = s.recd.snapSeq
        ∧ t.recd.snapRun = some m ∧ s.onlyChanges t [.recd, .out]))
      ∧ (s.recd.snapRun = none → Acks (.recSnapCmd r) s r REC_SNAP_CMD.win [] (fun t =>
        let n := (s.recd.snapSeq + 1) % 2 ^ 64
        let u := { s.fresh with recd := { s.recd with snapSeq := n, snapRun := some r.master } }
        ∃ (e : BusStatus) (x : State), u.store ⟨0xE8, 0⟩ (s.recd.snapAddr / 8 * 8) (s.snapshot n) = (e, x) ∧ t.mem = x.mem
          ∧ Tab.look t.recd.snapRes r.master = some (3 * 2 ^ 30 + n % 2 ^ 30) ∧ t.recd.snapSeq = x.recd.snapSeq
          ∧ t.recd.snapRun = x.recd.snapRun ∧ t.recd.snapBad = decide (e ≠ .ok) ∧ x.onlyChanges t [.recd])))
  ∧ (∀ (s : State) (m : Nat), s.recd.snapRun = some m → Completes .snapshotDone s (fun t => t.recd.snapRun = none ∧ t.recd.snapBad = false
      ∧ (Tab.lookD s.recd.snapRes m 0 / 2 ^ 30 = 3 → Tab.look t.recd.snapRes m =
          some (Tab.lookD s.recd.snapRes m 0 % 2 ^ 30 + (if s.recd.snapBad then 2 else 1) * 2 ^ 30))
      ∧ s.onlyChanges t [.recd, .out]))

/-- A step runs the command at the front of the queue on the state with the queue's rest. For every command c and state s whose queue is c
followed by rest, step s is exec c on s with the queue rest. The queue of waiting commands is the model's own form of what is outside the
block (log entry 1). -/
def Obligations.StepRunsFrontCommand : Prop :=
  ∀ (s : State) (c : Instr) (rest : List Instr), s.pending = c :: rest → step s = exec c { s with pending := rest }

/-- With no command waiting, device time goes on by one count of the 25 MHz reference and nothing else happens. On an empty queue a step answers
a next state in which device time is 40 ns later, nothing is put out, and every other field is as before. That the idle step is one count is
the model's choice (log entry 2). -/
def Obligations.StepIdlesOnEmptyQueue : Prop :=
  ∀ s : State, s.pending = [] → ∃ t, step s = .next t ∧ t.time = s.time + 40 ∧ t.out = [] ∧ s.onlyChanges t [.time, .out]

/-- Every command of every state answers a next state, which has taken it from the queue. No command ends in a fault or a refusal: exec of every
command in every state answers a next state with the same queue. A step answers a next state whose queue is the tail of the one before, and
the part stays the same. -/
def Obligations.EveryStepAnswersNext : Prop :=
  (∀ (c : Instr) (s : State), ∃ t, exec c s = .next t ∧ t.pending = s.pending ∧ t.part = s.part)
  ∧ (∀ s : State, ∃ t, step s = .next t ∧ t.pending = s.pending.tail ∧ t.part = s.part)

/-- Every step keeps a state sound: the waiting commands well-formed, and OTP with its four owner slots. From every sound state, reachable or
not, a step that answers a next state leaves a sound state: every waiting command is well-formed, and OTP holds exactly its four owner
slots, whatever the command programmed. -/
def Obligations.StepKeepsSound : Prop :=
  ∀ s t : State, s.sound = true → step s = .next t → t.sound = true

/-- No step undoes what only goes one way: OTP, FW_SVN_FLOOR, the sequence floor and the incarnation. Whatever command runs in whatever state,
with every event it raises delivered: the part, the device identity and the vendor slots stay; an owner slot that is programmed keeps its
digest; a set revocation bit stays set; FW_SVN_FLOOR, the sequence floor and the device's own incarnation do not fall. -/
def Obligations.StepOnlyMovesForward : Prop :=
  ∀ s t : State, step s = .next t → s.onlyForward t

/-- Reset: no waiting command, registers at their reset values, ROM access entries, a new device's ledger memory and OTP. State.reset is sound,
its queue is empty, memory lists nothing, no register has been written, no lock is set, no unit holds work. The ROM entries of R436 stand in
the access tables: entry 0 of DRAM admits masters 0x00 to 0x03, the management cores, in MODE 0 over every page, and entry 31 is clear.
FW_ACTIVE names slot 1, FW_PREVIOUS none, FW_SVN_FLOOR and the sequence floor are 0; ledger credits are 64; OTP holds four vendor slots, no
owner slot and no revocation. PFAIL_N, THERMTRIP_N and MOD_READY are low before the cold start. Empty queues and time 0 are the model's
values: log entries 3 and 4. -/
def Obligations.ResetStateIsAsSpecified : Prop :=
  State.reset.sound = true ∧ State.reset.pending = [] ∧ State.reset.out = [] ∧ Memory.wf State.reset.mem = true ∧ State.reset.mem = []
  ∧ State.reset.time = 0 ∧ State.reset.boot.locked = false ∧ State.reset.hsf.fenced = [] ∧ State.reset.host.out = []
  ∧ (∀ key : Nat, State.reset.getReg key = resetOf State.reset.part key)
  ∧ State.reset.fld CLE_CTRL_ACTION 0 = 2 ∧ State.reset.fld REC_CTRL_KEEP_MIN = 60
  ∧ State.reset.accWord 0x40 0 0 = 0x98030000 ∧ State.reset.accWord 0x40 0 1 = 0 ∧ State.reset.accWord 0x40 0 2 = 0
  ∧ State.reset.accWord 0x40 0 3 = 0xFFFFFFFF ∧ (∀ w, w < 4 → State.reset.accWord 0x40 31 w = 0)
  ∧ State.reset.nv.fwActive.slot = 1 ∧ State.reset.nv.fwPrev.slot = 0 ∧ State.reset.nv.svnFloor = 0 ∧ State.reset.nv.seqFloor = 0
  ∧ State.reset.nv.credits = 64 ∧ State.reset.otp.vendor.length = 4 ∧ State.reset.otp.owner = [none, none, none, none]
  ∧ State.reset.otp.revoked = 0 ∧ State.reset.boot.modReady = false ∧ State.reset.pwr.pfailLow = true ∧ State.reset.pwr.thermLow = true

/-- Delivering events reaches the event fabric, the recorder, hosts' notices and tasks with their cores' SLOT interrupts, and nothing else. The
delivery that ends every command changes the event fabric, the recorder, ring sequence base, EVT_STAT, EVT_MQ_WR and TSK_ERR_STAT, and what
a record reaches: pods' notices, and tasks that wait on a flag with the dispatch that follows, whose SLOT interrupts are all that is put
out. Time, memory, every other register, and the state of every other unit stay as the command left them. -/
def Obligations.DeliveryFrame : Prop :=
  ∀ (n : Nat) (s : State), s.onlyChanges (State.drain n s) [.out, .regs, .evt, .recd, .nv, .host, .hsk, .tsk, .pod, .bg]
    ∧ (∃ l : List Nat, (State.drain n s).out = s.out ++ l.map (fun k => .coreIrq k 2))
    ∧ s.regsBut (State.drain n s) [EVT_STAT.key 0 0, EVT_MQ_WR.key 0 0, TSK_ERR_STAT.key 0 0]
    ∧ (State.drain n s).nv = { s.nv with recSeqBase := (State.drain n s).nv.recSeqBase }

/-- A denied access ends with ACCERR and is recorded, one of a fenced target with HSTALL, and an absent unit reads zero. A register write,
register read or memory read that the access table or a fixed rule denies ends with ACCERR, gives no data, raises HSK_DENIED with master,
target code and pod tag, counts the denial and records master, target and address; nothing else changes. A register access of a fenced
window ends with HSTALL and raises HSF_STALL cause 2; nothing is performed. A register access that the checks pass in the window or block of
an absent unit reads zero, or is discarded, without a bus error. The pages of the digest contexts and the submission registers of absent
flash channels, whose units answer otherwise (R104, R108, R11), are named apart. -/
def Obligations.RefusedAccessesHaveNoEffect : Prop :=
  (∀ (s : State) (r : Req) (key : Nat) (c : Nat), s.issues r = true →
      (s.gateReg r key true = .deny c → ∀ w, EndsWith (.registerWrite r key w) s r (key / 0x100000) .accerr [] (fun t =>
        t.evt.inbox = s.evt.inbox ++ [⟨48, c, [r.master, key / 0x100000, r.pod], if isCore r.master then some r.pod else none, 0, s.time⟩]
        ∧ t.fld HSK_DENY_STAT_DENIED = satAdd 0x7FFF (s.fld HSK_DENY_STAT_DENIED) 1 ∧ t.fld HSK_DENY_STAT_LAST_MASTER = r.master % 256
        ∧ t.fld HSK_DENY_STAT_LAST_TARGET = key / 0x100000 % 256 ∧ t.pair HSK_DENY_ADDR_LO HSK_DENY_ADDR_HI = (0xF000000000 + key) % 2 ^ 64
        ∧ s.regsBut t [HSK_DENY_STAT.key 0 0, HSK_DENY_ADDR_LO.key 0 0, HSK_DENY_ADDR_HI.key 0 0] ∧ s.onlyChanges t [.regs, .evt, .out]))
      ∧ (s.gateReg r key false = .deny c → EndsWith (.registerLoRead r key) s r (key / 0x100000) .accerr [] (fun t =>
        t.evt.inbox = s.evt.inbox ++ [⟨48, c, [r.master, key / 0x100000, r.pod], if isCore r.master then some r.pod else none, 0, s.time⟩]
        ∧ t.fld HSK_DENY_STAT_DENIED = satAdd 0x7FFF (s.fld HSK_DENY_STAT_DENIED) 1
        ∧ s.regsBut t [HSK_DENY_STAT.key 0 0, HSK_DENY_ADDR_LO.key 0 0, HSK_DENY_ADDR_HI.key 0 0] ∧ s.onlyChanges t [.regs, .evt, .out])))
  ∧ (∀ (s : State) (r : Req) (addr n c : Nat) (pe ce : CellErr) (hot : Bool), inWindows addr = false → s.issues r = true →
      s.gateMem r addr n true false = .deny c → EndsWith (.memoryRead r addr n pe ce hot) s r (targetOf addr) .accerr [] (fun t =>
        t.evt.inbox = s.evt.inbox ++ [⟨48, c, [r.master, targetOf addr, r.pod], if isCore r.master then some r.pod else none, 0, s.time⟩]
        ∧ t.pair HSK_DENY_ADDR_LO HSK_DENY_ADDR_HI = addr % 2 ^ 64 ∧ s.onlyChanges t [.regs, .evt, .out]))
  ∧ (∀ (s : State) (r : Req) (key : Nat), s.issues r = true → key / 0x100000 < 0x40 → key / 0x100000 ∈ s.hsf.fenced →
      EndsWith (.registerLoRead r key) s r (key / 0x100000) .hstall [] (fun t =>
        t.evt.inbox = s.evt.inbox ++ [⟨40, 2, [r.master, key / 0x100000], none, 0, s.time⟩]
        ∧ s.regsBut t [HSF_WDOG_STAT.key 0 0] ∧ s.onlyChanges t [.regs, .evt, .out])
      ∧ (key / 0x100000 ≠ 0x05 → unitPresent s.part (key / 0x100000) = true → ∀ w,
        EndsWith (.registerWrite r key w) s r (key / 0x100000) .hstall [] (fun t =>
          t.evt.inbox = s.evt.inbox ++ [⟨40, 2, [r.master, key / 0x100000], none, 0, s.time⟩]
          ∧ s.regsBut t [HSF_WDOG_STAT.key 0 0] ∧ s.onlyChanges t [.regs, .evt, .out])))
  ∧ (∀ (s : State) (r : Req) (key : Nat) (write : Bool), s.issues r = true → key / 0x100000 < 0x40 →
      key / 0x100000 ∉ s.hsf.fenced → s.admitted r (key / 0x100000) (key % 0x100000) 4 (!write) write = true →
      s.regFixed r (key / 0x100000) (key % 0x100000) write = true → winDefined (key / 0x100000) = true → key % 4 = 0 →
      placePresent s.part (key / 0x100000) (key % 0x100000) = false →
      (write = false → EndsWith (.registerLoRead r key) s r (key / 0x100000) .ok [0#8, 0#8, 0#8, 0#8] (fun t => s.onlyChanges t [.out]))
      ∧ (write = true → key % 0x100000 ≠ FCH_SUBMIT_LO.off → key % 0x100000 ≠ FCH_SUBMIT_HI.off → ∀ w,
        EndsWith (.registerWrite r key w) s r (key / 0x100000) .ok [] (fun t => s.onlyChanges t [.out])))

/-- A digest context belongs to its opener; any other master's access to its page ends with ACCERR and changes no context. An accepted DIG_OPEN
gives the context it opens to the opener: the owner is its master ID, and for an application core the pod tag is its own. While a context is
held, any register read, register write, DATA, LAST, FINAL, SRC_LEN, CLOSE or CMP transaction to its page by a master with another ID, or by
a core with another pod tag, ends with ACCERR and no data, and leaves this context and every other as it was. (A fenced engine answers
nothing to anyone: R59.) -/
def Obligations.DigestContextBelongsToItsOpener : Prop :=
  (∀ (s : State) (r : Req) (w c : Nat), s.grants r (DIG_OPEN.key 0 0) true → digOpenOk w = true → Tab.lowestFree s.dig.ctx 16 = some c →
      Acks (.digOpen r w) s r DIG_OPEN.win [] (fun t => ∃ x : DigCtx, Tab.look t.dig.ctx c = some x ∧ x.owner = r.master
        ∧ (isCore r.master = true → x.pod = r.pod)))
  ∧ (∀ (s : State) (r : Req) (c : Nat) (x : DigCtx), c < 16 → Tab.look s.dig.ctx c = some x → s.issues r = true →
      0x05 ∉ s.hsf.fenced → (r.master ≠ x.owner ∨ (isCore r.master = true ∧ r.pod ≠ x.pod)) →
      (∀ (off w : Nat), off < 0x100 → EndsWith (.registerWrite r (0x501000 + 0x100 * c + off) w) s r 0x05 .accerr [] (fun t => t.dig = s.dig)
        ∧ EndsWith (.registerLoRead r (0x501000 + 0x100 * c + off)) s r 0x05 .accerr [] (fun t => t.dig = s.dig))
      ∧ (∀ w : Nat, EndsWith (.digCtxData r c w) s r 0x05 .accerr [] (fun t => t.dig = s.dig)
        ∧ EndsWith (.digCtxLast r c w) s r 0x05 .accerr [] (fun t => t.dig = s.dig)
        ∧ EndsWith (.digCtxFinal r c w) s r 0x05 .accerr [] (fun t => t.dig = s.dig)
        ∧ EndsWith (.digCtxSrcLen r c w) s r 0x05 .accerr [] (fun t => t.dig = s.dig))
      ∧ EndsWith (.digCtxClose r c) s r 0x05 .accerr [] (fun t => t.dig = s.dig)
      ∧ (∀ agree : Bool, EndsWith (.digCmpRead r c agree) s r 0x05 .accerr [] (fun t => t.dig = s.dig)))

/-- Series 990 to 1,023 read as Table 16.6 states, whatever is written to them. In every state, the two configuration words of series 990 to
1,023 read KIND 2, unsigned, PERIOD 1 s, the window, offset and bits of their source, and their LOW and STEP, as Table 16.6 gives them:
series 990 the junction temperature, 991 the input voltage, 992 the input current, and 993 + b the health of region b. A granted write of
either word is acknowledged, and after it both words of every fixed series read as before. -/
def Obligations.FixedSeriesReadAsStatedAndIgnoreWrites : Prop :=
  (∀ (s : State) (m k : Nat), 990 ≤ k → k < 1024 →
      let w0 := s.readValue m (REC_SER_W0.key k 0)
      let w1 := s.readValue m (REC_SER_W1.key k 0)
      let row := if k = 990 then (0x09, 0x028, 7, 0, 0, 8) else if k = 991 then (0x09, 0x014, 31, 21, 300, 32)
        else if k = 992 then (0x09, 0x014, 9, 0, 0, 64) else (0x0C, 0x200 + 4 * (k - 993), 31, 30, 0, 1)
      bits w0 31 30 = 2 ∧ bit w0 29 = false ∧ bits w0 23 18 = row.1 ∧ bits w0 17 0 * 4 = row.2.1
        ∧ bits w0 28 24 + bits w1 31 27 = row.2.2.1 ∧ bits w0 28 24 = row.2.2.2.1 ∧ bits w1 26 25 = 1
        ∧ bits w1 15 0 = row.2.2.2.2.1 ∧ bits w1 23 16 = row.2.2.2.2.2)
  ∧ (∀ (s : State) (r : Req) (k w : Nat) (second : Bool), 990 ≤ k → k < 1024 →
      let key := if second then REC_SER_W1.key k 0 else REC_SER_W0.key k 0
      s.grants r key true → Acks (.registerWrite r key w) s r REC_SER_W0.win [] (fun t =>
        (∀ j m, 990 ≤ j → j < 1024 → t.readValue m (REC_SER_W0.key j 0) = s.readValue m (REC_SER_W0.key j 0)
          ∧ t.readValue m (REC_SER_W1.key j 0) = s.readValue m (REC_SER_W1.key j 0)) ∧ s.regsBut t [key] ∧ s.onlyChanges t [.regs, .out]))

/-- A read of a low word latches the upper word for its own master alone, and a read of the upper word returns what was latched. A granted read
of the low word of a pair latches the upper word of the same instant for that master, and leaves every other latch of every master as it
was. A granted read of a word that the master holds latched returns the latched value, and leaves the latch. A granted read of the upper
word of a pair the master has not read returns the word of that read. Nothing but latches and the acknowledge changes. -/
def Obligations.PairReadsLatchPerMaster : Prop :=
  (∀ (s : State) (r : Req) (key : Nat), s.grants r key false → plainRead key = true → isPairLo key = true →
      Tab.look s.hiLatch (r.master * 0x4000000 + key) = none →
      Acks (.registerLoRead r key) s r (key / 0x100000) (leBytes 4 (s.fresh.readValue r.master key)) (fun t =>
        Tab.look t.hiLatch (r.master * 0x4000000 + key + 4) = some (BitVec.ofNat 32 (s.fresh.readValue r.master (key + 4)))
        ∧ (∀ k, k ≠ r.master * 0x4000000 + key + 4 → Tab.look t.hiLatch k = Tab.look s.hiLatch k) ∧ s.onlyChanges t [.hiLatch, .out]))
  ∧ (∀ (s : State) (r : Req) (key : Nat) (v : BitVec 32), s.grants r key false → plainRead key = true →
      Tab.look s.hiLatch (r.master * 0x4000000 + key) = some v →
      Acks (.registerLoRead r key) s r (key / 0x100000) (leBytes 4 v.toNat) (fun t => s.onlyChanges t [.out]))
  ∧ (∀ (s : State) (r : Req) (key : Nat), s.grants r key false → plainRead key = true → isPairLo key = false →
      Tab.look s.hiLatch (r.master * 0x4000000 + key) = none →
      Acks (.registerLoRead r key) s r (key / 0x100000) (leBytes 4 (s.fresh.readValue r.master key)) (fun t => s.onlyChanges t [.out]))

/-- Class S counters saturate and set their overflow bit, class W counters wrap at 64 bits, class E bins saturate and report it once. The three
operations every counter of the model is built from. A class S count of n leaves the counter at the sum or its largest value, sets the
sticky overflow bit when the sum passes that value, leaves the bit otherwise, and changes no other register. A class W count adds modulo 2
to the 64. A class E bin below its largest value rises by one and reports when it has reached it; at its largest value it stays and reports
nothing more. -/
def Obligations.CountersKeepTheirClass : Prop :=
  (∀ (s : State) (a o : Field) (n i j : Nat), o.reg = a.reg → a.hi < 32 → a.lo ≤ a.hi → o.hi = o.lo → o.hi < 32 → (a.hi < o.lo ∨ o.hi < a.lo) →
      let top := 2 ^ (a.hi + 1 - a.lo) - 1
      (s.countS a o n i j).fld a i j = min top (s.fld a i j + n)
      ∧ ((s.countS a o n i j).flag o i j = true ↔ s.flag o i j = true ∨ top < s.fld a i j + n)
      ∧ s.regsBut (s.countS a o n i j) [a.reg.key i j] ∧ s.onlyChanges (s.countS a o n i j) [.regs])
  ∧ (∀ (s : State) (lo hi : RegId) (n i j : Nat), lo.key i j ≠ hi.key i j →
      (s.countW lo hi n i j).pair lo hi i j = (s.pair lo hi i j + n) % 2 ^ 64
      ∧ s.regsBut (s.countW lo hi n i j) [lo.key i j, hi.key i j] ∧ s.onlyChanges (s.countW lo hi n i j) [.regs])
  ∧ (∀ (b : SeriesBlock) (i : Nat), i < b.bins.length → (∀ v ∈ b.bins, v < 2 ^ 32) →
      let r := b.binUp i
      r.1.bins.getD i 0 = min (2 ^ 32 - 1) (b.bins.getD i 0 + 1) ∧ (r.2 = true ↔ b.bins.getD i 0 + 1 = 2 ^ 32 - 1)
      ∧ (∀ j, j ≠ i → r.1.bins.getD j 0 = b.bins.getD j 0) ∧ r.1.count = b.count ∧ r.1.sum = b.sum)

/-- Memory is sparse in one canonical form, a byte reads as last written, and memory commands keep the form. Writing bytes keeps memory
canonical: addresses strictly rising, no byte listed that an unlisted address reads as. After a write, each address within it reads the byte
written, and every other reads as before. Two canonical memories that read alike at every address are the same list. MEMORY_READ and
MEMORY_WRITE, atomics and every error of the line included, leave canonical memory canonical. -/
def Obligations.MemoryKeepsItsCanonicalForm : Prop :=
  (∀ (m : Tab Byte) (a : Nat) (d : List Byte), Memory.wf m = true → Memory.wf (memWrite m a d) = true)
  ∧ (∀ (m : Tab Byte) (a k : Nat) (d : List Byte), Memory.wf m = true →
      Tab.lookD (memWrite m a d) k 0#8 = if a ≤ k ∧ k < a + d.length then d.getD (k - a) 0#8 else Tab.lookD m k 0#8)
  ∧ (∀ m n : Tab Byte, Memory.wf m = true → Memory.wf n = true → (∀ k, Tab.lookD m k 0#8 = Tab.lookD n k 0#8) → m = n)
  ∧ (∀ (s t : State) (r : Req) (addr n : Nat) (pe ce : CellErr) (hot : Bool), Memory.wf s.mem = true → inWindows addr = false →
      exec (.memoryRead r addr n pe ce hot) s = .next t → Memory.wf t.mem = true)
  ∧ (∀ (s t : State) (r : Req) (addr : Nat) (d : List Byte) (at_ : Option Atomic) (hot : Bool), Memory.wf s.mem = true →
      inWindows addr = false → exec (.memoryWrite r addr d at_ hot) s = .next t → Memory.wf t.mem = true)

/-- Once the image has been applied, no write changes a register whose writable fields are all RWL. When the locks are set, a write of a
register whose only writable bits are RWL leaves the register as it is, whatever the value, for every requester, and so does one of a
register without writable bits. The registers in which R480 and Table 13.6 fix bits are left out. Before the lock the RWL bits take the
value written, and bits no type lets software write keep theirs. -/
def Obligations.LockedFieldsIgnoreWrites : Prop :=
  (∀ (s : State) (key w v i j : Nat) (row : RegRow), findRow (key / 0x100000) (key % 0x100000) = some row →
      row.indexOf (key % 0x100000) = some (i, j) → s.boot.locked = true → row.rw = 0 → row.w1c = 0 →
      ¬ (key / 0x100000 = CLE_CTRL.win ∧ row.off = CLE_CTRL.off) → ¬ (key / 0x100000 = EVT_ROUTE.win ∧ row.off = EVT_ROUTE.off) →
      s.written key w = some v → v % 2 ^ 32 = s.getReg key % 2 ^ 32)
  ∧ (∀ (r : RegRow) (locked : Bool) (old w b : Nat), b < 32 → r.w1c = 0 →
      (Nat.testBit (r.after locked old w) b
        = if r.rw.testBit b || (!locked && r.rwl.testBit b) then w.testBit b else old.testBit b))

/-- Identity words read zero exactly where a unit or block is absent, their true value in every power state, and agree with SYS_CAP_UNITS. In
every state, of every part and whatever domains are on, the identity word of a window reads zero exactly when the window's unit is absent,
and 0x8000_0100 with its class and instance otherwise; the same holds of every instance block: loops, DRAM channels, cobs, compression pipes
and scan engines. No power state keeps a present unit's identity word from its reader: where the access table and the fixed rules admit the
read and the target is not fenced, the gate lets it through. The counts of SYS_CAP_UNITS are the numbers of flash channel windows and
instance blocks whose identity word is not zero; decompression pipes are counted with their flash channels, and Askif ports are there
exactly when the Askif window is. -/
def Obligations.IdentityWordsNameThePresentUnits : Prop :=
  (∀ (s : State) (m win : Nat), winDefined win = true →
      (s.readValue m (win * 0x100000) = 0 ↔ unitPresent s.part win = false)
      ∧ (unitPresent s.part win = true → s.readValue m (win * 0x100000)
          = 0x80000100 + (if 0x20 ≤ win then 0x20 else win) * 0x1000000 + (if 0x20 ≤ win then win - 0x20 else 0) * 0x10000)
      ∧ (∀ r : Req, unitPresent s.part win = true → win ∉ s.hsf.fenced → s.admitted r win 0 4 true false = true → s.regFixed r win 0 false = true →
          s.gateReg r (win * 0x100000) false = .go))
  ∧ (∀ (s : State) (m win stride count n : Nat), (win, stride, count) ∈ [(0x0A, 0x100, 24), (0x0D, 0x1000, 6), (0x0E, 0x1000, 8),
        (0x13, 0x100, 16), (0x14, 0x100, 32)] → n < count → unitPresent s.part win = true →
      let key := win * 0x100000 + 0x1000 + n * stride
      (s.readValue m key = 0 ↔ blockPresent s.part win n = false)
      ∧ (blockPresent s.part win n = true → s.readValue m key = 0x80000100 + win * 0x1000000 + n * 0x10000)
      ∧ (∀ r : Req, blockPresent s.part win n = true → win ∉ s.hsf.fenced → s.admitted r win (0x1000 + n * stride) 4 true false = true →
          s.regFixed r win (0x1000 + n * stride) false = true → s.gateReg r key false = .go))
  ∧ (∀ (s : State) (m : Nat),
      let w := s.readValue m (SYS_CAP_UNITS.key 0 0)
      let units := fun (first stride count : Nat) => ((List.range count).filter (fun n => s.readValue m (first + n * stride) ≠ 0)).length
      bits w 31 26 = units 0x2000000 0x100000 32 ∧ bits w 25 22 = units 0xE01000 0x1000 8 ∧ bits w 21 19 = units 0xD01000 0x1000 6
        ∧ bits w 18 14 = units 0x1301000 0x100 16 ∧ bits w 13 8 = units 0x2000000 0x100000 32 ∧ bits w 7 2 = units 0x1401000 0x100 32
        ∧ (bits w 1 0 = 0 ↔ s.readValue m 0x1600000 = 0))

/-- A register access the table does not permit ends with ACCERR even where the unit is absent; an undefined window ends with DECERR. In every
part: a register read or write by a master that no access table entry of the window admits ends with ACCERR, whether the window's unit or
the instance block is present or absent. An admitted access to a window that is not defined, such as 0x18 to 0x1F, ends with DECERR, and so
does any to a window of 0x40 and above. The accesses considered are those to targets the watchdog has not fenced (R59), by requesters of the
part (R26). -/
def Obligations.AccessTableComesBeforeAbsence : Prop :=
  (∀ (s : State) (r : Req) (key : Nat), s.issues r = true → key / 0x100000 < 0x40 → key / 0x100000 ∉ s.hsf.fenced →
      (s.admitted r (key / 0x100000) (key % 0x100000) 4 true false = false →
        EndsWith (.registerLoRead r key) s r (key / 0x100000) .accerr [] (fun t => t.fld HSK_DENY_STAT_LAST_TARGET = key / 0x100000 % 256))
      ∧ (s.admitted r (key / 0x100000) (key % 0x100000) 4 false true = false → ∀ w,
        EndsWith (.registerWrite r key w) s r (key / 0x100000) .accerr [] (fun t => t.fld HSK_DENY_STAT_LAST_TARGET = key / 0x100000 % 256))
      ∧ (winDefined (key / 0x100000) = false →
        (s.admitted r (key / 0x100000) (key % 0x100000) 4 true false = true → s.regFixed r (key / 0x100000) (key % 0x100000) false = true →
          EndsWith (.registerLoRead r key) s r (key / 0x100000) .decerr [] (fun t => s.onlyChanges t [.out]))
        ∧ (s.admitted r (key / 0x100000) (key % 0x100000) 4 false true = true → s.regFixed r (key / 0x100000) (key % 0x100000) true = true → ∀ w,
          EndsWith (.registerWrite r key w) s r (key / 0x100000) .decerr [] (fun t => s.onlyChanges t [.out]))))
  ∧ (∀ (s : State) (r : Req) (key w : Nat), s.issues r = true → 0x40 ≤ key / 0x100000 → key < 2 ^ 32 →
      EndsWith (.registerLoRead r key) s r (key / 0x100000) .decerr [] (fun t => s.onlyChanges t [.out])
      ∧ EndsWith (.registerWrite r key w) s r (key / 0x100000) .decerr [] (fun t => s.onlyChanges t [.out]))

/-- A read of CMP compares the first N bytes of OUT with EXP and answers with one of the codes of R111. An owner's read of CMP gives 0x6996_9669
when the context's STATE is not DONE. When it is DONE and the comparators agree, it gives 0xA55A_5AA5 if the first N bytes of OUT are those
of EXP and 0x3CC3_C33C if they are not, so that only 0xA55A_5AA5 means equal; N is 32 for SHA3-256, 64 for SHA3-512 and OUT_LEN for the
others. When the comparators disagree it gives zero and the alarm of R109 is raised: DIG_ALARM with cause 3, and every open context is
cleared. -/
def Obligations.CompareAnswersByItsThreeCodes : Prop :=
  ∀ (s : State) (r : Req) (c : Nat) (x : DigCtx), c < 16 → s.grants r (DIG_CTX_CMP.key c 0) false → Tab.look s.dig.ctx c = some x →
      let n := if x.alg = 1 then 32 else if x.alg = 2 then 64 else x.outLen
      (x.state ≠ 3 → ∀ agree : Bool, Acks (.digCmpRead r c agree) s r 0x05 (leBytes 4 0x69969669) (fun t => s.onlyChanges t [.out]))
      ∧ (x.state = 3 → x.out.take n = (x.exp.flatMap (fun v => leBytes 4 v)).take n →
        Acks (.digCmpRead r c true) s r 0x05 (leBytes 4 0xA55A5AA5) (fun t => s.onlyChanges t [.out]))
      ∧ (x.state = 3 → x.out.take n ≠ (x.exp.flatMap (fun v => leBytes 4 v)).take n →
        Acks (.digCmpRead r c true) s r 0x05 (leBytes 4 0x3CC3C33C) (fun t => s.onlyChanges t [.out]))
      ∧ (x.state = 3 → Acks (.digCmpRead r c false) s r 0x05 [0#8, 0#8, 0#8, 0#8] (fun t =>
        (∀ k y, Tab.look s.dig.ctx k = some y → Tab.look t.dig.ctx k = some (if y.isOpen then y.cleared 3 s.time else y))
        ∧ t.evt.inbox = s.evt.inbox ++ [⟨710, 3, [], none, 0, s.time⟩] ∧ s.onlyChanges t [.dig, .evt, .out]))

/-- A host reads the status window and the controller registers, writes of the status window are discarded, and an absent unit's data port ends
with ABSENT. Through a port that is on, once the device answers, a read of BAR2 gives the word of Table 10.8 at its offset and zero at every
other, and changes nothing but the latch of device time's upper word; a write of BAR2 is discarded. A read of BAR0 in the window of a pod
bound to that port gives its controller register, and zero in a window that no bound pod has. Before the device answers nothing comes back.
An access to the data port of an absent instance of a defined window ends with ABSENT, and one of a fenced data port with HSTALL and
HSF_STALL cause 2. The keys that stand for BAR addresses and the addresses that stand for data ports are the model's choice (log entries 182
and 164). -/
def Obligations.HostWindowsAndDataPortsAnswer : Prop :=
  (∀ (s : State) (r : Req) (port off : Nat), port < 2 → s.boot.modReady = true → s.portOn port = true → off < 0x1000 → off % 4 = 0 →
      let key := 2 ^ 32 + port * 2 ^ 28 + 2 ^ 27 + off
      let word := fun (g : RegId) (i : Nat) => s.readValue 0 (g.key i 0)
      let value := if off = 0x000 then Config.capUnits s.part else if off = 0x004 then word CFG_BOOT_STAT 0
        else if off = 0x008 then word CFG_RESET_CAUSE 0 else if off = 0x00C then word FTL_DUR 0 else if off = 0x010 then s.time % 2 ^ 32
        else if off = 0x014 then Tab.lookD s.host.barTime port (s.time / 2 ^ 32 % 2 ^ 32)
        else if off = 0x018 then s.composite % 2 ^ 16 * 2 ^ 16 + s.critical 0 % 256 else if off = 0x01C then word FTL_STAT 0
        else if off = 0x020 then word HIF_LINK_STAT 0 else if off = 0x024 then word HIF_LINK_STAT 1 else if off = 0x028 then word HIF_CHAN 0
        else if off = 0x02C then word HIF_CHAN 1 else if off = 0x030 then word FTL_SPARE_STAT 0 else 0
      Completes (.registerLoRead r key) s (fun t => t.out = [.bar (leBytes 4 value)]
        ∧ (off = 0x010 → Tab.look t.host.barTime port = some (s.time / 2 ^ 32 % 2 ^ 32) ∧ s.onlyChanges t [.host, .out])
        ∧ (off ≠ 0x010 → s.onlyChanges t [.out]))
      ∧ ∀ w, Completes (.registerWrite r key w) s (fun t => s.onlyChanges t [.out] ∧ t.out = []))
  ∧ (∀ (s : State) (r : Req) (port p off : Nat), port < 2 → p < 4096 → off < 0x1000 → off % 4 = 0 → s.boot.modReady = true → s.portOn port = true →
      let key := 2 ^ 32 + port * 2 ^ 28 + p * 0x4000 + off
      Completes (.registerLoRead r key) s (fun t => s.onlyChanges t [.out]
        ∧ t.out = [.bar (leBytes 4 (if s.boundOn port p then s.ctrlRead p off else 0))])
      ∧ ∀ w, s.boundOn port p = false → Completes (.registerWrite r key w) s (fun t => s.onlyChanges t [.out] ∧ t.out = []))
  ∧ (∀ (s : State) (r : Req) (key w : Nat), 2 ^ 32 ≤ key → s.boot.modReady = false →
      Completes (.registerLoRead r key) s (fun t => s.onlyChanges t [.out] ∧ t.out = [])
      ∧ Completes (.registerWrite r key w) s (fun t => s.onlyChanges t [.out] ∧ t.out = []))
  ∧ (∀ (s : State) (r : Req) (win i n : Nat) (pe ce : CellErr) (d : List Byte) (hot : Bool), s.issues r = true → win < 0x40 → i < 256 →
      let addr := 2 ^ 48 + win * 2 ^ 40 + i * 2 ^ 32
      (0x80 + win ∉ s.hsf.fenced → winDefined win = true → portPresent s.part win i = false →
        EndsWith (.memoryRead r addr n pe ce hot) s r (0x80 + win) .absent [] (fun t => s.onlyChanges t [.out])
        ∧ EndsWith (.memoryWrite r addr d none hot) s r (0x80 + win) .absent [] (fun t => s.onlyChanges t [.out]))
      ∧ (0x80 + win ∈ s.hsf.fenced → EndsWith (.memoryRead r addr n pe ce hot) s r (0x80 + win) .hstall [] (fun t =>
        t.evt.inbox = s.evt.inbox ++ [⟨40, 2, [r.master, 0x80 + win], none, 0, s.time⟩]
        ∧ s.regsBut t [HSF_WDOG_STAT.key 0 0] ∧ s.onlyChanges t [.regs, .evt, .out])))
end

