-- ==== Sys2Proof/Laws/Bits.lean ====
section
/-!
SUPPORT. Bit fields: a field reads as last written, and writing one leaves the fields beside it.
-/
namespace Sys2Proof.Machine

theorem bits_eq_div (n hi lo : Nat) : bits n hi lo = n / 2 ^ lo % 2 ^ (hi + 1 - lo) := by
  simp [bits, Nat.shiftRight_eq_div_pow]

/-- A number with a field replaced: the part above, the new field, the part below. -/
theorem setBits_eq (n hi lo v : Nat) :
    setBits n hi lo v
      = (n / 2 ^ lo / 2 ^ (hi + 1 - lo) * 2 ^ (hi + 1 - lo) + v % 2 ^ (hi + 1 - lo)) * 2 ^ lo + n % 2 ^ lo := by
  have hq := Nat.div_add_mod n (2 ^ lo)
  have hb := Nat.div_add_mod (n / 2 ^ lo) (2 ^ (hi + 1 - lo))
  simp only [setBits, bits_eq_div]
  generalize n / 2 ^ lo = q at *
  generalize 2 ^ (hi + 1 - lo) = w at *
  generalize 2 ^ lo = p at *
  have e : n = (q / w * w + q % w) * p + n % p := by
    have hc : w * (q / w) = q / w * w := Nat.mul_comm _ _
    have hd : p * q = q * p := Nat.mul_comm _ _
    rw [← hc, hb, ← hd]; exact hq.symm
  have : n - q % w * p = q / w * w * p + n % p := by
    have hs : (q / w * w + q % w) * p = q / w * w * p + q % w * p := Nat.add_mul _ _ _
    omega
  rw [this, Nat.add_mul]
  omega

theorem bits_setBits_same (n hi lo v : Nat) : bits (setBits n hi lo v) hi lo = v % 2 ^ (hi + 1 - lo) := by
  rw [setBits_eq, bits_eq_div, Nat.add_comm, Nat.add_mul_div_right _ _ (Nat.two_pow_pos lo),
    Nat.div_eq_of_lt (Nat.mod_lt n (Nat.two_pow_pos lo)), Nat.zero_add, Nat.add_comm, Nat.add_mul_mod_self_right, Nat.mod_mod]

theorem bits_setBits_above (n hi lo v hi' lo' : Nat) (h : hi < lo') (hl : lo ≤ hi) :
    bits (setBits n hi lo v) hi' lo' = bits n hi' lo' := by
  have e : lo' = lo + (hi + 1 - lo) + (lo' - hi - 1) := by omega
  have d : ∀ m, m / 2 ^ lo' = m / 2 ^ lo / 2 ^ (hi + 1 - lo) / 2 ^ (lo' - hi - 1) := by
    intro m
    rw [Nat.div_div_eq_div_mul, Nat.div_div_eq_div_mul, ← Nat.pow_add, ← Nat.pow_add, ← Nat.add_assoc, ← e]
  rw [bits_eq_div, bits_eq_div, d, d, setBits_eq, Nat.add_comm _ (n % 2 ^ lo), Nat.add_mul_div_right _ _ (Nat.two_pow_pos lo),
    Nat.div_eq_of_lt (Nat.mod_lt n (Nat.two_pow_pos lo)), Nat.zero_add, Nat.add_comm (_ * _), Nat.add_mul_div_right _ _ (Nat.two_pow_pos _),
    Nat.div_eq_of_lt (Nat.mod_lt v (Nat.two_pow_pos _)), Nat.zero_add]

theorem bits_setBits_below (n hi lo v hi' lo' : Nat) (h : hi' < lo) : bits (setBits n hi lo v) hi' lo' = bits n hi' lo' := by
  by_cases hl : hi' + 1 < lo'
  · have : hi' + 1 - lo' = 0 := by omega
    simp [bits_eq_div, this, Nat.mod_one]
  have m : ∀ k, k / 2 ^ lo' % 2 ^ (hi' + 1 - lo') = k % 2 ^ (hi' + 1) / 2 ^ lo' := by
    intro k
    rw [show hi' + 1 = lo' + (hi' + 1 - lo') by omega, Nat.pow_add, Nat.mod_mul_right_div_self]
    congr 2
    omega
  have c : ∀ k, k % 2 ^ (hi' + 1) = k % 2 ^ lo % 2 ^ (hi' + 1) := by
    intro k
    rw [Nat.mod_mod_of_dvd k (Nat.pow_dvd_pow 2 (by omega))]
  rw [bits_eq_div, bits_eq_div, m, m, c, c n, setBits_eq, Nat.add_comm (_ * _), Nat.add_mul_mod_self_right, Nat.mod_mod]

/-- A field of a register reads the same of its low 32 bits. -/
theorem bits_mod_word (n hi lo : Nat) (h : hi < 32) : bits (n % 2 ^ 32) hi lo = bits n hi lo := by
  by_cases hl : hi + 1 < lo
  · have : hi + 1 - lo = 0 := by omega
    simp [bits_eq_div, this, Nat.mod_one]
  have m : ∀ k, k / 2 ^ lo % 2 ^ (hi + 1 - lo) = k % 2 ^ (hi + 1) / 2 ^ lo := by
    intro k
    rw [show hi + 1 = lo + (hi + 1 - lo) by omega, Nat.pow_add, Nat.mod_mul_right_div_self]
    congr 2
    omega
  rw [bits_eq_div, bits_eq_div, m, m, Nat.mod_mod_of_dvd n (Nat.pow_dvd_pow 2 (by omega))]

end Sys2Proof.Machine
end

