-- ==== Sys2Proof/Laws/State.lean ====
section
/-!
SUPPORT. What each shared update leaves: one lemma per field of State and update, so that no proof unfolds a record update. An update's own
field is stated where it has a short form.
-/
namespace Sys2Proof.Machine

variable (s : State)

/-! ### countS -/

@[simp] theorem State.countS_part (a o : Field) (n i j : Nat) : (s.countS a o n i j).part = s.part := by
  simp only [State.countS]; split <;> rfl
@[simp] theorem State.countS_time (a o : Field) (n i j : Nat) : (s.countS a o n i j).time = s.time := by
  simp only [State.countS]; split <;> rfl
@[simp] theorem State.countS_freeCtr (a o : Field) (n i j : Nat) : (s.countS a o n i j).freeCtr = s.freeCtr := by
  simp only [State.countS]; split <;> rfl
@[simp] theorem State.countS_out (a o : Field) (n i j : Nat) : (s.countS a o n i j).out = s.out := by
  simp only [State.countS]; split <;> rfl
@[simp] theorem State.countS_hiLatch (a o : Field) (n i j : Nat) : (s.countS a o n i j).hiLatch = s.hiLatch := by
  simp only [State.countS]; split <;> rfl
@[simp] theorem State.countS_mem (a o : Field) (n i j : Nat) : (s.countS a o n i j).mem = s.mem := by
  simp only [State.countS]; split <;> rfl
@[simp] theorem State.countS_dramEnd (a o : Field) (n i j : Nat) : (s.countS a o n i j).dramEnd = s.dramEnd := by
  simp only [State.countS]; split <;> rfl
@[simp] theorem State.countS_bg (a o : Field) (n i j : Nat) : (s.countS a o n i j).bg = s.bg := by
  simp only [State.countS]; split <;> rfl
@[simp] theorem State.countS_boot (a o : Field) (n i j : Nat) : (s.countS a o n i j).boot = s.boot := by
  simp only [State.countS]; split <;> rfl
@[simp] theorem State.countS_hsf (a o : Field) (n i j : Nat) : (s.countS a o n i j).hsf = s.hsf := by
  simp only [State.countS]; split <;> rfl
@[simp] theorem State.countS_hsk (a o : Field) (n i j : Nat) : (s.countS a o n i j).hsk = s.hsk := by
  simp only [State.countS]; split <;> rfl
@[simp] theorem State.countS_evt (a o : Field) (n i j : Nat) : (s.countS a o n i j).evt = s.evt := by
  simp only [State.countS]; split <;> rfl
@[simp] theorem State.countS_recd (a o : Field) (n i j : Nat) : (s.countS a o n i j).recd = s.recd := by
  simp only [State.countS]; split <;> rfl
@[simp] theorem State.countS_otp (a o : Field) (n i j : Nat) : (s.countS a o n i j).otp = s.otp := by
  simp only [State.countS]; split <;> rfl
@[simp] theorem State.countS_sgn (a o : Field) (n i j : Nat) : (s.countS a o n i j).sgn = s.sgn := by
  simp only [State.countS]; split <;> rfl
@[simp] theorem State.countS_dig (a o : Field) (n i j : Nat) : (s.countS a o n i j).dig = s.dig := by
  simp only [State.countS]; split <;> rfl
@[simp] theorem State.countS_ldg (a o : Field) (n i j : Nat) : (s.countS a o n i j).ldg = s.ldg := by
  simp only [State.countS]; split <;> rfl
@[simp] theorem State.countS_key (a o : Field) (n i j : Nat) : (s.countS a o n i j).key = s.key := by
  simp only [State.countS]; split <;> rfl
@[simp] theorem State.countS_nv (a o : Field) (n i j : Nat) : (s.countS a o n i j).nv = s.nv := by
  simp only [State.countS]; split <;> rfl
@[simp] theorem State.countS_flash (a o : Field) (n i j : Nat) : (s.countS a o n i j).flash = s.flash := by
  simp only [State.countS]; split <;> rfl
@[simp] theorem State.countS_tsk (a o : Field) (n i j : Nat) : (s.countS a o n i j).tsk = s.tsk := by
  simp only [State.countS]; split <;> rfl
@[simp] theorem State.countS_host (a o : Field) (n i j : Nat) : (s.countS a o n i j).host = s.host := by
  simp only [State.countS]; split <;> rfl
@[simp] theorem State.countS_pod (a o : Field) (n i j : Nat) : (s.countS a o n i j).pod = s.pod := by
  simp only [State.countS]; split <;> rfl
@[simp] theorem State.countS_dram (a o : Field) (n i j : Nat) : (s.countS a o n i j).dram = s.dram := by
  simp only [State.countS]; split <;> rfl
@[simp] theorem State.countS_ftl (a o : Field) (n i j : Nat) : (s.countS a o n i j).ftl = s.ftl := by
  simp only [State.countS]; split <;> rfl
@[simp] theorem State.countS_cmp (a o : Field) (n i j : Nat) : (s.countS a o n i j).cmp = s.cmp := by
  simp only [State.countS]; split <;> rfl
@[simp] theorem State.countS_scn (a o : Field) (n i j : Nat) : (s.countS a o n i j).scn = s.scn := by
  simp only [State.countS]; split <;> rfl
@[simp] theorem State.countS_ask (a o : Field) (n i j : Nat) : (s.countS a o n i j).ask = s.ask := by
  simp only [State.countS]; split <;> rfl
@[simp] theorem State.countS_pwr (a o : Field) (n i j : Nat) : (s.countS a o n i j).pwr = s.pwr := by
  simp only [State.countS]; split <;> rfl
@[simp] theorem State.countS_timers (a o : Field) (n i j : Nat) : (s.countS a o n i j).timers = s.timers := by
  simp only [State.countS]; split <;> rfl
@[simp] theorem State.countS_pending (a o : Field) (n i j : Nat) : (s.countS a o n i j).pending = s.pending := by
  simp only [State.countS]; split <;> rfl

/-! ### fresh -/

@[simp] theorem State.fresh_part : s.fresh.part = s.part := rfl
@[simp] theorem State.fresh_time : s.fresh.time = s.time := rfl
@[simp] theorem State.fresh_freeCtr : s.fresh.freeCtr = s.freeCtr := rfl
@[simp] theorem State.fresh_out : s.fresh.out = [] := rfl
@[simp] theorem State.fresh_regs : s.fresh.regs = s.regs := rfl
@[simp] theorem State.fresh_hiLatch : s.fresh.hiLatch = s.hiLatch := rfl
@[simp] theorem State.fresh_mem : s.fresh.mem = s.mem := rfl
@[simp] theorem State.fresh_dramEnd : s.fresh.dramEnd = s.dramEnd := rfl
@[simp] theorem State.fresh_bg : s.fresh.bg = s.bg := rfl
@[simp] theorem State.fresh_boot : s.fresh.boot = s.boot := rfl
@[simp] theorem State.fresh_hsf : s.fresh.hsf = s.hsf := rfl
@[simp] theorem State.fresh_hsk : s.fresh.hsk = s.hsk := rfl
@[simp] theorem State.fresh_evt : s.fresh.evt = s.evt := rfl
@[simp] theorem State.fresh_recd : s.fresh.recd = s.recd := rfl
@[simp] theorem State.fresh_otp : s.fresh.otp = s.otp := rfl
@[simp] theorem State.fresh_sgn : s.fresh.sgn = s.sgn := rfl
@[simp] theorem State.fresh_dig : s.fresh.dig = s.dig := rfl
@[simp] theorem State.fresh_ldg : s.fresh.ldg = s.ldg := rfl
@[simp] theorem State.fresh_key : s.fresh.key = s.key := rfl
@[simp] theorem State.fresh_nv : s.fresh.nv = s.nv := rfl
@[simp] theorem State.fresh_flash : s.fresh.flash = s.flash := rfl
@[simp] theorem State.fresh_tsk : s.fresh.tsk = s.tsk := rfl
@[simp] theorem State.fresh_host : s.fresh.host = s.host := rfl
@[simp] theorem State.fresh_pod : s.fresh.pod = s.pod := rfl
@[simp] theorem State.fresh_dram : s.fresh.dram = s.dram := rfl
@[simp] theorem State.fresh_ftl : s.fresh.ftl = s.ftl := rfl
@[simp] theorem State.fresh_cmp : s.fresh.cmp = s.cmp := rfl
@[simp] theorem State.fresh_scn : s.fresh.scn = s.scn := rfl
@[simp] theorem State.fresh_ask : s.fresh.ask = s.ask := rfl
@[simp] theorem State.fresh_pwr : s.fresh.pwr = s.pwr := rfl
@[simp] theorem State.fresh_timers : s.fresh.timers = s.timers := rfl
@[simp] theorem State.fresh_pending : s.fresh.pending = s.pending := rfl

/-! ### setReg -/

@[simp] theorem State.setReg_part (k v : Nat) : (s.setReg k v).part = s.part := rfl
@[simp] theorem State.setReg_time (k v : Nat) : (s.setReg k v).time = s.time := rfl
@[simp] theorem State.setReg_freeCtr (k v : Nat) : (s.setReg k v).freeCtr = s.freeCtr := rfl
@[simp] theorem State.setReg_out (k v : Nat) : (s.setReg k v).out = s.out := rfl
@[simp] theorem State.setReg_regs (k v : Nat) : (s.setReg k v).regs = Tab.put s.regs k (BitVec.ofNat 32 v) := rfl
@[simp] theorem State.setReg_hiLatch (k v : Nat) : (s.setReg k v).hiLatch = s.hiLatch := rfl
@[simp] theorem State.setReg_mem (k v : Nat) : (s.setReg k v).mem = s.mem := rfl
@[simp] theorem State.setReg_dramEnd (k v : Nat) : (s.setReg k v).dramEnd = s.dramEnd := rfl
@[simp] theorem State.setReg_bg (k v : Nat) : (s.setReg k v).bg = s.bg := rfl
@[simp] theorem State.setReg_boot (k v : Nat) : (s.setReg k v).boot = s.boot := rfl
@[simp] theorem State.setReg_hsf (k v : Nat) : (s.setReg k v).hsf = s.hsf := rfl
@[simp] theorem State.setReg_hsk (k v : Nat) : (s.setReg k v).hsk = s.hsk := rfl
@[simp] theorem State.setReg_evt (k v : Nat) : (s.setReg k v).evt = s.evt := rfl
@[simp] theorem State.setReg_recd (k v : Nat) : (s.setReg k v).recd = s.recd := rfl
@[simp] theorem State.setReg_otp (k v : Nat) : (s.setReg k v).otp = s.otp := rfl
@[simp] theorem State.setReg_sgn (k v : Nat) : (s.setReg k v).sgn = s.sgn := rfl
@[simp] theorem State.setReg_dig (k v : Nat) : (s.setReg k v).dig = s.dig := rfl
@[simp] theorem State.setReg_ldg (k v : Nat) : (s.setReg k v).ldg = s.ldg := rfl
@[simp] theorem State.setReg_key (k v : Nat) : (s.setReg k v).key = s.key := rfl
@[simp] theorem State.setReg_nv (k v : Nat) : (s.setReg k v).nv = s.nv := rfl
@[simp] theorem State.setReg_flash (k v : Nat) : (s.setReg k v).flash = s.flash := rfl
@[simp] theorem State.setReg_tsk (k v : Nat) : (s.setReg k v).tsk = s.tsk := rfl
@[simp] theorem State.setReg_host (k v : Nat) : (s.setReg k v).host = s.host := rfl
@[simp] theorem State.setReg_pod (k v : Nat) : (s.setReg k v).pod = s.pod := rfl
@[simp] theorem State.setReg_dram (k v : Nat) : (s.setReg k v).dram = s.dram := rfl
@[simp] theorem State.setReg_ftl (k v : Nat) : (s.setReg k v).ftl = s.ftl := rfl
@[simp] theorem State.setReg_cmp (k v : Nat) : (s.setReg k v).cmp = s.cmp := rfl
@[simp] theorem State.setReg_scn (k v : Nat) : (s.setReg k v).scn = s.scn := rfl
@[simp] theorem State.setReg_ask (k v : Nat) : (s.setReg k v).ask = s.ask := rfl
@[simp] theorem State.setReg_pwr (k v : Nat) : (s.setReg k v).pwr = s.pwr := rfl
@[simp] theorem State.setReg_timers (k v : Nat) : (s.setReg k v).timers = s.timers := rfl
@[simp] theorem State.setReg_pending (k v : Nat) : (s.setReg k v).pending = s.pending := rfl

/-! ### putReg -/

@[simp] theorem State.putReg_part (r : RegId) (v i j : Nat) : (s.putReg r v i j).part = s.part := rfl
@[simp] theorem State.putReg_time (r : RegId) (v i j : Nat) : (s.putReg r v i j).time = s.time := rfl
@[simp] theorem State.putReg_freeCtr (r : RegId) (v i j : Nat) : (s.putReg r v i j).freeCtr = s.freeCtr := rfl
@[simp] theorem State.putReg_out (r : RegId) (v i j : Nat) : (s.putReg r v i j).out = s.out := rfl
@[simp] theorem State.putReg_hiLatch (r : RegId) (v i j : Nat) : (s.putReg r v i j).hiLatch = s.hiLatch := rfl
@[simp] theorem State.putReg_mem (r : RegId) (v i j : Nat) : (s.putReg r v i j).mem = s.mem := rfl
@[simp] theorem State.putReg_dramEnd (r : RegId) (v i j : Nat) : (s.putReg r v i j).dramEnd = s.dramEnd := rfl
@[simp] theorem State.putReg_bg (r : RegId) (v i j : Nat) : (s.putReg r v i j).bg = s.bg := rfl
@[simp] theorem State.putReg_boot (r : RegId) (v i j : Nat) : (s.putReg r v i j).boot = s.boot := rfl
@[simp] theorem State.putReg_hsf (r : RegId) (v i j : Nat) : (s.putReg r v i j).hsf = s.hsf := rfl
@[simp] theorem State.putReg_hsk (r : RegId) (v i j : Nat) : (s.putReg r v i j).hsk = s.hsk := rfl
@[simp] theorem State.putReg_evt (r : RegId) (v i j : Nat) : (s.putReg r v i j).evt = s.evt := rfl
@[simp] theorem State.putReg_recd (r : RegId) (v i j : Nat) : (s.putReg r v i j).recd = s.recd := rfl
@[simp] theorem State.putReg_otp (r : RegId) (v i j : Nat) : (s.putReg r v i j).otp = s.otp := rfl
@[simp] theorem State.putReg_sgn (r : RegId) (v i j : Nat) : (s.putReg r v i j).sgn = s.sgn := rfl
@[simp] theorem State.putReg_dig (r : RegId) (v i j : Nat) : (s.putReg r v i j).dig = s.dig := rfl
@[simp] theorem State.putReg_ldg (r : RegId) (v i j : Nat) : (s.putReg r v i j).ldg = s.ldg := rfl
@[simp] theorem State.putReg_key (r : RegId) (v i j : Nat) : (s.putReg r v i j).key = s.key := rfl
@[simp] theorem State.putReg_nv (r : RegId) (v i j : Nat) : (s.putReg r v i j).nv = s.nv := rfl
@[simp] theorem State.putReg_flash (r : RegId) (v i j : Nat) : (s.putReg r v i j).flash = s.flash := rfl
@[simp] theorem State.putReg_tsk (r : RegId) (v i j : Nat) : (s.putReg r v i j).tsk = s.tsk := rfl
@[simp] theorem State.putReg_host (r : RegId) (v i j : Nat) : (s.putReg r v i j).host = s.host := rfl
@[simp] theorem State.putReg_pod (r : RegId) (v i j : Nat) : (s.putReg r v i j).pod = s.pod := rfl
@[simp] theorem State.putReg_dram (r : RegId) (v i j : Nat) : (s.putReg r v i j).dram = s.dram := rfl
@[simp] theorem State.putReg_ftl (r : RegId) (v i j : Nat) : (s.putReg r v i j).ftl = s.ftl := rfl
@[simp] theorem State.putReg_cmp (r : RegId) (v i j : Nat) : (s.putReg r v i j).cmp = s.cmp := rfl
@[simp] theorem State.putReg_scn (r : RegId) (v i j : Nat) : (s.putReg r v i j).scn = s.scn := rfl
@[simp] theorem State.putReg_ask (r : RegId) (v i j : Nat) : (s.putReg r v i j).ask = s.ask := rfl
@[simp] theorem State.putReg_pwr (r : RegId) (v i j : Nat) : (s.putReg r v i j).pwr = s.pwr := rfl
@[simp] theorem State.putReg_timers (r : RegId) (v i j : Nat) : (s.putReg r v i j).timers = s.timers := rfl
@[simp] theorem State.putReg_pending (r : RegId) (v i j : Nat) : (s.putReg r v i j).pending = s.pending := rfl

/-! ### setFld -/

@[simp] theorem State.setFld_part (f : Field) (v i j : Nat) : (s.setFld f v i j).part = s.part := rfl
@[simp] theorem State.setFld_time (f : Field) (v i j : Nat) : (s.setFld f v i j).time = s.time := rfl
@[simp] theorem State.setFld_freeCtr (f : Field) (v i j : Nat) : (s.setFld f v i j).freeCtr = s.freeCtr := rfl
@[simp] theorem State.setFld_out (f : Field) (v i j : Nat) : (s.setFld f v i j).out = s.out := rfl
@[simp] theorem State.setFld_hiLatch (f : Field) (v i j : Nat) : (s.setFld f v i j).hiLatch = s.hiLatch := rfl
@[simp] theorem State.setFld_mem (f : Field) (v i j : Nat) : (s.setFld f v i j).mem = s.mem := rfl
@[simp] theorem State.setFld_dramEnd (f : Field) (v i j : Nat) : (s.setFld f v i j).dramEnd = s.dramEnd := rfl
@[simp] theorem State.setFld_bg (f : Field) (v i j : Nat) : (s.setFld f v i j).bg = s.bg := rfl
@[simp] theorem State.setFld_boot (f : Field) (v i j : Nat) : (s.setFld f v i j).boot = s.boot := rfl
@[simp] theorem State.setFld_hsf (f : Field) (v i j : Nat) : (s.setFld f v i j).hsf = s.hsf := rfl
@[simp] theorem State.setFld_hsk (f : Field) (v i j : Nat) : (s.setFld f v i j).hsk = s.hsk := rfl
@[simp] theorem State.setFld_evt (f : Field) (v i j : Nat) : (s.setFld f v i j).evt = s.evt := rfl
@[simp] theorem State.setFld_recd (f : Field) (v i j : Nat) : (s.setFld f v i j).recd = s.recd := rfl
@[simp] theorem State.setFld_otp (f : Field) (v i j : Nat) : (s.setFld f v i j).otp = s.otp := rfl
@[simp] theorem State.setFld_sgn (f : Field) (v i j : Nat) : (s.setFld f v i j).sgn = s.sgn := rfl
@[simp] theorem State.setFld_dig (f : Field) (v i j : Nat) : (s.setFld f v i j).dig = s.dig := rfl
@[simp] theorem State.setFld_ldg (f : Field) (v i j : Nat) : (s.setFld f v i j).ldg = s.ldg := rfl
@[simp] theorem State.setFld_key (f : Field) (v i j : Nat) : (s.setFld f v i j).key = s.key := rfl
@[simp] theorem State.setFld_nv (f : Field) (v i j : Nat) : (s.setFld f v i j).nv = s.nv := rfl
@[simp] theorem State.setFld_flash (f : Field) (v i j : Nat) : (s.setFld f v i j).flash = s.flash := rfl
@[simp] theorem State.setFld_tsk (f : Field) (v i j : Nat) : (s.setFld f v i j).tsk = s.tsk := rfl
@[simp] theorem State.setFld_host (f : Field) (v i j : Nat) : (s.setFld f v i j).host = s.host := rfl
@[simp] theorem State.setFld_pod (f : Field) (v i j : Nat) : (s.setFld f v i j).pod = s.pod := rfl
@[simp] theorem State.setFld_dram (f : Field) (v i j : Nat) : (s.setFld f v i j).dram = s.dram := rfl
@[simp] theorem State.setFld_ftl (f : Field) (v i j : Nat) : (s.setFld f v i j).ftl = s.ftl := rfl
@[simp] theorem State.setFld_cmp (f : Field) (v i j : Nat) : (s.setFld f v i j).cmp = s.cmp := rfl
@[simp] theorem State.setFld_scn (f : Field) (v i j : Nat) : (s.setFld f v i j).scn = s.scn := rfl
@[simp] theorem State.setFld_ask (f : Field) (v i j : Nat) : (s.setFld f v i j).ask = s.ask := rfl
@[simp] theorem State.setFld_pwr (f : Field) (v i j : Nat) : (s.setFld f v i j).pwr = s.pwr := rfl
@[simp] theorem State.setFld_timers (f : Field) (v i j : Nat) : (s.setFld f v i j).timers = s.timers := rfl
@[simp] theorem State.setFld_pending (f : Field) (v i j : Nat) : (s.setFld f v i j).pending = s.pending := rfl

/-! ### putPair -/

@[simp] theorem State.putPair_part (a b : RegId) (v i j : Nat) : (s.putPair a b v i j).part = s.part := rfl
@[simp] theorem State.putPair_time (a b : RegId) (v i j : Nat) : (s.putPair a b v i j).time = s.time := rfl
@[simp] theorem State.putPair_freeCtr (a b : RegId) (v i j : Nat) : (s.putPair a b v i j).freeCtr = s.freeCtr := rfl
@[simp] theorem State.putPair_out (a b : RegId) (v i j : Nat) : (s.putPair a b v i j).out = s.out := rfl
@[simp] theorem State.putPair_hiLatch (a b : RegId) (v i j : Nat) : (s.putPair a b v i j).hiLatch = s.hiLatch := rfl
@[simp] theorem State.putPair_mem (a b : RegId) (v i j : Nat) : (s.putPair a b v i j).mem = s.mem := rfl
@[simp] theorem State.putPair_dramEnd (a b : RegId) (v i j : Nat) : (s.putPair a b v i j).dramEnd = s.dramEnd := rfl
@[simp] theorem State.putPair_bg (a b : RegId) (v i j : Nat) : (s.putPair a b v i j).bg = s.bg := rfl
@[simp] theorem State.putPair_boot (a b : RegId) (v i j : Nat) : (s.putPair a b v i j).boot = s.boot := rfl
@[simp] theorem State.putPair_hsf (a b : RegId) (v i j : Nat) : (s.putPair a b v i j).hsf = s.hsf := rfl
@[simp] theorem State.putPair_hsk (a b : RegId) (v i j : Nat) : (s.putPair a b v i j).hsk = s.hsk := rfl
@[simp] theorem State.putPair_evt (a b : RegId) (v i j : Nat) : (s.putPair a b v i j).evt = s.evt := rfl
@[simp] theorem State.putPair_recd (a b : RegId) (v i j : Nat) : (s.putPair a b v i j).recd = s.recd := rfl
@[simp] theorem State.putPair_otp (a b : RegId) (v i j : Nat) : (s.putPair a b v i j).otp = s.otp := rfl
@[simp] theorem State.putPair_sgn (a b : RegId) (v i j : Nat) : (s.putPair a b v i j).sgn = s.sgn := rfl
@[simp] theorem State.putPair_dig (a b : RegId) (v i j : Nat) : (s.putPair a b v i j).dig = s.dig := rfl
@[simp] theorem State.putPair_ldg (a b : RegId) (v i j : Nat) : (s.putPair a b v i j).ldg = s.ldg := rfl
@[simp] theorem State.putPair_key (a b : RegId) (v i j : Nat) : (s.putPair a b v i j).key = s.key := rfl
@[simp] theorem State.putPair_nv (a b : RegId) (v i j : Nat) : (s.putPair a b v i j).nv = s.nv := rfl
@[simp] theorem State.putPair_flash (a b : RegId) (v i j : Nat) : (s.putPair a b v i j).flash = s.flash := rfl
@[simp] theorem State.putPair_tsk (a b : RegId) (v i j : Nat) : (s.putPair a b v i j).tsk = s.tsk := rfl
@[simp] theorem State.putPair_host (a b : RegId) (v i j : Nat) : (s.putPair a b v i j).host = s.host := rfl
@[simp] theorem State.putPair_pod (a b : RegId) (v i j : Nat) : (s.putPair a b v i j).pod = s.pod := rfl
@[simp] theorem State.putPair_dram (a b : RegId) (v i j : Nat) : (s.putPair a b v i j).dram = s.dram := rfl
@[simp] theorem State.putPair_ftl (a b : RegId) (v i j : Nat) : (s.putPair a b v i j).ftl = s.ftl := rfl
@[simp] theorem State.putPair_cmp (a b : RegId) (v i j : Nat) : (s.putPair a b v i j).cmp = s.cmp := rfl
@[simp] theorem State.putPair_scn (a b : RegId) (v i j : Nat) : (s.putPair a b v i j).scn = s.scn := rfl
@[simp] theorem State.putPair_ask (a b : RegId) (v i j : Nat) : (s.putPair a b v i j).ask = s.ask := rfl
@[simp] theorem State.putPair_pwr (a b : RegId) (v i j : Nat) : (s.putPair a b v i j).pwr = s.pwr := rfl
@[simp] theorem State.putPair_timers (a b : RegId) (v i j : Nat) : (s.putPair a b v i j).timers = s.timers := rfl
@[simp] theorem State.putPair_pending (a b : RegId) (v i j : Nat) : (s.putPair a b v i j).pending = s.pending := rfl

/-! ### emit -/

@[simp] theorem State.emit_part (o : Out) : (s.emit o).part = s.part := rfl
@[simp] theorem State.emit_time (o : Out) : (s.emit o).time = s.time := rfl
@[simp] theorem State.emit_freeCtr (o : Out) : (s.emit o).freeCtr = s.freeCtr := rfl
@[simp] theorem State.emit_out (o : Out) : (s.emit o).out = s.out ++ [o] := rfl
@[simp] theorem State.emit_regs (o : Out) : (s.emit o).regs = s.regs := rfl
@[simp] theorem State.emit_hiLatch (o : Out) : (s.emit o).hiLatch = s.hiLatch := rfl
@[simp] theorem State.emit_mem (o : Out) : (s.emit o).mem = s.mem := rfl
@[simp] theorem State.emit_dramEnd (o : Out) : (s.emit o).dramEnd = s.dramEnd := rfl
@[simp] theorem State.emit_bg (o : Out) : (s.emit o).bg = s.bg := rfl
@[simp] theorem State.emit_boot (o : Out) : (s.emit o).boot = s.boot := rfl
@[simp] theorem State.emit_hsf (o : Out) : (s.emit o).hsf = s.hsf := rfl
@[simp] theorem State.emit_hsk (o : Out) : (s.emit o).hsk = s.hsk := rfl
@[simp] theorem State.emit_evt (o : Out) : (s.emit o).evt = s.evt := rfl
@[simp] theorem State.emit_recd (o : Out) : (s.emit o).recd = s.recd := rfl
@[simp] theorem State.emit_otp (o : Out) : (s.emit o).otp = s.otp := rfl
@[simp] theorem State.emit_sgn (o : Out) : (s.emit o).sgn = s.sgn := rfl
@[simp] theorem State.emit_dig (o : Out) : (s.emit o).dig = s.dig := rfl
@[simp] theorem State.emit_ldg (o : Out) : (s.emit o).ldg = s.ldg := rfl
@[simp] theorem State.emit_key (o : Out) : (s.emit o).key = s.key := rfl
@[simp] theorem State.emit_nv (o : Out) : (s.emit o).nv = s.nv := rfl
@[simp] theorem State.emit_flash (o : Out) : (s.emit o).flash = s.flash := rfl
@[simp] theorem State.emit_tsk (o : Out) : (s.emit o).tsk = s.tsk := rfl
@[simp] theorem State.emit_host (o : Out) : (s.emit o).host = s.host := rfl
@[simp] theorem State.emit_pod (o : Out) : (s.emit o).pod = s.pod := rfl
@[simp] theorem State.emit_dram (o : Out) : (s.emit o).dram = s.dram := rfl
@[simp] theorem State.emit_ftl (o : Out) : (s.emit o).ftl = s.ftl := rfl
@[simp] theorem State.emit_cmp (o : Out) : (s.emit o).cmp = s.cmp := rfl
@[simp] theorem State.emit_scn (o : Out) : (s.emit o).scn = s.scn := rfl
@[simp] theorem State.emit_ask (o : Out) : (s.emit o).ask = s.ask := rfl
@[simp] theorem State.emit_pwr (o : Out) : (s.emit o).pwr = s.pwr := rfl
@[simp] theorem State.emit_timers (o : Out) : (s.emit o).timers = s.timers := rfl
@[simp] theorem State.emit_pending (o : Out) : (s.emit o).pending = s.pending := rfl

/-! ### raiseWith -/

@[simp] theorem State.raiseWith_part (n c : Nat) (l : List Nat) (p : Option Nat) (f : Nat) : (s.raiseWith n c l p f).part = s.part := rfl
@[simp] theorem State.raiseWith_time (n c : Nat) (l : List Nat) (p : Option Nat) (f : Nat) : (s.raiseWith n c l p f).time = s.time := rfl
@[simp] theorem State.raiseWith_freeCtr (n c : Nat) (l : List Nat) (p : Option Nat) (f : Nat) : (s.raiseWith n c l p f).freeCtr = s.freeCtr := rfl
@[simp] theorem State.raiseWith_out (n c : Nat) (l : List Nat) (p : Option Nat) (f : Nat) : (s.raiseWith n c l p f).out = s.out := rfl
@[simp] theorem State.raiseWith_regs (n c : Nat) (l : List Nat) (p : Option Nat) (f : Nat) : (s.raiseWith n c l p f).regs = s.regs := rfl
@[simp] theorem State.raiseWith_hiLatch (n c : Nat) (l : List Nat) (p : Option Nat) (f : Nat) : (s.raiseWith n c l p f).hiLatch = s.hiLatch := rfl
@[simp] theorem State.raiseWith_mem (n c : Nat) (l : List Nat) (p : Option Nat) (f : Nat) : (s.raiseWith n c l p f).mem = s.mem := rfl
@[simp] theorem State.raiseWith_dramEnd (n c : Nat) (l : List Nat) (p : Option Nat) (f : Nat) : (s.raiseWith n c l p f).dramEnd = s.dramEnd := rfl
@[simp] theorem State.raiseWith_bg (n c : Nat) (l : List Nat) (p : Option Nat) (f : Nat) : (s.raiseWith n c l p f).bg = s.bg := rfl
@[simp] theorem State.raiseWith_boot (n c : Nat) (l : List Nat) (p : Option Nat) (f : Nat) : (s.raiseWith n c l p f).boot = s.boot := rfl
@[simp] theorem State.raiseWith_hsf (n c : Nat) (l : List Nat) (p : Option Nat) (f : Nat) : (s.raiseWith n c l p f).hsf = s.hsf := rfl
@[simp] theorem State.raiseWith_hsk (n c : Nat) (l : List Nat) (p : Option Nat) (f : Nat) : (s.raiseWith n c l p f).hsk = s.hsk := rfl
@[simp] theorem State.raiseWith_evt (n c : Nat) (l : List Nat) (p : Option Nat) (f : Nat) : (s.raiseWith n c l p f).evt = { s.evt with inbox := s.evt.inbox ++ [⟨n, c, l, p, f, s.time⟩] } := rfl
@[simp] theorem State.raiseWith_recd (n c : Nat) (l : List Nat) (p : Option Nat) (f : Nat) : (s.raiseWith n c l p f).recd = s.recd := rfl
@[simp] theorem State.raiseWith_otp (n c : Nat) (l : List Nat) (p : Option Nat) (f : Nat) : (s.raiseWith n c l p f).otp = s.otp := rfl
@[simp] theorem State.raiseWith_sgn (n c : Nat) (l : List Nat) (p : Option Nat) (f : Nat) : (s.raiseWith n c l p f).sgn = s.sgn := rfl
@[simp] theorem State.raiseWith_dig (n c : Nat) (l : List Nat) (p : Option Nat) (f : Nat) : (s.raiseWith n c l p f).dig = s.dig := rfl
@[simp] theorem State.raiseWith_ldg (n c : Nat) (l : List Nat) (p : Option Nat) (f : Nat) : (s.raiseWith n c l p f).ldg = s.ldg := rfl
@[simp] theorem State.raiseWith_key (n c : Nat) (l : List Nat) (p : Option Nat) (f : Nat) : (s.raiseWith n c l p f).key = s.key := rfl
@[simp] theorem State.raiseWith_nv (n c : Nat) (l : List Nat) (p : Option Nat) (f : Nat) : (s.raiseWith n c l p f).nv = s.nv := rfl
@[simp] theorem State.raiseWith_flash (n c : Nat) (l : List Nat) (p : Option Nat) (f : Nat) : (s.raiseWith n c l p f).flash = s.flash := rfl
@[simp] theorem State.raiseWith_tsk (n c : Nat) (l : List Nat) (p : Option Nat) (f : Nat) : (s.raiseWith n c l p f).tsk = s.tsk := rfl
@[simp] theorem State.raiseWith_host (n c : Nat) (l : List Nat) (p : Option Nat) (f : Nat) : (s.raiseWith n c l p f).host = s.host := rfl
@[simp] theorem State.raiseWith_pod (n c : Nat) (l : List Nat) (p : Option Nat) (f : Nat) : (s.raiseWith n c l p f).pod = s.pod := rfl
@[simp] theorem State.raiseWith_dram (n c : Nat) (l : List Nat) (p : Option Nat) (f : Nat) : (s.raiseWith n c l p f).dram = s.dram := rfl
@[simp] theorem State.raiseWith_ftl (n c : Nat) (l : List Nat) (p : Option Nat) (f : Nat) : (s.raiseWith n c l p f).ftl = s.ftl := rfl
@[simp] theorem State.raiseWith_cmp (n c : Nat) (l : List Nat) (p : Option Nat) (f : Nat) : (s.raiseWith n c l p f).cmp = s.cmp := rfl
@[simp] theorem State.raiseWith_scn (n c : Nat) (l : List Nat) (p : Option Nat) (f : Nat) : (s.raiseWith n c l p f).scn = s.scn := rfl
@[simp] theorem State.raiseWith_ask (n c : Nat) (l : List Nat) (p : Option Nat) (f : Nat) : (s.raiseWith n c l p f).ask = s.ask := rfl
@[simp] theorem State.raiseWith_pwr (n c : Nat) (l : List Nat) (p : Option Nat) (f : Nat) : (s.raiseWith n c l p f).pwr = s.pwr := rfl
@[simp] theorem State.raiseWith_timers (n c : Nat) (l : List Nat) (p : Option Nat) (f : Nat) : (s.raiseWith n c l p f).timers = s.timers := rfl
@[simp] theorem State.raiseWith_pending (n c : Nat) (l : List Nat) (p : Option Nat) (f : Nat) : (s.raiseWith n c l p f).pending = s.pending := rfl

/-! ### raise -/

@[simp] theorem State.raise_part (n c : Nat) (l : List Nat) : (s.raise n c l).part = s.part := rfl
@[simp] theorem State.raise_time (n c : Nat) (l : List Nat) : (s.raise n c l).time = s.time := rfl
@[simp] theorem State.raise_freeCtr (n c : Nat) (l : List Nat) : (s.raise n c l).freeCtr = s.freeCtr := rfl
@[simp] theorem State.raise_out (n c : Nat) (l : List Nat) : (s.raise n c l).out = s.out := rfl
@[simp] theorem State.raise_regs (n c : Nat) (l : List Nat) : (s.raise n c l).regs = s.regs := rfl
@[simp] theorem State.raise_hiLatch (n c : Nat) (l : List Nat) : (s.raise n c l).hiLatch = s.hiLatch := rfl
@[simp] theorem State.raise_mem (n c : Nat) (l : List Nat) : (s.raise n c l).mem = s.mem := rfl
@[simp] theorem State.raise_dramEnd (n c : Nat) (l : List Nat) : (s.raise n c l).dramEnd = s.dramEnd := rfl
@[simp] theorem State.raise_bg (n c : Nat) (l : List Nat) : (s.raise n c l).bg = s.bg := rfl
@[simp] theorem State.raise_boot (n c : Nat) (l : List Nat) : (s.raise n c l).boot = s.boot := rfl
@[simp] theorem State.raise_hsf (n c : Nat) (l : List Nat) : (s.raise n c l).hsf = s.hsf := rfl
@[simp] theorem State.raise_hsk (n c : Nat) (l : List Nat) : (s.raise n c l).hsk = s.hsk := rfl
@[simp] theorem State.raise_evt (n c : Nat) (l : List Nat) : (s.raise n c l).evt = { s.evt with inbox := s.evt.inbox ++ [⟨n, c, l, none, 0, s.time⟩] } := rfl
@[simp] theorem State.raise_recd (n c : Nat) (l : List Nat) : (s.raise n c l).recd = s.recd := rfl
@[simp] theorem State.raise_otp (n c : Nat) (l : List Nat) : (s.raise n c l).otp = s.otp := rfl
@[simp] theorem State.raise_sgn (n c : Nat) (l : List Nat) : (s.raise n c l).sgn = s.sgn := rfl
@[simp] theorem State.raise_dig (n c : Nat) (l : List Nat) : (s.raise n c l).dig = s.dig := rfl
@[simp] theorem State.raise_ldg (n c : Nat) (l : List Nat) : (s.raise n c l).ldg = s.ldg := rfl
@[simp] theorem State.raise_key (n c : Nat) (l : List Nat) : (s.raise n c l).key = s.key := rfl
@[simp] theorem State.raise_nv (n c : Nat) (l : List Nat) : (s.raise n c l).nv = s.nv := rfl
@[simp] theorem State.raise_flash (n c : Nat) (l : List Nat) : (s.raise n c l).flash = s.flash := rfl
@[simp] theorem State.raise_tsk (n c : Nat) (l : List Nat) : (s.raise n c l).tsk = s.tsk := rfl
@[simp] theorem State.raise_host (n c : Nat) (l : List Nat) : (s.raise n c l).host = s.host := rfl
@[simp] theorem State.raise_pod (n c : Nat) (l : List Nat) : (s.raise n c l).pod = s.pod := rfl
@[simp] theorem State.raise_dram (n c : Nat) (l : List Nat) : (s.raise n c l).dram = s.dram := rfl
@[simp] theorem State.raise_ftl (n c : Nat) (l : List Nat) : (s.raise n c l).ftl = s.ftl := rfl
@[simp] theorem State.raise_cmp (n c : Nat) (l : List Nat) : (s.raise n c l).cmp = s.cmp := rfl
@[simp] theorem State.raise_scn (n c : Nat) (l : List Nat) : (s.raise n c l).scn = s.scn := rfl
@[simp] theorem State.raise_ask (n c : Nat) (l : List Nat) : (s.raise n c l).ask = s.ask := rfl
@[simp] theorem State.raise_pwr (n c : Nat) (l : List Nat) : (s.raise n c l).pwr = s.pwr := rfl
@[simp] theorem State.raise_timers (n c : Nat) (l : List Nat) : (s.raise n c l).timers = s.timers := rfl
@[simp] theorem State.raise_pending (n c : Nat) (l : List Nat) : (s.raise n c l).pending = s.pending := rfl

/-! ### raisePod -/

@[simp] theorem State.raisePod_part (n c : Nat) (l : List Nat) (p : Nat) : (s.raisePod n c l p).part = s.part := rfl
@[simp] theorem State.raisePod_time (n c : Nat) (l : List Nat) (p : Nat) : (s.raisePod n c l p).time = s.time := rfl
@[simp] theorem State.raisePod_freeCtr (n c : Nat) (l : List Nat) (p : Nat) : (s.raisePod n c l p).freeCtr = s.freeCtr := rfl
@[simp] theorem State.raisePod_out (n c : Nat) (l : List Nat) (p : Nat) : (s.raisePod n c l p).out = s.out := rfl
@[simp] theorem State.raisePod_regs (n c : Nat) (l : List Nat) (p : Nat) : (s.raisePod n c l p).regs = s.regs := rfl
@[simp] theorem State.raisePod_hiLatch (n c : Nat) (l : List Nat) (p : Nat) : (s.raisePod n c l p).hiLatch = s.hiLatch := rfl
@[simp] theorem State.raisePod_mem (n c : Nat) (l : List Nat) (p : Nat) : (s.raisePod n c l p).mem = s.mem := rfl
@[simp] theorem State.raisePod_dramEnd (n c : Nat) (l : List Nat) (p : Nat) : (s.raisePod n c l p).dramEnd = s.dramEnd := rfl
@[simp] theorem State.raisePod_bg (n c : Nat) (l : List Nat) (p : Nat) : (s.raisePod n c l p).bg = s.bg := rfl
@[simp] theorem State.raisePod_boot (n c : Nat) (l : List Nat) (p : Nat) : (s.raisePod n c l p).boot = s.boot := rfl
@[simp] theorem State.raisePod_hsf (n c : Nat) (l : List Nat) (p : Nat) : (s.raisePod n c l p).hsf = s.hsf := rfl
@[simp] theorem State.raisePod_hsk (n c : Nat) (l : List Nat) (p : Nat) : (s.raisePod n c l p).hsk = s.hsk := rfl
@[simp] theorem State.raisePod_evt (n c : Nat) (l : List Nat) (p : Nat) : (s.raisePod n c l p).evt = { s.evt with inbox := s.evt.inbox ++ [⟨n, c, l, some p, 0, s.time⟩] } := rfl
@[simp] theorem State.raisePod_recd (n c : Nat) (l : List Nat) (p : Nat) : (s.raisePod n c l p).recd = s.recd := rfl
@[simp] theorem State.raisePod_otp (n c : Nat) (l : List Nat) (p : Nat) : (s.raisePod n c l p).otp = s.otp := rfl
@[simp] theorem State.raisePod_sgn (n c : Nat) (l : List Nat) (p : Nat) : (s.raisePod n c l p).sgn = s.sgn := rfl
@[simp] theorem State.raisePod_dig (n c : Nat) (l : List Nat) (p : Nat) : (s.raisePod n c l p).dig = s.dig := rfl
@[simp] theorem State.raisePod_ldg (n c : Nat) (l : List Nat) (p : Nat) : (s.raisePod n c l p).ldg = s.ldg := rfl
@[simp] theorem State.raisePod_key (n c : Nat) (l : List Nat) (p : Nat) : (s.raisePod n c l p).key = s.key := rfl
@[simp] theorem State.raisePod_nv (n c : Nat) (l : List Nat) (p : Nat) : (s.raisePod n c l p).nv = s.nv := rfl
@[simp] theorem State.raisePod_flash (n c : Nat) (l : List Nat) (p : Nat) : (s.raisePod n c l p).flash = s.flash := rfl
@[simp] theorem State.raisePod_tsk (n c : Nat) (l : List Nat) (p : Nat) : (s.raisePod n c l p).tsk = s.tsk := rfl
@[simp] theorem State.raisePod_host (n c : Nat) (l : List Nat) (p : Nat) : (s.raisePod n c l p).host = s.host := rfl
@[simp] theorem State.raisePod_pod (n c : Nat) (l : List Nat) (p : Nat) : (s.raisePod n c l p).pod = s.pod := rfl
@[simp] theorem State.raisePod_dram (n c : Nat) (l : List Nat) (p : Nat) : (s.raisePod n c l p).dram = s.dram := rfl
@[simp] theorem State.raisePod_ftl (n c : Nat) (l : List Nat) (p : Nat) : (s.raisePod n c l p).ftl = s.ftl := rfl
@[simp] theorem State.raisePod_cmp (n c : Nat) (l : List Nat) (p : Nat) : (s.raisePod n c l p).cmp = s.cmp := rfl
@[simp] theorem State.raisePod_scn (n c : Nat) (l : List Nat) (p : Nat) : (s.raisePod n c l p).scn = s.scn := rfl
@[simp] theorem State.raisePod_ask (n c : Nat) (l : List Nat) (p : Nat) : (s.raisePod n c l p).ask = s.ask := rfl
@[simp] theorem State.raisePod_pwr (n c : Nat) (l : List Nat) (p : Nat) : (s.raisePod n c l p).pwr = s.pwr := rfl
@[simp] theorem State.raisePod_timers (n c : Nat) (l : List Nat) (p : Nat) : (s.raisePod n c l p).timers = s.timers := rfl
@[simp] theorem State.raisePod_pending (n c : Nat) (l : List Nat) (p : Nat) : (s.raisePod n c l p).pending = s.pending := rfl

/-! ### wr -/

@[simp] theorem State.wr_part (a : Nat) (bs : List Byte) : (s.wr a bs).part = s.part := rfl
@[simp] theorem State.wr_time (a : Nat) (bs : List Byte) : (s.wr a bs).time = s.time := rfl
@[simp] theorem State.wr_freeCtr (a : Nat) (bs : List Byte) : (s.wr a bs).freeCtr = s.freeCtr := rfl
@[simp] theorem State.wr_out (a : Nat) (bs : List Byte) : (s.wr a bs).out = s.out := rfl
@[simp] theorem State.wr_regs (a : Nat) (bs : List Byte) : (s.wr a bs).regs = s.regs := rfl
@[simp] theorem State.wr_hiLatch (a : Nat) (bs : List Byte) : (s.wr a bs).hiLatch = s.hiLatch := rfl
@[simp] theorem State.wr_mem (a : Nat) (bs : List Byte) : (s.wr a bs).mem = memWrite s.mem a bs := rfl
@[simp] theorem State.wr_dramEnd (a : Nat) (bs : List Byte) : (s.wr a bs).dramEnd = s.dramEnd := rfl
@[simp] theorem State.wr_bg (a : Nat) (bs : List Byte) : (s.wr a bs).bg = s.bg := rfl
@[simp] theorem State.wr_boot (a : Nat) (bs : List Byte) : (s.wr a bs).boot = s.boot := rfl
@[simp] theorem State.wr_hsf (a : Nat) (bs : List Byte) : (s.wr a bs).hsf = s.hsf := rfl
@[simp] theorem State.wr_hsk (a : Nat) (bs : List Byte) : (s.wr a bs).hsk = s.hsk := rfl
@[simp] theorem State.wr_evt (a : Nat) (bs : List Byte) : (s.wr a bs).evt = s.evt := rfl
@[simp] theorem State.wr_recd (a : Nat) (bs : List Byte) : (s.wr a bs).recd = s.recd := rfl
@[simp] theorem State.wr_otp (a : Nat) (bs : List Byte) : (s.wr a bs).otp = s.otp := rfl
@[simp] theorem State.wr_sgn (a : Nat) (bs : List Byte) : (s.wr a bs).sgn = s.sgn := rfl
@[simp] theorem State.wr_dig (a : Nat) (bs : List Byte) : (s.wr a bs).dig = s.dig := rfl
@[simp] theorem State.wr_ldg (a : Nat) (bs : List Byte) : (s.wr a bs).ldg = s.ldg := rfl
@[simp] theorem State.wr_key (a : Nat) (bs : List Byte) : (s.wr a bs).key = s.key := rfl
@[simp] theorem State.wr_nv (a : Nat) (bs : List Byte) : (s.wr a bs).nv = s.nv := rfl
@[simp] theorem State.wr_flash (a : Nat) (bs : List Byte) : (s.wr a bs).flash = s.flash := rfl
@[simp] theorem State.wr_tsk (a : Nat) (bs : List Byte) : (s.wr a bs).tsk = s.tsk := rfl
@[simp] theorem State.wr_host (a : Nat) (bs : List Byte) : (s.wr a bs).host = s.host := rfl
@[simp] theorem State.wr_pod (a : Nat) (bs : List Byte) : (s.wr a bs).pod = s.pod := rfl
@[simp] theorem State.wr_dram (a : Nat) (bs : List Byte) : (s.wr a bs).dram = s.dram := rfl
@[simp] theorem State.wr_ftl (a : Nat) (bs : List Byte) : (s.wr a bs).ftl = s.ftl := rfl
@[simp] theorem State.wr_cmp (a : Nat) (bs : List Byte) : (s.wr a bs).cmp = s.cmp := rfl
@[simp] theorem State.wr_scn (a : Nat) (bs : List Byte) : (s.wr a bs).scn = s.scn := rfl
@[simp] theorem State.wr_ask (a : Nat) (bs : List Byte) : (s.wr a bs).ask = s.ask := rfl
@[simp] theorem State.wr_pwr (a : Nat) (bs : List Byte) : (s.wr a bs).pwr = s.pwr := rfl
@[simp] theorem State.wr_timers (a : Nat) (bs : List Byte) : (s.wr a bs).timers = s.timers := rfl
@[simp] theorem State.wr_pending (a : Nat) (bs : List Byte) : (s.wr a bs).pending = s.pending := rfl

/-! ### notBefore -/

@[simp] theorem State.notBefore_part (t : Nat) : (s.notBefore t).part = s.part := rfl
@[simp] theorem State.notBefore_time (t : Nat) : (s.notBefore t).time = max s.time t := rfl
@[simp] theorem State.notBefore_freeCtr (t : Nat) : (s.notBefore t).freeCtr = s.freeCtr := rfl
@[simp] theorem State.notBefore_out (t : Nat) : (s.notBefore t).out = s.out := rfl
@[simp] theorem State.notBefore_regs (t : Nat) : (s.notBefore t).regs = s.regs := rfl
@[simp] theorem State.notBefore_hiLatch (t : Nat) : (s.notBefore t).hiLatch = s.hiLatch := rfl
@[simp] theorem State.notBefore_mem (t : Nat) : (s.notBefore t).mem = s.mem := rfl
@[simp] theorem State.notBefore_dramEnd (t : Nat) : (s.notBefore t).dramEnd = s.dramEnd := rfl
@[simp] theorem State.notBefore_bg (t : Nat) : (s.notBefore t).bg = s.bg := rfl
@[simp] theorem State.notBefore_boot (t : Nat) : (s.notBefore t).boot = s.boot := rfl
@[simp] theorem State.notBefore_hsf (t : Nat) : (s.notBefore t).hsf = s.hsf := rfl
@[simp] theorem State.notBefore_hsk (t : Nat) : (s.notBefore t).hsk = s.hsk := rfl
@[simp] theorem State.notBefore_evt (t : Nat) : (s.notBefore t).evt = s.evt := rfl
@[simp] theorem State.notBefore_recd (t : Nat) : (s.notBefore t).recd = s.recd := rfl
@[simp] theorem State.notBefore_otp (t : Nat) : (s.notBefore t).otp = s.otp := rfl
@[simp] theorem State.notBefore_sgn (t : Nat) : (s.notBefore t).sgn = s.sgn := rfl
@[simp] theorem State.notBefore_dig (t : Nat) : (s.notBefore t).dig = s.dig := rfl
@[simp] theorem State.notBefore_ldg (t : Nat) : (s.notBefore t).ldg = s.ldg := rfl
@[simp] theorem State.notBefore_key (t : Nat) : (s.notBefore t).key = s.key := rfl
@[simp] theorem State.notBefore_nv (t : Nat) : (s.notBefore t).nv = s.nv := rfl
@[simp] theorem State.notBefore_flash (t : Nat) : (s.notBefore t).flash = s.flash := rfl
@[simp] theorem State.notBefore_tsk (t : Nat) : (s.notBefore t).tsk = s.tsk := rfl
@[simp] theorem State.notBefore_host (t : Nat) : (s.notBefore t).host = s.host := rfl
@[simp] theorem State.notBefore_pod (t : Nat) : (s.notBefore t).pod = s.pod := rfl
@[simp] theorem State.notBefore_dram (t : Nat) : (s.notBefore t).dram = s.dram := rfl
@[simp] theorem State.notBefore_ftl (t : Nat) : (s.notBefore t).ftl = s.ftl := rfl
@[simp] theorem State.notBefore_cmp (t : Nat) : (s.notBefore t).cmp = s.cmp := rfl
@[simp] theorem State.notBefore_scn (t : Nat) : (s.notBefore t).scn = s.scn := rfl
@[simp] theorem State.notBefore_ask (t : Nat) : (s.notBefore t).ask = s.ask := rfl
@[simp] theorem State.notBefore_pwr (t : Nat) : (s.notBefore t).pwr = s.pwr := rfl
@[simp] theorem State.notBefore_timers (t : Nat) : (s.notBefore t).timers = s.timers := rfl
@[simp] theorem State.notBefore_pending (t : Nat) : (s.notBefore t).pending = s.pending := rfl

/-! ### stamp -/

@[simp] theorem State.stamp_part (k : Timer) : (s.stamp k).part = s.part := rfl
@[simp] theorem State.stamp_time (k : Timer) : (s.stamp k).time = s.time := rfl
@[simp] theorem State.stamp_freeCtr (k : Timer) : (s.stamp k).freeCtr = s.freeCtr := rfl
@[simp] theorem State.stamp_out (k : Timer) : (s.stamp k).out = s.out := rfl
@[simp] theorem State.stamp_regs (k : Timer) : (s.stamp k).regs = s.regs := rfl
@[simp] theorem State.stamp_hiLatch (k : Timer) : (s.stamp k).hiLatch = s.hiLatch := rfl
@[simp] theorem State.stamp_mem (k : Timer) : (s.stamp k).mem = s.mem := rfl
@[simp] theorem State.stamp_dramEnd (k : Timer) : (s.stamp k).dramEnd = s.dramEnd := rfl
@[simp] theorem State.stamp_bg (k : Timer) : (s.stamp k).bg = s.bg := rfl
@[simp] theorem State.stamp_boot (k : Timer) : (s.stamp k).boot = s.boot := rfl
@[simp] theorem State.stamp_hsf (k : Timer) : (s.stamp k).hsf = s.hsf := rfl
@[simp] theorem State.stamp_hsk (k : Timer) : (s.stamp k).hsk = s.hsk := rfl
@[simp] theorem State.stamp_evt (k : Timer) : (s.stamp k).evt = s.evt := rfl
@[simp] theorem State.stamp_recd (k : Timer) : (s.stamp k).recd = s.recd := rfl
@[simp] theorem State.stamp_otp (k : Timer) : (s.stamp k).otp = s.otp := rfl
@[simp] theorem State.stamp_sgn (k : Timer) : (s.stamp k).sgn = s.sgn := rfl
@[simp] theorem State.stamp_dig (k : Timer) : (s.stamp k).dig = s.dig := rfl
@[simp] theorem State.stamp_ldg (k : Timer) : (s.stamp k).ldg = s.ldg := rfl
@[simp] theorem State.stamp_key (k : Timer) : (s.stamp k).key = s.key := rfl
@[simp] theorem State.stamp_nv (k : Timer) : (s.stamp k).nv = s.nv := rfl
@[simp] theorem State.stamp_flash (k : Timer) : (s.stamp k).flash = s.flash := rfl
@[simp] theorem State.stamp_tsk (k : Timer) : (s.stamp k).tsk = s.tsk := rfl
@[simp] theorem State.stamp_host (k : Timer) : (s.stamp k).host = s.host := rfl
@[simp] theorem State.stamp_pod (k : Timer) : (s.stamp k).pod = s.pod := rfl
@[simp] theorem State.stamp_dram (k : Timer) : (s.stamp k).dram = s.dram := rfl
@[simp] theorem State.stamp_ftl (k : Timer) : (s.stamp k).ftl = s.ftl := rfl
@[simp] theorem State.stamp_cmp (k : Timer) : (s.stamp k).cmp = s.cmp := rfl
@[simp] theorem State.stamp_scn (k : Timer) : (s.stamp k).scn = s.scn := rfl
@[simp] theorem State.stamp_ask (k : Timer) : (s.stamp k).ask = s.ask := rfl
@[simp] theorem State.stamp_pwr (k : Timer) : (s.stamp k).pwr = s.pwr := rfl
@[simp] theorem State.stamp_pending (k : Timer) : (s.stamp k).pending = s.pending := rfl

/-! ### every -/

@[simp] theorem State.every_part (k : Timer) (n : Nat) : (s.every k n).part = s.part := rfl
@[simp] theorem State.every_time (k : Timer) (n : Nat) : (s.every k n).time = max s.time (s.since k + n) := rfl
@[simp] theorem State.every_freeCtr (k : Timer) (n : Nat) : (s.every k n).freeCtr = s.freeCtr := rfl
@[simp] theorem State.every_out (k : Timer) (n : Nat) : (s.every k n).out = s.out := rfl
@[simp] theorem State.every_regs (k : Timer) (n : Nat) : (s.every k n).regs = s.regs := rfl
@[simp] theorem State.every_hiLatch (k : Timer) (n : Nat) : (s.every k n).hiLatch = s.hiLatch := rfl
@[simp] theorem State.every_mem (k : Timer) (n : Nat) : (s.every k n).mem = s.mem := rfl
@[simp] theorem State.every_dramEnd (k : Timer) (n : Nat) : (s.every k n).dramEnd = s.dramEnd := rfl
@[simp] theorem State.every_bg (k : Timer) (n : Nat) : (s.every k n).bg = s.bg := rfl
@[simp] theorem State.every_boot (k : Timer) (n : Nat) : (s.every k n).boot = s.boot := rfl
@[simp] theorem State.every_hsf (k : Timer) (n : Nat) : (s.every k n).hsf = s.hsf := rfl
@[simp] theorem State.every_hsk (k : Timer) (n : Nat) : (s.every k n).hsk = s.hsk := rfl
@[simp] theorem State.every_evt (k : Timer) (n : Nat) : (s.every k n).evt = s.evt := rfl
@[simp] theorem State.every_recd (k : Timer) (n : Nat) : (s.every k n).recd = s.recd := rfl
@[simp] theorem State.every_otp (k : Timer) (n : Nat) : (s.every k n).otp = s.otp := rfl
@[simp] theorem State.every_sgn (k : Timer) (n : Nat) : (s.every k n).sgn = s.sgn := rfl
@[simp] theorem State.every_dig (k : Timer) (n : Nat) : (s.every k n).dig = s.dig := rfl
@[simp] theorem State.every_ldg (k : Timer) (n : Nat) : (s.every k n).ldg = s.ldg := rfl
@[simp] theorem State.every_key (k : Timer) (n : Nat) : (s.every k n).key = s.key := rfl
@[simp] theorem State.every_nv (k : Timer) (n : Nat) : (s.every k n).nv = s.nv := rfl
@[simp] theorem State.every_flash (k : Timer) (n : Nat) : (s.every k n).flash = s.flash := rfl
@[simp] theorem State.every_tsk (k : Timer) (n : Nat) : (s.every k n).tsk = s.tsk := rfl
@[simp] theorem State.every_host (k : Timer) (n : Nat) : (s.every k n).host = s.host := rfl
@[simp] theorem State.every_pod (k : Timer) (n : Nat) : (s.every k n).pod = s.pod := rfl
@[simp] theorem State.every_dram (k : Timer) (n : Nat) : (s.every k n).dram = s.dram := rfl
@[simp] theorem State.every_ftl (k : Timer) (n : Nat) : (s.every k n).ftl = s.ftl := rfl
@[simp] theorem State.every_cmp (k : Timer) (n : Nat) : (s.every k n).cmp = s.cmp := rfl
@[simp] theorem State.every_scn (k : Timer) (n : Nat) : (s.every k n).scn = s.scn := rfl
@[simp] theorem State.every_ask (k : Timer) (n : Nat) : (s.every k n).ask = s.ask := rfl
@[simp] theorem State.every_pwr (k : Timer) (n : Nat) : (s.every k n).pwr = s.pwr := rfl
@[simp] theorem State.every_pending (k : Timer) (n : Nat) : (s.every k n).pending = s.pending := rfl

/-! ### setCtrl -/

@[simp] theorem State.setCtrl_part (p : Nat) (c : Ctrl) : (s.setCtrl p c).part = s.part := rfl
@[simp] theorem State.setCtrl_time (p : Nat) (c : Ctrl) : (s.setCtrl p c).time = s.time := rfl
@[simp] theorem State.setCtrl_freeCtr (p : Nat) (c : Ctrl) : (s.setCtrl p c).freeCtr = s.freeCtr := rfl
@[simp] theorem State.setCtrl_out (p : Nat) (c : Ctrl) : (s.setCtrl p c).out = s.out := rfl
@[simp] theorem State.setCtrl_regs (p : Nat) (c : Ctrl) : (s.setCtrl p c).regs = s.regs := rfl
@[simp] theorem State.setCtrl_hiLatch (p : Nat) (c : Ctrl) : (s.setCtrl p c).hiLatch = s.hiLatch := rfl
@[simp] theorem State.setCtrl_mem (p : Nat) (c : Ctrl) : (s.setCtrl p c).mem = s.mem := rfl
@[simp] theorem State.setCtrl_dramEnd (p : Nat) (c : Ctrl) : (s.setCtrl p c).dramEnd = s.dramEnd := rfl
@[simp] theorem State.setCtrl_bg (p : Nat) (c : Ctrl) : (s.setCtrl p c).bg = s.bg := rfl
@[simp] theorem State.setCtrl_boot (p : Nat) (c : Ctrl) : (s.setCtrl p c).boot = s.boot := rfl
@[simp] theorem State.setCtrl_hsf (p : Nat) (c : Ctrl) : (s.setCtrl p c).hsf = s.hsf := rfl
@[simp] theorem State.setCtrl_hsk (p : Nat) (c : Ctrl) : (s.setCtrl p c).hsk = s.hsk := rfl
@[simp] theorem State.setCtrl_evt (p : Nat) (c : Ctrl) : (s.setCtrl p c).evt = s.evt := rfl
@[simp] theorem State.setCtrl_recd (p : Nat) (c : Ctrl) : (s.setCtrl p c).recd = s.recd := rfl
@[simp] theorem State.setCtrl_otp (p : Nat) (c : Ctrl) : (s.setCtrl p c).otp = s.otp := rfl
@[simp] theorem State.setCtrl_sgn (p : Nat) (c : Ctrl) : (s.setCtrl p c).sgn = s.sgn := rfl
@[simp] theorem State.setCtrl_dig (p : Nat) (c : Ctrl) : (s.setCtrl p c).dig = s.dig := rfl
@[simp] theorem State.setCtrl_ldg (p : Nat) (c : Ctrl) : (s.setCtrl p c).ldg = s.ldg := rfl
@[simp] theorem State.setCtrl_key (p : Nat) (c : Ctrl) : (s.setCtrl p c).key = s.key := rfl
@[simp] theorem State.setCtrl_nv (p : Nat) (c : Ctrl) : (s.setCtrl p c).nv = s.nv := rfl
@[simp] theorem State.setCtrl_flash (p : Nat) (c : Ctrl) : (s.setCtrl p c).flash = s.flash := rfl
@[simp] theorem State.setCtrl_tsk (p : Nat) (c : Ctrl) : (s.setCtrl p c).tsk = s.tsk := rfl
@[simp] theorem State.setCtrl_pod (p : Nat) (c : Ctrl) : (s.setCtrl p c).pod = s.pod := rfl
@[simp] theorem State.setCtrl_dram (p : Nat) (c : Ctrl) : (s.setCtrl p c).dram = s.dram := rfl
@[simp] theorem State.setCtrl_ftl (p : Nat) (c : Ctrl) : (s.setCtrl p c).ftl = s.ftl := rfl
@[simp] theorem State.setCtrl_cmp (p : Nat) (c : Ctrl) : (s.setCtrl p c).cmp = s.cmp := rfl
@[simp] theorem State.setCtrl_scn (p : Nat) (c : Ctrl) : (s.setCtrl p c).scn = s.scn := rfl
@[simp] theorem State.setCtrl_ask (p : Nat) (c : Ctrl) : (s.setCtrl p c).ask = s.ask := rfl
@[simp] theorem State.setCtrl_pwr (p : Nat) (c : Ctrl) : (s.setCtrl p c).pwr = s.pwr := rfl
@[simp] theorem State.setCtrl_timers (p : Nat) (c : Ctrl) : (s.setCtrl p c).timers = s.timers := rfl
@[simp] theorem State.setCtrl_pending (p : Nat) (c : Ctrl) : (s.setCtrl p c).pending = s.pending := rfl

/-! ### setBg -/

@[simp] theorem State.setBg_part (n i : Nat) (a : BgAcct) : (s.setBg n i a).part = s.part := rfl
@[simp] theorem State.setBg_time (n i : Nat) (a : BgAcct) : (s.setBg n i a).time = s.time := rfl
@[simp] theorem State.setBg_freeCtr (n i : Nat) (a : BgAcct) : (s.setBg n i a).freeCtr = s.freeCtr := rfl
@[simp] theorem State.setBg_out (n i : Nat) (a : BgAcct) : (s.setBg n i a).out = s.out := rfl
@[simp] theorem State.setBg_regs (n i : Nat) (a : BgAcct) : (s.setBg n i a).regs = s.regs := rfl
@[simp] theorem State.setBg_hiLatch (n i : Nat) (a : BgAcct) : (s.setBg n i a).hiLatch = s.hiLatch := rfl
@[simp] theorem State.setBg_mem (n i : Nat) (a : BgAcct) : (s.setBg n i a).mem = s.mem := rfl
@[simp] theorem State.setBg_dramEnd (n i : Nat) (a : BgAcct) : (s.setBg n i a).dramEnd = s.dramEnd := rfl
@[simp] theorem State.setBg_boot (n i : Nat) (a : BgAcct) : (s.setBg n i a).boot = s.boot := rfl
@[simp] theorem State.setBg_hsf (n i : Nat) (a : BgAcct) : (s.setBg n i a).hsf = s.hsf := rfl
@[simp] theorem State.setBg_hsk (n i : Nat) (a : BgAcct) : (s.setBg n i a).hsk = s.hsk := rfl
@[simp] theorem State.setBg_evt (n i : Nat) (a : BgAcct) : (s.setBg n i a).evt = s.evt := rfl
@[simp] theorem State.setBg_recd (n i : Nat) (a : BgAcct) : (s.setBg n i a).recd = s.recd := rfl
@[simp] theorem State.setBg_otp (n i : Nat) (a : BgAcct) : (s.setBg n i a).otp = s.otp := rfl
@[simp] theorem State.setBg_sgn (n i : Nat) (a : BgAcct) : (s.setBg n i a).sgn = s.sgn := rfl
@[simp] theorem State.setBg_dig (n i : Nat) (a : BgAcct) : (s.setBg n i a).dig = s.dig := rfl
@[simp] theorem State.setBg_ldg (n i : Nat) (a : BgAcct) : (s.setBg n i a).ldg = s.ldg := rfl
@[simp] theorem State.setBg_key (n i : Nat) (a : BgAcct) : (s.setBg n i a).key = s.key := rfl
@[simp] theorem State.setBg_nv (n i : Nat) (a : BgAcct) : (s.setBg n i a).nv = s.nv := rfl
@[simp] theorem State.setBg_flash (n i : Nat) (a : BgAcct) : (s.setBg n i a).flash = s.flash := rfl
@[simp] theorem State.setBg_tsk (n i : Nat) (a : BgAcct) : (s.setBg n i a).tsk = s.tsk := rfl
@[simp] theorem State.setBg_host (n i : Nat) (a : BgAcct) : (s.setBg n i a).host = s.host := rfl
@[simp] theorem State.setBg_pod (n i : Nat) (a : BgAcct) : (s.setBg n i a).pod = s.pod := rfl
@[simp] theorem State.setBg_dram (n i : Nat) (a : BgAcct) : (s.setBg n i a).dram = s.dram := rfl
@[simp] theorem State.setBg_ftl (n i : Nat) (a : BgAcct) : (s.setBg n i a).ftl = s.ftl := rfl
@[simp] theorem State.setBg_cmp (n i : Nat) (a : BgAcct) : (s.setBg n i a).cmp = s.cmp := rfl
@[simp] theorem State.setBg_scn (n i : Nat) (a : BgAcct) : (s.setBg n i a).scn = s.scn := rfl
@[simp] theorem State.setBg_ask (n i : Nat) (a : BgAcct) : (s.setBg n i a).ask = s.ask := rfl
@[simp] theorem State.setBg_pwr (n i : Nat) (a : BgAcct) : (s.setBg n i a).pwr = s.pwr := rfl
@[simp] theorem State.setBg_timers (n i : Nat) (a : BgAcct) : (s.setBg n i a).timers = s.timers := rfl
@[simp] theorem State.setBg_pending (n i : Nat) (a : BgAcct) : (s.setBg n i a).pending = s.pending := rfl

/-! ### putTask -/

@[simp] theorem State.putTask_part (i : Nat) (t : Task) : (s.putTask i t).part = s.part := rfl
@[simp] theorem State.putTask_time (i : Nat) (t : Task) : (s.putTask i t).time = s.time := rfl
@[simp] theorem State.putTask_freeCtr (i : Nat) (t : Task) : (s.putTask i t).freeCtr = s.freeCtr := rfl
@[simp] theorem State.putTask_out (i : Nat) (t : Task) : (s.putTask i t).out = s.out := rfl
@[simp] theorem State.putTask_regs (i : Nat) (t : Task) : (s.putTask i t).regs = s.regs := rfl
@[simp] theorem State.putTask_hiLatch (i : Nat) (t : Task) : (s.putTask i t).hiLatch = s.hiLatch := rfl
@[simp] theorem State.putTask_mem (i : Nat) (t : Task) : (s.putTask i t).mem = s.mem := rfl
@[simp] theorem State.putTask_dramEnd (i : Nat) (t : Task) : (s.putTask i t).dramEnd = s.dramEnd := rfl
@[simp] theorem State.putTask_bg (i : Nat) (t : Task) : (s.putTask i t).bg = s.bg := rfl
@[simp] theorem State.putTask_boot (i : Nat) (t : Task) : (s.putTask i t).boot = s.boot := rfl
@[simp] theorem State.putTask_hsf (i : Nat) (t : Task) : (s.putTask i t).hsf = s.hsf := rfl
@[simp] theorem State.putTask_hsk (i : Nat) (t : Task) : (s.putTask i t).hsk = s.hsk := rfl
@[simp] theorem State.putTask_evt (i : Nat) (t : Task) : (s.putTask i t).evt = s.evt := rfl
@[simp] theorem State.putTask_recd (i : Nat) (t : Task) : (s.putTask i t).recd = s.recd := rfl
@[simp] theorem State.putTask_otp (i : Nat) (t : Task) : (s.putTask i t).otp = s.otp := rfl
@[simp] theorem State.putTask_sgn (i : Nat) (t : Task) : (s.putTask i t).sgn = s.sgn := rfl
@[simp] theorem State.putTask_dig (i : Nat) (t : Task) : (s.putTask i t).dig = s.dig := rfl
@[simp] theorem State.putTask_ldg (i : Nat) (t : Task) : (s.putTask i t).ldg = s.ldg := rfl
@[simp] theorem State.putTask_key (i : Nat) (t : Task) : (s.putTask i t).key = s.key := rfl
@[simp] theorem State.putTask_nv (i : Nat) (t : Task) : (s.putTask i t).nv = s.nv := rfl
@[simp] theorem State.putTask_flash (i : Nat) (t : Task) : (s.putTask i t).flash = s.flash := rfl
@[simp] theorem State.putTask_host (i : Nat) (t : Task) : (s.putTask i t).host = s.host := rfl
@[simp] theorem State.putTask_pod (i : Nat) (t : Task) : (s.putTask i t).pod = s.pod := rfl
@[simp] theorem State.putTask_dram (i : Nat) (t : Task) : (s.putTask i t).dram = s.dram := rfl
@[simp] theorem State.putTask_ftl (i : Nat) (t : Task) : (s.putTask i t).ftl = s.ftl := rfl
@[simp] theorem State.putTask_cmp (i : Nat) (t : Task) : (s.putTask i t).cmp = s.cmp := rfl
@[simp] theorem State.putTask_scn (i : Nat) (t : Task) : (s.putTask i t).scn = s.scn := rfl
@[simp] theorem State.putTask_ask (i : Nat) (t : Task) : (s.putTask i t).ask = s.ask := rfl
@[simp] theorem State.putTask_pwr (i : Nat) (t : Task) : (s.putTask i t).pwr = s.pwr := rfl
@[simp] theorem State.putTask_timers (i : Nat) (t : Task) : (s.putTask i t).timers = s.timers := rfl
@[simp] theorem State.putTask_pending (i : Nat) (t : Task) : (s.putTask i t).pending = s.pending := rfl

/-! ### putCore -/

@[simp] theorem State.putCore_part (k : Nat) (c : Core) : (s.putCore k c).part = s.part := rfl
@[simp] theorem State.putCore_time (k : Nat) (c : Core) : (s.putCore k c).time = s.time := rfl
@[simp] theorem State.putCore_freeCtr (k : Nat) (c : Core) : (s.putCore k c).freeCtr = s.freeCtr := rfl
@[simp] theorem State.putCore_out (k : Nat) (c : Core) : (s.putCore k c).out = s.out := rfl
@[simp] theorem State.putCore_regs (k : Nat) (c : Core) : (s.putCore k c).regs = s.regs := rfl
@[simp] theorem State.putCore_hiLatch (k : Nat) (c : Core) : (s.putCore k c).hiLatch = s.hiLatch := rfl
@[simp] theorem State.putCore_mem (k : Nat) (c : Core) : (s.putCore k c).mem = s.mem := rfl
@[simp] theorem State.putCore_dramEnd (k : Nat) (c : Core) : (s.putCore k c).dramEnd = s.dramEnd := rfl
@[simp] theorem State.putCore_bg (k : Nat) (c : Core) : (s.putCore k c).bg = s.bg := rfl
@[simp] theorem State.putCore_boot (k : Nat) (c : Core) : (s.putCore k c).boot = s.boot := rfl
@[simp] theorem State.putCore_hsf (k : Nat) (c : Core) : (s.putCore k c).hsf = s.hsf := rfl
@[simp] theorem State.putCore_hsk (k : Nat) (c : Core) : (s.putCore k c).hsk = s.hsk := rfl
@[simp] theorem State.putCore_evt (k : Nat) (c : Core) : (s.putCore k c).evt = s.evt := rfl
@[simp] theorem State.putCore_recd (k : Nat) (c : Core) : (s.putCore k c).recd = s.recd := rfl
@[simp] theorem State.putCore_otp (k : Nat) (c : Core) : (s.putCore k c).otp = s.otp := rfl
@[simp] theorem State.putCore_sgn (k : Nat) (c : Core) : (s.putCore k c).sgn = s.sgn := rfl
@[simp] theorem State.putCore_dig (k : Nat) (c : Core) : (s.putCore k c).dig = s.dig := rfl
@[simp] theorem State.putCore_ldg (k : Nat) (c : Core) : (s.putCore k c).ldg = s.ldg := rfl
@[simp] theorem State.putCore_key (k : Nat) (c : Core) : (s.putCore k c).key = s.key := rfl
@[simp] theorem State.putCore_nv (k : Nat) (c : Core) : (s.putCore k c).nv = s.nv := rfl
@[simp] theorem State.putCore_flash (k : Nat) (c : Core) : (s.putCore k c).flash = s.flash := rfl
@[simp] theorem State.putCore_host (k : Nat) (c : Core) : (s.putCore k c).host = s.host := rfl
@[simp] theorem State.putCore_pod (k : Nat) (c : Core) : (s.putCore k c).pod = s.pod := rfl
@[simp] theorem State.putCore_dram (k : Nat) (c : Core) : (s.putCore k c).dram = s.dram := rfl
@[simp] theorem State.putCore_ftl (k : Nat) (c : Core) : (s.putCore k c).ftl = s.ftl := rfl
@[simp] theorem State.putCore_cmp (k : Nat) (c : Core) : (s.putCore k c).cmp = s.cmp := rfl
@[simp] theorem State.putCore_scn (k : Nat) (c : Core) : (s.putCore k c).scn = s.scn := rfl
@[simp] theorem State.putCore_ask (k : Nat) (c : Core) : (s.putCore k c).ask = s.ask := rfl
@[simp] theorem State.putCore_pwr (k : Nat) (c : Core) : (s.putCore k c).pwr = s.pwr := rfl
@[simp] theorem State.putCore_timers (k : Nat) (c : Core) : (s.putCore k c).timers = s.timers := rfl
@[simp] theorem State.putCore_pending (k : Nat) (c : Core) : (s.putCore k c).pending = s.pending := rfl

/-! ### putCtx -/

@[simp] theorem State.putCtx_part (c : Nat) (d : DigCtx) : (s.putCtx c d).part = s.part := rfl
@[simp] theorem State.putCtx_time (c : Nat) (d : DigCtx) : (s.putCtx c d).time = s.time := rfl
@[simp] theorem State.putCtx_freeCtr (c : Nat) (d : DigCtx) : (s.putCtx c d).freeCtr = s.freeCtr := rfl
@[simp] theorem State.putCtx_out (c : Nat) (d : DigCtx) : (s.putCtx c d).out = s.out := rfl
@[simp] theorem State.putCtx_regs (c : Nat) (d : DigCtx) : (s.putCtx c d).regs = s.regs := rfl
@[simp] theorem State.putCtx_hiLatch (c : Nat) (d : DigCtx) : (s.putCtx c d).hiLatch = s.hiLatch := rfl
@[simp] theorem State.putCtx_mem (c : Nat) (d : DigCtx) : (s.putCtx c d).mem = s.mem := rfl
@[simp] theorem State.putCtx_dramEnd (c : Nat) (d : DigCtx) : (s.putCtx c d).dramEnd = s.dramEnd := rfl
@[simp] theorem State.putCtx_bg (c : Nat) (d : DigCtx) : (s.putCtx c d).bg = s.bg := rfl
@[simp] theorem State.putCtx_boot (c : Nat) (d : DigCtx) : (s.putCtx c d).boot = s.boot := rfl
@[simp] theorem State.putCtx_hsf (c : Nat) (d : DigCtx) : (s.putCtx c d).hsf = s.hsf := rfl
@[simp] theorem State.putCtx_hsk (c : Nat) (d : DigCtx) : (s.putCtx c d).hsk = s.hsk := rfl
@[simp] theorem State.putCtx_evt (c : Nat) (d : DigCtx) : (s.putCtx c d).evt = s.evt := rfl
@[simp] theorem State.putCtx_recd (c : Nat) (d : DigCtx) : (s.putCtx c d).recd = s.recd := rfl
@[simp] theorem State.putCtx_otp (c : Nat) (d : DigCtx) : (s.putCtx c d).otp = s.otp := rfl
@[simp] theorem State.putCtx_sgn (c : Nat) (d : DigCtx) : (s.putCtx c d).sgn = s.sgn := rfl
@[simp] theorem State.putCtx_ldg (c : Nat) (d : DigCtx) : (s.putCtx c d).ldg = s.ldg := rfl
@[simp] theorem State.putCtx_key (c : Nat) (d : DigCtx) : (s.putCtx c d).key = s.key := rfl
@[simp] theorem State.putCtx_nv (c : Nat) (d : DigCtx) : (s.putCtx c d).nv = s.nv := rfl
@[simp] theorem State.putCtx_flash (c : Nat) (d : DigCtx) : (s.putCtx c d).flash = s.flash := rfl
@[simp] theorem State.putCtx_tsk (c : Nat) (d : DigCtx) : (s.putCtx c d).tsk = s.tsk := rfl
@[simp] theorem State.putCtx_host (c : Nat) (d : DigCtx) : (s.putCtx c d).host = s.host := rfl
@[simp] theorem State.putCtx_pod (c : Nat) (d : DigCtx) : (s.putCtx c d).pod = s.pod := rfl
@[simp] theorem State.putCtx_dram (c : Nat) (d : DigCtx) : (s.putCtx c d).dram = s.dram := rfl
@[simp] theorem State.putCtx_ftl (c : Nat) (d : DigCtx) : (s.putCtx c d).ftl = s.ftl := rfl
@[simp] theorem State.putCtx_cmp (c : Nat) (d : DigCtx) : (s.putCtx c d).cmp = s.cmp := rfl
@[simp] theorem State.putCtx_scn (c : Nat) (d : DigCtx) : (s.putCtx c d).scn = s.scn := rfl
@[simp] theorem State.putCtx_ask (c : Nat) (d : DigCtx) : (s.putCtx c d).ask = s.ask := rfl
@[simp] theorem State.putCtx_pwr (c : Nat) (d : DigCtx) : (s.putCtx c d).pwr = s.pwr := rfl
@[simp] theorem State.putCtx_timers (c : Nat) (d : DigCtx) : (s.putCtx c d).timers = s.timers := rfl
@[simp] theorem State.putCtx_pending (c : Nat) (d : DigCtx) : (s.putCtx c d).pending = s.pending := rfl

/-! ### putLun -/

@[simp] theorem State.putLun_part (i : Nat) (l : Lun) : (s.putLun i l).part = s.part := rfl
@[simp] theorem State.putLun_time (i : Nat) (l : Lun) : (s.putLun i l).time = s.time := rfl
@[simp] theorem State.putLun_freeCtr (i : Nat) (l : Lun) : (s.putLun i l).freeCtr = s.freeCtr := rfl
@[simp] theorem State.putLun_out (i : Nat) (l : Lun) : (s.putLun i l).out = s.out := rfl
@[simp] theorem State.putLun_regs (i : Nat) (l : Lun) : (s.putLun i l).regs = s.regs := rfl
@[simp] theorem State.putLun_hiLatch (i : Nat) (l : Lun) : (s.putLun i l).hiLatch = s.hiLatch := rfl
@[simp] theorem State.putLun_mem (i : Nat) (l : Lun) : (s.putLun i l).mem = s.mem := rfl
@[simp] theorem State.putLun_dramEnd (i : Nat) (l : Lun) : (s.putLun i l).dramEnd = s.dramEnd := rfl
@[simp] theorem State.putLun_bg (i : Nat) (l : Lun) : (s.putLun i l).bg = s.bg := rfl
@[simp] theorem State.putLun_boot (i : Nat) (l : Lun) : (s.putLun i l).boot = s.boot := rfl
@[simp] theorem State.putLun_hsf (i : Nat) (l : Lun) : (s.putLun i l).hsf = s.hsf := rfl
@[simp] theorem State.putLun_hsk (i : Nat) (l : Lun) : (s.putLun i l).hsk = s.hsk := rfl
@[simp] theorem State.putLun_evt (i : Nat) (l : Lun) : (s.putLun i l).evt = s.evt := rfl
@[simp] theorem State.putLun_recd (i : Nat) (l : Lun) : (s.putLun i l).recd = s.recd := rfl
@[simp] theorem State.putLun_otp (i : Nat) (l : Lun) : (s.putLun i l).otp = s.otp := rfl
@[simp] theorem State.putLun_sgn (i : Nat) (l : Lun) : (s.putLun i l).sgn = s.sgn := rfl
@[simp] theorem State.putLun_dig (i : Nat) (l : Lun) : (s.putLun i l).dig = s.dig := rfl
@[simp] theorem State.putLun_ldg (i : Nat) (l : Lun) : (s.putLun i l).ldg = s.ldg := rfl
@[simp] theorem State.putLun_key (i : Nat) (l : Lun) : (s.putLun i l).key = s.key := rfl
@[simp] theorem State.putLun_nv (i : Nat) (l : Lun) : (s.putLun i l).nv = s.nv := rfl
@[simp] theorem State.putLun_tsk (i : Nat) (l : Lun) : (s.putLun i l).tsk = s.tsk := rfl
@[simp] theorem State.putLun_host (i : Nat) (l : Lun) : (s.putLun i l).host = s.host := rfl
@[simp] theorem State.putLun_pod (i : Nat) (l : Lun) : (s.putLun i l).pod = s.pod := rfl
@[simp] theorem State.putLun_dram (i : Nat) (l : Lun) : (s.putLun i l).dram = s.dram := rfl
@[simp] theorem State.putLun_ftl (i : Nat) (l : Lun) : (s.putLun i l).ftl = s.ftl := rfl
@[simp] theorem State.putLun_cmp (i : Nat) (l : Lun) : (s.putLun i l).cmp = s.cmp := rfl
@[simp] theorem State.putLun_scn (i : Nat) (l : Lun) : (s.putLun i l).scn = s.scn := rfl
@[simp] theorem State.putLun_ask (i : Nat) (l : Lun) : (s.putLun i l).ask = s.ask := rfl
@[simp] theorem State.putLun_pwr (i : Nat) (l : Lun) : (s.putLun i l).pwr = s.pwr := rfl
@[simp] theorem State.putLun_timers (i : Nat) (l : Lun) : (s.putLun i l).timers = s.timers := rfl
@[simp] theorem State.putLun_pending (i : Nat) (l : Lun) : (s.putLun i l).pending = s.pending := rfl

/-! ### modEvt -/

@[simp] theorem State.modEvt_part (f : EvtState → EvtState) : (s.modEvt f).part = s.part := rfl
@[simp] theorem State.modEvt_time (f : EvtState → EvtState) : (s.modEvt f).time = s.time := rfl
@[simp] theorem State.modEvt_freeCtr (f : EvtState → EvtState) : (s.modEvt f).freeCtr = s.freeCtr := rfl
@[simp] theorem State.modEvt_out (f : EvtState → EvtState) : (s.modEvt f).out = s.out := rfl
@[simp] theorem State.modEvt_regs (f : EvtState → EvtState) : (s.modEvt f).regs = s.regs := rfl
@[simp] theorem State.modEvt_hiLatch (f : EvtState → EvtState) : (s.modEvt f).hiLatch = s.hiLatch := rfl
@[simp] theorem State.modEvt_mem (f : EvtState → EvtState) : (s.modEvt f).mem = s.mem := rfl
@[simp] theorem State.modEvt_dramEnd (f : EvtState → EvtState) : (s.modEvt f).dramEnd = s.dramEnd := rfl
@[simp] theorem State.modEvt_bg (f : EvtState → EvtState) : (s.modEvt f).bg = s.bg := rfl
@[simp] theorem State.modEvt_boot (f : EvtState → EvtState) : (s.modEvt f).boot = s.boot := rfl
@[simp] theorem State.modEvt_hsf (f : EvtState → EvtState) : (s.modEvt f).hsf = s.hsf := rfl
@[simp] theorem State.modEvt_hsk (f : EvtState → EvtState) : (s.modEvt f).hsk = s.hsk := rfl
@[simp] theorem State.modEvt_evt (f : EvtState → EvtState) : (s.modEvt f).evt = f s.evt := rfl
@[simp] theorem State.modEvt_recd (f : EvtState → EvtState) : (s.modEvt f).recd = s.recd := rfl
@[simp] theorem State.modEvt_otp (f : EvtState → EvtState) : (s.modEvt f).otp = s.otp := rfl
@[simp] theorem State.modEvt_sgn (f : EvtState → EvtState) : (s.modEvt f).sgn = s.sgn := rfl
@[simp] theorem State.modEvt_dig (f : EvtState → EvtState) : (s.modEvt f).dig = s.dig := rfl
@[simp] theorem State.modEvt_ldg (f : EvtState → EvtState) : (s.modEvt f).ldg = s.ldg := rfl
@[simp] theorem State.modEvt_key (f : EvtState → EvtState) : (s.modEvt f).key = s.key := rfl
@[simp] theorem State.modEvt_nv (f : EvtState → EvtState) : (s.modEvt f).nv = s.nv := rfl
@[simp] theorem State.modEvt_flash (f : EvtState → EvtState) : (s.modEvt f).flash = s.flash := rfl
@[simp] theorem State.modEvt_tsk (f : EvtState → EvtState) : (s.modEvt f).tsk = s.tsk := rfl
@[simp] theorem State.modEvt_host (f : EvtState → EvtState) : (s.modEvt f).host = s.host := rfl
@[simp] theorem State.modEvt_pod (f : EvtState → EvtState) : (s.modEvt f).pod = s.pod := rfl
@[simp] theorem State.modEvt_dram (f : EvtState → EvtState) : (s.modEvt f).dram = s.dram := rfl
@[simp] theorem State.modEvt_ftl (f : EvtState → EvtState) : (s.modEvt f).ftl = s.ftl := rfl
@[simp] theorem State.modEvt_cmp (f : EvtState → EvtState) : (s.modEvt f).cmp = s.cmp := rfl
@[simp] theorem State.modEvt_scn (f : EvtState → EvtState) : (s.modEvt f).scn = s.scn := rfl
@[simp] theorem State.modEvt_ask (f : EvtState → EvtState) : (s.modEvt f).ask = s.ask := rfl
@[simp] theorem State.modEvt_pwr (f : EvtState → EvtState) : (s.modEvt f).pwr = s.pwr := rfl
@[simp] theorem State.modEvt_timers (f : EvtState → EvtState) : (s.modEvt f).timers = s.timers := rfl
@[simp] theorem State.modEvt_pending (f : EvtState → EvtState) : (s.modEvt f).pending = s.pending := rfl

/-! ### modRecd -/

@[simp] theorem State.modRecd_part (f : RecState → RecState) : (s.modRecd f).part = s.part := rfl
@[simp] theorem State.modRecd_time (f : RecState → RecState) : (s.modRecd f).time = s.time := rfl
@[simp] theorem State.modRecd_freeCtr (f : RecState → RecState) : (s.modRecd f).freeCtr = s.freeCtr := rfl
@[simp] theorem State.modRecd_out (f : RecState → RecState) : (s.modRecd f).out = s.out := rfl
@[simp] theorem State.modRecd_regs (f : RecState → RecState) : (s.modRecd f).regs = s.regs := rfl
@[simp] theorem State.modRecd_hiLatch (f : RecState → RecState) : (s.modRecd f).hiLatch = s.hiLatch := rfl
@[simp] theorem State.modRecd_mem (f : RecState → RecState) : (s.modRecd f).mem = s.mem := rfl
@[simp] theorem State.modRecd_dramEnd (f : RecState → RecState) : (s.modRecd f).dramEnd = s.dramEnd := rfl
@[simp] theorem State.modRecd_bg (f : RecState → RecState) : (s.modRecd f).bg = s.bg := rfl
@[simp] theorem State.modRecd_boot (f : RecState → RecState) : (s.modRecd f).boot = s.boot := rfl
@[simp] theorem State.modRecd_hsf (f : RecState → RecState) : (s.modRecd f).hsf = s.hsf := rfl
@[simp] theorem State.modRecd_hsk (f : RecState → RecState) : (s.modRecd f).hsk = s.hsk := rfl
@[simp] theorem State.modRecd_evt (f : RecState → RecState) : (s.modRecd f).evt = s.evt := rfl
@[simp] theorem State.modRecd_recd (f : RecState → RecState) : (s.modRecd f).recd = f s.recd := rfl
@[simp] theorem State.modRecd_otp (f : RecState → RecState) : (s.modRecd f).otp = s.otp := rfl
@[simp] theorem State.modRecd_sgn (f : RecState → RecState) : (s.modRecd f).sgn = s.sgn := rfl
@[simp] theorem State.modRecd_dig (f : RecState → RecState) : (s.modRecd f).dig = s.dig := rfl
@[simp] theorem State.modRecd_ldg (f : RecState → RecState) : (s.modRecd f).ldg = s.ldg := rfl
@[simp] theorem State.modRecd_key (f : RecState → RecState) : (s.modRecd f).key = s.key := rfl
@[simp] theorem State.modRecd_nv (f : RecState → RecState) : (s.modRecd f).nv = s.nv := rfl
@[simp] theorem State.modRecd_flash (f : RecState → RecState) : (s.modRecd f).flash = s.flash := rfl
@[simp] theorem State.modRecd_tsk (f : RecState → RecState) : (s.modRecd f).tsk = s.tsk := rfl
@[simp] theorem State.modRecd_host (f : RecState → RecState) : (s.modRecd f).host = s.host := rfl
@[simp] theorem State.modRecd_pod (f : RecState → RecState) : (s.modRecd f).pod = s.pod := rfl
@[simp] theorem State.modRecd_dram (f : RecState → RecState) : (s.modRecd f).dram = s.dram := rfl
@[simp] theorem State.modRecd_ftl (f : RecState → RecState) : (s.modRecd f).ftl = s.ftl := rfl
@[simp] theorem State.modRecd_cmp (f : RecState → RecState) : (s.modRecd f).cmp = s.cmp := rfl
@[simp] theorem State.modRecd_scn (f : RecState → RecState) : (s.modRecd f).scn = s.scn := rfl
@[simp] theorem State.modRecd_ask (f : RecState → RecState) : (s.modRecd f).ask = s.ask := rfl
@[simp] theorem State.modRecd_pwr (f : RecState → RecState) : (s.modRecd f).pwr = s.pwr := rfl
@[simp] theorem State.modRecd_timers (f : RecState → RecState) : (s.modRecd f).timers = s.timers := rfl
@[simp] theorem State.modRecd_pending (f : RecState → RecState) : (s.modRecd f).pending = s.pending := rfl

/-! ### modTsk -/

@[simp] theorem State.modTsk_part (f : TskState → TskState) : (s.modTsk f).part = s.part := rfl
@[simp] theorem State.modTsk_time (f : TskState → TskState) : (s.modTsk f).time = s.time := rfl
@[simp] theorem State.modTsk_freeCtr (f : TskState → TskState) : (s.modTsk f).freeCtr = s.freeCtr := rfl
@[simp] theorem State.modTsk_out (f : TskState → TskState) : (s.modTsk f).out = s.out := rfl
@[simp] theorem State.modTsk_regs (f : TskState → TskState) : (s.modTsk f).regs = s.regs := rfl
@[simp] theorem State.modTsk_hiLatch (f : TskState → TskState) : (s.modTsk f).hiLatch = s.hiLatch := rfl
@[simp] theorem State.modTsk_mem (f : TskState → TskState) : (s.modTsk f).mem = s.mem := rfl
@[simp] theorem State.modTsk_dramEnd (f : TskState → TskState) : (s.modTsk f).dramEnd = s.dramEnd := rfl
@[simp] theorem State.modTsk_bg (f : TskState → TskState) : (s.modTsk f).bg = s.bg := rfl
@[simp] theorem State.modTsk_boot (f : TskState → TskState) : (s.modTsk f).boot = s.boot := rfl
@[simp] theorem State.modTsk_hsf (f : TskState → TskState) : (s.modTsk f).hsf = s.hsf := rfl
@[simp] theorem State.modTsk_hsk (f : TskState → TskState) : (s.modTsk f).hsk = s.hsk := rfl
@[simp] theorem State.modTsk_evt (f : TskState → TskState) : (s.modTsk f).evt = s.evt := rfl
@[simp] theorem State.modTsk_recd (f : TskState → TskState) : (s.modTsk f).recd = s.recd := rfl
@[simp] theorem State.modTsk_otp (f : TskState → TskState) : (s.modTsk f).otp = s.otp := rfl
@[simp] theorem State.modTsk_sgn (f : TskState → TskState) : (s.modTsk f).sgn = s.sgn := rfl
@[simp] theorem State.modTsk_dig (f : TskState → TskState) : (s.modTsk f).dig = s.dig := rfl
@[simp] theorem State.modTsk_ldg (f : TskState → TskState) : (s.modTsk f).ldg = s.ldg := rfl
@[simp] theorem State.modTsk_key (f : TskState → TskState) : (s.modTsk f).key = s.key := rfl
@[simp] theorem State.modTsk_nv (f : TskState → TskState) : (s.modTsk f).nv = s.nv := rfl
@[simp] theorem State.modTsk_flash (f : TskState → TskState) : (s.modTsk f).flash = s.flash := rfl
@[simp] theorem State.modTsk_tsk (f : TskState → TskState) : (s.modTsk f).tsk = f s.tsk := rfl
@[simp] theorem State.modTsk_host (f : TskState → TskState) : (s.modTsk f).host = s.host := rfl
@[simp] theorem State.modTsk_pod (f : TskState → TskState) : (s.modTsk f).pod = s.pod := rfl
@[simp] theorem State.modTsk_dram (f : TskState → TskState) : (s.modTsk f).dram = s.dram := rfl
@[simp] theorem State.modTsk_ftl (f : TskState → TskState) : (s.modTsk f).ftl = s.ftl := rfl
@[simp] theorem State.modTsk_cmp (f : TskState → TskState) : (s.modTsk f).cmp = s.cmp := rfl
@[simp] theorem State.modTsk_scn (f : TskState → TskState) : (s.modTsk f).scn = s.scn := rfl
@[simp] theorem State.modTsk_ask (f : TskState → TskState) : (s.modTsk f).ask = s.ask := rfl
@[simp] theorem State.modTsk_pwr (f : TskState → TskState) : (s.modTsk f).pwr = s.pwr := rfl
@[simp] theorem State.modTsk_timers (f : TskState → TskState) : (s.modTsk f).timers = s.timers := rfl
@[simp] theorem State.modTsk_pending (f : TskState → TskState) : (s.modTsk f).pending = s.pending := rfl

/-! ### modFlash -/

@[simp] theorem State.modFlash_part (f : FlashState → FlashState) : (s.modFlash f).part = s.part := rfl
@[simp] theorem State.modFlash_time (f : FlashState → FlashState) : (s.modFlash f).time = s.time := rfl
@[simp] theorem State.modFlash_freeCtr (f : FlashState → FlashState) : (s.modFlash f).freeCtr = s.freeCtr := rfl
@[simp] theorem State.modFlash_out (f : FlashState → FlashState) : (s.modFlash f).out = s.out := rfl
@[simp] theorem State.modFlash_regs (f : FlashState → FlashState) : (s.modFlash f).regs = s.regs := rfl
@[simp] theorem State.modFlash_hiLatch (f : FlashState → FlashState) : (s.modFlash f).hiLatch = s.hiLatch := rfl
@[simp] theorem State.modFlash_mem (f : FlashState → FlashState) : (s.modFlash f).mem = s.mem := rfl
@[simp] theorem State.modFlash_dramEnd (f : FlashState → FlashState) : (s.modFlash f).dramEnd = s.dramEnd := rfl
@[simp] theorem State.modFlash_bg (f : FlashState → FlashState) : (s.modFlash f).bg = s.bg := rfl
@[simp] theorem State.modFlash_boot (f : FlashState → FlashState) : (s.modFlash f).boot = s.boot := rfl
@[simp] theorem State.modFlash_hsf (f : FlashState → FlashState) : (s.modFlash f).hsf = s.hsf := rfl
@[simp] theorem State.modFlash_hsk (f : FlashState → FlashState) : (s.modFlash f).hsk = s.hsk := rfl
@[simp] theorem State.modFlash_evt (f : FlashState → FlashState) : (s.modFlash f).evt = s.evt := rfl
@[simp] theorem State.modFlash_recd (f : FlashState → FlashState) : (s.modFlash f).recd = s.recd := rfl
@[simp] theorem State.modFlash_otp (f : FlashState → FlashState) : (s.modFlash f).otp = s.otp := rfl
@[simp] theorem State.modFlash_sgn (f : FlashState → FlashState) : (s.modFlash f).sgn = s.sgn := rfl
@[simp] theorem State.modFlash_dig (f : FlashState → FlashState) : (s.modFlash f).dig = s.dig := rfl
@[simp] theorem State.modFlash_ldg (f : FlashState → FlashState) : (s.modFlash f).ldg = s.ldg := rfl
@[simp] theorem State.modFlash_key (f : FlashState → FlashState) : (s.modFlash f).key = s.key := rfl
@[simp] theorem State.modFlash_nv (f : FlashState → FlashState) : (s.modFlash f).nv = s.nv := rfl
@[simp] theorem State.modFlash_flash (f : FlashState → FlashState) : (s.modFlash f).flash = f s.flash := rfl
@[simp] theorem State.modFlash_tsk (f : FlashState → FlashState) : (s.modFlash f).tsk = s.tsk := rfl
@[simp] theorem State.modFlash_host (f : FlashState → FlashState) : (s.modFlash f).host = s.host := rfl
@[simp] theorem State.modFlash_pod (f : FlashState → FlashState) : (s.modFlash f).pod = s.pod := rfl
@[simp] theorem State.modFlash_dram (f : FlashState → FlashState) : (s.modFlash f).dram = s.dram := rfl
@[simp] theorem State.modFlash_ftl (f : FlashState → FlashState) : (s.modFlash f).ftl = s.ftl := rfl
@[simp] theorem State.modFlash_cmp (f : FlashState → FlashState) : (s.modFlash f).cmp = s.cmp := rfl
@[simp] theorem State.modFlash_scn (f : FlashState → FlashState) : (s.modFlash f).scn = s.scn := rfl
@[simp] theorem State.modFlash_ask (f : FlashState → FlashState) : (s.modFlash f).ask = s.ask := rfl
@[simp] theorem State.modFlash_pwr (f : FlashState → FlashState) : (s.modFlash f).pwr = s.pwr := rfl
@[simp] theorem State.modFlash_timers (f : FlashState → FlashState) : (s.modFlash f).timers = s.timers := rfl
@[simp] theorem State.modFlash_pending (f : FlashState → FlashState) : (s.modFlash f).pending = s.pending := rfl

/-! ### modFtl -/

@[simp] theorem State.modFtl_part (f : FtlState → FtlState) : (s.modFtl f).part = s.part := rfl
@[simp] theorem State.modFtl_time (f : FtlState → FtlState) : (s.modFtl f).time = s.time := rfl
@[simp] theorem State.modFtl_freeCtr (f : FtlState → FtlState) : (s.modFtl f).freeCtr = s.freeCtr := rfl
@[simp] theorem State.modFtl_out (f : FtlState → FtlState) : (s.modFtl f).out = s.out := rfl
@[simp] theorem State.modFtl_regs (f : FtlState → FtlState) : (s.modFtl f).regs = s.regs := rfl
@[simp] theorem State.modFtl_hiLatch (f : FtlState → FtlState) : (s.modFtl f).hiLatch = s.hiLatch := rfl
@[simp] theorem State.modFtl_mem (f : FtlState → FtlState) : (s.modFtl f).mem = s.mem := rfl
@[simp] theorem State.modFtl_dramEnd (f : FtlState → FtlState) : (s.modFtl f).dramEnd = s.dramEnd := rfl
@[simp] theorem State.modFtl_bg (f : FtlState → FtlState) : (s.modFtl f).bg = s.bg := rfl
@[simp] theorem State.modFtl_boot (f : FtlState → FtlState) : (s.modFtl f).boot = s.boot := rfl
@[simp] theorem State.modFtl_hsf (f : FtlState → FtlState) : (s.modFtl f).hsf = s.hsf := rfl
@[simp] theorem State.modFtl_hsk (f : FtlState → FtlState) : (s.modFtl f).hsk = s.hsk := rfl
@[simp] theorem State.modFtl_evt (f : FtlState → FtlState) : (s.modFtl f).evt = s.evt := rfl
@[simp] theorem State.modFtl_recd (f : FtlState → FtlState) : (s.modFtl f).recd = s.recd := rfl
@[simp] theorem State.modFtl_otp (f : FtlState → FtlState) : (s.modFtl f).otp = s.otp := rfl
@[simp] theorem State.modFtl_sgn (f : FtlState → FtlState) : (s.modFtl f).sgn = s.sgn := rfl
@[simp] theorem State.modFtl_dig (f : FtlState → FtlState) : (s.modFtl f).dig = s.dig := rfl
@[simp] theorem State.modFtl_ldg (f : FtlState → FtlState) : (s.modFtl f).ldg = s.ldg := rfl
@[simp] theorem State.modFtl_key (f : FtlState → FtlState) : (s.modFtl f).key = s.key := rfl
@[simp] theorem State.modFtl_nv (f : FtlState → FtlState) : (s.modFtl f).nv = s.nv := rfl
@[simp] theorem State.modFtl_flash (f : FtlState → FtlState) : (s.modFtl f).flash = s.flash := rfl
@[simp] theorem State.modFtl_tsk (f : FtlState → FtlState) : (s.modFtl f).tsk = s.tsk := rfl
@[simp] theorem State.modFtl_host (f : FtlState → FtlState) : (s.modFtl f).host = s.host := rfl
@[simp] theorem State.modFtl_pod (f : FtlState → FtlState) : (s.modFtl f).pod = s.pod := rfl
@[simp] theorem State.modFtl_dram (f : FtlState → FtlState) : (s.modFtl f).dram = s.dram := rfl
@[simp] theorem State.modFtl_ftl (f : FtlState → FtlState) : (s.modFtl f).ftl = f s.ftl := rfl
@[simp] theorem State.modFtl_cmp (f : FtlState → FtlState) : (s.modFtl f).cmp = s.cmp := rfl
@[simp] theorem State.modFtl_scn (f : FtlState → FtlState) : (s.modFtl f).scn = s.scn := rfl
@[simp] theorem State.modFtl_ask (f : FtlState → FtlState) : (s.modFtl f).ask = s.ask := rfl
@[simp] theorem State.modFtl_pwr (f : FtlState → FtlState) : (s.modFtl f).pwr = s.pwr := rfl
@[simp] theorem State.modFtl_timers (f : FtlState → FtlState) : (s.modFtl f).timers = s.timers := rfl
@[simp] theorem State.modFtl_pending (f : FtlState → FtlState) : (s.modFtl f).pending = s.pending := rfl

/-! ### modHost -/

@[simp] theorem State.modHost_part (f : HostState → HostState) : (s.modHost f).part = s.part := rfl
@[simp] theorem State.modHost_time (f : HostState → HostState) : (s.modHost f).time = s.time := rfl
@[simp] theorem State.modHost_freeCtr (f : HostState → HostState) : (s.modHost f).freeCtr = s.freeCtr := rfl
@[simp] theorem State.modHost_out (f : HostState → HostState) : (s.modHost f).out = s.out := rfl
@[simp] theorem State.modHost_regs (f : HostState → HostState) : (s.modHost f).regs = s.regs := rfl
@[simp] theorem State.modHost_hiLatch (f : HostState → HostState) : (s.modHost f).hiLatch = s.hiLatch := rfl
@[simp] theorem State.modHost_mem (f : HostState → HostState) : (s.modHost f).mem = s.mem := rfl
@[simp] theorem State.modHost_dramEnd (f : HostState → HostState) : (s.modHost f).dramEnd = s.dramEnd := rfl
@[simp] theorem State.modHost_bg (f : HostState → HostState) : (s.modHost f).bg = s.bg := rfl
@[simp] theorem State.modHost_boot (f : HostState → HostState) : (s.modHost f).boot = s.boot := rfl
@[simp] theorem State.modHost_hsf (f : HostState → HostState) : (s.modHost f).hsf = s.hsf := rfl
@[simp] theorem State.modHost_hsk (f : HostState → HostState) : (s.modHost f).hsk = s.hsk := rfl
@[simp] theorem State.modHost_evt (f : HostState → HostState) : (s.modHost f).evt = s.evt := rfl
@[simp] theorem State.modHost_recd (f : HostState → HostState) : (s.modHost f).recd = s.recd := rfl
@[simp] theorem State.modHost_otp (f : HostState → HostState) : (s.modHost f).otp = s.otp := rfl
@[simp] theorem State.modHost_sgn (f : HostState → HostState) : (s.modHost f).sgn = s.sgn := rfl
@[simp] theorem State.modHost_dig (f : HostState → HostState) : (s.modHost f).dig = s.dig := rfl
@[simp] theorem State.modHost_ldg (f : HostState → HostState) : (s.modHost f).ldg = s.ldg := rfl
@[simp] theorem State.modHost_key (f : HostState → HostState) : (s.modHost f).key = s.key := rfl
@[simp] theorem State.modHost_nv (f : HostState → HostState) : (s.modHost f).nv = s.nv := rfl
@[simp] theorem State.modHost_flash (f : HostState → HostState) : (s.modHost f).flash = s.flash := rfl
@[simp] theorem State.modHost_tsk (f : HostState → HostState) : (s.modHost f).tsk = s.tsk := rfl
@[simp] theorem State.modHost_host (f : HostState → HostState) : (s.modHost f).host = f s.host := rfl
@[simp] theorem State.modHost_pod (f : HostState → HostState) : (s.modHost f).pod = s.pod := rfl
@[simp] theorem State.modHost_dram (f : HostState → HostState) : (s.modHost f).dram = s.dram := rfl
@[simp] theorem State.modHost_ftl (f : HostState → HostState) : (s.modHost f).ftl = s.ftl := rfl
@[simp] theorem State.modHost_cmp (f : HostState → HostState) : (s.modHost f).cmp = s.cmp := rfl
@[simp] theorem State.modHost_scn (f : HostState → HostState) : (s.modHost f).scn = s.scn := rfl
@[simp] theorem State.modHost_ask (f : HostState → HostState) : (s.modHost f).ask = s.ask := rfl
@[simp] theorem State.modHost_pwr (f : HostState → HostState) : (s.modHost f).pwr = s.pwr := rfl
@[simp] theorem State.modHost_timers (f : HostState → HostState) : (s.modHost f).timers = s.timers := rfl
@[simp] theorem State.modHost_pending (f : HostState → HostState) : (s.modHost f).pending = s.pending := rfl

/-! ### modScn -/

@[simp] theorem State.modScn_part (f : ScnState → ScnState) : (s.modScn f).part = s.part := rfl
@[simp] theorem State.modScn_time (f : ScnState → ScnState) : (s.modScn f).time = s.time := rfl
@[simp] theorem State.modScn_freeCtr (f : ScnState → ScnState) : (s.modScn f).freeCtr = s.freeCtr := rfl
@[simp] theorem State.modScn_out (f : ScnState → ScnState) : (s.modScn f).out = s.out := rfl
@[simp] theorem State.modScn_regs (f : ScnState → ScnState) : (s.modScn f).regs = s.regs := rfl
@[simp] theorem State.modScn_hiLatch (f : ScnState → ScnState) : (s.modScn f).hiLatch = s.hiLatch := rfl
@[simp] theorem State.modScn_mem (f : ScnState → ScnState) : (s.modScn f).mem = s.mem := rfl
@[simp] theorem State.modScn_dramEnd (f : ScnState → ScnState) : (s.modScn f).dramEnd = s.dramEnd := rfl
@[simp] theorem State.modScn_bg (f : ScnState → ScnState) : (s.modScn f).bg = s.bg := rfl
@[simp] theorem State.modScn_boot (f : ScnState → ScnState) : (s.modScn f).boot = s.boot := rfl
@[simp] theorem State.modScn_hsf (f : ScnState → ScnState) : (s.modScn f).hsf = s.hsf := rfl
@[simp] theorem State.modScn_hsk (f : ScnState → ScnState) : (s.modScn f).hsk = s.hsk := rfl
@[simp] theorem State.modScn_evt (f : ScnState → ScnState) : (s.modScn f).evt = s.evt := rfl
@[simp] theorem State.modScn_recd (f : ScnState → ScnState) : (s.modScn f).recd = s.recd := rfl
@[simp] theorem State.modScn_otp (f : ScnState → ScnState) : (s.modScn f).otp = s.otp := rfl
@[simp] theorem State.modScn_sgn (f : ScnState → ScnState) : (s.modScn f).sgn = s.sgn := rfl
@[simp] theorem State.modScn_dig (f : ScnState → ScnState) : (s.modScn f).dig = s.dig := rfl
@[simp] theorem State.modScn_ldg (f : ScnState → ScnState) : (s.modScn f).ldg = s.ldg := rfl
@[simp] theorem State.modScn_key (f : ScnState → ScnState) : (s.modScn f).key = s.key := rfl
@[simp] theorem State.modScn_nv (f : ScnState → ScnState) : (s.modScn f).nv = s.nv := rfl
@[simp] theorem State.modScn_flash (f : ScnState → ScnState) : (s.modScn f).flash = s.flash := rfl
@[simp] theorem State.modScn_tsk (f : ScnState → ScnState) : (s.modScn f).tsk = s.tsk := rfl
@[simp] theorem State.modScn_host (f : ScnState → ScnState) : (s.modScn f).host = s.host := rfl
@[simp] theorem State.modScn_pod (f : ScnState → ScnState) : (s.modScn f).pod = s.pod := rfl
@[simp] theorem State.modScn_dram (f : ScnState → ScnState) : (s.modScn f).dram = s.dram := rfl
@[simp] theorem State.modScn_ftl (f : ScnState → ScnState) : (s.modScn f).ftl = s.ftl := rfl
@[simp] theorem State.modScn_cmp (f : ScnState → ScnState) : (s.modScn f).cmp = s.cmp := rfl
@[simp] theorem State.modScn_scn (f : ScnState → ScnState) : (s.modScn f).scn = f s.scn := rfl
@[simp] theorem State.modScn_ask (f : ScnState → ScnState) : (s.modScn f).ask = s.ask := rfl
@[simp] theorem State.modScn_pwr (f : ScnState → ScnState) : (s.modScn f).pwr = s.pwr := rfl
@[simp] theorem State.modScn_timers (f : ScnState → ScnState) : (s.modScn f).timers = s.timers := rfl
@[simp] theorem State.modScn_pending (f : ScnState → ScnState) : (s.modScn f).pending = s.pending := rfl

/-! ### modCmp -/

@[simp] theorem State.modCmp_part (f : CmpState → CmpState) : (s.modCmp f).part = s.part := rfl
@[simp] theorem State.modCmp_time (f : CmpState → CmpState) : (s.modCmp f).time = s.time := rfl
@[simp] theorem State.modCmp_freeCtr (f : CmpState → CmpState) : (s.modCmp f).freeCtr = s.freeCtr := rfl
@[simp] theorem State.modCmp_out (f : CmpState → CmpState) : (s.modCmp f).out = s.out := rfl
@[simp] theorem State.modCmp_regs (f : CmpState → CmpState) : (s.modCmp f).regs = s.regs := rfl
@[simp] theorem State.modCmp_hiLatch (f : CmpState → CmpState) : (s.modCmp f).hiLatch = s.hiLatch := rfl
@[simp] theorem State.modCmp_mem (f : CmpState → CmpState) : (s.modCmp f).mem = s.mem := rfl
@[simp] theorem State.modCmp_dramEnd (f : CmpState → CmpState) : (s.modCmp f).dramEnd = s.dramEnd := rfl
@[simp] theorem State.modCmp_bg (f : CmpState → CmpState) : (s.modCmp f).bg = s.bg := rfl
@[simp] theorem State.modCmp_boot (f : CmpState → CmpState) : (s.modCmp f).boot = s.boot := rfl
@[simp] theorem State.modCmp_hsf (f : CmpState → CmpState) : (s.modCmp f).hsf = s.hsf := rfl
@[simp] theorem State.modCmp_hsk (f : CmpState → CmpState) : (s.modCmp f).hsk = s.hsk := rfl
@[simp] theorem State.modCmp_evt (f : CmpState → CmpState) : (s.modCmp f).evt = s.evt := rfl
@[simp] theorem State.modCmp_recd (f : CmpState → CmpState) : (s.modCmp f).recd = s.recd := rfl
@[simp] theorem State.modCmp_otp (f : CmpState → CmpState) : (s.modCmp f).otp = s.otp := rfl
@[simp] theorem State.modCmp_sgn (f : CmpState → CmpState) : (s.modCmp f).sgn = s.sgn := rfl
@[simp] theorem State.modCmp_dig (f : CmpState → CmpState) : (s.modCmp f).dig = s.dig := rfl
@[simp] theorem State.modCmp_ldg (f : CmpState → CmpState) : (s.modCmp f).ldg = s.ldg := rfl
@[simp] theorem State.modCmp_key (f : CmpState → CmpState) : (s.modCmp f).key = s.key := rfl
@[simp] theorem State.modCmp_nv (f : CmpState → CmpState) : (s.modCmp f).nv = s.nv := rfl
@[simp] theorem State.modCmp_flash (f : CmpState → CmpState) : (s.modCmp f).flash = s.flash := rfl
@[simp] theorem State.modCmp_tsk (f : CmpState → CmpState) : (s.modCmp f).tsk = s.tsk := rfl
@[simp] theorem State.modCmp_host (f : CmpState → CmpState) : (s.modCmp f).host = s.host := rfl
@[simp] theorem State.modCmp_pod (f : CmpState → CmpState) : (s.modCmp f).pod = s.pod := rfl
@[simp] theorem State.modCmp_dram (f : CmpState → CmpState) : (s.modCmp f).dram = s.dram := rfl
@[simp] theorem State.modCmp_ftl (f : CmpState → CmpState) : (s.modCmp f).ftl = s.ftl := rfl
@[simp] theorem State.modCmp_cmp (f : CmpState → CmpState) : (s.modCmp f).cmp = f s.cmp := rfl
@[simp] theorem State.modCmp_scn (f : CmpState → CmpState) : (s.modCmp f).scn = s.scn := rfl
@[simp] theorem State.modCmp_ask (f : CmpState → CmpState) : (s.modCmp f).ask = s.ask := rfl
@[simp] theorem State.modCmp_pwr (f : CmpState → CmpState) : (s.modCmp f).pwr = s.pwr := rfl
@[simp] theorem State.modCmp_timers (f : CmpState → CmpState) : (s.modCmp f).timers = s.timers := rfl
@[simp] theorem State.modCmp_pending (f : CmpState → CmpState) : (s.modCmp f).pending = s.pending := rfl

/-! ### modAsk -/

@[simp] theorem State.modAsk_part (f : AskState → AskState) : (s.modAsk f).part = s.part := rfl
@[simp] theorem State.modAsk_time (f : AskState → AskState) : (s.modAsk f).time = s.time := rfl
@[simp] theorem State.modAsk_freeCtr (f : AskState → AskState) : (s.modAsk f).freeCtr = s.freeCtr := rfl
@[simp] theorem State.modAsk_out (f : AskState → AskState) : (s.modAsk f).out = s.out := rfl
@[simp] theorem State.modAsk_regs (f : AskState → AskState) : (s.modAsk f).regs = s.regs := rfl
@[simp] theorem State.modAsk_hiLatch (f : AskState → AskState) : (s.modAsk f).hiLatch = s.hiLatch := rfl
@[simp] theorem State.modAsk_mem (f : AskState → AskState) : (s.modAsk f).mem = s.mem := rfl
@[simp] theorem State.modAsk_dramEnd (f : AskState → AskState) : (s.modAsk f).dramEnd = s.dramEnd := rfl
@[simp] theorem State.modAsk_bg (f : AskState → AskState) : (s.modAsk f).bg = s.bg := rfl
@[simp] theorem State.modAsk_boot (f : AskState → AskState) : (s.modAsk f).boot = s.boot := rfl
@[simp] theorem State.modAsk_hsf (f : AskState → AskState) : (s.modAsk f).hsf = s.hsf := rfl
@[simp] theorem State.modAsk_hsk (f : AskState → AskState) : (s.modAsk f).hsk = s.hsk := rfl
@[simp] theorem State.modAsk_evt (f : AskState → AskState) : (s.modAsk f).evt = s.evt := rfl
@[simp] theorem State.modAsk_recd (f : AskState → AskState) : (s.modAsk f).recd = s.recd := rfl
@[simp] theorem State.modAsk_otp (f : AskState → AskState) : (s.modAsk f).otp = s.otp := rfl
@[simp] theorem State.modAsk_sgn (f : AskState → AskState) : (s.modAsk f).sgn = s.sgn := rfl
@[simp] theorem State.modAsk_dig (f : AskState → AskState) : (s.modAsk f).dig = s.dig := rfl
@[simp] theorem State.modAsk_ldg (f : AskState → AskState) : (s.modAsk f).ldg = s.ldg := rfl
@[simp] theorem State.modAsk_key (f : AskState → AskState) : (s.modAsk f).key = s.key := rfl
@[simp] theorem State.modAsk_nv (f : AskState → AskState) : (s.modAsk f).nv = s.nv := rfl
@[simp] theorem State.modAsk_flash (f : AskState → AskState) : (s.modAsk f).flash = s.flash := rfl
@[simp] theorem State.modAsk_tsk (f : AskState → AskState) : (s.modAsk f).tsk = s.tsk := rfl
@[simp] theorem State.modAsk_host (f : AskState → AskState) : (s.modAsk f).host = s.host := rfl
@[simp] theorem State.modAsk_pod (f : AskState → AskState) : (s.modAsk f).pod = s.pod := rfl
@[simp] theorem State.modAsk_dram (f : AskState → AskState) : (s.modAsk f).dram = s.dram := rfl
@[simp] theorem State.modAsk_ftl (f : AskState → AskState) : (s.modAsk f).ftl = s.ftl := rfl
@[simp] theorem State.modAsk_cmp (f : AskState → AskState) : (s.modAsk f).cmp = s.cmp := rfl
@[simp] theorem State.modAsk_scn (f : AskState → AskState) : (s.modAsk f).scn = s.scn := rfl
@[simp] theorem State.modAsk_ask (f : AskState → AskState) : (s.modAsk f).ask = f s.ask := rfl
@[simp] theorem State.modAsk_pwr (f : AskState → AskState) : (s.modAsk f).pwr = s.pwr := rfl
@[simp] theorem State.modAsk_timers (f : AskState → AskState) : (s.modAsk f).timers = s.timers := rfl
@[simp] theorem State.modAsk_pending (f : AskState → AskState) : (s.modAsk f).pending = s.pending := rfl

/-! ### modPwr -/

@[simp] theorem State.modPwr_part (f : PwrState → PwrState) : (s.modPwr f).part = s.part := rfl
@[simp] theorem State.modPwr_time (f : PwrState → PwrState) : (s.modPwr f).time = s.time := rfl
@[simp] theorem State.modPwr_freeCtr (f : PwrState → PwrState) : (s.modPwr f).freeCtr = s.freeCtr := rfl
@[simp] theorem State.modPwr_out (f : PwrState → PwrState) : (s.modPwr f).out = s.out := rfl
@[simp] theorem State.modPwr_regs (f : PwrState → PwrState) : (s.modPwr f).regs = s.regs := rfl
@[simp] theorem State.modPwr_hiLatch (f : PwrState → PwrState) : (s.modPwr f).hiLatch = s.hiLatch := rfl
@[simp] theorem State.modPwr_mem (f : PwrState → PwrState) : (s.modPwr f).mem = s.mem := rfl
@[simp] theorem State.modPwr_dramEnd (f : PwrState → PwrState) : (s.modPwr f).dramEnd = s.dramEnd := rfl
@[simp] theorem State.modPwr_bg (f : PwrState → PwrState) : (s.modPwr f).bg = s.bg := rfl
@[simp] theorem State.modPwr_boot (f : PwrState → PwrState) : (s.modPwr f).boot = s.boot := rfl
@[simp] theorem State.modPwr_hsf (f : PwrState → PwrState) : (s.modPwr f).hsf = s.hsf := rfl
@[simp] theorem State.modPwr_hsk (f : PwrState → PwrState) : (s.modPwr f).hsk = s.hsk := rfl
@[simp] theorem State.modPwr_evt (f : PwrState → PwrState) : (s.modPwr f).evt = s.evt := rfl
@[simp] theorem State.modPwr_recd (f : PwrState → PwrState) : (s.modPwr f).recd = s.recd := rfl
@[simp] theorem State.modPwr_otp (f : PwrState → PwrState) : (s.modPwr f).otp = s.otp := rfl
@[simp] theorem State.modPwr_sgn (f : PwrState → PwrState) : (s.modPwr f).sgn = s.sgn := rfl
@[simp] theorem State.modPwr_dig (f : PwrState → PwrState) : (s.modPwr f).dig = s.dig := rfl
@[simp] theorem State.modPwr_ldg (f : PwrState → PwrState) : (s.modPwr f).ldg = s.ldg := rfl
@[simp] theorem State.modPwr_key (f : PwrState → PwrState) : (s.modPwr f).key = s.key := rfl
@[simp] theorem State.modPwr_nv (f : PwrState → PwrState) : (s.modPwr f).nv = s.nv := rfl
@[simp] theorem State.modPwr_flash (f : PwrState → PwrState) : (s.modPwr f).flash = s.flash := rfl
@[simp] theorem State.modPwr_tsk (f : PwrState → PwrState) : (s.modPwr f).tsk = s.tsk := rfl
@[simp] theorem State.modPwr_host (f : PwrState → PwrState) : (s.modPwr f).host = s.host := rfl
@[simp] theorem State.modPwr_pod (f : PwrState → PwrState) : (s.modPwr f).pod = s.pod := rfl
@[simp] theorem State.modPwr_dram (f : PwrState → PwrState) : (s.modPwr f).dram = s.dram := rfl
@[simp] theorem State.modPwr_ftl (f : PwrState → PwrState) : (s.modPwr f).ftl = s.ftl := rfl
@[simp] theorem State.modPwr_cmp (f : PwrState → PwrState) : (s.modPwr f).cmp = s.cmp := rfl
@[simp] theorem State.modPwr_scn (f : PwrState → PwrState) : (s.modPwr f).scn = s.scn := rfl
@[simp] theorem State.modPwr_ask (f : PwrState → PwrState) : (s.modPwr f).ask = s.ask := rfl
@[simp] theorem State.modPwr_pwr (f : PwrState → PwrState) : (s.modPwr f).pwr = f s.pwr := rfl
@[simp] theorem State.modPwr_timers (f : PwrState → PwrState) : (s.modPwr f).timers = s.timers := rfl
@[simp] theorem State.modPwr_pending (f : PwrState → PwrState) : (s.modPwr f).pending = s.pending := rfl

/-! ### modKey -/

@[simp] theorem State.modKey_part (f : KeyState → KeyState) : (s.modKey f).part = s.part := rfl
@[simp] theorem State.modKey_time (f : KeyState → KeyState) : (s.modKey f).time = s.time := rfl
@[simp] theorem State.modKey_freeCtr (f : KeyState → KeyState) : (s.modKey f).freeCtr = s.freeCtr := rfl
@[simp] theorem State.modKey_out (f : KeyState → KeyState) : (s.modKey f).out = s.out := rfl
@[simp] theorem State.modKey_regs (f : KeyState → KeyState) : (s.modKey f).regs = s.regs := rfl
@[simp] theorem State.modKey_hiLatch (f : KeyState → KeyState) : (s.modKey f).hiLatch = s.hiLatch := rfl
@[simp] theorem State.modKey_mem (f : KeyState → KeyState) : (s.modKey f).mem = s.mem := rfl
@[simp] theorem State.modKey_dramEnd (f : KeyState → KeyState) : (s.modKey f).dramEnd = s.dramEnd := rfl
@[simp] theorem State.modKey_bg (f : KeyState → KeyState) : (s.modKey f).bg = s.bg := rfl
@[simp] theorem State.modKey_boot (f : KeyState → KeyState) : (s.modKey f).boot = s.boot := rfl
@[simp] theorem State.modKey_hsf (f : KeyState → KeyState) : (s.modKey f).hsf = s.hsf := rfl
@[simp] theorem State.modKey_hsk (f : KeyState → KeyState) : (s.modKey f).hsk = s.hsk := rfl
@[simp] theorem State.modKey_evt (f : KeyState → KeyState) : (s.modKey f).evt = s.evt := rfl
@[simp] theorem State.modKey_recd (f : KeyState → KeyState) : (s.modKey f).recd = s.recd := rfl
@[simp] theorem State.modKey_otp (f : KeyState → KeyState) : (s.modKey f).otp = s.otp := rfl
@[simp] theorem State.modKey_sgn (f : KeyState → KeyState) : (s.modKey f).sgn = s.sgn := rfl
@[simp] theorem State.modKey_dig (f : KeyState → KeyState) : (s.modKey f).dig = s.dig := rfl
@[simp] theorem State.modKey_ldg (f : KeyState → KeyState) : (s.modKey f).ldg = s.ldg := rfl
@[simp] theorem State.modKey_key (f : KeyState → KeyState) : (s.modKey f).key = f s.key := rfl
@[simp] theorem State.modKey_nv (f : KeyState → KeyState) : (s.modKey f).nv = s.nv := rfl
@[simp] theorem State.modKey_flash (f : KeyState → KeyState) : (s.modKey f).flash = s.flash := rfl
@[simp] theorem State.modKey_tsk (f : KeyState → KeyState) : (s.modKey f).tsk = s.tsk := rfl
@[simp] theorem State.modKey_host (f : KeyState → KeyState) : (s.modKey f).host = s.host := rfl
@[simp] theorem State.modKey_pod (f : KeyState → KeyState) : (s.modKey f).pod = s.pod := rfl
@[simp] theorem State.modKey_dram (f : KeyState → KeyState) : (s.modKey f).dram = s.dram := rfl
@[simp] theorem State.modKey_ftl (f : KeyState → KeyState) : (s.modKey f).ftl = s.ftl := rfl
@[simp] theorem State.modKey_cmp (f : KeyState → KeyState) : (s.modKey f).cmp = s.cmp := rfl
@[simp] theorem State.modKey_scn (f : KeyState → KeyState) : (s.modKey f).scn = s.scn := rfl
@[simp] theorem State.modKey_ask (f : KeyState → KeyState) : (s.modKey f).ask = s.ask := rfl
@[simp] theorem State.modKey_pwr (f : KeyState → KeyState) : (s.modKey f).pwr = s.pwr := rfl
@[simp] theorem State.modKey_timers (f : KeyState → KeyState) : (s.modKey f).timers = s.timers := rfl
@[simp] theorem State.modKey_pending (f : KeyState → KeyState) : (s.modKey f).pending = s.pending := rfl

/-! ### modSgn -/

@[simp] theorem State.modSgn_part (f : SgnState → SgnState) : (s.modSgn f).part = s.part := rfl
@[simp] theorem State.modSgn_time (f : SgnState → SgnState) : (s.modSgn f).time = s.time := rfl
@[simp] theorem State.modSgn_freeCtr (f : SgnState → SgnState) : (s.modSgn f).freeCtr = s.freeCtr := rfl
@[simp] theorem State.modSgn_out (f : SgnState → SgnState) : (s.modSgn f).out = s.out := rfl
@[simp] theorem State.modSgn_regs (f : SgnState → SgnState) : (s.modSgn f).regs = s.regs := rfl
@[simp] theorem State.modSgn_hiLatch (f : SgnState → SgnState) : (s.modSgn f).hiLatch = s.hiLatch := rfl
@[simp] theorem State.modSgn_mem (f : SgnState → SgnState) : (s.modSgn f).mem = s.mem := rfl
@[simp] theorem State.modSgn_dramEnd (f : SgnState → SgnState) : (s.modSgn f).dramEnd = s.dramEnd := rfl
@[simp] theorem State.modSgn_bg (f : SgnState → SgnState) : (s.modSgn f).bg = s.bg := rfl
@[simp] theorem State.modSgn_boot (f : SgnState → SgnState) : (s.modSgn f).boot = s.boot := rfl
@[simp] theorem State.modSgn_hsf (f : SgnState → SgnState) : (s.modSgn f).hsf = s.hsf := rfl
@[simp] theorem State.modSgn_hsk (f : SgnState → SgnState) : (s.modSgn f).hsk = s.hsk := rfl
@[simp] theorem State.modSgn_evt (f : SgnState → SgnState) : (s.modSgn f).evt = s.evt := rfl
@[simp] theorem State.modSgn_recd (f : SgnState → SgnState) : (s.modSgn f).recd = s.recd := rfl
@[simp] theorem State.modSgn_otp (f : SgnState → SgnState) : (s.modSgn f).otp = s.otp := rfl
@[simp] theorem State.modSgn_sgn (f : SgnState → SgnState) : (s.modSgn f).sgn = f s.sgn := rfl
@[simp] theorem State.modSgn_dig (f : SgnState → SgnState) : (s.modSgn f).dig = s.dig := rfl
@[simp] theorem State.modSgn_ldg (f : SgnState → SgnState) : (s.modSgn f).ldg = s.ldg := rfl
@[simp] theorem State.modSgn_key (f : SgnState → SgnState) : (s.modSgn f).key = s.key := rfl
@[simp] theorem State.modSgn_nv (f : SgnState → SgnState) : (s.modSgn f).nv = s.nv := rfl
@[simp] theorem State.modSgn_flash (f : SgnState → SgnState) : (s.modSgn f).flash = s.flash := rfl
@[simp] theorem State.modSgn_tsk (f : SgnState → SgnState) : (s.modSgn f).tsk = s.tsk := rfl
@[simp] theorem State.modSgn_host (f : SgnState → SgnState) : (s.modSgn f).host = s.host := rfl
@[simp] theorem State.modSgn_pod (f : SgnState → SgnState) : (s.modSgn f).pod = s.pod := rfl
@[simp] theorem State.modSgn_dram (f : SgnState → SgnState) : (s.modSgn f).dram = s.dram := rfl
@[simp] theorem State.modSgn_ftl (f : SgnState → SgnState) : (s.modSgn f).ftl = s.ftl := rfl
@[simp] theorem State.modSgn_cmp (f : SgnState → SgnState) : (s.modSgn f).cmp = s.cmp := rfl
@[simp] theorem State.modSgn_scn (f : SgnState → SgnState) : (s.modSgn f).scn = s.scn := rfl
@[simp] theorem State.modSgn_ask (f : SgnState → SgnState) : (s.modSgn f).ask = s.ask := rfl
@[simp] theorem State.modSgn_pwr (f : SgnState → SgnState) : (s.modSgn f).pwr = s.pwr := rfl
@[simp] theorem State.modSgn_timers (f : SgnState → SgnState) : (s.modSgn f).timers = s.timers := rfl
@[simp] theorem State.modSgn_pending (f : SgnState → SgnState) : (s.modSgn f).pending = s.pending := rfl

/-! ### modLdg -/

@[simp] theorem State.modLdg_part (f : LdgState → LdgState) : (s.modLdg f).part = s.part := rfl
@[simp] theorem State.modLdg_time (f : LdgState → LdgState) : (s.modLdg f).time = s.time := rfl
@[simp] theorem State.modLdg_freeCtr (f : LdgState → LdgState) : (s.modLdg f).freeCtr = s.freeCtr := rfl
@[simp] theorem State.modLdg_out (f : LdgState → LdgState) : (s.modLdg f).out = s.out := rfl
@[simp] theorem State.modLdg_regs (f : LdgState → LdgState) : (s.modLdg f).regs = s.regs := rfl
@[simp] theorem State.modLdg_hiLatch (f : LdgState → LdgState) : (s.modLdg f).hiLatch = s.hiLatch := rfl
@[simp] theorem State.modLdg_mem (f : LdgState → LdgState) : (s.modLdg f).mem = s.mem := rfl
@[simp] theorem State.modLdg_dramEnd (f : LdgState → LdgState) : (s.modLdg f).dramEnd = s.dramEnd := rfl
@[simp] theorem State.modLdg_bg (f : LdgState → LdgState) : (s.modLdg f).bg = s.bg := rfl
@[simp] theorem State.modLdg_boot (f : LdgState → LdgState) : (s.modLdg f).boot = s.boot := rfl
@[simp] theorem State.modLdg_hsf (f : LdgState → LdgState) : (s.modLdg f).hsf = s.hsf := rfl
@[simp] theorem State.modLdg_hsk (f : LdgState → LdgState) : (s.modLdg f).hsk = s.hsk := rfl
@[simp] theorem State.modLdg_evt (f : LdgState → LdgState) : (s.modLdg f).evt = s.evt := rfl
@[simp] theorem State.modLdg_recd (f : LdgState → LdgState) : (s.modLdg f).recd = s.recd := rfl
@[simp] theorem State.modLdg_otp (f : LdgState → LdgState) : (s.modLdg f).otp = s.otp := rfl
@[simp] theorem State.modLdg_sgn (f : LdgState → LdgState) : (s.modLdg f).sgn = s.sgn := rfl
@[simp] theorem State.modLdg_dig (f : LdgState → LdgState) : (s.modLdg f).dig = s.dig := rfl
@[simp] theorem State.modLdg_ldg (f : LdgState → LdgState) : (s.modLdg f).ldg = f s.ldg := rfl
@[simp] theorem State.modLdg_key (f : LdgState → LdgState) : (s.modLdg f).key = s.key := rfl
@[simp] theorem State.modLdg_nv (f : LdgState → LdgState) : (s.modLdg f).nv = s.nv := rfl
@[simp] theorem State.modLdg_flash (f : LdgState → LdgState) : (s.modLdg f).flash = s.flash := rfl
@[simp] theorem State.modLdg_tsk (f : LdgState → LdgState) : (s.modLdg f).tsk = s.tsk := rfl
@[simp] theorem State.modLdg_host (f : LdgState → LdgState) : (s.modLdg f).host = s.host := rfl
@[simp] theorem State.modLdg_pod (f : LdgState → LdgState) : (s.modLdg f).pod = s.pod := rfl
@[simp] theorem State.modLdg_dram (f : LdgState → LdgState) : (s.modLdg f).dram = s.dram := rfl
@[simp] theorem State.modLdg_ftl (f : LdgState → LdgState) : (s.modLdg f).ftl = s.ftl := rfl
@[simp] theorem State.modLdg_cmp (f : LdgState → LdgState) : (s.modLdg f).cmp = s.cmp := rfl
@[simp] theorem State.modLdg_scn (f : LdgState → LdgState) : (s.modLdg f).scn = s.scn := rfl
@[simp] theorem State.modLdg_ask (f : LdgState → LdgState) : (s.modLdg f).ask = s.ask := rfl
@[simp] theorem State.modLdg_pwr (f : LdgState → LdgState) : (s.modLdg f).pwr = s.pwr := rfl
@[simp] theorem State.modLdg_timers (f : LdgState → LdgState) : (s.modLdg f).timers = s.timers := rfl
@[simp] theorem State.modLdg_pending (f : LdgState → LdgState) : (s.modLdg f).pending = s.pending := rfl

/-! ### modNv -/

@[simp] theorem State.modNv_part (f : NvState → NvState) : (s.modNv f).part = s.part := rfl
@[simp] theorem State.modNv_time (f : NvState → NvState) : (s.modNv f).time = s.time := rfl
@[simp] theorem State.modNv_freeCtr (f : NvState → NvState) : (s.modNv f).freeCtr = s.freeCtr := rfl
@[simp] theorem State.modNv_out (f : NvState → NvState) : (s.modNv f).out = s.out := rfl
@[simp] theorem State.modNv_regs (f : NvState → NvState) : (s.modNv f).regs = s.regs := rfl
@[simp] theorem State.modNv_hiLatch (f : NvState → NvState) : (s.modNv f).hiLatch = s.hiLatch := rfl
@[simp] theorem State.modNv_mem (f : NvState → NvState) : (s.modNv f).mem = s.mem := rfl
@[simp] theorem State.modNv_dramEnd (f : NvState → NvState) : (s.modNv f).dramEnd = s.dramEnd := rfl
@[simp] theorem State.modNv_bg (f : NvState → NvState) : (s.modNv f).bg = s.bg := rfl
@[simp] theorem State.modNv_boot (f : NvState → NvState) : (s.modNv f).boot = s.boot := rfl
@[simp] theorem State.modNv_hsf (f : NvState → NvState) : (s.modNv f).hsf = s.hsf := rfl
@[simp] theorem State.modNv_hsk (f : NvState → NvState) : (s.modNv f).hsk = s.hsk := rfl
@[simp] theorem State.modNv_evt (f : NvState → NvState) : (s.modNv f).evt = s.evt := rfl
@[simp] theorem State.modNv_recd (f : NvState → NvState) : (s.modNv f).recd = s.recd := rfl
@[simp] theorem State.modNv_otp (f : NvState → NvState) : (s.modNv f).otp = s.otp := rfl
@[simp] theorem State.modNv_sgn (f : NvState → NvState) : (s.modNv f).sgn = s.sgn := rfl
@[simp] theorem State.modNv_dig (f : NvState → NvState) : (s.modNv f).dig = s.dig := rfl
@[simp] theorem State.modNv_ldg (f : NvState → NvState) : (s.modNv f).ldg = s.ldg := rfl
@[simp] theorem State.modNv_key (f : NvState → NvState) : (s.modNv f).key = s.key := rfl
@[simp] theorem State.modNv_nv (f : NvState → NvState) : (s.modNv f).nv = f s.nv := rfl
@[simp] theorem State.modNv_flash (f : NvState → NvState) : (s.modNv f).flash = s.flash := rfl
@[simp] theorem State.modNv_tsk (f : NvState → NvState) : (s.modNv f).tsk = s.tsk := rfl
@[simp] theorem State.modNv_host (f : NvState → NvState) : (s.modNv f).host = s.host := rfl
@[simp] theorem State.modNv_pod (f : NvState → NvState) : (s.modNv f).pod = s.pod := rfl
@[simp] theorem State.modNv_dram (f : NvState → NvState) : (s.modNv f).dram = s.dram := rfl
@[simp] theorem State.modNv_ftl (f : NvState → NvState) : (s.modNv f).ftl = s.ftl := rfl
@[simp] theorem State.modNv_cmp (f : NvState → NvState) : (s.modNv f).cmp = s.cmp := rfl
@[simp] theorem State.modNv_scn (f : NvState → NvState) : (s.modNv f).scn = s.scn := rfl
@[simp] theorem State.modNv_ask (f : NvState → NvState) : (s.modNv f).ask = s.ask := rfl
@[simp] theorem State.modNv_pwr (f : NvState → NvState) : (s.modNv f).pwr = s.pwr := rfl
@[simp] theorem State.modNv_timers (f : NvState → NvState) : (s.modNv f).timers = s.timers := rfl
@[simp] theorem State.modNv_pending (f : NvState → NvState) : (s.modNv f).pending = s.pending := rfl

/-! ### modDram -/

@[simp] theorem State.modDram_part (f : MemState → MemState) : (s.modDram f).part = s.part := rfl
@[simp] theorem State.modDram_time (f : MemState → MemState) : (s.modDram f).time = s.time := rfl
@[simp] theorem State.modDram_freeCtr (f : MemState → MemState) : (s.modDram f).freeCtr = s.freeCtr := rfl
@[simp] theorem State.modDram_out (f : MemState → MemState) : (s.modDram f).out = s.out := rfl
@[simp] theorem State.modDram_regs (f : MemState → MemState) : (s.modDram f).regs = s.regs := rfl
@[simp] theorem State.modDram_hiLatch (f : MemState → MemState) : (s.modDram f).hiLatch = s.hiLatch := rfl
@[simp] theorem State.modDram_mem (f : MemState → MemState) : (s.modDram f).mem = s.mem := rfl
@[simp] theorem State.modDram_dramEnd (f : MemState → MemState) : (s.modDram f).dramEnd = s.dramEnd := rfl
@[simp] theorem State.modDram_bg (f : MemState → MemState) : (s.modDram f).bg = s.bg := rfl
@[simp] theorem State.modDram_boot (f : MemState → MemState) : (s.modDram f).boot = s.boot := rfl
@[simp] theorem State.modDram_hsf (f : MemState → MemState) : (s.modDram f).hsf = s.hsf := rfl
@[simp] theorem State.modDram_hsk (f : MemState → MemState) : (s.modDram f).hsk = s.hsk := rfl
@[simp] theorem State.modDram_evt (f : MemState → MemState) : (s.modDram f).evt = s.evt := rfl
@[simp] theorem State.modDram_recd (f : MemState → MemState) : (s.modDram f).recd = s.recd := rfl
@[simp] theorem State.modDram_otp (f : MemState → MemState) : (s.modDram f).otp = s.otp := rfl
@[simp] theorem State.modDram_sgn (f : MemState → MemState) : (s.modDram f).sgn = s.sgn := rfl
@[simp] theorem State.modDram_dig (f : MemState → MemState) : (s.modDram f).dig = s.dig := rfl
@[simp] theorem State.modDram_ldg (f : MemState → MemState) : (s.modDram f).ldg = s.ldg := rfl
@[simp] theorem State.modDram_key (f : MemState → MemState) : (s.modDram f).key = s.key := rfl
@[simp] theorem State.modDram_nv (f : MemState → MemState) : (s.modDram f).nv = s.nv := rfl
@[simp] theorem State.modDram_flash (f : MemState → MemState) : (s.modDram f).flash = s.flash := rfl
@[simp] theorem State.modDram_tsk (f : MemState → MemState) : (s.modDram f).tsk = s.tsk := rfl
@[simp] theorem State.modDram_host (f : MemState → MemState) : (s.modDram f).host = s.host := rfl
@[simp] theorem State.modDram_pod (f : MemState → MemState) : (s.modDram f).pod = s.pod := rfl
@[simp] theorem State.modDram_dram (f : MemState → MemState) : (s.modDram f).dram = f s.dram := rfl
@[simp] theorem State.modDram_ftl (f : MemState → MemState) : (s.modDram f).ftl = s.ftl := rfl
@[simp] theorem State.modDram_cmp (f : MemState → MemState) : (s.modDram f).cmp = s.cmp := rfl
@[simp] theorem State.modDram_scn (f : MemState → MemState) : (s.modDram f).scn = s.scn := rfl
@[simp] theorem State.modDram_ask (f : MemState → MemState) : (s.modDram f).ask = s.ask := rfl
@[simp] theorem State.modDram_pwr (f : MemState → MemState) : (s.modDram f).pwr = s.pwr := rfl
@[simp] theorem State.modDram_timers (f : MemState → MemState) : (s.modDram f).timers = s.timers := rfl
@[simp] theorem State.modDram_pending (f : MemState → MemState) : (s.modDram f).pending = s.pending := rfl

/-! ### modBoot -/

@[simp] theorem State.modBoot_part (f : BootState → BootState) : (s.modBoot f).part = s.part := rfl
@[simp] theorem State.modBoot_time (f : BootState → BootState) : (s.modBoot f).time = s.time := rfl
@[simp] theorem State.modBoot_freeCtr (f : BootState → BootState) : (s.modBoot f).freeCtr = s.freeCtr := rfl
@[simp] theorem State.modBoot_out (f : BootState → BootState) : (s.modBoot f).out = s.out := rfl
@[simp] theorem State.modBoot_regs (f : BootState → BootState) : (s.modBoot f).regs = s.regs := rfl
@[simp] theorem State.modBoot_hiLatch (f : BootState → BootState) : (s.modBoot f).hiLatch = s.hiLatch := rfl
@[simp] theorem State.modBoot_mem (f : BootState → BootState) : (s.modBoot f).mem = s.mem := rfl
@[simp] theorem State.modBoot_dramEnd (f : BootState → BootState) : (s.modBoot f).dramEnd = s.dramEnd := rfl
@[simp] theorem State.modBoot_bg (f : BootState → BootState) : (s.modBoot f).bg = s.bg := rfl
@[simp] theorem State.modBoot_boot (f : BootState → BootState) : (s.modBoot f).boot = f s.boot := rfl
@[simp] theorem State.modBoot_hsf (f : BootState → BootState) : (s.modBoot f).hsf = s.hsf := rfl
@[simp] theorem State.modBoot_hsk (f : BootState → BootState) : (s.modBoot f).hsk = s.hsk := rfl
@[simp] theorem State.modBoot_evt (f : BootState → BootState) : (s.modBoot f).evt = s.evt := rfl
@[simp] theorem State.modBoot_recd (f : BootState → BootState) : (s.modBoot f).recd = s.recd := rfl
@[simp] theorem State.modBoot_otp (f : BootState → BootState) : (s.modBoot f).otp = s.otp := rfl
@[simp] theorem State.modBoot_sgn (f : BootState → BootState) : (s.modBoot f).sgn = s.sgn := rfl
@[simp] theorem State.modBoot_dig (f : BootState → BootState) : (s.modBoot f).dig = s.dig := rfl
@[simp] theorem State.modBoot_ldg (f : BootState → BootState) : (s.modBoot f).ldg = s.ldg := rfl
@[simp] theorem State.modBoot_key (f : BootState → BootState) : (s.modBoot f).key = s.key := rfl
@[simp] theorem State.modBoot_nv (f : BootState → BootState) : (s.modBoot f).nv = s.nv := rfl
@[simp] theorem State.modBoot_flash (f : BootState → BootState) : (s.modBoot f).flash = s.flash := rfl
@[simp] theorem State.modBoot_tsk (f : BootState → BootState) : (s.modBoot f).tsk = s.tsk := rfl
@[simp] theorem State.modBoot_host (f : BootState → BootState) : (s.modBoot f).host = s.host := rfl
@[simp] theorem State.modBoot_pod (f : BootState → BootState) : (s.modBoot f).pod = s.pod := rfl
@[simp] theorem State.modBoot_dram (f : BootState → BootState) : (s.modBoot f).dram = s.dram := rfl
@[simp] theorem State.modBoot_ftl (f : BootState → BootState) : (s.modBoot f).ftl = s.ftl := rfl
@[simp] theorem State.modBoot_cmp (f : BootState → BootState) : (s.modBoot f).cmp = s.cmp := rfl
@[simp] theorem State.modBoot_scn (f : BootState → BootState) : (s.modBoot f).scn = s.scn := rfl
@[simp] theorem State.modBoot_ask (f : BootState → BootState) : (s.modBoot f).ask = s.ask := rfl
@[simp] theorem State.modBoot_pwr (f : BootState → BootState) : (s.modBoot f).pwr = s.pwr := rfl
@[simp] theorem State.modBoot_timers (f : BootState → BootState) : (s.modBoot f).timers = s.timers := rfl
@[simp] theorem State.modBoot_pending (f : BootState → BootState) : (s.modBoot f).pending = s.pending := rfl

/-! ### Registers behind updates of other fields -/

@[simp] theorem State.fresh_getReg  (key : Nat) : s.fresh.getReg key = s.getReg key := rfl
@[simp] theorem State.fresh_reg  (reg : RegId) (x y : Nat) : s.fresh.reg reg x y = s.reg reg x y := rfl
@[simp] theorem State.fresh_fld  (fd : Field) (x y : Nat) : s.fresh.fld fd x y = s.fld fd x y := rfl
@[simp] theorem State.fresh_flag  (fd : Field) (x y : Nat) : s.fresh.flag fd x y = s.flag fd x y := rfl
@[simp] theorem State.fresh_pair  (lo hi : RegId) (x y : Nat) : s.fresh.pair lo hi x y = s.pair lo hi x y := rfl
@[simp] theorem State.emit_getReg (o : Out) (key : Nat) : (s.emit o).getReg key = s.getReg key := rfl
@[simp] theorem State.emit_reg (o : Out) (reg : RegId) (x y : Nat) : (s.emit o).reg reg x y = s.reg reg x y := rfl
@[simp] theorem State.emit_fld (o : Out) (fd : Field) (x y : Nat) : (s.emit o).fld fd x y = s.fld fd x y := rfl
@[simp] theorem State.emit_flag (o : Out) (fd : Field) (x y : Nat) : (s.emit o).flag fd x y = s.flag fd x y := rfl
@[simp] theorem State.emit_pair (o : Out) (lo hi : RegId) (x y : Nat) : (s.emit o).pair lo hi x y = s.pair lo hi x y := rfl
@[simp] theorem State.raiseWith_getReg (n c : Nat) (l : List Nat) (p : Option Nat) (f : Nat) (key : Nat) : (s.raiseWith n c l p f).getReg key = s.getReg key := rfl
@[simp] theorem State.raiseWith_reg (n c : Nat) (l : List Nat) (p : Option Nat) (f : Nat) (reg : RegId) (x y : Nat) : (s.raiseWith n c l p f).reg reg x y = s.reg reg x y := rfl
@[simp] theorem State.raiseWith_fld (n c : Nat) (l : List Nat) (p : Option Nat) (f : Nat) (fd : Field) (x y : Nat) : (s.raiseWith n c l p f).fld fd x y = s.fld fd x y := rfl
@[simp] theorem State.raiseWith_flag (n c : Nat) (l : List Nat) (p : Option Nat) (f : Nat) (fd : Field) (x y : Nat) : (s.raiseWith n c l p f).flag fd x y = s.flag fd x y := rfl
@[simp] theorem State.raiseWith_pair (n c : Nat) (l : List Nat) (p : Option Nat) (f : Nat) (lo hi : RegId) (x y : Nat) : (s.raiseWith n c l p f).pair lo hi x y = s.pair lo hi x y := rfl
@[simp] theorem State.raise_getReg (n c : Nat) (l : List Nat) (key : Nat) : (s.raise n c l).getReg key = s.getReg key := rfl
@[simp] theorem State.raise_reg (n c : Nat) (l : List Nat) (reg : RegId) (x y : Nat) : (s.raise n c l).reg reg x y = s.reg reg x y := rfl
@[simp] theorem State.raise_fld (n c : Nat) (l : List Nat) (fd : Field) (x y : Nat) : (s.raise n c l).fld fd x y = s.fld fd x y := rfl
@[simp] theorem State.raise_flag (n c : Nat) (l : List Nat) (fd : Field) (x y : Nat) : (s.raise n c l).flag fd x y = s.flag fd x y := rfl
@[simp] theorem State.raise_pair (n c : Nat) (l : List Nat) (lo hi : RegId) (x y : Nat) : (s.raise n c l).pair lo hi x y = s.pair lo hi x y := rfl
@[simp] theorem State.raisePod_getReg (n c : Nat) (l : List Nat) (p : Nat) (key : Nat) : (s.raisePod n c l p).getReg key = s.getReg key := rfl
@[simp] theorem State.raisePod_reg (n c : Nat) (l : List Nat) (p : Nat) (reg : RegId) (x y : Nat) : (s.raisePod n c l p).reg reg x y = s.reg reg x y := rfl
@[simp] theorem State.raisePod_fld (n c : Nat) (l : List Nat) (p : Nat) (fd : Field) (x y : Nat) : (s.raisePod n c l p).fld fd x y = s.fld fd x y := rfl
@[simp] theorem State.raisePod_flag (n c : Nat) (l : List Nat) (p : Nat) (fd : Field) (x y : Nat) : (s.raisePod n c l p).flag fd x y = s.flag fd x y := rfl
@[simp] theorem State.raisePod_pair (n c : Nat) (l : List Nat) (p : Nat) (lo hi : RegId) (x y : Nat) : (s.raisePod n c l p).pair lo hi x y = s.pair lo hi x y := rfl
@[simp] theorem State.wr_getReg (a : Nat) (bs : List Byte) (key : Nat) : (s.wr a bs).getReg key = s.getReg key := rfl
@[simp] theorem State.wr_reg (a : Nat) (bs : List Byte) (reg : RegId) (x y : Nat) : (s.wr a bs).reg reg x y = s.reg reg x y := rfl
@[simp] theorem State.wr_fld (a : Nat) (bs : List Byte) (fd : Field) (x y : Nat) : (s.wr a bs).fld fd x y = s.fld fd x y := rfl
@[simp] theorem State.wr_flag (a : Nat) (bs : List Byte) (fd : Field) (x y : Nat) : (s.wr a bs).flag fd x y = s.flag fd x y := rfl
@[simp] theorem State.wr_pair (a : Nat) (bs : List Byte) (lo hi : RegId) (x y : Nat) : (s.wr a bs).pair lo hi x y = s.pair lo hi x y := rfl
@[simp] theorem State.notBefore_getReg (t : Nat) (key : Nat) : (s.notBefore t).getReg key = s.getReg key := rfl
@[simp] theorem State.notBefore_reg (t : Nat) (reg : RegId) (x y : Nat) : (s.notBefore t).reg reg x y = s.reg reg x y := rfl
@[simp] theorem State.notBefore_fld (t : Nat) (fd : Field) (x y : Nat) : (s.notBefore t).fld fd x y = s.fld fd x y := rfl
@[simp] theorem State.notBefore_flag (t : Nat) (fd : Field) (x y : Nat) : (s.notBefore t).flag fd x y = s.flag fd x y := rfl
@[simp] theorem State.notBefore_pair (t : Nat) (lo hi : RegId) (x y : Nat) : (s.notBefore t).pair lo hi x y = s.pair lo hi x y := rfl
@[simp] theorem State.stamp_getReg (k : Timer) (key : Nat) : (s.stamp k).getReg key = s.getReg key := rfl
@[simp] theorem State.stamp_reg (k : Timer) (reg : RegId) (x y : Nat) : (s.stamp k).reg reg x y = s.reg reg x y := rfl
@[simp] theorem State.stamp_fld (k : Timer) (fd : Field) (x y : Nat) : (s.stamp k).fld fd x y = s.fld fd x y := rfl
@[simp] theorem State.stamp_flag (k : Timer) (fd : Field) (x y : Nat) : (s.stamp k).flag fd x y = s.flag fd x y := rfl
@[simp] theorem State.stamp_pair (k : Timer) (lo hi : RegId) (x y : Nat) : (s.stamp k).pair lo hi x y = s.pair lo hi x y := rfl
@[simp] theorem State.every_getReg (k : Timer) (n : Nat) (key : Nat) : (s.every k n).getReg key = s.getReg key := rfl
@[simp] theorem State.every_reg (k : Timer) (n : Nat) (reg : RegId) (x y : Nat) : (s.every k n).reg reg x y = s.reg reg x y := rfl
@[simp] theorem State.every_fld (k : Timer) (n : Nat) (fd : Field) (x y : Nat) : (s.every k n).fld fd x y = s.fld fd x y := rfl
@[simp] theorem State.every_flag (k : Timer) (n : Nat) (fd : Field) (x y : Nat) : (s.every k n).flag fd x y = s.flag fd x y := rfl
@[simp] theorem State.every_pair (k : Timer) (n : Nat) (lo hi : RegId) (x y : Nat) : (s.every k n).pair lo hi x y = s.pair lo hi x y := rfl
@[simp] theorem State.setCtrl_getReg (p : Nat) (c : Ctrl) (key : Nat) : (s.setCtrl p c).getReg key = s.getReg key := rfl
@[simp] theorem State.setCtrl_reg (p : Nat) (c : Ctrl) (reg : RegId) (x y : Nat) : (s.setCtrl p c).reg reg x y = s.reg reg x y := rfl
@[simp] theorem State.setCtrl_fld (p : Nat) (c : Ctrl) (fd : Field) (x y : Nat) : (s.setCtrl p c).fld fd x y = s.fld fd x y := rfl
@[simp] theorem State.setCtrl_flag (p : Nat) (c : Ctrl) (fd : Field) (x y : Nat) : (s.setCtrl p c).flag fd x y = s.flag fd x y := rfl
@[simp] theorem State.setCtrl_pair (p : Nat) (c : Ctrl) (lo hi : RegId) (x y : Nat) : (s.setCtrl p c).pair lo hi x y = s.pair lo hi x y := rfl
@[simp] theorem State.setBg_getReg (n i : Nat) (a : BgAcct) (key : Nat) : (s.setBg n i a).getReg key = s.getReg key := rfl
@[simp] theorem State.setBg_reg (n i : Nat) (a : BgAcct) (reg : RegId) (x y : Nat) : (s.setBg n i a).reg reg x y = s.reg reg x y := rfl
@[simp] theorem State.setBg_fld (n i : Nat) (a : BgAcct) (fd : Field) (x y : Nat) : (s.setBg n i a).fld fd x y = s.fld fd x y := rfl
@[simp] theorem State.setBg_flag (n i : Nat) (a : BgAcct) (fd : Field) (x y : Nat) : (s.setBg n i a).flag fd x y = s.flag fd x y := rfl
@[simp] theorem State.setBg_pair (n i : Nat) (a : BgAcct) (lo hi : RegId) (x y : Nat) : (s.setBg n i a).pair lo hi x y = s.pair lo hi x y := rfl
@[simp] theorem State.putTask_getReg (i : Nat) (t : Task) (key : Nat) : (s.putTask i t).getReg key = s.getReg key := rfl
@[simp] theorem State.putTask_reg (i : Nat) (t : Task) (reg : RegId) (x y : Nat) : (s.putTask i t).reg reg x y = s.reg reg x y := rfl
@[simp] theorem State.putTask_fld (i : Nat) (t : Task) (fd : Field) (x y : Nat) : (s.putTask i t).fld fd x y = s.fld fd x y := rfl
@[simp] theorem State.putTask_flag (i : Nat) (t : Task) (fd : Field) (x y : Nat) : (s.putTask i t).flag fd x y = s.flag fd x y := rfl
@[simp] theorem State.putTask_pair (i : Nat) (t : Task) (lo hi : RegId) (x y : Nat) : (s.putTask i t).pair lo hi x y = s.pair lo hi x y := rfl
@[simp] theorem State.putCore_getReg (k : Nat) (c : Core) (key : Nat) : (s.putCore k c).getReg key = s.getReg key := rfl
@[simp] theorem State.putCore_reg (k : Nat) (c : Core) (reg : RegId) (x y : Nat) : (s.putCore k c).reg reg x y = s.reg reg x y := rfl
@[simp] theorem State.putCore_fld (k : Nat) (c : Core) (fd : Field) (x y : Nat) : (s.putCore k c).fld fd x y = s.fld fd x y := rfl
@[simp] theorem State.putCore_flag (k : Nat) (c : Core) (fd : Field) (x y : Nat) : (s.putCore k c).flag fd x y = s.flag fd x y := rfl
@[simp] theorem State.putCore_pair (k : Nat) (c : Core) (lo hi : RegId) (x y : Nat) : (s.putCore k c).pair lo hi x y = s.pair lo hi x y := rfl
@[simp] theorem State.putCtx_getReg (c : Nat) (d : DigCtx) (key : Nat) : (s.putCtx c d).getReg key = s.getReg key := rfl
@[simp] theorem State.putCtx_reg (c : Nat) (d : DigCtx) (reg : RegId) (x y : Nat) : (s.putCtx c d).reg reg x y = s.reg reg x y := rfl
@[simp] theorem State.putCtx_fld (c : Nat) (d : DigCtx) (fd : Field) (x y : Nat) : (s.putCtx c d).fld fd x y = s.fld fd x y := rfl
@[simp] theorem State.putCtx_flag (c : Nat) (d : DigCtx) (fd : Field) (x y : Nat) : (s.putCtx c d).flag fd x y = s.flag fd x y := rfl
@[simp] theorem State.putCtx_pair (c : Nat) (d : DigCtx) (lo hi : RegId) (x y : Nat) : (s.putCtx c d).pair lo hi x y = s.pair lo hi x y := rfl
@[simp] theorem State.putLun_getReg (i : Nat) (l : Lun) (key : Nat) : (s.putLun i l).getReg key = s.getReg key := rfl
@[simp] theorem State.putLun_reg (i : Nat) (l : Lun) (reg : RegId) (x y : Nat) : (s.putLun i l).reg reg x y = s.reg reg x y := rfl
@[simp] theorem State.putLun_fld (i : Nat) (l : Lun) (fd : Field) (x y : Nat) : (s.putLun i l).fld fd x y = s.fld fd x y := rfl
@[simp] theorem State.putLun_flag (i : Nat) (l : Lun) (fd : Field) (x y : Nat) : (s.putLun i l).flag fd x y = s.flag fd x y := rfl
@[simp] theorem State.putLun_pair (i : Nat) (l : Lun) (lo hi : RegId) (x y : Nat) : (s.putLun i l).pair lo hi x y = s.pair lo hi x y := rfl
@[simp] theorem State.modEvt_getReg (f : EvtState → EvtState) (key : Nat) : (s.modEvt f).getReg key = s.getReg key := rfl
@[simp] theorem State.modEvt_reg (f : EvtState → EvtState) (reg : RegId) (x y : Nat) : (s.modEvt f).reg reg x y = s.reg reg x y := rfl
@[simp] theorem State.modEvt_fld (f : EvtState → EvtState) (fd : Field) (x y : Nat) : (s.modEvt f).fld fd x y = s.fld fd x y := rfl
@[simp] theorem State.modEvt_flag (f : EvtState → EvtState) (fd : Field) (x y : Nat) : (s.modEvt f).flag fd x y = s.flag fd x y := rfl
@[simp] theorem State.modEvt_pair (f : EvtState → EvtState) (lo hi : RegId) (x y : Nat) : (s.modEvt f).pair lo hi x y = s.pair lo hi x y := rfl
@[simp] theorem State.modRecd_getReg (f : RecState → RecState) (key : Nat) : (s.modRecd f).getReg key = s.getReg key := rfl
@[simp] theorem State.modRecd_reg (f : RecState → RecState) (reg : RegId) (x y : Nat) : (s.modRecd f).reg reg x y = s.reg reg x y := rfl
@[simp] theorem State.modRecd_fld (f : RecState → RecState) (fd : Field) (x y : Nat) : (s.modRecd f).fld fd x y = s.fld fd x y := rfl
@[simp] theorem State.modRecd_flag (f : RecState → RecState) (fd : Field) (x y : Nat) : (s.modRecd f).flag fd x y = s.flag fd x y := rfl
@[simp] theorem State.modRecd_pair (f : RecState → RecState) (lo hi : RegId) (x y : Nat) : (s.modRecd f).pair lo hi x y = s.pair lo hi x y := rfl
@[simp] theorem State.modTsk_getReg (f : TskState → TskState) (key : Nat) : (s.modTsk f).getReg key = s.getReg key := rfl
@[simp] theorem State.modTsk_reg (f : TskState → TskState) (reg : RegId) (x y : Nat) : (s.modTsk f).reg reg x y = s.reg reg x y := rfl
@[simp] theorem State.modTsk_fld (f : TskState → TskState) (fd : Field) (x y : Nat) : (s.modTsk f).fld fd x y = s.fld fd x y := rfl
@[simp] theorem State.modTsk_flag (f : TskState → TskState) (fd : Field) (x y : Nat) : (s.modTsk f).flag fd x y = s.flag fd x y := rfl
@[simp] theorem State.modTsk_pair (f : TskState → TskState) (lo hi : RegId) (x y : Nat) : (s.modTsk f).pair lo hi x y = s.pair lo hi x y := rfl
@[simp] theorem State.modFlash_getReg (f : FlashState → FlashState) (key : Nat) : (s.modFlash f).getReg key = s.getReg key := rfl
@[simp] theorem State.modFlash_reg (f : FlashState → FlashState) (reg : RegId) (x y : Nat) : (s.modFlash f).reg reg x y = s.reg reg x y := rfl
@[simp] theorem State.modFlash_fld (f : FlashState → FlashState) (fd : Field) (x y : Nat) : (s.modFlash f).fld fd x y = s.fld fd x y := rfl
@[simp] theorem State.modFlash_flag (f : FlashState → FlashState) (fd : Field) (x y : Nat) : (s.modFlash f).flag fd x y = s.flag fd x y := rfl
@[simp] theorem State.modFlash_pair (f : FlashState → FlashState) (lo hi : RegId) (x y : Nat) : (s.modFlash f).pair lo hi x y = s.pair lo hi x y := rfl
@[simp] theorem State.modFtl_getReg (f : FtlState → FtlState) (key : Nat) : (s.modFtl f).getReg key = s.getReg key := rfl
@[simp] theorem State.modFtl_reg (f : FtlState → FtlState) (reg : RegId) (x y : Nat) : (s.modFtl f).reg reg x y = s.reg reg x y := rfl
@[simp] theorem State.modFtl_fld (f : FtlState → FtlState) (fd : Field) (x y : Nat) : (s.modFtl f).fld fd x y = s.fld fd x y := rfl
@[simp] theorem State.modFtl_flag (f : FtlState → FtlState) (fd : Field) (x y : Nat) : (s.modFtl f).flag fd x y = s.flag fd x y := rfl
@[simp] theorem State.modFtl_pair (f : FtlState → FtlState) (lo hi : RegId) (x y : Nat) : (s.modFtl f).pair lo hi x y = s.pair lo hi x y := rfl
@[simp] theorem State.modHost_getReg (f : HostState → HostState) (key : Nat) : (s.modHost f).getReg key = s.getReg key := rfl
@[simp] theorem State.modHost_reg (f : HostState → HostState) (reg : RegId) (x y : Nat) : (s.modHost f).reg reg x y = s.reg reg x y := rfl
@[simp] theorem State.modHost_fld (f : HostState → HostState) (fd : Field) (x y : Nat) : (s.modHost f).fld fd x y = s.fld fd x y := rfl
@[simp] theorem State.modHost_flag (f : HostState → HostState) (fd : Field) (x y : Nat) : (s.modHost f).flag fd x y = s.flag fd x y := rfl
@[simp] theorem State.modHost_pair (f : HostState → HostState) (lo hi : RegId) (x y : Nat) : (s.modHost f).pair lo hi x y = s.pair lo hi x y := rfl
@[simp] theorem State.modScn_getReg (f : ScnState → ScnState) (key : Nat) : (s.modScn f).getReg key = s.getReg key := rfl
@[simp] theorem State.modScn_reg (f : ScnState → ScnState) (reg : RegId) (x y : Nat) : (s.modScn f).reg reg x y = s.reg reg x y := rfl
@[simp] theorem State.modScn_fld (f : ScnState → ScnState) (fd : Field) (x y : Nat) : (s.modScn f).fld fd x y = s.fld fd x y := rfl
@[simp] theorem State.modScn_flag (f : ScnState → ScnState) (fd : Field) (x y : Nat) : (s.modScn f).flag fd x y = s.flag fd x y := rfl
@[simp] theorem State.modScn_pair (f : ScnState → ScnState) (lo hi : RegId) (x y : Nat) : (s.modScn f).pair lo hi x y = s.pair lo hi x y := rfl
@[simp] theorem State.modCmp_getReg (f : CmpState → CmpState) (key : Nat) : (s.modCmp f).getReg key = s.getReg key := rfl
@[simp] theorem State.modCmp_reg (f : CmpState → CmpState) (reg : RegId) (x y : Nat) : (s.modCmp f).reg reg x y = s.reg reg x y := rfl
@[simp] theorem State.modCmp_fld (f : CmpState → CmpState) (fd : Field) (x y : Nat) : (s.modCmp f).fld fd x y = s.fld fd x y := rfl
@[simp] theorem State.modCmp_flag (f : CmpState → CmpState) (fd : Field) (x y : Nat) : (s.modCmp f).flag fd x y = s.flag fd x y := rfl
@[simp] theorem State.modCmp_pair (f : CmpState → CmpState) (lo hi : RegId) (x y : Nat) : (s.modCmp f).pair lo hi x y = s.pair lo hi x y := rfl
@[simp] theorem State.modAsk_getReg (f : AskState → AskState) (key : Nat) : (s.modAsk f).getReg key = s.getReg key := rfl
@[simp] theorem State.modAsk_reg (f : AskState → AskState) (reg : RegId) (x y : Nat) : (s.modAsk f).reg reg x y = s.reg reg x y := rfl
@[simp] theorem State.modAsk_fld (f : AskState → AskState) (fd : Field) (x y : Nat) : (s.modAsk f).fld fd x y = s.fld fd x y := rfl
@[simp] theorem State.modAsk_flag (f : AskState → AskState) (fd : Field) (x y : Nat) : (s.modAsk f).flag fd x y = s.flag fd x y := rfl
@[simp] theorem State.modAsk_pair (f : AskState → AskState) (lo hi : RegId) (x y : Nat) : (s.modAsk f).pair lo hi x y = s.pair lo hi x y := rfl
@[simp] theorem State.modPwr_getReg (f : PwrState → PwrState) (key : Nat) : (s.modPwr f).getReg key = s.getReg key := rfl
@[simp] theorem State.modPwr_reg (f : PwrState → PwrState) (reg : RegId) (x y : Nat) : (s.modPwr f).reg reg x y = s.reg reg x y := rfl
@[simp] theorem State.modPwr_fld (f : PwrState → PwrState) (fd : Field) (x y : Nat) : (s.modPwr f).fld fd x y = s.fld fd x y := rfl
@[simp] theorem State.modPwr_flag (f : PwrState → PwrState) (fd : Field) (x y : Nat) : (s.modPwr f).flag fd x y = s.flag fd x y := rfl
@[simp] theorem State.modPwr_pair (f : PwrState → PwrState) (lo hi : RegId) (x y : Nat) : (s.modPwr f).pair lo hi x y = s.pair lo hi x y := rfl
@[simp] theorem State.modKey_getReg (f : KeyState → KeyState) (key : Nat) : (s.modKey f).getReg key = s.getReg key := rfl
@[simp] theorem State.modKey_reg (f : KeyState → KeyState) (reg : RegId) (x y : Nat) : (s.modKey f).reg reg x y = s.reg reg x y := rfl
@[simp] theorem State.modKey_fld (f : KeyState → KeyState) (fd : Field) (x y : Nat) : (s.modKey f).fld fd x y = s.fld fd x y := rfl
@[simp] theorem State.modKey_flag (f : KeyState → KeyState) (fd : Field) (x y : Nat) : (s.modKey f).flag fd x y = s.flag fd x y := rfl
@[simp] theorem State.modKey_pair (f : KeyState → KeyState) (lo hi : RegId) (x y : Nat) : (s.modKey f).pair lo hi x y = s.pair lo hi x y := rfl
@[simp] theorem State.modSgn_getReg (f : SgnState → SgnState) (key : Nat) : (s.modSgn f).getReg key = s.getReg key := rfl
@[simp] theorem State.modSgn_reg (f : SgnState → SgnState) (reg : RegId) (x y : Nat) : (s.modSgn f).reg reg x y = s.reg reg x y := rfl
@[simp] theorem State.modSgn_fld (f : SgnState → SgnState) (fd : Field) (x y : Nat) : (s.modSgn f).fld fd x y = s.fld fd x y := rfl
@[simp] theorem State.modSgn_flag (f : SgnState → SgnState) (fd : Field) (x y : Nat) : (s.modSgn f).flag fd x y = s.flag fd x y := rfl
@[simp] theorem State.modSgn_pair (f : SgnState → SgnState) (lo hi : RegId) (x y : Nat) : (s.modSgn f).pair lo hi x y = s.pair lo hi x y := rfl
@[simp] theorem State.modLdg_getReg (f : LdgState → LdgState) (key : Nat) : (s.modLdg f).getReg key = s.getReg key := rfl
@[simp] theorem State.modLdg_reg (f : LdgState → LdgState) (reg : RegId) (x y : Nat) : (s.modLdg f).reg reg x y = s.reg reg x y := rfl
@[simp] theorem State.modLdg_fld (f : LdgState → LdgState) (fd : Field) (x y : Nat) : (s.modLdg f).fld fd x y = s.fld fd x y := rfl
@[simp] theorem State.modLdg_flag (f : LdgState → LdgState) (fd : Field) (x y : Nat) : (s.modLdg f).flag fd x y = s.flag fd x y := rfl
@[simp] theorem State.modLdg_pair (f : LdgState → LdgState) (lo hi : RegId) (x y : Nat) : (s.modLdg f).pair lo hi x y = s.pair lo hi x y := rfl
@[simp] theorem State.modNv_getReg (f : NvState → NvState) (key : Nat) : (s.modNv f).getReg key = s.getReg key := rfl
@[simp] theorem State.modNv_reg (f : NvState → NvState) (reg : RegId) (x y : Nat) : (s.modNv f).reg reg x y = s.reg reg x y := rfl
@[simp] theorem State.modNv_fld (f : NvState → NvState) (fd : Field) (x y : Nat) : (s.modNv f).fld fd x y = s.fld fd x y := rfl
@[simp] theorem State.modNv_flag (f : NvState → NvState) (fd : Field) (x y : Nat) : (s.modNv f).flag fd x y = s.flag fd x y := rfl
@[simp] theorem State.modNv_pair (f : NvState → NvState) (lo hi : RegId) (x y : Nat) : (s.modNv f).pair lo hi x y = s.pair lo hi x y := rfl
@[simp] theorem State.modDram_getReg (f : MemState → MemState) (key : Nat) : (s.modDram f).getReg key = s.getReg key := rfl
@[simp] theorem State.modDram_reg (f : MemState → MemState) (reg : RegId) (x y : Nat) : (s.modDram f).reg reg x y = s.reg reg x y := rfl
@[simp] theorem State.modDram_fld (f : MemState → MemState) (fd : Field) (x y : Nat) : (s.modDram f).fld fd x y = s.fld fd x y := rfl
@[simp] theorem State.modDram_flag (f : MemState → MemState) (fd : Field) (x y : Nat) : (s.modDram f).flag fd x y = s.flag fd x y := rfl
@[simp] theorem State.modDram_pair (f : MemState → MemState) (lo hi : RegId) (x y : Nat) : (s.modDram f).pair lo hi x y = s.pair lo hi x y := rfl
@[simp] theorem State.modBoot_getReg (f : BootState → BootState) (key : Nat) : (s.modBoot f).getReg key = s.getReg key := rfl
@[simp] theorem State.modBoot_reg (f : BootState → BootState) (reg : RegId) (x y : Nat) : (s.modBoot f).reg reg x y = s.reg reg x y := rfl
@[simp] theorem State.modBoot_fld (f : BootState → BootState) (fd : Field) (x y : Nat) : (s.modBoot f).fld fd x y = s.fld fd x y := rfl
@[simp] theorem State.modBoot_flag (f : BootState → BootState) (fd : Field) (x y : Nat) : (s.modBoot f).flag fd x y = s.flag fd x y := rfl
@[simp] theorem State.modBoot_pair (f : BootState → BootState) (lo hi : RegId) (x y : Nat) : (s.modBoot f).pair lo hi x y = s.pair lo hi x y := rfl

end Sys2Proof.Machine
end

