-- ==== Sys2Proof/Laws/Tab.lean ====
section
/-!
SUPPORT. Sparse tables: a read after a write, and that writes keep the keys rising; from them the canonical form of memory.
-/
namespace Sys2Proof.Machine

/-! ### Reads after writes -/

@[simp] theorem Tab.look_nil {β : Type} (a : Nat) : Tab.look ([] : Tab β) a = none := rfl

@[simp] theorem Tab.look_put_same {β : Type} (t : Tab β) (a : Nat) (v : β) : Tab.look (Tab.put t a v) a = some v := by
  induction t with
  | nil => simp [Tab.put, Tab.look]
  | cons x t ih =>
    obtain ⟨k, w⟩ := x
    simp only [Tab.put]
    split
    · simp [Tab.look]
    · split
      · simp [Tab.look]
      · simp [Tab.look, *]

theorem Tab.look_put_other {β : Type} (t : Tab β) (a b : Nat) (v : β) (h : b ≠ a) :
    Tab.look (Tab.put t a v) b = Tab.look t b := by
  induction t with
  | nil => simp [Tab.put, Tab.look, Ne.symm h]
  | cons x t ih =>
    obtain ⟨k, w⟩ := x
    simp only [Tab.put]
    split
    · next e => subst e; simp [Tab.look, Ne.symm h]
    · split
      · simp [Tab.look, Ne.symm h]
      · simp [Tab.look, ih]

@[simp] theorem Tab.look_del_same {β : Type} (t : Tab β) (a : Nat) : Tab.look (Tab.del t a) a = none := by
  induction t with
  | nil => rfl
  | cons x t ih =>
    obtain ⟨k, w⟩ := x
    simp only [Tab.del]
    split
    · exact ih
    · simp [Tab.look, *]

theorem Tab.look_del_other {β : Type} (t : Tab β) (a b : Nat) (h : b ≠ a) : Tab.look (Tab.del t a) b = Tab.look t b := by
  induction t with
  | nil => rfl
  | cons x t ih =>
    obtain ⟨k, w⟩ := x
    simp only [Tab.del]
    split
    · next e => subst e; simp [Tab.look, Ne.symm h, ih]
    · simp [Tab.look, ih]

@[simp] theorem Tab.lookD_put_same {β : Type} (t : Tab β) (a : Nat) (v d : β) : Tab.lookD (Tab.put t a v) a d = v := by
  simp [Tab.lookD]

theorem Tab.lookD_put_other {β : Type} (t : Tab β) (a b : Nat) (v d : β) (h : b ≠ a) :
    Tab.lookD (Tab.put t a v) b d = Tab.lookD t b d := by
  simp [Tab.lookD, Tab.look_put_other t a b v h]

/-! ### Rising keys -/

/-- Every key of a table lies above a bound. -/
def Tab.above {β : Type} (n : Nat) (t : Tab β) : Prop := ∀ kv ∈ t, n < kv.1

theorem Tab.sorted_cons {β : Type} (k : Nat) (v : β) (t : Tab β) :
    Tab.sorted ((k, v) :: t) = true ↔ Tab.above k t ∧ Tab.sorted t = true := by
  induction t generalizing k v with
  | nil => simp [Tab.sorted, Tab.above]
  | cons x t ih =>
    obtain ⟨l, w⟩ := x
    have h := ih l w
    simp only [Tab.sorted, Bool.and_eq_true, decide_eq_true_eq, Tab.above, List.mem_cons, forall_eq_or_imp]
    constructor
    · rintro ⟨hk, hs⟩
      exact ⟨⟨hk, fun kv hm => lt_trans hk ((h.mp hs).1 kv hm)⟩, hs⟩
    · rintro ⟨⟨hk, _⟩, hs⟩
      exact ⟨hk, hs⟩

theorem Tab.mem_put {β : Type} (t : Tab β) (a : Nat) (v : β) (kv : Nat × β) (h : kv ∈ Tab.put t a v) :
    kv = (a, v) ∨ kv ∈ t := by
  induction t with
  | nil => simpa [Tab.put] using h
  | cons x t ih =>
    obtain ⟨k, w⟩ := x
    simp only [Tab.put] at h
    split at h
    · simp only [List.mem_cons] at h ⊢; tauto
    · split at h
      · simp only [List.mem_cons] at h ⊢; tauto
      · simp only [List.mem_cons] at h ⊢
        rcases h with h | h
        · tauto
        · have := ih h; tauto

theorem Tab.mem_del {β : Type} (t : Tab β) (a : Nat) (kv : Nat × β) (h : kv ∈ Tab.del t a) : kv ∈ t := by
  induction t with
  | nil => exact h
  | cons x t ih =>
    obtain ⟨k, w⟩ := x
    simp only [Tab.del] at h
    split at h
    · exact List.mem_cons_of_mem _ (ih h)
    · simp only [List.mem_cons] at h ⊢
      rcases h with h | h
      · exact .inl h
      · exact .inr (ih h)

theorem Tab.sorted_put {β : Type} (t : Tab β) (a : Nat) (v : β) (h : Tab.sorted t = true) : Tab.sorted (Tab.put t a v) = true := by
  induction t with
  | nil => rfl
  | cons x t ih =>
    obtain ⟨k, w⟩ := x
    obtain ⟨hk, hs⟩ := (Tab.sorted_cons k w t).mp h
    simp only [Tab.put]
    split
    · next e => subst e; exact (Tab.sorted_cons _ v t).mpr ⟨hk, hs⟩
    · split
      · next hlt =>
        refine (Tab.sorted_cons a v _).mpr ⟨?_, h⟩
        intro kv hm
        rcases List.mem_cons.mp hm with rfl | hm
        · exact hlt
        · exact lt_trans hlt (hk kv hm)
      · next hne hge =>
        refine (Tab.sorted_cons k w _).mpr ⟨?_, ih hs⟩
        intro kv hm
        rcases Tab.mem_put t a v kv hm with rfl | hm
        · simp only; omega
        · exact hk kv hm

theorem Tab.sorted_del {β : Type} (t : Tab β) (a : Nat) (h : Tab.sorted t = true) : Tab.sorted (Tab.del t a) = true := by
  induction t with
  | nil => rfl
  | cons x t ih =>
    obtain ⟨k, w⟩ := x
    obtain ⟨hk, hs⟩ := (Tab.sorted_cons k w t).mp h
    simp only [Tab.del]
    split
    · exact ih hs
    · exact (Tab.sorted_cons k w _).mpr ⟨fun kv hm => hk kv (Tab.mem_del t a kv hm), ih hs⟩

/-! ### The canonical form of memory -/

theorem memPut_keeps_wf (m : Tab Byte) (a : Nat) (b : Byte) (h : Memory.wf m = true) : Memory.wf (memPut m a b) = true := by
  simp only [Memory.wf, Bool.and_eq_true, List.all_eq_true, decide_eq_true_eq] at h ⊢
  simp only [memPut]
  split
  · exact ⟨Tab.sorted_del m a h.1, fun kv hm => h.2 kv (Tab.mem_del m a kv hm)⟩
  · next hb =>
    refine ⟨Tab.sorted_put m a b h.1, fun kv hm => ?_⟩
    rcases Tab.mem_put m a b kv hm with rfl | hm
    · simpa using hb
    · exact h.2 kv hm

/-- A write of any bytes keeps the canonical form. -/
theorem memWrite_keeps_wf (m : Tab Byte) (a : Nat) (bs : List Byte) (h : Memory.wf m = true) : Memory.wf (memWrite m a bs) = true := by
  induction bs generalizing m a with
  | nil => exact h
  | cons b bs ih => exact ih _ _ (memPut_keeps_wf m a b h)

theorem memPut_look_same (m : Tab Byte) (a : Nat) (b : Byte) : Tab.lookD (memPut m a b) a 0#8 = b := by
  simp only [memPut]
  split
  · next h => simp [Tab.lookD, h]
  · simp

theorem memPut_look_other (m : Tab Byte) (a c : Nat) (b : Byte) (h : c ≠ a) :
    Tab.lookD (memPut m a b) c 0#8 = Tab.lookD m c 0#8 := by
  simp only [memPut, Tab.lookD]
  split
  · rw [Tab.look_del_other m a c h]
  · rw [Tab.look_put_other m a c b h]

/-- A byte outside the bytes written reads as before. -/
theorem memWrite_look_outside (m : Tab Byte) (a c : Nat) (bs : List Byte) (h : c < a ∨ a + bs.length ≤ c) :
    Tab.lookD (memWrite m a bs) c 0#8 = Tab.lookD m c 0#8 := by
  induction bs generalizing m a with
  | nil => rfl
  | cons b bs ih =>
    simp only [memWrite]
    rw [ih _ _ (by simp only [List.length_cons] at h; omega)]
    exact memPut_look_other m a c b (by simp only [List.length_cons] at h; omega)

/-- A byte inside the bytes written reads as written. -/
theorem memWrite_look_inside (m : Tab Byte) (a : Nat) (bs : List Byte) (i : Nat) (h : i < bs.length) :
    Tab.lookD (memWrite m a bs) (a + i) 0#8 = bs[i] := by
  induction bs generalizing m a i with
  | nil => simp at h
  | cons b bs ih =>
    simp only [memWrite]
    cases i with
    | zero => rw [memWrite_look_outside _ _ _ _ (by omega)]; simpa using memPut_look_same m a b
    | succ i =>
      have := ih (memPut m a b) (a + 1) i (by simpa using h)
      rw [show a + (i + 1) = a + 1 + i by omega]
      simpa using this

end Sys2Proof.Machine
end

