-- ==== Sys2Proof/Laws/Ops.lean ====
section
/-!
SUPPORT. What each shared operation can do, said once: registers and their fields, the gate and the acknowledge of a bus access, delivery
of no events, and the merge that ends every command.
-/
namespace Sys2Proof.Machine

/-! ### Registers -/

theorem State.getReg_setReg_same (s : State) (k v : Nat) : (s.setReg k v).getReg k = v % 2 ^ 32 := by
  simp [State.getReg, State.setReg]

theorem State.getReg_setReg_other (s : State) (k j v : Nat) (h : j ≠ k) : (s.setReg k v).getReg j = s.getReg j := by
  simp [State.getReg, State.setReg, Tab.look_put_other _ k j _ h]

theorem State.setReg_regsBut (s : State) (k v : Nat) : s.regsBut (s.setReg k v) [k] := by
  intro j hj
  exact s.getReg_setReg_other k j v (by simpa using hj)

theorem State.reg_putReg_same (s : State) (r : RegId) (v i j : Nat) : (s.putReg r v i j).reg r i j = v % 2 ^ 32 :=
  s.getReg_setReg_same _ _

/-- Two states with the same registers and part read the same registers. -/
theorem State.getReg_congr (s t : State) (hr : t.regs = s.regs) (hp : t.part = s.part) (k : Nat) : t.getReg k = s.getReg k := by
  simp [State.getReg, hr, hp]

theorem bits_lt (n hi lo : Nat) : bits n hi lo < 2 ^ (hi + 1 - lo) := Nat.mod_lt _ (Nat.two_pow_pos _)

/-- A field reads as written. -/
theorem State.fld_setFld_same (s : State) (f : Field) (v i j : Nat) (h : f.hi < 32) :
    (s.setFld f v i j).fld f i j = v % 2 ^ (f.hi + 1 - f.lo) := by
  have e : (s.setFld f v i j).reg f.reg i j = _ := s.reg_putReg_same f.reg (setBits (s.reg f.reg i j) f.hi f.lo v) i j
  rw [State.fld, e, bits_mod_word _ _ _ h, bits_setBits_same]

/-- A field of another register is left alone. -/
theorem State.fld_setFld_other (s : State) (f g : Field) (v i j k l : Nat) (h : g.reg.key k l ≠ f.reg.key i j) :
    (s.setFld f v i j).fld g k l = s.fld g k l := by
  have e : (s.setFld f v i j).reg g.reg k l = s.reg g.reg k l := s.getReg_setReg_other _ _ _ h
  rw [State.fld, State.fld, e]

/-- A field beside the one written is left alone. -/
theorem State.fld_setFld_beside (s : State) (f g : Field) (v i j : Nat) (hr : g.reg = f.reg) (hg : g.hi < 32)
    (h : f.hi < g.lo ∧ f.lo ≤ f.hi ∨ g.hi < f.lo) : (s.setFld f v i j).fld g i j = s.fld g i j := by
  have e : (s.setFld f v i j).reg f.reg i j = _ := s.reg_putReg_same f.reg (setBits (s.reg f.reg i j) f.hi f.lo v) i j
  rw [State.fld, State.fld, hr, e, bits_mod_word _ _ _ hg]
  rcases h with h | h
  · exact bits_setBits_above _ _ _ _ _ _ h.1 h.2
  · exact bits_setBits_below _ _ _ _ _ _ h

theorem State.setFld_regsBut (s : State) (f : Field) (v i j : Nat) : s.regsBut (s.setFld f v i j) [f.reg.key i j] :=
  s.setReg_regsBut _ _

theorem State.regsBut_trans {s t u : State} {l : List Nat} (h : s.regsBut t l) (g : t.regsBut u l) : s.regsBut u l :=
  fun k hk => (g k hk).trans (h k hk)

theorem State.regsBut_mono {s t : State} {l m : List Nat} (h : s.regsBut t l) (hs : ∀ k ∈ l, k ∈ m) : s.regsBut t m :=
  fun k hk => h k (fun hl => hk (hs k hl))

/-- A class S counter counts and stays at its largest value (R20). -/
theorem State.fld_countS_same (s : State) (a o : Field) (n i j : Nat) (hr : o.reg = a.reg) (ha : a.hi < 32)
    (h : o.hi < a.lo ∧ o.lo ≤ o.hi ∨ a.hi < o.lo) :
    (s.countS a o n i j).fld a i j = satAdd (2 ^ (a.hi + 1 - a.lo) - 1) (s.fld a i j) n := by
  have hp := Nat.two_pow_pos (a.hi + 1 - a.lo)
  have e : satAdd (2 ^ (a.hi + 1 - a.lo) - 1) (s.fld a i j) n % 2 ^ (a.hi + 1 - a.lo)
      = satAdd (2 ^ (a.hi + 1 - a.lo) - 1) (s.fld a i j) n := by
    apply Nat.mod_eq_of_lt
    simp only [satAdd]
    split <;> omega
  simp only [State.countS]
  split
  · rw [State.fld_setFld_beside _ o a 1 i j hr.symm ha h, State.fld_setFld_same _ _ _ _ _ ha, e]
  · rw [State.fld_setFld_same _ _ _ _ _ ha, e]

/-- Counting leaves the other fields of the register alone. -/
theorem State.fld_countS_beside (s : State) (a o g : Field) (n i j : Nat) (hr : o.reg = a.reg) (hg : g.reg = a.reg) (hl : g.hi < 32)
    (h1 : a.hi < g.lo ∧ a.lo ≤ a.hi ∨ g.hi < a.lo) (h2 : o.hi < g.lo ∧ o.lo ≤ o.hi ∨ g.hi < o.lo) :
    (s.countS a o n i j).fld g i j = s.fld g i j := by
  simp only [State.countS]
  split
  · rw [State.fld_setFld_beside _ o g 1 i j (hg.trans hr.symm) hl h2, State.fld_setFld_beside _ a g _ i j hg hl h1]
  · rw [State.fld_setFld_beside _ a g _ i j hg hl h1]

/-- Counting changes the counter's own register alone. -/
theorem State.countS_regsBut (s : State) (a o : Field) (n i j : Nat) (hr : o.reg = a.reg) :
    s.regsBut (s.countS a o n i j) [a.reg.key i j] := by
  simp only [State.countS]
  split
  · exact State.regsBut_trans (s.setFld_regsBut _ _ _ _) (by rw [← hr]; exact State.setFld_regsBut _ _ _ _ _)
  · exact s.setFld_regsBut _ _ _ _

/-- Two states with the same registers and part read the same fields. -/
theorem State.fld_congr (s t : State) (hr : t.regs = s.regs) (hp : t.part = s.part) (f : Field) (i j : Nat) : t.fld f i j = s.fld f i j := by
  simp [State.fld, State.reg, State.getReg_congr s t hr hp]

/-! ### The gate and the acknowledge -/

@[simp] theorem State.gateReg_fresh (s : State) (r : Req) (key : Nat) (w : Bool) : s.fresh.gateReg r key w = s.gateReg r key w := rfl

@[simp] theorem State.gateMem_fresh (s : State) (r : Req) (a n : Nat) (x y : Bool) : s.fresh.gateMem r a n x y = s.gateMem r a n x y := rfl

/-- A granted write has its effect and is acknowledged without error. -/
theorem State.atRegW_granted (s : State) (r : Req) (key : Nat) (k : State → State) (h : s.grants r key true) :
    s.atRegW r key k = (k s).answer r.master (key / 0x100000) .ok [] := by
  simp [State.atRegW, h.1, h.2]

/-- A granted read gives its word. -/
theorem State.atRegR_granted (s : State) (r : Req) (key : Nat) (k : State → Nat × State) (h : s.grants r key false) :
    s.atRegR r key k = ((k s).2).answer r.master (key / 0x100000) .ok (leBytes 4 (k s).1) := by
  simp [State.atRegR, h.1, h.2]

/-- A denied write leaves no effect but the record of the denial. -/
theorem State.atRegW_denied (s : State) (r : Req) (key c : Nat) (k : State → State) (hm : s.issues r = true)
    (h : s.gateReg r key true = .deny c) :
    s.atRegW r key k
      = (s.denied r (key / 0x100000) (0xF000000000 + key) c).answer r.master (key / 0x100000) .accerr [] := by
  simp [State.atRegW, hm, h]

/-- A write that is ignored quietly is acknowledged and changes nothing. -/
theorem State.atRegW_quiet (s : State) (r : Req) (key : Nat) (k : State → State) (hm : s.issues r = true)
    (h : s.gateReg r key true = .quiet) : s.atRegW r key k = s.answer r.master (key / 0x100000) .ok [] := by
  simp [State.atRegW, hm, h]

/-- A hold leaves the state as it is but for the slot's LFSR. -/
theorem State.slotHold_onlyChanges (s : State) (n m t : Nat) : s.onlyChanges (s.slotHold n m t).2 [.hsf] := by
  have same : s.onlyChanges s [.hsf] := fun p _ => by cases p <;> rfl
  have moved : ∀ x, s.onlyChanges { s with hsf := x } [.hsf] := fun x p hp => by cases p <;> first | rfl | simp at hp
  simp only [State.slotHold]
  generalize (if s.flag HSF_PERT_SLOT_SIDE n = true then t else m) = q
  split
  · exact same
  · split <;> first | exact same | exact moved _

theorem State.onlyChanges_trans {s t u : State} {l : List StateField} (h : s.onlyChanges t l) (g : t.onlyChanges u l) : s.onlyChanges u l := by
  intro p hp
  have a := h p hp
  have b := g p hp
  cases p <;> exact b.trans a

theorem State.onlyChanges_mono {s t : State} {l k : List StateField} (h : s.onlyChanges t l) (hs : ∀ p ∈ l, p ∈ k) : s.onlyChanges t k :=
  fun p hp => h p (fun hl => hp (hs p hl))

/-- An acknowledge, at once or held, changes what was given back and the fabric's own state alone. -/
theorem State.ackAfter_onlyChanges (s : State) (ns m t : Nat) (st : BusStatus) (d : List Byte) :
    s.onlyChanges (s.ackAfter ns m t st d) [.hsf, .out] := by
  intro p hp
  simp only [State.ackAfter]
  split <;> (cases p <;> first | rfl | simp at hp)

theorem State.overtake_onlyChanges (s : State) (m t : Nat) : s.onlyChanges (s.overtake m t) [.hsf, .out] := by
  intro p hp
  cases p <;> first | rfl | simp at hp

/-- With no write forwarded and unacknowledged, there is none to pass. -/
theorem State.overtake_none (s : State) (m t : Nat) (h : s.hsf.late = []) : s.overtake m t = s := by
  simp only [State.overtake, h, List.map_nil]
  rw [← h]

theorem State.answer_onlyChanges (s : State) (m t : Nat) (st : BusStatus) (d : List Byte) :
    s.onlyChanges (s.answer m t st d) [.hsf, .out] := by
  have first : s.onlyChanges (if st = .hstall then s else s.overtake m t) [.hsf, .out] := by
    split
    · exact fun p _ => by cases p <;> rfl
    · exact s.overtake_onlyChanges m t
  refine State.onlyChanges_trans first ?_
  have step : ∀ (u : State) (n : Nat), u.onlyChanges (u.slotHold n m t).2 [.hsf, .out] :=
    fun u n => State.onlyChanges_mono (u.slotHold_onlyChanges n m t) (by simp)
  exact State.onlyChanges_trans (State.onlyChanges_trans (State.onlyChanges_trans (State.onlyChanges_trans (step _ 0) (step _ 1))
    (step _ 2)) (step _ 3)) (State.ackAfter_onlyChanges _ _ _ _ _ _)

/-- With no slot enabled, no acknowledge held and no write forwarded, an acknowledge is given at once. -/
theorem State.answer_unheld (s : State) (m t : Nat) (st : BusStatus) (d : List Byte) (h : ∀ n < 4, s.flag HSF_PERT_SLOT_EN n = false)
    (hh : s.hsf.held = []) (hl : s.hsf.late = []) : s.answer m t st d = s.emit (.bus st d) := by
  simp [State.answer, State.slotHold, State.ackAfter, State.overtake_none s m t hl, h 0, h 1, h 2, h 3, hh]

/-! ### Memory -/

/-- The canonical form outlives a write. -/
theorem State.wr_keeps_wf (s : State) (a : Nat) (bs : List Byte) (h : Memory.wf s.mem = true) : Memory.wf (s.wr a bs).mem = true :=
  memWrite_keeps_wf s.mem a bs h

theorem State.rd_length (s : State) (a n : Nat) : (s.rd a n).length = n := by
  induction n generalizing a with
  | zero => rfl
  | succ n ih => simp [State.rd, ih]

/-- Memory reads as last written, byte by byte. -/
theorem State.rd_wr_outside (s : State) (a b n : Nat) (bs : List Byte) (h : b + n ≤ a ∨ a + bs.length ≤ b) :
    (s.wr a bs).rd b n = s.rd b n := by
  induction n generalizing b with
  | zero => rfl
  | succ n ih =>
    have hb : b < a ∨ a + bs.length ≤ b := by omega
    have ht : (s.wr a bs).rd (b + 1) n = s.rd (b + 1) n := ih (b + 1) (by omega)
    show Tab.lookD (memWrite s.mem a bs) b 0#8 :: (s.wr a bs).rd (b + 1) n = Tab.lookD s.mem b 0#8 :: s.rd (b + 1) n
    rw [memWrite_look_outside s.mem a b bs hb, ht]

theorem rd_memWrite_from (s : State) (m : Tab Byte) (a : Nat) (bs : List Byte) (h : s.mem = memWrite m a bs) (i n : Nat)
    (hn : i + n = bs.length) : s.rd (a + i) n = bs.drop i := by
  induction n generalizing i with
  | zero => simp [State.rd, List.drop_eq_nil_of_le (show bs.length ≤ i by omega)]
  | succ n ih =>
    have hi : i < bs.length := by omega
    have ht : s.rd (a + i + 1) n = bs.drop (i + 1) := ih (i + 1) (by omega)
    rw [List.drop_eq_getElem_cons hi, ← ht]
    show Tab.lookD s.mem (a + i) 0#8 :: s.rd (a + i + 1) n = _
    rw [h, memWrite_look_inside m a bs i hi]

/-- What was written reads back. -/
theorem State.rd_written (s : State) (m : Tab Byte) (a : Nat) (bs : List Byte) (h : s.mem = memWrite m a bs) : s.rd a bs.length = bs := by
  simpa using rd_memWrite_from s m a bs h 0 bs.length (by omega)

theorem State.rd_wr_same (s : State) (a : Nat) (bs : List Byte) : (s.wr a bs).rd a bs.length = bs :=
  (s.wr a bs).rd_written s.mem a bs rfl

/-! ### The end of a command -/

/-- With nothing raised, delivery changes nothing. -/
@[simp] theorem State.drain_nothing (s : State) (n : Nat) (h : s.evt.inbox = []) : State.drain n s = s := by
  cases n with
  | zero => rfl
  | succ n => simp [State.drain, h]

@[simp] theorem State.oneWay_pending (s t : State) : (s.oneWay t).pending = s.pending := rfl
@[simp] theorem State.oneWay_part (s t : State) : (s.oneWay t).part = s.part := rfl
@[simp] theorem State.oneWay_regs (s t : State) : (s.oneWay t).regs = t.regs := rfl
@[simp] theorem State.oneWay_mem (s t : State) : (s.oneWay t).mem = t.mem := rfl
@[simp] theorem State.oneWay_out (s t : State) : (s.oneWay t).out = t.out := rfl
@[simp] theorem State.oneWay_evt (s t : State) : (s.oneWay t).evt = t.evt := rfl
@[simp] theorem State.oneWay_otp (s t : State) : (s.oneWay t).otp = s.otp.fused t.otp := rfl
@[simp] theorem State.oneWay_svnFloor (s t : State) : (s.oneWay t).nv.svnFloor = max s.nv.svnFloor t.nv.svnFloor := rfl
@[simp] theorem State.oneWay_seqFloor (s t : State) : (s.oneWay t).nv.seqFloor = max s.nv.seqFloor t.nv.seqFloor := rfl
@[simp] theorem State.oneWay_incarnation (s t : State) : (s.oneWay t).nv.incarnation = max s.nv.incarnation t.nv.incarnation := rfl

/-- The merge keeps four owner slots. -/
@[simp] theorem OtpState.fused_owner_length (a b : OtpState) : (a.fused b).owner.length = 4 := rfl

/-- Every meaning ends in State.done, whose result is a next state. -/
theorem State.done_next (t s : State) : t.done s = .next (s.oneWay (State.drain drainFuel t)) := rfl

/-- A command whose meaning ends in a state completes with it. -/
theorem completes_of_done {c : Instr} {s t : State} {P : State → Prop} (h : exec c s = t.done s) (hp : P t) : Completes c s P :=
  ⟨t, h, hp⟩

/-- A granted register write completes with its effect. -/
theorem acks_of_write {c : Instr} {s : State} {r : Req} {key : Nat} {k : State → State} {P : State → Prop}
    (h : exec c s = (s.fresh.atRegW r key k).done s) (hg : s.grants r key true) (hp : P (k s.fresh)) :
    Acks c s r (key / 0x100000) [] P :=
  ⟨k s.fresh, by rw [h, State.atRegW_granted s.fresh r key k ⟨hg.1, hg.2⟩]; rfl, hp⟩

/-- A granted register read completes with its word. -/
theorem acks_of_read {c : Instr} {s : State} {r : Req} {key : Nat} {k : State → Nat × State} {P : State → Prop}
    (h : exec c s = (s.fresh.atRegR r key k).done s) (hg : s.grants r key false) (hp : P (k s.fresh).2) :
    Acks c s r (key / 0x100000) (leBytes 4 (k s.fresh).1) P :=
  ⟨(k s.fresh).2, by rw [h, State.atRegR_granted s.fresh r key k ⟨hg.1, hg.2⟩]; rfl, hp⟩

end Sys2Proof.Machine
end

