-- ==== Sys2Proof/Laws/Memory.lean ====
section
/-!
SUPPORT. Memory behind its codes: the handling of errors never moves a stored byte, and a write within a line leaves every other line alone.
-/
namespace Sys2Proof.Machine

theorem mem_ite (p : Prop) [Decidable p] (x y : State) : (if p then x else y).mem = if p then x.mem else y.mem := by split <;> rfl
theorem snd_ite (p : Prop) [Decidable p] (x y : BusStatus × State) : (if p then x else y).2 = if p then x.2 else y.2 := by split <;> rfl

@[simp] theorem State.healthTo_mem (s : State) (b h : Nat) : (s.healthTo b h).mem = s.mem := by
  simp only [State.healthTo]; split <;> rfl
@[simp] theorem State.bucketUp_mem (s : State) (b : Nat) : (s.bucketUp b).mem = s.mem := by
  simp only [State.bucketUp]; split <;> simp

/-- Steps that leave memory leave it together. -/
theorem foldl_mem {α : Type} (f : State → α → State) (h : ∀ s a, (f s a).mem = s.mem) (l : List α) (s : State) : (l.foldl f s).mem = s.mem := by
  induction l generalizing s with
  | nil => rfl
  | cons a l ih => rw [List.foldl_cons, ih, h]

@[simp] theorem State.dropPages_mem (s : State) : s.dropPages.mem = s.mem :=
  foldl_mem _ (fun s a => by
    split
    · rfl
    · exact (mem_ite _ _ _).trans (by split <;> rfl)) _ _
@[simp] theorem State.fenceChan_mem (s : State) (c k : Nat) : (s.fenceChan c k).mem = s.mem := by
  simp only [State.fenceChan]
  repeat' split
  all_goals simp
@[simp] theorem State.keyHit_mem (s : State) (a : Nat) : (s.keyHit a).mem = s.mem := by
  simp only [State.keyHit]
  repeat' split
  all_goals rfl
@[simp] theorem State.hardFault_mem (s : State) (m b u a : Nat) : (s.hardFault m b u a).mem = s.mem := by
  simp only [State.hardFault]; split <;> simp
@[simp] theorem State.watched_mem (s : State) (m b u a : Nat) : (s.watched m b u a).mem = s.mem := by
  simp only [State.watched]
  repeat' split
  all_goals simp
@[simp] theorem State.dramCorrected_mem (s : State) (c a : Nat) : (s.dramCorrected c a).mem = s.mem := by
  simp only [State.dramCorrected]
  repeat' split
  all_goals simp
@[simp] theorem State.regionFailed_mem (s : State) (b : Nat) : (s.regionFailed b).mem = s.mem := by simp [State.regionFailed]
@[simp] theorem State.dramUncorrectable_mem (s : State) (c a : Nat) : (s.dramUncorrectable c a).mem = s.mem := by
  simp only [State.dramUncorrectable]; split <;> simp
@[simp] theorem State.setBad_mem (s : State) (l : Nat) (b : LineBad) : (s.setBad l b).mem = s.mem := rfl
@[simp] theorem State.memUe_mem (s : State) (c t a m : Nat) (i : Bool) : (s.memUe c t a m i).mem = s.mem := rfl
@[simp] theorem State.wakeChan_mem (s : State) (c : Nat) : (s.wakeChan c).mem = s.mem := by
  simp only [State.wakeChan]; split <;> rfl
@[simp] theorem State.injectOn_mem (s : State) (l : Nat) : (s.injectOn l).mem = s.mem := by
  simp only [State.injectOn]; split <;> rfl

@[simp] theorem State.copyLost_mem (s : State) (c a k : Nat) : (s.copyLost c a k).mem = s.mem := by
  simp only [State.copyLost]; split <;> simp
@[simp] theorem State.fromCopy_mem (s : State) (o m a pk ck : Nat) (b : LineBad) : (s.fromCopy o m a pk ck b).2.mem = s.mem := by
  simp only [State.fromCopy]; split <;> simp [mem_ite]
@[simp] theorem State.bothLost_mem (s : State) (m a pk ck : Nat) (u : Bool) (b : LineBad) : (s.bothLost m a pk ck u b).2.mem = s.mem := by
  simp [State.bothLost]

@[simp] theorem State.dramLine_mem (s : State) (m a : Nat) (p c : CellErr) (b : Bool) : (s.dramLine m a p c b).2.mem = s.mem := by
  simp only [State.dramLine]
  repeat' split
  all_goals simp

@[simp] theorem State.sramLine_mem (s : State) (m a : Nat) (p : CellErr) (b : Bool) : (s.sramLine m a p b).2.mem = s.mem := by
  simp only [State.sramLine]
  split
  · rfl
  · split
    · rfl
    · generalize readKind 0 false _ p = q
      split <;> simp

@[simp] theorem State.ledgerLine_mem (s : State) (m a : Nat) (p : CellErr) (b : Bool) : (s.ledgerLine m a p b).2.mem = s.mem := by
  simp only [State.ledgerLine]
  generalize a - 0xE800000000 = o
  generalize readKind _ false 0 p = q
  split
  · rfl
  · rw [State.watched_mem, State.bucketUp_mem, State.countS_mem]
  · rw [State.memUe_mem, State.keyHit_mem, State.regionFailed_mem, State.countS_mem]

/-- The code check of a line never moves a stored byte of DRAM or shared SRAM. -/
@[simp] theorem State.lineRead_mem (s : State) (m t a : Nat) (p c : CellErr) (b : Bool) : (s.lineRead m t a p c b).2.mem = s.mem := by
  simp only [State.lineRead]
  repeat' split
  all_goals simp

/-- A write within a line that is taken leaves the bytes written there, over memory that differs from before in that line alone. -/
theorem State.lineWrite_mem (s u : State) (m t a : Nat) (d : List Byte) (h : s.lineWrite m t a d = (.ok, u)) :
    ∃ x, u.mem = memWrite x a d ∧ ∀ k, k / 64 ≠ a / 64 → Tab.lookD x k 0#8 = Tab.lookD s.mem k 0#8 := by
  have hw : (if t = 0x40 then s.wakeChan (s.chanOf a) else s).mem = s.mem := by split <;> simp
  simp only [State.lineWrite] at h
  generalize (if t = 0x40 then s.wakeChan (s.chanOf a) else s) = v at h hw
  generalize (if t = 0x40 then !bit (s.fld CFG_MEM_INIT_DRAM_DONE) (s.chanOf a) else _ : Bool) = q at h
  split at h
  · simp at h
  · split at h
    · simp at h
    · split at h
      · injection h with _ h2
        subst h2
        refine ⟨memWrite v.mem (a / 64 * 64) (List.replicate 64 0#8), by
          simp only [State.injectOn_mem, State.wr_mem]; rfl, fun k hk => ?_⟩
        rw [← hw]
        exact memWrite_look_outside _ _ _ _ (by rw [List.length_replicate]; omega)
      · split at h
        · injection h with _ h2
          subst h2
          exact ⟨v.mem, by simp only [State.injectOn_mem, State.wr_mem, State.setBad_mem], fun k _ => by rw [hw]⟩
        · split at h
          · rename_i w e
            injection h with _ h2
            subst h2
            refine ⟨w.mem, by simp only [State.injectOn_mem, State.wr_mem], fun k _ => ?_⟩
            have := State.lineRead_mem v m t a .none .none false
            rw [e] at this
            rw [show w.mem = _ from this, hw]
          · simp at h

end Sys2Proof.Machine
end

