-- ==== Sys2Proof/Laws/Host.lean ====
section
/-!
SUPPORT. Host commands: what being fetched and completing leave, said once.
-/
namespace Sys2Proof.Machine

/-- A command is outstanding, to complete to a queue, and no completion of its identifier waits. -/
def State.owns (s : State) (c : HostCmd) (cq : Nat) : Prop :=
  (∃ o, s.outCmd (HostCmdRef c) = some o ∧ o.mute = false ∧ o.cqid = cq)
    ∧ s.host.cqes.any (fun x => x.pod = c.pod && x.qid = c.qid && x.cid = c.cid) = false

theorem State.owns_congr {s t : State} {c : HostCmd} {cq : Nat} (h : s.owns c cq) (ho : t.host.out = s.host.out)
    (hq : t.host.cqes = s.host.cqes) : t.owns c cq := by
  simpa [State.owns, State.outCmd, ho, hq] using h

/-- Being fetched changes what is outstanding and its count alone. -/
theorem State.begunBy_onlyChanges (s : State) (c : HostCmd) : s.onlyChanges (s.begunBy c) [.host, .regs, .out] := by
  intro p hp
  cases p <;> first | rfl | (exfalso; revert hp; decide)

theorem State.begunBy_regsBut (s : State) (c : HostCmd) : s.regsBut (s.begunBy c) [NVQ_STAT.key 0 0] := by
  intro k hk
  exact State.getReg_setReg_other _ _ _ _ (by simpa using hk : k ≠ NVQ_STAT.key 0 0)

/-- A register but NVQ_STAT reads as before. -/
theorem State.begunBy_fld (s : State) (c : HostCmd) (f : Field) (i j : Nat) (h : f.reg.key i j ≠ NVQ_STAT.key 0 0) :
    (s.begunBy c).fld f i j = s.fld f i j := by
  have := s.begunBy_regsBut c (f.reg.key i j) (by simpa using h)
  simp [State.fld, State.reg, this]

@[simp] theorem State.begunBy_cqes (s : State) (c : HostCmd) : (s.begunBy c).host.cqes = s.host.cqes := rfl
@[simp] theorem State.begunBy_part (s : State) (c : HostCmd) : (s.begunBy c).part = s.part := rfl
@[simp] theorem State.begunBy_pod (s : State) (c : HostCmd) : (s.begunBy c).pod = s.pod := rfl
@[simp] theorem State.begunBy_nv (s : State) (c : HostCmd) : (s.begunBy c).nv = s.nv := rfl
@[simp] theorem State.begunBy_boot (s : State) (c : HostCmd) : (s.begunBy c).boot = s.boot := rfl
@[simp] theorem State.begunBy_time (s : State) (c : HostCmd) : (s.begunBy c).time = s.time := rfl
@[simp] theorem State.begunBy_out (s : State) (c : HostCmd) : (s.begunBy c).out = [] := rfl
@[simp] theorem State.begunBy_evt (s : State) (c : HostCmd) : (s.begunBy c).evt = s.evt := rfl
@[simp] theorem State.begunBy_ctrl (s : State) (c : HostCmd) (p : Nat) : (s.begunBy c).ctrl p = s.ctrl p := rfl
@[simp] theorem State.begunBy_safe (s : State) (c : HostCmd) : (s.begunBy c).safe = s.safe := by
  have := s.begunBy_fld c CFG_BOOT_STAT_SAFE 0 0 (by decide)
  simp [State.safe, State.flag, this]

/-- A command that is admitted runs in the state in which it is outstanding. -/
theorem State.admin_admitted (s : State) (c : HostCmd) (n : AdminNeeds) (k : State → State) (h : s.admits c n) :
    s.fresh.admin c n k = k (s.begunBy c) := by
  obtain ⟨hq, ht, h0, hs, hz, hm, _⟩ := h
  have ht' : s.fresh.takes c = true := ht
  have e : s.fresh.begin c 0 .started none = s.begunBy c := rfl
  simp only [State.admin, ht', hq, e, State.begunBy_safe, State.begunBy_nv, State.begunBy_boot]
  rw [if_neg (by simp), if_neg (by rintro (⟨a, b⟩ | ⟨a, b⟩); exact b (h0 a); simp [hs a] at b), if_neg (by rintro ⟨a, b⟩; simp [hz a] at b),
    if_neg (by rintro ⟨a, b⟩; exact b (hz a)), if_neg (by rintro ⟨a, b, d⟩; rcases hm a with x | x <;> simp_all)]

/-- A command fetched is outstanding. -/
theorem State.begunBy_owns (s : State) (c : HostCmd) (n : AdminNeeds) (h : s.admits c n) : (s.begunBy c).owns c (s.cqOf c.pod c.qid) := by
  refine ⟨⟨⟨c.pod, c.qid, c.cid, s.cqOf c.pod c.qid, 0, .started, none, [], [], false, none, false, false⟩, ?_, rfl, rfl⟩, ?_⟩
  · show List.find? _ (List.filter _ s.host.out ++ [_]) = _
    rw [List.find?_append]
    have : List.find? (fun o => decide (o.pod = (HostCmdRef c).pod) && decide (o.qid = (HostCmdRef c).qid) && decide (o.cid = (HostCmdRef c).cid))
        (List.filter (fun o => !(decide (o.pod = c.pod) && decide (o.qid = c.qid) && decide (o.cid = c.cid))) s.host.out) = none := by
      rw [List.find?_eq_none]
      intro x hx
      simp only [List.mem_filter, Bool.not_eq_true'] at hx
      rw [show (decide (x.pod = (HostCmdRef c).pod) && decide (x.qid = (HostCmdRef c).qid) && decide (x.cid = (HostCmdRef c).cid)) = false
        from hx.2]
      exact Bool.false_ne_true
    rw [this]
    simp [HostCmdRef, State.cqOf, State.fresh]
  · have := h.2.2.2.2.2.2
    simp only [List.all_eq_true, Bool.not_eq_true'] at this
    rw [List.any_eq_false]
    intro x hx
    simp [this x hx]

/-- The completion of an outstanding command waits for its queue. -/
theorem State.complete_posts (s : State) (c : HostCmd) (cq sct sc : Nat) (dnr : Bool) (dw0 : Nat) (h : s.owns c cq) :
    ⟨c.pod, cq, c.qid, c.cid, sct, sc, dnr, dw0⟩ ∈ (s.complete (HostCmdRef c) sct sc dnr dw0).host.cqes := by
  obtain ⟨⟨o, ho, hm, hc⟩, hq⟩ := h
  have log : ∀ (u : State), (u.logError (HostCmdRef c) sct sc dnr).host.cqes = u.host.cqes := by
    intro u; simp only [State.logError]; split <;> rfl
  have hq' : (s.host.cqes.any fun x => decide (x.pod = (HostCmdRef c).pod) && decide (x.qid = (HostCmdRef c).qid) && decide (x.cid = (HostCmdRef c).cid)) = false := hq
  simp only [State.complete]
  have ho' : ∀ h k, State.outCmd { s with host := { s.host with locks := h }, hsk := k } (HostCmdRef c) = some o := fun _ _ => ho
  rw [ho']
  simp only [hm, hq', Bool.false_eq_true, if_false]
  split
  · simp [HostCmdRef, hc]
  · rw [log]; simp [HostCmdRef, hc]

/-- A completion changes queues of completions, locks, permits and the error log. -/
theorem State.complete_onlyChanges (s : State) (c : CmdRef) (sct sc : Nat) (dnr : Bool) (dw0 : Nat) :
    s.onlyChanges (s.complete c sct sc dnr dw0) [.host, .hsk] := by
  intro p hp
  simp only [State.complete, State.logError]
  repeat' split
  all_goals (cases p <;> first | rfl | (exfalso; revert hp; decide))

@[simp] theorem State.countOut_host (s : State) : s.countOut.host = s.host := rfl
@[simp] theorem State.countLocks_host (s : State) : s.countLocks.host = s.host := rfl

/-- A command that ends with a status has its completion waiting for its queue. -/
theorem State.endCmd_posts (s : State) (c : HostCmd) (cq sct sc : Nat) (dnr : Bool) (dw0 : Nat) (h : s.owns c cq) :
    ⟨c.pod, cq, c.qid, c.cid, sct, sc, dnr, dw0⟩ ∈ (s.endCmd (HostCmdRef c) sct sc dnr dw0).host.cqes := by
  simp only [State.endCmd, State.countLocks_host]
  apply State.complete_posts
  obtain ⟨⟨o, ho, hm, hc⟩, hq⟩ := h
  refine ⟨⟨{ o with io := none, need := [], got := [], arrived := false }, ?_, hm, hc⟩, hq⟩
  have hp : o.pod = c.pod ∧ o.qid = c.qid ∧ o.cid = c.cid := by
    have := List.find?_some ho
    simp only [Bool.and_eq_true, decide_eq_true_eq] at this
    exact ⟨this.1.1, this.1.2, this.2⟩
  show List.find? _ (List.map _ s.host.out) = _
  rw [List.find?_map]
  have e : (List.find? ((fun o => decide (o.pod = (HostCmdRef c).pod) && decide (o.qid = (HostCmdRef c).qid) && decide (o.cid = (HostCmdRef c).cid)) ∘
      (fun o => if decide (o.pod = (HostCmdRef c).pod) && decide (o.qid = (HostCmdRef c).qid) && decide (o.cid = (HostCmdRef c).cid) then
        { o with io := none, need := [], got := [], arrived := false } else o)) s.host.out)
      = List.find? (fun o => decide (o.pod = (HostCmdRef c).pod) && decide (o.qid = (HostCmdRef c).qid) && decide (o.cid = (HostCmdRef c).cid)) s.host.out := by
    congr 1
    funext x
    simp only [Function.comp]
    split <;> simp_all
  rw [e, show List.find? _ s.host.out = some o from ho]
  simp [HostCmdRef, hp]

theorem State.endCmd_onlyChanges (s : State) (c : CmdRef) (sct sc : Nat) (dnr : Bool) (dw0 : Nat) :
    s.onlyChanges (s.endCmd c sct sc dnr dw0) [.host, .hsk, .ftl, .pod, .regs] := by
  have a : ∀ (u : State) (f : Pod → Pod), s.onlyChanges (u.modPod c.pod f) [.host, .hsk, .ftl, .pod, .regs] →
      s.onlyChanges ((u.modPod c.pod f).complete c sct sc dnr dw0).countLocks [.host, .hsk, .ftl, .pod, .regs] := fun u f h =>
    State.onlyChanges_trans (State.onlyChanges_trans h (State.onlyChanges_mono (State.complete_onlyChanges _ _ _ _ _ _) (by decide)))
      (fun p hp => by cases p <;> first | rfl | (exfalso; revert hp; decide))
  exact a _ _ (fun p hp => by cases p <;> first | rfl | (exfalso; revert hp; decide))

end Sys2Proof.Machine
end

