-- ==== Sys2Proof/Laws/Step.lean ====
section
/-!
SUPPORT. What every command and every step comes to: one next state, whose outputs are one command's.
-/
namespace Sys2Proof.Machine

/-- Every command ends in a next state, which is some state passed through `State.oneWay`. -/
theorem exec_form (c : Instr) (s : State) : ∃ u : State, exec c s = .next (s.oneWay u) := by
  cases c <;> exact ⟨_, rfl⟩

end Sys2Proof.Machine
end

