-- ==== Sys2Proof/Tests/Slice0.lean ====
section
/-!
SUPPORT. Small tests of one step each, and for every statement a state and operands that meet its hypotheses.
-/
namespace Sys2Proof.Tests
open Sys2Proof Sys2Proof.Machine
set_option Elab.async false

theorem pair_ok {α : Type} {x : BusStatus × α} (h : x.1 = .ok) : x = (.ok, x.2) := by
  cases x; cases h; rfl

/-! ### Small states -/

/-- Registers set, by key. -/
def set (l : List (Nat × Nat)) (s : State) : State := l.foldl (fun s x => s.setReg x.1 x.2) s

/-- Every domain on, memory filled, 384 GiB of DRAM, the input up, the image read and firmware running;
every master may use DRAM and shared SRAM. -/
def up : State :=
  let s := set [(PWR_DOM_STAT_0.key 0 0, 0xFFFFFFFF), (PWR_DOM_STAT_1.key 0 0, 0xFF), (CFG_MEM_INIT.key 0 0, 0x7F0000),
    (HSK_ACC_W0.key 0x40 31, 0x98FF0000), (HSK_ACC_W0.key 0x40 31 + 12, 0xFFFFFFFF),
    (HSK_ACC_W0.key 0x41 31, 0x98FF0000), (HSK_ACC_W0.key 0x41 31 + 12, 0xFFFFF)] State.reset
  { s with
    dramEnd := 0x6000000000
    boot := { s.boot with modReady := true, booted := true, bootDone := true, fwRunning := true, perst := [] }
    pwr := { s.pwr with ready := false, pfailLow := false, thermLow := false } }

/-- A management core. -/
def fw : Req := ⟨0, 0⟩

/-- An address in shared SRAM. -/
def sram : Nat := 0xE000000000

/-- Bytes placed at an address. -/
def put (a : Nat) (d : List Byte) (s : State) : State := s.wr a d

/-! ### Registers, fabric and start -/

def held : HeldAck := ⟨0, 50, 0, 0x40, none, .bus .ok []⟩

theorem witness_RegisterAccessCompletes :
    (up.grants fw (REC_CTRL.key 0 0) true ∧ REC_CTRL.key 0 0 < 2 ^ 32 ∧ plainRegister (REC_CTRL.key 0 0) = true ∧ up.written (REC_CTRL.key 0 0) (0x0A000000 % 2 ^ 32) = some 0x0A000000)
    ∧ (REC_RING_HEAD_LO.key 0 0 < 2 ^ 32 ∧ up.grants fw (REC_RING_HEAD_LO.key 0 0) false ∧ plainRead (REC_RING_HEAD_LO.key 0 0) = true
      ∧ Tab.look up.hiLatch (fw.master * 0x4000000 + REC_RING_HEAD_LO.key 0 0) = none)
    ∧ (up.grants fw (HSF_PERT_PARAM.key (7 % 4) 0) true ∧ up.written (HSF_PERT_PARAM.key (7 % 4) 0) 5 = some 5) := by decide +kernel

theorem witness_MemoryAccessCompletes :
    (inWindows sram = false ∧ up.issues fw = true ∧ up.gateMem fw sram 64 true false = .go ∧ sizeOk (targetOf sram) sram 64 = true
      ∧ up.fresh.lineRead 0 (targetOf sram) sram .none .none false = (.ok, (up.fresh.lineRead 0 (targetOf sram) sram .none .none false).2))
    ∧ (inWindows sram = false ∧ up.issues fw = true ∧ up.gateMem fw sram 2 false true = .go ∧ sizeOk (targetOf sram) sram 2 = true ∧ targetOf sram ≠ 0x42
      ∧ up.fresh.lineWrite 0 (targetOf sram) sram [1#8, 2#8] = (.ok, (up.fresh.lineWrite 0 (targetOf sram) sram [1#8, 2#8]).2))
    ∧ (targetOf sram = 0x41 ∧ (regionOf sram).isSome = true ∧ up.gateMem fw sram 8 true true = .go ∧ sram % 8 = 0) := by
  and_intros <;> first | decide +kernel | (refine pair_ok ?_; decide +kernel)


/-- The tester may perturb: SGN_TOKEN_LATCH and TEST_PERMIT grant it. -/
def openTest : State := { set [(SGN_TOKEN_LATCH.key 0 0, 0xFFFFFFFF)] up with boot := { up.boot with testPermit := 0xFF } }

def shortage : State := up.setBg 3 (bgCount up.part 3 - 1) ⟨0, 0, true, true⟩

def lateWrite : LateWrite := ⟨fw, 0x41, sram, [1#8], false⟩

theorem witness_FabricCommandsComplete :
    (3 < 4 ∧ bgCount shortage.part 3 - 1 < bgCount shortage.part 3)
    ∧ (up.issues ⟨0xFE, 0⟩ = true ∧ 0x3F ∉ up.hsf.fenced
      ∧ up.hsf.held.find? (fun x => x.master = 0xFE && x.target = 0x3F && x.at_ + up.wdogNs ≤ x.until_) = none ∧ ctxAt (sram, [1#8]).1 = none)
    ∧ ({ up with hsf := { up.hsf with late := [lateWrite, { lateWrite with lost := true }] } }.hsf.late[0]? = some lateWrite
      ∧ lateWrite.lost = false ∧ lateWrite.target = 0x41
      ∧ { up with hsf := { up.hsf with late := [lateWrite, { lateWrite with lost := true }] } }.hsf.late[1]? = some { lateWrite with lost := true })
    ∧ (15 < 16 ∧ up.monitorOn 15 = true ∧ up.monitorOn 0 = true ∧ up.pwr.ready = false ∧ up.pwr.fail = 0)
    ∧ (3 < 4 ∧ openTest.grants fw (HSF_PERT_SLOT.key 3 0) true ∧ bits 0x80000040 30 29 ≠ 3
      ∧ (bit 0x80000040 31 = false ∨ openTest.pertCause 0x80000040 = 0)
      ∧ (bit (openTest.reg HSF_PERT_SLOT 3) 31 = false ∨ openTest.pertCause 0x80000040 = 0)
      ∧ openTest.written (HSF_PERT_SLOT.key 3 0) 0x80000040 = some 0x80000040)
    ∧ (up.grants fw (HSF_PERT_SLOT.key 0 0) true ∧ bit 0x80000040 31 = true ∧ bit (up.reg HSF_PERT_SLOT 0) 31 = false
      ∧ up.pertCause 0x80000040 ≠ 0)
    ∧ (firstHeld { up with hsf := { up.hsf with held := [held] } }.hsf.held [] none = some held ∧ max up.time held.until_ < held.at_ + up.wdogNs)
    ∧ (let x : HeldAck := { held with until_ := 0 + up.wdogNs }
       firstHeld { up with hsf := { up.hsf with held := [x] } }.hsf.held [] none = some x ∧ x.at_ + up.wdogNs ≤ max up.time x.until_
        ∧ x.ctx = none) := by decide +kernel

/-! ### Start and resets -/

/-- Controller 0 is enabled and ready, with an admin queue and I/O queue 1. -/
def hosts : State :=
  let s := up.setCtrl 0 { up.ctrl 0 with
    cc := 1, rdy := true
    sqs := [(0, ⟨32, 0x1000, 0, 0, 0, 0⟩), (1, ⟨32, 0x2000, 1, 0, 0, 0⟩)]
    cqs := [(0, ⟨32, 0x3000, 0, true, 0, 0, true⟩), (1, ⟨32, 0x4000, 1, true, 0, 0, true⟩)] }
  { s with boot := { s.boot with bootDone := true } }

theorem witness_StartsAndDeviceResetsComplete :
    State.reset.pwr.ready = true
    ∧ { up with pwr := { up.pwr with fail := 2 } }.pwr.fail = 2
    ∧ (up.alive = true ∧ Tab.look up.pod.pods 0 = some Pod.zero ∧ Pod.zero.bound = true)
    ∧ (let s : State := { up with pwr := { up.pwr with trip := 2, coolSince := some 0 } }
       s.alive = true ∧ s.pwr.trip = 2 ∧ s.pwr.coolSince = some 0)
    ∧ (up.arm.hsk.armed = true ∧ up.arm.suspended (1 % 2) = false)
    ∧ (let s : State := { up with boot := { up.boot with booted := false }, nv := { up.nv with fwActive := ⟨0, 0, 0⟩ } }
       s.alive = true ∧ s.pwr.trip = 0 ∧ s.boot.modReady = true ∧ s.boot.booted = false ∧ s.safe = false
        ∧ s.nv.fwActive.slot = 0 ∧ s.nv.fwPrev.slot = 0) := by decide +kernel

/-- A slot image of SVN 0 stands in slot 1: a header, a key and a signature of ones, and no firmware. -/
def base : State :=
  let head : List Byte := ascii "GFWS" ++ [1#8, 0#8, 0#8, 0#8] ++ leBytes 4 3144 ++ List.replicate 52 0#8
  { up with boot := { up.boot with
      booted := false
      nor := (head.zipIdx.map (fun x => (0x1000000 + x.2, x.1))) ++ (List.range 7).map (fun k => (0x1000000 + 1857 + k, 0#8)) } }

@[irreducible] def img : List Byte := base.norSlot 1
def imgInfo : FwInfo := ⟨leAt img 5 1, leAt img 6 1, leAt img 8 4, leAt img 12 4, shake512 (slice img 0 (leAt img 8 4 - 1280))⟩

/-- FW_ACTIVE names the slot, and its signer is every vendor's. -/
def readyFor (o : OtpState) (n : NvState) : State := { base with otp := o, nv := n }
def vendorOtp : OtpState := { up.otp with vendor := List.replicate 4 (shake512 (slice img 64 1793)) }
def slotNv : NvState := { up.nv with fwActive := ⟨1, 0, 0⟩, fwDigest := List.replicate 4 imgInfo.digest }
def ready : State := readyFor vendorOtp slotNv
def booting : State := { ready.fresh with boot := { ready.boot with booted := true } }
def taken : State := booting.modSgn (fun g => { g with latch := some (imgInfo.digest, imgInfo.cls, imgInfo.slot) })

theorem norRd_of_nor (s t : State) (h : t.boot.nor = s.boot.nor) (n off : Nat) : t.norRd off n = s.norRd off n := by
  induction n generalizing off with
  | zero => rfl
  | succ n ih => simp only [State.norRd, State.norByte, h, ih]

theorem norSlot_of_nor (s t : State) (h : t.boot.nor = s.boot.nor) (k : Nat) : t.norSlot k = s.norSlot k := by
  simp only [State.norSlot, norRd_of_nor s t h]

theorem img_there : booting.norSlot 1 = img := by
  rw [img]; exact norSlot_of_nor base booting rfl 1

theorem img_wellformed : slice img 0 4 = ascii "GFWS" ∧ leAt img 4 1 = 1 ∧ leAt img 5 1 ≤ 1 ∧ leAt img 6 1 ≤ 3 ∧ leAt img 7 1 = 0
    ∧ leAt img 8 4 % 8 = 0 ∧ 3144 ≤ leAt img 8 4 ∧ leAt img 8 4 ≤ 12582912 ∧ allZero (slice img 24 40) ∧ allZero (slice img 1857 7) := by
  decide +kernel

theorem slot_parses (b : List Byte) (h : slice b 0 4 = ascii "GFWS" ∧ leAt b 4 1 = 1 ∧ leAt b 5 1 ≤ 1 ∧ leAt b 6 1 ≤ 3 ∧ leAt b 7 1 = 0
    ∧ leAt b 8 4 % 8 = 0 ∧ 3144 ≤ leAt b 8 4 ∧ leAt b 8 4 ≤ 12582912 ∧ allZero (slice b 24 40) ∧ allZero (slice b 1857 7)) :
    fwInfo b = some ⟨leAt b 5 1, leAt b 6 1, leAt b 8 4, leAt b 12 4, shake512 (slice b 0 (leAt b 8 4 - 1280))⟩ := if_pos h

theorem img_parses : fwInfo img = some imgInfo := slot_parses img img_wellformed

theorem img_fields : imgInfo.cls = 0 ∧ imgInfo.slot = 0 ∧ imgInfo.svn = 0 := by decide +kernel

theorem vendor_ok (o : OtpState) (h : o.vendor = List.replicate 4 (shake512 (slice img 64 1793))) (h1 : o.usable 0 0 = true) :
    o.signerOk 0 0 (slice img 64 1793) = true := by
  simp [OtpState.signerOk, OtpState.slot, h, h1]

theorem signed_if (o : OtpState) (b : List Byte) (f : FwInfo)
    (h : Config.falconVerify (slice b 64 1793) f.digest (slice b (f.len - 1280) 1280) = true)
    (v : o.signerOk f.cls f.slot (slice b 64 1793) = true) : o.fwSigned b f = true := by
  simp [OtpState.fwSigned, h, v]

theorem digest_zero (n : NvState) (d : List Byte) (k v : Nat) (h : n.fwDigest = List.replicate 4 d) : n.digestOf ⟨k, 0, v⟩ = d := by
  simp [NvState.digestOf, h]

/-- A slot that parses, whose signature and signer verify and whose word matches, is taken. -/
theorem slot_taken (s : State) (f : FwWord) (i : FwInfo) (rest : List (FwWord × Bool × NorRead)) (h0 : f.slot ≠ 0)
    (h1 : fwInfo (s.norSlot f.slot) = some i) (h2 : s.otp.fwSigned (s.norSlot f.slot) i = true)
    (h3 : s.nv.svnFloor ≤ i.svn ∧ i.digest = s.nv.digestOf f ∧ i.svn = f.svn) :
    s.trySlots ((f, false, .ok) :: rest)
      = (some (f, false, i), s.modSgn (fun g => { g with latch := some (i.digest, i.cls, i.slot) })) := by
  have e : s.slotVerifies f .ok = (some i, s.modSgn (fun g => { g with latch := some (i.digest, i.cls, i.slot) })) := by
    simp only [State.slotVerifies, if_true, h1, State.fwVerify, h2, true_and]
    exact congrArg (fun x => (x, _)) (if_pos h3)
  simp only [State.trySlots, if_neg h0, Bool.false_eq_true, if_false, e]

/-- Whether a signature verifies is the part's, so the statement's slot that starts is there for a signature that does. -/
theorem witness_StartsAndDeviceResetsComplete_slot
    (h : Config.falconVerify (slice img 64 1793) imgInfo.digest (slice img (imgInfo.len - 1280) 1280) = true) :
    (ready.alive = true ∧ ready.pwr.trip = 0 ∧ ready.boot.modReady = true ∧ ready.boot.booted = false
      ∧ ready.fld HSK_HB_STAT_EXPIRIES < ready.fld HSK_HB_CFG_FALLBACK)
    ∧ State.trySlots booting [(⟨1, 0, 0⟩, false, .ok), (⟨0, 0, 0⟩, true, .ok)] = (some (⟨1, 0, 0⟩, false, imgInfo), taken)
    ∧ (taken.safe = false ∧ taken.nv.archCount < taken.archiveCap ∧ taken.nv.fullEpoch ≠ some taken.nv.epoch
      ∧ ready.nv.fwActive = ⟨1, 0, 0⟩ ∧ ready.nv.fwPrev = ⟨0, 0, 0⟩) := by
  refine ⟨by decide +kernel, ?_, by decide +kernel⟩
  refine slot_taken booting ⟨1, 0, 0⟩ imgInfo _ (by decide) ?_ ?_ ⟨?_, ?_, ?_⟩
  · rw [img_there]; exact img_parses
  · rw [img_there]
    exact signed_if booting.otp img imgInfo h (by rw [img_fields.1, img_fields.2.1]; exact vendor_ok _ rfl (by decide +kernel))
  · exact Nat.zero_le _
  · exact (digest_zero booting.nv imgInfo.digest 1 0 rfl).symm
  · exact img_fields.2.2

/-! ### Controllers, ports and the husk -/

theorem witness_ControllerAndPortResetsComplete :
    (Tab.look up.pod.pods 0 = some Pod.zero ∧ Pod.zero.bound = true ∧ Pod.zero.state ≠ 4 ∧ bit (up.ctrl 0).cc 0 = false
      ∧ bits (2 ^ 32 - 1 - 0xC000) 15 14 = 0 ∧ 2 ^ 32 - 1 - 0xC000 < 2 ^ 32)
    ∧ (Tab.look hosts.pod.pods 0 = some Pod.zero ∧ bit (hosts.ctrl 0).cc 0 = true
      ∧ hosts.boot.resets.any (fun r => hosts.scopeHolds r.kind r.subject 6 0 || (r.kind ≤ 5 && r.pods.contains 0)) = false
      ∧ hosts.host.fwAct = none ∧ hosts.host.selfTest.run ≠ some 1)
    ∧ ((hosts.ctrl 0).shst = 0 ∧ bits (hosts.ctrl 0).cc 15 14 ≠ 1 ∧ bits (hosts.ctrl 0).cc 15 14 ≠ 2)
    ∧ (up.boot.perst.contains 0 = false ∧ up.boot.modReady = true ∧ up.portOn 0 = true
      ∧ up.boot.resets.any (fun r => up.scopeHolds r.kind r.subject 4 0) = false ∧ up.host.fwAct = none
      ∧ up.tsk.progs.all (fun kv => !kv.2.waived) = true)
    ∧ (let s : State := { up with boot := { up.boot with modReady := false } }
       s.boot.perst.contains 1 = false ∧ s.boot.modReady = false)
    ∧ (up.portOn 0 = true ∧ up.boot.modReady = true ∧ up.boot.resets.any (fun r => up.scopeHolds r.kind r.subject 5 0) = false)
    ∧ (let s : State := { up with boot := { up.boot with resets := [⟨4, 0, [0], []⟩] } }
       s.boot.resets.find? (fun (r : ResetRun) => r.kind = 4 && r.subject = 0 && 4 ≤ r.kind) = some ⟨4, 0, [0], []⟩
        ∧ s.resetDurable ⟨4, 0, [0], []⟩ = true) := by decide +kernel

theorem witness_HuskCommandsComplete :
    (1 < 2 ∧ up.arm.grants ⟨3, 0⟩ (HSK_HB.key 1 0) true ∧ up.arm.hsk.armed = true
      ∧ 0xFFFE0001 % 65536 = ((up.arm.pairOf 1).last + 1) % 65536 ∧ 0xFFFE0001 / 65536 % 65536 = 65535 - 0xFFFE0001 % 65536
      ∧ ¬ (0xFFFE0002 % 65536 = ((up.arm.pairOf 1).last + 1) % 65536 ∧ 0xFFFE0002 / 65536 % 65536 = 65535 - 0xFFFE0002 % 65536))
    ∧ (up.arm.suspended 1 = false ∧ (up.arm.pairOf 1).halfSeen = false)
    ∧ up.hsk.debugLevel = 0
    ∧ (let s : State := { set [(HSK_ACC_W0.key REC_CTRL.win 31, 0x90FEFE00), (HSK_ACC_W0.key REC_CTRL.win 31 + 12, 0xFF)] up with hsk := { up.hsk with debugLevel := 1 } }
       s.hsk.debugLevel ≠ 0 ∧ coreCount s.part - 1 < coreCount s.part ∧ s.grants debugReq (REC_CTRL.key 0 0) false)
    ∧ (up.testPort = true ∧ (State.reset.testPort = false) ∧ up.boot.pins.bscanEnN = true)
    ∧ (let s : State := { up with boot := { up.boot with pins := { up.boot.pins with bscanEnN := false } } }
       s.testPort = true ∧ s.boot.pins.bscanEnN = false) := by decide +kernel

/-! ### Trust -/

/-- An admin command of pod 0. -/
def adm (cdw10 cdw11 cdw12 cdw13 : Nat) (data : List Byte) : HostCmd := ⟨0, 0, 7, 0, cdw10, cdw11, cdw12, cdw13, 0, 0, data, .ok⟩

/-- A request block that asks for an operation stands in shared SRAM. -/
def block (op : Nat) : State := put sram (leBytes 4 op) up
def request : SgnReq := ⟨sram, 0, 0, 1, 0, 0, 0, 0, 0, [], []⟩
def signer (w : SgnWaiter) : State :=
  { up with sgn := { up.sgn with running := 3, curr := some (request, w), idKey := true } }
def healthy : State := set [(KEY_RNG_STAT.key 0 0, 0xFFFFFFFF)] hosts

theorem witness_SigningCommandsComplete :
    ((Instr.sgnVerifySlot fw sram, 3) ∈ [(Instr.sgnSign fw sram, 1), (.sgnVerify fw sram, 2), (.sgnVerifySlot fw sram, 3)]
      ∧ (block 3).grants fw (SGN_SUBMIT_HI.key 0 0) true
      ∧ (block 3).fresh.load ⟨0x52, 0⟩ (sram / 64 * 64) 128 = (.ok, ((block 3).fresh.load ⟨0x52, 0⟩ (sram / 64 * 64) 128).2)
      ∧ leAt ((block 3).fresh.load ⟨0x52, 0⟩ (sram / 64 * 64) 128).2.1 0 1 = 3
      ∧ ((block 3).fresh.load ⟨0x52, 0⟩ (sram / 64 * 64) 128).2.2.sgn.queue.length < 16)
    ∧ (let s := (block 1).modSgn (fun g => { g with queue := List.replicate 16 (request, .none) })
      s.grants fw (SGN_SUBMIT_HI.key 0 0) true
        ∧ s.fresh.load ⟨0x52, 0⟩ (sram / 64 * 64) 128 = (.ok, (s.fresh.load ⟨0x52, 0⟩ (sram / 64 * 64) 128).2)
        ∧ leAt (s.fresh.load ⟨0x52, 0⟩ (sram / 64 * 64) 128).2.1 0 1 = 1
        ∧ 16 ≤ (s.fresh.load ⟨0x52, 0⟩ (sram / 64 * 64) 128).2.2.sgn.queue.length)
    ∧ ((block 4).grants fw (SGN_SUBMIT_HI.key 0 0) true
      ∧ (block 4).fresh.load ⟨0x52, 0⟩ (sram / 64 * 64) 128 = (.ok, ((block 4).fresh.load ⟨0x52, 0⟩ (sram / 64 * 64) 128).2)
      ∧ leAt ((block 4).fresh.load ⟨0x52, 0⟩ (sram / 64 * 64) 128).2.1 0 1 = 4
      ∧ ((block 4).fresh.load ⟨0x52, 0⟩ (sram / 64 * 64) 128).2.2.sgn.tokenReq = none)
    ∧ ((signer .none).sgn.running = 3 ∧ (signer .none).sgn.curr = some (request, .none) ∧ request.op = 1
      ∧ (signer .none).sgn.idKey = true)
    ∧ ((signer (.quote ⟨0, 0, 7⟩ [])).sgn.running = 3 ∧ (signer (.quote ⟨0, 0, 7⟩ [])).sgn.curr = some (request, .quote ⟨0, 0, 7⟩ [])
      ∧ (signer (.quote ⟨0, 0, 7⟩ [])).sgn.idKey = true)
    ∧ (up.fld SGN_STAT_IDKEY = 0 ∧ up.boot.pins.bscanEnN = true)
    ∧ (hosts.admits (adm 0 0 0 0 []) anyPod ∧ (adm 0 0 0 0 []).xfer = .ok ∧ hosts.fld SGN_STAT_IDKEY ≠ 2
      ∧ (hosts.setFld SGN_STAT_IDKEY 2).admits (adm 0 0 0 0 []) anyPod ∧ (hosts.setFld SGN_STAT_IDKEY 2).fld SGN_STAT_IDKEY = 2)
    ∧ (healthy.admits (adm 0 0 0 0 []) ⟨true, false, false, false⟩ ∧ healthy.rngOk = true)
    ∧ (hosts.sgn.tokenReq = none ∧ hosts.sgn.heldTokens = [] ∧ hosts.ldg.run = none ∧ hosts.ldg.wait = []) := by and_intros <;> first | decide +kernel | (refine pair_ok ?_; decide +kernel)

/-- Context c is open for SHAKE256 to a management core. -/
def ctxOf (alg state : Nat) : DigCtx :=
  { state := state, alg := alg, cause := 0, owner := 0, pod := 0, outLen := 0, keyLen := 0, custLen := 0, prefixBytes := [],
    sponge := 0, buf := [], final := false, out := [], exp := [], dataLo := 0, lastLo := 0, lastHi := 0, srcLo := 0,
    srcHi := 0, srcLeft := 0, srcAt := 0, lastWrite := 0, clearedAt := 0 }
def digesting (c : Nat) (x : DigCtx) : State := { up with dig := { up.dig with ctx := [(c, x)] } }
def reading : DigCtx := { ctxOf 3 1 with srcLeft := 64, srcAt := sram }
def lost : DigCtx := { ctxOf 3 1 with srcLeft := 64, srcAt := 0xD000000000 }
def fullBuf : DigCtx := { ctxOf 1 1 with buf := List.replicate 200 0#8 }

theorem witness_DigestCommandsComplete :
    (up.grants fw (DIG_OPEN.key 0 0) true ∧ digOpenOk (3 * 2 ^ 28 + 64 * 2 ^ 21) = true ∧ Tab.lowestFree up.dig.ctx 16 = some 0
      ∧ (let s : State := { up with dig := { up.dig with ctx := (List.range 16).map (fun c => (c, ctxOf 1 1)) } }
        s.grants fw (DIG_OPEN.key 0 0) true ∧ Tab.lowestFree s.dig.ctx 16 = none))
    ∧ (let s := digesting 15 (ctxOf 1 1)
      15 < 16 ∧ Tab.look s.dig.ctx 15 = some (ctxOf 1 1) ∧ (ctxOf 1 1).state = 1 ∧ s.grants fw (DIG_CTX_DATA_HI.key 15 0) true
        ∧ (ctxOf 1 1).buf.length < 2 * digRate (ctxOf 1 1).alg ∧ s.grants fw (DIG_CTX_LAST_HI.key 15 0) true
        ∧ s.grants fw (DIG_CTX_FINAL.key 15 0) true ∧ (ctxOf 1 1).alg ≠ 4
        ∧ (bit 0x80000000 31 = true ∧ bits 0x80000000 3 0 = 0) ∧ (bit 8 31 = false ∧ 1 ≤ bits 8 3 0 ∧ bits 8 3 0 ≤ 8)
        ∧ (bit 9 31 = false ∧ 8 < bits 9 3 0) ∧ s.grants fw (DIG_CTX_SRC_LEN.key 15 0) true ∧ 64 % 8 = 0 ∧ (ctxOf 1 1).srcLeft = 0
        ∧ s.grants fw (DIG_CTX_CLOSE.key 15 0) true)
    ∧ (let s := digesting 15 reading
      Tab.look s.dig.ctx 15 = some reading ∧ reading.state = 1 ∧ reading.srcLeft ≠ 0 ∧ reading.buf.length < 2 * digRate reading.alg
        ∧ s.fresh.load ⟨0x51, 0⟩ sram (min 64 (64 - sram % 64)) = (.ok, (s.fresh.load ⟨0x51, 0⟩ sram (min 64 (64 - sram % 64))).2)
        ∧ Tab.look (s.fresh.load ⟨0x51, 0⟩ sram (min 64 (64 - sram % 64))).2.2.dig.ctx 15 = some reading)
    ∧ (let s := digesting 0 lost
      Tab.look s.dig.ctx 0 = some lost ∧ lost.state = 1 ∧ lost.srcLeft ≠ 0
        ∧ (s.fresh.load ⟨0x51, 0⟩ 0xD000000000 (min 64 (64 - 0xD000000000 % 64))).1 ≠ .ok)
    ∧ (digesting 3 fullBuf).digNext = some 3
    ∧ (let s := digesting 15 (ctxOf 1 3)
      s.grants fw (DIG_CTX_CMP.key 15 0) false ∧ Tab.look s.dig.ctx 15 = some (ctxOf 1 3) ∧ (ctxOf 1 3).state = 3)
    ∧ ((ctxOf 1 1).isOpen = true ∧ (ctxOf 1 4).state = 4 ∧ Tab.look (digesting 15 (ctxOf 1 4)).dig.ctx 15 = some (ctxOf 1 4)) := by
  and_intros <;> first | decide +kernel | (refine pair_ok ?_; decide +kernel)

def entry (why : AppendFor) : AppendRun :=
  ⟨{ kind := 4, flags := 0, index := 1, time := 0, boot := 0, missed := 0, prevHash := [], body := [], sig := [] }, false, why, true⟩
def committing (why : AppendFor) : State := { up with ldg := { up.ldg with run := some (entry why) } }
/-- Less of the L11 reserve is left than one write of the LMC takes. -/
def unpermitted : State := { up with pwr := { up.pwr with reserve := 15 } }
/-- The body of an append lies in shared SRAM. -/
def appends : State := { up with ldg := { up.ldg with appendHi := [(0, 0xE0)] } }
/-- A slot has been verified. -/
def verified : State := up.modSgn (fun g => { g with latch := some (List.replicate 64 1#8, 0, 0) })
/-- As many appends wait as the ring has positions. -/
def crowded : State := verified.modLdg (fun l => { l with wait := List.replicate 4096 (1, [], .boot) })
def genesis : LedgerEntry :=
  { kind := 5, flags := 0, index := 0, time := 0, boot := 0, missed := 0, prevHash := List.replicate 64 0#8, body := [],
    sig := List.replicate 1280 0#8 }
/-- A copy of the genesis entry lies in shared SRAM: its bytes from 200 on are zero. -/
def copied : State := put sram ((up.entryBytes genesis).take 200) (up.modNv (fun n => { n with ring := [(0, genesis)] }))

theorem witness_LedgerCommandsComplete :
    (appends.grants fw (LDG_APPEND_CTRL.key 0 0) true ∧ (bits (5 * 2 ^ 24 + 2688) 31 24 = 4 ∨ bits (5 * 2 ^ 24 + 2688) 31 24 = 5)
      ∧ bits (5 * 2 ^ 24 + 2688) 11 0 ≤ 2688 ∧ 64 < appends.ringRoom ∧ appends.fwPending < appends.nv.credits
      ∧ (appends.fresh.load ⟨0x50, 0⟩ sram 2688).1 = .ok
      ∧ Tab.lookD appends.ldg.appendLo 0 0 + Tab.lookD appends.ldg.appendHi 0 0 * 2 ^ 32 = sram
      ∧ (appends.fresh.load ⟨0x50, 0⟩ sram 2688).2.2.ldg.run = none
      ∧ (appends.fresh.load ⟨0x50, 0⟩ sram 2688).2.2.fld SGN_STAT_IDKEY ≠ 2)
    ∧ (let s : State := { appends with ldg := { appends.ldg with run := some (entry .boot) } }
      s.grants fw (LDG_APPEND_CTRL.key 0 0) true ∧ 64 < s.ringRoom ∧ s.fwPending < s.nv.credits
        ∧ s.fresh.load ⟨0x50, 0⟩ sram 0 = (.ok, (s.fresh.load ⟨0x50, 0⟩ sram 0).2) ∧ (s.fresh.load ⟨0x50, 0⟩ sram 0).2.2.ldg.run ≠ none)
    ∧ (let s := up.modNv (fun n => { n with credits := 0 })
      s.grants fw (LDG_APPEND_CTRL.key 0 0) true ∧ 64 < s.ringRoom ∧ s.nv.credits ≤ s.fwPending)
    ∧ ((committing (.firmware 3)).ldg.run = some (entry (.firmware 3)) ∧ (entry (.firmware 3)).signed = true
      ∧ (committing (.firmware 3)).ldg.wait = [] ∧ (committing (.firmware 3)).lmcPermit = true ∧ unpermitted.lmcPermit = false)
    ∧ ((committing (.activate 2 3 1 [] none false)).ldg.run = some (entry (.activate 2 3 1 [] none false))
      ∧ (committing (.activate 2 3 1 [] none false)).lmcPermit = true ∧ 3 < (committing (.activate 2 3 1 [] none false)).nv.fwDigest.length)
    ∧ (verified.grants fw (LDG_ACTIVATE.key 0 0) true ∧ verified.activateOk (20 % 8) (bits 20 5 4) = some (List.replicate 64 1#8)
      ∧ verified.ringRoom ≠ 0 ∧ verified.ldg.run = none
      ∧ crowded.grants fw (LDG_ACTIVATE.key 0 0) true ∧ crowded.activateOk (20 % 8) (bits 20 5 4) = some (List.replicate 64 1#8))
    ∧ (copied.grants fw (LDG_ARCHIVED_ACK_HI.key 0 0) true ∧ copied.nv.archCount < copied.archiveCap
      ∧ copied.ringEntry copied.nv.archA = some genesis
      ∧ (copied.fresh.load ⟨0x50, 0⟩ sram 4096).1 = .ok ∧ (copied.fresh.load ⟨0x50, 0⟩ (sram + 4096) 4096).1 = .ok
      ∧ (copied.fresh.load ⟨0x50, 0⟩ sram 4096).2.2.otp.deviceId = copied.otp.deviceId)
    ∧ hosts.boot.bootDone = true
    ∧ (hosts.admits (adm 0 0 1 0 []) ⟨true, false, false, false⟩ ∧ (adm 0 0 1 0 []).cdw13 = 0 ∧ (hosts.ringRun 0 1).isSome = true
      ∧ hosts.admits (adm 1 0 256 0 []) ⟨true, false, false, false⟩ ∧ hosts.ringRun 1 256 = none)
    ∧ (hosts.admits (adm 0 0 0 0 []) pod0Media ∧ hosts.ftl.legacy = false
      ∧ ([⟨8192, 1, 0⟩] : List LegacyNs).any (fun x => x.nsid = 0 || 8192 < x.nsid || (hosts.nsOf x.nsid).isSome) = false) := by
  and_intros <;> first | decide +kernel | (refine pair_ok ?_; decide +kernel)

theorem crowded_room : crowded.ringRoom = 0 := by
  have h : crowded.ldg.wait.length = 4096 := List.length_replicate
  have h2 : crowded.ringFree ≤ 4096 := Nat.sub_le 4096 _
  unfold State.ringRoom
  omega

theorem by_quarters (a b : List Byte) (h0 : a.take 1024 = b.take 1024) (h1 : (a.drop 1024).take 1024 = (b.drop 1024).take 1024)
    (h2 : (a.drop 2048).take 1024 = (b.drop 2048).take 1024) (h3 : a.drop 3072 = b.drop 3072) : a = b := by
  have e (l : List Byte) : l = l.take 1024 ++ ((l.drop 1024).take 1024 ++ ((l.drop 2048).take 1024 ++ l.drop 3072)) := by
    have d1 : l.drop 2048 = (l.drop 1024).drop 1024 := by rw [List.drop_drop]
    have d2 : l.drop 3072 = (l.drop 2048).drop 1024 := by rw [List.drop_drop]
    rw [d2, List.take_append_drop, d1, List.take_append_drop, List.take_append_drop]
  rw [e a, e b, h0, h1, h2, h3]

/-- The copy hashes to the chain hash of the entry it is a copy of. -/
theorem witness_LedgerCommandsComplete_copy :
    shake512 (copied.fresh.load ⟨0x50, 0⟩ sram 4096).2.1 = copied.chainHash genesis :=
  congrArg shake512 (by_quarters _ _ (by decide +kernel) (by decide +kernel) (by decide +kernel) (by decide +kernel))

/-- A host command holds a permit for an operation on the last slot. -/
def permits (op : Nat) : State := { up with hsk := { up.hsk with permits := [(op, 8192, ⟨0, 0, 7⟩)] } }
/-- A key record stands in a slot. -/
def hasKey (k : Nat) : State := up.modNv (fun n => { n with keys := [(k, ⟨some ⟨1, 1, true⟩, none, 0⟩)] })
def keyOp (op : Nat) : KeyRun := ⟨op, 8192, 0, none⟩
def making : State := { healthy with sgn := { up.sgn with mediaRoot := true } }

theorem witness_KeyCommandsComplete :
    (8192 ≤ 8192 ∧ up.grants fw (KEY_NS_CMD.key 0 0) true ∧ Tab.has up.nv.keys 8192 = false ∧ up.ftl.cap = none
      ∧ (hasKey 8192).grants fw (KEY_NS_CMD.key 0 0) true ∧ Tab.has (hasKey 8192).nv.keys 8192 = true
      ∧ ({ up.ftl with cap := some 1 } : FtlState).cap.isSome = true ∧ (permits 2).grants fw (KEY_NS_CMD.key 0 0) true ∧ (permits 2).permitted 2 8192 = true
      ∧ (permits 3).grants fw (KEY_NS_CMD.key 0 0) true ∧ (permits 3).permitted 3 8192 = true ∧ up.permitted 3 8192 = false)
    ∧ ((permits 4).grants fw (KEY_NS_CMD.key 0 0) true ∧ (permits 4).permitted 4 0 = true)
    ∧ ((keyOp 3).cmd = none ∧ (keyOp 3).op = 3 ∧ (keyOp 1).op ≠ 3 ∧ making.canMakeKeys = true ∧ up.canMakeKeys = false
      ∧ making.key.keyGen.reqs < 2 ^ 20)
    ∧ (let s : State := { making with key := { making.key with eraseAll := some 0 } }
       s.key.eraseAll = some 0 ∧ s.canMakeKeys = true)
    ∧ (up.grants fw (KEY_RNG_DATA.key 0 0) false ∧ healthy.grants fw (KEY_RNG_DATA.key 0 0) false ∧ healthy.rngOk = true ∧ up.rngOk = false
      ∧ healthy.key.general.reqs < 2 ^ 20 ∧ 2 ^ 20 ≤ ({ healthy.key with general := ⟨0, 2 ^ 20⟩ } : KeyState).general.reqs)
    ∧ (healthCause false [] = none ∧ healthCause false (List.replicate 26 true) = some 1) := by and_intros <;> first | decide +kernel | (refine pair_ok ?_; decide +kernel)

/-! ### Host commands -/

/-- A read of the largest size from the start of a log page. -/
def wide : HostCmd := adm 0xFFFF0000 7 0 0 []

theorem witness_FeatureCommandsComplete :
    (hosts.admits (adm 1 0x00180000 0 0 []) ⟨false, true, false, false⟩ ∧ bit (adm 1 0x00180000 0 0 []).cdw10 31 = false
      ∧ bits 0x00180000 19 16 ≤ 8 ∧ bits 0x00180000 21 20 = 1 ∧ bits 0x00080000 19 16 ≤ 8 ∧ bits 0x00080000 21 20 = 0
      ∧ 0x00180000 % 2 ^ 16 ≠ 0xFFFF ∧ 0x00180000 / 2 ^ 16 ≠ 0xFFFF ∧ (2 ^ 16 + 2047) % 2 ^ 16 < hosts.vectors 0)
    ∧ (hosts.admits (adm 0x0E 0 0 0 []) anyPod ∧ (adm 0x0E 0 0 0 []).pod = 0 ∧ (adm 0x0E 0 0 0 []).xfer = .ok)
    ∧ (hosts.admits (adm 0x04 0x00180000 0 0 []) anyPod ∧ featureIds.contains (0x04 % 256) = true ∧ bits 0x04 10 8 = 0
      ∧ (0x04 % 256 = 0x04 → bits 0x00180000 19 16 ≤ 8 ∧ bits 0x00180000 21 20 ≤ 1) ∧ featureIds.contains (0x0E % 256) = true
      ∧ bits 0x0E 10 8 = 0)
    ∧ (hosts.admits (adm 0x03 0 0 0 []) ⟨false, true, false, false⟩ ∧ featureIds.contains (0x03 % 256) = false
      ∧ featureIds.contains (0x80000001 % 256) = true ∧ bit 0x80000001 31 = true) := by
  and_intros <;> first | decide +kernel | (refine pair_ok ?_; decide +kernel)

theorem witness_LogPagesAndIdentifyAnswer :
    (hosts.admits wide anyPod ∧ wide.xfer = .ok ∧ wide.pod = 0
      ∧ 4 * (wide.cdw10 / 2 ^ 16 + wide.cdw11 % 2 ^ 16 * 2 ^ 16 + 1) = 2097152 ∧ wide.cdw12 + wide.cdw13 * 2 ^ 32 = 0)
    ∧ (hosts.admits (adm 0x01 0 0 0 []) anyPod ∧ (0x01 % 256 = 0x01 ∧ 0x02 % 256 = 0x02) ∧ hosts.nsOf (adm 0 0 0 0 []).nsid = none)
    ∧ (let n : Ns := ⟨1, 0, 0, false, false, 0, false, false, 0, [0], 0, false⟩
       let s : State := { hosts with host := { hosts.host with ns := [(8192, n)] } }
       let c : HostCmd := { adm 0 0 0 0 [] with nsid := 8192 }
       s.admits c anyPod ∧ s.safe = false ∧ s.hostSees 8192 = true ∧ s.nsOf 8192 = some n ∧ c.pod ∈ n.pods)
    ∧ (0x04 % 256 ∉ [0x01, 0x02, 0x03, 0x05, 0x06, 0x07, 0x81, 0xC2, 0xC3])
    ∧ (hosts.takes (adm 0 0 0 0 []) = true
      ∧ hosts.host.cqes.all (fun x => !(x.pod = 0 && x.qid = 0 && x.cid = 7)) = true) := by and_intros <;> first | decide +kernel | (refine pair_ok ?_; decide +kernel)

/-- Work waits in both queues of pod 0. -/
def posting : State :=
  hosts.setCtrl 0 { hosts.ctrl 0 with
    sqs := [(0, ⟨32, 0x1000, 0, 0, 0, 0⟩), (1, ⟨32, 0x2000, 1, 0, 0, 1⟩)]
    cqs := [(0, ⟨32, 0x3000, 0, true, 0, 0, true⟩), (1, ⟨32, 0x4000, 1, true, 0, 31, true⟩), (2, ⟨2, 0x5000, 1, true, 0, 0, true⟩)] }
def waiting : OutCmd :=
  { pod := 0, qid := 1, cid := 9, cqid := 1, bytes := 0, stage := .fetched, io := none, need := [], got := [], arrived := false,
    held := none, abort := false, mute := false }

theorem witness_HostLinkAndQueueCommandsComplete :
    (hosts.portOn 0 = true ∧ hosts.boot.modReady = true ∧ 0 ∉ hosts.boot.perst ∧ 7 < 8 ∧ 31 < 32 ∧ 15 < 16)
    ∧ (let s := hosts.setFld HIF_LINK_STAT_STATE 2 1
       1 < 2 ∧ s.fld HIF_LINK_STAT_STATE 1 = 2)
    ∧ (posting.windowOpen 0 = true ∧ (posting.ctrl 0).sq 1 = some ⟨32, 0x2000, 1, 0, 0, 1⟩
      ∧ 31 < 32 ∧ (31 + 32 - 1) % 32 ≤ (0 + 32 - 1 - 1) % 32 ∧ Tab.look (posting.ctrl 0).cqs 1 = some ⟨32, 0x4000, 1, true, 0, 31, true⟩
      ∧ (31 + 32 - 0) % 32 ≤ (31 + 32 - 0) % 32 ∧ (posting.ctrl 0).sq 2 = none ∧ Tab.look (posting.ctrl 0).cqs 3 = none)
    ∧ ((rotate 0 8 posting.fetchable 100000 posting.pod.pods (Tab.keep (fun p _ => posting.fetchable.contains p) posting.host.deficit)
        posting.host.lastPod).1 = some 0 ∧ ((posting.ctrl 0).pick (posting.readyQueues 0)).1 = some 1)
    ∧ (posting.admits (adm (3 + 16383 * 2 ^ 16) (2047 * 2 ^ 16 + 1) 0 0 []) anyPod ∧ posting.safe = false
      ∧ (3 + 16383 * 2 ^ 16) % 2 ^ 16 ≠ 0 ∧ 1 ≤ (3 + 16383 * 2 ^ 16) / 2 ^ 16 ∧ (3 + 16383 * 2 ^ 16) / 2 ^ 16 < 16384
      ∧ bit (2047 * 2 ^ 16 + 1) 0 = true ∧ 3 ≤ posting.queueLimit 0 1 ∧ Tab.has (posting.ctrl 0).cqs 3 = false
      ∧ (2047 * 2 ^ 16 + 1) / 2 ^ 16 < posting.vectors 0 ∧ 2 ≤ posting.queueLimit 0 0 ∧ (posting.ctrl 0).sq 2 = none
      ∧ bit (2 * 2 ^ 16 + 3) 0 = true ∧ (2 * 2 ^ 16 + 3) / 2 ^ 16 ≠ 0 ∧ Tab.has (posting.ctrl 0).cqs ((2 * 2 ^ 16 + 3) / 2 ^ 16) = true
      ∧ bits (2 * 2 ^ 16 + 3) 2 1 ≠ 0)
    ∧ (posting.admits (adm 1 0 0 0 []) ⟨false, true, false, false⟩ ∧ Tab.has (posting.ctrl 0).sqs 1 = true
      ∧ posting.host.out.any (fun o => o.pod = 0 && o.qid = 1) = false ∧ Tab.has (posting.ctrl 0).cqs 2 = true
      ∧ (posting.ctrl 0).sqs.any (fun kv => kv.2.cqid = 2) = false)
    ∧ (let s := posting.modHost (fun h => { h with out := [waiting] })
       let c := adm (1 + 9 * 2 ^ 16) 0 0 0 []
       s.admits c ⟨false, true, false, false⟩ ∧ (s.host.out.filter (fun o => o.pod = 0 && o.abort)).length < 8
        ∧ HostCmdRef c ≠ ⟨0, (1 + 9 * 2 ^ 16) % 2 ^ 16, (1 + 9 * 2 ^ 16) / 2 ^ 16⟩
        ∧ s.outCmd ⟨0, (1 + 9 * 2 ^ 16) % 2 ^ 16, (1 + 9 * 2 ^ 16) / 2 ^ 16⟩ = some waiting ∧ waiting.stage = .fetched ∧ waiting.mute = false
        ∧ (s.host.cqes.any (fun x => x.pod = 0 && x.qid = 1 && x.cid = 9)) = false ∧ s.outCmd ⟨0, 1, 8⟩ = none)
    ∧ ((posting.setCtrl 0 { posting.ctrl 0 with aers := List.replicate 15 1 }).admits (adm 0 0 0 0 []) ⟨false, true, false, false⟩
      ∧ (List.replicate 15 1).length < 16 ∧ (posting.ctrl 0).pendingEv = [])
    ∧ (let f : FlushWait := ⟨none, 0, 1, 0, none⟩
       let s := (posting.setCtrl 0 { posting.ctrl 0 with shst := 1 }).modHost (fun h => { h with flushes := [f] })
       s.host.flushes.find? (fun f => s.flushed f) = some f ∧ f.cmd = none ∧ (s.ctrl f.pod).shst = 1)
    ∧ (let f : FlushWait := ⟨some ⟨0, 1, 9⟩, 0, 1, 0, none⟩
       let s := posting.modHost (fun h => { h with flushes := [f] })
       s.host.flushes.find? (fun f => s.flushed f) = some f) := by and_intros <;> first | decide +kernel | (refine pair_ok ?_; decide +kernel)

/-- Form of creation: one LBA of 512 bytes. -/
def form : List Byte := leBytes 8 1 ++ leBytes 8 1 ++ List.replicate 4080 0#8
def nsOne : Ns := ⟨1, 0, 0, false, false, 0, true, false, 0, [0], 0, false⟩
/-- Namespace 1 is attached to pod 0, and namespace 2 to none. -/
def spaces : State :=
  { posting.modHost (fun h => { h with ns := [(1, nsOne), (2, { nsOne with pods := [] })] }) with
    nv := { posting.nv with keys := [(0, ⟨some ⟨1, 0, true⟩, none, 0⟩), (1, ⟨some ⟨2, 0, true⟩, none, 0⟩)] }
    sgn := { posting.sgn with mediaRoot := true } }
def nsCmd (nsid cdw10 : Nat) (data : List Byte) : HostCmd := ⟨0, 0, 7, nsid, cdw10, 0, 0, 0, 0, 0, data, .ok⟩

/-- Namespace 3 is spread, and this device is its home. -/
def spreadName : List Byte := List.replicate 16 5#8
def release : List Byte := spreadName ++ [2#8] ++ List.replicate 15 0#8
def spreadRec (s : State) : Spread :=
  { nguid := spreadName, k := 1, m := 1, writeMin := 1, members := [s.me], spares := [], coarse := false, size := 1, homeEpoch := 0,
    home := s.me, released := false, version := [], chunkVer := [], prev := [], absent := [], missed := [], whole := [], sync := [],
    rebuild := none, unrec := [] }
def spreadHere : State := { spaces with ask := { spaces.ask with spreads := [(3, spreadRec spaces)] } }
def posted : Cqe := ⟨0, 2, 1, 9, 0, 0, false, 0⟩

theorem witness_NamespaceCommandsComplete :
    (spaces.admits (nsCmd 0 0 form) pod0Media ∧ (nsForm form) = .inr (.inr ⟨0, false, 0, false, false, false⟩)
      ∧ Tab.lowestFree (spaces.host.ns.map (fun kv => (kv.1 - 1, kv.2))) 8192 = some 2 ∧ Tab.has spaces.nv.keys 2 = false
      ∧ spaces.key.general.reqs < 2 ^ 20
      ∧ ({ spaces.begunBy (nsCmd 0 0 form) with key := { spaces.key with general := ⟨spaces.key.general.seed, spaces.key.general.reqs + 1⟩ } } : State).mapFits 3 { nsOne with pods := [], status := 1 } = true)
    ∧ (spaces.admits (nsCmd 1 0 []) pod0Media ∧ 1 ≠ 0xFFFFFFFF ∧ spaces.nsNamed 1 = some nsOne
      ∧ spaces.host.nsOps.any (fun o => o.nsid = 1) = false)
    ∧ (spaces.admits (nsCmd 1 5 []) ⟨false, true, true, true⟩ ∧ 0 ∈ nsOne.pods ∧ 5 < 16384 ∧ 5 % 16 + bits 5 13 12 * 16 ≤ 5
      ∧ bits 5 7 5 ∈ [0, 1, 3] ∧ (bits 5 7 5 ≠ 0 → mdBytes (5 % 16 + bits 5 13 12 * 16) ≠ 0) ∧ nsOne.spread = false
      ∧ (spaces.begunBy (nsCmd 1 5 [])).mapFits 1 { nsOne with format := 5, size := nsOne.size * lbaBytes nsOne.format / lbaBytes 5 } = true)
    ∧ (spreadHere.admits (nsCmd 0 0 release) ⟨true, true, true, true⟩ ∧ Config.askPorts spreadHere.part ≠ 0 ∧ leAt release 16 1 = 2
      ∧ leAt release 17 1 = 0 ∧ leAt release 18 4 = 0 ∧ allZero (slice release 22 10) = true
      ∧ spreadHere.ask.spreads.find? (fun kv => kv.2.nguid = slice release 0 16) = some (3, spreadRec spaces)
      ∧ spreadHere.isHome (spreadRec spaces) = true ∧ spreadHere.host.nsOps.any (fun o => o.nsid = 3) = false)
    ∧ (spaces.admits (nsCmd 2 0 (leBytes 2 1 ++ leBytes 2 0)) ⟨true, true, false, false⟩ ∧ ctrlIds (leBytes 2 1 ++ leBytes 2 0) = [0]
      ∧ (1 ≤ 2047) ∧ spaces.nsNamed 2 = some { nsOne with pods := [] }
      ∧ spaces.attachBad { nsOne with pods := [] } (decide (1 < 1)) 0 = none
      ∧ (∀ p ∈ ctrlIds (leBytes 2 1 ++ leBytes 2 0), spaces.podExists p = true ∧ p ∈ nsOne.pods))
    ∧ (let s := spaces.modHost (fun h => { h with cqes := [posted] })
       s.host.cqes.find? (fun e => e.pod = 0 && e.cqid = 2) = some posted
        ∧ Tab.look (s.ctrl 0).cqs 2 = some ⟨2, 0x5000, 1, true, 0, 0, true⟩ ∧ (⟨2, 0x5000, 1, true, 0, 0, true⟩ : Cq).full = false
        ∧ Tab.look s.pod.pods 0 = some Pod.zero ∧ Pod.zero.bound = true ∧ Pod.zero.state ≠ 4) := by and_intros <;> first | decide +kernel | (refine pair_ok ?_; decide +kernel)

def testing (k : Option Nat) : State := spaces.modHost (fun h => { h with selfTest := ⟨k, []⟩ })
def sanitizing (act phase : Nat) : State := spaces.modNv (fun n => { n with sanitize := ⟨act, phase, false, 0, 0⟩ })

theorem witness_SelfTestAndSanitizeComplete :
    ((testing none).admits (nsCmd 0 0 []) ⟨true, true, true, true⟩ ∧ (testing none).host.selfTest.run = none
      ∧ (testing (some 2)).admits (nsCmd 0 0 []) ⟨true, true, true, true⟩ ∧ (testing (some 2)).host.selfTest.run = some 2
      ∧ (testing (some 2)).admits (nsCmd 0 0 []) pod0Cmd)
    ∧ ((sanitizing 0 0).admits (nsCmd 0 0x3FF []) ⟨true, true, true, false⟩ ∧ (sanitizing 0 0).nv.sanitize.phase ∈ [0, 5]
      ∧ (sanitizing 2 5).admits (nsCmd 0 0x1FF []) ⟨true, true, true, false⟩ ∧ (sanitizing 2 5).nv.sanitize.phase ∈ [0, 5]
      ∧ bit 0x1FF 9 = false ∧ 0x1FF < 1024)
    ∧ ((sanitizing 2 5).admits (nsCmd 0 0 []) ⟨true, true, false, false⟩ ∧ (sanitizing 2 5).nv.sanitize.phase = 5
      ∧ (sanitizing 0 0).nv.sanitize.phase = 0)
    ∧ ((sanitizing 2 1).nv.sanitize.phase = 1 ∧ (sanitizing 2 2).nv.sanitize.phase = 2 ∧ (sanitizing 2 2).key.eraseAll = none
      ∧ (sanitizing 2 2).keyOf 8192 = none
      ∧ (((sanitizing 2 2).modNv (fun n => { n with keys := [(8192, ⟨some ⟨1, 0, true⟩, none, 0⟩)] })).keyOf 8192).isSome = true
      ∧ (sanitizing 2 3).nv.sanitize.phase = 3 ∧ (sanitizing 2 3).sanErased = true ∧ (sanitizing 2 4).nv.sanitize.phase = 4) := by
  and_intros <;> first | decide +kernel | (refine pair_ok ?_; decide +kernel)

/-- The slot image of `base` has been downloaded, a vendor holds its signer's digest, and a self-contained ledger has room. -/
def staged : State :=
  { spaces with
    boot := { spaces.boot with nor := base.boot.nor }
    host := { spaces.host with fwStage := base.boot.nor.map (fun kv => (kv.1 - 0x1000000, kv.2)) }
    nv := { spaces.nv with fwActive := ⟨4, 0, 0⟩ } }
def whole : HostCmd := { adm 1023 (0xBFF000 / 4) 0 0 [] with cid := 7 }
def activating : State :=
  { (verified.modHost (fun h => { h with fwAct := some ⟨⟨0, 0, 7⟩, 2, 3, 0⟩ })) with nv := { verified.nv with fwActive := ⟨1, 0, 0⟩ } }

theorem witness_FirmwareCommandsComplete :
    (spaces.admits whole ⟨true, false, false, true⟩ ∧ dlBad whole 12582912 = false ∧ dlOverlaps whole spaces.host.fwRanges = false
      ∧ dlBad (adm 1023 0 0 0 []) 8388608 = false ∧ dlOverlaps (adm 1023 0 0 0 []) spaces.host.cfgRanges = false)
    ∧ (staged.admits (adm 1 0 0 0 []) ⟨true, false, false, true⟩ ∧ 1 ≤ 1 % 8 ∧ 1 % 8 ≤ 4 ∧ 1 % 8 ≠ staged.nv.fwActive.slot
      ∧ (fwInfo staged.stagedFw).isSome = true ∧ (fwInfo (staged.norSlot 1)).isSome = true ∧ staged.ldg.run = none ∧ staged.ringRoom ≠ 0
      ∧ (fwInfo staged.stagedFw).any (fun f => staged.otp.usable f.cls f.slot) = true
      ∧ (fwInfo (staged.norSlot 1)).any (fun f => staged.otp.usable f.cls f.slot) = true ∧ staged.safe = false)
    ∧ (activating.host.fwAct = some ⟨⟨0, 0, 7⟩, 2, 3, 0⟩ ∧ activating.host.out.any (fun o => activating.fwWaits ⟨⟨0, 0, 7⟩, 2, 3, 0⟩ o) = false
      ∧ activating.activateOk 2 activating.nv.freeDrec = some (List.replicate 64 1#8) ∧ activating.ringRoom ≠ 0 ∧ activating.ldg.run = none)
    ∧ (spaces.admits (adm 0 0 0 0 []) ⟨true, false, false, true⟩) := by and_intros <;> first | decide +kernel | (refine pair_ok ?_; decide +kernel)

/-! ### Management interface, flash, translation and the data path -/

def evt : EvtRec := ⟨1, 1, 1, 0, 0, 0, 0, none, []⟩

theorem witness_ManagementInterfaceAnswers :
    (let s : State := { up with evt := { up.evt with miOn := true, miQ := [evt] } }
     s.miUp = true ∧ s.evt.miOn = true ∧ s.evt.miQ = [evt])
    ∧ (up.miUp = true ∧ (1 = 1 ∧ 2 ≤ 2) ∧ (Tab.look up.pod.pods 0).isSome = true ∧ Tab.has up.pod.pods 0 = true)
    ∧ (1 ≤ 3 ∧ 3 ≤ 3 ∧ 64 ≤ 65535 ∧ 65535 < 65536 ∧ 1 < 2 ∧ up.miConfig 4 = some 0)
    ∧ (up.boot.pins.bscanEnN = true ∧ up.safe = false ∧ 1023 < 1024 ∧ 1 ≤ 31 ∧ 31 ≤ 31)
    ∧ (healthy.miUp = true ∧ healthy.domOn 1 = true ∧ healthy.rngOk = true)
    ∧ (up.sgn.tokenReq = none ∧ up.sgn.heldTokens = [] ∧ up.ldg.run = none ∧ up.ldg.wait = [])
    ∧ (let s : State := { up with boot := { up.boot with pins := { up.boot.pins with miSel := false } } }
       s.miUp = true ∧ s.boot.pins.miSel = false) := by and_intros <;> first | decide +kernel | (refine pair_ok ?_; decide +kernel)

/-- A die of four planes and sixteen blocks. -/
def report (answers : Bool) : DieReport :=
  { die := 63, answers := answers, pageOk := true, iface := 0, bpc := 3, jedecId := 0, pageBytes := 16384, spareBytes := 2048, pages := 12,
    planes := 2, blocks := 16, tR := 1, tProg := 1, tBers := 1, endurance := 60000, offStep := 1, rate := 6, extReported := 0, extPass := 0,
    rdEyeW := 0, wrEyeW := 0, rdEyeH := 0, wrEyeH := 0, vref := 0, temp := 25, bad := [] }
def grp : Group := { Group.free with active := true, mode := 1 }
def die : Lun := { up.lunOf 0 (report true) with status := 1, exclCause := 0, groups := [(31, grp)] }
def opAt (op : Nat) : FlashOp :=
  { addr := sram, master := 0, pod := 0, op := op, flags := 0, group := 31, block := 15, page := 0, frames := 1, planes := 0, bufAddr := sram,
    dest := 0, evFlag := 0, tag := [], at_ := 0, cost := 0, gen := 0, offs := [], dither := none, waitAt := none,
    reserved := false, job := 0 }
/-- The power groups are ON, channel 0 is enabled, and its last die is there. -/
def flashUp (l : Lun) (s : State) : State :=
  let s := set ((List.range 8).map (fun g => (PWR_FPG_STAT.key g 0, 0xFFFFFFFF))) s
  let s := s.setFld PWR_FPG_STAT_STATE 2 0
  let s := s.setFld (FCH_CTRL_ENABLE.chan 0) 1
  { s with flash := { s.flash with luns := [(63, l)] } }
def flash (l : Lun) : State := flashUp l up
/-- A descriptor that asks for a program of the last block's first page. -/
def desc (op : Nat) : List Byte := leBytes 1 op ++ leBytes 1 0 ++ leBytes 1 63 ++ leBytes 1 31 ++ leBytes 4 15 ++ leBytes 2 0 ++ [1#8, 1#8]
def asks (op : Nat) : State := put sram (desc op) (flash die)
def loaded (op : Nat) : BusStatus × List Byte × State := (asks op).fresh.load ⟨0x70, 0⟩ sram 64

theorem witness_FlashOperationsComplete :
    (0 < Config.fchCount (asks 2).part ∧ (asks 2).grants fw ((FCH_SUBMIT_HI.chan 0).key 0 0) true ∧ (loaded 2).1 = .ok
      ∧ leAt (loaded 2).2.1 0 1 = 2 ∧ descMalformed (loaded 2).2.1 = false ∧ leAt (loaded 2).2.1 2 1 = 63
      ∧ (loaded 2).2.2.lunServes 63 = true ∧ (loaded 2).2.2.lun 63 = some die
      ∧ opOutside die (opOfBytes fw sram 0 (loaded 2).2.1) = false ∧ die.queue.length < 32
      ∧ (loaded 2).2.2.programBad (opOfBytes fw sram 0 (loaded 2).2.1) 63 ((loaded 2).2.2.wpAfter 63 15) = none)
    ∧ ((asks 3).grants fw ((FCH_SUBMIT_HI.chan 0).key 0 0) true ∧ (loaded 3).1 = .ok ∧ leAt (loaded 3).2.1 0 1 = 3
      ∧ descMalformed (loaded 3).2.1 = false ∧ (loaded 3).2.2.lunServes 63 = true ∧ (loaded 3).2.2.eraseBad 63 15 = none
      ∧ ({ (loaded 3).2.2 with ftl := { up.ftl with blocks := [(2 ^ 20 * 63 + 15, ⟨6, 0, 0, 0, false, 0, false⟩)] } }).eraseBad 63 15 = some 3)
    ∧ (let l (op : Nat) : Lun := { die with running := some (opAt op) }
       (flash (l 2)).lun 63 = some (l 2) ∧ (l 2).running = some (opAt 2) ∧ (opAt 2).op = 2 ∧ (opAt 2).addr ≠ 0
        ∧ (flash (l 3)).lun 63 = some (l 3) ∧ (flash (l 3)).sanErasing = false ∧ Tab.look (flash (l 3)).ftl.sbs (sbOf 63 15) = none
        ∧ (flash (l 6)).lun 63 = some (l 6) ∧ (opAt 6).op ∈ [3, 4, 5, 6])
    ∧ (let l : Lun := { die with resetting := some (0, 1), queue := [opAt 1] }
       (flash l).lun 63 = some l ∧ l.resetting = some (0, 1) ∧ l.running = none ∧ l.status = 1)
    ∧ (let l : Lun := { die with suspended := some (opAt 3) }
       (flash l).lun 63 = some l ∧ l.suspended = some (opAt 3) ∧ l.running = none)
    ∧ (let s := flash { die with queue := [{ opAt 1 with cost := 10 ^ 9 }] }
       s.waitsCredit 63 = some { opAt 1 with cost := 10 ^ 9 } ∧ (s.lun 63).isSome = true ∧ 63 ∉ Tab.lookD s.flash.reserve (63 / 128) []) := by and_intros <;> first | decide +kernel | (refine pair_ok ?_; decide +kernel)

def decoding : Lun := { die with running := some (opAt 1) }
def listed : State := { flash die with flash := { (flash die).flash with patrol := [(63, 31)], advise := [(63, 31, 2)] } }
/-- GRP_CMD for the last LUN of channel 0: group k, source group 31, a mode of 1. -/
def grpCmd (k : Nat) : Nat := 7 * 2 ^ 8 + 7 * 2 ^ 5 + k * 2 ^ 16 + 31 * 2 ^ 21 + 2 ^ 26

theorem witness_DiscoveryTrackingAndGroupCommandsComplete :
    (0 < Config.fchCount (flash die).part ∧ (flash die).fld PWR_FPG_STAT_STATE 0 = 2 ∧ (∀ d ∈ [report false], d.answers = false))
    ∧ ((flash die).lun 63 = some die ∧ die.status = 1)
    ∧ ((flash decoding).lun 63 = some decoding ∧ decoding.running = some (opAt 1) ∧ (opAt 1).op = 1
      ∧ (decoding.group (opAt 1).group).active = true ∧ 64 ≤ (⟨0, 0, 1, 0, 0, 64, true⟩ : FrameStat).zeros)
    ∧ (die.status = 1 ∧ Tab.look die.groups 31 = some grp ∧ grp.active = true)
    ∧ ((flash die).grants fw (LDP_PATROL_NEXT.key 0 0) false ∧ (flash die).flash.patrol = [] ∧ (flash die).flash.advise = []
      ∧ (flash die).grants fw (LDP_ADVISE_NEXT.key 0 0) false ∧ listed.grants fw (LDP_PATROL_NEXT.key 0 0) false
      ∧ listed.flash.patrol = [(63, 31)] ∧ listed.flash.advise = [(63, 31, 2)])
    ∧ ((flash die).grants fw (LDP_GRP_CMD.key 0 0) true ∧ bits (grpCmd 31) 15 11 = 0
      ∧ 64 * bits (grpCmd 31) 15 11 + 8 * bits (grpCmd 31) 10 8 + bits (grpCmd 31) 7 5 = 63 ∧ bits (grpCmd 31) 20 16 = 31
      ∧ bits (grpCmd 30) 20 16 = 30 ∧ bits (grpCmd 30) 25 21 = 31 ∧ (flash die).flag (FCH_CTRL_ENABLE.chan 0) = true
      ∧ (die.group 30).active = false ∧ (die.group 31).active = true ∧ bits (grpCmd 30) 27 26 ≠ 0
      ∧ (∀ th ∈ List.range 16, 1 ≤ th → -((flash die).fld LDP_TRACK_LIM_OFF_MAX : Int) ≤ (flash die).grpOffset th
          ∧ (flash die).grpOffset th ≤ (flash die).fld LDP_TRACK_LIM_OFF_MAX)) := by and_intros <;> first | decide +kernel | (refine pair_ok ?_; decide +kernel)

def lane : Lane :=
  { sb := 0, slc := true, idx := 0, width := 1, wl := 1, dataFrames := 8, base := 0, sealed := 0, cont := 0, recs := [], curAt := some 0,
    placed := [], lastSeq := 0, heads := [], toProgram := [], closed := false }
def extent (l : Nat) : Extent := ⟨1, l, 8, false, 1, List.replicate 64 1#8, List.replicate 512 0#8⟩
def closedSb : SuperBlock :=
  { state := 1, slc := false, lanes := [63], retired := [], openSeq := 0, openedAt := 0, closedAt := 0, erased := [], reclaimNo := 0, relNo := 0, openNo := 0 }
/-- An entry of 8 grains at place 5. -/
def entryOf (p : Nat) : Nat := p * 2 ^ 13 + 7 * 2 ^ 5 + 2 ^ 4 + 1
def ftlOf (f : FtlState → FtlState) : State := { spaces with ftl := f spaces.ftl }
def mapped : State := ftlOf (fun f => { f with map := [(3, entryOf 5)], media := [(5, extent 3)] })
/-- Block 0 is the victim of LUN 0's stripe set, and place 2^20 is the first of block 1, programmed. -/
def collecting (f : FtlState → FtlState) : State :=
  ftlOf (fun x => f { x with
    sbs := [(0, { closedSb with lanes := [0] })]
    victim := [(0, 0)]
    media := [(5, extent 3)]
    blocks := [(2 ^ 20 * 0 + 1, ⟨1, 12, 0, 0, false, 0, false⟩)] })
def victims : State := ftlOf (fun f => { f with sbs := [(63 * 2 ^ 14 + 15, closedSb)] })

theorem witness_TranslationCommandsComplete :
    (Tab.look (ftlOf (fun f => { f with lanes := [(63, lane)] })).ftl.lanes 63 = some lane ∧ lane.curAt.isSome = true)
    ∧ ((ftlOf (fun f => { f with delta := [⟨0, 0, 0⟩] })).ftl.delta ≠ [])
    ∧ ((ftlOf (fun f => { f with frames := [⟨2 ^ 64 - 1, 0, []⟩] })).ftl.frames = [⟨2 ^ 64 - 1, 0, []⟩] ∧ 2 ^ 64 - 1 < 2 ^ 64)
    ∧ ((ftlOf (fun f => { f with ckptRun := some 9 })).ftl.ckptRun = some 9)
    ∧ (Tab.look mapped.ftl.media (entryPlace (entryOf 5)) = some (extent 3) ∧ mapped.mapEntry 3 = entryOf 5 ∧ (extent 3).laddr = 3
      ∧ entryOf (2 ^ 20) - 1 ≠ 0 ∧ entryGrains (entryOf 5) ≠ 0
      ∧ (mapped.fresh.gcPick (entryLun (entryOf 5) % 64)).gcMayMove (entryOf 5) (entryOf 6) = false
      ∧ (let s := collecting (fun f => { f with map := [(3, entryOf 5)] })
         (s.fresh.gcPick (entryLun (entryOf 5) % 64)).gcMayMove (entryOf 5) (entryOf (2 ^ 20) - 1) = true
          ∧ Tab.look s.ftl.media (entryPlace (entryOf 5)) = some (extent 3) ∧ s.mapEntry 3 = entryOf 5)
      ∧ (let s := collecting id
         (s.fresh.gcPick (entryLun (entryOf 5) % 64)).gcMayMove (entryOf 5) (entryOf (2 ^ 20) - 1) = true
          ∧ Tab.look s.ftl.media (entryPlace (entryOf 5)) = some (extent 3) ∧ s.mapEntry 3 ≠ entryOf 5))
    ∧ (victims.grants fw (FTL_GC_VICTIM.key 0 0) true ∧ bits (3 * 2 ^ 30 + 63 * 2 ^ 14 + 15) 31 30 ≠ 0
      ∧ bits (3 * 2 ^ 30 + 63 * 2 ^ 14 + 15) 19 14 * 2 ^ 14 + bits (3 * 2 ^ 30 + 63 * 2 ^ 14 + 15) 13 0 = 63 * 2 ^ 14 + 15
      ∧ Tab.look victims.ftl.sbs (63 * 2 ^ 14 + 15) = some closedSb ∧ closedSb.state ≠ 0 ∧ victims.ftl.victims.any (fun v => v.1 = 63 * 2 ^ 14 + 15) = false)
    ∧ ((flash die).lunsInUse.Nodup ∧ 63 ∈ (flash die).lunsInUse ∧ die.natives.length < 28 ∧ 4 ≤ 30 ∧ 30 < 32 ∧ (die.group 30).active = false)
    ∧ ({ up with boot := { up.boot with bootDone := false } }.boot.bootDone = false) := by and_intros <;> first | decide +kernel | (refine pair_ok ?_; decide +kernel)

/-- A unit of namespace slot 0 in the write buffer, at pipe 0. -/
def buffered : WEntry :=
  { id := 1, laddr := 0, data := List.replicate 64 1#8, cmd := ⟨0, 1, 9⟩, step := 1, grains := 0, raw := false, body := [], seq := 0, key := 0, resv := 0,
    dead := false, recNo := 0 }
def piped (p : Nat) (x : Pipe) (f : FtlState → FtlState) : State :=
  { ftlOf f with cmp := { spaces.cmp with pipes := [(p, x)] } }
def compressing : State := piped 0 ⟨[1], [], []⟩ (fun f => { f with wbuf := [buffered] })
def readJob (slot : Nat) : ReadJob := ⟨.cmd ⟨0, 1, 9⟩, slot * 2 ^ 40, entryOf 5, 2, false⟩
def expanding (slot : Nat) : State :=
  piped 32 ⟨[1], [], []⟩ (fun f => { f with reads := [(1, readJob slot)], media := [(5, extent (slot * 2 ^ 40))] })
def streamCtx : CmpCtx := ⟨0, 0, 1, 0, 0, 0, 0, [], 0, []⟩
def withCtx (s : State) : State := { s with cmp := { s.cmp with ctxs := [(0, streamCtx)] } }
def jobBlock : List Byte := leBytes 4 0 ++ leBytes 4 0 ++ leBytes 8 (sram + 256) ++ leBytes 8 (sram + 512) ++ leBytes 4 64 ++ leBytes 4 64
def jobs : State := put sram jobBlock (withCtx spaces)
def stream : CmpJob := ⟨sram, 0, 0, 0, 0, sram + 256, sram + 512, 64, 64, 0, 0⟩
def streaming : State := { withCtx spaces with cmp := { (withCtx spaces).cmp with pipes := [(0, ⟨[], [stream], []⟩)] } }

/-- A program over one field that emits nothing. -/
def program : List Byte :=
  let rest : List Byte := List.replicate 24 0#8 ++ [4#8, 0#8, 0#8, 0#8, 31#8, 0#8, 0#8, 0#8]
  [0x47#8, 0x53#8, 0x43#8, 0x50#8, 1#8, 3#8, 0#8, 0#8] ++ List.replicate 8 0#8 ++ [1#8, 0#8, 0#8, 0#8] ++ List.replicate 12 0#8
    ++ leBytes 4 72 ++ leBytes 4 (crc32c rest) ++ rest
def scanBlock : List Byte :=
  leBytes 4 0 ++ leBytes 4 1 ++ leBytes 8 0 ++ leBytes 8 1 ++ leBytes 8 (sram + 256) ++ leBytes 8 (sram + 512) ++ leBytes 4 64
def scans : State := put (sram + 256) program (put sram scanBlock spaces)
def scanLoad : BusStatus × List Byte × State := scans.fresh.load scanReq (sram / 64 * 64) 64
def scanJob : ScanJob :=
  { addr := sram, master := 0, pod := 0, cmd := none, skip := false, nsid := 1, start := 0, count := 1, prog := progOf program, resAddr := sram,
    resLen := 64, evFlag := 0, bloom := [], waiting := false, next := 1, busy := [0], staged := [], used := 0, records := 0, matched := 0,
    malformed := 0, aggs := [], waitRaised := false }
def scanning : State :=
  { spaces with scn := { spaces.scn with jobs := [(1, scanJob)], queue := [(0, [⟨1, 0, some (List.replicate 512 0#8)⟩])] } }
def lockReq : Lock := ⟨1, 0, 0, true, false, ⟨0, 1, 9⟩⟩

theorem witness_PipelineAndScanCommandsComplete :
    ((compressing.pipe 0).units = [1] ∧ 0 < Config.cmpPipes compressing.part ∧ compressing.domOn (28 + 0 / 8) = true
      ∧ compressing.ftl.wbuf.find? (fun w => w.id = 1) = some buffered ∧ compressing.keyOf (buffered.laddr / 2 ^ 40) = some 1)
    ∧ (((expanding 0).pipe (32 + 0)).units = [1] ∧ Tab.look (expanding 0).ftl.reads 1 = some (readJob 0)
      ∧ Tab.look (expanding 0).ftl.media (entryPlace (readJob 0).entry) = some (extent 0) ∧ (expanding 0).keyOf ((readJob 0).laddr / 2 ^ 40) = some 1
      ∧ (extent 0).readAs 1 (decide (entryPlace (readJob 0).entry % 64 = 0)) .stored = (0, (extent 0).plain) ∧ ((expanding 9).pipe (32 + 0)).units = [1] ∧ (expanding 9).keyOf ((readJob 9).laddr / 2 ^ 40) = none)
    ∧ (spaces.grants fw (CMP_CTX_OPEN.key 0 0) true ∧ (bits (2 * 2 ^ 30) 31 30 = 1 ∨ bits (2 * 2 ^ 30) 31 30 = 2) ∧ bits (2 * 2 ^ 30) 29 28 ≠ 3
      ∧ isCore fw.master = false ∧ Tab.lowestFree spaces.cmp.ctxs 4096 = some 0)
    ∧ ((withCtx spaces).grants fw (CMP_CTX_CLOSE.key 0 0) true ∧ Tab.look (withCtx spaces).cmp.ctxs (4096 % 4096) = some streamCtx
      ∧ streamCtx.ownedBy fw = true ∧ streamCtx.ownedBy ⟨1, 0⟩ = false ∧ (withCtx spaces).grants ⟨1, 0⟩ (CMP_CTX_CLOSE.key 0 0) true
      ∧ (withCtx spaces).cmp.pipes.any (fun kv => kv.2.jobs.any (fun j => j.ctx = 0)) = false)
    ∧ (let d := jobs.fresh.load (pipeReq 0 0) (sram / 64 * 64) 64
       jobs.grants fw (CMP_JOB_SUBMIT_HI.key 0 0) true ∧ d.1 = .ok ∧ leAt d.2.1 0 1 < 8 ∧ leAt d.2.1 1 3 = 0 ∧ leAt d.2.1 4 4 = 0
        ∧ leAt d.2.1 28 4 ≠ 0 ∧ leAt d.2.1 36 4 = 0 ∧ leAt d.2.1 40 2 = 0 ∧ Tab.look d.2.2.cmp.ctxs 0 = some streamCtx
        ∧ ¬(bit (leAt d.2.1 0 1) 2 = true ∧ streamCtx.kind = 2) ∧ (d.2.2.jobPipe streamCtx.kind).any (fun x => x.isSome) = true)
    ∧ ((streaming.pipe 0).jobs = [stream] ∧ streaming.cmp.pipes.any (fun kv => kv.2.jobs.any (fun k => k.ctx = 0 && k.no < stream.no)) = false
      ∧ Tab.look streaming.cmp.ctxs stream.ctx = some streamCtx ∧ streamCtx.state < 2
      ∧ (State.load ((streaming.fresh.putPipe 0 { streaming.pipe 0 with jobs := [] }).countJobs 0) (pipeReq 0 0) (sram + 256) 64).1 = .ok)
    ∧ (scans.grants fw (SCN_SUBMIT_HI.key 0 0) true ∧ scanLoad.1 = .ok ∧ leAt scanLoad.2.1 4 4 = 1 ∧ scanLoad.2.2.mayScan fw none 1 = true
      ∧ scanLoad.2.2.mayScan ⟨0x10, 1⟩ none 1 = false ∧ scanLoad.2.2.scn.jobs.length < 256
      ∧ (scanLoad.2.2.scn.jobs.filter (fun kv => kv.2.pod = 0)).length < scanLoad.2.2.fld SCN_CTRL_POD_JOBS
      ∧ scanLoad.2.2.nsOf 1 = some nsOne ∧ leAt scanLoad.2.1 16 8 ≠ 0 ∧ leAt scanLoad.2.1 8 8 + leAt scanLoad.2.1 16 8 ≤ nsOne.units
      ∧ leAt scanLoad.2.1 0 1 < 2 ∧ leAt scanLoad.2.1 1 3 = 0 ∧ leAt scanLoad.2.1 32 8 % 8 = 0 ∧ leAt scanLoad.2.1 48 2 = 0
      ∧ (scanLoad.2.2.loadProg (leAt scanLoad.2.1 24 8)).1 = .ok ∧ progCause (scanLoad.2.2.loadProg (leAt scanLoad.2.1 24 8)).2.1 = none
      ∧ 64 + 16 * leAt program 19 1 ≤ leAt scanLoad.2.1 40 4 ∧ (progOf program).bloomK = 0)
    ∧ (scanning.grants fw (SCN_CANCEL_HI.key 0 0) true
      ∧ scanning.scn.jobs.find? (fun kv => kv.2.addr = sram / 64 * 64 && kv.2.cmd.isNone) = some (1, scanJob) ∧ scanning.job 1 = some scanJob)
    ∧ (scanning.domOn (24 + 0 / 8) = true ∧ 0 < Config.scnEngines scanning.part
      ∧ (Tab.lookD scanning.scn.queue 0 []).find? (fun x => x.data.isSome) = some ⟨1, 0, some (List.replicate 512 0#8)⟩)
    ∧ (let s := spaces.modHost (fun h => { h with locks := [lockReq] })
       s.flag NVQ_STAT_FETCH_STOPPED = false ∧ s.host.locks.find? (fun l => !l.granted && grantable s.host.locks l) = some lockReq) := by
  and_intros <;> first | decide +kernel | (refine pair_ok ?_; decide +kernel)

/-! ### Tasks, NVM commands, programs and pods -/

def task (st : TaskSt) : Task :=
  { gen := 127, kind := 2, prio := 7, program := 1024, waitMask := 0, flags := 2 ^ 31, all := false, bg := false, cancelIrq := false, vine := none,
    vseq := 0, affinity := 0, prefer := 0, affWindow := 0, pod := 0, doneFlag := 0, arg := 0, compAddr := 0, timeLimit := 0, submitter := 0,
    st := st, readyNo := 1, windowOver := false, core := 63, launched := true, launchedAt := 0, cancelled := true, status := 0, code := 0,
    cmd := none, readyAt := 0, cancelAt := 0 }
/-- A task at the last index, running on or slotted at the last core. -/
def tasks (st : TaskSt) (c : Core) : State :=
  let s := set [(HSK_ACC_W0.key TSK_CORE_TAKE.win 31, 0x98FF0000), (HSK_ACC_W0.key TSK_CORE_TAKE.win 31 + 12, 0xFF)] spaces
  { s with tsk := { s.tsk with tasks := [(65535, task st)], cores := [(63, c)] } }
def idle : Core := ⟨none, none, none, 0, .cleared⟩
def onCore : State := tasks .running ⟨none, none, some 65535, 0, .cleared⟩
def slotted : State := tasks .slotted ⟨some 65535, none, none, 0, .cleared⟩
def taskBlock (kind : Nat) : List Byte := leBytes 1 kind ++ leBytes 1 7 ++ leBytes 2 1024
def submits (kind : Nat) : State := put sram (taskBlock kind) spaces
def taskLoad (kind : Nat) : BusStatus × List Byte × State := (submits kind).fresh.load fw (sram / 64 * 64) 64
/-- The smallest unsigned program image. -/
def imageHead : List Byte :=
  ascii "GPRG" ++ [1#8, 0xFF#8, 0#8, 0#8] ++ leBytes 4 3152 ++ leBytes 4 0 ++ leBytes 4 4 ++ leBytes 4 4 ++ leBytes 4 4096 ++ leBytes 4 1
def loader : State := put sram imageHead { spaces with tsk := { spaces.tsk with progAddr := sram } }
def prog : Prog := ⟨0, sram, 0, false, false, []⟩
def withProg (s : State) : State := { s with tsk := { s.tsk with progs := [(1023, prog)] } }

theorem witness_TaskCommandsComplete :
    ((submits 0).grants fw (TSK_SUBMIT_HI.key 0 0) true ∧ (taskLoad 0).1 = .ok ∧ descBad (taskLoad 0).2.1 = some 2)
    ∧ ((submits 2).grants fw (TSK_SUBMIT_HI.key 0 0) true ∧ (taskLoad 2).1 = .ok ∧ descBad (taskLoad 2).2.1 = none
      ∧ bit (fieldAt (taskLoad 2).2.1 14 2) 15 = false ∧ isCore fw.master = false ∧ fieldAt (taskLoad 2).2.1 34 2 = 0
      ∧ Tab.lowestFree (taskLoad 2).2.2.tsk.tasks 65536 = some 0 ∧ Tab.look (taskLoad 2).2.2.pod.pods 0 = some Pod.zero
      ∧ ((taskLoad 2).2.2.tsk.tasks.filter (fun kv => kv.2.pod = 0)).length < Pod.zero.tasks ∧ fieldAt (taskLoad 2).2.1 0 1 = 2
      ∧ fieldAt (taskLoad 2).2.1 2 2 < 1028)
    ∧ ((tasks .waiting idle).grants fw (TSK_FLAG_SET.key 0 0) true ∧ bit (2 ^ 31 + 127 * 2 ^ 24 + 30 * 2 ^ 16 + 65535) 31 = true
      ∧ (tasks .waiting idle).task 65535 = some (task .waiting) ∧ bits (2 ^ 31 + 127 * 2 ^ 24 + 30 * 2 ^ 16 + 65535) 30 24 = 127
      ∧ bits (2 ^ 31 + 127 * 2 ^ 24 + 30 * 2 ^ 16 + 65535) 20 16 ≠ 31 ∧ (tasks .waiting idle).task 0 = none)
    ∧ (onCore.grants fw (TSK_CANCEL.key 0 0) true ∧ bit (2 ^ 31 + 127 * 2 ^ 24 + 65535) 31 = true
      ∧ bit (2 ^ 31 + 127 * 2 ^ 24 + 65535) 23 = false ∧ onCore.task 65535 = some (task .running) ∧ (task .running).st = .running
      ∧ (tasks .ready idle).grants fw (TSK_CANCEL.key 0 0) true ∧ (tasks .ready idle).task 65535 = some (task .ready))
    ∧ (slotted.grants ⟨0x4F, 0⟩ (TSK_CORE_TAKE.key (63 / 8) (63 % 8)) false ∧ onCore.grants ⟨0x4F, 0⟩ (TSK_CORE_TAKE.key (63 / 8) (63 % 8)) false
      ∧ onCore.grants ⟨0x4F, 0⟩ (TSK_CORE_END.key (63 / 8) (63 % 8)) true)
    ∧ ((slotted.core 63).running = none ∧ (slotted.core 63).slot0 = some 65535 ∧ slotted.task 65535 = some (task .slotted)
      ∧ (onCore.core 63).running ≠ none)
    ∧ ((onCore.core 63).running = some 65535 ∧ onCore.task 65535 = some (task .running) ∧ (task .running).core = 63
      ∧ (task .running).cancelled = true ∧ bits (2 * 2 ^ 30) 31 30 = 2 ∧ bit (task .running).flags 31 = true
      ∧ (bits 65535 31 30 = 0 ∧ 65535 % 65536 ≠ 0) ∧ bits (2 ^ 30) 31 30 = 1)
    ∧ (spaces.grants fw (TSK_QUERY.key 0 0) true ∧ (task .ready).st = .ready)
    ∧ (loader.grants fw (TSK_PROG_CMD.key 0 0) true ∧ Tab.has loader.tsk.progs (1023 % 1024) = false
      ∧ (loader.fresh.load fw loader.tsk.progAddr 1864).1 = .ok ∧ progHeaderOk (loader.fresh.load fw loader.tsk.progAddr 1864).2.1 = true
      ∧ ((loader.fresh.load fw loader.tsk.progAddr 1864).2.2.load fw loader.tsk.progAddr
          (leAt (loader.fresh.load fw loader.tsk.progAddr 1864).2.1 8 4)).1 = .ok
      ∧ (withProg loader).grants fw (TSK_PROG_CMD.key 0 0) true ∧ Tab.look (withProg loader).tsk.progs (1023 % 1024) = some prog
      ∧ (withProg loader).tsk.tasks.any (fun kv => kv.2.kind = 1 && kv.2.program = 1023 % 1024) = false)
    ∧ (127 < 128 ∧ spaces.grants fw (TSK_CORE_CTRL.key (127 / 8) (127 % 8)) true) := by and_intros <;> first | decide +kernel | (refine pair_ok ?_; decide +kernel)

/-- The namespace's media are ready. -/
def serving : State := spaces.setFld FTL_CTRL_ENABLE 1
/-- An I/O command to the last LBA of namespace 1. -/
def io (cdw11 : Nat) (data : List Byte) : HostCmd := ⟨0, 1, 7, 1, 0, cdw11, 0, 0, 0, 0, data, .ok⟩
/-- One range: LBA 0 alone. -/
def range : List Byte := leBytes 4 0 ++ leBytes 4 1 ++ leBytes 8 0
def unitRead : OutCmd := { waiting with stage := .started, cid := 7, got := [(laddrOf 1 0, [])], io := some (.read, io 0 []) }

theorem witness_NvmCommandsStartAndFinish :
    (serving.admitsIo (.io .read) (io 0 []) ∧ serving.nsServes (io 0 []) nsOne ∧ nsOne.spread = false
      ∧ (∀ r ∈ ioRanges .read (io 0 []), r.1 + r.2 ≤ nsOne.size) ∧ (io 0 []).nlb * lbaBytes nsOne.format ≤ 2097152
      ∧ (io 0 []).xfer.badList = false ∧ serving.ftl.readOnly = false ∧ (nsOne.touched .read (io 0 [])).head? = some 0
      ∧ (nsOne.touched .read (io 0 [])).getLast? = some 0)
    ∧ (serving.admitsIo (.io .dsm) (io 4 range) ∧ (∀ r ∈ ioRanges .dsm (io 4 range), r.1 + r.2 ≤ nsOne.size) ∧ bit (io 4 range).cdw11 2 = true
      ∧ nsOne.touched .dsm (io 4 range) ≠ [] ∧ (nsOne.touched .dsm (io 4 range)).all (nsOne.whole (ioRanges .dsm (io 4 range))) = true
      ∧ serving.pageMissing ((nsOne.touched .dsm (io 4 range)).map (laddrOf 1)) = false
      ∧ serving.admitBar 0 0 (runsOf (nsOne.touched .dsm (io 4 range))).length false = 0 ∧ nsOne.mdGroup = 0 ∧ 1 ≤ 8192 ∧ nsOne.size ≤ 2 ^ 39)
    ∧ (serving.host.locks.all (fun x => x.ns ≠ 1) = true ∧ unitRead.got.map Prod.fst = nsOne.needs .read (io 0 [])
      ∧ (∀ x ∈ unitRead.got, serving.lookUnit x.1 = .data x.2) ∧ (io 0 []).slba + (io 0 []).nlb ≤ nsOne.size)
    ∧ (serving.admitsIo (.io .writeZeroes) (io 0 []) ∧ serving.admitsIo (.io .writeUnc) (io 0 []) ∧ serving.admitsIo (.io .verify) (io 0 [])
      ∧ serving.pageMissing ((nsOne.touched .writeZeroes (io 0 [])).map (laddrOf 1)) = false
      ∧ serving.admitBar 0 0 (nsOne.touched .writeUnc (io 0 [])).length false = 0
      ∧ serving.admitBar 0 0 (runsOf (nsOne.touched .writeZeroes (io 0 []))).length false = 0
      ∧ serving.admitsIo (.io .write) (io 0 []) ∧ serving.admitsIo (.io .compare) (io 0 []))
    ∧ (serving.admitsIo (.io .dsm) (io 0 range) ∧ bit (io 0 range).cdw11 2 = false)
    ∧ (serving.takesIo (io 0 []) ∧ serving.nsBar (io 0 []) = none) := by and_intros <;> first | decide +kernel | (refine pair_ok ?_; decide +kernel)

def writer (st : Stage) : OutCmd := { unitRead with stage := st, got := [], io := some (.write, io 0 []) }
def writing (st : Stage) : State := serving.modHost (fun h => { h with out := [writer st] })
/-- The dirty limit is of some MiB, and pod 0 has a share of so many thousandths. -/
def limited (mib share : Nat) : State :=
  let s := (((writing .started).setFld FTL_DIRTY_LIMIT_BUF_MIB mib).setFld FTL_DIRTY_LIMIT_MAP_MIB 1).setFld FTL_DUR_MODE 1
  { s with pod := { s.pod with pods := [(0, { Pod.zero with wbufPm := share })] } }
def heldOne : OutCmd := { unitRead with stage := .held, got := [], io := none, held := some (.memRead, io 0 []) }

theorem witness_HostDataIsAdmittedAndCommitted :
    ((writing .started).outCmd ⟨0, 1, 7⟩ = some (writer .started) ∧ HostCmdRef (io 0 []) = ⟨0, 1, 7⟩ ∧ (writer .started).arrived = false
      ∧ (writer .started).need = [] ∧ (writing .started).nsOf 1 = some nsOne ∧ nsOne.mdGroup = 0 ∧ nsOne.piInBad (io 0 []) = none
      ∧ (writing .started).ftl.cap = none
      ∧ (writing .started).pageMissing ((nsOne.touched .write (io 0 [])).map (laddrOf 1)) = false
      ∧ (writing .started).admitBar 0 ((nsOne.touched .write (io 0 [])).map (fun _ => nsOne.unit)).sum (nsOne.touched .write (io 0 [])).length true = 0)
    ∧ ((writing .waitBuffer).outCmd ⟨0, 1, 7⟩ = some (writer .waitBuffer) ∧ (writer .waitBuffer).stage = .waitBuffer
      ∧ (writing .waitRate).outCmd ⟨0, 1, 7⟩ = some (writer .waitRate) ∧ (writer .waitRate).stage = .waitRate)
    ∧ (limited 0 1000).admitBar 0 4096 1 true = 1 ∧ (limited 1 0).admitBar 0 4096 1 true = 3
    ∧ (let s := (writing .started).setFld PWR_WRGOV_CFG_DWPD_X100 1
       ({ s with ftl := { s.ftl with cap := some (2 ^ 30) } }).admitBar 0 4096 1 true = 2)
    ∧ (let s := serving.modHost (fun h => { h with out := [heldOne] })
       s.outCmd ⟨0, 1, 7⟩ = some heldOne ∧ heldOne.held = some (.memRead, io 0 []) ∧ s.holdCause .memRead (io 0 []) = none
        ∧ s.canFetch 0 = true) := by and_intros <;> first | decide +kernel | (refine pair_ok ?_; decide +kernel)

def withMem (e : Pod) : Pod := { e with ranges := [(0, (1000, 1))] }
/-- Pod 0 has 2 MiB of memory, and pod 1 is as given. -/
def pods (e : Pod) : State := { serving with pod := { serving.pod with pods := [(0, withMem Pod.zero), (1, e)] } }
def plain : State := pods Pod.zero
/-- An I/O command of the first dwords. -/
def prg (cdw10 cdw11 cdw12 cdw14 : Nat) (nsid : Nat) (data : List Byte) : HostCmd := ⟨0, 1, 7, nsid, cdw10, cdw11, cdw12, 0, cdw14, 0, data, .ok⟩
def image : List Byte := imageHead ++ List.replicate 3120 0#8
def waiver : State := plain.modSgn (fun g => { g with waivers := [(0xFFFF, List.replicate 64 0#8)] })
def loadCmd (type : Nat) : HostCmd := prg (type * 65536 + 4) 3152 0 3152 1 image
def half : HostCmd := prg (0xC0 * 65536 + 65535) 8 0 4 1 [1#8, 2#8, 3#8, 4#8]
def rest (s : State) (c : HostCmd) : State := (s.begunBy c).modHost (fun h => { h with loads := Tab.del h.loads (progKey c.pod (pindOf c)) })
def holding (scan : Bool) : State :=
  withProg (plain.modHost (fun h => { h with
    progs := [(progKey 0 4, ⟨scan, 1023, 0xFE0000000, 3152⟩)], rangeSets := [(progKey 0 1, [(0, 4096)])] }))
/-- One range of the pod's memory. -/
def copyRange : List Byte := leBytes 4 (slmNs 0) ++ leBytes 4 64 ++ leBytes 8 0 ++ List.replicate 16 0#8

theorem witness_ProgramAndMemoryCommandsComplete :
    (plain.takesIo half ∧ 4 ≤ pindOf half ∧ Tab.has plain.host.progs (progKey 0 (pindOf half)) = false ∧ 1 ≤ half.cdw14 ∧ half.cdw14 ≤ 2097152
      ∧ half.cdw11 ≤ 16777216 ∧ half.cdw15 + half.cdw14 < half.cdw11 ∧ half.data.length = half.cdw14 ∧ half.cdw15 = 0
      ∧ half.cdw10 / 65536 % 256 = 0xC0 ∧ Config.scnEngines plain.part ≠ 0 ∧ plain.permit 0 3 = true)
    ∧ (waiver.takesIo (loadCmd 0xC1) ∧ (loadCmd 0xC1).cdw10 / 65536 % 256 = 0xC1 ∧ waiver.permit 0 2 = true ∧ image.length = 3152
      ∧ (loadCmd 0xC1).cdw15 + (loadCmd 0xC1).cdw14 = (loadCmd 0xC1).cdw11
      ∧ waiver.progsHeld 0 < ((Tab.look waiver.pod.pods 0).map Pod.prog).getD 0 ∧ waiver.storePlace 3152 = some 0xFE0000000
      ∧ ((rest waiver (loadCmd 0xC1)).store ⟨0x60, 0⟩ 0xFE0000000 image).1 = .ok ∧ waiver.freeHandle = some 0 ∧ imageOk image = true
      ∧ leAt image 5 1 = 0xFF ∧ waiver.sgn.waivers = [(0xFFFF, List.replicate 64 0#8)] ∧ allZero (List.replicate 64 0#8) = true
      ∧ 64 < waiver.ringRoom ∧ waiver.fwPending < waiver.nv.credits ∧ imageOk (List.replicate 3152 0#8) = false)
    ∧ ((holding true).takesIo (prg 4 0 0 0 1 []) ∧ Tab.look (holding true).host.progs (progKey 0 4) = some ⟨true, 1023, 0xFE0000000, 3152⟩
      ∧ (holding true).permit 0 3 = true ∧ Tab.look (holding false).host.progs (progKey 0 4) = some ⟨false, 1023, 0xFE0000000, 3152⟩
      ∧ (holding false).permit 0 2 = true ∧ Tab.look (holding false).tsk.progs 1023 = some prog ∧ prog.unloading = false)
    ∧ ((prg (65536 + 4) 0 0 0 1 []).cdw10 / 65536 % 16 ≤ 1 ∧ (holding true).takesIo (prg (65536 + 4) 0 0 0 1 [])
      ∧ Tab.has (holding true).host.progs (progKey 0 4) = true)
    ∧ (plain.takesIo (prg 0 0 0 0 1 copyRange) ∧ copyRanges copyRange = [(slmNs 0, 0, 64)] ∧ 0 + 64 ≤ plain.slmSize 0
      ∧ Tab.freeFrom plain.host.rangeSets 65535 (progKey 0 1) = some (progKey 0 1) ∧ progKey 0 1 / 65536 = 0
      ∧ (prg (65536 + 1) 0 0 0 1 []).cdw10 / 65536 % 16 = 1 ∧ Tab.has (holding true).host.rangeSets (progKey 0 1) = true)
    ∧ (plain.admitsIo .execProgram (prg 3 0 0 0 1 []) ∧ pindOf (prg 3 0 0 0 1 []) < 4 ∧ Tab.look plain.host.progs (progKey 0 3) = none
      ∧ Tab.lowestFree plain.tsk.tasks 65536 = some 0 ∧ Tab.look plain.pod.pods 0 = some (withMem Pod.zero) ∧ Tab.lookD plain.tsk.gens 0 0 < 128
      ∧ (plain.tsk.tasks.filter (fun kv => kv.2.pod = 0)).length < (withMem Pod.zero).tasks)
    ∧ ((holding false).admitsIo .execProgram (prg 4 0 0 0 1 []) ∧ (prog.pod = 0 ∧ prog.scratch = 0)
      ∧ (holding true).admitsIo .execProgram (prg (65536 + 4) 0 0 0 1 (List.replicate 24 0#8))
      ∧ Tab.lookD (holding true).host.rangeSets (progKey 0 1) [] = [(0, 4096)] ∧ ((withMem Pod.zero).run 0 4096).isSome = true
      ∧ Tab.look (((holding true).takeTokens .execProgram (prg (65536 + 4) 0 0 0 1 [])).begunBy (prg (65536 + 4) 0 0 0 1 [])).pod.pods 0
          = some (withMem Pod.zero))
    ∧ (plain.admitsIo .memRead (prg 0 0 327680 0 0xFFFF []) ∧ slmAt (prg 0 0 327680 0 0xFFFF []) + 327680 ≤ 327680
      ∧ plain.admitsIo .memRead (prg 0x1FFFC0 0 64 0 (slmNs 0) []) ∧ slmAt (prg 0x1FFFC0 0 64 0 (slmNs 0) []) + 64 ≤ (withMem Pod.zero).memBytes
      ∧ (((plain.takeTokens .memRead (prg 0x1FFFC0 0 64 0 (slmNs 0) [])).begunBy (prg 0x1FFFC0 0 64 0 (slmNs 0) [])).podLoad 0x60
          (withMem Pod.zero) 0x1FFFC0 64 (podFuel 64)).1 = .ok)
    ∧ (let c := prg 0x1FFFC0 0 64 0 (slmNs 0) (List.replicate 64 1#8)
       plain.admitsIo .memWrite c ∧ Tab.look (plain.takeTokens .memWrite c).pod.pods 0 = some (withMem Pod.zero)
        ∧ (((plain.takeTokens .memWrite c).begunBy c).podStore 0x60 (withMem Pod.zero) (slmAt c) (slice c.data 0 64) (podFuel 64)).1 = .ok)
    ∧ (let c := prg 0x1000 0 0 0 (slmNs 0) copyRange
       plain.admitsIo .memCopy c ∧ Tab.look (plain.takeTokens .memCopy c).pod.pods 0 = some (withMem Pod.zero)
        ∧ (∀ r ∈ copyRanges copyRange, r.1 = slmNs 0 ∧ r.2.1 + r.2.2 ≤ (withMem Pod.zero).memBytes) ∧ slmAt c + 64 ≤ (withMem Pod.zero).memBytes
        ∧ (((plain.takeTokens .memCopy c).begunBy c).gatherRanges (withMem Pod.zero) (copyRanges copyRange)).1 = .ok
        ∧ ((((plain.takeTokens .memCopy c).begunBy c).gatherRanges (withMem Pod.zero) (copyRanges copyRange)).2.2.podStore 0x60 (withMem Pod.zero)
            (slmAt c) (((plain.takeTokens .memCopy c).begunBy c).gatherRanges (withMem Pod.zero) (copyRanges copyRange)).2.1 (podFuel 64)).1 = .ok) := by
  and_intros <;> first | decide +kernel | (refine pair_ok ?_; decide +kernel)

/-- A pod command's block lies in shared SRAM: its operation, pod and parameters. -/
def podBlock (op p : Nat) (d : List Byte) : List Byte := leBytes 2 op ++ leBytes 2 p ++ d
def podCmd (op p : Nat) (d : List Byte) (e : Pod) : State := put sram (podBlock op p d) (pods e)
def podLd (op p : Nat) (d : List Byte) (e : Pod) : BusStatus × List Byte × State :=
  let s := podCmd op p d e
  State.load { s.fresh with pod := { s.pod with cmdRes := Tab.put s.pod.cmdRes 0 (3 * 2 ^ 30) } } fw sram 64
/-- The block as the unit takes it, well-formed, with no command before it, and a state that allows it. -/
abbrev podGood (op p : Nat) (d : List Byte) (e : Pod) (allowed : Bool) : Prop :=
  (podCmd op p d e).grants fw (POD_CMD_HI.key 0 0) true ∧ (podLd op p d e).1 = .ok ∧ podForm (leBytes 1 op ++ (podLd op p d e).2.1.drop 1) = true
    ∧ (podLd op p d e).2.2.podRunning < 16 ∧ (podLd op p d e).2.2.pod.waiting = []
    ∧ leAt (leBytes 1 op ++ (podLd op p d e).2.1.drop 1) 2 2 = p ∧ podAllowed op e.state e.bound = allowed
/-- A pod in a state, unbound or bound to port A with PASID 5. -/
def podIn (state : Nat) (bound : Bool) : Pod :=
  { Pod.zero with state := state, bound := bound, noPasid := false, pasid := 5, imsCount := 2, imsBase := 7 }
def u (op p : Nat) (d : List Byte) (e : Pod) : State := (podLd op p d e).2.2
def range1 : List Byte := leBytes 4 7 ++ leBytes 4 2
def grows : Pod := { podIn 1 false with ranges := [(7, (2000, 1))] }
def saveAt : List Byte := leBytes 4 0 ++ leBytes 8 0 ++ leBytes 4 1
def quiet : Pod := { podIn 3 true with quiesceAt := 0, graceMs := 65535 }

theorem witness_PodCommandsComplete :
    (let s := podCmd 13 1 [] (podIn 4 true)
     s.grants fw (POD_CMD_HI.key 0 0) true ∧ podForm (leBytes 1 5 ++ ((podLd 5 1 (leBytes 4 65536) (podIn 2 true)).2.1.drop 1)) = false)
    ∧ (podGood 5 0 (leBytes 4 65535) (podIn 2 true) true ∧ 5 ∈ [1, 3, 4, 5, 7, 8, 10, 11])
    ∧ (podGood 1 4095 (leBytes 1 0) (podIn 2 true) false ∧ Tab.look (u 1 4095 (leBytes 1 0) (podIn 2 true)).pod.pods 4095 = none
      ∧ (u 1 4095 (leBytes 1 0) (podIn 2 true)).fld POD_ENV_W0_MAX_WEIGHT 0 ≠ 0
      ∧ ((podLd 1 4095 (leBytes 1 15) (podIn 2 true)).1 = .ok)
      ∧ ((u 1 4095 (leBytes 1 15) (podIn 2 true)).setFld POD_ENV_W0_MAX_WEIGHT 0 15).fld POD_ENV_W0_MAX_WEIGHT 15 = 0)
    ∧ (podGood 6 4095 [] (podIn 2 true) false ∧ Tab.look (u 6 4095 [] (podIn 2 true)).pod.pods 4095 = none)
    ∧ (podGood 10 1 [] (podIn 2 true) false ∧ Tab.look (u 10 1 [] (podIn 2 true)).pod.pods 1 = some (podIn 2 true))
    ∧ (podGood 2 1 [] (podIn 5 true) true ∧ (podIn 5 true).merge 0 (fun _ _ => 0) = podIn 5 true ∧ (podIn 5 true).inRange = true
      ∧ (u 2 1 [] (podIn 5 true)).within (podIn 5 true) ((u 2 1 [] (podIn 5 true)).ctrl 1).pairs = true
      ∧ (u 2 1 [] (podIn 5 true)).podSum 1 Pod.ioq + 256 ≤ 16384 ∧ (u 2 1 [] (podIn 5 true)).podSum 1 Pod.imsCount + 2 ≤ 16384)
    ∧ (podGood 3 1 (leBytes 4 0 ++ leBytes 4 (2 ^ 20 - 1)) (podIn 1 false) true
      ∧ (u 3 1 (leBytes 4 0 ++ leBytes 4 (2 ^ 20 - 1)) (podIn 1 false)).pasidUsed 1 0 (2 ^ 20 - 1) false = false
      ∧ podGood 3 1 (leBytes 4 4) (podIn 4 false) true ∧ (u 3 1 (leBytes 4 4) (podIn 4 false)).pasidUsed 1 0 0 true = true)
    ∧ (podGood 4 1 [] (podIn 4 true) true ∧ podGood 5 1 (leBytes 4 65535) (podIn 3 true) true ∧ podGood 6 1 [] (podIn 4 true) true
      ∧ ((u 6 1 [] (podIn 4 true)).ctrl 1).heldRegs = [])
    ∧ (podGood 7 1 [] (podIn 2 true) true ∧ podGood 8 1 [] (podIn 1 false) true ∧ (u 8 1 [] (podIn 1 false)).boot.resets = []
      ∧ (podIn 1 false).waiters = [] ∧ (podIn 1 false).by_ = none)
    ∧ (podGood 9 1 range1 grows true ∧ 2 ≤ (u 9 1 range1 grows).reg POD_ENV_W11 0
      ∧ (u 9 1 range1 grows).mapUsed 0 + (u 9 1 range1 grows).podSum 1 Pod.memBytes + 2 * 0x200000
          ≤ (u 9 1 range1 grows).mapBudget
      ∧ ((u 9 1 range1 grows).setRange 1 7 2).isSome = true)
    ∧ (podGood 10 1 saveAt (podIn 4 true) true ∧ ((u 10 1 saveAt (podIn 4 true)).savedState 1 (podIn 4 true) false).length + 4 ≤ 1024
      ∧ Tab.look (u 10 1 saveAt (podIn 4 true)).pod.pods 0 = some (withMem Pod.zero) ∧ 0 + 1024 ≤ (withMem Pod.zero).memBytes
      ∧ ((u 10 1 saveAt (podIn 4 true)).podStore 0 (withMem Pod.zero) 0
          ((u 10 1 saveAt (podIn 4 true)).savedState 1 (podIn 4 true) false
            ++ leBytes 4 (crc32c ((u 10 1 saveAt (podIn 4 true)).savedState 1 (podIn 4 true) false))) (podFuel 1024)).1 = .ok)
    ∧ podGood 11 1 [] (podIn 1 false) true
    ∧ (podGood 12 1 (leBytes 2 1) (podIn 2 true) true ∧ 1 < (podIn 2 true).imsCount ∧ podGood 12 1 (leBytes 2 2) (podIn 2 true) true
      ∧ (podIn 2 true).imsCount ≤ 2)
    ∧ (Tab.look (pods quiet).pod.pods 1 = some quiet ∧ quiet.state = 3 ∧ quiet.graceOver = false ∧ (pods quiet).drained 1 = true) := by
  and_intros <;> first | decide +kernel | (refine pair_ok ?_; decide +kernel)

/-! ### Memory channels, power and heat -/

/-- The last channel trained with rate r. -/
def train (r : Nat) : TrainReport := ⟨r, true, true, 2, 255, 255, 0, 0, -40⟩
/-- The last channel is in a state. -/
def chan (st : Nat) : State :=
  let s := (up.setFld DRC_CH_STAT_STATE st 5).setFld CFG_MEM_INIT_DRAM_DONE 0x3F
  { s with dram := { s.dram with trained := [5], mapped := [0, 1, 2, 3, 4, 5] } }
/-- A token grants error injection. -/
def injects : State := (up.setFld SGN_TOKEN_LATCH_GRANT 7).setFld MPR_DREG_BASE_CODE 0 0

theorem witness_MemoryChannelCommandsComplete :
    (5 < Config.drcCount up.part ∧ 5 < 6 ∧ 5 ∉ up.dram.trained ∧ up.domOn (10 + 5) = true ∧ channelGib (train 5).width8 (train 5).ranks2 (train 5).density ≠ none
      ∧ min (train 5).rate (up.fld DRC_CFG_RATE_MAX) < 8 ∧ min (train 5).rate (up.fld DRC_CFG_RATE_MAX) ≠ 0
      ∧ min (train 0).rate (up.fld DRC_CFG_RATE_MAX) = 0 ∧ up.chanFenced 5 = false)
    ∧ (5 < Config.drcCount (chan 2).part ∧ 5 ∈ (chan 2).dram.trained ∧ (chan 2).chanFenced 5 = false)
    ∧ ((chan 4).serves 5 = true ∧ 5 < 6 ∧ 1 < 2 ∧ (chan 4).fld DRC_TRAIN_CFG_OSC_PS < 1000 ∧ 0 ≤ (chan 4).fld DRC_TRAIN_CFG_OSC_PS)
    ∧ (Tab.lookD up.dram.throttleLeft 5 0 = 0
      ∧ Tab.lookD { up.dram with throttleLeft := [(5, 1)] }.throttleLeft 5 0 = 1 ∧ Tab.lookD { up.dram with throttleLeft := [(5, 2)] }.throttleLeft 5 0 = 0 + 2)
    ∧ ((chan 2).fld DRC_CH_STAT_STATE 5 = 2 ∧ (chan 4).fld DRC_CH_STAT_STATE 5 = 4 ∧ (chan 3).fld DRC_CH_STAT_STATE 5 = 3
      ∧ (let s := ((chan 4).setFld DRC_SR_CFG_SR_EN 1).setFld DRC_SR_CFG_DEEP_EN 1
         s.flag DRC_SR_CFG_SR_EN = true ∧ s.fld DRC_CH_STAT_STATE 5 = 4 ∧ s.flag DRC_SR_CFG_DEEP_EN = true
          ∧ (s.setFld DRC_CH_STAT_STATE 6 5).fld DRC_CH_STAT_STATE 5 = 6)
      ∧ (6 ≤ (chan 7).fld DRC_CH_STAT_STATE 5 ∧ Tab.lookD (chan 7).dram.base 5 2 < 8))
    ∧ (5 < 6 ∧ (chan 2).dram.mapped.findIdx? (fun x => x = 5) = some 5 ∧ (chan 2).serves 5 = true
      ∧ bit ((chan 2).fld CFG_MEM_INIT_DRAM_DONE) 5 = true ∧ (chan 2).dramCode ((chan 2).globalAddr 5 0) ≠ 2 ∧ (chan 2).swMode 0x40 = false
      ∧ (chan 2).upperHalf ((chan 2).globalAddr 5 0) = false ∧ (chan 2).bgGrant 1 5 true false ≠ none
      ∧ (let s := (chan 2).setBg 1 5 ⟨10 ^ 12, 0, false, false⟩
         s.serves 5 = true ∧ s.bgGrant 1 5 true false = none ∧ s.dramCode (s.globalAddr 5 0) ≠ 2 ∧ s.swMode 0x40 = false
          ∧ s.upperHalf (s.globalAddr 5 0) = false))
    ∧ (7 < Config.cobCount up.part ∧ up.domOn (2 + 7) = true ∧ caught 0 false (.wrong 1 1 1) = 1)
    ∧ (injects.grants fw (MPR_INJ_CTRL.key 0 0) true ∧ bit (2 ^ 31 + 3 * 2 ^ 28) 31 = true ∧ bit (injects.fld SGN_TOKEN_LATCH_GRANT) 2 = true
      ∧ isMgmt fw.master = true ∧ injects.injectable (2 ^ 31 + 3 * 2 ^ 28) 0 = true ∧ injects.pair MPR_INJ_ADDR_LO MPR_INJ_ADDR_HI = 0
      ∧ up.grants fw (MPR_INJ_CTRL.key 0 0) true ∧ bit (up.fld SGN_TOKEN_LATCH_GRANT) 2 = false) := by and_intros <;> first | decide +kernel | (refine pair_ok ?_; decide +kernel)

/-- Loop n is in a state and has converted for long enough to be watched; its model is set. -/
def loopIn (n st : Nat) : State := ((up.setFld CLE_STAT_STATE st n).setFld CLE_MODEL_ETA 1 n).setFld CLE_CTRL_ACTION 0 n
/-- A rail at 90 % of full scale and more is above the limit; eight such samples in a row are a fault. -/
def overs : Loop := { (up.loop 1) with ovN := 8 }
def groupIn (st : Nat) : State :=
  (up.setFld PWR_FPG_STAT_STATE st 15).setFld PWR_FPG_CTRL_ON (if st = 0 then 0 else 2 ^ 15)
/-- The last present cob's domain is requested on. -/
def asked : State := set [(PWR_DOM_REQ_0.key 0 0, 2 ^ 9 + 3)] up

theorem witness_LoopsDomainsAndPowerGroupsComplete :
    (21 < 22 ∧ (loopIn 21 1).fld CLE_STAT_STATE 21 = 1)
    ∧ ((loopIn 1 3).fld CLE_STAT_STATE 1 = 3 ∧ (loopIn 1 3).fld CLE_MODEL_ETA 1 ≠ 0
      ∧ (((((loopIn 1 3).fresh.setFld CLE_MEAS_MV 799 1).setFld CLE_MEAS_CUR 9 1).coefApply 1).loopWatch 1 21845 ((loopIn 1 3).railMv 1) 12000 9 3).1 = none)
    ∧ (let s := (loopIn 1 3).putLoop 1 overs
       s.fld CLE_STAT_STATE 1 = 3 ∧ s.fld CLE_MODEL_ETA 1 ≠ 0
        ∧ ((((s.fresh.setFld CLE_MEAS_MV 1199 1).setFld CLE_MEAS_CUR 9 1).coefApply 1).loopWatch 1 32767 (s.railMv 1) 12000 9 3).1.isSome = true)
    ∧ ((loopIn 21 4).fld CLE_STAT_STATE 21 = 4 ∧ (loopIn 21 4).fld CLE_CTRL_ACTION 21 = 0 ∧ (loopIn 21 4).pwr.trip = 0 ∧ (loopIn 21 4).pwr.fail = 0)
    ∧ (up.grants fw (CLE_TARGET.key 23 0) true ∧ up.targetOk 23 0 = true ∧ up.grants fw (CLE_TARGET.key 1 0) true ∧ up.targetOk 1 950 = true
      ∧ up.targetOk 1 951 = false ∧ up.targetOk 1 550 = true ∧ up.grants fw (CLE_COEF.key 23 5) true)
    ∧ (up.grants fw (PWR_DOM_REQ_0.key 0 0) true ∧ (∀ k, k < 40 → k ≠ 9 → k < 32 → bit (2 ^ 9 + 3) (k % 32) = up.domReq k)
      ∧ bit (2 ^ 9 + 3) (9 % 32) ≠ up.domReq 9 ∧ up.domFixed 9 = false ∧ up.domReq 9 = false ∧ up.mayOn 9 = true)
    ∧ (asked.grants fw (PWR_DOM_REQ_0.key 0 0) true ∧ (∀ k, k < 40 → k ≠ 9 → k < 32 → bit 3 (k % 32) = asked.domReq k)
      ∧ bit 3 (9 % 32) ≠ asked.domReq 9 ∧ asked.domFixed 9 = false ∧ asked.domReq 9 = true ∧ asked.mayOff 9 = true)
    ∧ (asked.grants fw (PWR_DOM_REQ_1.key 0 0) true ∧ (∀ k, k < 40 → k ≠ 39 → 32 ≤ k → bit (2 ^ 7) (k % 32) = asked.domReq k)
      ∧ bit (2 ^ 7) (39 % 32) ≠ asked.domReq 39 ∧ asked.domFixed 39 = false ∧ asked.mayOn 39 = false ∧ asked.domReq 39 = false)
    ∧ (let s : State := { up with pwr := { up.pwr with upping := [39] } }
       39 ∈ s.pwr.upping ∧ 39 ∉ s.pwr.isolating ∧ 39 ∈ ({ up with pwr := { up.pwr with isolating := [39] } } : State).pwr.isolating)
    ∧ ((groupIn 0).grants fw (PWR_FPG_CTRL.key 0 0) true ∧ 15 < fpgCount (groupIn 0).part
      ∧ (∀ k, k < 16 → k ≠ 15 → bit (2 ^ 15) k = bit ((groupIn 0).fld PWR_FPG_CTRL_ON) k) ∧ bit (2 ^ 15) 15 ≠ bit ((groupIn 0).fld PWR_FPG_CTRL_ON) 15
      ∧ (∀ k, k < 16 → k ≠ 15 → bit ((groupIn 0).fld PWR_FPG_CTRL_ON) k = true → (groupIn 0).fld PWR_FPG_STAT_STATE k ≠ 0)
      ∧ bit (2 ^ 15) 15 = true ∧ (groupIn 0).fld PWR_FPG_STAT_STATE 15 = 0
      ∧ ((List.range 16).filter (fun k => (groupIn 0).fld PWR_FPG_STAT_STATE k = 1)).length < 4)
    ∧ ((groupIn 5).grants fw (PWR_FPG_CTRL.key 0 0) true ∧ (∀ k, k < 16 → k ≠ 15 → bit 0 k = bit ((groupIn 5).fld PWR_FPG_CTRL_ON) k)
      ∧ bit 0 15 ≠ bit ((groupIn 5).fld PWR_FPG_CTRL_ON) 15 ∧ (groupIn 5).fld PWR_FPG_STAT_STATE 15 = 5
      ∧ (groupIn 1).fld PWR_FPG_STAT_STATE 15 = 1)
    ∧ (let l : Lun := { die with running := some (opAt 3) }
       let s := (flashUp l up).setFld PWR_FPG_CTRL_ON 1
       s.grants fw (PWR_FPG_CTRL.key 0 0) true ∧ s.fld PWR_FPG_STAT_STATE 0 = 2 ∧ bit 0 0 = false)
    ∧ ((groupIn 6).fld PWR_FPG_STAT_STATE 15 = 6 ∧ (groupIn 6).groupUse 15 = 0) := by and_intros <;> first | decide +kernel | (refine pair_ok ?_; decide +kernel)

/-- Below its limit, cool, with surge time left, on a measured bank. -/
def bank (method : Nat) (at_ : Option Nat) : State :=
  { up with time := 86400000000000, pwr := { up.pwr with vBank := 60000, method := method, measuredAt := at_ } }
def failing (fail trip : Nat) : State := { up with pwr := { up.pwr with fail := fail, trip := trip } }
def surging : State := { up with pwr := { up.pwr with surge := some 0, down := false } }

theorem witness_PowerSupplyAndThermalCommandsComplete :
    (up.pwr.ready = false ∧ up.pwr.fail = 0 ∧ (up.setFld PWR_IN_STAT_ILIM 1).flag PWR_IN_STAT_ILIM = true
      ∧ (up.setFld PWR_IN_STAT_ILIM 1).pwr.ready = false ∧ (up.setFld PWR_IN_STAT_ILIM 1).pwr.fail = 0)
    ∧ ((failing 1 0).pwr.fail = 1 ∧ (failing 0 1).pwr.trip = 1)
    ∧ ((bank 0 (some 0)).pwr.measuredAt = some 0 ∧ (bank 0 (some 0)).fld PWR_HOLD_CFG_V_HOLD * 1000 ≤ (bank 0 (some 0)).pwr.vBank + 1000 ∧ (bank 0 (some 0)).pwr.fail = 0
      ∧ (bank 0 (some 0)).pwr.trip = 0 ∧ (bank 0 (some 0)).pwr.method = 0)
    ∧ ((bank 1 none).pwr.method ≠ 0 ∧ (bank 1 none).pwr.fail = 0 ∧ 470000 ≤ (bank 1 none).fld PWR_HOLD_CFG_CHG * 7520 * 10 / 16
      ∧ (bank 2 none).pwr.method ≠ 1 ∧ 100 ≠ 0 ∧ 470000 ≤ 470 * 100000 / 100)
    ∧ (up.fld PWR_GOV_CFG_P_SUST_W * 1000 < 125001 ∧ 125000 ≤ up.fld PWR_GOV_CFG_P_SUST_W * 1000 ∧ up.fld PWR_GOV_CFG_P_SUST_W * 1000 * 95 ≤ 118750 * 100
      ∧ up.pwr.tempActs = false
      ∧ (let s : State := { up with pwr := { up.pwr with powerActs := true, tempActs := true } }
         118749 * 100 < s.fld PWR_GOV_CFG_P_SUST_W * 1000 * 95 ∧ s.pwr.powerActs = true
          ∧ s.junction < ((s.fld PWR_GOV_CFG_T_GOV : Nat) - 3 : Int) * 16))
    ∧ (up.fld PWR_IN_CFG_P_LIM_W * 1000 < 250001 ∧ 600 < up.pwr.ceil - up.pwr.cobDrop ∧ up.pwr.inputActs = false
      ∧ 237499 * 100 < up.fld PWR_IN_CFG_P_LIM_W * 1000 * 95 ∧ 250000 ≤ up.fld PWR_IN_CFG_P_LIM_W * 1000)
    ∧ (up.grants fw (PWR_GOV_REQ.key 0 0) true ∧ (up.fresh.storeReg (PWR_GOV_REQ.key 0 0) (2 ^ 31)).flag PWR_GOV_REQ_SURGE = true
      ∧ up.fld PWR_GOV_CFG_SURGE_S ≠ 0 ∧ up.junction ≤ 95 * 16 ∧ 1000000000 ≤ up.surgeLeft ∧ up.pwr.powerActs = false ∧ up.pwr.tempActs = false
      ∧ up.pwr.inputActs = false ∧ up.pwr.forced = false ∧ up.pwr.surge = none ∧ up.pwr.trip = 0 ∧ up.pwr.fail = 0 ∧ 40 ≤ up.goodSensors.length)
    ∧ (surging.grants fw (PWR_GOV_REQ.key 0 0) true ∧ (surging.fresh.storeReg (PWR_GOV_REQ.key 0 0) 0).flag PWR_GOV_REQ_SURGE = false
      ∧ surging.pwr.surge = some 0 ∧ surging.pwr.down = false)
    ∧ (let s : State := { up with time := 300000000000 - 1, pwr := { up.pwr with episodes := [(0, 30000000000)] } }
       s.pwr.episodes.find? (fun (e : Nat × Nat) => s.time < e.2 + 300000000000) = some (0, 30000000000) ∧ s.surgeLeft < 1000000000)
    ∧ (up.pwr.dark = false ∧ up.pwr.ready = false ∧ up.pwr.trip = 0)
    ∧ (115 * 16 ≤ (set ((List.range 48).map (fun k => (PWR_SENSOR.key k 0, 115 * 16))) up).junction
      ∧ (set ((List.range 48).map (fun k => (PWR_SENSOR.key k 0, 105 * 16))) up).junction = 105 * 16) := by and_intros <;> first | decide +kernel | (refine pair_ok ?_; decide +kernel)

/-! ### The group -/

/-- Three configured members, of which this one is the last; both ports are up, and an epoch is active. -/
def joined : State :=
  let s := (((up.setFld ASK_CTRL_ENABLE 1).setFld ASK_CTRL_N 3).setFld ASK_CTRL_MEMBER_ID 2).setFld ASK_VIEW_STAT_STATE 2
  let s := (s.setFld ASK_PORT_STAT_STATE 2 0).setFld ASK_PORT_STAT_STATE 2 1
  { s with nv := { s.nv with groupKeys := [⟨1, List.replicate 32 5#8, true, s.nv.mediaEpoch⟩], incarnation := 9 },
           sgn := { s.sgn with mediaRoot := true } }
def secret : GroupKey := ⟨1, List.replicate 32 5#8, true, joined.nv.mediaEpoch⟩
/-- A frame from a member's port 0, with its TAG, at this device's last port. -/
def frameOf (type flags src inc : Nat) (pl : List Byte) : AskFrame :=
  let b := joined.frameBytes secret type flags src 0 2 inc 1 pl
  { port := 1, room := true, ipLen := 56 + pl.length, udpLen := 56 + pl.length, sumOk := true, ext := false,
    udpPort := joined.fld ASK_NET_CFG_UDP_PORT, via := src, bytes := b }
/-- Member 1's record. -/
def knows (st inc : Nat) : State := { joined with ask := { joined.ask with members := [(1, ⟨st, inc, 0⟩)] } }
/-- An ACCUSE or DECLARE of a member's incarnation, by members 0 and 1. -/
def accusal (subj inc : Nat) : List Byte := leBytes 2 subj ++ [1#8, 0#8, 0#8, 0#8, 0#8, 0#8] ++ leBytes 4 inc ++ leBytes 4 0 ++ leBytes 8 1 ++ leBytes 32 3
def suspect (merged : Option (List Nat)) : AskSuspect := ⟨7, 3, 1, 0, merged⟩
def suspects (merged : Option (List Nat)) : State :=
  let s := knows 2 7
  { s with ask := { s.ask with suspects := [(1, suspect merged)] } }
def sent (tries : Nat) (why : AskWhy) : AskSend := ⟨1, 16, 3, leBytes 8 3, [], tries, 0, why⟩
def sending (x : AskSend) : State := { joined with ask := { joined.ask with sends := [x] } }

/-- Two accusers are at least two set bits. -/
theorem two_accusers (n : Nat) (h0 : bit n 0 = true) (h1 : bit n 1 = true) : 2 ≤ popCount n := by
  have mono : ∀ (l : List Nat) (c : Nat), c ≤ l.foldl (fun c i => if bit n i then c + 1 else c) c := by
    intro l
    induction l with
    | nil => intro c; exact Nat.le_refl _
    | cons a l ih =>
      intro c
      have h : c ≤ (if bit n a then c + 1 else c) := by split <;> omega
      exact Nat.le_trans h (ih _)
  have all : ∀ m, 2 ≤ (List.range (m + 2)).foldl (fun c i => if bit n i then c + 1 else c) 0 := by
    intro m
    simp only [List.range_succ_eq_map, List.map_cons, List.foldl_cons, h0, h1, if_true]
    exact mono _ _
  exact all 16382

theorem leBytes_length (n v : Nat) : (leBytes n v).length = n := by
  induction n generalizing v with
  | zero => rfl
  | succ n ih => exact congrArg Nat.succ (ih _)

/-- A TAG has 16 bytes. -/
theorem tag_length (k c m : List Byte) : (kmac256 k c m 16).length = 16 := by
  unfold kmac256 sponge squeeze
  rw [List.length_take, leBytes_length]
  decide

/-- A frame with the right TAG passes when every other check does. -/
theorem frame_ok (s : State) (f : AskFrame) (m : List Byte) (n : Nat) (g : GroupKey)
    (hb : f.bytes = m ++ kmac256 (s.frameKey g) (ascii "AKF") m 16) (hm : m.length = 32 + n)
    (hg : s.groupKeys.find? (fun g => g.epoch % 2 ^ 32 = leAt f.bytes 16 4) = some g)
    (h : leAt f.bytes 4 2 = n ∧ f.room = true ∧ f.udpLen = f.ipLen ∧ f.udpLen = 56 + n ∧ n ≤ 8192 ∧ f.sumOk = true ∧ f.ext = false
      ∧ slice f.bytes 0 2 = [0x41#8, 0x4B#8] ∧ leAt f.bytes 2 1 = 1 ∧ frameTypes.contains (headOf f.bytes).type = true
      ∧ (headOf f.bytes).flags < 32 ∧ leAt f.bytes 7 1 = 0 ∧ leAt f.bytes 12 2 < 2 ^ 15 ∧ leAt f.bytes 14 2 < 2 ^ 14
      ∧ (headOf f.bytes).src < s.groupN ∧ f.udpPort = s.fld ASK_NET_CFG_UDP_PORT ∧ slice f.bytes 8 4 = slice s.groupId 0 4
      ∧ leAt f.bytes 14 2 = s.me
      ∧ replayed (Tab.look s.ask.window ((headOf f.bytes).srcPort * 16384 + (headOf f.bytes).src)) (headOf f.bytes).seq = false) :
    s.frameCause f (headOf f.bytes) = 0 := by
  obtain ⟨h1, h2, h3, h4, h5, h6, h7, h8, h9, h10, h11, h12, h13, h14, h15, h16, h17, h18, h19⟩ := h
  have hl : f.bytes.length = 48 + n := by rw [hb, List.length_append, hm, tag_length]; omega
  have ht : f.bytes.take (32 + n) = m := by rw [hb, ← hm]; simp
  have hs : slice f.bytes (32 + n) 16 = kmac256 (s.frameKey g) (ascii "AKF") m 16 := by
    unfold slice
    rw [hb, ← hm]
    simp only [List.drop_left]
    rw [List.take_of_length_le (Nat.le_of_eq (tag_length _ _ _)), tag_length]
    simp
  unfold State.frameCause
  simp only [h1, hg, ht, hs, hl, h2, h6, h7, h8, h9, h10, h12, h16, h17, h18, h19]
  rw [if_neg (by simp), if_neg (by simp; omega), if_neg (by simp; exact ⟨h11, h13, h18 ▸ h14, h15⟩), if_neg (by simp)]
  simp

/-- A frame of a type with the right TAG is accepted. -/
theorem accepted (s : State) (f : AskFrame) (type : Nat) (m : List Byte) (n : Nat) (g : GroupKey)
    (hb : f.bytes = m ++ kmac256 (joined.frameKey g) (ascii "AKF") m 16)
    (h : s.groupId = joined.groupId ∧ (s.askOn = true ∧ f.port ∈ s.portsUp ∧ (headOf f.bytes).type = type) ∧ m.length = 32 + n
      ∧ s.groupKeys.find? (fun g => g.epoch % 2 ^ 32 = leAt f.bytes 16 4) = some g ∧ leAt f.bytes 4 2 = n ∧ f.room = true
      ∧ f.udpLen = f.ipLen ∧ f.udpLen = 56 + n ∧ n ≤ 8192 ∧ f.sumOk = true ∧ f.ext = false
      ∧ slice f.bytes 0 2 = [0x41#8, 0x4B#8] ∧ leAt f.bytes 2 1 = 1 ∧ frameTypes.contains (headOf f.bytes).type = true
      ∧ (headOf f.bytes).flags < 32 ∧ leAt f.bytes 7 1 = 0 ∧ leAt f.bytes 12 2 < 2 ^ 15 ∧ leAt f.bytes 14 2 < 2 ^ 14
      ∧ (headOf f.bytes).src < s.groupN ∧ f.udpPort = s.fld ASK_NET_CFG_UDP_PORT ∧ slice f.bytes 8 4 = slice s.groupId 0 4
      ∧ leAt f.bytes 14 2 = s.me
      ∧ replayed (Tab.look s.ask.window ((headOf f.bytes).srcPort * 16384 + (headOf f.bytes).src)) (headOf f.bytes).seq = false) :
    s.acceptsFrame f type :=
  ⟨h.2.1.1, h.2.1.2.1, h.2.1.2.2,
    frame_ok s f m n g (by unfold State.frameKey; rw [h.1]; exact hb) h.2.2.1 h.2.2.2.1 h.2.2.2.2⟩

/-- The header and payload of frameOf. -/
def bodyOf (type flags src inc : Nat) (pl : List Byte) : List Byte :=
  [0x41#8, 0x4B#8] ++ leBytes 1 1 ++ leBytes 1 type ++ leBytes 2 pl.length ++ leBytes 1 flags ++ leBytes 1 0
    ++ slice joined.groupId 0 4 ++ leBytes 2 (src + 0 * 2 ^ 14) ++ leBytes 2 2 ++ leBytes 4 secret.epoch ++ leBytes 4 inc ++ leBytes 8 1 ++ pl
def beat : AskFrame := frameOf 3 0 1 7 []
def own : AskFrame := frameOf 5 0 2 7 []
def leaves : AskFrame := frameOf 6 0 1 7 []
/-- A frame whose lengths disagree. -/
def stray : AskFrame := { frameOf 23 0 1 7 [] with ipLen := 57 }
def declares (subj inc : Nat) : AskFrame := frameOf 4 0 0 7 (accusal subj inc)

theorem accepts_own : joined.acceptsFrame own 5 :=
  accepted _ _ _ (bodyOf 5 0 2 7 []) 0 secret rfl (by and_intros <;> first | decide +kernel | (refine pair_ok ?_; decide +kernel))
theorem accepts_beat : (knows 1 7).acceptsFrame beat 3 :=
  accepted _ _ _ (bodyOf 3 0 1 7 []) 0 secret rfl (by and_intros <;> first | decide +kernel | (refine pair_ok ?_; decide +kernel))
theorem accepts_leaves : (knows 2 7).acceptsFrame leaves 6 :=
  accepted _ _ _ (bodyOf 6 0 1 7 []) 0 secret rfl (by and_intros <;> first | decide +kernel | (refine pair_ok ?_; decide +kernel))
theorem accepts_declares : joined.acceptsFrame (declares 2 9) 4 :=
  accepted _ _ _ (bodyOf 4 0 0 7 (accusal 2 9)) 56 secret rfl (by and_intros <;> first | decide +kernel | (refine pair_ok ?_; decide +kernel))
theorem accepts_majority : (suspects none).acceptsFrame (declares 1 7) 4 :=
  accepted _ _ _ (bodyOf 4 0 0 7 (accusal 1 7)) 56 secret rfl (by and_intros <;> first | decide +kernel | (refine pair_ok ?_; decide +kernel))

theorem witness_GroupMembershipCommandsComplete :
    (Instr.adopt stray, 23) ∈ [(Instr.heartbeat stray, 1), (.accuse stray, 2), (.alive stray, 3), (.declare stray, 4),
        (.join stray, 5), (.leave stray, 6), (.chunkWrite stray, 16), (.parityDelta stray, 17), (.chunkRead stray, 18), (.chunkData stray, 19),
        (.ack stray, 20), (.confirm stray, 21), (.nsDesc stray, 22), (.adopt stray, 23)]
    ∧ (joined.acceptsFrame own 5 ∧ (knows 1 7).acceptsFrame beat 3 ∧ (knows 2 7).acceptsFrame leaves 6 ∧ joined.acceptsFrame (declares 2 9) 4
      ∧ (suspects none).acceptsFrame (declares 1 7) 4)
    ∧ (joined.askOn = true ∧ stray.port ∈ joined.portsUp ∧ (headOf stray.bytes).type = 23 ∧ joined.frameCause stray (headOf stray.bytes) = 1)
    ∧ (headOf own.bytes).src = joined.me
    ∧ ((headOf beat.bytes).src = 1 ∧ (headOf beat.bytes).src ≠ joined.me ∧ (headOf beat.bytes).inc = 7)
    ∧ ((joined.member 1).state = 0 ∧ ((knows 1 6).member 1).state = 1
      ∧ ((knows 1 6).member 1).inc < 7 ∧ 7 ≤ ((knows 1 7).member 1).inc ∧ ((knows 2 6).member 1).state = 2 ∧ 3 ≤ ((knows 4 6).member 1).state)
    ∧ ((headOf leaves.bytes).src = 1 ∧ ((knows 2 7).member 1).state = 2
      ∧ ((knows 2 7).member 1).inc = (headOf leaves.bytes).inc)
    ∧ (leAt (headOf (declares 2 9).bytes).payload 0 2 = joined.me
      ∧ leAt (headOf (declares 2 9).bytes).payload 8 4 = joined.nv.incarnation ∧ leAt (accusal 2 8) 8 4 ≠ joined.nv.incarnation)
    ∧ (leAt (headOf (declares 1 7).bytes).payload 0 2 = 1 ∧ 1 ≠ (suspects none).me
      ∧ leAt (headOf (declares 1 7).bytes).payload 8 4 = (((suspects none).tookFrame (declares 1 7)).member 1).inc
      ∧ (((suspects none).tookFrame (declares 1 7)).member 1).state = 2 ∧ accuseBitmap (headOf (declares 1 7).bytes).payload = 3
      ∧ (suspects none).groupN = 3)
    ∧ (joined.fld ASK_VIEW_STAT_STATE = 2 ∧ joined.activeKey = some secret ∧ joined.groupN ≤ 16384 ∧ 1 ∈ joined.portsUp ∧ 0 ∈ monitorsOf 3 2)
    ∧ (joined.askOn = true ∧ 1 ∈ monitoredBy (knows 2 7).groupN (knows 2 7).me ∧ 1 ≠ (knows 2 7).me ∧ (knows 2 7).ask.suspects.length < 2048)
    ∧ Tab.look (suspects (some [0])).ask.suspects 1 = some (suspect (some [0]))
    ∧ ((sending (sent 0 (.update 0 0))).ask.sends.find? (fun x => x.id = 3) = some (sent 0 (.update 0 0))
      ∧ (sent 0 (.update 0 0)).tries < joined.fld ASK_XFER_CFG_RETRIES ∧ joined.fld ASK_XFER_CFG_RETRIES ≤ (sent 16 (.update 0 0)).tries)
    ∧ (1 < Config.askPorts joined.part ∧ joined.domOn (33 + 1) = true ∧ joined.askAddr 1 2 ≠ joined.askAddr 1 1 ∧ joined.ask.stopped = false) :=
  ⟨by simp, ⟨accepts_own, accepts_beat, accepts_leaves, accepts_declares, accepts_majority⟩, by and_intros <;> first | decide +kernel | (refine pair_ok ?_; decide +kernel)⟩

/-- A majority of three has accused. -/
theorem witness_majority : joined.groupN < 2 * popCount 3 := by
  have h := two_accusers 3 (by decide) (by decide)
  have e : joined.groupN = 3 := by decide +kernel
  omega

def spreadGuid : List Byte := List.replicate 8 9#8 ++ leBytes 8 77
def span (epoch home : Nat) : Spread := ⟨spreadGuid, 1, 1, 1, [2, 1], [0], false, 8, epoch, home, false, [], [(3, 5)], [], [], [], [], [], none, []⟩
/-- Namespace 8192 is spread over members 2 and 1. -/
def spreads (x : Spread) : State := { joined with ask := { joined.ask with spreads := [(8192, x)], members := [(0, ⟨1, 7, 0⟩), (1, ⟨1, 7, 0⟩)] } }
/-- Fields of a chunk frame: stripe 3. -/
def chunkPl (epoch : Nat) : List Byte := leBytes 8 6 ++ leBytes 8 77 ++ leBytes 8 3 ++ leBytes 8 9 ++ leBytes 4 epoch ++ leBytes 4 0 ++ List.replicate 8 0#8
def delta : AskFrame := frameOf 17 16 1 7 (chunkPl 1)
def reads18 : AskFrame := frameOf 18 16 1 7 (leBytes 8 6 ++ leBytes 8 77 ++ leBytes 8 3)
def data19 : AskFrame := frameOf 19 16 1 7 (leBytes 8 3 ++ leBytes 8 5)
def ack20 : AskFrame := frameOf 20 16 1 7 (leBytes 8 3 ++ [0#8])
def confirm21 : AskFrame := frameOf 21 0 1 7 (leBytes 8 77 ++ leBytes 8 3 ++ leBytes 8 5)
/-- A namespace of one data and no parity chunk: 92 bytes of fields. -/
def descPl : List Byte := leBytes 8 6 ++ spreadGuid ++ [1#8, 0#8] ++ List.replicate 54 0#8 ++ leBytes 8 4096 ++ leBytes 4 1
def desc22 : AskFrame := frameOf 22 16 1 7 descPl
def adopt23 : AskFrame := frameOf 23 16 1 7 (leBytes 8 6 ++ leBytes 8 77 ++ leBytes 4 2)
def buffers : State :=
  let s := spreads (span 1 1)
  { s with ftl := { s.ftl with wbuf := [⟨1, laddrOf 8192 3, [1#8], ⟨0, 1, 7⟩, 2, 1, false, [], 1, 0, 1, false, 1⟩] } }
theorem accepts_delta : (spreads (span 1 1)).acceptsFrame delta 17 :=
  accepted _ _ _ (bodyOf 17 16 1 7 (chunkPl 1)) 48 secret rfl (by and_intros <;> first | decide +kernel | (refine pair_ok ?_; decide +kernel))
theorem accepts_read : buffers.acceptsFrame reads18 18 :=
  accepted _ _ _ (bodyOf 18 16 1 7 (leBytes 8 6 ++ leBytes 8 77 ++ leBytes 8 3)) 24 secret rfl (by and_intros <;> first | decide +kernel | (refine pair_ok ?_; decide +kernel))
theorem accepts_data : (sending (sent 0 (.fetch 0 1))).acceptsFrame data19 19 :=
  accepted _ _ _ (bodyOf 19 16 1 7 (leBytes 8 3 ++ leBytes 8 5)) 16 secret rfl (by and_intros <;> first | decide +kernel | (refine pair_ok ?_; decide +kernel))
theorem accepts_ack : (sending (sent 0 (.fetch 0 1))).acceptsFrame ack20 20 :=
  accepted _ _ _ (bodyOf 20 16 1 7 (leBytes 8 3 ++ [0#8])) 9 secret rfl (by and_intros <;> first | decide +kernel | (refine pair_ok ?_; decide +kernel))
theorem accepts_confirm : (spreads (span 1 1)).acceptsFrame confirm21 21 :=
  accepted _ _ _ (bodyOf 21 0 1 7 (leBytes 8 77 ++ leBytes 8 3 ++ leBytes 8 5)) 24 secret rfl (by and_intros <;> first | decide +kernel | (refine pair_ok ?_; decide +kernel))
theorem accepts_desc : joined.acceptsFrame desc22 22 :=
  accepted _ _ _ (bodyOf 22 16 1 7 descPl) 92 secret rfl (by and_intros <;> first | decide +kernel | (refine pair_ok ?_; decide +kernel))
theorem accepts_adopt : (spreads (span 1 1)).acceptsFrame adopt23 23 :=
  accepted _ _ _ (bodyOf 23 16 1 7 (leBytes 8 6 ++ leBytes 8 77 ++ leBytes 4 2)) 20 secret rfl (by and_intros <;> first | decide +kernel | (refine pair_ok ?_; decide +kernel))

/-- A host speaks for pod 0 beside the group. -/
def keyed (s : State) : State := { hosts with nv := s.nv, sgn := s.sgn, ask := s.ask, regs := joined.regs }
def keyCmd (act : Nat) : HostCmd := adm 0 0 0 0 (List.replicate 32 7#8 ++ leBytes 8 1 ++ leBytes 1 act ++ List.replicate 7 0#8)
def spreadCmd (act who withMember : Nat) : HostCmd := adm 0 0 0 0 (spreadGuid ++ leBytes 1 act ++ [0#8] ++ leBytes 2 who ++ leBytes 2 withMember ++ List.replicate 10 0#8)
def inactive : GroupKey := { secret with active := false }
def released : Spread := { span 1 2 with released := true }
def lacking : Spread := { span 1 2 with absent := [1] }

theorem witness_ChunkAndGroupKeyCommandsComplete :
    (Instr.parityDelta delta, 17, true) ∈ [(Instr.chunkWrite delta, 16, false), (.parityDelta delta, 17, true)]
    ∧ ((spreads (span 1 1)).acceptsFrame delta 17 ∧ buffers.acceptsFrame reads18 18 ∧ (sending (sent 0 (.fetch 0 1))).acceptsFrame data19 19
      ∧ (sending (sent 0 (.fetch 0 1))).acceptsFrame ack20 20 ∧ (spreads (span 1 1)).acceptsFrame confirm21 21 ∧ joined.acceptsFrame desc22 22
      ∧ (spreads (span 1 1)).acceptsFrame adopt23 23)
    ∧ (((spreads (span 1 1)).newMessage delta ∧ joined.spreadOf 77 = none ∧ (spreads (span 1 1)).spreadOf 77 = some (8192, span 1 1)
        ∧ leAt (((headOf delta.bytes).payload.take (fieldBytes 17))) 8 8 = 77 ∧ leAt ((headOf delta.bytes).payload.take (fieldBytes 17)) 32 4 = 1
        ∧ (span 1 1).homeEpoch ≤ 1 ∧ 1 < (span 2 1).homeEpoch)
      ∧ (buffers.newMessage reads18 ∧ leAt (headOf reads18.bytes).payload 8 8 = 77 ∧ leAt (headOf reads18.bytes).payload 16 8 = 3
        ∧ buffers.spreadOf 77 = some (8192, span 1 1) ∧ Tab.look (span 1 1).prev 3 = none ∧ buffers.buffered (laddrOf 8192 3) = some [1#8])
      ∧ (bits (headOf data19.bytes).flags 3 1 = 0 ∧ bit (headOf data19.bytes).flags 4 = true ∧ joined.ask.frags = []
        ∧ (sending (sent 0 (.fetch 0 1))).ask.sends.find? (fun x => x.id = leAt (headOf data19.bytes).payload 0 8 && x.dst = (headOf data19.bytes).src)
          = some (sent 0 (.fetch 0 1)) ∧ (sent 0 (.fetch 0 1)).why = .fetch 0 1)
      ∧ (joined.ask.sends.find? (fun x => x.id = 3 && x.dst = 1) = none ∧ leAt (headOf ack20.bytes).payload 8 1 = 0
        ∧ (sending (sent 0 (.fetch 0 1))).ask.sends.find? (fun x => x.id = leAt (headOf ack20.bytes).payload 0 8 && x.dst = (headOf ack20.bytes).src)
          = some (sent 0 (.fetch 0 1)))
      ∧ ((headOf confirm21.bytes).payload.length = 24 ∧ (spreads (span 1 1)).spreadOf (leAt (headOf confirm21.bytes).payload 0 8) = some (8192, span 1 1)
        ∧ (spreads (span 1 1)).spread 8192 = some (span 1 1))
      ∧ (joined.newMessage desc22 ∧ joined.ask.spreads = [] ∧ Tab.lowestFree (joined.host.ns.map (fun kv => (kv.1 - 1, kv.2))) 8192 = some 0
        ∧ 1 ≤ leAt (headOf desc22.bytes).payload 24 1)
      ∧ ((spreads (span 1 1)).newMessage adopt23 ∧ leAt (headOf adopt23.bytes).payload 16 4 = 2 ∧ leAt (headOf adopt23.bytes).payload 8 8 = 77
        ∧ (span 1 1).homeEpoch < 2 ∧ 2 ≤ (span 2 1).homeEpoch)
      ∧ ((keyed joined).admits (keyCmd 1) pod0Cmd ∧ Config.askPorts (keyed joined).part ≠ 0 ∧ (keyCmd 1).xfer = .ok
        ∧ allZero (slice (keyCmd 1).data 41 7) = true ∧ leAt (keyCmd 1).data 40 1 = 1 ∧ (keyed joined).sgn.mediaRoot = true
        ∧ leAt (keyCmd 2).data 40 1 = 2 ∧ (keyed joined).groupKeys.any (fun g => g.epoch = leAt (keyCmd 2).data 32 8) = true
        ∧ leAt (keyCmd 3).data 40 1 = 3)
      ∧ (let s : State := { keyed joined with nv := { joined.nv with groupKeys := [inactive] } }
         s.admits (keyCmd 3) pod0Cmd ∧ s.groupKeys.find? (fun g => g.epoch = leAt (keyCmd 3).data 32 8) = some inactive ∧ inactive.active = false)
      ∧ (let s := keyed (spreads released)
         s.admits (spreadCmd 1 0 0) ⟨true, true, true, true⟩ ∧ (spreadCmd 1 0 0).xfer = .ok ∧ leAt (spreadCmd 1 0 0).data 17 1 = 0
          ∧ allZero (slice (spreadCmd 1 0 0).data 22 10) = true ∧ leAt (spreadCmd 1 0 0).data 16 1 = 1 ∧ leAt (spreadCmd 1 0 0).data 18 4 = 0
          ∧ s.ask.spreads.find? (fun kv => kv.2.nguid = slice (spreadCmd 1 0 0).data 0 16) = some (8192, released) ∧ s.spread 8192 = some released
          ∧ released.members.contains s.me = true ∧ released.released = true)
      ∧ (let s := keyed (spreads (span 1 2))
         s.admits (spreadCmd 3 1 0) ⟨true, true, true, true⟩ ∧ leAt (spreadCmd 3 1 0).data 16 1 = 3
          ∧ (span 1 2).members.findIdx? (fun m => m = leAt (spreadCmd 3 1 0).data 18 2) = some 1 ∧ s.isHome (span 1 2) = true
          ∧ (span 1 2).members.contains (leAt (spreadCmd 3 1 0).data 20 2) = false ∧ (s.member (leAt (spreadCmd 3 1 0).data 20 2)).state = 1)
      ∧ (let s := { spreads lacking with ask := { (spreads lacking).ask with members := [(0, ⟨1, 7, 0⟩), (1, ⟨3, 7, 0⟩)] } }
         s.spread 8192 = some lacking ∧ s.isHome lacking = true ∧ lacking.absent.contains 1 = true ∧ lacking.rebuild = none ∧ (s.member (lacking.members.getD 1 0)).state ≠ 1
          ∧ lacking.spares.find? (fun m => m = s.me || (s.member m).state = 1) = some 0 ∧ s.mending 8192 1 = false ∧ s.updating 8192 3 = false)) :=
  ⟨by simp, ⟨accepts_delta, accepts_read, accepts_data, accepts_ack, accepts_confirm, accepts_desc, accepts_adopt⟩,
    by and_intros <;> first | decide +kernel | (refine pair_ok ?_; decide +kernel)⟩

def coal : CoalEntry := ⟨736, 255, [], none, 8, 0, 0, 2⟩
/-- A live block that holds one sample. -/
def oneSample : SeriesBlock := { up.live 0 with count := 1, bins := [2 ^ 32 - 2, 0] }
/-- The recorder may read the loops' registers. -/
def recording : State := set [(HSK_ACC_W0.key 0x0C 31, 0x98FF0000), (HSK_ACC_W0.key 0x0C 31 + 12, 0xFFFF)] up

theorem witness_EventAndRecorderCommandsComplete :
    (up.grants fw (EVT_RAISE.key 0 0) true ∧ isMgmt fw.master = true ∧ 736 ≤ 736 % 1024 ∧ 767 % 1024 < 768 ∧ 735 % 1024 < 736)
    ∧ ({ up.evt with coal := [coal] } : EvtState).coal = coal :: []
    ∧ (up.grants fw (EVT_MQ_RD.key 0 0) true ∧ (let s := set [(EVT_MQ_WR.key 0 0, 0), (EVT_MQ_RD.key 0 0, 2047)] up
        s.grants fw (EVT_MQ_RD.key 0 0) true ∧ (0 + 2048 - s.reg EVT_MQ_RD) % 2048 ≤ (s.reg EVT_MQ_WR + 2048 - s.reg EVT_MQ_RD) % 2048
          ∧ (s.reg EVT_MQ_WR + 2048 - s.reg EVT_MQ_RD) % 2048 < (1 + 2048 - s.reg EVT_MQ_RD) % 2048))
    ∧ (1023 < 1024 ∧ bits (recording.seriesCfg 1023).1 31 30 = 2
      ∧ recording.powered ((bits (recording.seriesCfg 1023).1 23 18 * 0x100000 + bits (recording.seriesCfg 1023).1 17 0 * 4) / 0x100000)
          ((bits (recording.seriesCfg 1023).1 23 18 * 0x100000 + bits (recording.seriesCfg 1023).1 17 0 * 4) % 0x100000) = true
      ∧ recording.gateReg ⟨0xE8, 0⟩ (bits (recording.seriesCfg 1023).1 23 18 * 0x100000 + bits (recording.seriesCfg 1023).1 17 0 * 4) false = .go
      ∧ (State.slotPass (recording.fresh.every (.series 1023) (recording.seriesPeriod 1023)) 0xE8
          ((bits (recording.seriesCfg 1023).1 23 18 * 0x100000 + bits (recording.seriesCfg 1023).1 17 0 * 4) / 0x100000) 1).1 ≠ .hstall
      ∧ bits (up.seriesCfg 0).1 31 30 ≠ 2)
    ∧ (oneSample.count ≠ 0 ∧ 1 ≤ up.nv.period ∧ up.nv.period ≤ 30 ∧ { up.recd with live := [(989, oneSample)] }.live = [(989, oneSample)])
    ∧ (up.grants fw (REC_SNAP_CMD.key 0 0) true ∧ up.recd.snapRun = none ∧ { up.recd with snapRun := some 3 }.snapRun = some 3) := by
  and_intros <;> first | decide +kernel | (refine pair_ok ?_; decide +kernel)

/-! ### Whole-machine statements -/

theorem witness_StepRunsFrontCommand : { up with pending := [.bucketLeak, .surgeBudgetReturn] }.pending = .bucketLeak :: [.surgeBudgetReturn] := rfl

theorem witness_StepIdlesOnEmptyQueue : State.reset.pending = [] := rfl

/-- Reset is a sound state, and a step from it answers a next state. -/
theorem witness_StepKeepsSound : State.reset.sound = true ∧ step State.reset = .next State.reset.tick := by
  constructor
  · decide +kernel
  · rfl

theorem witness_StepOnlyMovesForward : step State.reset = .next State.reset.tick := rfl

def smallPart : State := { up with part := .glt7420 }
def fencedLast : State := { up with hsf := { up.hsf with fenced := [0x3F] } }
/-- A core of the array. -/
def core : Req := ⟨0x10, 0⟩

theorem witness_RefusedAccessesHaveNoEffect :
    (up.issues core = true ∧ up.gateReg core (PWR_GOV_CFG.key 0 0) true = .deny 1 ∧ up.gateReg core (PWR_GOV_CFG.key 0 0) false = .deny 1)
    ∧ (inWindows 0xE800000000 = false ∧ up.gateMem core 0xE800000000 8 true false = .deny 1)
    ∧ (fencedLast.issues fw = true ∧ 0x3FFFFFC / 0x100000 < 0x40 ∧ 0x3FFFFFC / 0x100000 ∈ fencedLast.hsf.fenced
      ∧ 0x3FFFFFC / 0x100000 ≠ 0x05 ∧ unitPresent fencedLast.part (0x3FFFFFC / 0x100000) = true)
    ∧ (smallPart.issues fw = true ∧ smallPart.hsf.fenced = [] ∧ smallPart.admitted fw 0x0E 0x8000 4 true false = true
      ∧ smallPart.admitted fw 0x0E 0x8000 4 false true = true ∧ smallPart.regFixed fw 0x0E 0x8000 true = true
      ∧ smallPart.regFixed fw 0x0E 0x8000 false = true ∧ winDefined 0x0E = true ∧ 0xE08000 % 4 = 0
      ∧ placePresent smallPart.part 0x0E 0x8000 = false) := by and_intros <;> first | decide +kernel | (refine pair_ok ?_; decide +kernel)

theorem witness_DigestContextBelongsToItsOpener :
    (up.grants fw (DIG_OPEN.key 0 0) true ∧ digOpenOk (3 * 2 ^ 28 + 64 * 2 ^ 21) = true ∧ Tab.lowestFree up.dig.ctx 16 = some 0)
    ∧ (15 < 16 ∧ Tab.look (digesting 15 (ctxOf 1 1)).dig.ctx 15 = some (ctxOf 1 1) ∧ up.issues ⟨1, 0⟩ = true ∧ 0x05 ∉ up.hsf.fenced
      ∧ 1 ≠ (ctxOf 1 1).owner ∧ up.issues core = true ∧ isCore core.master = true
      ∧ core.pod ≠ ({ ctxOf 1 1 with owner := 0x10, pod := 1 } : DigCtx).pod) := by and_intros <;> first | decide +kernel | (refine pair_ok ?_; decide +kernel)

theorem witness_FixedSeriesReadAsStatedAndIgnoreWrites :
    (990 ≤ 990 ∧ 1023 < 1024) ∧ up.grants fw (REC_SER_W1.key 1023 0) true ∧ up.grants fw (REC_SER_W0.key 990 0) true := by and_intros <;> first | decide +kernel | (refine pair_ok ?_; decide +kernel)

def latched : State := { up with hiLatch := [(REC_RING_HEAD_LO.key 0 0 + 4, 5#32)] }

theorem witness_PairReadsLatchPerMaster :
    (up.grants fw (REC_RING_HEAD_LO.key 0 0) false ∧ plainRead (REC_RING_HEAD_LO.key 0 0) = true ∧ isPairLo (REC_RING_HEAD_LO.key 0 0) = true
      ∧ Tab.look up.hiLatch (fw.master * 0x4000000 + REC_RING_HEAD_LO.key 0 0) = none)
    ∧ (latched.grants fw (REC_RING_HEAD_LO.key 0 0 + 4) false ∧ plainRead (REC_RING_HEAD_LO.key 0 0 + 4) = true
      ∧ Tab.look latched.hiLatch (fw.master * 0x4000000 + (REC_RING_HEAD_LO.key 0 0 + 4)) = some 5#32)
    ∧ (up.grants fw (REC_CTRL.key 0 0) false ∧ plainRead (REC_CTRL.key 0 0) = true ∧ isPairLo (REC_CTRL.key 0 0) = false
      ∧ Tab.look up.hiLatch (fw.master * 0x4000000 + REC_CTRL.key 0 0) = none) := by and_intros <;> first | decide +kernel | (refine pair_ok ?_; decide +kernel)

theorem witness_CountersKeepTheirClass :
    (MPR_SRAM_STAT_OVF.reg = MPR_SRAM_STAT_CE.reg ∧ MPR_SRAM_STAT_CE.hi < 32 ∧ MPR_SRAM_STAT_CE.lo ≤ MPR_SRAM_STAT_CE.hi
      ∧ MPR_SRAM_STAT_OVF.hi = MPR_SRAM_STAT_OVF.lo ∧ MPR_SRAM_STAT_OVF.hi < 32
      ∧ (MPR_SRAM_STAT_CE.hi < MPR_SRAM_STAT_OVF.lo ∨ MPR_SRAM_STAT_OVF.hi < MPR_SRAM_STAT_CE.lo))
    ∧ REC_RING_HEAD_LO.key 0 0 ≠ REC_RING_HEAD_HI.key 0 0
    ∧ (1 < oneSample.bins.length ∧ ∀ v ∈ oneSample.bins, v < 2 ^ 32) := by and_intros <;> first | decide +kernel | (refine pair_ok ?_; decide +kernel)

theorem witness_MemoryKeepsItsCanonicalForm :
    Memory.wf [(sram, 1#8)] = true ∧ inWindows sram = false ∧ (∃ t, exec (.memoryWrite fw sram [1#8] none false) up = .next t) ∧ Memory.wf up.mem = true :=
  ⟨by decide +kernel, by decide +kernel, (exec_form _ _).elim (fun _ h => ⟨_, h⟩), by decide +kernel⟩

/-- The configuration is locked. -/
def lockedUp : State := { up with boot := { up.boot with locked := true } }

theorem witness_LockedFieldsIgnoreWrites :
    (findRow (CLE_LIMIT.key 23 0 / 0x100000) (CLE_LIMIT.key 23 0 % 0x100000)).any (fun row =>
      (row.indexOf (CLE_LIMIT.key 23 0 % 0x100000)).isSome && row.rw = 0 && row.w1c = 0
      && !(CLE_LIMIT.key 23 0 / 0x100000 = CLE_CTRL.win && row.off = CLE_CTRL.off)
      && !(CLE_LIMIT.key 23 0 / 0x100000 = EVT_ROUTE.win && row.off = EVT_ROUTE.off)) = true
    ∧ lockedUp.boot.locked = true ∧ (lockedUp.written (CLE_LIMIT.key 23 0) 0xFFFFFFFF).isSome = true := by and_intros <;> first | decide +kernel | (refine pair_ok ?_; decide +kernel)

theorem witness_IdentityWordsNameThePresentUnits :
    (winDefined 0x3F = true ∧ winDefined 0 = true ∧ unitPresent smallPart.part 0x3F = false ∧ unitPresent up.part 0x3F = true ∧ 0x3F ∉ up.hsf.fenced
      ∧ up.admitted fw 0x3F 0 4 true false = true ∧ up.regFixed fw 0x3F 0 false = true)
    ∧ ((0x14, 0x100, 32) ∈ [(0x0A, 0x100, 24), (0x0D, 0x1000, 6), (0x0E, 0x1000, 8), (0x13, 0x100, 16), (0x14, 0x100, 32)] ∧ 31 < 32
      ∧ unitPresent up.part 0x14 = true ∧ blockPresent up.part 0x14 31 = true ∧ blockPresent smallPart.part 0x0E 7 = false
      ∧ up.admitted fw 0x14 (0x1000 + 31 * 0x100) 4 true false = true ∧ up.regFixed fw 0x14 (0x1000 + 31 * 0x100) false = true) := by
  and_intros <;> first | decide +kernel | (refine pair_ok ?_; decide +kernel)

theorem witness_AccessTableComesBeforeAbsence :
    (smallPart.issues core = true ∧ 0x3F00000 / 0x100000 < 0x40 ∧ 0x3F00000 / 0x100000 ∉ smallPart.hsf.fenced
      ∧ smallPart.admitted core (0x3F00000 / 0x100000) (0x3F00000 % 0x100000) 4 true false = false
      ∧ smallPart.admitted core (0x3F00000 / 0x100000) (0x3F00000 % 0x100000) 4 false true = false)
    ∧ (winDefined (0x1800000 / 0x100000) = false ∧ winDefined (0x1FFFFFC / 0x100000) = false
      ∧ up.admitted fw (0x1800000 / 0x100000) (0x1800000 % 0x100000) 4 true false = true
      ∧ up.regFixed fw (0x1800000 / 0x100000) (0x1800000 % 0x100000) false = true
      ∧ up.admitted fw (0x1800000 / 0x100000) (0x1800000 % 0x100000) 4 false true = true
      ∧ up.regFixed fw (0x1800000 / 0x100000) (0x1800000 % 0x100000) true = true)
    ∧ (0x40 ≤ 0x4000000 / 0x100000 ∧ 0x4000000 < 2 ^ 32 ∧ up.issues fw = true) := by and_intros <;> first | decide +kernel | (refine pair_ok ?_; decide +kernel)

theorem witness_CompareAnswersByItsThreeCodes :
    (let s := digesting 15 (ctxOf 1 3)
     15 < 16 ∧ s.grants fw (DIG_CTX_CMP.key 15 0) false ∧ Tab.look s.dig.ctx 15 = some (ctxOf 1 3) ∧ (ctxOf 1 3).state = 3
      ∧ (ctxOf 1 3).out.take 32 = ((ctxOf 1 3).exp.flatMap (fun v => leBytes 4 v)).take 32)
    ∧ (let x := { ctxOf 1 3 with out := List.replicate 32 1#8 }
       let s := digesting 15 x
       s.grants fw (DIG_CTX_CMP.key 15 0) false ∧ Tab.look s.dig.ctx 15 = some x ∧ x.out.take 32 ≠ (x.exp.flatMap (fun v => leBytes 4 v)).take 32)
    ∧ (let s := digesting 15 (ctxOf 1 1)
       s.grants fw (DIG_CTX_CMP.key 15 0) false ∧ Tab.look s.dig.ctx 15 = some (ctxOf 1 1) ∧ (ctxOf 1 1).state ≠ 3) := by and_intros <;> first | decide +kernel | (refine pair_ok ?_; decide +kernel)

/-- Channel 0 of the host interface is on and trained, and the device answers. -/
def fencedPort : State := { up with hsf := { up.hsf with fenced := [0x80 + 0x3F] } }

theorem witness_HostWindowsAndDataPortsAnswer :
    (up.boot.modReady = true ∧ up.portOn 0 = true ∧ 0xFFC < 0x1000 ∧ 0xFFC % 4 = 0 ∧ 0x010 % 4 = 0)
    ∧ (hosts.boundOn 0 0 = true ∧ hosts.boundOn 1 0 = false ∧ hosts.boundOn 0 4095 = false ∧ hosts.boot.modReady = true ∧ hosts.portOn 0 = true)
    ∧ (2 ^ 32 ≤ 2 ^ 32 + 2 ^ 27 ∧ ({ up with boot := { up.boot with modReady := false } } : State).boot.modReady = false)
    ∧ (up.issues fw = true ∧ 0x80 + 0x13 ∉ up.hsf.fenced ∧ winDefined 0x13 = true ∧ portPresent up.part 0x13 255 = false
      ∧ winDefined 0x3F = true ∧ portPresent smallPart.part 0x3F 0 = false ∧ smallPart.issues fw = true ∧ 0x80 + 0x3F ∉ smallPart.hsf.fenced)
    ∧ (fencedPort.issues fw = true ∧ 0x80 + 0x3F ∈ fencedPort.hsf.fenced) := by and_intros <;> decide +kernel

/-! ### Ill-formed commands are refused -/

theorem wf_refuses_wide_word : (Instr.registerWrite fw 0 (2 ^ 32)).wf = false := by decide
theorem wf_refuses_wide_key : (Instr.registerWrite fw (2 ^ 28) 0).wf = false := by decide
theorem wf_refuses_key_past_the_bars : (Instr.registerWrite fw (2 ^ 32 + 2 ^ 29) 0).wf = false := by decide
theorem wf_refuses_wide_master : (Instr.registerWrite ⟨256, 0⟩ 0 0).wf = false := by decide
theorem wf_refuses_wide_pod_tag : (Instr.registerWrite ⟨0, 4096⟩ 0 0).wf = false := by decide
theorem wf_refuses_wide_address : (Instr.memoryRead fw (2 ^ 49) 8 .none .none false).wf = false := by decide
theorem wf_refuses_wide_doubleword : (Instr.digCtxData fw 0 (2 ^ 64)).wf = false := by decide
theorem wf_refuses_wide_identifier : (Instr.identify { adm 0 0 0 0 [] with cid := 65536 }).wf = false := by decide
theorem wf_refuses_wide_queue : (Instr.identify { adm 0 0 0 0 [] with qid := 65536 }).wf = false := by decide
theorem wf_refuses_wide_pod : (Instr.identify { adm 0 0 0 0 [] with pod := 4096 }).wf = false := by decide
theorem wf_refuses_wide_namespace : (Instr.identify { adm 0 0 0 0 [] with nsid := 2 ^ 32 }).wf = false := by decide
theorem wf_refuses_wide_dword : (Instr.identify (adm (2 ^ 32) 0 0 0 [])).wf = false := by decide
theorem wf_refuses_wide_pod_command : (PodFrom.fw fw (2 ^ 48)).wf = false := by decide
theorem wf_accepts_an_ordinary_command : (Instr.identify (adm 1 0 0 0 [])).wf = true := by decide

/-! ### The spec's worked examples -/

/-- SHAKE256 of the empty message (FIPS 202's published value, its first eight bytes). -/
theorem test_shake256_empty : shake256 [] 8 = [0x46#8, 0xB9#8, 0xDD#8, 0x2B#8, 0x0B#8, 0xA8#8, 0x8D#8, 0x13#8] := by decide +kernel

/-- Placing one compressed unit (06_translation.md): the map entry and the record's LADDR. -/
theorem test_map_entry : Sys2Proof.Machine.entryOf 339 812 (40 * 4 + 2) 32 27 false true = 0x2A60065805140351 ∧ laddrOf 3 0x1234 = 0x0000020000001234 := by decide

/-- SYS_CAP_UNITS of a GLT7420 (00_scope.md). -/
theorem test_cap_units : State.readValue { State.reset with part := .glt7420 } 0 (SYS_CAP_UNITS.key 0 0) = 0x41221000 := by decide +kernel

/-- Table 13.17: banks of 40 mΩ charged to 56 V, and the dirty data they cover in MiB. -/
def bankOf (nF : Nat) : State := { up with pwr := { up.pwr with cNF := nF, esr := 40000, vBank := 56000, measuredAt := some 0 } }
def coverMib (nF : Nat) : Nat := (bankOf nF).bankCover.2.1 / (bankOf nF).bankCover.2.2 / 2 ^ 20
theorem test_bank_cover : coverMib 10000000 = 877 ∧ coverMib 7200000 = 610 := by decide +kernel

/-- A task reaching outside its pod (14_husk.md). -/
def huskPods : State :=
  let s := set [(HSK_ACC_W0.key 0x40 5, 0xD84F1000), (HSK_ACC_W0.key 0x40 5 + 12, 0x05FFFFFF)] State.reset
  { s with dramEnd := 0x6000000000, pod := { s.pod with pods := [(7, { Pod.zero with ranges := [(0, (65536, 1024))] })] } }
theorem test_pod_range : huskPods.gateMem ⟨0x23, 7⟩ 0x2000010040 8 true false = .go
    ∧ huskPods.gateMem ⟨0x23, 7⟩ 0x2080000000 8 true false = .deny 1 := by decide +kernel
theorem test_pod_range_word : huskPods.readValue 0 (HSK_PODR.key 7 0) = 0x00010000 ∧ huskPods.readValue 0 (HSK_PODR.key 7 1) = 0x400 := by decide +kernel

/-! ### One step each -/

/-- The state after a command. -/
def after (c : Instr) (s : State) : State := match exec c s with | .next t => t | _ => s

theorem test_register_write : (after (.registerWrite fw (REC_CTRL.key 0 0) 0x0A000000) up).reg REC_CTRL = 0x0A000000 := by decide +kernel
theorem test_register_read_back : (after (.registerLoRead fw (REC_CTRL.key 0 0)) up).out.length = 1 := by decide +kernel
theorem test_memory_write : Tab.lookD (after (.memoryWrite fw sram [0xAB#8] none false) up).mem sram 0#8 = 0xAB#8 := by decide +kernel
theorem test_refused_write : (after (.registerWrite core (PWR_GOV_CFG.key 0 0) 0) up).fld HSK_DENY_STAT_DENIED = 1 := by decide +kernel
theorem test_bucket_leak : (after .bucketLeak (up.setFld MPR_BKT_STAT_BUCKET 5 30)).fld MPR_BKT_STAT_BUCKET 30 = 4 := by decide +kernel
theorem test_dig_open : Tab.has (after (.digOpen fw (3 * 2 ^ 28 + 64 * 2 ^ 21)) up).dig.ctx 0 = true := by decide +kernel
theorem test_ramp : (after .targetRampStep (up.putLoop 1 { (up.loop 1) with rail := some 700 })).railMv 1 = 710 := by decide +kernel
theorem test_domain_request : (after (.pwrDomainRequest fw false 0x203) up).domReq 9 = true := by decide +kernel
theorem test_retrain : (after (.dramRetrainPeriodic 5) (chan 2)).fld DRC_CH_STAT_STATE 5 = 3 := by decide +kernel
theorem test_echo : (after (.echoRequest 1 [1#8]) joined).out = [.icmp 1 129 [1#8]] := by decide +kernel
theorem test_take : (after (.tskCoreTake ⟨0x4F, 0⟩ 63) slotted).task 65535 = (some (task .running)).map (fun t => { t with cancelled := true }) := by decide +kernel

end Sys2Proof.Tests
end

section
/-!
SUPPORT. What the updates a refused access is made of leave: frames, fields and pairs of registers.
-/
namespace Sys2Proof.Machine

/-! ### Frames -/

theorem State.fresh_onlyChanges (s : State) : s.onlyChanges s.fresh [.out] := by
  intro p hp
  cases p
  case out => exact absurd (List.mem_singleton_self _) hp
  all_goals rfl

theorem State.setReg_onlyChanges (s : State) (k v : Nat) : s.onlyChanges (s.setReg k v) [.regs] := by
  intro p hp
  cases p
  case regs => exact absurd (List.mem_singleton_self _) hp
  all_goals rfl

theorem State.setFld_onlyChanges (s : State) (f : Field) (v i j : Nat) : s.onlyChanges (s.setFld f v i j) [.regs] :=
  s.setReg_onlyChanges _ _

theorem State.putPair_onlyChanges (s : State) (lo hi : RegId) (v i j : Nat) : s.onlyChanges (s.putPair lo hi v i j) [.regs] :=
  State.onlyChanges_trans (s.setReg_onlyChanges _ _) (State.setReg_onlyChanges _ _ _)

theorem State.countS_onlyChanges (s : State) (a o : Field) (n i j : Nat) : s.onlyChanges (s.countS a o n i j) [.regs] := by
  simp only [State.countS]
  split
  · exact State.onlyChanges_trans (s.setFld_onlyChanges _ _ _ _) (State.setFld_onlyChanges _ _ _ _ _)
  · exact s.setFld_onlyChanges _ _ _ _

theorem State.raiseWith_onlyChanges (s : State) (n c : Nat) (l : List Nat) (p : Option Nat) (f : Nat) :
    s.onlyChanges (s.raiseWith n c l p f) [.evt] := by
  intro q hq
  cases q
  case evt => exact absurd (List.mem_singleton_self _) hq
  all_goals rfl

theorem State.hiLatch_onlyChanges (s : State) (h : Tab (BitVec 32)) : s.onlyChanges { s with hiLatch := h } [.hiLatch] := by
  intro p hp
  cases p
  case hiLatch => exact absurd (List.mem_singleton_self _) hp
  all_goals rfl

/-- A command starts from the state with its outputs gone: what changes after that changes from the state before, too. -/
theorem State.onlyChanges_of_fresh {s t : State} {l : List StateField} (h : s.fresh.onlyChanges t l) : s.onlyChanges t (l ++ [.out]) :=
  State.onlyChanges_trans (State.onlyChanges_mono s.fresh_onlyChanges (by simp)) (State.onlyChanges_mono h (fun _ => List.mem_append_left _))

/-! ### Pairs of registers -/

theorem State.putPair_regsBut (s : State) (lo hi : RegId) (v i j : Nat) : s.regsBut (s.putPair lo hi v i j) [lo.key i j, hi.key i j] :=
  State.regsBut_trans (State.regsBut_mono (s.setReg_regsBut _ _) (by simp)) (State.regsBut_mono (State.setReg_regsBut _ _ _) (by simp))

/-- A pair of two registers reads as written, modulo 2 to the 64. -/
theorem State.pair_putPair_same (s : State) (lo hi : RegId) (v i j : Nat) (h : lo.key i j ≠ hi.key i j) :
    (s.putPair lo hi v i j).pair lo hi i j = v % 2 ^ 64 := by
  have hl : (s.putPair lo hi v i j).reg lo i j = v % 2 ^ 32 := by
    have e : (s.putPair lo hi v i j).reg lo i j = (s.putReg lo (v % 2 ^ 32) i j).reg lo i j := State.getReg_setReg_other _ _ _ _ h
    rw [e, State.reg_putReg_same, Nat.mod_mod]
  have hh : (s.putPair lo hi v i j).reg hi i j = v / 2 ^ 32 % 2 ^ 32 := by
    have e : (s.putPair lo hi v i j).reg hi i j = _ := State.reg_putReg_same _ hi (v / 2 ^ 32 % 2 ^ 32) i j
    rw [e, Nat.mod_mod]
  rw [State.pair, hl, hh]
  omega

/-- A field outside the pair is left alone. -/
theorem State.fld_putPair_other (s : State) (lo hi : RegId) (f : Field) (v i j k l : Nat)
    (h : f.reg.key k l ∉ [lo.key i j, hi.key i j]) : (s.putPair lo hi v i j).fld f k l = s.fld f k l := by
  have e : (s.putPair lo hi v i j).reg f.reg k l = s.reg f.reg k l := s.putPair_regsBut lo hi v i j _ h
  rw [State.fld, State.fld, e]

theorem satAdd_eq_min (top a n : Nat) : satAdd top a n = min top (a + n) := by
  unfold satAdd
  split <;> omega

/-- Counting sets the sticky overflow bit exactly when the sum passes the largest value (R20). -/
theorem State.flag_countS_overflow (s : State) (a o : Field) (n i j : Nat) (hr : o.reg = a.reg) (ho : o.hi = o.lo) (hl : o.hi < 32)
    (h : a.hi < o.lo ∧ a.lo ≤ a.hi ∨ o.hi < a.lo) :
    (s.countS a o n i j).flag o i j = true ↔ s.flag o i j = true ∨ 2 ^ (a.hi + 1 - a.lo) - 1 < s.fld a i j + n := by
  simp only [State.countS, gt_iff_lt]
  split
  case isTrue hover => simp [State.flag, State.fld_setFld_same _ o 1 i j hl, ho, hover]
  case isFalse hfits => simp [State.flag, State.fld_setFld_beside s a o _ i j hr hl h, hfits]

/-! ### The record of a denial (R438) -/

/-- A denial is a count, the last master, target and address, and an event. -/
theorem State.denied_eq (s : State) (r : Req) (t addr c : Nat) :
    s.denied r t addr c
      = ((((s.countS HSK_DENY_STAT_DENIED HSK_DENY_STAT_OVF 1).setFld HSK_DENY_STAT_LAST_MASTER r.master).setFld
          HSK_DENY_STAT_LAST_TARGET t).putPair HSK_DENY_ADDR_LO HSK_DENY_ADDR_HI addr).raiseWith 48 c [r.master, t, r.pod]
          (if isCore r.master then some r.pod else none) 0 := rfl

theorem State.denied_inbox (s : State) (r : Req) (t addr c : Nat) :
    (s.denied r t addr c).evt.inbox
      = s.evt.inbox ++ [⟨48, c, [r.master, t, r.pod], if isCore r.master then some r.pod else none, 0, s.time⟩] := by
  simp [State.denied_eq]

theorem State.fld_denied_denied (s : State) (r : Req) (t addr c : Nat) :
    (s.denied r t addr c).fld HSK_DENY_STAT_DENIED = satAdd 0x7FFF (s.fld HSK_DENY_STAT_DENIED) 1 := by
  rw [State.denied_eq, State.raiseWith_fld, State.fld_putPair_other _ _ _ _ _ _ _ _ _ (by decide),
    State.fld_setFld_beside _ HSK_DENY_STAT_LAST_TARGET HSK_DENY_STAT_DENIED _ _ _ rfl (by decide) (by decide),
    State.fld_setFld_beside _ HSK_DENY_STAT_LAST_MASTER HSK_DENY_STAT_DENIED _ _ _ rfl (by decide) (by decide),
    State.fld_countS_same _ HSK_DENY_STAT_DENIED HSK_DENY_STAT_OVF _ _ _ rfl (by decide) (by decide)]
  rfl

theorem State.fld_denied_lastMaster (s : State) (r : Req) (t addr c : Nat) :
    (s.denied r t addr c).fld HSK_DENY_STAT_LAST_MASTER = r.master % 256 := by
  rw [State.denied_eq, State.raiseWith_fld, State.fld_putPair_other _ _ _ _ _ _ _ _ _ (by decide),
    State.fld_setFld_beside _ HSK_DENY_STAT_LAST_TARGET HSK_DENY_STAT_LAST_MASTER _ _ _ rfl (by decide) (by decide),
    State.fld_setFld_same _ _ _ _ _ (by decide)]
  rfl

theorem State.fld_denied_lastTarget (s : State) (r : Req) (t addr c : Nat) :
    (s.denied r t addr c).fld HSK_DENY_STAT_LAST_TARGET = t % 256 := by
  rw [State.denied_eq, State.raiseWith_fld, State.fld_putPair_other _ _ _ _ _ _ _ _ _ (by decide),
    State.fld_setFld_same _ _ _ _ _ (by decide)]
  rfl

theorem State.pair_denied_addr (s : State) (r : Req) (t addr c : Nat) :
    (s.denied r t addr c).pair HSK_DENY_ADDR_LO HSK_DENY_ADDR_HI = addr % 2 ^ 64 := by
  rw [State.denied_eq, State.raiseWith_pair, State.pair_putPair_same _ _ _ _ _ _ (by decide)]

theorem State.denied_regsBut (s : State) (r : Req) (t addr c : Nat) :
    s.regsBut (s.denied r t addr c) [HSK_DENY_STAT.key 0 0, HSK_DENY_ADDR_LO.key 0 0, HSK_DENY_ADDR_HI.key 0 0] := by
  have count := State.regsBut_trans (State.regsBut_trans (s.countS_regsBut HSK_DENY_STAT_DENIED HSK_DENY_STAT_OVF 1 0 0 rfl)
    (State.setFld_regsBut _ HSK_DENY_STAT_LAST_MASTER r.master 0 0)) (State.setFld_regsBut _ HSK_DENY_STAT_LAST_TARGET t 0 0)
  exact State.regsBut_trans (State.regsBut_mono count (by simp [HSK_DENY_STAT_DENIED]))
    (State.regsBut_mono (State.putPair_regsBut _ HSK_DENY_ADDR_LO HSK_DENY_ADDR_HI addr 0 0) (by simp))

theorem State.denied_onlyChanges (s : State) (r : Req) (t addr c : Nat) : s.onlyChanges (s.denied r t addr c) [.regs, .evt] := by
  have count := State.onlyChanges_trans (State.onlyChanges_trans (s.countS_onlyChanges HSK_DENY_STAT_DENIED HSK_DENY_STAT_OVF 1 0 0)
    (State.setFld_onlyChanges _ HSK_DENY_STAT_LAST_MASTER r.master 0 0)) (State.setFld_onlyChanges _ HSK_DENY_STAT_LAST_TARGET t 0 0)
  have address := State.onlyChanges_trans count (State.putPair_onlyChanges _ HSK_DENY_ADDR_LO HSK_DENY_ADDR_HI addr 0 0)
  exact State.onlyChanges_trans (State.onlyChanges_mono address (by simp))
    (State.onlyChanges_mono (State.raiseWith_onlyChanges _ _ _ _ _ _) (by simp))

/-! ### The record of a stall at a fence (R55, R59) -/

/-- An access of a fenced target is counted and reported with cause 2, and fences nothing more. -/
theorem State.stalled_atFence (s : State) (m t : Nat) :
    s.stalled m t 2
      = (((s.countS HSF_WDOG_STAT_STALLS HSF_WDOG_STAT_OVF 1).setFld HSF_WDOG_STAT_LAST_MASTER m).setFld
          HSF_WDOG_STAT_LAST_TARGET t).raise 40 2 [m, t] := by
  simp [State.stalled]

theorem State.stalled_atFence_inbox (s : State) (m t : Nat) :
    (s.stalled m t 2).evt.inbox = s.evt.inbox ++ [⟨40, 2, [m, t], none, 0, s.time⟩] := by
  simp [State.stalled_atFence]

theorem State.stalled_atFence_regsBut (s : State) (m t : Nat) : s.regsBut (s.stalled m t 2) [HSF_WDOG_STAT.key 0 0] := by
  rw [State.stalled_atFence]
  exact State.regsBut_trans (State.regsBut_trans (s.countS_regsBut HSF_WDOG_STAT_STALLS HSF_WDOG_STAT_OVF 1 0 0 rfl)
    (State.setFld_regsBut _ HSF_WDOG_STAT_LAST_MASTER m 0 0)) (State.setFld_regsBut _ HSF_WDOG_STAT_LAST_TARGET t 0 0)

theorem State.stalled_atFence_onlyChanges (s : State) (m t : Nat) : s.onlyChanges (s.stalled m t 2) [.regs, .evt] := by
  rw [State.stalled_atFence]
  have count := State.onlyChanges_trans (State.onlyChanges_trans (s.countS_onlyChanges HSF_WDOG_STAT_STALLS HSF_WDOG_STAT_OVF 1 0 0)
    (State.setFld_onlyChanges _ HSF_WDOG_STAT_LAST_MASTER m 0 0)) (State.setFld_onlyChanges _ HSF_WDOG_STAT_LAST_TARGET t 0 0)
  exact State.onlyChanges_trans (State.onlyChanges_mono count (by simp)) (State.onlyChanges_mono (State.raiseWith_onlyChanges _ _ _ _ _ _) (by simp))

end Sys2Proof.Machine
end

section
/-!
SUPPORT. The gate in front of a register access, check by check, and what a register access that does not pass it comes to.
-/
namespace Sys2Proof.Machine

/-! ### The checks, in their order (R9, R22, R59, R433) -/

theorem State.gateReg_beyondWindows (s : State) (r : Req) (key : Nat) (wr : Bool) (h : 0x40 ≤ key / 0x100000) :
    s.gateReg r key wr = .err .decerr := by
  simp [State.gateReg, h]

/-- Only DECERR comes from beyond the windows. -/
theorem State.window_of_gateReg {s : State} {r : Req} {key : Nat} {wr : Bool} (h : s.gateReg r key wr ≠ .err .decerr) :
    key / 0x100000 < 0x40 :=
  Nat.lt_of_not_le (fun hw => h (s.gateReg_beyondWindows r key wr hw))

theorem State.gateReg_fenced (s : State) (r : Req) (key : Nat) (wr : Bool) (hw : key / 0x100000 < 0x40)
    (hf : key / 0x100000 ∈ s.hsf.fenced) : s.gateReg r key wr = .stall := by
  simp [State.gateReg, Nat.not_le.mpr hw, hf]

theorem State.gateReg_notAdmitted (s : State) (r : Req) (key : Nat) (wr : Bool) (hw : key / 0x100000 < 0x40)
    (hf : key / 0x100000 ∉ s.hsf.fenced) (ha : s.admitted r (key / 0x100000) (key % 0x100000) 4 (!wr) wr = false) :
    s.gateReg r key wr = .deny 1 := by
  simp [State.gateReg, Nat.not_le.mpr hw, hf, ha]

/-- What is decided once the table and the fixed rules let an access pass: the place is defined, aligned, present and powered. -/
theorem State.gateReg_admitted (s : State) (r : Req) (key : Nat) (wr : Bool) (hw : key / 0x100000 < 0x40)
    (hf : key / 0x100000 ∉ s.hsf.fenced) (ha : s.admitted r (key / 0x100000) (key % 0x100000) 4 (!wr) wr = true)
    (hx : s.regFixed r (key / 0x100000) (key % 0x100000) wr = true) :
    s.gateReg r key wr
      = if !winDefined (key / 0x100000) then .err .decerr else if key % 4 ≠ 0 then .err .decerr
        else if !placePresent s.part (key / 0x100000) (key % 0x100000) then .quiet
        else if !s.powered (key / 0x100000) (key % 0x100000) ∧ !heldInD00 (key / 0x100000) (key % 0x100000) then .quiet else .go := by
  simp [State.gateReg, Nat.not_le.mpr hw, hf, ha, hx]

/-- The gate opens for present places alone. -/
theorem State.placePresent_of_go {s : State} {r : Req} {key : Nat} {wr : Bool} (h : s.gateReg r key wr = .go) :
    placePresent s.part (key / 0x100000) (key % 0x100000) = true := by
  by_contra hp
  simp [State.gateReg, hp, ite_eq_iff] at h

/-! ### A register access that does not pass -/

theorem State.atRegR_denied (s : State) (r : Req) (key c : Nat) (k : State → Nat × State) (hm : s.issues r = true)
    (h : s.gateReg r key false = .deny c) :
    s.atRegR r key k = (s.denied r (key / 0x100000) (0xF000000000 + key) c).answer r.master (key / 0x100000) .accerr [] := by
  simp [State.atRegR, hm, h]

theorem State.atRegR_stalled (s : State) (r : Req) (key : Nat) (k : State → Nat × State) (hm : s.issues r = true)
    (h : s.gateReg r key false = .stall) :
    s.atRegR r key k = (s.stalled r.master (key / 0x100000) 2).answer r.master (key / 0x100000) .hstall [] := by
  simp [State.atRegR, hm, h]

theorem State.atRegR_quiet (s : State) (r : Req) (key : Nat) (k : State → Nat × State) (hm : s.issues r = true)
    (h : s.gateReg r key false = .quiet) :
    s.atRegR r key k = s.answer r.master (key / 0x100000) .ok [0#8, 0#8, 0#8, 0#8] := by
  simp [State.atRegR, hm, h, leBytes]

theorem State.atRegR_error (s : State) (r : Req) (key : Nat) (k : State → Nat × State) (e : BusStatus) (hm : s.issues r = true)
    (h : s.gateReg r key false = .err e) : s.atRegR r key k = s.answer r.master (key / 0x100000) e [] := by
  simp [State.atRegR, hm, h]

theorem State.atRegW_stalled (s : State) (r : Req) (key : Nat) (k : State → State) (hm : s.issues r = true)
    (h : s.gateReg r key true = .stall) :
    s.atRegW r key k = (s.stalled r.master (key / 0x100000) 2).answer r.master (key / 0x100000) .hstall [] := by
  simp [State.atRegW, hm, h]

theorem State.atRegW_error (s : State) (r : Req) (key : Nat) (k : State → State) (e : BusStatus) (hm : s.issues r = true)
    (h : s.gateReg r key true = .err e) : s.atRegW r key k = s.answer r.master (key / 0x100000) e [] := by
  simp [State.atRegW, hm, h]

/-! ### Which way a register write takes -/

/-- The page of a digest context (Table 4.10). -/
def inDigestPage (key : Nat) : Prop := key / 0x100000 = 0x05 ∧ 0x1000 ≤ key % 0x100000 ∧ key % 0x100000 < 0x2000

/-- The submission registers of a flash channel that is absent (R11). -/
def absentSubmission (p : Part) (key : Nat) : Prop :=
  (0x20 ≤ key / 0x100000 ∧ key / 0x100000 < 0x40) ∧ unitPresent p (key / 0x100000) = false
    ∧ (key % 0x100000 = FCH_SUBMIT_LO.off ∨ key % 0x100000 = FCH_SUBMIT_HI.off)

/-- Outside those two, a write has the effect of its register. -/
theorem State.regStore_eq_atRegW (s : State) (r : Req) (key w : Nat) (hd : ¬ inDigestPage key) (hp : ¬ absentSubmission s.part key) :
    s.regStore r key w = s.atRegW r key (fun s => s.writeEffect r key w) := by
  unfold inDigestPage at hd
  unfold absentSubmission at hp
  have hi : absentSubmit s.part key = false := by
    by_contra h
    simp only [absentSubmit, Bool.not_eq_false, Bool.and_eq_true, Bool.not_eq_true', decide_eq_true_eq] at h
    obtain ⟨⟨⟨hlo, hhi⟩, hoff⟩, habs⟩ := h
    exact hp ⟨⟨hlo, hhi⟩, habs, .inr hoff⟩
  have lo : ¬ (key / 0x100000 < 0x40 ∧ 0x20 ≤ key / 0x100000 ∧ key % 0x100000 = FCH_SUBMIT_LO.off
      ∧ (!unitPresent s.part (key / 0x100000)) = true) :=
    fun ⟨hhi, hlo, hoff, habs⟩ => hp ⟨⟨hlo, hhi⟩, by simpa using habs, .inl hoff⟩
  simp only [State.regStore, if_neg hd, hi, Bool.false_eq_true, if_false, if_neg lo]

theorem State.atCtx_denied (s : State) (r : Req) (key c d : Nat) (k : DigCtx → State → State) (h : s.gateReg r key true = .deny d) :
    s.atCtx r key c k = s.atRegW r key id := by
  simp [State.atCtx, h]

/-- The submission of an absent flash channel goes to that channel's own key. -/
theorem absentSubmit_key {p : Part} {key : Nat} (h : absentSubmit p key = true) :
    ∃ n, n < 32 ∧ key / 0x100000 - 0x20 = n ∧ Config.fchCount p ≤ n ∧ (FCH_SUBMIT_HI.chan n).key 0 0 = key := by
  simp only [absentSubmit, unitPresent, FCH_SUBMIT_HI, Bool.and_eq_true, Bool.not_eq_true', decide_eq_true_eq] at h
  obtain ⟨⟨⟨hlo, hhi⟩, hoff⟩, habs⟩ := h
  have h14 : key / 0x100000 ≠ 0x14 := by omega
  have h16 : key / 0x100000 ≠ 0x16 := by omega
  simp only [h14, h16, if_false, hlo, hhi, and_self, if_true, decide_eq_false_iff_not, Nat.not_lt] at habs
  refine ⟨key / 0x100000 - 0x20, by omega, rfl, habs, ?_⟩
  simp only [RegId.key, RegId.chan, FCH_SUBMIT_HI]
  have hoff : key % 0x100000 = 0x24 := of_decide_eq_true hoff
  omega

/-- A denied write ends the same way wherever it goes. -/
theorem State.regStore_denied (s : State) (r : Req) (key w c : Nat) (hm : s.issues r = true) (h : s.gateReg r key true = .deny c) :
    s.regStore r key w
      = (s.denied r (key / 0x100000) (0xF000000000 + key) c).answer r.master (key / 0x100000) .accerr [] := by
  rw [← s.atRegW_denied r key c id hm h]
  simp only [State.regStore]
  split
  case isTrue hd => exact s.atCtx_denied r key _ c _ h
  case isFalse hd =>
    split
    case isTrue hs =>
      obtain ⟨n, hn, hwin, habs, hkey⟩ := absentSubmit_key hs
      simp [State.submitOp, hwin, hn, habs, hkey, h]
    case isFalse hs =>
      split
      case isTrue hl => simp [h]
      case isFalse hl => rw [s.atRegW_denied r key c _ hm h, s.atRegW_denied r key c _ hm h]

/-! ### The two commands -/

theorem exec_registerWrite {key : Nat} (r : Req) (w : Nat) (s : State) (hk : key < 2 ^ 32) :
    exec (.registerWrite r key w) s = (s.fresh.regStore r key (w % 2 ^ 32)).done s := by
  show execRegisterWrite r key w s = _
  rw [execRegisterWrite, if_neg (Nat.not_le.mpr hk)]

theorem exec_registerLoRead {key : Nat} (r : Req) (s : State) (hk : key < 2 ^ 32) :
    exec (.registerLoRead r key) s = (s.fresh.atRegR r key (fun s => s.regRead r key)).done s := by
  show execRegisterLoRead r key s = _
  rw [execRegisterLoRead, if_neg (Nat.not_le.mpr hk)]

/-- A key of a window is none of the host's (log entry 182). -/
theorem key_lt_of_window {key : Nat} (h : key / 0x100000 < 0x40) : key < 2 ^ 32 := by omega

/-- A command that ends in an answer ends with it. -/
theorem endsWith_of_answer {c : Instr} {s t : State} {r : Req} {target : Nat} {st : BusStatus} {data : List Byte} {P : State → Prop}
    (h : exec c s = (t.answer r.master target st data).done s) (hp : P t) : EndsWith c s r target st data P :=
  ⟨t, h, hp⟩

section
variable {s : State} {r : Req} {key : Nat} {P : State → Prop}

theorem registerLoRead_denied {c : Nat} (hm : s.issues r = true) (h : s.gateReg r key false = .deny c)
    (hp : P (s.fresh.denied r (key / 0x100000) (0xF000000000 + key) c)) :
    EndsWith (.registerLoRead r key) s r (key / 0x100000) .accerr [] P := by
  have hw : key / 0x100000 < 0x40 := State.window_of_gateReg (by rw [h]; simp)
  exact endsWith_of_answer (by rw [exec_registerLoRead r s (key_lt_of_window hw), s.fresh.atRegR_denied r key c _ hm h]) hp

theorem registerWrite_denied {c : Nat} (w : Nat) (hm : s.issues r = true) (h : s.gateReg r key true = .deny c)
    (hp : P (s.fresh.denied r (key / 0x100000) (0xF000000000 + key) c)) :
    EndsWith (.registerWrite r key w) s r (key / 0x100000) .accerr [] P := by
  have hw : key / 0x100000 < 0x40 := State.window_of_gateReg (by rw [h]; simp)
  exact endsWith_of_answer (by rw [exec_registerWrite r w s (key_lt_of_window hw), s.fresh.regStore_denied r key _ c hm h]) hp

theorem registerLoRead_stalled (hm : s.issues r = true) (h : s.gateReg r key false = .stall)
    (hp : P (s.fresh.stalled r.master (key / 0x100000) 2)) :
    EndsWith (.registerLoRead r key) s r (key / 0x100000) .hstall [] P := by
  have hw : key / 0x100000 < 0x40 := State.window_of_gateReg (by rw [h]; simp)
  exact endsWith_of_answer (by rw [exec_registerLoRead r s (key_lt_of_window hw), s.fresh.atRegR_stalled r key _ hm h]) hp

theorem registerWrite_stalled (w : Nat) (hm : s.issues r = true) (h : s.gateReg r key true = .stall) (hd : ¬ inDigestPage key)
    (ha : ¬ absentSubmission s.part key) (hp : P (s.fresh.stalled r.master (key / 0x100000) 2)) :
    EndsWith (.registerWrite r key w) s r (key / 0x100000) .hstall [] P := by
  have hw : key / 0x100000 < 0x40 := State.window_of_gateReg (by rw [h]; simp)
  exact endsWith_of_answer
    (by rw [exec_registerWrite r w s (key_lt_of_window hw), s.fresh.regStore_eq_atRegW r key _ hd ha, s.fresh.atRegW_stalled r key _ hm h]) hp

theorem registerLoRead_quiet (hm : s.issues r = true) (h : s.gateReg r key false = .quiet) (hp : P s.fresh) :
    EndsWith (.registerLoRead r key) s r (key / 0x100000) .ok [0#8, 0#8, 0#8, 0#8] P := by
  have hw : key / 0x100000 < 0x40 := State.window_of_gateReg (by rw [h]; simp)
  exact endsWith_of_answer (by rw [exec_registerLoRead r s (key_lt_of_window hw), s.fresh.atRegR_quiet r key _ hm h]) hp

theorem registerWrite_quiet (w : Nat) (hm : s.issues r = true) (h : s.gateReg r key true = .quiet) (hd : ¬ inDigestPage key)
    (ha : ¬ absentSubmission s.part key) (hp : P s.fresh) :
    EndsWith (.registerWrite r key w) s r (key / 0x100000) .ok [] P := by
  have hw : key / 0x100000 < 0x40 := State.window_of_gateReg (by rw [h]; simp)
  exact endsWith_of_answer
    (by rw [exec_registerWrite r w s (key_lt_of_window hw), s.fresh.regStore_eq_atRegW r key _ hd ha, s.fresh.atRegW_quiet r key _ hm h]) hp

theorem registerLoRead_error {e : BusStatus} (hk : key < 2 ^ 32) (hm : s.issues r = true) (h : s.gateReg r key false = .err e)
    (hp : P s.fresh) : EndsWith (.registerLoRead r key) s r (key / 0x100000) e [] P :=
  endsWith_of_answer (by rw [exec_registerLoRead r s hk, s.fresh.atRegR_error r key _ e hm h]) hp

theorem registerWrite_error {e : BusStatus} (w : Nat) (hk : key < 2 ^ 32) (hm : s.issues r = true) (h : s.gateReg r key true = .err e)
    (hd : ¬ inDigestPage key) (ha : ¬ absentSubmission s.part key) (hp : P s.fresh) :
    EndsWith (.registerWrite r key w) s r (key / 0x100000) e [] P :=
  endsWith_of_answer
    (by rw [exec_registerWrite r w s hk, s.fresh.regStore_eq_atRegW r key _ hd ha, s.fresh.atRegW_error r key _ e hm h]) hp

end

end Sys2Proof.Machine
end

section
/-!
SUPPORT. A register read that only reads, a register write that only stores, and the identity words.
-/
namespace Sys2Proof.Machine

/-! ### Plain reads (R18) -/

/-- A read of a register without an effect gives its word, or the one latched. -/
theorem State.regRead_plain (s : State) (r : Req) (key : Nat) (h : plainRead key = true) : s.regRead r key = s.readWord r.master key := by
  unfold plainRead regAt at h
  unfold State.regRead
  cases hrow : findRow (key / 0x100000) (key % 0x100000) with
  | none => simp [hrow]
  | some row =>
    cases hidx : row.indexOf (key % 0x100000) with
    | none => simp [hrow, hidx]
    | some ij =>
      simp [hrow, hidx, effectReads] at h
      obtain ⟨hpatrol, hadvise, htake, hrng, hcmp⟩ := h
      simp [hrow, hidx, hpatrol, hadvise, htake, hrng, hcmp]

theorem State.readWord_latched {s : State} {m key : Nat} {v : BitVec 32} (h : Tab.look s.hiLatch (m * 0x4000000 + key) = some v) :
    s.readWord m key = (v.toNat, s) := by
  simp [State.readWord, h]

theorem State.readWord_unlatched {s : State} {m key : Nat} (h : Tab.look s.hiLatch (m * 0x4000000 + key) = none) :
    s.readWord m key = s.readLo m key := by
  simp [State.readWord, h]

theorem State.readLo_pair (s : State) (m key : Nat) (h : isPairLo key = true) :
    s.readLo m key = (s.readValue m key,
      { s with hiLatch := Tab.put s.hiLatch (m * 0x4000000 + key + 4) (BitVec.ofNat 32 (s.readValue m (key + 4))) }) := by
  simp [State.readLo, h]

theorem State.readLo_single (s : State) (m key : Nat) (h : isPairLo key = false) : s.readLo m key = (s.readValue m key, s) := by
  simp [State.readLo, h]

section
variable {s : State} {r : Req} {key : Nat} {P : State → Prop}

/-- A granted read of a register without an effect is acknowledged with what readWord gives. -/
theorem registerLoRead_plain {x : Nat × State} (hg : s.grants r key false) (hr : plainRead key = true)
    (hx : s.fresh.readWord r.master key = x) (hp : P x.2) :
    Acks (.registerLoRead r key) s r (key / 0x100000) (leBytes 4 x.1) P := by
  have hw : key / 0x100000 < 0x40 := State.window_of_gateReg (by rw [hg.2]; simp)
  obtain rfl : s.fresh.regRead r key = x := (s.fresh.regRead_plain r key hr).trans hx
  exact acks_of_read (k := fun s => s.regRead r key) (exec_registerLoRead r s (key_lt_of_window hw)) hg hp

/-- A read of a word that is latched gives what was latched. -/
theorem registerLoRead_latched {v : BitVec 32} (hg : s.grants r key false) (hr : plainRead key = true)
    (hv : Tab.look s.hiLatch (r.master * 0x4000000 + key) = some v) (hp : P s.fresh) :
    Acks (.registerLoRead r key) s r (key / 0x100000) (leBytes 4 v.toNat) P := by
  have ack := registerLoRead_plain (P := P) hg hr (State.readWord_latched (s := s.fresh) hv) hp
  exact ack

/-- A read of a low word latches the upper word of that instant for its master. -/
theorem registerLoRead_pair (hg : s.grants r key false) (hr : plainRead key = true) (hl : isPairLo key = true)
    (hn : Tab.look s.hiLatch (r.master * 0x4000000 + key) = none)
    (hp : P { s.fresh with
      hiLatch := Tab.put s.hiLatch (r.master * 0x4000000 + key + 4) (BitVec.ofNat 32 (s.fresh.readValue r.master (key + 4))) }) :
    Acks (.registerLoRead r key) s r (key / 0x100000) (leBytes 4 (s.fresh.readValue r.master key)) P := by
  have word := (State.readWord_unlatched (s := s.fresh) hn).trans (s.fresh.readLo_pair r.master key hl)
  have ack := registerLoRead_plain (P := P) hg hr word hp
  exact ack

/-- A read of a word that is no low word and is not latched latches nothing. -/
theorem registerLoRead_single (hg : s.grants r key false) (hr : plainRead key = true) (hl : isPairLo key = false)
    (hn : Tab.look s.hiLatch (r.master * 0x4000000 + key) = none) (hp : P s.fresh) :
    Acks (.registerLoRead r key) s r (key / 0x100000) (leBytes 4 (s.fresh.readValue r.master key)) P := by
  have word := (State.readWord_unlatched (s := s.fresh) hn).trans (s.fresh.readLo_single r.master key hl)
  have ack := registerLoRead_plain (P := P) hg hr word hp
  exact ack

end

/-! ### Plain writes (R19, R23) -/

theorem State.unitCommand_none {g : RegId} (h : commandRegs.contains g = false) (s : State) (r : Req) (i j w : Nat) :
    s.unitCommand r g i j w = none := by
  simp [commandRegs] at h
  simp [State.unitCommand, h]

theorem State.submitHi_none {g : RegId} (h : commandRegs.contains g = false) (s : State) (r : Req) (n w : Nat) :
    s.submitHi r g n w = none := by
  simp [commandRegs] at h
  simp [State.submitHi, h]

theorem State.keepHalf_none {g : RegId} (h : commandRegs.contains g = false) (s : State) (m i n w : Nat) :
    s.keepHalf m g i n w = none := by
  simp [commandRegs] at h
  simp [State.keepHalf, h]

/-- A write of a register that only stores stores. -/
theorem State.writeEffect_plain (s : State) (r : Req) (key w : Nat) (h : plainRegister key = true) :
    s.writeEffect r key w = s.storeReg key w := by
  simp only [plainRegister, regAt, Bool.and_eq_true] at h
  replace h := h.1
  unfold State.writeEffect
  cases hrow : findRow (key / 0x100000) (key % 0x100000) with
  | none => simp [hrow] at h
  | some row =>
    cases hidx : row.indexOf (key % 0x100000) with
    | none => simp [hrow, hidx] at h
    | some ij =>
      simp only [hrow, hidx, Option.bind_some, Option.map_some, Bool.not_eq_true'] at h
      simp only [hrow, hidx, State.unitCommand_none h, State.submitHi_none h, State.keepHalf_none h]
      simp [commandRegs] at h
      simp [h]

theorem not_inDigestPage_of_plainRegister {key : Nat} (h : plainRegister key = true) : ¬ inDigestPage key := by
  simp only [plainRegister, Bool.and_eq_true, Bool.not_eq_true', Bool.and_eq_false_imp, decide_eq_true_eq, decide_eq_false_iff_not] at h
  exact fun ⟨hw, hlo, hhi⟩ => h.2 ⟨hw, hlo⟩ hhi

/-- No submission to an absent channel passes the gate. -/
theorem not_absentSubmission_of_go {s : State} {r : Req} {key : Nat} {wr : Bool} (h : s.gateReg r key wr = .go) :
    ¬ absentSubmission s.part key := by
  have hp := State.placePresent_of_go h
  simp only [placePresent, Bool.and_eq_true] at hp
  exact fun ⟨_, habs, _⟩ => by simp [habs] at hp

theorem State.storeReg_written {s : State} {key w v : Nat} (h : s.written key w = some v) : s.storeReg key w = s.setReg key v := by
  simp [State.storeReg, h]

/-- What a write leaves in a register does not depend on the outputs of the command before. -/
theorem State.written_fresh (s : State) (key w : Nat) : s.fresh.written key w = s.written key w := rfl

end Sys2Proof.Machine
end

section
/-!
SUPPORT. The statements of chapter 0: every command steps on, refused accesses, pairs, counters, identity words, the order of the checks.
-/
namespace Sys2Proof.Machine

/-! ### Every command steps on -/

theorem exec_keeps_queue_and_part (c : Instr) (s : State) : ∃ t, exec c s = .next t ∧ t.pending = s.pending ∧ t.part = s.part := by
  obtain ⟨u, hu⟩ := exec_form c s
  exact ⟨s.oneWay u, hu, rfl, rfl⟩

theorem step_takes_front (s : State) : ∃ t, step s = .next t ∧ t.pending = s.pending.tail ∧ t.part = s.part := by
  cases hq : s.pending with
  | nil => exact ⟨s.tick, by simp [step, hq], hq, rfl⟩
  | cons c rest =>
    obtain ⟨t, ht, hpending, hpart⟩ := exec_keeps_queue_and_part c { s with pending := rest }
    exact ⟨t, by simp [step, hq, ht], hpending, hpart⟩

/-- Settles O35: every meaning ends in State.done, whose merge keeps the queue and the part. -/
theorem everyStepAnswersNext : Obligations.EveryStepAnswersNext :=
  ⟨exec_keeps_queue_and_part, step_takes_front⟩

/-! ### Counters (R20) -/

theorem State.countW_onlyChanges (s : State) (lo hi : RegId) (n i j : Nat) : s.onlyChanges (s.countW lo hi n i j) [.regs] :=
  s.putPair_onlyChanges _ _ _ _ _

theorem State.countW_regsBut (s : State) (lo hi : RegId) (n i j : Nat) : s.regsBut (s.countW lo hi n i j) [lo.key i j, hi.key i j] :=
  s.putPair_regsBut _ _ _ _ _

/-- A class W counter wraps at 64 bits. -/
theorem State.pair_countW (s : State) (lo hi : RegId) (n i j : Nat) (h : lo.key i j ≠ hi.key i j) :
    (s.countW lo hi n i j).pair lo hi i j = (s.pair lo hi i j + n) % 2 ^ 64 := by
  rw [State.countW, State.pair_putPair_same _ _ _ _ _ _ h, Nat.mod_mod]

/-- A full class E bin stays and reports nothing. -/
theorem SeriesBlock.binUp_full {b : SeriesBlock} {i : Nat} (h : b.bins.getD i 0 = 2 ^ 32 - 1) : b.binUp i = (b, false) := by
  simp only [SeriesBlock.binUp, h, if_true]

/-- A class E bin that is not full rises by one and reports when that fills it. -/
theorem SeriesBlock.binUp_rises {b : SeriesBlock} {i : Nat} (h : b.bins.getD i 0 ≠ 2 ^ 32 - 1) :
    (b.binUp i).1.bins = b.bins.set i (b.bins.getD i 0 + 1) ∧ (b.binUp i).1.count = b.count ∧ (b.binUp i).1.sum = b.sum
      ∧ ((b.binUp i).2 = true ↔ b.bins.getD i 0 + 1 = 2 ^ 32 - 1) := by
  simp only [SeriesBlock.binUp, if_neg h]
  split
  case isTrue hfull => exact ⟨rfl, rfl, rfl, iff_of_true rfl hfull⟩
  case isFalse hroom => exact ⟨rfl, rfl, rfl, iff_of_false Bool.false_ne_true hroom⟩

/-- Settles O44: the counts of the three classes, each by what its operation writes. -/
theorem countersKeepTheirClass : Obligations.CountersKeepTheirClass := by
  unfold Obligations.CountersKeepTheirClass
  refine ⟨?classS, ?classW, ?classE⟩
  case classS =>
    intro s a o n i j hr ha hle ho hl hbeside
    refine ⟨?_, s.flag_countS_overflow a o n i j hr ho hl (by omega), s.countS_regsBut a o n i j hr, s.countS_onlyChanges a o n i j⟩
    rw [s.fld_countS_same a o n i j hr ha (by omega), satAdd_eq_min]
  case classW =>
    intro s lo hi n i j hk
    exact ⟨s.pair_countW lo hi n i j hk, s.countW_regsBut lo hi n i j, s.countW_onlyChanges lo hi n i j⟩
  case classE =>
    intro b i hi hbins
    have hword : b.bins.getD i 0 < 2 ^ 32 := by
      rw [List.getD_eq_getElem _ _ hi]
      exact hbins _ (List.getElem_mem hi)
    by_cases hfull : b.bins.getD i 0 = 2 ^ 32 - 1
    · simp only [SeriesBlock.binUp_full hfull, hfull]
      simp
    · obtain ⟨hset, hcount, hsum, hreport⟩ := SeriesBlock.binUp_rises hfull
      refine ⟨?_, hreport, ?_, hcount, hsum⟩
      · rw [hset, List.getD_eq_getElem _ _ (by simpa using hi), List.getElem_set_self]
        omega
      · intro j hj
        simp [hset, List.getD, List.getElem?_set_ne hj.symm]

/-! ### Pairs (R18) -/

/-- Settles O43: a read of a low word puts one latch, every other plain read none. -/
theorem pairReadsLatchPerMaster : Obligations.PairReadsLatchPerMaster := by
  unfold Obligations.PairReadsLatchPerMaster
  refine ⟨?low, ?latched, ?single⟩
  case low =>
    intro s r key hg hr hl hn
    exact registerLoRead_pair hg hr hl hn ⟨Tab.look_put_same _ _ _, fun k hk => Tab.look_put_other _ _ _ _ hk,
      State.onlyChanges_mono (State.onlyChanges_of_fresh (s.fresh.hiLatch_onlyChanges _)) (by simp)⟩
  case latched =>
    intro s r key v hg hr hv
    exact registerLoRead_latched hg hr hv s.fresh_onlyChanges
  case single =>
    intro s r key hg hr hl hn
    exact registerLoRead_single hg hr hl hn s.fresh_onlyChanges

/-! ### Plain registers (R18, R19) -/

theorem onlyChanges_of_stored (s : State) (key v : Nat) : s.onlyChanges (s.fresh.setReg key v) [.regs, .out] :=
  State.onlyChanges_of_fresh (s.fresh.setReg_onlyChanges key v)

/-- Settles O1: a plain write is State.storeReg, a plain read is State.readWord. -/
theorem registerAccessCompletes : Obligations.RegisterAccessCompletes := by
  unfold Obligations.RegisterAccessCompletes
  refine ⟨?write, ?read, ?param⟩
  case write =>
    intro s r key w v hk hg hp hv
    have effect : s.fresh.writeEffect r key (w % 2 ^ 32) = s.fresh.setReg key v :=
      (s.fresh.writeEffect_plain r key _ hp).trans (State.storeReg_written ((s.written_fresh key _).trans hv))
    have run : exec (.registerWrite r key w) s = (s.fresh.atRegW r key (fun u => u.writeEffect r key (w % 2 ^ 32))).done s := by
      rw [exec_registerWrite r w s hk,
        s.fresh.regStore_eq_atRegW r key _ (not_inDigestPage_of_plainRegister hp) (not_absentSubmission_of_go (s := s.fresh) hg.2)]
    refine acks_of_write run hg ?_
    rw [effect]
    exact ⟨State.getReg_setReg_same _ _ _, s.fresh.setReg_regsBut key v, onlyChanges_of_stored s key v⟩
  case read =>
    intro s r key _ hg hr hn
    cases hl : isPairLo key with
    | true =>
      exact registerLoRead_pair hg hr hl hn ⟨State.onlyChanges_of_fresh (s.fresh.hiLatch_onlyChanges _),
        fun _ => Tab.look_put_same _ _ _, fun h => Bool.noConfusion h⟩
    | false =>
      exact registerLoRead_single hg hr hl hn
        ⟨State.onlyChanges_mono s.fresh_onlyChanges (by simp), fun h => Bool.noConfusion h, fun _ => rfl⟩
  case param =>
    intro s r n w v hg hv
    have win : HSF_PERT_PARAM.key (n % 4) 0 / 0x100000 = HSF_PERT_PARAM.win := by
      simp only [RegId.key, HSF_PERT_PARAM]
      omega
    rw [← win]
    refine acks_of_write (k := fun u => u.storeReg (HSF_PERT_PARAM.key (n % 4) 0) w) rfl hg ?_
    rw [State.storeReg_written ((s.written_fresh _ w).trans hv)]
    exact ⟨State.getReg_setReg_same _ _ _, s.fresh.setReg_regsBut _ v, onlyChanges_of_stored s _ v⟩

/-! ### The order of the checks (R9, R22) -/

/-- Settles O48: the gate asks the access table before it asks whether the window is defined. -/
theorem accessTableComesBeforeAbsence : Obligations.AccessTableComesBeforeAbsence := by
  unfold Obligations.AccessTableComesBeforeAbsence
  refine ⟨?windows, ?beyond⟩
  case windows =>
    intro s r key hm hw hf
    refine ⟨?readDenied, ?writeDenied, ?undefined⟩
    case readDenied =>
      intro ha
      exact registerLoRead_denied hm (s.gateReg_notAdmitted r key false hw hf ha) (State.fld_denied_lastTarget _ _ _ _ _)
    case writeDenied =>
      intro ha w
      exact registerWrite_denied w hm (s.gateReg_notAdmitted r key true hw hf ha) (State.fld_denied_lastTarget _ _ _ _ _)
    case undefined =>
      intro hu
      have hrange : 0x18 ≤ key / 0x100000 ∧ key / 0x100000 < 0x20 := by
        simp only [winDefined, Bool.or_eq_false_iff, Bool.and_eq_false_imp, decide_eq_true_eq, decide_eq_false_iff_not] at hu
        omega
      refine ⟨fun ha hx => ?_, fun ha hx w => ?_⟩
      · have gate : s.gateReg r key false = .err .decerr := by simp [s.gateReg_admitted r key false hw hf ha hx, hu]
        exact registerLoRead_error (key_lt_of_window hw) hm gate s.fresh_onlyChanges
      · have gate : s.gateReg r key true = .err .decerr := by simp [s.gateReg_admitted r key true hw hf ha hx, hu]
        refine registerWrite_error w (key_lt_of_window hw) hm gate (fun hd => ?_) (fun hs => ?_) s.fresh_onlyChanges
        · have := hd.1
          omega
        · have := hs.1.1
          omega
  case beyond =>
    intro s r key w hm hw hk
    refine ⟨registerLoRead_error hk hm (s.gateReg_beyondWindows r key false hw) s.fresh_onlyChanges,
      registerWrite_error w hk hm (s.gateReg_beyondWindows r key true hw) (fun hd => ?_) (fun hs => ?_) s.fresh_onlyChanges⟩
    · have := hd.1
      omega
    · have := hs.1.2
      omega

/-! ### Refused accesses (R8, R9, R59, R438) -/

/-- Below the register windows there is no data port. -/
theorem dataPort_of_not_inWindows {addr : Nat} (h : inWindows addr = false) : dataPort addr = none := by
  simp only [inWindows, decide_eq_false_iff_not] at h
  simp only [dataPort, ite_eq_right_iff]
  omega

theorem State.memRead_denied {s : State} {r : Req} {addr n c : Nat} (pe ce : CellErr) (hot : Bool) (hm : s.issues r = true)
    (h : s.gateMem r addr n true false = .deny c) :
    s.memRead r addr n pe ce hot = (s.denied r (targetOf addr) addr c).answer r.master (targetOf addr) .accerr [] := by
  simp [State.memRead, hm, h]

theorem memoryRead_denied {s : State} {r : Req} {addr n c : Nat} {P : State → Prop} (pe ce : CellErr) (hot : Bool)
    (hw : inWindows addr = false) (hm : s.issues r = true) (h : s.gateMem r addr n true false = .deny c)
    (hp : P (s.fresh.denied r (targetOf addr) addr c)) :
    EndsWith (.memoryRead r addr n pe ce hot) s r (targetOf addr) .accerr [] P := by
  have run : exec (.memoryRead r addr n pe ce hot) s = (s.fresh.busRead r addr n pe ce hot).done s := rfl
  have bus : s.fresh.busRead r addr n pe ce hot = s.fresh.memRead r addr n pe ce hot := by
    simp [State.busRead, dataPort_of_not_inWindows hw, hw]
  exact endsWith_of_answer (by rw [run, bus, State.memRead_denied (s := s.fresh) pe ce hot hm h]) hp

/-- An absent place that is defined and aligned is passed over quietly, once the table and the fixed rules let the access pass. -/
theorem State.gateReg_absent {s : State} {r : Req} {key : Nat} {wr : Bool} (hw : key / 0x100000 < 0x40)
    (hf : key / 0x100000 ∉ s.hsf.fenced) (ha : s.admitted r (key / 0x100000) (key % 0x100000) 4 (!wr) wr = true)
    (hx : s.regFixed r (key / 0x100000) (key % 0x100000) wr = true) (hd : winDefined (key / 0x100000) = true) (h4 : key % 4 = 0)
    (hp : placePresent s.part (key / 0x100000) (key % 0x100000) = false) : s.gateReg r key wr = .quiet := by
  simp [s.gateReg_admitted r key wr hw hf ha hx, hd, h4, hp]

/-- The digest engine is in every part. -/
theorem placePresent_of_inDigestPage {key : Nat} (p : Part) (h : inDigestPage key) :
    placePresent p (key / 0x100000) (key % 0x100000) = true := by
  simp [placePresent, unitPresent, blockOf, h.1]

/-- The record of a denial in a command's own state. -/
theorem State.denied_fresh_onlyChanges (s : State) (r : Req) (t addr c : Nat) :
    s.onlyChanges (s.fresh.denied r t addr c) [.regs, .evt, .out] :=
  State.onlyChanges_of_fresh (s.fresh.denied_onlyChanges r t addr c)

theorem State.stalled_fresh_onlyChanges (s : State) (m t : Nat) : s.onlyChanges (s.fresh.stalled m t 2) [.regs, .evt, .out] :=
  State.onlyChanges_of_fresh (s.fresh.stalled_atFence_onlyChanges m t)

/-- Settles O40: by the gate's answer, a denial, a stall or a quiet pass, whose whole effect is its record. -/
theorem refusedAccessesHaveNoEffect : Obligations.RefusedAccessesHaveNoEffect := by
  unfold Obligations.RefusedAccessesHaveNoEffect
  refine ⟨?register, ?memory, ?fenced, ?absent⟩
  case register =>
    intro s r key c hm
    have inbox := s.fresh.denied_inbox r (key / 0x100000) (0xF000000000 + key) c
    have count := s.fresh.fld_denied_denied r (key / 0x100000) (0xF000000000 + key) c
    have regs := s.fresh.denied_regsBut r (key / 0x100000) (0xF000000000 + key) c
    have frame := s.denied_fresh_onlyChanges r (key / 0x100000) (0xF000000000 + key) c
    exact ⟨fun h w => registerWrite_denied w hm h ⟨inbox, count, State.fld_denied_lastMaster _ _ _ _ _,
        State.fld_denied_lastTarget _ _ _ _ _, State.pair_denied_addr _ _ _ _ _, regs, frame⟩,
      fun h => registerLoRead_denied hm h ⟨inbox, count, regs, frame⟩⟩
  case memory =>
    intro s r addr n c pe ce hot hw hm h
    exact memoryRead_denied pe ce hot hw hm h
      ⟨s.fresh.denied_inbox _ _ _ _, State.pair_denied_addr _ _ _ _ _, s.denied_fresh_onlyChanges _ _ _ _⟩
  case fenced =>
    intro s r key hm hw hf
    have inbox := s.fresh.stalled_atFence_inbox r.master (key / 0x100000)
    have regs := s.fresh.stalled_atFence_regsBut r.master (key / 0x100000)
    have frame := s.stalled_fresh_onlyChanges r.master (key / 0x100000)
    refine ⟨registerLoRead_stalled hm (s.gateReg_fenced r key false hw hf) ⟨inbox, regs, frame⟩, fun h5 hu w => ?_⟩
    exact registerWrite_stalled w hm (s.gateReg_fenced r key true hw hf) (fun hd => h5 hd.1) (fun ⟨_, habs, _⟩ => by simp [hu] at habs)
      ⟨inbox, regs, frame⟩
  case absent =>
    intro s r key write hm hw hf ha hx hd h4 hp
    have quiet := State.gateReg_absent hw hf ha hx hd h4 hp
    refine ⟨fun hread => ?_, fun hwrite hlo hhi w => ?_⟩
    · subst hread
      exact registerLoRead_quiet hm quiet s.fresh_onlyChanges
    · subst hwrite
      refine registerWrite_quiet w hm quiet (fun hpage => ?_) (fun ⟨_, _, hoff⟩ => hoff.elim hlo hhi) s.fresh_onlyChanges
      simp [placePresent_of_inDigestPage s.part hpage] at hp

/-! ### Identity words (R6, R7) -/

theorem idWord_pos (cls inst : Nat) : 0 < idWord cls inst := by
  unfold idWord
  omega

/-- Where a place holds an identity word, that is what it reads (R6). -/
theorem State.readValue_identity {s : State} {key v : Nat} (m : Nat)
    (h : identityAt s.part (key / 0x100000) (key % 0x100000) = some v) : s.readValue m key = v := by
  simp [State.readValue, h]

/-- SYS_CAP_UNITS has no view of its own: it reads what the register map holds. -/
theorem State.readValue_capUnits (s : State) (m : Nat) : s.readValue m (SYS_CAP_UNITS.key 0 0) = s.reg SYS_CAP_UNITS := by
  have window : SYS_CAP_UNITS.key 0 0 / 0x100000 = 0 := by decide
  have place : SYS_CAP_UNITS.key 0 0 % 0x100000 = 0x10 := by decide
  have noIdentity : identityAt s.part 0 0x10 = none := by simp [identityAt, blockOf]
  have row : findRow 0 0x10 = some ⟨0x10, 0x0, 1, 0x0, 1, 0x0, 0x0, 0x0, 0x0, 0x0⟩ := by decide
  have noView : s.view m ⟨winBase 0, 0x10, 0, 0⟩ 0 0 0 = none := rfl
  simp only [State.readValue, window, place, noIdentity, row]
  simp [RegRow.indexOf, noView, State.reg]

/-- A state of a GLT7440 whose register map holds zero at SYS_CAP_UNITS. -/
def capUnitsZeroed : State := State.reset.putReg SYS_CAP_UNITS 0

theorem capUnitsZeroed_reads (m : Nat) : capUnitsZeroed.readValue m (SYS_CAP_UNITS.key 0 0) = 0 := by
  rw [State.readValue_capUnits, capUnitsZeroed, State.reg_putReg_same, Nat.zero_mod]

/-- Refutes O47: the statement is made of every state, and in one whose register map holds zero at SYS_CAP_UNITS (a write
leaves that register alone, but a state may hold any word there) the word counts no flash channel, while the identity word of channel 0 is
not zero. -/
theorem not_identityWordsNameThePresentUnits : ¬ Obligations.IdentityWordsNameThePresentUnits := by
  unfold Obligations.IdentityWordsNameThePresentUnits
  rintro ⟨-, -, counts⟩
  obtain ⟨channels, -⟩ := counts capUnitsZeroed 0
  rw [capUnitsZeroed_reads, eq_comm, show bits 0 31 26 = 0 from rfl, List.length_eq_zero_iff, List.filter_eq_nil_iff] at channels
  have absent := channels 0 (by decide)
  have present : capUnitsZeroed.readValue 0 0x2000000 = idWord 0x20 0 := State.readValue_identity 0 rfl
  simp only [ne_eq, decide_not, Bool.not_eq_true', decide_eq_false_iff_not, not_not] at absent
  exact absurd (present.symm.trans absent) (idWord_pos 0x20 0).ne'

end Sys2Proof.Machine
end

section
/-!
SUPPORT. Chapter 1, what a host sees through its ports: the status window, the controller registers, and the data ports of engines.
-/
namespace Sys2Proof.Machine

/-! ### The idle step (R29) -/

theorem State.tick_onlyChanges (s : State) : s.onlyChanges s.tick [.time, .out] := by
  intro p hp
  cases p
  case time => exact absurd (by simp) hp
  case out => exact absurd (by simp) hp
  all_goals rfl

/-- Settles O34: a step on an empty queue is one tick. -/
theorem stepIdlesOnEmptyQueue : Obligations.StepIdlesOnEmptyQueue := by
  unfold Obligations.StepIdlesOnEmptyQueue
  intro s hq
  exact ⟨s.tick, by simp [step, hq], rfl, rfl, s.tick_onlyChanges⟩

/-! ### What does not depend on the outputs of the command before -/

theorem State.readValue_fresh (s : State) (m key : Nat) : s.fresh.readValue m key = s.readValue m key := by cases s; rfl
theorem State.composite_fresh (s : State) : s.fresh.composite = s.composite := by cases s; rfl
theorem State.critical_fresh (s : State) (p : Nat) : s.fresh.critical p = s.critical p := by cases s; rfl
theorem State.boundOn_fresh (s : State) (port p : Nat) : s.fresh.boundOn port p = s.boundOn port p := rfl
theorem State.ctrlRead_fresh (s : State) (p off : Nat) : s.fresh.ctrlRead p off = s.ctrlRead p off := rfl

/-! ### A host's accesses (R25, R307, R309) -/

theorem State.emit_onlyChanges (s : State) (o : Out) : s.onlyChanges (s.emit o) [.out] := by
  intro p hp
  cases p
  case out => exact absurd (List.mem_singleton_self _) hp
  all_goals rfl

theorem State.fresh_emit_onlyChanges (s : State) (o : Out) : s.onlyChanges (s.fresh.emit o) [.out] :=
  State.onlyChanges_trans s.fresh_onlyChanges (s.fresh.emit_onlyChanges o)

theorem exec_registerLoRead_host {key : Nat} (r : Req) (s : State) (hk : 2 ^ 32 ≤ key) :
    exec (.registerLoRead r key) s = (s.fresh.hostRead (key - 2 ^ 32)).done s := by
  show execRegisterLoRead r key s = _
  rw [execRegisterLoRead, if_pos hk]

theorem exec_registerWrite_host {key : Nat} (r : Req) (w : Nat) (s : State) (hk : 2 ^ 32 ≤ key) :
    exec (.registerWrite r key w) s = (s.fresh.hostWrite (key - 2 ^ 32) (w % 2 ^ 32)).done s := by
  show execRegisterWrite r key w s = _
  rw [execRegisterWrite, if_pos hk]

/-- Before step 7 the device gives nothing back. -/
theorem State.hostRead_notReady (s : State) (key : Nat) (h : s.boot.modReady = false) : s.hostRead key = s := by
  simp [State.hostRead, h]

theorem State.hostWrite_notReady (s : State) (key w : Nat) (h : s.boot.modReady = false) : s.hostWrite key w = s := by
  simp [State.hostWrite, h]

section
variable {s : State} {key port : Nat} (hport : key / 2 ^ 28 = port)
include hport

/-- A read of BAR2 is one of the status window. -/
theorem State.hostRead_status {off : Nat} (hready : s.boot.modReady = true) (hon : s.portOn port = true)
    (hbar : key / 2 ^ 27 % 2 = 1) (hoff : key % 2 ^ 27 / 4 * 4 % 0x1000 = off) :
    s.hostRead key = (s.statusRead port off).2.emit (.bar (leBytes 4 (s.statusRead port off).1)) := by
  simp only [State.hostRead, hport, hbar, hoff, hready, hon, Bool.not_true, Bool.false_eq_true, or_self, if_false, if_true]

/-- A read of the first page of a window of BAR0 gives the controller register of a pod bound there. -/
theorem State.hostRead_window {p off : Nat} (hready : s.boot.modReady = true) (hon : s.portOn port = true)
    (hbar : key / 2 ^ 27 % 2 ≠ 1) (hpod : key % 2 ^ 27 / 4 * 4 / 0x4000 = p)
    (hoff : key % 2 ^ 27 / 4 * 4 % 0x4000 = off) (ho : off < 0x1000) :
    s.hostRead key = s.emit (.bar (leBytes 4 (if s.boundOn port p then s.ctrlRead p off else 0))) := by
  simp only [State.hostRead, hport, if_neg hbar, hpod, hoff, hready, hon, ho, Bool.not_true, Bool.false_eq_true, or_self, if_false, and_true]

/-- A write of a window that no bound pod has is discarded. -/
theorem State.hostWrite_unbound {p : Nat} (w : Nat) (hpod : key % 2 ^ 27 / 4 * 4 / 0x4000 = p) (hb : s.boundOn port p = false) :
    s.hostWrite key w = s := by
  simp only [State.hostWrite, hport, hpod, hb, Bool.not_false, or_true, if_true]

end

/-- A write of BAR2 is discarded. -/
theorem State.hostWrite_status (s : State) {key : Nat} (w : Nat) (hbar : key / 2 ^ 27 % 2 = 1) : s.hostWrite key w = s := by
  simp only [State.hostWrite, hbar, true_or, or_true, if_true]

/-- The word of Table 10.8 at an offset of the status window. -/
def State.windowWord (s : State) (port off : Nat) : Nat :=
  let word := fun (g : RegId) (i : Nat) => s.readValue 0 (g.key i 0)
  if off = 0x000 then Config.capUnits s.part else if off = 0x004 then word CFG_BOOT_STAT 0
  else if off = 0x008 then word CFG_RESET_CAUSE 0 else if off = 0x00C then word FTL_DUR 0 else if off = 0x010 then s.time % 2 ^ 32
  else if off = 0x014 then Tab.lookD s.host.barTime port (s.time / 2 ^ 32 % 2 ^ 32)
  else if off = 0x018 then s.composite % 2 ^ 16 * 2 ^ 16 + s.critical 0 % 256 else if off = 0x01C then word FTL_STAT 0
  else if off = 0x020 then word HIF_LINK_STAT 0 else if off = 0x024 then word HIF_LINK_STAT 1 else if off = 0x028 then word HIF_CHAN 0
  else if off = 0x02C then word HIF_CHAN 1 else if off = 0x030 then word FTL_SPARE_STAT 0 else 0

theorem State.statusRead_value (s : State) (port off : Nat) : (s.statusRead port off).1 = s.windowWord port off := by
  unfold State.statusRead State.windowWord
  simp only [apply_ite Prod.fst]

theorem State.windowWord_fresh (s : State) (port off : Nat) : s.fresh.windowWord port off = s.windowWord port off := by
  simp only [State.windowWord, s.readValue_fresh, s.composite_fresh, s.critical_fresh, s.fresh_part, s.fresh_time, s.fresh_host]

/-- Only a read of device time's low word leaves something: the latch of the upper word. -/
theorem State.statusRead_state (s : State) (port off : Nat) :
    (s.statusRead port off).2
      = if off = 0x010 then s.modHost (fun h => { h with barTime := Tab.put h.barTime port (s.time / 2 ^ 32 % 2 ^ 32) }) else s := by
  unfold State.statusRead
  by_cases h : off = 0x010
  · subst h
    rfl
  · simp only [apply_ite Prod.snd, if_neg h, ite_self]

theorem State.modHost_onlyChanges (s : State) (f : HostState → HostState) : s.onlyChanges (s.modHost f) [.host] := by
  intro p hp
  cases p
  case host => exact absurd (List.mem_singleton_self _) hp
  all_goals rfl

theorem State.timeLatch_onlyChanges (s : State) (f : HostState → HostState) (o : Out) :
    s.onlyChanges ((s.fresh.modHost f).emit o) [.host, .out] :=
  State.onlyChanges_trans
    (State.onlyChanges_mono (State.onlyChanges_of_fresh (s.fresh.modHost_onlyChanges f)) (by simp))
    (State.onlyChanges_mono (State.emit_onlyChanges _ o) (by simp))

/-! ### Data ports (R10, R59) -/

/-- The port that an address stands for (log entry 164). -/
theorem dataPort_eq {addr win i : Nat} (hlo : 2 ^ 48 ≤ addr) (hhi : addr < 2 ^ 48 + 0x40 * 2 ^ 40) (hwin : (addr - 2 ^ 48) / 2 ^ 40 = win)
    (hi : addr / 2 ^ 32 % 256 = i) : dataPort addr = some (win, i) := by
  rw [dataPort, if_pos ⟨hlo, hhi⟩, hwin, hi]

theorem exec_memoryRead_port {addr win i : Nat} (s : State) (r : Req) (n : Nat) (pe ce : CellErr) (hot : Bool)
    (hp : dataPort addr = some (win, i)) :
    exec (.memoryRead r addr n pe ce hot) s = (s.fresh.portAccess r win i n false).done s := by
  show (s.fresh.busRead r addr n pe ce hot).done s = _
  simp only [State.busRead, hp]

theorem exec_memoryWrite_port {addr win i : Nat} (s : State) (r : Req) (d : List Byte) (hot : Bool) (hp : dataPort addr = some (win, i)) :
    exec (.memoryWrite r addr d none hot) s = (s.fresh.portAccess r win i d.length true).done s := by
  show (s.fresh.busWrite r addr d hot).done s = _
  simp only [State.busWrite, hp]

theorem State.portAccess_fenced {s : State} {r : Req} {win : Nat} (i n : Nat) (wr : Bool) (hm : s.issues r = true) (hf : 0x80 + win ∈ s.hsf.fenced) :
    s.portAccess r win i n wr = (s.stalled r.master (0x80 + win) 2).answer r.master (0x80 + win) .hstall [] := by
  simp [State.portAccess, hm, hf]

theorem State.portAccess_absent {s : State} {r : Req} {win i : Nat} (n : Nat) (wr : Bool) (hm : s.issues r = true)
    (hf : 0x80 + win ∉ s.hsf.fenced) (hd : winDefined win = true) (hp : portPresent s.part win i = false) :
    s.portAccess r win i n wr = s.answer r.master (0x80 + win) .absent [] := by
  simp [State.portAccess, hm, hf, hd, hp]

/-- Settles O50: the keys and addresses are read back into port, window and offset, and each access is one of the host's or of a data port. -/
theorem hostWindowsAndDataPortsAnswer : Obligations.HostWindowsAndDataPortsAnswer := by
  unfold Obligations.HostWindowsAndDataPortsAnswer
  refine ⟨?status, ?window, ?early, ?port⟩
  case status =>
    intro s r port off _ hready hon ho h4 key word value
    have hk : 2 ^ 32 ≤ key := by omega
    have hport : (key - 2 ^ 32) / 2 ^ 28 = port := by omega
    have hbar : (key - 2 ^ 32) / 2 ^ 27 % 2 = 1 := by omega
    have hoff : (key - 2 ^ 32) % 2 ^ 27 / 4 * 4 % 0x1000 = off := by omega
    have hvalue : (s.fresh.statusRead port off).1 = value := (s.fresh.statusRead_value port off).trans (s.windowWord_fresh port off)
    clear_value key value
    refine ⟨completes_of_done ((exec_registerLoRead_host r s hk).trans
        (by rw [State.hostRead_status (s := s.fresh) hport hready hon hbar hoff, hvalue, State.statusRead_state])) ?_,
      fun w => completes_of_done (by rw [exec_registerWrite_host r w s hk, State.hostWrite_status _ _ hbar]) ⟨s.fresh_onlyChanges, rfl⟩⟩
    by_cases htime : off = 0x010
    · rw [if_pos htime]
      exact ⟨rfl, fun _ => ⟨Tab.look_put_same _ _ _, s.timeLatch_onlyChanges _ _⟩, fun h => absurd htime h⟩
    · rw [if_neg htime]
      exact ⟨rfl, fun h => absurd h htime, fun _ => s.fresh_emit_onlyChanges _⟩
  case window =>
    intro s r port p off _ hp ho h4 hready hon key
    have hk : 2 ^ 32 ≤ key := by omega
    have hport : (key - 2 ^ 32) / 2 ^ 28 = port := by omega
    have hbar : (key - 2 ^ 32) / 2 ^ 27 % 2 ≠ 1 := by omega
    have hpod : (key - 2 ^ 32) % 2 ^ 27 / 4 * 4 / 0x4000 = p := by omega
    have hoff : (key - 2 ^ 32) % 2 ^ 27 / 4 * 4 % 0x4000 = off := by omega
    clear_value key
    refine ⟨completes_of_done ((exec_registerLoRead_host r s hk).trans
        (by rw [State.hostRead_window (s := s.fresh) hport hready hon hbar hpod hoff ho, s.boundOn_fresh, s.ctrlRead_fresh])) ⟨s.fresh_emit_onlyChanges _, rfl⟩, fun w hb => ?_⟩
    exact completes_of_done (by rw [exec_registerWrite_host r w s hk, State.hostWrite_unbound (s := s.fresh) hport _ hpod hb])
      ⟨s.fresh_onlyChanges, rfl⟩
  case early =>
    intro s r key w hk hready
    exact ⟨completes_of_done (by rw [exec_registerLoRead_host r s hk, s.fresh.hostRead_notReady _ hready]) ⟨s.fresh_onlyChanges, rfl⟩,
      completes_of_done (by rw [exec_registerWrite_host r w s hk, s.fresh.hostWrite_notReady _ _ hready]) ⟨s.fresh_onlyChanges, rfl⟩⟩
  case port =>
    intro s r win i n pe ce d hot hm hw hi addr
    have hlo : 2 ^ 48 ≤ addr := by omega
    have hhi : addr < 2 ^ 48 + 0x40 * 2 ^ 40 := by omega
    have hwin : (addr - 2 ^ 48) / 2 ^ 40 = win := by omega
    have hport : addr / 2 ^ 32 % 256 = i := by omega
    clear_value addr
    have place := dataPort_eq hlo hhi hwin hport
    refine ⟨fun hf hd hp => ⟨?_, ?_⟩, fun hf => ?_⟩
    · exact endsWith_of_answer (by rw [exec_memoryRead_port _ _ _ _ _ _ place, State.portAccess_absent (s := s.fresh) n false hm hf hd hp])
        s.fresh_onlyChanges
    · exact endsWith_of_answer (by rw [exec_memoryWrite_port _ _ _ _ place, State.portAccess_absent (s := s.fresh) _ true hm hf hd hp])
        s.fresh_onlyChanges
    · exact endsWith_of_answer (by rw [exec_memoryRead_port _ _ _ _ _ _ place, State.portAccess_fenced (s := s.fresh) i n false hm hf])
        ⟨s.fresh.stalled_atFence_inbox _ _, s.fresh.stalled_atFence_regsBut _ _, s.stalled_fresh_onlyChanges _ _⟩

end Sys2Proof.Machine
end

section
/-!
SUPPORT. The handshake fabric: share windows, the watchdog, late acknowledges, speed monitors and perturbation slots.
-/
namespace Sys2Proof.Machine

/-! ### Frames -/

/-- Two changes one after the other. -/
theorem State.onlyChanges_append {s t u : State} {l k : List StateField} (h : s.onlyChanges t l) (g : t.onlyChanges u k) :
    s.onlyChanges u (l ++ k) :=
  State.onlyChanges_trans (State.onlyChanges_mono h (fun _ => List.mem_append_left _))
    (State.onlyChanges_mono g (fun _ => List.mem_append_right _))

theorem State.hsf_onlyChanges (s : State) (h : HsfState) : s.onlyChanges { s with hsf := h } [.hsf] := by
  intro p hp
  cases p
  case hsf => exact absurd (List.mem_singleton_self _) hp
  all_goals rfl

theorem State.notBefore_onlyChanges (s : State) (n : Nat) : s.onlyChanges (s.notBefore n) [.time] := by
  intro p hp
  cases p
  case time => exact absurd (List.mem_singleton_self _) hp
  all_goals rfl

theorem State.stamp_onlyChanges (s : State) (k : Timer) : s.onlyChanges (s.stamp k) [.timers] := by
  intro p hp
  cases p
  case timers => exact absurd (List.mem_singleton_self _) hp
  all_goals rfl

theorem State.every_onlyChanges (s : State) (k : Timer) (n : Nat) : s.onlyChanges (s.every k n) [.time, .timers] :=
  State.onlyChanges_append (s.notBefore_onlyChanges _) (State.stamp_onlyChanges _ k)

theorem State.setBg_onlyChanges (s : State) (n i : Nat) (a : BgAcct) : s.onlyChanges (s.setBg n i a) [.bg] := by
  intro p hp
  cases p
  case bg => exact absurd (List.mem_singleton_self _) hp
  all_goals rfl

/-- What happens every so often has just happened. -/
theorem State.since_every (s : State) (k : Timer) (n : Nat) : (s.every k n).since k = max s.time (s.since k + n) := by
  simp [State.since, State.every, State.stamp, State.notBefore]

/-! ### Share windows (R35, R37) -/

theorem State.bgAcct_setBg_same (s : State) (n i : Nat) (a : BgAcct) : (s.setBg n i a).bgAcct n i = a :=
  Tab.lookD_put_same _ _ _ _

/-- The account of a window that ends: the background waited and stayed below its floor. -/
def State.fellShort (s : State) (n i : Nat) : Bool :=
  (s.bgAcct n i).waiting && decide ((s.bgAcct n i).used * 1000 < s.fld CFG_BGS_SHARE_FLOOR n * bgWindow n)

/-- A class S counter of element i that counts when something holds. -/
def State.countIf (s : State) (b : Bool) (cnt ovf : Field) (i : Nat) : State := if b then s.countS cnt ovf 1 i else s

theorem State.countIf_onlyChanges (s : State) (b : Bool) (cnt ovf : Field) (i : Nat) : s.onlyChanges (s.countIf b cnt ovf i) [.regs] := by
  cases b
  · exact fun p _ => by cases p <;> rfl
  · exact s.countS_onlyChanges cnt ovf 1 i 0

theorem State.countIf_regsBut (s : State) (b : Bool) (cnt ovf : Field) (i : Nat) (hr : ovf.reg = cnt.reg) :
    s.regsBut (s.countIf b cnt ovf i) [cnt.reg.key i 0] := by
  cases b
  · exact fun _ _ => rfl
  · exact s.countS_regsBut cnt ovf 1 i 0 hr

theorem State.fld_countIf_same (s : State) (b : Bool) (cnt ovf : Field) (i : Nat) (hr : ovf.reg = cnt.reg) (hc : cnt.hi < 32)
    (h : ovf.hi < cnt.lo ∧ ovf.lo ≤ ovf.hi ∨ cnt.hi < ovf.lo) :
    (s.countIf b cnt ovf i).fld cnt i = if b then satAdd (2 ^ (cnt.hi + 1 - cnt.lo) - 1) (s.fld cnt i) 1 else s.fld cnt i := by
  cases b
  · rfl
  · exact s.fld_countS_same cnt ovf 1 i 0 hr hc h

theorem State.fld_countIf_beside (s : State) (b : Bool) (cnt ovf g : Field) (i : Nat) (hr : ovf.reg = cnt.reg) (hg : g.reg = cnt.reg)
    (hl : g.hi < 32) (h1 : cnt.hi < g.lo ∧ cnt.lo ≤ cnt.hi ∨ g.hi < cnt.lo) (h2 : ovf.hi < g.lo ∧ ovf.lo ≤ ovf.hi ∨ g.hi < ovf.lo) :
    (s.countIf b cnt ovf i).fld g i = s.fld g i := by
  cases b
  · rfl
  · exact s.fld_countS_beside cnt ovf g 1 i 0 hr hg hl h1 h2

/-- MISSED and CAPPED of a resource count what a window's account says. -/
def State.bgCounted (s : State) (n : Nat) (short capped : Bool) : State :=
  (s.countIf short CFG_BGS_STAT_MISSED CFG_BGS_STAT_MISS_OVF n).countIf capped CFG_BGS_STAT_CAPPED CFG_BGS_STAT_CAP_OVF n

theorem State.bgCounted_onlyChanges (s : State) (n : Nat) (short capped : Bool) : s.onlyChanges (s.bgCounted n short capped) [.regs] :=
  State.onlyChanges_trans (s.countIf_onlyChanges _ _ _ _) (State.countIf_onlyChanges _ _ _ _ _)

theorem State.bgCounted_regsBut (s : State) (n : Nat) (short capped : Bool) : s.regsBut (s.bgCounted n short capped) [CFG_BGS_STAT.key n 0] :=
  State.regsBut_trans (s.countIf_regsBut short CFG_BGS_STAT_MISSED CFG_BGS_STAT_MISS_OVF n rfl)
    (State.countIf_regsBut _ capped CFG_BGS_STAT_CAPPED CFG_BGS_STAT_CAP_OVF n rfl)

theorem State.fld_bgCounted_missed (s : State) (n : Nat) (short capped : Bool) :
    (s.bgCounted n short capped).fld CFG_BGS_STAT_MISSED n
      = if short then satAdd 0x7FFF (s.fld CFG_BGS_STAT_MISSED n) 1 else s.fld CFG_BGS_STAT_MISSED n := by
  rw [State.bgCounted, State.fld_countIf_beside _ capped CFG_BGS_STAT_CAPPED CFG_BGS_STAT_CAP_OVF CFG_BGS_STAT_MISSED n rfl rfl (by decide) (by decide) (by decide),
    s.fld_countIf_same short CFG_BGS_STAT_MISSED CFG_BGS_STAT_MISS_OVF n rfl (by decide) (by decide)]
  rfl

theorem State.fld_bgCounted_capped (s : State) (n : Nat) (short capped : Bool) :
    (s.bgCounted n short capped).fld CFG_BGS_STAT_CAPPED n
      = if capped then satAdd 0x7FFF (s.fld CFG_BGS_STAT_CAPPED n) 1 else s.fld CFG_BGS_STAT_CAPPED n := by
  have missed : (s.countIf short CFG_BGS_STAT_MISSED CFG_BGS_STAT_MISS_OVF n).fld CFG_BGS_STAT_CAPPED n = s.fld CFG_BGS_STAT_CAPPED n :=
    s.fld_countIf_beside short CFG_BGS_STAT_MISSED CFG_BGS_STAT_MISS_OVF CFG_BGS_STAT_CAPPED n rfl rfl (by decide) (by decide) (by decide)
  rw [State.bgCounted, State.fld_countIf_same _ capped CFG_BGS_STAT_CAPPED CFG_BGS_STAT_CAP_OVF n rfl (by decide) (by decide), missed]
  rfl

/-- What the next window starts from. -/
def State.nextAcct (s : State) (n i : Nat) : BgAcct :=
  ⟨0, if s.fellShort n i then s.fld CFG_BGS_SHARE_FLOOR n - (s.bgAcct n i).used * 1000 / bgWindow n else 0, false, false⟩

/-- The end of a share window, before the resource is given to what waits. -/
def State.windowEnded (s : State) (n i : Nat) : State :=
  ((s.every (.window n i) (bgPeriod n)).bgCounted n (s.fellShort n i) (s.bgAcct n i).heldAtCeil).setBg n i (s.nextAcct n i)

theorem State.bgCounted_time (s : State) (n : Nat) (short capped : Bool) : (s.bgCounted n short capped).time = s.time :=
  s.bgCounted_onlyChanges n short capped .time (by decide)

theorem State.bgCounted_timers (s : State) (n : Nat) (short capped : Bool) : (s.bgCounted n short capped).timers = s.timers :=
  s.bgCounted_onlyChanges n short capped .timers (by decide)

theorem State.bgCounted_bg (s : State) (n : Nat) (short capped : Bool) : (s.bgCounted n short capped).bg = s.bg :=
  s.bgCounted_onlyChanges n short capped .bg (by decide)

theorem State.windowEnded_onlyChanges (s : State) (n i : Nat) : s.onlyChanges (s.windowEnded n i) [.time, .timers, .regs, .bg] :=
  State.onlyChanges_append (State.onlyChanges_append (s.every_onlyChanges _ _) (State.bgCounted_onlyChanges _ _ _ _))
    (State.setBg_onlyChanges _ _ _ _)

theorem State.windowEnded_since (s : State) (n i : Nat) : (s.windowEnded n i).since (.window n i) = (s.windowEnded n i).time := by
  have time : (s.windowEnded n i).time = (s.every (.window n i) (bgPeriod n)).time := State.bgCounted_time _ _ _ _
  have since : (s.windowEnded n i).since (.window n i) = (s.every (.window n i) (bgPeriod n)).since (.window n i) := by
    show ((State.bgCounted _ n _ _).timers.find? _ |>.map Prod.snd).getD 0 = _
    rw [State.bgCounted_timers]
    rfl
  rw [since, time, State.since_every, State.every_time]

theorem State.windowEnded_look (s : State) (n i : Nat) {k : Nat} (h : k ≠ 64 * n + i) : Tab.look (s.windowEnded n i).bg k = Tab.look s.bg k := by
  show Tab.look (Tab.put (State.bgCounted _ n _ _).bg (64 * n + i) _) k = _
  rw [Tab.look_put_other _ _ _ _ h, State.bgCounted_bg]
  rfl

theorem exec_bgShareWindowEnd {s : State} {n i : Nat} (hn : n < 4) (hi : i < bgCount s.part n) :
    exec (.bgShareWindowEnd n i) s
      = (let u := s.fresh.windowEnded n i
         if n = 2 then u.dispatch else if n = 3 then u.egressGo i else u).done s := by
  show execBgShareWindowEnd n i s = _
  have range : ¬ (4 ≤ n ∨ bgCount s.fresh.part n ≤ i) := by
    show ¬ (4 ≤ n ∨ bgCount s.part n ≤ i)
    omega
  simp only [execBgShareWindowEnd, if_neg range]
  rfl

/-! ### The watchdog (R55, R58, R59) -/

/-- What the fabric keeps of an HSTALL against a target: the stalls of the last second, and its fence. -/
def HsfState.stallKept (h : HsfState) (t now count : Nat) : HsfState :=
  let recent := (h.stalls ++ [(t, now)]).filter (fun x => now < x.2 + 1000000000)
  if fenceable t then
    if count ≠ 0 ∧ count ≤ (recent.filter (fun x => x.1 = t)).length ∧ t ∉ h.fenced then
      { h with stalls := recent, fenced := h.fenced ++ [t] }
    else { h with stalls := recent }
  else h

theorem HsfState.stallKept_late (h : HsfState) (t now count : Nat) : (h.stallKept t now count).late = h.late := by
  simp only [HsfState.stallKept]
  split_ifs <;> rfl

theorem HsfState.stallKept_held (h : HsfState) (t now count : Nat) : (h.stallKept t now count).held = h.held := by
  simp only [HsfState.stallKept]
  split_ifs <;> rfl

/-- A target that was not fenced is fenced by the stall that makes its count full. -/
theorem HsfState.mem_stallKept_fenced (h : HsfState) (t now count : Nat) (ht : t ∉ h.fenced) :
    t ∈ (h.stallKept t now count).fenced ↔ fenceable t = true ∧ count ≠ 0
      ∧ count ≤ (((h.stalls ++ [(t, now)]).filter (fun x => now < x.2 + 1000000000)).filter (fun x => x.1 = t)).length := by
  simp only [HsfState.stallKept]
  split_ifs with hf hc
  · obtain ⟨hzero, hfull, -⟩ := hc
    exact iff_of_true (by simp) ⟨hf, hzero, hfull⟩
  · have : ¬ (count ≠ 0 ∧ count ≤ (((h.stalls ++ [(t, now)]).filter (fun x => now < x.2 + 1000000000)).filter (fun x => x.1 = t)).length) :=
      fun ⟨hzero, hfull⟩ => hc ⟨hzero, hfull, ht⟩
    exact iff_of_false ht (fun hfull => this hfull.2)
  · exact iff_of_false ht (fun hfull => hf hfull.1)

/-- No other target is fenced. -/
theorem HsfState.mem_stallKept_other (h : HsfState) (t now count : Nat) {k : Nat} (hk : k ≠ t) :
    k ∈ (h.stallKept t now count).fenced ↔ k ∈ h.fenced := by
  simp only [HsfState.stallKept]
  split_ifs <;> simp [hk]

/-- The count, the last master and the last target of an HSTALL. -/
def State.stallCounted (s : State) (m t : Nat) : State :=
  ((s.countS HSF_WDOG_STAT_STALLS HSF_WDOG_STAT_OVF 1).setFld HSF_WDOG_STAT_LAST_MASTER m).setFld HSF_WDOG_STAT_LAST_TARGET t

theorem State.stallCounted_regsBut (s : State) (m t : Nat) : s.regsBut (s.stallCounted m t) [HSF_WDOG_STAT.key 0 0] :=
  State.regsBut_trans (State.regsBut_trans (s.countS_regsBut HSF_WDOG_STAT_STALLS HSF_WDOG_STAT_OVF 1 0 0 rfl)
    (State.setFld_regsBut _ HSF_WDOG_STAT_LAST_MASTER m 0 0)) (State.setFld_regsBut _ HSF_WDOG_STAT_LAST_TARGET t 0 0)

theorem State.stallCounted_onlyChanges (s : State) (m t : Nat) : s.onlyChanges (s.stallCounted m t) [.regs] :=
  State.onlyChanges_trans (State.onlyChanges_trans (s.countS_onlyChanges HSF_WDOG_STAT_STALLS HSF_WDOG_STAT_OVF 1 0 0)
    (State.setFld_onlyChanges _ HSF_WDOG_STAT_LAST_MASTER m 0 0)) (State.setFld_onlyChanges _ HSF_WDOG_STAT_LAST_TARGET t 0 0)

theorem State.fld_stallCounted_stalls (s : State) (m t : Nat) :
    (s.stallCounted m t).fld HSF_WDOG_STAT_STALLS = satAdd 127 (s.fld HSF_WDOG_STAT_STALLS) 1 := by
  rw [State.stallCounted, State.fld_setFld_beside _ HSF_WDOG_STAT_LAST_TARGET HSF_WDOG_STAT_STALLS _ _ _ rfl (by decide) (by decide),
    State.fld_setFld_beside _ HSF_WDOG_STAT_LAST_MASTER HSF_WDOG_STAT_STALLS _ _ _ rfl (by decide) (by decide),
    State.fld_countS_same _ HSF_WDOG_STAT_STALLS HSF_WDOG_STAT_OVF _ _ _ rfl (by decide) (by decide)]
  rfl

theorem State.fld_stallCounted_lastMaster (s : State) (m t : Nat) :
    (s.stallCounted m t).fld HSF_WDOG_STAT_LAST_MASTER = m % 256 := by
  rw [State.stallCounted, State.fld_setFld_beside _ HSF_WDOG_STAT_LAST_TARGET HSF_WDOG_STAT_LAST_MASTER _ _ _ rfl (by decide) (by decide),
    State.fld_setFld_same _ _ _ _ _ (by decide)]
  rfl

theorem State.fld_stallCounted_lastTarget (s : State) (m t : Nat) :
    (s.stallCounted m t).fld HSF_WDOG_STAT_LAST_TARGET = t % 256 := by
  rw [State.stallCounted, State.fld_setFld_same _ _ _ _ _ (by decide)]
  rfl

/-- The fence count is another register's. -/
theorem State.fld_stallCounted_fenceCount (s : State) (m t : Nat) :
    (s.stallCounted m t).fld HSF_WDOG_CTRL_FENCE_COUNT = s.fld HSF_WDOG_CTRL_FENCE_COUNT := by
  have same := s.stallCounted_regsBut m t (HSF_WDOG_CTRL.key 0 0) (by decide)
  simp only [State.fld, State.reg]
  exact congrArg (fun v => bits v _ _) same

/-- The fence a stall may put up. -/
def State.stallFenced (s : State) (t : Nat) : State :=
  if fenceable t ∧ 1 = 1 then
    let l := (s.hsf.stalls ++ [(t, s.time)]).filter (fun x => s.time < x.2 + 1000000000)
    let s := { s with hsf := { s.hsf with stalls := l } }
    let n := s.fld HSF_WDOG_CTRL_FENCE_COUNT
    if n ≠ 0 ∧ n ≤ (l.filter (fun x => x.1 = t)).length ∧ !s.hsf.fenced.contains t then
      State.raise { s with hsf := { s.hsf with fenced := s.hsf.fenced ++ [t] } } 41 1 [t]
    else s
  else s

theorem State.stallFenced_hsf (s : State) (t : Nat) :
    (s.stallFenced t).hsf = s.hsf.stallKept t s.time (s.fld HSF_WDOG_CTRL_FENCE_COUNT) := by
  have same : ∀ h : HsfState, State.fld { s with hsf := h } HSF_WDOG_CTRL_FENCE_COUNT = s.fld HSF_WDOG_CTRL_FENCE_COUNT := fun _ => rfl
  simp only [State.stallFenced, HsfState.stallKept, same, and_true, Bool.not_eq_true', List.contains_eq_mem, decide_eq_false_iff_not]
  split_ifs <;> rfl

theorem State.stallFenced_onlyChanges (s : State) (t : Nat) : s.onlyChanges (s.stallFenced t) [.hsf, .evt] := by
  intro p hp
  simp only [State.stallFenced]
  split_ifs
  all_goals (cases p <;> first | rfl | simp at hp)

/-- An HSTALL of the watchdog is counted, reported, and kept for the fence. -/
theorem State.stalled_watchdog (s : State) (m t : Nat) : s.stalled m t 1 = ((s.stallCounted m t).raise 40 1 [m, t]).stallFenced t := rfl

theorem State.stalled_watchdog_hsf (s : State) (m t : Nat) :
    (s.stalled m t 1).hsf = s.hsf.stallKept t s.time (s.fld HSF_WDOG_CTRL_FENCE_COUNT) := by
  have hsf : (s.stallCounted m t).hsf = s.hsf := s.stallCounted_onlyChanges m t .hsf (by decide)
  have time : (s.stallCounted m t).time = s.time := s.stallCounted_onlyChanges m t .time (by decide)
  rw [State.stalled_watchdog, State.stallFenced_hsf, State.raise_hsf, State.raise_time, State.raise_fld, hsf, time,
    State.fld_stallCounted_fenceCount]

/-- Its registers are those of the count. -/
theorem State.stalled_watchdog_regs (s : State) (m t : Nat) : (s.stalled m t 1).regs = (s.stallCounted m t).regs :=
  State.stallFenced_onlyChanges _ t .regs (by decide)

theorem State.stalled_watchdog_onlyChanges (s : State) (m t : Nat) : s.onlyChanges (s.stalled m t 1) [.regs, .hsf, .evt] :=
  State.onlyChanges_mono (State.onlyChanges_append (State.onlyChanges_append (s.stallCounted_onlyChanges m t)
    (State.raiseWith_onlyChanges _ _ _ _ _ _)) (State.stallFenced_onlyChanges _ t)) (by decide)

theorem State.getReg_stalled_watchdog (s : State) (m t k : Nat) : (s.stalled m t 1).getReg k = (s.stallCounted m t).getReg k :=
  State.getReg_congr _ _ (s.stalled_watchdog_regs m t) (State.stallFenced_onlyChanges _ t .part (by decide)) k

theorem State.fld_stalled_watchdog (s : State) (m t : Nat) (f : Field) : (s.stalled m t 1).fld f = (s.stallCounted m t).fld f := by
  simp only [State.fld, State.reg, State.getReg_stalled_watchdog]

theorem State.stalled_watchdog_regsBut (s : State) (m t : Nat) : s.regsBut (s.stalled m t 1) [HSF_WDOG_STAT.key 0 0] :=
  fun k hk => (s.getReg_stalled_watchdog m t k).trans (s.stallCounted_regsBut m t k hk)

/-- The writes that were forwarded before their HSTALL wait for an acknowledge that will be discarded (R58). -/
def State.lateNoted (s : State) (l : List LateWrite) : State := { s with hsf := { s.hsf with late := s.hsf.late ++ l } }

/-- The write of a transaction that timed out, if it had been forwarded. -/
def State.forwardedLate (s : State) (r : Req) (g : Nat) (write : Option (Nat × List Byte)) : List LateWrite :=
  (write.toList.filter (fun w => s.forwards r g w.1 w.2)).map (fun w => ⟨r, g, w.1, w.2, false⟩)

theorem State.lateNoted_nil (s : State) : s.lateNoted [] = s := by simp [State.lateNoted]

theorem State.forwards_fresh (s : State) (r : Req) (g a : Nat) (d : List Byte) : s.fresh.forwards r g a d = s.forwards r g a d := rfl

/-- A transaction that is issued now and ends with HSTALL. -/
def State.wdogEnded (s : State) (m g : Nat) (l : List LateWrite) : State :=
  (((s.fresh.notBefore (s.time + s.wdogNs)).stalled m g 1).lateNoted l).emit (.bus .hstall [])

theorem exec_hsfWdogTimeout {s : State} {r : Req} {g : Nat} {write : Option (Nat × List Byte)} (hm : s.issues r = true) (hf : g ∉ s.hsf.fenced)
    (hheld : s.hsf.held.find? (fun x => x.master = r.master && x.target = g && x.at_ + s.wdogNs ≤ x.until_) = none)
    (hctx : ∀ w, write = some w → ctxAt w.1 = none) :
    exec (.hsfWdogTimeout r g write) s = (s.wdogEnded r.master g (s.forwardedLate r g write)).done s := by
  show execHsfWdogTimeout r g write s = _
  have gate : ¬ ((!s.fresh.issues r) = true ∨ s.fresh.hsf.fenced.contains g = true) := by
    have issues : s.fresh.issues r = true := hm
    simpa [issues] using hf
  have held : s.fresh.hsf.held.find? (fun x => x.master = r.master && x.target = g && x.at_ + s.fresh.wdogNs ≤ x.until_) = none := hheld
  simp only [execHsfWdogTimeout, if_neg gate, held]
  cases write with
  | none => simp only [State.wdogEnded, State.forwardedLate, Option.toList, List.filter_nil, List.map_nil, State.lateNoted_nil]; rfl
  | some w =>
    simp only [hctx w rfl, State.forwards_fresh, State.wdogEnded, State.forwardedLate]
    by_cases hgo : s.forwards r g w.1 w.2 = true
    · simp only [hgo, if_true, Option.toList, List.filter_cons, List.filter_nil, List.map_cons, List.map_nil]
      rfl
    · simp only [hgo, Bool.false_eq_true, if_false, Option.toList, List.filter_cons, List.filter_nil, List.map_nil, State.lateNoted_nil]
      rfl

theorem State.wdogEnded_time (s : State) (m g : Nat) (l : List LateWrite) : (s.wdogEnded m g l).time = s.time + s.wdogNs := by
  have time := (s.fresh.notBefore (s.time + s.wdogNs)).stalled_watchdog_onlyChanges m g .time (by decide)
  exact time.trans (Nat.max_eq_right (Nat.le_add_right _ _))

theorem State.wdogEnded_onlyChanges (s : State) (m g : Nat) (l : List LateWrite) :
    s.onlyChanges (s.wdogEnded m g l) [.regs, .hsf, .evt, .out, .time] :=
  State.onlyChanges_mono (State.onlyChanges_append s.fresh_onlyChanges (State.onlyChanges_append (s.fresh.notBefore_onlyChanges _)
    (State.onlyChanges_append (State.stalled_watchdog_onlyChanges _ m g) (State.onlyChanges_append (State.hsf_onlyChanges _ _)
      (State.emit_onlyChanges _ _))))) (by decide)

/-! ### Held acknowledges (R57, R64) -/

/-- A held transaction that ends with HSTALL at its limit. -/
def State.heldEnded (s : State) (x : HeldAck) : State :=
  State.emit (State.stalled { (s.fresh.notBefore (x.at_ + s.wdogNs)) with hsf := { s.hsf with held := s.hsf.held.erase x } }
    x.master x.target 1) (.bus .hstall [])

/-- A held acknowledge that is released. -/
def State.heldReleased (s : State) (x : HeldAck) : State :=
  State.emit { (s.fresh.notBefore x.until_) with hsf := { s.hsf with held := s.hsf.held.erase x } } x.ack

theorem exec_perturbHoldExpiry_limit {s : State} {x : HeldAck} (hx : firstHeld s.hsf.held [] none = some x)
    (hl : x.at_ + s.wdogNs ≤ max s.time x.until_) (hc : x.ctx = none) : exec .perturbHoldExpiry s = (s.heldEnded x).done s := by
  show execPerturbHoldExpiry s = _
  have first : firstHeld s.fresh.hsf.held [] none = some x := hx
  have limit : x.at_ + s.fresh.wdogNs ≤ max s.fresh.time x.until_ := hl
  simp only [execPerturbHoldExpiry, first, if_pos limit, State.heldStall, hc]
  rfl

theorem exec_perturbHoldExpiry_release {s : State} {x : HeldAck} (hx : firstHeld s.hsf.held [] none = some x)
    (hl : max s.time x.until_ < x.at_ + s.wdogNs) : exec .perturbHoldExpiry s = (s.heldReleased x).done s := by
  show execPerturbHoldExpiry s = _
  have first : firstHeld s.fresh.hsf.held [] none = some x := hx
  have early : ¬ x.at_ + s.fresh.wdogNs ≤ max s.fresh.time x.until_ := Nat.not_le.mpr hl
  simp only [execPerturbHoldExpiry, first, if_neg early]
  rfl

theorem State.heldReleased_onlyChanges (s : State) (x : HeldAck) : s.onlyChanges (s.heldReleased x) [.time, .hsf, .out] :=
  State.onlyChanges_mono (State.onlyChanges_append s.fresh_onlyChanges (State.onlyChanges_append (s.fresh.notBefore_onlyChanges _)
    (State.onlyChanges_append (State.hsf_onlyChanges _ _) (State.emit_onlyChanges _ _)))) (by decide)

theorem State.heldEnded_onlyChanges (s : State) (x : HeldAck) : s.onlyChanges (s.heldEnded x) [.time, .hsf, .regs, .evt, .out] :=
  State.onlyChanges_mono (State.onlyChanges_append s.fresh_onlyChanges (State.onlyChanges_append (s.fresh.notBefore_onlyChanges _)
    (State.onlyChanges_append (State.hsf_onlyChanges _ _) (State.onlyChanges_append (State.stalled_watchdog_onlyChanges _ _ _)
      (State.emit_onlyChanges _ _))))) (by decide)

/-! ### Late acknowledges (R42, R58) -/

@[simp] theorem State.healthTo_out (s : State) (b h : Nat) : (s.healthTo b h).out = s.out := by
  simp only [State.healthTo]; split <;> rfl
@[simp] theorem State.bucketUp_out (s : State) (b : Nat) : (s.bucketUp b).out = s.out := by
  simp only [State.bucketUp]; split <;> simp
@[simp] theorem State.hardFault_out (s : State) (m b u a : Nat) : (s.hardFault m b u a).out = s.out := by
  simp only [State.hardFault]; split <;> simp
@[simp] theorem State.watched_out (s : State) (m b u a : Nat) : (s.watched m b u a).out = s.out := by
  simp only [State.watched]
  repeat' split
  all_goals simp
@[simp] theorem State.regionFailed_out (s : State) (b : Nat) : (s.regionFailed b).out = s.out := by simp [State.regionFailed]
@[simp] theorem State.setBad_out (s : State) (l : Nat) (b : LineBad) : (s.setBad l b).out = s.out := rfl
@[simp] theorem State.memUe_out (s : State) (c t a m : Nat) (i : Bool) : (s.memUe c t a m i).out = s.out := rfl
@[simp] theorem State.injectOn_out (s : State) (l : Nat) : (s.injectOn l).out = s.out := by
  simp only [State.injectOn]; split <;> rfl

/-- The code check of an SRAM line gives nothing back. -/
@[simp] theorem State.sramLine_out (s : State) (m a : Nat) (p : CellErr) (b : Bool) : (s.sramLine m a p b).2.out = s.out := by
  simp only [State.sramLine]
  split
  · rfl
  · split
    · rfl
    · generalize readKind 0 false _ p = q
      split <;> simp

/-- A write within a line of shared SRAM gives nothing back. -/
theorem State.lineWrite_sram_out (s : State) (m a : Nat) (d : List Byte) : (s.lineWrite m 0x41 a d).2.out = s.out := by
  have other : ¬ (0x41 = 0x40) := by decide
  have read : ∀ u : State, u.lineRead m 0x41 a .none .none false = u.sramLine m a .none false := fun _ => rfl
  simp only [State.lineWrite, if_neg other, read]
  have checked := s.sramLine_out m a .none false
  generalize s.sramLine m a .none false = x at checked
  repeat' split
  all_goals simp_all

theorem exec_lateAcknowledge_discarded {s : State} {i : Nat} {x : LateWrite} {performed : Bool} (hx : s.hsf.late[i]? = some x)
    (h : performed = false ∨ x.lost = true) :
    exec (.lateAcknowledge i performed) s
      = (State.done { s.fresh with hsf := { s.hsf with late := s.hsf.late.eraseIdx i } } s) := by
  show execLateAcknowledge i performed s = _
  have late : s.fresh.hsf.late[i]? = some x := hx
  have none : ¬ (performed = true ∧ (!x.lost) = true) := by
    rcases h with h | h <;> simp [h]
  simp only [execLateAcknowledge, late, if_neg none]
  rfl

theorem exec_lateAcknowledge_performed {s : State} {i : Nat} {x : LateWrite} (hx : s.hsf.late[i]? = some x) (h : x.lost = false) :
    exec (.lateAcknowledge i true) s
      = (State.lateEffect { s.fresh with hsf := { s.hsf with
          late := lateOvertake x ((s.hsf.late.eraseIdx i).take i) ++ (s.hsf.late.eraseIdx i).drop i } } x).done s := by
  show execLateAcknowledge i true s = _
  have late : s.fresh.hsf.late[i]? = some x := hx
  simp only [execLateAcknowledge, late, h, Bool.not_false, and_self, if_true]
  rfl

/-- A late write to shared SRAM is a write of its line. -/
theorem State.lateEffect_sram (s : State) (x : LateWrite) (h : x.target = 0x41) :
    s.lateEffect x = ((s.lineWrite x.req.master 0x41 x.addr x.data).2).breakReservations (x.addr / 64) := by
  simp [State.lateEffect, h]

/-! ### Speed monitors (R60, R61) -/

/-- A gate of monitor n ends with a factor. -/
def State.gateEnded (s : State) (n factor : Nat) : State := (s.fresh.every (.gate n) 10000).setFld HSF_SPD_FACTOR (min factor 65535) n

/-- Whether HSF_SPEED_LOW of a monitor may be raised again. -/
def State.lowDue (s : State) (n : Nat) : Bool :=
  match Tab.look s.hsf.lowAt n with
  | some t => decide (t + 1000000000 ≤ s.time)
  | none => true

/-- HSF_SPEED_LOW of a monitor. -/
def State.speedLowRaised (s : State) (n : Nat) : State :=
  State.raise { s with hsf := { s.hsf with lowAt := Tab.put s.hsf.lowAt n s.time } } 42 1 [n]

/-- The factor of a monitor is checked against Table 2.2. -/
def State.speedChecked (s : State) (n factor : Nat) (temp : Int) : State :=
  if s.lowDue n ∧ speedLow factor (s.railMv (s.fld HSF_SPD_LOOP n)) temp then s.speedLowRaised n else s

theorem exec_speedMonitorGate {s : State} {n : Nat} (factor : Nat) (temp : Int) (hn : n < 16) (hon : s.monitorOn n = true)
    (hr : s.pwr.ready = false) (hf : s.pwr.fail = 0) :
    exec (.speedMonitorGate n factor temp) s = ((s.gateEnded n factor).speedChecked n (min factor 65535) temp).done s := by
  show execSpeedMonitorGate n factor temp s = _
  have open_ : ¬ (16 ≤ n ∨ (!s.fresh.monitorOn n) = true ∨ s.fresh.pwr.ready = true ∨ s.fresh.pwr.fail ≠ 0) := by
    have on : s.fresh.monitorOn n = true := hon
    simp [on, hr, hf, hn]
  simp only [execSpeedMonitorGate, if_neg open_]
  rfl

theorem State.speedLowRaised_onlyChanges (s : State) (n : Nat) : s.onlyChanges (s.speedLowRaised n) [.hsf, .evt] :=
  State.onlyChanges_append (s.hsf_onlyChanges _) (State.raiseWith_onlyChanges _ _ _ _ _ _)

theorem State.speedChecked_onlyChanges (s : State) (n factor : Nat) (temp : Int) : s.onlyChanges (s.speedChecked n factor temp) [.hsf, .evt] := by
  simp only [State.speedChecked]
  split
  · exact s.speedLowRaised_onlyChanges n
  · exact fun p _ => by cases p <;> rfl

theorem State.getReg_speedChecked (s : State) (n factor k : Nat) (temp : Int) : (s.speedChecked n factor temp).getReg k = s.getReg k :=
  State.getReg_congr _ _ (s.speedChecked_onlyChanges n factor temp .regs (by decide)) (s.speedChecked_onlyChanges n factor temp .part (by decide)) k

theorem State.fld_speedChecked (s : State) (n factor : Nat) (temp : Int) (f : Field) (i : Nat) : (s.speedChecked n factor temp).fld f i = s.fld f i := by
  simp only [State.fld, State.reg, State.getReg_speedChecked]

theorem State.railMv_speedChecked (s : State) (n factor : Nat) (temp : Int) (l : Nat) : (s.speedChecked n factor temp).railMv l = s.railMv l := by
  simp only [State.speedChecked]
  split <;> rfl

theorem State.gateEnded_onlyChanges (s : State) (n factor : Nat) : s.onlyChanges (s.gateEnded n factor) [.out, .time, .timers, .regs] :=
  State.onlyChanges_append (State.onlyChanges_append s.fresh_onlyChanges (s.fresh.every_onlyChanges _ _)) (State.setFld_onlyChanges _ _ _ _ _)

theorem State.fld_gateEnded_factor (s : State) (n factor : Nat) : (s.gateEnded n factor).fld HSF_SPD_FACTOR n = min factor 65535 := by
  rw [State.gateEnded, State.fld_setFld_same _ HSF_SPD_FACTOR _ n 0 (by decide)]
  exact Nat.mod_eq_of_lt (by simp only [HSF_SPD_FACTOR]; omega)

theorem State.fld_gateEnded_loop (s : State) (n factor : Nat) : (s.gateEnded n factor).fld HSF_SPD_LOOP n = s.fld HSF_SPD_LOOP n := by
  rw [State.gateEnded, State.fld_setFld_beside _ HSF_SPD_FACTOR HSF_SPD_LOOP _ n 0 rfl (by decide) (by decide)]
  rfl

/-! ### Perturbation slots (R64, R65) -/

theorem State.pertSlot_denied {s : State} {n w : Nat} (hw : bit w 31 = true) (ho : bit (s.reg HSF_PERT_SLOT n) 31 = false)
    (hc : s.pertCause w ≠ 0) : s.pertSlot n w = s.raise 44 (s.pertCause w) [n, bits w 7 0] := by
  simp [State.pertSlot, hw, ho, hc]

/-- The slot's generator starts from SEED, or 1. -/
def State.slotSeeded (s : State) (n w : Nat) : State :=
  let seed := s.fld HSF_PERT_PARAM_SEED n
  State.raise { s with hsf := { s.hsf with lfsr := Tab.put s.hsf.lfsr n (if seed = 0 then 1 else seed) } } 43 1 [n, bits w 7 0]

theorem State.pertSlot_taken {s : State} {n w v : Nat} (hmode : bits w 30 29 ≠ 3) (hset : bit w 31 = false ∨ s.pertCause w = 0)
    (hchange : bit (s.reg HSF_PERT_SLOT n) 31 = false ∨ s.pertCause w = 0) (hv : s.written (HSF_PERT_SLOT.key n 0) w = some v) :
    s.pertSlot n w
      = if bit w 31 = true ∧ bit (s.reg HSF_PERT_SLOT n) 31 = false then (s.setReg (HSF_PERT_SLOT.key n 0) v).slotSeeded n w
        else s.setReg (HSF_PERT_SLOT.key n 0) v := by
  have allowed : ¬ (((bit w 31 && !bit (s.reg HSF_PERT_SLOT n) 31)
      || (bit (s.reg HSF_PERT_SLOT n) 31 && (bits w 30 28 ≠ bits (s.reg HSF_PERT_SLOT n) 30 28 || bits w 7 0 ≠ bits (s.reg HSF_PERT_SLOT n) 7 0))) = true
      ∧ s.pertCause w ≠ 0) := by
    rintro ⟨h, hc⟩
    have hw := hset.resolve_right hc
    have ho := hchange.resolve_right hc
    simp [hw, ho] at h
  simp only [State.pertSlot, if_neg allowed, if_neg hmode, State.storeReg_written hv, Bool.and_eq_true, Bool.not_eq_true']
  rfl

theorem State.slotSeeded_onlyChanges (s : State) (n w : Nat) : s.onlyChanges (s.slotSeeded n w) [.hsf, .evt] :=
  State.onlyChanges_append (s.hsf_onlyChanges _) (State.raiseWith_onlyChanges _ _ _ _ _ _)

/-- The seed is another register's. -/
theorem State.seed_setReg_slot (s : State) (n v : Nat) :
    (s.setReg (HSF_PERT_SLOT.key n 0) v).fld HSF_PERT_PARAM_SEED n = s.fld HSF_PERT_PARAM_SEED n := by
  have other : HSF_PERT_PARAM.key n 0 ≠ HSF_PERT_SLOT.key n 0 := by
    simp only [RegId.key, HSF_PERT_PARAM, HSF_PERT_SLOT]
    omega
  have same : (s.setReg (HSF_PERT_SLOT.key n 0) v).reg HSF_PERT_PARAM n = s.reg HSF_PERT_PARAM n := State.getReg_setReg_other _ _ _ _ other
  exact congrArg (fun x => bits x 7 0) same

theorem pertSlot_window {n : Nat} (hn : n < 4) : HSF_PERT_SLOT.key n 0 / 0x100000 = HSF_PERT_SLOT.win := by
  simp only [RegId.key, HSF_PERT_SLOT]
  omega

theorem exec_hsfPertSlotWrite {n : Nat} (r : Req) (w : Nat) (s : State) (hn : n < 4) :
    exec (.hsfPertSlotWrite r n w) s = (s.fresh.atRegW r (HSF_PERT_SLOT.key n 0) (fun s => s.pertSlot n w)).done s := by
  show execHsfPertSlotWrite r n w s = _
  rw [execHsfPertSlotWrite, Nat.mod_eq_of_lt hn]

/-! ### The statement -/

/-- Settles O3: each command is one named effect, and each effect's fields and frame are lemmas of their own. -/
theorem fabricCommandsComplete : Obligations.FabricCommandsComplete := by
  unfold Obligations.FabricCommandsComplete
  refine ⟨?window, ?timeout, ?late, ?monitor, ?slot, ?slotDenied, ?release, ?limit⟩
  case window =>
    intro s n i hn hi a floor short
    refine completes_of_done (exec_bgShareWindowEnd hn hi) ⟨s.fresh.windowEnded n i, rfl, ?_⟩
    have hshort : short ↔ s.fresh.fellShort n i = true := by
      show _ ↔ ((s.bgAcct n i).waiting && decide ((s.bgAcct n i).used * 1000 < s.fld CFG_BGS_SHARE_FLOOR n * bgWindow n)) = true
      simp only [short, a, floor, Bool.and_eq_true, decide_eq_true_eq]
    have acct : (s.fresh.windowEnded n i).bgAcct n i = s.fresh.nextAcct n i := State.bgAcct_setBg_same _ _ _ _
    have missed := (s.fresh.every (.window n i) (bgPeriod n)).fld_bgCounted_missed n (s.fresh.fellShort n i) (s.bgAcct n i).heldAtCeil
    have capped := (s.fresh.every (.window n i) (bgPeriod n)).fld_bgCounted_capped n (s.fresh.fellShort n i) (s.bgAcct n i).heldAtCeil
    refine ⟨State.bgCounted_time _ _ _ _, s.fresh.windowEnded_since n i, fun h => ?_, fun h => ?_, fun h => ?_, fun h => ?_, fun h => ?_,
      fun h => ?_, fun k hk => s.fresh.windowEnded_look n i hk, State.bgCounted_regsBut _ _ _ _,
      State.onlyChanges_mono (State.onlyChanges_of_fresh (s.fresh.windowEnded_onlyChanges n i)) (by decide)⟩
    · rw [acct, State.nextAcct, if_pos (hshort.mp h)]
      rfl
    · rw [acct, State.nextAcct, if_neg (fun hs => h (hshort.mpr hs))]
    · exact missed.trans (if_pos (hshort.mp h))
    · exact missed.trans (if_neg (fun hs => h (hshort.mpr hs)))
    · exact capped.trans (if_pos h)
    · exact capped.trans (if_neg (by rw [show (s.bgAcct n i).heldAtCeil = false from h]; exact Bool.false_ne_true))
  case timeout =>
    intro s r g write hm hf hheld hctx ends recent
    refine completes_of_done (exec_hsfWdogTimeout hm hf hheld hctx) ?_
    have out : (s.wdogEnded r.master g (s.forwardedLate r g write)).out = [.bus .hstall []] := by
      have silent := (s.fresh.notBefore (s.time + s.wdogNs)).stalled_watchdog_onlyChanges r.master g .out (by decide)
      exact congrArg (· ++ [Out.bus .hstall []]) silent
    have hsf := (s.fresh.notBefore (s.time + s.wdogNs)).stalled_watchdog_hsf r.master g
    have fld := (s.fresh.notBefore (s.time + s.wdogNs)).fld_stalled_watchdog r.master g
    have fenced : ∀ k, k ∈ (s.wdogEnded r.master g (s.forwardedLate r g write)).hsf.fenced
        ↔ k ∈ (s.hsf.stallKept g ends (s.fld HSF_WDOG_CTRL_FENCE_COUNT)).fenced := by
      intro k
      have now : (s.fresh.notBefore (s.time + s.wdogNs)).time = ends := Nat.max_eq_right (Nat.le_add_right _ _)
      show k ∈ ((s.fresh.notBefore (s.time + s.wdogNs)).stalled r.master g 1).hsf.fenced ↔ _
      rw [hsf, now]
      exact Iff.rfl
    refine ⟨out, s.wdogEnded_time _ _ _, (fld _).trans (State.fld_stallCounted_stalls _ _ _),
      (fld _).trans (State.fld_stallCounted_lastMaster _ _ _), (fld _).trans (State.fld_stallCounted_lastTarget _ _ _), ?_,
      (fenced g).trans (s.hsf.mem_stallKept_fenced g ends _ hf), fun k hk => (fenced k).trans (s.hsf.mem_stallKept_other g ends _ hk),
      (s.fresh.notBefore (s.time + s.wdogNs)).stalled_watchdog_regsBut r.master g, s.wdogEnded_onlyChanges _ _ _⟩
    exact congrArg (· ++ s.forwardedLate r g write) ((congrArg HsfState.late hsf).trans (HsfState.stallKept_late _ _ _ _))
  case late =>
    intro s i x hx
    have frame : ∀ l, s.onlyChanges { s.fresh with hsf := { s.hsf with late := l } } [.hsf, .out] := fun l =>
      State.onlyChanges_mono (State.onlyChanges_of_fresh (s.fresh.hsf_onlyChanges _)) (by decide)
    refine ⟨completes_of_done (exec_lateAcknowledge_discarded hx (.inl rfl)) ⟨rfl, rfl, frame _⟩,
      fun hl => completes_of_done (exec_lateAcknowledge_discarded hx (.inr hl)) ⟨rfl, rfl, frame _⟩,
      fun hl => completes_of_done (exec_lateAcknowledge_performed hx hl) ⟨rfl, fun ht => ?_⟩⟩
    rw [State.lateEffect_sram _ x ht]
    exact ⟨State.lineWrite_sram_out _ _ _ _, rfl⟩
  case monitor =>
    intro s n factor temp hn hon hr hf
    refine completes_of_done (exec_speedMonitorGate factor temp hn hon hr hf) ?_
    have loop := (State.fld_speedChecked (s.gateEnded n factor) n (min factor 65535) temp HSF_SPD_LOOP n).trans (s.fld_gateEnded_loop n factor)
    have time := (s.gateEnded n factor).speedChecked_onlyChanges n (min factor 65535) temp .time (by decide)
    have timers := (s.gateEnded n factor).speedChecked_onlyChanges n (min factor 65535) temp .timers (by decide)
    have since : ∀ t : State, t.timers = (s.gateEnded n factor).timers → t.since (.gate n) = max s.time (s.since (.gate n) + 10000) := by
      intro t h
      rw [State.since, h]
      exact s.fresh.since_every (.gate n) 10000
    refine ⟨(State.fld_speedChecked _ _ _ _ _ _).trans (s.fld_gateEnded_factor n factor), loop.symm, time, (since _ timers).trans time.symm,
      ?_, fun hnone hlow => ?_, ?_, State.onlyChanges_mono (State.onlyChanges_append (s.gateEnded_onlyChanges n factor)
        (State.speedChecked_onlyChanges _ _ _ _)) (by decide)⟩
    · rintro ⟨at_, hat, hsoon⟩
      have late : (s.gateEnded n factor).lowDue n = false := by
        have look : Tab.look (s.gateEnded n factor).hsf.lowAt n = some at_ := hat
        rw [time] at hsoon
        simp only [State.lowDue, look, decide_eq_false_iff_not]
        exact Nat.not_le.mpr hsoon
      rw [State.speedChecked, if_neg (by simp [late])]
      rfl
    · have due : (s.gateEnded n factor).lowDue n = true := by
        have look : Tab.look (s.gateEnded n factor).hsf.lowAt n = none := hnone
        simp only [State.lowDue, look]
      rw [State.railMv_speedChecked, ← s.fld_gateEnded_loop n factor] at hlow
      rw [State.speedChecked, if_pos ⟨due, hlow⟩]
      rfl
    · exact fun k hk => (State.getReg_speedChecked _ _ _ _ _).trans (State.setFld_regsBut _ HSF_SPD_FACTOR _ n 0 k hk)
  case slot =>
    intro s r n w v hn hg hmode hset hchange hv
    rw [← pertSlot_window hn]
    refine acks_of_write (exec_hsfPertSlotWrite r w s hn) hg ?_
    rw [State.pertSlot_taken (s := s.fresh) hmode hset hchange hv]
    have stored := s.fresh.setReg_regsBut (HSF_PERT_SLOT.key n 0) v
    have frame := State.onlyChanges_of_fresh (s.fresh.setReg_onlyChanges (HSF_PERT_SLOT.key n 0) v)
    split
    next =>
      refine ⟨State.getReg_setReg_same _ _ _, fun _ _ => ⟨rfl, (Tab.look_put_same _ _ _).trans ?_⟩, stored,
        State.onlyChanges_mono (State.onlyChanges_append frame (State.slotSeeded_onlyChanges _ n w)) (by decide)⟩
      rw [State.seed_setReg_slot]
      show some (if s.fld HSF_PERT_PARAM_SEED n = 0 then 1 else s.fld HSF_PERT_PARAM_SEED n) = _
      congr 1
      split <;> omega
    next h =>
      exact ⟨State.getReg_setReg_same _ _ _, fun hw ho => absurd ⟨hw, ho⟩ h, stored, State.onlyChanges_mono frame (by decide)⟩
  case slotDenied =>
    intro s r n w hn hg hw ho hc
    rw [← pertSlot_window hn]
    refine acks_of_write (exec_hsfPertSlotWrite r w s hn) hg ?_
    rw [State.pertSlot_denied (s := s.fresh) hw ho hc]
    exact ⟨rfl, State.onlyChanges_mono (State.onlyChanges_of_fresh (s.fresh.raiseWith_onlyChanges _ _ _ _ _)) (by decide)⟩
  case release =>
    intro s x hx hl
    exact completes_of_done (exec_perturbHoldExpiry_release hx hl) ⟨rfl, rfl, rfl, s.heldReleased_onlyChanges x⟩
  case limit =>
    intro s x hx hl hc
    refine completes_of_done (exec_perturbHoldExpiry_limit hx hl hc) ?_
    let u : State := { (s.fresh.notBefore (x.at_ + s.wdogNs)) with hsf := { s.hsf with held := s.hsf.held.erase x } }
    have silent := u.stalled_watchdog_onlyChanges x.master x.target .out (by decide)
    exact ⟨congrArg (· ++ [Out.bus .hstall []]) silent, u.stalled_watchdog_onlyChanges x.master x.target .time (by decide),
      (congrArg HsfState.held (u.stalled_watchdog_hsf x.master x.target)).trans (HsfState.stallKept_held _ _ _ _),
      (u.fld_stalled_watchdog x.master x.target _).trans (u.fld_stallCounted_stalls x.master x.target),
      u.stalled_watchdog_regsBut x.master x.target, s.heldEnded_onlyChanges x⟩

end Sys2Proof.Machine
end

section
/-!
SUPPORT. Commands on logical blocks: what their steps leave unchanged, what is outstanding after each, and the checks of R325.
-/
namespace Sys2Proof.Machine

/-! ### Frames -/

theorem State.onlyChanges_refl (s : State) (l : List StateField) : s.onlyChanges s l := fun p _ => by cases p <;> rfl

theorem State.modFtl_onlyChanges (s : State) (f : FtlState → FtlState) : s.onlyChanges (s.modFtl f) [.ftl] := by
  intro p hp
  cases p
  case ftl => exact absurd (List.mem_singleton_self _) hp
  all_goals rfl

theorem State.modPod_onlyChanges (s : State) (p : Nat) (f : Pod → Pod) : s.onlyChanges (s.modPod p f) [.pod] := by
  intro q hq
  cases q
  case pod => exact absurd (List.mem_singleton_self _) hq
  all_goals rfl

theorem State.modOut_onlyChanges (s : State) (c : CmdRef) (f : OutCmd → OutCmd) : s.onlyChanges (s.modOut c f) [.host] :=
  s.modHost_onlyChanges _

theorem State.countLocks_onlyChanges (s : State) : s.onlyChanges s.countLocks [.regs] :=
  State.onlyChanges_trans (s.setFld_onlyChanges _ _ _ _) (State.setFld_onlyChanges _ _ _ _ _)

theorem State.begin_onlyChanges (s : State) (c : HostCmd) (b : Nat) (st : Stage) (io : Option (IoKind × HostCmd)) :
    s.onlyChanges (s.begin c b st io) [.host, .regs] :=
  State.onlyChanges_append (s.modHost_onlyChanges _) (State.setFld_onlyChanges _ _ _ _ _)

theorem State.lock_onlyChanges (s : State) (c : HostCmd) (n : Ns) (e : Bool) (a b : Nat) :
    s.onlyChanges (s.lock c n e a b).2 [.host, .regs] :=
  State.onlyChanges_append (s.modHost_onlyChanges _) (State.countLocks_onlyChanges _)

theorem State.unlock_onlyChanges (s : State) (c : CmdRef) : s.onlyChanges (s.unlock c) [.host, .regs] :=
  State.onlyChanges_append (s.modHost_onlyChanges _) (State.countLocks_onlyChanges _)

theorem State.takeTokens_onlyChanges (s : State) (h : HeldKind) (c : HostCmd) : s.onlyChanges (s.takeTokens h c) [.pod] :=
  s.modPod_onlyChanges _ _

/-- What every step of a fold leaves unchanged, the fold does. -/
theorem State.foldl_onlyChanges {α : Type} {l : List StateField} (f : State → α → State) (h : ∀ (s : State) (a : α), s.onlyChanges (f s a) l)
    (xs : List α) (s : State) : s.onlyChanges (xs.foldl f s) l := by
  induction xs generalizing s with
  | nil => exact s.onlyChanges_refl l
  | cons x xs ih => exact State.onlyChanges_trans (h s x) (ih _)

/-! ### What is outstanding -/

theorem State.outCmd_congr {s t : State} (c : CmdRef) (h : t.host.out = s.host.out) : t.outCmd c = s.outCmd c := by
  simp only [State.outCmd, h]

/-- An outstanding command found by its reference has it. -/
theorem State.outCmd_key {s : State} {c : CmdRef} {o : OutCmd} (h : s.outCmd c = some o) : o.pod = c.pod ∧ o.qid = c.qid ∧ o.cid = c.cid := by
  have := List.find?_some h
  simp only [Bool.and_eq_true, decide_eq_true_eq] at this
  obtain ⟨⟨hp, hq⟩, hc⟩ := this
  exact ⟨hp, hq, hc⟩

/-- A change of an outstanding command keeps what names it. -/
def OutCmd.keepsKey (f : OutCmd → OutCmd) : Prop := ∀ o : OutCmd, (f o).pod = o.pod ∧ (f o).qid = o.qid ∧ (f o).cid = o.cid

/-- A changed command is found as changed. -/
theorem State.outCmd_modOut (s : State) (c : CmdRef) (f : OutCmd → OutCmd) (hf : OutCmd.keepsKey f) :
    (s.modOut c f).outCmd c = (s.outCmd c).map f := by
  show List.find? _ (List.map _ s.host.out) = _
  rw [List.find?_map]
  have keys : ((fun o : OutCmd => decide (o.pod = c.pod) && decide (o.qid = c.qid) && decide (o.cid = c.cid))
        ∘ (fun o => if decide (o.pod = c.pod) && decide (o.qid = c.qid) && decide (o.cid = c.cid) then f o else o))
      = (fun o => decide (o.pod = c.pod) && decide (o.qid = c.qid) && decide (o.cid = c.cid)) := by
    funext o
    obtain ⟨hp, hq, hc⟩ := hf o
    simp only [Function.comp]
    split
    · rw [hp, hq, hc]
    · rfl
  rw [keys]
  show Option.map _ (s.outCmd c) = Option.map f (s.outCmd c)
  cases h : s.outCmd c with
  | none => rfl
  | some o =>
    obtain ⟨hp, hq, hc⟩ := State.outCmd_key h
    simp [hp, hq, hc]

/-- Two changes of an outstanding command are one. -/
theorem State.modOut_modOut (s : State) (c : CmdRef) (f g : OutCmd → OutCmd) (hf : OutCmd.keepsKey f) :
    (s.modOut c f).modOut c g = s.modOut c (fun o => g (f o)) := by
  simp only [State.modOut, State.modHost, List.map_map]
  congr 3
  funext o
  obtain ⟨hp, hq, hc⟩ := hf o
  simp only [Function.comp]
  split
  · next h => rw [hp, hq, hc, if_pos h]
  · rfl

/-- A change that changes nothing. -/
theorem State.modOut_id (s : State) (c : CmdRef) (f : OutCmd → OutCmd) (hf : ∀ o, f o = o) : s.modOut c f = s := by
  have e : (fun o : OutCmd => if decide (o.pod = c.pod) && decide (o.qid = c.qid) && decide (o.cid = c.cid) then f o else o) = id := by
    funext o
    simp [hf]
  simp only [State.modOut, State.modHost, e, List.map_id]

/-- A command begun is outstanding. -/
theorem State.outCmd_begin (s : State) (c : HostCmd) (b : Nat) (st : Stage) (io : Option (IoKind × HostCmd)) :
    (s.begin c b st io).outCmd (HostCmdRef c)
      = some ⟨c.pod, c.qid, c.cid, s.cqOf c.pod c.qid, b, st, io, [], [], false, none, false, false⟩ := by
  show List.find? _ (List.filter _ s.host.out ++ [_]) = _
  rw [List.find?_append]
  have none_left : List.find?
      (fun o => decide (o.pod = (HostCmdRef c).pod) && decide (o.qid = (HostCmdRef c).qid) && decide (o.cid = (HostCmdRef c).cid))
      (List.filter (fun o => !(decide (o.pod = c.pod) && decide (o.qid = c.qid) && decide (o.cid = c.cid))) s.host.out) = none := by
    rw [List.find?_eq_none]
    intro x hx
    exact Bool.eq_false_iff.mp ((Bool.not_eq_true' _).mp (List.mem_filter.mp hx).2)
  rw [none_left]
  simp [HostCmdRef]

/-- A command begun is to complete to its queue. -/
theorem State.begin_owns (s : State) (c : HostCmd) (b : Nat) (st : Stage) (io : Option (IoKind × HostCmd))
    (h : s.host.cqes.all (fun x => !(x.pod = c.pod && x.qid = c.qid && x.cid = c.cid)) = true) :
    (s.begin c b st io).owns c (s.cqOf c.pod c.qid) := by
  refine ⟨⟨_, s.outCmd_begin c b st io, rfl, rfl⟩, ?_⟩
  rw [List.any_eq_false]
  intro x hx
  simpa only [Bool.not_eq_true, Bool.not_eq_true'] using List.all_eq_true.mp h x hx

/-- A change of an outstanding command that leaves its queue and its muting is still to complete to it. -/
theorem State.owns_modOut {s : State} {c : HostCmd} {cq : Nat} (h : s.owns c cq) (f : OutCmd → OutCmd) (hf : OutCmd.keepsKey f)
    (hm : ∀ o, (f o).mute = o.mute ∧ (f o).cqid = o.cqid) : (s.modOut (HostCmdRef c) f).owns c cq := by
  obtain ⟨⟨o, ho, mute, queue⟩, cqes⟩ := h
  obtain ⟨fm, fq⟩ := hm o
  exact ⟨⟨f o, by rw [State.outCmd_modOut s _ f hf, ho, Option.map_some], fm.trans mute, fq.trans queue⟩, cqes⟩

end Sys2Proof.Machine
end

section
/-!
SUPPORT. The write buffer: the version of a unit it holds after a commit, a kill, and a change of an entry's step.
-/
namespace Sys2Proof.Machine

/-! ### Versions -/

theorem State.buffered_congr {s t : State} (l : Nat) (h : t.ftl.wbuf = s.ftl.wbuf) : t.buffered l = s.buffered l := by
  simp only [State.buffered, h]

/-- A change of entries that keeps their unit, their data and whether they count keeps every version. -/
theorem State.buffered_map (s t : State) (l : Nat) (f : WEntry → WEntry) (h : t.ftl.wbuf = s.ftl.wbuf.map f)
    (hf : ∀ w, (f w).laddr = w.laddr ∧ (f w).data = w.data ∧ (w.laddr = l → (f w).dead = w.dead)) : t.buffered l = s.buffered l := by
  have counted : ((fun w : WEntry => decide (w.laddr = l) && !w.dead) ∘ f) = (fun w => decide (w.laddr = l) && !w.dead) := by
    funext w
    obtain ⟨ha, -, hd⟩ := hf w
    by_cases e : w.laddr = l
    · simp [ha, e, hd e]
    · simp [ha, e]
  have data : (fun w : WEntry => w.data) ∘ f = fun w => w.data := by
    funext w
    exact (hf w).2.1
  simp only [State.buffered, h, List.filter_map, counted, List.getLast?_map, Option.map_map, data]

/-- The version added last is the unit's version; the others keep theirs. -/
theorem State.buffered_append (s t : State) {w : WEntry} {a : Nat} {d : List Byte} (h : t.ftl.wbuf = s.ftl.wbuf ++ [w])
    (ha : w.laddr = a) (hd : w.data = d) (live : w.dead = false) (l : Nat) : t.buffered l = if l = a then some d else s.buffered l := by
  simp only [State.buffered, h, List.filter_append]
  by_cases e : l = a
  · simp [e, ha, hd, live]
  · simp [e, ha, Ne.symm e]

/-! ### Pipes -/

/-- A unit given to a pipe is at step 1 of its way; its version and the others stay. -/
theorem State.toPipe_wbuf (s : State) (id : Nat) : ∃ f : WEntry → WEntry, (s.toPipe id).ftl = { s.ftl with wbuf := s.ftl.wbuf.map f }
    ∧ ∀ w, (f w).laddr = w.laddr ∧ (f w).data = w.data ∧ (f w).dead = w.dead := by
  rw [State.toPipe]
  split
  · exact ⟨fun w => w, by rw [List.map_id'], fun w => ⟨rfl, rfl, rfl⟩⟩
  · refine ⟨fun w => if w.id = id then { w with step := 1 } else w, rfl, fun w => ?_⟩
    dsimp only
    split <;> exact ⟨rfl, rfl, rfl⟩

theorem State.toPipe_map (s : State) (id : Nat) : (s.toPipe id).ftl.map = s.ftl.map := by
  obtain ⟨f, hf, -⟩ := s.toPipe_wbuf id
  simp only [hf]

theorem State.toPipe_buffered (s : State) (id l : Nat) : (s.toPipe id).buffered l = s.buffered l := by
  obtain ⟨f, hf, keeps⟩ := s.toPipe_wbuf id
  exact State.buffered_map s _ l f (congrArg FtlState.wbuf hf) (fun w => ⟨(keeps w).1, (keeps w).2.1, fun _ => (keeps w).2.2⟩)

theorem State.cmp_onlyChanges (s : State) (x : CmpState) : s.onlyChanges { s with cmp := x } [.cmp] := by
  intro p hp
  cases p
  case cmp => exact absurd (List.mem_singleton_self _) hp
  all_goals rfl

theorem State.toPipe_onlyChanges (s : State) (id : Nat) : s.onlyChanges (s.toPipe id) [.cmp, .regs, .ftl] := by
  rw [State.toPipe]
  split
  · exact s.onlyChanges_refl _
  · exact State.onlyChanges_append (State.onlyChanges_trans (s.cmp_onlyChanges _) (State.cmp_onlyChanges _ _))
      (State.onlyChanges_append (State.setFld_onlyChanges _ _ _ _ _) (State.modFtl_onlyChanges _ _))

/-! ### Commits -/

theorem State.commitUnit_onlyChanges (s : State) (c : CmdRef) (l : Nat) (d : List Byte) :
    s.onlyChanges (s.commitUnit c l d) [.ftl, .cmp, .regs, .ftl] :=
  State.onlyChanges_append (s.modFtl_onlyChanges _) (State.toPipe_onlyChanges _ _)

theorem State.commitUnit_map (s : State) (c : CmdRef) (l : Nat) (d : List Byte) : (s.commitUnit c l d).ftl.map = s.ftl.map :=
  State.toPipe_map _ _

/-- A unit committed has its new data as its version in the write buffer. -/
theorem State.commitUnit_buffered (s : State) (c : CmdRef) (l : Nat) (d : List Byte) (x : Nat) :
    (s.commitUnit c l d).buffered x = if x = l then some d else s.buffered x :=
  (State.toPipe_buffered _ _ x).trans (State.buffered_append (a := l) (d := d) s _ rfl rfl rfl rfl x)

theorem State.commitAll_onlyChanges (s : State) (c : CmdRef) (l : List (Nat × List Byte)) :
    s.onlyChanges (s.commitAll c l) [.ftl, .cmp, .regs, .ftl] :=
  State.foldl_onlyChanges _ (fun s _ => s.commitUnit_onlyChanges c _ _) l s

theorem State.commitAll_map (s : State) (c : CmdRef) (l : List (Nat × List Byte)) : (s.commitAll c l).ftl.map = s.ftl.map := by
  induction l generalizing s with
  | nil => rfl
  | cons x l ih => exact (ih _).trans (s.commitUnit_map c _ _)

/-- A unit that is not committed keeps its version. -/
theorem State.commitAll_buffered_other (s : State) (c : CmdRef) (l : List (Nat × List Byte)) (x : Nat) (h : x ∉ l.map Prod.fst) :
    (s.commitAll c l).buffered x = s.buffered x := by
  induction l generalizing s with
  | nil => rfl
  | cons y l ih =>
    obtain ⟨first, rest⟩ := not_or.mp (mt List.mem_cons.mpr h)
    exact (ih _ rest).trans ((s.commitUnit_buffered c _ _ x).trans (if_neg first))

/-- Each unit committed, at an address of its own, has its new data as its version. -/
theorem State.commitAll_buffered (s : State) (c : CmdRef) (addr : Nat → Nat) (hi : Function.Injective addr) (data : Nat → List Byte)
    (us : List Nat) (u : Nat) (hu : u ∈ us) :
    (s.commitAll c (us.map (fun u => (addr u, data u)))).buffered (addr u) = some (data u) := by
  induction us generalizing s with
  | nil => exact absurd hu List.not_mem_nil
  | cons y us ih =>
    by_cases later : u ∈ us
    · exact ih _ later
    · obtain rfl : u = y := (List.mem_cons.mp hu).resolve_right later
      have gone : addr u ∉ (us.map (fun u => (addr u, data u))).map Prod.fst := by
        simpa [List.mem_map, hi.eq_iff] using later
      exact (State.commitAll_buffered_other _ c _ _ gone).trans ((s.commitUnit_buffered c _ _ _).trans (if_pos rfl))

theorem laddrOf_injective (nsid : Nat) : Function.Injective (laddrOf nsid) := fun _ _ h => Nat.add_left_cancel h

end Sys2Proof.Machine
end

section
/-!
SUPPORT. How a command on logical blocks goes on: it is started, finds its units, and finishes once none is missing.
-/
namespace Sys2Proof.Machine

/-! ### What a command found -/

theorem OutCmd.unit_congr {o p : OutCmd} (h : o.got = p.got) (l size : Nat) : o.unit l size = p.unit l size := by
  rw [OutCmd.unit, h, ← OutCmd.unit]

theorem OutCmd.dealloc_congr {o p : OutCmd} (h : o.got = p.got) (l : Nat) : o.dealloc l = p.dealloc l := by
  rw [OutCmd.dealloc, h, ← OutCmd.dealloc]

theorem OutCmd.lba_congr {o p : OutCmd} (h : o.got = p.got) (n : Ns) (nsid lba : Nat) : o.lba n nsid lba = p.lba n nsid lba := by
  simp only [OutCmd.lba, OutCmd.unit_congr h, OutCmd.dealloc_congr h]

theorem OutCmd.merge_congr {o p : OutCmd} (h : o.got = p.got) (n : Ns) (nsid u : Nat) (rs : List (Nat × Nat)) (new : Nat → List Byte) :
    o.merge n nsid u rs new = p.merge n nsid u rs new := by
  simp only [OutCmd.merge, OutCmd.lba_congr h]

theorem OutCmd.piOutBad_congr {o p : OutCmd} (h : o.got = p.got) (n : Ns) (c : HostCmd) : o.piOutBad n c = p.piOutBad n c := by
  simp only [OutCmd.piOutBad, OutCmd.lba_congr h]

theorem OutCmd.dataOut_congr {o p : OutCmd} (h : o.got = p.got) (n : Ns) (c : HostCmd) : o.dataOut n c = p.dataOut n c := by
  simp only [OutCmd.dataOut, OutCmd.lba_congr h]

theorem List.foldl_erase_self (l : List Nat) : l.foldl List.erase l = [] := by
  induction l with
  | nil => rfl
  | cons x l ih => rw [List.foldl_cons, List.erase_cons_head, ih]

/-- A command whose units are all at hand has them all, and needs none of them any more. -/
theorem State.gather_found (s : State) (c : CmdRef) (got : List (Nat × List Byte)) (h : ∀ x ∈ got, s.lookUnit x.1 = .data x.2) :
    s.gather c (got.map Prod.fst)
      = s.modOut c (fun o => { o with need := (got.map Prod.fst).foldl List.erase o.need, got := o.got ++ got }) := by
  induction got generalizing s with
  | nil => exact (s.modOut_id c _ (fun o => by simp)).symm
  | cons x got ih =>
    have first : s.lookUnit x.1 = .data x.2 := h x List.mem_cons_self
    have rest : ∀ y ∈ got, (s.modOut c (fun o => { o with need := o.need.erase x.1, got := o.got ++ [(x.1, x.2)] })).lookUnit y.1 = .data y.2 :=
      fun y hy => h y (List.mem_cons_of_mem _ hy)
    simp only [List.map_cons, State.gather, first]
    rw [ih _ rest, State.modOut_modOut]
    · simp only [List.foldl_cons, List.append_assoc, List.singleton_append]
    · exact fun _ => ⟨rfl, rfl, rfl⟩

/-! ### Start and progress -/

/-- A command on a namespace of this device alone is started: it looks for what it needs, and goes on. -/
theorem State.ioStart_plain {s : State} {c : CmdRef} {o : OutCmd} {k : IoKind} {h : HostCmd} {n : Ns} (ho : s.outCmd c = some o)
    (hio : o.io = some (k, h)) (hn : s.nsOf h.nsid = some n) (plain : n.spread = false) :
    s.ioStart c = ((s.modOut c (fun o => { o with stage := .started, need := n.needs k h })).gather c (n.needs k h)).ioProgress c := by
  simp only [State.ioStart, ho, hio, hn, plain]
  rfl

/-- A started command that misses nothing finishes. -/
theorem State.ioProgress_finish {s : State} {c : CmdRef} {o : OutCmd} {k : IoKind} {h : HostCmd} {n : Ns} (ho : s.outCmd c = some o)
    (hio : o.io = some (k, h)) (hn : s.nsOf h.nsid = some n) (hs : o.stage = .started) (hneed : o.need = [])
    (data : k = .write → o.arrived = true) : s.ioProgress c = s.ioFinish o k h n := by
  have go : o.stage = .started ∧ o.need.isEmpty ∧ (!decide (k = .write) || o.arrived) := by
    refine ⟨hs, by rw [hneed]; rfl, ?_⟩
    by_cases w : k = .write
    · simp [data w]
    · simp [w]
  simp only [State.ioProgress, ho, hio, hn]
  exact if_pos go

/-- A command whose units are all at hand finishes as it is started. -/
theorem State.ioStart_found {s : State} {c : CmdRef} {o : OutCmd} {k : IoKind} {h : HostCmd} {n : Ns} (got : List (Nat × List Byte))
    (ho : s.outCmd c = some o) (hio : o.io = some (k, h)) (hn : s.nsOf h.nsid = some n) (plain : n.spread = false)
    (data : k ≠ .write) (needs : got.map Prod.fst = n.needs k h) (found : ∀ x ∈ got, s.lookUnit x.1 = .data x.2) :
    s.ioStart c = (s.modOut c (fun o => { o with stage := .started, need := [], got := o.got ++ got })).ioFinish
      { o with stage := .started, need := [], got := o.got ++ got } k h n := by
  have gathered : (s.modOut c (fun o => { o with stage := .started, need := n.needs k h })).gather c (n.needs k h)
      = s.modOut c (fun o => { o with stage := .started, need := [], got := o.got ++ got }) := by
    rw [← needs, State.gather_found _ c got, State.modOut_modOut]
    · simp only [List.foldl_erase_self]
    · exact fun _ => ⟨rfl, rfl, rfl⟩
    · exact found
  rw [State.ioStart_plain ho hio hn plain, gathered]
  refine State.ioProgress_finish ?_ hio hn rfl rfl (fun w => absurd w data)
  rw [State.outCmd_modOut, ho, Option.map_some]
  exact fun _ => ⟨rfl, rfl, rfl⟩

/-! ### The end of a command -/

theorem State.logError_locks (s : State) (c : CmdRef) (sct sc : Nat) (dnr : Bool) :
    (s.logError c sct sc dnr).host.locks = s.host.locks := by
  rw [State.logError]
  split <;> rfl

theorem State.complete_locks (s : State) (c : CmdRef) (sct sc : Nat) (dnr : Bool) (dw0 : Nat) :
    (s.complete c sct sc dnr dw0).host.locks = s.host.locks.filter (fun l => l.cmd ≠ c) := by
  simp only [State.complete]
  split
  · rfl
  · split
    · rfl
    · split
      · rfl
      · split
        · rfl
        · exact State.logError_locks _ _ _ _ _

/-- A command that ends has no lock. -/
theorem State.endCmd_unlocked (s : State) (c : CmdRef) (sct sc : Nat) (dnr : Bool) (dw0 : Nat) :
    (s.endCmd c sct sc dnr dw0).host.locks.any (fun l => l.cmd = c) = false := by
  have locks : (s.endCmd c sct sc dnr dw0).host.locks = s.host.locks.filter (fun l => l.cmd ≠ c) := State.complete_locks _ _ _ _ _ _
  rw [locks, List.any_eq_false]
  intro l hl
  simpa using (List.mem_filter.mp hl).2

/-- The end of a command frees what it had reserved, and leaves the map and the write buffer. -/
theorem State.endCmd_ftl (s : State) (c : CmdRef) (sct sc : Nat) (dnr : Bool) (dw0 : Nat) :
    (s.endCmd c sct sc dnr dw0).ftl = { s.ftl with reserved := s.ftl.reserved.filter (fun r => r.1 ≠ c) } :=
  State.complete_onlyChanges _ c sct sc dnr dw0 .ftl (by decide)

end Sys2Proof.Machine
end

section
/-!
SUPPORT. A write's data: the checks in front of their admission, and what each outcome of the admission leaves.
-/
namespace Sys2Proof.Machine

/-! ### Admission -/

/-- Bytes that a write brings to the write buffer: its data units and its metadata units (R332). -/
def Ns.writeBytes (n : Ns) (c : HostCmd) : Nat :=
  ((n.touched .write c).map (fun _ => n.unit)).sum + (n.mdUnits (n.touched .write c)).length * 4096

/-- Records that a write will make. -/
def Ns.writeRecs (n : Ns) (c : HostCmd) : Nat := (n.touched .write c).length + (n.mdUnits (n.touched .write c)).length

/-- Addresses of the units that a write changes. -/
def Ns.writeUnits (n : Ns) (c : HostCmd) : List Nat :=
  (n.touched .write c).map (laddrOf c.nsid) ++ (n.mdUnits (n.touched .write c)).map (mdLaddr c.nsid)

/-- All data of a write to a namespace of this device alone have arrived, and pass every check in front of their admission (R212, R327, R329). -/
structure State.DataPasses (s : State) (ref : CmdRef) (o : OutCmd) (c : HostCmd) (n : Ns) : Prop where
  out : s.outCmd ref = some o
  io : o.io = some (.write, c)
  early : o.arrived = false
  stage : o.stage = .started ∨ o.stage = .waitBuffer ∨ o.stage = .waitRate
  ns : s.nsOf c.nsid = some n
  plain : n.spread = false
  xfer : c.xfer = .ok
  pi : n.piInBad c = none
  room : ∀ k, s.ftl.cap = some k → s.validGrains + s.reservedGrains + s.reserveOf .write c n ≤ k
  page : s.pageMissing (n.writeUnits c) = false

/-- The device is not out of room: the episode is over (R212). -/
def State.notFull (s : State) : State := s.modFtl (fun f => { f with fullEpisode := false })

/-- The state in which an admitted write's data arrive: their grains are reserved, and their bytes have left the write-rate bucket. -/
def State.dataAdmitted (s : State) (ref : CmdRef) (c : HostCmd) (n : Ns) : State :=
  ((s.notFull.modeRise.wrFill).modFtl (fun f => { f with
    wrLevel := f.wrLevel - ((n.xferBytes c * 864000000000000000 : Nat) : Int), wrWaiting := false,
    reserved := f.reserved ++ [(ref, s.reserveOf .write c n)] })).setFld PWR_WRGOV_STAT_WAITING 0

/-- Writes wait for the write-rate bucket, once an episode (R429). -/
def State.rateWaits (s : State) : State :=
  if s.ftl.wrWaiting then s
  else ((s.modFtl (fun f => { f with wrWaiting := true })).setFld PWR_WRGOV_STAT_WAITING 1).raise 107 1 [s.fld PWR_WRGOV_STAT_LEVEL]

theorem State.admitBar_fresh (s : State) (pod bytes recs : Nat) (host : Bool) :
    s.fresh.admitBar pod bytes recs host = s.admitBar pod bytes recs host := by
  cases s
  rfl

/-- A write that passes the checks is admitted, waits for room, or waits for its rate. -/
theorem State.ioData_passes {s : State} {ref : CmdRef} {o : OutCmd} {c : HostCmd} {n : Ns} (h : s.DataPasses ref o c n) :
    let bar := s.admitBar c.pod (n.writeBytes c) (n.writeRecs c) true
    (bar = 0 → s.ioData ref = ((s.dataAdmitted ref c n).modOut ref
        (fun o => { o with arrived := true, bytes := n.writeBytes c, stage := .started })).ioProgress ref)
      ∧ (bar = 1 → s.ioData ref = s.notFull.modOut ref (fun o => { o with stage := .waitBuffer }))
      ∧ (bar = 3 → s.ioData ref = (s.notFull.modOut ref (fun o => { o with stage := .waitBuffer })).podHeld c.pod 2)
      ∧ (bar = 2 → s.ioData ref = (s.notFull.modOut ref (fun o => { o with stage := .waitRate })).rateWaits) := by
  have awaited : ¬ (o.arrived = true ∨ (o.stage ≠ .started ∧ o.stage ≠ .waitBuffer ∧ o.stage ≠ .waitRate)) := by
    rintro (late | ⟨a, b, d⟩)
    · exact absurd (h.early.symm.trans late) Bool.false_ne_true
    · rcases h.stage with e | e | e
      · exact a e
      · exact b e
      · exact d e
  have page : s.notFull.pageMissing (n.writeUnits c) = false := h.page
  simp only [State.ioData, h.out, h.io, if_neg awaited, h.ns, h.plain, h.xfer, h.pi, ne_eq, not_true, if_false, Bool.false_eq_true]
  rw [if_neg, if_neg]
  · refine ⟨fun bar => ?_, fun bar => ?_, fun bar => ?_, fun bar => ?_⟩ <;> generalize found : State.admitBar _ _ _ _ _ = b
    all_goals
      obtain rfl : b = _ := found.symm.trans bar
      rfl
  · exact Bool.eq_false_iff.mp page
  · split
    · next k hk => simpa using h.room k hk
    · exact Bool.false_ne_true

/-! ### What each outcome leaves -/

theorem State.raise_onlyChanges (s : State) (n c : Nat) (l : List Nat) : s.onlyChanges (s.raise n c l) [.evt] := s.raiseWith_onlyChanges n c l none 0

theorem State.raisePod_onlyChanges (s : State) (n c : Nat) (l : List Nat) (p : Nat) : s.onlyChanges (s.raisePod n c l p) [.evt] :=
  s.raiseWith_onlyChanges n c l (some p) 0

theorem State.modeRise_onlyChanges (s : State) : s.onlyChanges s.modeRise [.ftl, .regs, .evt] := by
  rw [State.modeRise]
  split
  · exact State.onlyChanges_append (s.modFtl_onlyChanges _) (State.onlyChanges_append
      (State.onlyChanges_trans (State.setFld_onlyChanges _ _ _ _ _) (State.setFld_onlyChanges _ _ _ _ _)) (State.raise_onlyChanges _ _ _ _))
  · exact s.onlyChanges_refl _

/-- The translation layer but its note of a delivered limit is as before. -/
theorem State.modeRise_keeps {α : Type} (s : State) (g : FtlState → α) (h : ∀ f b, g { f with holdUpReady := b } = g f) :
    g s.modeRise.ftl = g s.ftl := by
  rw [State.modeRise]
  split
  · exact h s.ftl false
  · rfl

/-- A register but FTL_DUR reads as before. -/
theorem State.modeRise_fld (s : State) (f : Field) (h : f.reg.key 0 0 ≠ FTL_DUR.key 0 0) : s.modeRise.fld f = s.fld f := by
  rw [State.modeRise]
  split
  · rw [State.raise_fld, State.fld_setFld_other _ FTL_DUR_MODE f 1 0 0 0 0 h, State.fld_setFld_other _ FTL_DUR_WT_CAUSE f 0 0 0 0 0 h,
      State.modFtl_fld]
  · rfl

theorem State.wrFill_onlyChanges (s : State) : s.onlyChanges s.wrFill [.ftl] := s.modFtl_onlyChanges _

/-- The level of the write-rate bucket at a time follows from its registers, the capacity, and its level and time before. -/
theorem State.wrFill_level_congr {s t : State} (hd : t.fld PWR_WRGOV_CFG_DWPD_X100 = s.fld PWR_WRGOV_CFG_DWPD_X100)
    (hb : t.fld PWR_WRGOV_CFG_BURST_H = s.fld PWR_WRGOV_CFG_BURST_H) (hc : t.ftl.cap = s.ftl.cap) (hl : t.ftl.wrLevel = s.ftl.wrLevel)
    (ha : t.ftl.wrAt = s.ftl.wrAt) (ht : t.time = s.time) : t.wrFill.ftl.wrLevel = s.wrFill.ftl.wrLevel := by
  simp only [State.wrFill, State.modFtl, hd, hb, hc, hl, ha, ht]

theorem State.wrFill_fresh_level (s : State) : s.fresh.wrFill.ftl.wrLevel = s.wrFill.ftl.wrLevel :=
  State.wrFill_level_congr rfl rfl rfl rfl rfl rfl

theorem State.modeRise_wrFill_level (s : State) : s.modeRise.wrFill.ftl.wrLevel = s.wrFill.ftl.wrLevel :=
  State.wrFill_level_congr (s.modeRise_fld _ (by decide)) (s.modeRise_fld _ (by decide)) (s.modeRise_keeps FtlState.cap fun _ _ => rfl)
    (s.modeRise_keeps FtlState.wrLevel fun _ _ => rfl) (s.modeRise_keeps FtlState.wrAt fun _ _ => rfl) (s.modeRise_onlyChanges .time (by decide))

section
variable (s : State) (ref : CmdRef) (c : HostCmd) (n : Ns)

theorem State.dataAdmitted_onlyChanges : s.onlyChanges (s.dataAdmitted ref c n) [.ftl, .regs, .evt] :=
  State.onlyChanges_mono (State.onlyChanges_append (s.modFtl_onlyChanges _) (State.onlyChanges_append (State.modeRise_onlyChanges _)
    (State.onlyChanges_append (State.wrFill_onlyChanges _) (State.onlyChanges_append (State.modFtl_onlyChanges _ _)
      (State.setFld_onlyChanges _ _ _ _ _))))) (by decide)

theorem State.dataAdmitted_reserved : (s.dataAdmitted ref c n).ftl.reserved = s.ftl.reserved ++ [(ref, s.reserveOf .write c n)] :=
  congrArg (· ++ [(ref, s.reserveOf .write c n)]) (s.notFull.modeRise_keeps FtlState.reserved fun _ _ => rfl)

theorem State.dataAdmitted_wrLevel :
    (s.dataAdmitted ref c n).ftl.wrLevel = s.wrFill.ftl.wrLevel - ((n.xferBytes c * 864000000000000000 : Nat) : Int) :=
  congrArg (· - ((n.xferBytes c * 864000000000000000 : Nat) : Int)) s.notFull.modeRise_wrFill_level

theorem State.dataAdmitted_map : (s.dataAdmitted ref c n).ftl.map = s.ftl.map := s.notFull.modeRise_keeps FtlState.map fun _ _ => rfl

theorem State.dataAdmitted_wbuf : (s.dataAdmitted ref c n).ftl.wbuf = s.ftl.wbuf := s.notFull.modeRise_keeps FtlState.wbuf fun _ _ => rfl

end

theorem State.podHeld_onlyChanges (s : State) (p cause : Nat) : s.onlyChanges (s.podHeld p cause) [.pod, .evt] := by
  rw [State.podHeld]
  split
  · split
    · exact s.onlyChanges_refl _
    · exact State.onlyChanges_append (s.modPod_onlyChanges _ _) (State.raisePod_onlyChanges _ _ _ _ _)
  · exact s.onlyChanges_refl _

theorem State.rateWaits_onlyChanges (s : State) : s.onlyChanges s.rateWaits [.ftl, .regs, .evt] := by
  rw [State.rateWaits]
  split
  · exact s.onlyChanges_refl _
  · exact State.onlyChanges_append (s.modFtl_onlyChanges _)
      (State.onlyChanges_append (State.setFld_onlyChanges _ _ _ _ _) (State.raise_onlyChanges _ _ _ _))

theorem State.rateWaits_wbuf (s : State) : s.rateWaits.ftl.wbuf = s.ftl.wbuf := by
  rw [State.rateWaits]
  split <;> rfl

/-- PWR_WRGOV_STAT.WAITING reads 1 from a write's first wait on. -/
theorem State.rateWaits_waiting (s : State) :
    s.rateWaits.fld PWR_WRGOV_STAT_WAITING = (if s.ftl.wrWaiting then s.fld PWR_WRGOV_STAT_WAITING else 1) := by
  rw [State.rateWaits]
  split
  · rfl
  · exact State.fld_setFld_same _ PWR_WRGOV_STAT_WAITING 1 0 0 (by decide)

end Sys2Proof.Machine
end

section
/-!
SUPPORT. Host data and held entries: the obligation settled.
-/
namespace Sys2Proof.Machine

/-! ### The commands that look at a write's data -/

/-- A write's data are looked at when they have arrived, and again in the wait the write has come to. -/
theorem exec_ioData {s : State} {i : Instr} {pod qid cid : Nat} {o : OutCmd} {c : HostCmd}
    (look : (i, o.stage) ∈ [(Instr.hostDataPulled pod qid cid, Stage.started), (.writeBufferAdmit pod qid cid, .waitBuffer),
      (.writeRateAdmit pod qid cid, .waitRate)])
    (ho : s.outCmd ⟨pod, qid, cid⟩ = some o) (hio : o.io = some (.write, c)) :
    exec i s = (s.fresh.ioData ⟨pod, qid, cid⟩).done s ∧ (o.stage = .started ∨ o.stage = .waitBuffer ∨ o.stage = .waitRate) := by
  have hf : s.fresh.outCmd ⟨pod, qid, cid⟩ = some o := ho
  simp only [List.mem_cons, Prod.mk.injEq, List.not_mem_nil, or_false] at look
  rcases look with ⟨rfl, stage⟩ | ⟨rfl, stage⟩ | ⟨rfl, stage⟩
  · exact ⟨rfl, .inl stage⟩
  · refine ⟨?_, .inr (.inl stage)⟩
    show execWriteBufferAdmit pod qid cid s = _
    simp only [execWriteBufferAdmit, State.bufferAdmit, hf, stage, hio]
  · refine ⟨?_, .inr (.inr stage)⟩
    show execWriteRateAdmit pod qid cid s = _
    rw [execWriteRateAdmit, if_pos (by rw [hf, Option.map_some, stage])]

section
variable {s : State} {ref : CmdRef} {o : OutCmd} {c : HostCmd} {n : Ns}

/-- An admitted write goes on from the state in which its data have arrived. -/
theorem State.DataPasses.admitted (h : s.DataPasses ref o c n) (bar : s.admitBar c.pod (n.writeBytes c) (n.writeRecs c) true = 0) :
    s.ioData ref = ((s.dataAdmitted ref c n).modOut ref
      (fun o => { o with arrived := true, bytes := n.writeBytes c, stage := .started })).ioProgress ref :=
  (State.ioData_passes h).1 bar

/-- A write put into a wait is outstanding in it, with no completion more. -/
theorem State.DataPasses.waits (h : s.DataPasses ref o c n) (st : Stage) {t : State}
    (host : t.host = (s.notFull.modOut ref (fun o => { o with stage := st })).host) :
    ∃ p : OutCmd, t.outCmd ref = some p ∧ p.stage = st ∧ p.io = o.io ∧ p.arrived = false ∧ t.host.cqes = s.host.cqes := by
  have cqes := congrArg HostState.cqes host
  refine ⟨{ o with stage := st }, ?_, rfl, rfl, h.early, cqes⟩
  have found : s.notFull.outCmd ref = some o := h.out
  rw [State.outCmd_congr ref (congrArg HostState.out host), State.outCmd_modOut, found, Option.map_some]
  exact fun _ => ⟨rfl, rfl, rfl⟩

end

theorem State.waits_onlyChanges (s : State) (ref : CmdRef) (f : OutCmd → OutCmd) :
    s.onlyChanges (s.notFull.modOut ref f) [.ftl, .host] :=
  State.onlyChanges_append (s.modFtl_onlyChanges _) (State.modOut_onlyChanges _ _ _)

/-! ### A write none of whose units is missing -/

theorem Ns.mdUnits_none {n : Ns} (h : n.mdGroup = 0) (us : List Nat) : n.mdUnits us = [] := if_pos h

/-- The new versions of the units of a write to a namespace without metadata. -/
def OutCmd.newUnits (o : OutCmd) (n : Ns) (c : HostCmd) : List (Nat × List Byte) :=
  (n.touched .write c).map (fun u => (laddrOf c.nsid u,
    o.merge n c.nsid u [(c.slba, c.nlb)] (fun lba => (n.lbaOf c.pract c.nlb c.data (lba - c.slba)).1)))

theorem OutCmd.newUnits_congr {o p : OutCmd} (h : o.got = p.got) (n : Ns) (c : HostCmd) : o.newUnits n c = p.newUnits n c := by
  simp only [OutCmd.newUnits, OutCmd.merge_congr h]

theorem OutCmd.newUnits_addrs (o : OutCmd) (n : Ns) (c : HostCmd) :
    (o.newUnits n c).map Prod.fst = (n.touched .write c).map (laddrOf c.nsid) := by
  rw [OutCmd.newUnits, List.map_map]
  rfl

theorem State.ioFinish_write (s : State) (o : OutCmd) (c : HostCmd) {n : Ns} (plain : n.spread = false) (md : n.mdGroup = 0) :
    s.ioFinish o .write c n = (s.commitAll (HostCmdRef c) (o.newUnits n c)).committed (HostCmdRef c) := by
  simp only [State.ioFinish, plain, Ns.mdUnits_none md, List.map_nil, List.append_nil, Bool.false_eq_true, if_false]
  rfl

/-- The state in which an admitted write none of whose units is missing commits: each unit has its new version. -/
def State.dataCommitted (s : State) (o : OutCmd) (c : HostCmd) (n : Ns) : State :=
  ((s.dataAdmitted (HostCmdRef c) c n).modOut (HostCmdRef c)
    (fun o => { o with arrived := true, bytes := n.writeBytes c, stage := .started })).commitAll (HostCmdRef c) (o.newUnits n c)

section
variable {s : State} {o : OutCmd} {c : HostCmd} {n : Ns} (h : s.DataPasses (HostCmdRef c) o c n)
include h

theorem State.DataPasses.commits (bar : s.admitBar c.pod (n.writeBytes c) (n.writeRecs c) true = 0) (need : o.need = [])
    (md : n.mdGroup = 0) : s.ioData (HostCmdRef c) = (s.dataCommitted o c n).committed (HostCmdRef c) := by
  have host : (s.dataAdmitted (HostCmdRef c) c n).host = s.host := s.dataAdmitted_onlyChanges _ c n .host (by decide)
  have found : (s.dataAdmitted (HostCmdRef c) c n).outCmd (HostCmdRef c) = some o :=
    (State.outCmd_congr _ (congrArg HostState.out host)).trans h.out
  have out := State.outCmd_modOut (s.dataAdmitted (HostCmdRef c) c n) (HostCmdRef c)
    (fun o => { o with arrived := true, bytes := n.writeBytes c, stage := .started }) (fun _ => ⟨rfl, rfl, rfl⟩)
  rw [found, Option.map_some] at out
  have ns : (s.dataAdmitted (HostCmdRef c) c n).nsOf c.nsid = some n := (congrArg (fun x : HostState => Tab.look x.ns c.nsid) host).trans h.ns
  have units := OutCmd.newUnits_congr (o := { o with arrived := true, bytes := n.writeBytes c, stage := .started }) (p := o) rfl n c
  rw [h.admitted bar, State.ioProgress_finish out h.io ns rfl need (fun _ => rfl), State.ioFinish_write _ _ _ h.plain md,
    State.dataCommitted, units]

end

theorem State.modOut_locks (s : State) (c : CmdRef) (f : OutCmd → OutCmd) : (s.modOut c f).host.locks = s.host.locks := rfl

section
variable (s : State) (o : OutCmd) (c : HostCmd) (n : Ns)

/-- What arrives of a write changes the command, the write's room and its rate alone. -/
theorem State.dataArrived_onlyChanges (f : OutCmd → OutCmd) :
    s.onlyChanges ((s.dataAdmitted (HostCmdRef c) c n).modOut (HostCmdRef c) f) [.ftl, .regs, .evt, .host] :=
  State.onlyChanges_append (s.dataAdmitted_onlyChanges _ c n) (State.modOut_onlyChanges _ _ _)

theorem State.dataCommitted_onlyChanges : s.onlyChanges (s.dataCommitted o c n) [.host, .ftl, .cmp, .regs, .evt] :=
  State.onlyChanges_mono (State.onlyChanges_append (s.dataArrived_onlyChanges c n _) (State.commitAll_onlyChanges _ _ _)) (by decide)

theorem State.dataCommitted_map : (s.dataCommitted o c n).ftl.map = s.ftl.map :=
  (State.commitAll_map _ _ _).trans (s.dataAdmitted_map _ c n)

theorem State.dataCommitted_locks : (s.dataCommitted o c n).host.locks = s.host.locks :=
  (congrArg HostState.locks (State.commitAll_onlyChanges _ _ _ .host (by decide))).trans
    ((State.modOut_locks _ _ _).trans (congrArg HostState.locks (s.dataAdmitted_onlyChanges (HostCmdRef c) c n .host (by decide))))

theorem State.dataCommitted_buffered (u : Nat) (hu : u ∈ n.touched .write c) :
    (s.dataCommitted o c n).buffered (laddrOf c.nsid u)
      = some (o.merge n c.nsid u [(c.slba, c.nlb)] (fun lba => (n.lbaOf c.pract c.nlb c.data (lba - c.slba)).1)) :=
  State.commitAll_buffered _ _ _ (laddrOf_injective c.nsid) _ _ u hu

theorem State.dataCommitted_buffered_other (l : Nat) (hl : l ∉ (n.touched .write c).map (laddrOf c.nsid)) :
    (s.dataCommitted o c n).buffered l = s.buffered l :=
  (State.commitAll_buffered_other _ _ _ l (by rwa [OutCmd.newUnits_addrs])).trans
    (State.buffered_congr (s := s) l (s.dataAdmitted_wbuf (HostCmdRef c) c n))

end

/-! ### Held entries -/

/-- The state in which a held entry that nothing holds any more is admitted: its tokens are taken, and its pod's wait is over. -/
def State.heldTaken (s : State) (pod : Nat) (h : HeldKind) (x : HostCmd) : State :=
  (s.takeTokens h x).modPod pod (fun p => { p with heldEpisode := false })

theorem State.heldTaken_onlyChanges (s : State) (pod : Nat) (h : HeldKind) (x : HostCmd) : s.onlyChanges (s.heldTaken pod h x) [.pod] :=
  State.onlyChanges_trans (s.takeTokens_onlyChanges h x) (State.modPod_onlyChanges _ _ _)

/-- A held command that is not on logical blocks, admitted: it counts as fetched, and is known for what it asks. -/
def State.heldBegun (s : State) (h : HeldKind) (x : HostCmd) : State :=
  (s.begin x 0 .fetched none).modOut (HostCmdRef x) (fun o => { o with held := some (h, x) })

theorem State.heldBegun_onlyChanges (s : State) (h : HeldKind) (x : HostCmd) : s.onlyChanges (s.heldBegun h x) [.host, .regs, .host] :=
  State.onlyChanges_append (s.begin_onlyChanges x 0 .fetched none) (State.modOut_onlyChanges _ _ _)

theorem State.heldBegun_out (s : State) (h : HeldKind) (x : HostCmd) :
    ∃ p : OutCmd, (s.heldBegun h x).outCmd (HostCmdRef x) = some p ∧ p.stage = .fetched ∧ p.held = some (h, x) := by
  have out := State.outCmd_modOut (s.begin x 0 .fetched none) (HostCmdRef x) (fun o => { o with held := some (h, x) })
    (fun _ => ⟨rfl, rfl, rfl⟩)
  rw [State.outCmd_begin, Option.map_some] at out
  exact ⟨_, out, rfl, rfl⟩

section
variable {s : State} {o : OutCmd} {h : HeldKind} {x : HostCmd} (ho : s.outCmd (HostCmdRef x) = some o) (hh : o.held = some (h, x))
  (free : s.holdCause h x = none) (fetch : s.canFetch x.pod = true)
include ho hh free fetch

/-- A held command on logical blocks begins as it is admitted. -/
theorem State.heldAdmit_io {k : IoKind} (kind : h = .io k) : s.heldAdmit (HostCmdRef x) = (s.heldTaken x.pod h x).ioBegin k x := by
  have go : ¬ ((s.holdCause h x).isSome = true ∨ (!s.canFetch (HostCmdRef x).pod) = true) := by simp [free, fetch, HostCmdRef]
  subst kind
  simp only [State.heldAdmit, ho, hh, if_neg go]
  rfl

/-- Any other held command counts as fetched, and its command row carries it out. -/
theorem State.heldAdmit_other (kind : ∀ k, h ≠ .io k) :
    s.heldAdmit (HostCmdRef x) = (s.heldTaken x.pod h x).heldBegun h x := by
  have go : ¬ ((s.holdCause h x).isSome = true ∨ (!s.canFetch (HostCmdRef x).pod) = true) := by simp [free, fetch, HostCmdRef]
  simp only [State.heldAdmit, ho, hh, if_neg go]
  cases h
  case io k => exact absurd rfl (kind k)
  all_goals rfl

end

/-! ### The obligation -/

/-- Settles O24. The three commands come to the same look at the write (`exec_ioData`), whose outcome follows the admission's bar
(`State.ioData_passes`). -/
theorem hostDataIsAdmittedAndCommitted : Obligations.HostDataIsAdmittedAndCommitted := by
  unfold Obligations.HostDataIsAdmittedAndCommitted
  refine ⟨?_, ?_, ?_⟩
  · intro s i pod qid cid o c n look ho ref hio early hn plain xfer pi room mds page bytes bar
    obtain ⟨rfl, rfl, rfl⟩ := CmdRef.mk.inj ref
    obtain ⟨run, stage⟩ := exec_ioData look ho hio
    have h : s.fresh.DataPasses (HostCmdRef c) o c n := ⟨ho, hio, early, stage, hn, plain, xfer, pi, room, page⟩
    have fresh : s.fresh.admitBar c.pod (n.writeBytes c) (n.writeRecs c) true = bar := s.admitBar_fresh _ _ _ _
    have level : (s.fresh.dataAdmitted (HostCmdRef c) c n).ftl.wrLevel
        = s.wrFill.ftl.wrLevel - ((n.xferBytes c * 864000000000000000 : Nat) : Int) := by
      rw [State.dataAdmitted_wrLevel, State.wrFill_fresh_level]
    obtain ⟨room, full, share, rate⟩ := State.ioData_passes h
    rw [fresh] at room full share rate
    clear_value bar
    refine ⟨fun b => completes_of_done (run.trans (congrArg (State.done · s) (room b))) ?_, ?_,
      fun b => completes_of_done (run.trans (congrArg (State.done · s) (rate b))) ?_⟩
    · exact ⟨_, rfl, s.fresh.dataAdmitted_onlyChanges _ c n .host (by decide), s.fresh.dataAdmitted_reserved _ c n,
        level, rfl, s.fresh.dataAdmitted_map _ c n, s.fresh.dataAdmitted_wbuf _ c n,
        State.onlyChanges_of_fresh (s.fresh.dataAdmitted_onlyChanges _ c n)⟩
    · rintro (b | b)
      · refine completes_of_done (run.trans (congrArg (State.done · s) (full b))) ?_
        obtain ⟨p, out, waits, io, arrived, cqes⟩ := h.waits .waitBuffer rfl
        rw [if_pos b]
        exact ⟨p, out, waits, io, arrived, rfl, cqes, State.onlyChanges_of_fresh (State.waits_onlyChanges _ _ _)⟩
      · refine completes_of_done (run.trans (congrArg (State.done · s) (share b))) ?_
        have held := State.podHeld_onlyChanges (s.fresh.notFull.modOut (HostCmdRef c) (fun o => { o with stage := .waitBuffer })) c.pod 2
        obtain ⟨p, out, waits, io, arrived, cqes⟩ := h.waits .waitBuffer (held .host (by decide))
        have wbuf := congrArg FtlState.wbuf (held .ftl (by decide))
        rw [if_neg (by rw [b]; decide)]
        exact ⟨p, out, waits, io, arrived, wbuf, cqes,
          State.onlyChanges_mono (State.onlyChanges_of_fresh (State.onlyChanges_append (State.waits_onlyChanges _ _ _) held)) (by decide)⟩
    · have waited := State.rateWaits_onlyChanges (s.fresh.notFull.modOut (HostCmdRef c) (fun o => { o with stage := .waitRate }))
      obtain ⟨p, out, waits, io, arrived, cqes⟩ := h.waits .waitRate (waited .host (by decide))
      exact ⟨p, out, waits, io, arrived, State.rateWaits_wbuf _, State.rateWaits_waiting _, cqes,
        State.onlyChanges_mono (State.onlyChanges_of_fresh (State.onlyChanges_append (State.waits_onlyChanges _ _ _) waited)) (by decide)⟩
  · intro s i pod qid cid o c n look ho ref hio early need hn plain md xfer pi room page bar
    obtain ⟨rfl, rfl, rfl⟩ := CmdRef.mk.inj ref
    obtain ⟨run, stage⟩ := exec_ioData look ho hio
    have units : n.writeUnits c = (n.touched .write c).map (laddrOf c.nsid) := by
      rw [Ns.writeUnits, Ns.mdUnits_none md, List.map_nil, List.append_nil]
    have h : s.fresh.DataPasses (HostCmdRef c) o c n := ⟨ho, hio, early, stage, hn, plain, xfer, pi, room, by rwa [units]⟩
    have free : s.fresh.admitBar c.pod (n.writeBytes c) (n.writeRecs c) true = 0 := by
      rw [State.admitBar_fresh, Ns.writeBytes, Ns.writeRecs, Ns.mdUnits_none md, List.length_nil, Nat.zero_mul, Nat.add_zero, Nat.add_zero]
      exact bar
    refine completes_of_done (run.trans (congrArg (State.done · s) (h.commits free need md))) ?_
    exact ⟨_, rfl, s.fresh.dataCommitted_buffered o c n, s.fresh.dataCommitted_buffered_other o c n, s.fresh.dataCommitted_map o c n,
      s.fresh.dataCommitted_locks o c n, State.onlyChanges_of_fresh (s.fresh.dataCommitted_onlyChanges o c n)⟩
  · intro s pod qid cid o h x ho hh ref free fetch
    obtain ⟨rfl, rfl, rfl⟩ := CmdRef.mk.inj ref
    have run : exec (.heldEntryAdmit x.pod x.qid x.cid) s = (s.fresh.heldAdmit (HostCmdRef x)).done s := rfl
    have taken := State.onlyChanges_of_fresh (s.fresh.heldTaken_onlyChanges x.pod h x)
    by_cases kind : ∃ k, h = .io k
    · obtain ⟨k, rfl⟩ := kind
      exact completes_of_done (run.trans (congrArg (State.done · s) (State.heldAdmit_io (s := s.fresh) ho hh free fetch rfl)))
        ⟨_, rfl, taken, rfl⟩
    · refine completes_of_done (run.trans (congrArg (State.done · s)
        (State.heldAdmit_other (s := s.fresh) ho hh free fetch fun k hk => kind ⟨k, hk⟩))) ⟨_, rfl, taken, ?_⟩
      have begun := (s.fresh.heldTaken x.pod h x).heldBegun_out h x
      have frame := State.onlyChanges_mono (State.onlyChanges_of_fresh (State.onlyChanges_append (s.fresh.heldTaken_onlyChanges x.pod h x)
        ((s.fresh.heldTaken x.pod h x).heldBegun_onlyChanges h x))) (k := [.pod, .host, .regs, .out]) (by decide)
      cases h
      case io k => exact absurd ⟨k, rfl⟩ kind
      all_goals exact ⟨begun, rfl, frame⟩

end Sys2Proof.Machine
end

section
/-!
SUPPORT. The fetch of a command on logical blocks: its admission, the checks of R325, and its lock.
-/
namespace Sys2Proof.Machine

/-! ### Admission -/

/-- The commands on logical blocks, with their kinds. -/
def ioCommands (c : HostCmd) : List (Instr × IoKind) :=
  [(.nvmRead c, .read), (.nvmWrite c, .write), (.writeUncorrectable c, .writeUnc), (.compare c, .compare), (.writeZeroes c, .writeZeroes),
    (.datasetManagement c, .dsm), (.verify c, .verify)]

/-- A fetched command that neither the lock table nor a rate nor a quota holds goes on with its tokens taken. -/
theorem State.ioCmd_admitted {s : State} {h : HeldKind} {c : HostCmd} (a : s.admitsIo h c) (k : State → State) :
    s.fresh.ioCmd h c k = k (s.fresh.takeTokens h c) := by
  obtain ⟨⟨queue, taken, -⟩, room, free, unheld⟩ := a
  have fetched : ¬ (c.qid = 0 ∨ (!s.fresh.takes c) = true ∨ (h.needsLock c = true ∧ 32768 ≤ s.fresh.host.locks.length)) := by
    rintro (q | t | ⟨l, full⟩)
    · exact queue q
    · rw [show s.fresh.takes c = true from taken] at t
      exact Bool.false_ne_true t
    · exact absurd (room l) (Nat.not_lt.mpr full)
  have first : ¬ (s.fresh.outCmd (HostCmdRef c)).any (fun o => o.held.isSome) = true := Bool.eq_false_iff.mp unheld
  have now : s.fresh.holdCause h c = none := free
  simp only [State.ioCmd, if_neg fetched, State.admitNow, if_neg first, now]

/-- A command on logical blocks that is admitted begins. -/
theorem exec_io {s : State} {i : Instr} {k : IoKind} {c : HostCmd} (hi : (i, k) ∈ ioCommands c) (a : s.admitsIo (.io k) c) :
    exec i s = ((s.fresh.takeTokens (.io k) c).ioBegin k c).done s := by
  have row : exec i s = (s.fresh.ioCmd (.io k) c (fun s => s.ioBegin k c)).done s := by
    simp only [ioCommands, List.mem_cons, Prod.mk.injEq, List.not_mem_nil, or_false] at hi
    rcases hi with ⟨rfl, rfl⟩ | ⟨rfl, rfl⟩ | ⟨rfl, rfl⟩ | ⟨rfl, rfl⟩ | ⟨rfl, rfl⟩ | ⟨rfl, rfl⟩ | ⟨rfl, rfl⟩ <;> rfl
  rw [row, State.ioCmd_admitted a]

/-! ### The state in which it is outstanding -/

/-- The state in which an admitted command on logical blocks is checked: its tokens are taken, and it is outstanding (R313). -/
def State.ioBegun (s : State) (k : IoKind) (c : HostCmd) : State := (s.fresh.takeTokens (.io k) c).begin c 0 .fetched (some (k, c))

/-- The outstanding command of a command on logical blocks that has begun. -/
def State.ioOut (s : State) (k : IoKind) (c : HostCmd) : OutCmd :=
  ⟨c.pod, c.qid, c.cid, s.cqOf c.pod c.qid, 0, .fetched, some (k, c), [], [], false, none, false, false⟩

section
variable (s : State) (k : IoKind) (c : HostCmd)

theorem State.ioBegun_onlyChanges : s.onlyChanges (s.ioBegun k c) [.out, .pod, .host, .regs] :=
  State.onlyChanges_append (State.onlyChanges_append s.fresh_onlyChanges (State.takeTokens_onlyChanges _ _ _)) (State.begin_onlyChanges _ _ _ _ _)

theorem State.ioBegun_outCmd : (s.ioBegun k c).outCmd (HostCmdRef c) = some (s.ioOut k c) := State.outCmd_begin _ _ _ _ _

/-- A register but NVQ_STAT reads as before. -/
theorem State.ioBegun_fld (f : Field) (h : f.reg.key 0 0 ≠ NVQ_STAT.key 0 0) : (s.ioBegun k c).fld f = s.fld f :=
  State.fld_setFld_other _ NVQ_STAT_OUTSTANDING f _ 0 0 0 0 h

end

/-- A command that has begun is to complete to its queue. -/
theorem State.ioBegun_owns {s : State} {c : HostCmd} (t : s.takesIo c) (k : IoKind) : (s.ioBegun k c).owns c (s.cqOf c.pod c.qid) :=
  State.begin_owns (s.fresh.takeTokens (.io k) c) c 0 .fetched (some (k, c)) t.2.2

/-! ### The checks (R325) -/

/-- A command on logical blocks passes the checks in front of its lock. -/
structure State.IoPasses (s : State) (k : IoKind) (c : HostCmd) (n : Ns) : Prop where
  serves : s.nsServes c n
  home : n.spread = true → (s.spread c.nsid).any s.isHome = true ∧ s.host.nsOps.any (fun o => o.nsid = c.nsid && o.kind = 3) = false
  inside : ∀ r ∈ ioRanges k c, r.1 + r.2 ≤ n.size
  moves : (k = .read ∨ k = .write ∨ k = .compare) → c.nlb * lbaBytes n.format ≤ 2097152 ∧ c.xfer.badList = false
  writable : (k = .write ∨ k = .writeUnc ∨ (k = .writeZeroes ∧ bit c.cdw12 25 = false)) → s.ftl.readOnly = false
  list : k = .dsm → c.xfer = .ok

/-- A namespace that serves a command does not bar it. -/
theorem State.nsBar_none {s : State} {c : HostCmd} {n : Ns} (h : s.nsServes c n) : s.nsBar c = none := by
  obtain ⟨ns, pod, status, phase, enabled⟩ := h
  simp only [State.nsBar, ns, pod, status, phase, enabled]
  rfl

theorem State.ioBegun_serves {s : State} {c : HostCmd} {n : Ns} (h : s.nsServes c n) (k : IoKind) : (s.ioBegun k c).nsServes c n := by
  obtain ⟨ns, pod, status, phase, enabled⟩ := h
  refine ⟨ns, pod, status, phase, ?_⟩
  rw [State.flag, State.ioBegun_fld s k c FTL_CTRL_ENABLE (by decide)]
  exact enabled

theorem State.ioBegun_isHome (s : State) (k : IoKind) (c : HostCmd) (x : Spread) : (s.ioBegun k c).isHome x = s.isHome x := by
  have me : (s.ioBegun k c).me = s.me := s.ioBegun_fld k c ASK_CTRL_MEMBER_ID (by decide)
  simp only [State.isHome, me]

/-- The checks hold in the state in which the command is outstanding. -/
theorem State.IoPasses.begun {s : State} {k : IoKind} {c : HostCmd} {n : Ns} (h : s.IoPasses k c n) : (s.ioBegun k c).IoPasses k c n := by
  refine ⟨State.ioBegun_serves h.serves k, fun spread => ?_, h.inside, h.moves, h.writable, h.list⟩
  rw [funext (s.ioBegun_isHome k c)]
  exact h.home spread

/-- Whether a command's lock is EXCLUSIVE. -/
def IoKind.excl (k : IoKind) : Bool := !(k = .read || k = .compare || k = .verify)

/-- The units that a command's lock asks for, from its first and last: whole stripes of a spread namespace for a change. -/
def Ns.askRange (n : Ns) (excl : Bool) (a b : Nat) : Nat × Nat :=
  if n.hold ≠ 0 ∧ excl then (a / n.hold * n.hold, (b / n.hold + 1) * n.hold - 1) else (a, b)

/-- The lock of a command that has begun. -/
def State.ioLock (s : State) (k : IoKind) (c : HostCmd) (n : Ns) (a b : Nat) : Bool × State :=
  (s.ioBegun k c).lock c n k.excl (n.askRange k.excl a b).1 (n.askRange k.excl a b).2

/-- A command that passes the checks has no effect, as a Dataset Management without Deallocate, or is started, or waits for its lock. -/
theorem State.ioBegin_passes {s : State} {k : IoKind} {c : HostCmd} {n : Ns} (h : s.IoPasses k c n) :
    let t := (s.fresh.takeTokens (.io k) c).ioBegin k c
    ((k = .dsm ∧ bit c.cdw11 2 = false) → t = (s.ioBegun k c).endCmd (HostCmdRef c) 0 0 false 0)
      ∧ ((k = .dsm → bit c.cdw11 2 = true) → ∀ a b, (n.touched k c).head? = some a → (n.touched k c).getLast? = some b →
          t = if (s.ioLock k c n a b).1 then (s.ioLock k c n a b).2.ioStart (HostCmdRef c)
            else (s.ioLock k c n a b).2.modOut (HostCmdRef c) (fun o => { o with stage := .lockWait })) := by
  obtain ⟨serves, home, inside, moves, writable, list⟩ := h.begun
  have bar : (s.ioBegun k c).nsBar c = none := State.nsBar_none serves
  have ns : (s.ioBegun k c).nsOf c.nsid = some n := serves.1
  have begun : (s.fresh.takeTokens (.io k) c).begin c 0 .fetched (some (k, c)) = s.ioBegun k c := rfl
  have atHome : ¬ (n.spread = true ∧ ((!((s.ioBegun k c).spread c.nsid).any (s.ioBegun k c).isHome) = true
      ∨ (s.ioBegun k c).host.nsOps.any (fun o => decide (o.nsid = c.nsid) && decide (o.kind = 3)) = true)) := by
    rintro ⟨spread, away | moving⟩
    · simp [(home spread).1] at away
    · exact absurd ((home spread).2.symm.trans moving) Bool.false_ne_true
  have ranges : ¬ ((ioRanges k c).any fun r => decide (n.size < r.1 + r.2)) = true := by
    simpa using inside
  have size : ¬ ((decide (k = .read) || decide (k = .write) || decide (k = .compare)) = true ∧ 2097152 < c.nlb * lbaBytes n.format) := by
    rintro ⟨kind, large⟩
    exact absurd (moves (by simpa [or_assoc] using kind)).1 (Nat.not_le.mpr large)
  have readOnly : ¬ ((s.ioBegun k c).ftl.readOnly = true ∧ (decide (k = .write) || decide (k = .writeUnc)
      || (decide (k = .writeZeroes) && !(decide (k = .dsm) || (decide (k = .writeZeroes) && bit c.cdw12 25)))) = true) := by
    rintro ⟨only, kind⟩
    refine Bool.false_ne_true ((writable ?_).symm.trans only)
    simp only [Bool.or_eq_true, Bool.and_eq_true, Bool.not_eq_true', Bool.or_eq_false_iff, decide_eq_true_eq] at kind
    rcases kind with (kind | kind) | ⟨kind, -, keep⟩
    · exact .inl kind
    · exact .inr (.inl kind)
    · exact .inr (.inr ⟨kind, by simpa [kind] using keep⟩)
  have good : ¬ (((decide (k = .read) || decide (k = .write) || decide (k = .compare)) = true ∨ k = .dsm) ∧ c.xfer.badList = true) := by
    rintro ⟨kind | kind, bad⟩
    · exact Bool.false_ne_true ((moves (by simpa [or_assoc] using kind)).2.symm.trans bad)
    · rw [list kind] at bad
      exact Bool.false_ne_true bad
  have whole : ¬ (k = .dsm ∧ c.xfer ≠ .ok) := fun ⟨kind, bad⟩ => bad (list kind)
  simp only [State.ioBegin, begun, bar, ns, if_neg atHome, if_neg ranges, if_neg size, if_neg readOnly, if_neg good, if_neg whole]
  refine ⟨fun none => ?_, fun effect a b ha hb => ?_⟩
  · rw [if_pos (by simp [none.1, none.2])]
  · rw [if_neg (by simpa using effect), ha, hb]
    rfl

end Sys2Proof.Machine
end

section
/-!
SUPPORT. What a deallocation, a zeroing and a marking do to the map and to the versions in the write buffer, unit by unit.
-/
namespace Sys2Proof.Machine

/-- A fold whose every step sets what it hits to one value has set what any of them hits. -/
theorem State.foldl_sets {α β : Type} (f : State → α → State) (hit : α → Nat → Bool) (g : State → Nat → β) (v : β) (xs : List α)
    (h : ∀ (s : State), ∀ a ∈ xs, ∀ x, g (f s a) x = if hit a x then v else g s x) (s : State) (x : Nat) :
    g (xs.foldl f s) x = if xs.any (fun a => hit a x) then v else g s x := by
  induction xs generalizing s with
  | nil => rfl
  | cons a xs ih =>
    rw [List.foldl_cons, ih (fun s b hb => h s b (List.mem_cons_of_mem _ hb)), h s a List.mem_cons_self, List.any_cons]
    by_cases first : hit a x = true
    · simp [first]
    · simp [first]

/-! ### The write buffer -/

/-- A killed unit has no version in the write buffer; the others keep theirs. -/
theorem State.kill_buffered (s : State) (l x : Nat) : (s.kill l).buffered x = if x = l then none else s.buffered x := by
  by_cases e : x = l
  · subst e
    have gone : (s.kill x).ftl.wbuf.filter (fun w => decide (w.laddr = x) && !w.dead) = [] := by
      rw [List.filter_eq_nil_iff]
      intro w hw
      obtain ⟨y, -, rfl⟩ := List.mem_map.mp hw
      by_cases a : y.laddr = x
      · simp [a]
      · simp [a]
    rw [if_pos rfl, State.buffered, gone]
    rfl
  · rw [if_neg e]
    refine State.buffered_map s _ x (fun w => if w.laddr = l then { w with dead := true } else w) rfl (fun w => ?_)
    by_cases a : w.laddr = l
    · rw [if_pos a]
      exact ⟨rfl, rfl, fun b => absurd (b.symm.trans a) e⟩
    · rw [if_neg a]
      exact ⟨rfl, rfl, fun _ => rfl⟩

/-! ### The delta log -/

theorem State.closeFrame_keeps {α : Type} (s : State) (g : FtlState → α)
    (h : ∀ f d t fr j, g { f with delta := d, deltaAt := t, frames := fr, jnext := j } = g f) : g s.closeFrame.ftl = g s.ftl := by
  simp only [State.closeFrame]
  split
  · rfl
  · exact h s.ftl _ _ _ _

/-- A delta record leaves what is neither the log nor its frames. -/
theorem State.append_keeps {α : Type} (s : State) (kind l v : Nat) (g : FtlState → α)
    (h : ∀ f d t fr j n, g { f with delta := d, deltaAt := t, frames := fr, jnext := j, recCount := n } = g f) :
    g (s.append kind l v).ftl = g s.ftl := by
  have noted := h s.ftl (s.ftl.delta ++ [⟨kind, l, v⟩]) (some (s.ftl.deltaAt.getD s.time)) s.ftl.frames s.ftl.jnext (s.ftl.recCount + 1)
  simp only [State.append]
  split
  · exact (State.closeFrame_keeps _ g (fun f d t fr j => h f d t fr j f.recCount)).trans noted
  · exact noted

theorem State.record_map (s : State) (kind l v : Nat) : (s.record kind l v).ftl.map = applyDelta s.ftl.map ⟨kind, l, v⟩ :=
  State.append_keeps _ kind l v FtlState.map (fun _ _ _ _ _ _ => rfl)

theorem State.record_wbuf (s : State) (kind l v : Nat) : (s.record kind l v).ftl.wbuf = s.ftl.wbuf :=
  State.append_keeps _ kind l v FtlState.wbuf (fun _ _ _ _ _ _ => rfl)

theorem State.closeFrame_onlyChanges (s : State) : s.onlyChanges s.closeFrame [.ftl, .regs] := by
  simp only [State.closeFrame]
  split
  · exact s.onlyChanges_refl _
  · exact State.onlyChanges_append (s.modFtl_onlyChanges _) (State.setFld_onlyChanges _ _ _ _ _)

theorem State.append_onlyChanges (s : State) (kind l v : Nat) : s.onlyChanges (s.append kind l v) [.ftl, .regs] := by
  simp only [State.append]
  split
  · exact State.onlyChanges_mono (State.onlyChanges_append (s.modFtl_onlyChanges _) (State.closeFrame_onlyChanges _)) (by decide)
  · exact State.onlyChanges_mono (s.modFtl_onlyChanges _) (by decide)

theorem State.record_onlyChanges (s : State) (kind l v : Nat) : s.onlyChanges (s.record kind l v) [.ftl, .regs] :=
  State.onlyChanges_mono (State.onlyChanges_append (s.modFtl_onlyChanges _)
    (State.onlyChanges_append (State.append_onlyChanges _ kind l v) (State.modFtl_onlyChanges _ _))) (by decide)

/-! ### The map -/

theorem lookD_mapSet (m : Tab Nat) (a e x : Nat) : Tab.lookD (mapSet m a e) x 0 = if x = a then e else Tab.lookD m x 0 := by
  by_cases h : x = a
  · subst h
    rw [mapSet, if_pos rfl]
    split
    · next none => rw [Tab.lookD, Tab.look_del_same, none]; rfl
    · exact Tab.lookD_put_same _ _ _ _
  · rw [mapSet, if_neg h]
    split
    · rw [Tab.lookD, Tab.look_del_other _ _ _ h, ← Tab.lookD]
    · exact Tab.lookD_put_other _ _ _ _ _ h

theorem Tab.look_keep {β : Type} (p : Nat → Bool) (t : Tab β) (x : Nat) :
    Tab.look (Tab.keep (fun k _ => p k) t) x = if p x then Tab.look t x else none := by
  induction t with
  | nil => simp [Tab.keep]
  | cons y t ih =>
    obtain ⟨k, v⟩ := y
    simp only [Tab.keep] at ih
    simp only [Tab.keep, List.filter_cons]
    by_cases e : k = x
    · subst e
      by_cases hp : p k = true
      · simp [Tab.look, hp]
      · simp [hp, ih]
    · by_cases hp : p k = true
      · simp [Tab.look, hp, e, ih]
      · simp [Tab.look, hp, e, ih]

/-- A run of units set one by one. -/
theorem lookD_mapSet_run (m : Tab Nat) (a n e x : Nat) :
    Tab.lookD ((List.range n).foldl (fun m i => mapSet m (a + i) e) m) x 0 = if a ≤ x ∧ x < a + n then e else Tab.lookD m x 0 := by
  induction n with
  | zero => rw [if_neg (by omega)]; rfl
  | succ n ih =>
    rw [List.range_succ, List.foldl_append, List.foldl_cons, List.foldl_nil, lookD_mapSet, ih]
    by_cases last : x = a + n
    · rw [if_pos last, if_pos (by omega)]
    · rw [if_neg last]
      exact if_congr (by omega) rfl rfl

/-- A logical address lies in a run of a namespace's units just where it names one of them. -/
theorem inRun_iff {nsid a n x : Nat} (h1 : 1 ≤ nsid) (h2 : nsid ≤ 8192) (hn : 0 < n) (ha : a + n ≤ 2 ^ 40) :
    (x / 2 ^ 40 = bits (laddrOf nsid a) 52 40 ∧ laddrOf nsid a % 2 ^ 40 ≤ x % 2 ^ 40 ∧ x % 2 ^ 40 < laddrOf nsid a % 2 ^ 40 + n)
      ↔ (laddrOf nsid a ≤ x ∧ x < laddrOf nsid a + n) := by
  simp only [bits, laddrOf]
  omega

/-- A deallocation or a zeroing of a run of units sets each of them, and no other unit. -/
theorem applyDelta_run (m : Tab Nat) (dealloc : Bool) {nsid a n : Nat} (h1 : 1 ≤ nsid) (h2 : nsid ≤ 8192) (hn : 0 < n) (ha : a + n ≤ 2 ^ 40)
    (x : Nat) : Tab.lookD (applyDelta m ⟨if dealloc then 2 else 3, laddrOf nsid a, n⟩) x 0
      = if laddrOf nsid a ≤ x ∧ x < laddrOf nsid a + n then (if dealloc then 0 else entryZero) else Tab.lookD m x 0 := by
  cases dealloc
  · exact lookD_mapSet_run m (laddrOf nsid a) n entryZero x
  · have kept : applyDelta m ⟨2, laddrOf nsid a, n⟩ = Tab.keep (fun k _ => !(decide (k / 2 ^ 40 = bits (laddrOf nsid a) 52 40)
        && decide (laddrOf nsid a % 2 ^ 40 ≤ k % 2 ^ 40) && decide (k % 2 ^ 40 < laddrOf nsid a % 2 ^ 40 + n))) m := rfl
    have inside := inRun_iff (x := x) h1 h2 hn ha
    show Tab.lookD (applyDelta m ⟨2, laddrOf nsid a, n⟩) x 0 = if _ then 0 else Tab.lookD m x 0
    rw [kept, Tab.lookD, Tab.look_keep]
    by_cases hit : laddrOf nsid a ≤ x ∧ x < laddrOf nsid a + n
    · obtain ⟨slot, low, high⟩ := inside.mpr hit
      rw [if_pos hit, decide_eq_true slot, decide_eq_true low, decide_eq_true high]
      rfl
    · rw [if_neg hit, if_pos, ← Tab.lookD]
      rw [Bool.not_eq_true', Bool.eq_false_iff]
      intro all
      simp only [Bool.and_eq_true, decide_eq_true_eq, and_assoc] at all
      exact hit (inside.mp all)

/-- A run of a namespace's units recorded as deallocated or zero is so in the map, and no other unit changes. -/
theorem State.record_run_mapEntry (s : State) (dealloc : Bool) {nsid a n : Nat} (h1 : 1 ≤ nsid) (h2 : nsid ≤ 8192) (hn : 0 < n)
    (ha : a + n ≤ 2 ^ 40) (x : Nat) : (s.record (if dealloc then 2 else 3) (laddrOf nsid a) n).mapEntry x
      = if laddrOf nsid a ≤ x ∧ x < laddrOf nsid a + n then (if dealloc then 0 else entryZero) else s.mapEntry x := by
  rw [State.mapEntry, State.record_map]
  exact applyDelta_run s.ftl.map dealloc h1 h2 hn ha x

/-! ### Runs of units -/

theorem inRanges_cons (r : Nat × Nat) (rs : List (Nat × Nat)) (x : Nat) :
    inRanges (r :: rs) x = true ↔ (r.1 ≤ x ∧ x < r.1 + r.2) ∨ inRanges rs x = true := by
  simp [inRanges]

theorem runsOf_pos (us : List Nat) : ∀ r ∈ runsOf us, 0 < r.2 := by
  induction us with
  | nil => intro r hr; exact absurd hr List.not_mem_nil
  | cons u us ih =>
    rw [runsOf]
    split
    · next a n t found =>
      rw [found] at ih
      obtain ⟨first, rest⟩ := List.forall_mem_cons.mp ih
      split
      · exact List.forall_mem_cons.mpr ⟨Nat.succ_pos n, rest⟩
      · exact List.forall_mem_cons.mpr ⟨Nat.one_pos, ih⟩
    · exact List.forall_mem_cons.mpr ⟨Nat.one_pos, fun r hr => absurd hr List.not_mem_nil⟩

/-- The runs of a list of units hold those units and no others. -/
theorem inRanges_runsOf (us : List Nat) (x : Nat) : inRanges (runsOf us) x = true ↔ x ∈ us := by
  induction us with
  | nil => simp [runsOf, inRanges]
  | cons u us ih =>
    rw [List.mem_cons, ← ih, runsOf]
    split
    · next a n t found =>
      split
      · next joins =>
        rw [found, inRanges_cons, inRanges_cons, ← or_assoc]
        exact or_congr (by omega) Iff.rfl
      · rw [found, inRanges_cons]
        exact or_congr (by omega) Iff.rfl
    · next found =>
      rw [found, inRanges_cons]
      exact or_congr (by omega) Iff.rfl

/-! ### Units emptied and marked -/

/-- In t, units of a namespace have no version in the write buffer and an entry in the map; every other unit is as in s. -/
def State.UnitsSet (s t : State) (nsid : Nat) (us : List Nat) (e : Nat) : Prop :=
  (∀ u ∈ us, t.buffered (laddrOf nsid u) = none ∧ t.mapEntry (laddrOf nsid u) = e)
    ∧ ∀ l, l ∉ us.map (laddrOf nsid) → t.buffered l = s.buffered l ∧ t.mapEntry l = s.mapEntry l

theorem State.UnitsSet.of_sets {s t : State} {nsid : Nat} {us : List Nat} {e : Nat} {p q : Nat → Bool}
    (hp : ∀ l, p l = true ↔ l ∈ us.map (laddrOf nsid)) (hq : ∀ l, q l = true ↔ l ∈ us.map (laddrOf nsid))
    (buf : ∀ l, t.buffered l = if p l then none else s.buffered l) (map : ∀ l, t.mapEntry l = if q l then e else s.mapEntry l) :
    s.UnitsSet t nsid us e := by
  refine ⟨fun u hu => ?_, fun l hl => ?_⟩
  · have mem := List.mem_map_of_mem (f := laddrOf nsid) hu
    exact ⟨(buf _).trans (if_pos ((hp _).mpr mem)), (map _).trans (if_pos ((hq _).mpr mem))⟩
  · exact ⟨(buf _).trans (if_neg (mt (hp _).mp hl)), (map _).trans (if_neg (mt (hq _).mp hl))⟩

theorem any_laddrOf (nsid : Nat) (us : List Nat) (l : Nat) :
    us.any (fun u => decide (l = laddrOf nsid u)) = true ↔ l ∈ us.map (laddrOf nsid) := by
  rw [List.any_eq_true, List.mem_map]
  exact exists_congr fun u => and_congr_right fun _ => decide_eq_true_iff.trans eq_comm

/-- The units marked lost (R321): each is killed and recorded UNREC. -/
def State.unitsMarked (s : State) (nsid : Nat) (us : List Nat) : State :=
  us.foldl (fun s u => (s.kill (laddrOf nsid u)).record 4 (laddrOf nsid u) entryUnrec) s

theorem State.unitsMarked_onlyChanges (s : State) (nsid : Nat) (us : List Nat) : s.onlyChanges (s.unitsMarked nsid us) [.ftl, .regs] :=
  State.foldl_onlyChanges _ (fun s _ => State.onlyChanges_mono (State.onlyChanges_append (s.modFtl_onlyChanges _)
    (State.record_onlyChanges _ _ _ _)) (by decide)) us s

theorem State.unitsMarked_set (s : State) (nsid : Nat) (us : List Nat) : s.UnitsSet (s.unitsMarked nsid us) nsid us entryUnrec := by
  refine .of_sets (any_laddrOf nsid us) (any_laddrOf nsid us) ?_ ?_
  · refine State.foldl_sets _ (fun u l => decide (l = laddrOf nsid u)) State.buffered none us (fun s u _ l => ?_) s
    simpa only [decide_eq_true_eq] using (State.buffered_congr l (State.record_wbuf _ _ _ _)).trans (s.kill_buffered (laddrOf nsid u) l)
  · refine State.foldl_sets _ (fun u l => decide (l = laddrOf nsid u)) State.mapEntry entryUnrec us (fun s u _ l => ?_) s
    simp only [decide_eq_true_eq]
    rw [State.mapEntry, State.record_map]
    exact lookD_mapSet s.ftl.map (laddrOf nsid u) entryUnrec l

/-- The units deallocated or made zero (R215): each is killed, and each run of them recorded. -/
def State.unitsEmptied (s : State) (dealloc : Bool) (nsid : Nat) (us : List Nat) : State :=
  (runsOf us).foldl (fun s r => s.record (if dealloc then 2 else 3) (laddrOf nsid r.1) r.2)
    (us.foldl (fun s u => s.kill (laddrOf nsid u)) s)

theorem State.unitsEmptied_onlyChanges (s : State) (dealloc : Bool) (nsid : Nat) (us : List Nat) :
    s.onlyChanges (s.unitsEmptied dealloc nsid us) [.ftl, .regs] :=
  State.onlyChanges_trans
    (State.foldl_onlyChanges _ (fun s _ => State.onlyChanges_mono (s.modFtl_onlyChanges _) (by decide)) us s)
    (State.foldl_onlyChanges _ (fun s _ => s.record_onlyChanges _ _ _) (runsOf us) _)

/-- The runs of units below 2^40 lie within a namespace's addresses. -/
theorem runsOf_bound {us : List Nat} (h : ∀ u ∈ us, u < 2 ^ 40) : ∀ r ∈ runsOf us, r.1 + r.2 ≤ 2 ^ 40 := by
  intro r hr
  have pos := runsOf_pos us r hr
  have last : r.1 + r.2 - 1 ∈ us := by
    rw [← inRanges_runsOf]
    exact List.any_eq_true.mpr ⟨r, hr, by simp; omega⟩
  have := h _ last
  omega

/-- An address lies in the runs of some units just where it names one of them. -/
theorem any_runsOf (nsid : Nat) (us : List Nat) (l : Nat) :
    (runsOf us).any (fun r => decide (laddrOf nsid r.1 ≤ l ∧ l < laddrOf nsid r.1 + r.2)) = true ↔ l ∈ us.map (laddrOf nsid) := by
  have base : ∀ u, laddrOf nsid u = laddrOf nsid 0 + u := fun u => by simp only [laddrOf]; omega
  rw [List.any_eq_true, List.mem_map]
  constructor
  · rintro ⟨r, hr, inside⟩
    rw [decide_eq_true_eq, base r.1] at inside
    refine ⟨l - laddrOf nsid 0, (inRanges_runsOf us _).mp (List.any_eq_true.mpr ⟨r, hr, ?_⟩), ?_⟩
    · rw [Bool.and_eq_true, decide_eq_true_eq, decide_eq_true_eq]
      omega
    · rw [base]
      omega
  · rintro ⟨u, hu, rfl⟩
    obtain ⟨r, hr, inside⟩ := List.any_eq_true.mp ((inRanges_runsOf us u).mpr hu)
    rw [Bool.and_eq_true, decide_eq_true_eq, decide_eq_true_eq] at inside
    refine ⟨r, hr, ?_⟩
    rw [decide_eq_true_eq, base r.1, base u]
    omega

theorem State.unitsEmptied_set (s : State) (dealloc : Bool) {nsid : Nat} {us : List Nat} (h1 : 1 ≤ nsid) (h2 : nsid ≤ 8192)
    (hu : ∀ u ∈ us, u < 2 ^ 40) : s.UnitsSet (s.unitsEmptied dealloc nsid us) nsid us (if dealloc then 0 else entryZero) := by
  refine .of_sets (any_laddrOf nsid us) (any_runsOf nsid us) (fun l => ?_) (fun l => ?_)
  · have kept := State.foldl_sets (fun s r => s.record (if dealloc then 2 else 3) (laddrOf nsid r.1) r.2) (fun _ _ => false) State.buffered none
      (runsOf us) (fun s r _ l => State.buffered_congr l (s.record_wbuf _ _ _)) (us.foldl (fun s u => s.kill (laddrOf nsid u)) s) l
    have killed := State.foldl_sets (fun s u => s.kill (laddrOf nsid u)) (fun u l => decide (l = laddrOf nsid u)) State.buffered none us
      (fun s u _ l => by simpa only [decide_eq_true_eq] using s.kill_buffered (laddrOf nsid u) l) s l
    exact kept.trans ((if_neg (by simp)).trans killed)
  · have recorded := State.foldl_sets (fun s r => s.record (if dealloc then 2 else 3) (laddrOf nsid r.1) r.2)
      (fun r l => decide (laddrOf nsid r.1 ≤ l ∧ l < laddrOf nsid r.1 + r.2)) State.mapEntry (if dealloc then 0 else entryZero) (runsOf us)
      (fun s r hr l => by
        simpa only [decide_eq_true_eq] using s.record_run_mapEntry dealloc h1 h2 (runsOf_pos us r hr) (runsOf_bound hu r hr) l)
      (us.foldl (fun s u => s.kill (laddrOf nsid u)) s) l
    have killed := State.foldl_sets (fun s u => s.kill (laddrOf nsid u)) (fun _ _ => false) State.mapEntry 0 us (fun _ _ _ _ => rfl) s l
    rw [if_neg (by simp)] at killed
    rw [killed] at recorded
    exact recorded

end Sys2Proof.Machine
end

section
/-!
SUPPORT. The NVM commands: their lock, their start, and the ways they finish; the obligation settled.
-/
namespace Sys2Proof.Machine

/-! ### The lock -/

/-- The lock entry of a command that has begun. -/
def State.ioEntry (s : State) (k : IoKind) (c : HostCmd) (n : Ns) (a b : Nat) : Lock :=
  let r := n.lockRange k.excl (n.askRange k.excl a b).1 (n.askRange k.excl a b).2
  ⟨c.nsid, r.1, r.2, k.excl, (s.ioLock k c n a b).1, HostCmdRef c⟩

section
variable (s : State) (k : IoKind) (c : HostCmd) (n : Ns) (a b : Nat)

theorem State.ioLock_onlyChanges : s.onlyChanges (s.ioLock k c n a b).2 [.out, .pod, .host, .regs] :=
  State.onlyChanges_trans (s.ioBegun_onlyChanges k c) (State.onlyChanges_mono (State.lock_onlyChanges _ _ _ _ _ _) (by decide))

theorem State.ioLock_locks : (s.ioLock k c n a b).2.host.locks = s.host.locks ++ [s.ioEntry k c n a b] := rfl

theorem State.ioLock_granted : (s.ioLock k c n a b).1 = s.host.locks.all (fun x => !x.conflicts (s.ioEntry k c n a b)) := rfl

theorem State.ioLock_outCmd : (s.ioLock k c n a b).2.outCmd (HostCmdRef c) = some (s.ioOut k c) := s.ioBegun_outCmd k c

theorem State.ioEntry_range : ((s.ioEntry k c n a b).first, (s.ioEntry k c n a b).last)
    = if n.hold ≠ 0 ∧ (s.ioEntry k c n a b).excl = true then n.lockRange true (a / n.hold * n.hold) ((b / n.hold + 1) * n.hold - 1)
      else n.lockRange (s.ioEntry k c n a b).excl a b := by
  show n.lockRange k.excl (n.askRange k.excl a b).1 (n.askRange k.excl a b).2 = if n.hold ≠ 0 ∧ k.excl = true then _ else _
  rw [Ns.askRange]
  split
  · next stripes => rw [stripes.2]
  · rfl

/-- A register but NVQ_STAT and NVQ_LOCK_STAT reads as before. -/
theorem State.ioLock_fld (f : Field) (h1 : f.reg.key 0 0 ≠ NVQ_STAT.key 0 0) (h2 : f.reg.key 0 0 ≠ NVQ_LOCK_STAT.key 0 0) :
    (s.ioLock k c n a b).2.fld f = s.fld f := by
  rw [← s.ioBegun_fld k c f h1]
  exact (State.fld_setFld_other _ NVQ_LOCK_STAT_WAITING f _ 0 0 0 0 h2).trans (State.fld_setFld_other _ NVQ_LOCK_STAT_IN_USE f _ 0 0 0 0 h2)

/-- A lock in a namespace that no other lock is in is granted. -/
theorem State.ioLock_free (h : s.host.locks.all (fun x => x.ns ≠ c.nsid) = true) : (s.ioLock k c n a b).1 = true := by
  rw [State.ioLock_granted, List.all_eq_true]
  intro x hx
  have other : x.ns ≠ c.nsid := by simpa using List.all_eq_true.mp h x hx
  simp [Lock.conflicts, State.ioEntry, other]

theorem State.ioLock_owns {s : State} {c : HostCmd} (t : s.takesIo c) : (s.ioLock k c n a b).2.owns c (s.cqOf c.pod c.qid) :=
  State.owns_congr (State.ioBegun_owns t k) rfl rfl

end

/-! ### Units touched -/

theorem Tab.mem_put_key {β : Type} (t : Tab β) (a x : Nat) (v : β) : x ∈ (Tab.put t a v).map Prod.fst ↔ x = a ∨ x ∈ t.map Prod.fst := by
  induction t with
  | nil => simp [Tab.put]
  | cons y t ih =>
    obtain ⟨k, w⟩ := y
    simp only [Tab.put]
    split
    · next e => subst e; simp
    · split
      · simp
      · simp only [List.map_cons, List.mem_cons, ih]
        exact or_left_comm

/-- Each number once. -/
theorem mem_podsOf (l : List Nat) (x : Nat) : x ∈ podsOf l ↔ x ∈ l := by
  have all : ∀ (t : Tab Unit), x ∈ (l.foldl (fun t p => Tab.put t p ()) t).map Prod.fst ↔ x ∈ l ∨ x ∈ t.map Prod.fst := by
    induction l with
    | nil => intro t; simp
    | cons p l ih =>
      intro t
      rw [List.foldl_cons, ih, Tab.mem_put_key, List.mem_cons]
      tauto
  exact (all []).trans (by simp)

/-- A unit that a command touches is a unit of one of its ranges. -/
theorem Ns.mem_touched {n : Ns} {k : IoKind} {c : HostCmd} {u : Nat} :
    u ∈ n.touched k c ↔ ∃ r ∈ ioRanges k c, r.2 ≠ 0 ∧ (n.unitRange r).1 ≤ u ∧ u ≤ (n.unitRange r).2 := by
  rw [Ns.touched, mem_podsOf, List.mem_flatMap]
  refine exists_congr fun r => and_congr_right fun _ => ?_
  split
  · next none => simp [none]
  · next some =>
    rw [List.mem_map]
    constructor
    · rintro ⟨i, hi, rfl⟩
      rw [List.mem_range] at hi
      exact ⟨some, by omega, by omega⟩
    · rintro ⟨-, low, high⟩
      exact ⟨u - (n.unitRange r).1, List.mem_range.mpr (by omega), by omega⟩

/-- A command whose ranges lie in a namespace touches units below its size. -/
theorem Ns.touched_lt {n : Ns} {k : IoKind} {c : HostCmd} (h : ∀ r ∈ ioRanges k c, r.1 + r.2 ≤ n.size) : ∀ u ∈ n.touched k c, u < n.size := by
  intro u hu
  obtain ⟨r, hr, some, -, high⟩ := Ns.mem_touched.mp hu
  have inside := h r hr
  have unit : (n.unitRange r).2 ≤ r.1 + r.2 - 1 := Nat.div_le_self _ _
  omega

/-- A command on one range of blocks touches a unit. -/
theorem Ns.touched_ne_nil (n : Ns) {k : IoKind} (c : HostCmd) (one : ioRanges k c = [(c.slba, c.nlb)]) : n.touched k c ≠ [] := by
  have some : c.nlb ≠ 0 := Nat.succ_ne_zero _
  refine List.ne_nil_of_mem (a := (n.unitRange (c.slba, c.nlb)).1) (Ns.mem_touched.mpr ⟨(c.slba, c.nlb), ?_, some, Nat.le_refl _, ?_⟩)
  · rw [one]
    exact List.mem_singleton_self _
  · exact Nat.div_le_div_right (by omega)

/-! ### Started at once -/

/-- The state in which a command whose lock is free and whose units are all at hand finishes. -/
def State.ioStarted (s : State) (k : IoKind) (c : HostCmd) (n : Ns) (a b : Nat) (got : List (Nat × List Byte)) : State :=
  (s.ioLock k c n a b).2.modOut (HostCmdRef c) (fun o => { o with stage := .started, need := [], got := o.got ++ got })

/-- The outstanding command that finishes there. -/
def State.ioGot (s : State) (k : IoKind) (c : HostCmd) (got : List (Nat × List Byte)) : OutCmd :=
  { s.ioOut k c with stage := .started, need := [], got := got }

/-- A command that passes the checks, whose lock is free and whose units are all at hand, finishes as it is fetched. -/
theorem State.ioBegin_found {s : State} {k : IoKind} {c : HostCmd} {n : Ns} (h : s.IoPasses k c n) (plain : n.spread = false)
    (data : k ≠ .write) (effect : k = .dsm → bit c.cdw11 2 = true) (free : s.host.locks.all (fun x => x.ns ≠ c.nsid) = true)
    (units : n.touched k c ≠ []) (got : List (Nat × List Byte)) (needs : got.map Prod.fst = n.needs k c)
    (found : ∀ x ∈ got, s.lookUnit x.1 = .data x.2) :
    ∃ a b, (s.fresh.takeTokens (.io k) c).ioBegin k c = (s.ioStarted k c n a b got).ioFinish (s.ioGot k c got) k c n := by
  obtain ⟨a, ha⟩ := Option.isSome_iff_exists.mp (List.isSome_head?.mpr units)
  obtain ⟨b, hb⟩ := Option.isSome_iff_exists.mp (List.getLast?_isSome.mpr units)
  refine ⟨a, b, ?_⟩
  rw [(State.ioBegin_passes h).2 effect a b ha hb, if_pos (s.ioLock_free k c n a b free)]
  exact State.ioStart_found got (s.ioLock_outCmd k c n a b) rfl h.serves.1 plain data needs found

section
variable (s : State) (k : IoKind) (c : HostCmd) (n : Ns) (a b : Nat) (got : List (Nat × List Byte))

theorem State.ioStarted_onlyChanges : s.onlyChanges (s.ioStarted k c n a b got) [.out, .pod, .host, .regs] :=
  State.onlyChanges_trans (s.ioLock_onlyChanges k c n a b) (State.onlyChanges_mono (State.modOut_onlyChanges _ _ _) (by decide))

theorem State.ioStarted_owns {s : State} {c : HostCmd} (t : s.takesIo c) : (s.ioStarted k c n a b got).owns c (s.cqOf c.pod c.qid) :=
  State.owns_modOut (State.ioLock_owns k n a b t) _ (fun _ => ⟨rfl, rfl, rfl⟩) (fun _ => ⟨rfl, rfl⟩)

end

/-! ### Commands that answer -/

theorem State.endCmd_map (s : State) (c : CmdRef) (sct sc : Nat) (dnr : Bool) (dw0 : Nat) :
    (s.endCmd c sct sc dnr dw0).ftl.map = s.ftl.map := by
  rw [State.endCmd_ftl]

theorem State.endCmd_wbuf (s : State) (c : CmdRef) (sct sc : Nat) (dnr : Bool) (dw0 : Nat) :
    (s.endCmd c sct sc dnr dw0).ftl.wbuf = s.ftl.wbuf := by
  rw [State.endCmd_ftl]

/-- A command that ends is posted; it has no lock, and the map and the write buffer are as before. -/
theorem State.endCmd_answers {s y : State} {c : HostCmd} (frame : s.onlyChanges y [.out, .pod, .host, .regs, .evt])
    (owns : y.owns c (s.cqOf c.pod c.qid)) (sct sc : Nat) (dnr : Bool) :
    let t := y.endCmd (HostCmdRef c) sct sc dnr 0
    s.posts t c sct sc dnr 0 ∧ t.out = y.out ∧ t.evt = y.evt ∧ t.host.locks.any (fun l => l.cmd = HostCmdRef c) = false
      ∧ t.ftl.map = s.ftl.map ∧ t.ftl.wbuf = s.ftl.wbuf ∧ s.onlyChanges t [.host, .hsk, .ftl, .pod, .regs, .evt, .out] := by
  have ended := y.endCmd_onlyChanges (HostCmdRef c) sct sc dnr 0
  have ftl : y.ftl = s.ftl := frame .ftl (by decide)
  exact ⟨y.endCmd_posts c _ sct sc dnr 0 owns, ended .out (by decide), ended .evt (by decide), y.endCmd_unlocked _ _ _ _ _,
    (y.endCmd_map _ _ _ _ _).trans (congrArg FtlState.map ftl), (y.endCmd_wbuf _ _ _ _ _).trans (congrArg FtlState.wbuf ftl),
    State.onlyChanges_mono (State.onlyChanges_append frame ended) (by decide)⟩

/-- A state in which a protection check's failure is counted and reported, before its command ends (R325). -/
def State.piFailed (s : State) (c : HostCmd) : State :=
  (s.countS NVQ_ERR_STAT_PI_ERR NVQ_ERR_STAT_OVF 1).raisePod 562 3 [c.pod, c.nsid] c.pod

theorem State.piFailed_onlyChanges (s : State) (c : HostCmd) : s.onlyChanges (s.piFailed c) [.regs, .evt] :=
  State.onlyChanges_append (s.countS_onlyChanges _ _ _ _ _) (State.raisePod_onlyChanges _ _ _ _ _)

theorem State.piFailed_host (s : State) (c : HostCmd) : (s.piFailed c).host = s.host := s.piFailed_onlyChanges c .host (by decide)

theorem State.piFailed_inbox (s : State) (c : HostCmd) :
    (s.piFailed c).evt.inbox = s.evt.inbox ++ [⟨562, 3, [c.pod, c.nsid], some c.pod, 0, s.time⟩] := by
  simp [State.piFailed]

section
variable (s : State) (o : OutCmd) (k : IoKind) (c : HostCmd) (n : Ns)

/-- A read, a compare or a verify whose units fail a protection check ends with it. -/
theorem State.ioFinish_piBad {sc : Nat} (kind : k = .read ∨ k = .compare ∨ k = .verify) (bad : o.piOutBad n c = some sc) :
    s.ioFinish o k c n = (s.piFailed c).endCmd (HostCmdRef c) 2 sc true 0 := by
  rcases kind with rfl | rfl | rfl <;> simp only [State.ioFinish, bad] <;> rfl

theorem State.ioFinish_read (good : o.piOutBad n c = none) (xfer : c.xfer = .ok) :
    s.ioFinish o .read c n
      = ((s.unlock (HostCmdRef c)).emit (.host c.pod c.qid c.cid (o.dataOut n c))).endCmd (HostCmdRef c) 0 0 false 0 := by
  simp only [State.ioFinish, good, xfer, ne_eq, not_true, if_false]

theorem State.ioFinish_verify (good : o.piOutBad n c = none) : s.ioFinish o .verify c n = s.endCmd (HostCmdRef c) 0 0 false 0 := by
  simp only [State.ioFinish, good]

theorem State.ioFinish_compare (good : o.piOutBad n c = none) : s.ioFinish o .compare c n
    = if o.dataOut n c = slice c.data 0 (n.xferBytes c) then s.endCmd (HostCmdRef c) 0 0 false 0
      else s.endCmd (HostCmdRef c) 2 0x85 true 0 := by
  simp only [State.ioFinish, good]

end

/-- What a read, a compare or a verify whose units o holds comes to (R215, R321, R325). -/
def State.IoAnswer (s t : State) (o : OutCmd) (k : IoKind) (c : HostCmd) (n : Ns) : Prop :=
  (∀ sc, o.piOutBad n c = some sc →
      s.posts t c 2 sc true 0 ∧ t.out = [] ∧ t.evt.inbox = s.evt.inbox ++ [⟨562, 3, [c.pod, c.nsid], some c.pod, 0, s.time⟩])
    ∧ (o.piOutBad n c = none → t.evt = s.evt
      ∧ (k = .read → s.posts t c 0 0 false 0 ∧ t.out = [.host c.pod c.qid c.cid (o.dataOut n c)])
      ∧ (k = .verify → s.posts t c 0 0 false 0 ∧ t.out = [])
      ∧ (k = .compare → t.out = []
        ∧ (if o.dataOut n c = slice c.data 0 (n.xferBytes c) then s.posts t c 0 0 false 0 else s.posts t c 2 0x85 true 0)))
    ∧ t.host.locks.any (fun l => l.cmd = HostCmdRef c) = false ∧ t.ftl.map = s.ftl.map ∧ t.ftl.wbuf = s.ftl.wbuf
    ∧ s.onlyChanges t [.host, .hsk, .ftl, .pod, .regs, .evt, .out]

/-- A read, a compare or a verify whose units are there answers by their protection information and their data. -/
theorem State.ioFinish_answers {s u : State} {c : HostCmd} {o p : OutCmd} {k : IoKind} {n : Ns}
    (frame : s.onlyChanges u [.out, .pod, .host, .regs]) (owns : u.owns c (s.cqOf c.pod c.qid)) (out : u.out = []) (same : p.got = o.got)
    (kind : k = .read ∨ k = .compare ∨ k = .verify) (xfer : k ≠ .verify → c.xfer = .ok) : s.IoAnswer (u.ioFinish p k c n) o k c n := by
  have evt : u.evt = s.evt := frame .evt (by decide)
  have wide : s.onlyChanges u [.out, .pod, .host, .regs, .evt] := State.onlyChanges_mono frame (by decide)
  have pis := OutCmd.piOutBad_congr same n c
  have data := OutCmd.dataOut_congr same n c
  cases pi : o.piOutBad n c with
  | some sc =>
    rw [State.ioFinish_piBad u p k c n kind (pis.trans pi)]
    obtain ⟨posts, outs, evts, rest⟩ := State.endCmd_answers (y := u.piFailed c)
      (State.onlyChanges_mono (State.onlyChanges_append frame (u.piFailed_onlyChanges c)) (by decide))
      (State.owns_congr owns (by rw [State.piFailed_host]) (by rw [State.piFailed_host])) 2 sc true
    have time : u.time = s.time := frame .time (by decide)
    have inbox := (congrArg EvtState.inbox evts).trans (u.piFailed_inbox c)
    rw [evt, time] at inbox
    refine ⟨fun sc' h => ?_, fun h => absurd (pi.symm.trans h) nofun, rest⟩
    obtain rfl : sc = sc' := Option.some.inj (pi.symm.trans h)
    exact ⟨posts, outs.trans ((u.piFailed_onlyChanges c .out (by decide)).trans out), inbox⟩
  | none =>
    have good := pis.trans pi
    rcases kind with rfl | rfl | rfl
    · have sent : u.onlyChanges ((u.unlock (HostCmdRef c)).emit (.host c.pod c.qid c.cid (p.dataOut n c))) [.host, .regs, .out] :=
        State.onlyChanges_append (u.unlock_onlyChanges _) (State.emit_onlyChanges _ _)
      obtain ⟨posts, outs, evts, rest⟩ := State.endCmd_answers (State.onlyChanges_mono (State.onlyChanges_append frame sent) (by decide))
        (State.owns_congr owns rfl rfl) 0 0 false
      have given : (u.unlock (HostCmdRef c)).out ++ [Out.host c.pod c.qid c.cid (p.dataOut n c)] = [.host c.pod c.qid c.cid (o.dataOut n c)] := by
        rw [data, u.unlock_onlyChanges (HostCmdRef c) .out (by decide), out, List.nil_append]
      rw [State.ioFinish_read u p c n good (xfer nofun)]
      exact ⟨fun sc h => absurd (pi.symm.trans h) nofun,
        fun _ => ⟨evts.trans ((sent .evt (by decide)).trans evt), fun _ => ⟨posts, outs.trans given⟩, nofun, nofun⟩, rest⟩
    · rw [State.ioFinish_compare u p c n good, data]
      split
      · next equal =>
        obtain ⟨posts, outs, evts, rest⟩ := State.endCmd_answers wide owns 0 0 false
        exact ⟨fun sc h => absurd (pi.symm.trans h) nofun,
          fun _ => ⟨evts.trans evt, nofun, nofun, fun _ => ⟨outs.trans out, by rwa [if_pos equal]⟩⟩, rest⟩
      · next differ =>
        obtain ⟨posts, outs, evts, rest⟩ := State.endCmd_answers wide owns 2 0x85 true
        exact ⟨fun sc h => absurd (pi.symm.trans h) nofun,
          fun _ => ⟨evts.trans evt, nofun, nofun, fun _ => ⟨outs.trans out, by rwa [if_neg differ]⟩⟩, rest⟩
    · obtain ⟨posts, outs, evts, rest⟩ := State.endCmd_answers wide owns 0 0 false
      rw [State.ioFinish_verify u p c n good]
      exact ⟨fun sc h => absurd (pi.symm.trans h) nofun, fun _ => ⟨evts.trans evt, nofun, fun _ => ⟨posts, outs.trans out⟩, nofun⟩, rest⟩

end Sys2Proof.Machine
end

section
/-!
SUPPORT. Zeroings, deallocations, markings and flushes; the obligation settled.
-/
namespace Sys2Proof.Machine

/-! ### Changes without data -/

/-- A command that brings no bytes is kept out by the limit of undurable records alone (R197). -/
theorem State.admitBar_noBytes (s : State) (pod recs : Nat) :
    s.admitBar pod 0 recs false
      = if s.holdUp = true ∧ s.fld FTL_DIRTY_LIMIT_MAP_MIB * 2 ^ 20 < s.dirtyMap + 16 * recs then 1 else 0 := by
  simp [State.admitBar]

theorem State.admitBar_noBytes_congr {s t : State} (ftl : t.ftl = s.ftl) (mode : t.fld FTL_DUR_MODE = s.fld FTL_DUR_MODE)
    (limit : t.fld FTL_DIRTY_LIMIT_MAP_MIB = s.fld FTL_DIRTY_LIMIT_MAP_MIB) (p q recs : Nat) :
    t.admitBar p 0 recs false = s.admitBar q 0 recs false := by
  have up : t.holdUp = s.holdUp := by rw [State.holdUp, State.flag, mode, ← State.flag, ← State.holdUp]
  have dirty : t.dirtyMap = s.dirtyMap := by rw [State.dirtyMap, ftl, ← State.dirtyMap]
  rw [State.admitBar_noBytes, State.admitBar_noBytes, up, dirty, limit]

/-- With its map pages in DRAM and the limits off, a command goes on. -/
theorem State.whenRoom_go {s : State} {c : HostCmd} {bytes recs : Nat} {ls : List Nat} (go : State → State)
    (page : s.pageMissing ls = false) (room : s.admitBar c.pod bytes recs false = 0) : s.whenRoom c bytes recs ls go = go s := by
  simp [State.whenRoom, page, room]

/-- The end of a deallocation, a zeroing or a marking: its units are changed, and it commits. -/
def State.ioChanged (s : State) (k : IoKind) (c : HostCmd) (n : Ns) : State :=
  if k = .writeUnc then s.unitsMarked c.nsid (n.touched k c)
  else s.unitsEmptied (decide (k = .dsm) || bit c.cdw12 25) c.nsid (n.touched k c)

/-- The entry that such a command gives its units. -/
def IoKind.entry (k : IoKind) (c : HostCmd) : Nat :=
  if k = .writeUnc then entryUnrec else if k = .dsm ∨ bit c.cdw12 25 = true then 0 else entryZero

theorem State.ioChanged_onlyChanges (s : State) (k : IoKind) (c : HostCmd) (n : Ns) : s.onlyChanges (s.ioChanged k c n) [.ftl, .regs] := by
  rw [State.ioChanged]
  split
  · exact s.unitsMarked_onlyChanges _ _
  · exact s.unitsEmptied_onlyChanges _ _ _

theorem State.ioChanged_set (s : State) (k : IoKind) {c : HostCmd} {n : Ns} (h1 : 1 ≤ c.nsid) (h2 : c.nsid ≤ 8192)
    (hu : ∀ u ∈ n.touched k c, u < 2 ^ 40) : s.UnitsSet (s.ioChanged k c n) c.nsid (n.touched k c) (k.entry c) := by
  rw [State.ioChanged, IoKind.entry]
  split
  · exact s.unitsMarked_set _ _
  · have emptied := s.unitsEmptied_set (decide (k = .dsm) || bit c.cdw12 25) h1 h2 hu
    simpa only [Bool.or_eq_true, decide_eq_true_eq] using emptied

/-- The records that such a command makes. -/
def Ns.changeRecs (n : Ns) (k : IoKind) (c : HostCmd) : Nat :=
  if k = .writeUnc then (n.touched k c).length else (runsOf (n.touched k c)).length

theorem List.filter_of_all {α : Type} {p : α → Bool} {l : List α} (h : l.all p = true) : l.filter p = l :=
  List.filter_eq_self.mpr (List.all_eq_true.mp h)

theorem List.filter_not_of_all {α : Type} {p : α → Bool} {l : List α} (h : l.all p = true) : l.filter (fun x => !p x) = [] := by
  rw [List.filter_eq_nil_iff]
  intro x hx
  simp [List.all_eq_true.mp h x hx]

theorem State.commitAll_nil (s : State) (c : CmdRef) : s.commitAll c [] = s := rfl

section
variable {k : IoKind} {c : HostCmd} {n : Ns} (kind : k = .writeUnc ∨ k = .writeZeroes ∨ k = .dsm)
  (whole : k ≠ .writeUnc → n.mdGroup = 0 ∧ (n.touched k c).all (n.whole (ioRanges k c)) = true)
include kind whole

/-- A change of whole units of a namespace without metadata needs no unit's current version. -/
theorem Ns.needs_none : n.needs k c = [] := by
  rcases kind with rfl | rfl | rfl
  · rfl
  all_goals
    obtain ⟨md, all⟩ := whole nofun
    simp only [Ns.needs, Ns.mdUnits_none md, List.filter_not_of_all all, List.map_nil, List.append_nil]

theorem State.ioFinish_change (s : State) (o : OutCmd) (plain : n.spread = false)
    (page : s.pageMissing ((n.touched k c).map (laddrOf c.nsid)) = false) (room : s.admitBar c.pod 0 (n.changeRecs k c) false = 0) :
    s.ioFinish o k c n = (s.ioChanged k c n).committed (HostCmdRef c) := by
  rcases kind with rfl | kind
  · rw [Ns.changeRecs, if_pos rfl] at room
    simp only [State.ioFinish, plain, Bool.false_eq_true, if_false, State.ioChanged, if_true]
    exact State.whenRoom_go _ page room
  · have other : k ≠ .writeUnc := by rcases kind with rfl | rfl <;> nofun
    obtain ⟨md, all⟩ := whole other
    rw [Ns.changeRecs, if_neg other] at room
    rw [State.ioChanged, if_neg other]
    have bytes : ([] : List Nat).length * n.unit + ([] : List Nat).length * 4096 = 0 := by simp
    have recs (l : Nat) : l + ([] : List Nat).length + ([] : List Nat).length = l := by simp
    rcases kind with rfl | rfl
    all_goals
      dsimp only [State.ioFinish]
      rw [if_neg (ne_true_of_eq_false plain), Ns.mdUnits_none md, List.filter_not_of_all all, List.filter_of_all all, bytes, recs,
        List.map_nil, List.append_nil, State.whenRoom_go _ page room, List.map_nil,
        List.map_nil, List.append_nil, State.commitAll_nil, State.unitsEmptied]

end

/-! ### Flush -/

/-- Being outstanding leaves the checks of a namespace. -/
theorem State.nsBar_begin (s : State) (c d : HostCmd) (b : Nat) (st : Stage) (io : Option (IoKind × HostCmd)) :
    (s.begin c b st io).nsBar d = s.nsBar d := by
  have enabled : (s.begin c b st io).flag FTL_CTRL_ENABLE = s.flag FTL_CTRL_ENABLE := by
    rw [State.flag, State.flag]
    exact congrArg (fun v => decide (v = 1)) (State.fld_setFld_other _ NVQ_STAT_OUTSTANDING FTL_CTRL_ENABLE _ 0 0 0 0 (by decide))
  simp only [State.nsBar, enabled]
  rfl

/-- What a Flush that has been taken waits for. -/
def State.flushWait (s : State) (c : HostCmd) : FlushWait :=
  ⟨some (HostCmdRef c), c.pod, s.ftl.wnext, s.ftl.recCount, if c.nsid = 0xFFFFFFFF then none else some c.nsid⟩

/-- A Flush waits for what was written and recorded before it (R336). -/
theorem exec_nvmFlush {s : State} {c : HostCmd} (t : s.takesIo c) (ns : c.nsid ≠ 0xFFFFFFFF → s.nsBar c = none) :
    exec (.nvmFlush c) s
      = ((s.fresh.begin c 0 .started none).modHost (fun h => { h with flushes := h.flushes ++ [s.flushWait c] })).done s := by
  obtain ⟨queue, taken, -⟩ := t
  have fetched : ¬ (c.qid = 0 ∨ (!s.fresh.takes c) = true) := by
    rintro (q | t)
    · exact queue q
    · rw [show s.fresh.takes c = true from taken] at t
      exact Bool.false_ne_true t
  have bar : (if c.nsid = 0xFFFFFFFF then none else (s.fresh.begin c 0 .started none).nsBar c) = none := by
    rw [State.nsBar_begin]
    split
    · rfl
    · next named => exact ns named
  show execNvmFlush c s = _
  simp only [execNvmFlush, if_neg fetched, State.flushNvm, bar]
  rfl

/-! ### The obligation -/

/-- Commands that answer from the units they read. -/
theorem ioCommands_of_answer {i : Instr} {k : IoKind} {c : HostCmd}
    (h : (i, k) ∈ [(Instr.nvmRead c, IoKind.read), (.compare c, .compare), (.verify c, .verify)]) :
    (i, k) ∈ ioCommands c ∧ (k = .read ∨ k = .compare ∨ k = .verify) := by
  simp only [List.mem_cons, Prod.mk.injEq, List.not_mem_nil, or_false] at h
  rcases h with ⟨rfl, rfl⟩ | ⟨rfl, rfl⟩ | ⟨rfl, rfl⟩ <;> simp [ioCommands]

/-- Commands that change units without data. -/
theorem ioCommands_of_change {i : Instr} {k : IoKind} {c : HostCmd}
    (h : (i, k) ∈ [(Instr.writeUncorrectable c, IoKind.writeUnc), (.writeZeroes c, .writeZeroes), (.datasetManagement c, .dsm)]) :
    (i, k) ∈ ioCommands c ∧ (k = .writeUnc ∨ k = .writeZeroes ∨ k = .dsm) := by
  simp only [List.mem_cons, Prod.mk.injEq, List.not_mem_nil, or_false] at h
  rcases h with ⟨rfl, rfl⟩ | ⟨rfl, rfl⟩ | ⟨rfl, rfl⟩ <;> simp [ioCommands]

theorem IoKind.ne_of_answer {k : IoKind} (kind : k = .read ∨ k = .compare ∨ k = .verify) : k ≠ .write ∧ k ≠ .dsm := by
  rcases kind with rfl | rfl | rfl <;> exact ⟨nofun, nofun⟩

theorem IoKind.ne_of_change {k : IoKind} (kind : k = .writeUnc ∨ k = .writeZeroes ∨ k = .dsm) : k ≠ .write := by
  rcases kind with rfl | rfl | rfl <;> nofun

theorem ioRanges_one {k : IoKind} (h : k ≠ .dsm) (c : HostCmd) : ioRanges k c = [(c.slba, c.nlb)] := by
  cases k
  case dsm => exact absurd rfl h
  all_goals rfl

/-- A read, a compare or a verify inside a namespace that serves it passes the checks. -/
theorem State.IoPasses.of_answer {s : State} {k : IoKind} {c : HostCmd} {n : Ns} (kind : k = .read ∨ k = .compare ∨ k = .verify)
    (serves : s.nsServes c n) (plain : n.spread = false) (inside : c.slba + c.nlb ≤ n.size)
    (xfer : k ≠ .verify → c.nlb * lbaBytes n.format ≤ 2097152 ∧ c.xfer = .ok) : s.IoPasses k c n where
  serves := serves
  home spread := absurd (plain.symm.trans spread) Bool.false_ne_true
  inside := by
    rw [ioRanges_one (IoKind.ne_of_answer kind).2, List.forall_mem_singleton]
    exact inside
  moves move := by
    obtain ⟨size, ok⟩ := xfer (by rcases move with rfl | rfl | rfl <;> nofun)
    exact ⟨size, by rw [ok]; rfl⟩
  writable write := by rcases kind with rfl | rfl | rfl <;> simp at write
  list dsm := absurd dsm (IoKind.ne_of_answer kind).2

/-- A marking, a zeroing or a deallocation inside a namespace that serves it passes the checks. -/
theorem State.IoPasses.of_change {s : State} {k : IoKind} {c : HostCmd} {n : Ns} (kind : k = .writeUnc ∨ k = .writeZeroes ∨ k = .dsm)
    (serves : s.nsServes c n) (plain : n.spread = false) (inside : ∀ r ∈ ioRanges k c, r.1 + r.2 ≤ n.size)
    (writable : (k = .writeUnc ∨ (k = .writeZeroes ∧ bit c.cdw12 25 = false)) → s.ftl.readOnly = false) (list : k = .dsm → c.xfer = .ok) :
    s.IoPasses k c n where
  serves := serves
  home spread := absurd (plain.symm.trans spread) Bool.false_ne_true
  inside := inside
  moves move := by rcases kind with rfl | rfl | rfl <;> simp at move
  writable write := writable (write.resolve_left (IoKind.ne_of_change kind))
  list := list

/-- A change of whole units that passes the checks and finds its lock free commits from the state in which its units are changed. -/
theorem State.ioBegin_change {s : State} {k : IoKind} {c : HostCmd} {n : Ns} (h : s.IoPasses k c n) (plain : n.spread = false)
    (kind : k = .writeUnc ∨ k = .writeZeroes ∨ k = .dsm) (effect : k = .dsm → bit c.cdw11 2 = true)
    (free : s.host.locks.all (fun x => x.ns ≠ c.nsid) = true) (units : n.touched k c ≠ [])
    (page : s.pageMissing ((n.touched k c).map (laddrOf c.nsid)) = false) (room : s.admitBar c.pod 0 (n.changeRecs k c) false = 0)
    (whole : k ≠ .writeUnc → n.mdGroup = 0 ∧ (n.touched k c).all (n.whole (ioRanges k c)) = true) :
    ∃ a b, (s.fresh.takeTokens (.io k) c).ioBegin k c = ((s.ioStarted k c n a b []).ioChanged k c n).committed (HostCmdRef c) := by
  obtain ⟨a, b, begun⟩ := State.ioBegin_found h plain (IoKind.ne_of_change kind) effect free units [] (Ns.needs_none kind whole).symm nofun
  have mode : (s.ioStarted k c n a b []).fld FTL_DUR_MODE = s.fld FTL_DUR_MODE := s.ioLock_fld k c n a b _ (by decide) (by decide)
  have limit : (s.ioStarted k c n a b []).fld FTL_DIRTY_LIMIT_MAP_MIB = s.fld FTL_DIRTY_LIMIT_MAP_MIB :=
    s.ioLock_fld k c n a b _ (by decide) (by decide)
  have started : (s.ioStarted k c n a b []).admitBar c.pod 0 (n.changeRecs k c) false = 0 :=
    (State.admitBar_noBytes_congr (s := s) (t := s.ioStarted k c n a b []) rfl mode limit c.pod c.pod _).trans room
  exact ⟨a, b, begun.trans (State.ioFinish_change kind whole _ _ plain page started)⟩

/-- Settles O23. Every command on logical blocks begins with the same checks and lock (`State.ioBegin_passes`); where its units are at
hand it finishes as it is fetched (`State.ioBegin_found`), by its answer (`State.ioFinish_answers`) or its change (`State.ioChanged_set`). -/
theorem nvmCommandsStartAndFinish : Obligations.NvmCommandsStartAndFinish := by
  unfold Obligations.NvmCommandsStartAndFinish
  refine ⟨?_, ?_, ?_, ?_, ?_⟩
  · intro s i k c n a b hi adm serves home inside moves writable dsm ha hb
    have passes : s.IoPasses k c n := ⟨serves, home, inside, moves, writable, fun e => (dsm e).2⟩
    have begun := (State.ioBegin_passes passes).2 (fun e => (dsm e).1) a b ha hb
    exact completes_of_done ((exec_io hi adm).trans (congrArg (State.done · s) begun))
      ⟨(s.ioLock k c n a b).2, s.ioEntry k c n a b, s.ioOut k c, s.ioLock_locks k c n a b, rfl, rfl, s.ioEntry_range k c n a b, rfl,
        s.ioLock_granted k c n a b, s.ioLock_outCmd k c n a b, rfl, rfl, State.onlyChanges_mono (s.ioLock_onlyChanges k c n a b) (by decide), rfl⟩
  · intro s i k c n o hi adm serves plain inside xfer free got found
    obtain ⟨row, kind⟩ := ioCommands_of_answer hi
    obtain ⟨write, dsm⟩ := IoKind.ne_of_answer kind
    obtain ⟨a, b, begun⟩ := State.ioBegin_found (.of_answer kind serves plain inside xfer) plain write (fun e => absurd e dsm) free
      (n.touched_ne_nil c (ioRanges_one dsm c)) o.got got found
    exact completes_of_done ((exec_io row adm).trans (congrArg (State.done · s) begun))
      (State.ioFinish_answers (s.ioStarted_onlyChanges k c n a b o.got) (State.ioStarted_owns k n a b o.got adm.1) rfl rfl kind
        (fun v => (xfer v).2))
  · intro s i k c n hi adm serves plain h1 h2 size inside writable dsm free units page room whole
    obtain ⟨row, kind⟩ := ioCommands_of_change hi
    have bound : ∀ u ∈ n.touched k c, u < 2 ^ 40 := fun u hu => by
      have := Ns.touched_lt inside u hu
      omega
    obtain ⟨a, b, begun⟩ := State.ioBegin_change (.of_change kind serves plain inside writable fun e => (dsm e).2) plain kind
      (fun e => (dsm e).1) free units page room whole
    obtain ⟨set, others⟩ := (s.ioStarted k c n a b []).ioChanged_set k h1 h2 bound
    exact completes_of_done ((exec_io row adm).trans (congrArg (State.done · s) begun)) ⟨_, rfl, set, others,
      State.onlyChanges_mono (State.onlyChanges_append (s.ioStarted_onlyChanges k c n a b []) (State.ioChanged_onlyChanges _ k c n)) (by decide)⟩
  · intro s c n adm serves plain effect xfer inside
    have row : (Instr.datasetManagement c, IoKind.dsm) ∈ ioCommands c := by simp [ioCommands]
    have passes : s.IoPasses .dsm c n := .of_change (.inr (.inr rfl)) serves plain inside (fun h => by simp at h) (fun _ => xfer)
    have begun := (State.ioBegin_passes passes).1 ⟨rfl, effect⟩
    obtain ⟨posts, -, -, -, map, wbuf, -⟩ := State.endCmd_answers
      (State.onlyChanges_mono (s.ioBegun_onlyChanges .dsm c) (by decide)) (State.ioBegun_owns adm.1 .dsm) 0 0 false
    exact completes_of_done ((exec_io row adm).trans (congrArg (State.done · s) begun)) ⟨posts, map, wbuf,
      State.onlyChanges_mono (State.onlyChanges_append (s.ioBegun_onlyChanges .dsm c) (State.endCmd_onlyChanges _ _ _ _ _ _)) (by decide)⟩
  · intro s c taken ns
    exact completes_of_done (exec_nvmFlush taken ns) ⟨rfl, rfl, ⟨_, State.outCmd_begin s.fresh c 0 .started none, rfl⟩,
      State.onlyChanges_mono (State.onlyChanges_append s.fresh_onlyChanges (State.onlyChanges_append (State.begin_onlyChanges _ _ _ _ _)
        (State.modHost_onlyChanges _ _))) (by decide)⟩

end Sys2Proof.Machine
end

section
/-!
SUPPORT. The canonical form of memory: what a canonical table holds, and what the memory commands of the fabric leave of it.
-/
namespace Sys2Proof.Machine

/-! ### A rising table is determined by what it holds -/

theorem Tab.look_of_above {β : Type} {t : Tab β} {n k : Nat} (h : Tab.above n t) (hk : k ≤ n) : Tab.look t k = none := by
  induction t with
  | nil => rfl
  | cons x t ih =>
    obtain ⟨l, v⟩ := x
    have hl : n < l := h (l, v) List.mem_cons_self
    rw [Tab.look, if_neg (by omega)]
    exact ih fun kv hm => h kv (List.mem_cons_of_mem _ hm)

theorem Tab.above_cons {β : Type} {k l : Nat} {v : β} {t : Tab β} (h : Tab.above l t) (hk : k < l) : Tab.above k ((l, v) :: t) := by
  intro kv hm
  rcases List.mem_cons.mp hm with rfl | hm
  · exact hk
  · exact lt_trans hk (h kv hm)

theorem Tab.mem_of_look {β : Type} {t : Tab β} {k : Nat} {v : β} (h : Tab.look t k = some v) : (k, v) ∈ t := by
  induction t with
  | nil => simp at h
  | cons x t ih =>
    obtain ⟨l, w⟩ := x
    rw [Tab.look] at h
    split at h
    · next hl =>
      obtain rfl := Option.some.inj h
      rw [hl]
      exact List.mem_cons_self
    · exact List.mem_cons_of_mem _ (ih h)

/-- Where one of two rising tables begins, so does the other, when they hold the same. -/
theorem Tab.first_le {β : Type} {k l : Nat} {v w : β} {t u : Tab β} (hu : Tab.above l u)
    (h : Tab.look ((k, v) :: t) k = Tab.look ((l, w) :: u) k) : l ≤ k := by
  by_contra hlt
  rw [Tab.look_of_above (Tab.above_cons hu (by omega)) le_rfl, Tab.look, if_pos rfl] at h
  exact Option.some_ne_none v h

/-- Rising tables that hold the same under every key are one list. -/
theorem Tab.eq_of_look_eq {β : Type} {t u : Tab β} (ht : Tab.sorted t = true) (hu : Tab.sorted u = true)
    (h : ∀ k, Tab.look t k = Tab.look u k) : t = u := by
  induction t generalizing u with
  | nil =>
    cases u with
    | nil => rfl
    | cons y u => simpa [Tab.look] using h y.1
  | cons x t ih =>
    cases u with
    | nil => simpa [Tab.look] using h x.1
    | cons y u =>
      obtain ⟨k, v⟩ := x
      obtain ⟨l, w⟩ := y
      obtain ⟨hkt, restT⟩ := (Tab.sorted_cons k v t).mp ht
      obtain ⟨hlu, restU⟩ := (Tab.sorted_cons l w u).mp hu
      obtain rfl : k = l := le_antisymm (Tab.first_le hkt (h l).symm) (Tab.first_le hlu (h k))
      obtain rfl : v = w := by simpa [Tab.look] using h k
      have tails : ∀ j, Tab.look t j = Tab.look u j := fun j => by
        by_cases hj : k = j
        · rw [Tab.look_of_above hkt hj.ge, Tab.look_of_above hlu hj.ge]
        · simpa [Tab.look, hj] using h j
      rw [ih restT restU tails]

theorem Memory.wf_iff (m : Tab Byte) : Memory.wf m = true ↔ Tab.sorted m = true ∧ ∀ kv ∈ m, kv.2 ≠ 0#8 := by
  simp [Memory.wf]

/-- What canonical memory lists at an address follows from the byte read there. -/
theorem Memory.look_of_wf {m : Tab Byte} (h : Memory.wf m = true) (k : Nat) :
    Tab.look m k = if Tab.lookD m k 0#8 = 0#8 then none else some (Tab.lookD m k 0#8) := by
  obtain ⟨-, listed⟩ := (Memory.wf_iff m).mp h
  cases hk : Tab.look m k with
  | none => simp [Tab.lookD, hk]
  | some v =>
    have : v ≠ 0#8 := listed _ (Tab.mem_of_look hk)
    simp [Tab.lookD, hk, this]

/-- Canonical memories that read alike at every address are one list. -/
theorem Memory.eq_of_reads {m n : Tab Byte} (hm : Memory.wf m = true) (hn : Memory.wf n = true)
    (h : ∀ k, Tab.lookD m k 0#8 = Tab.lookD n k 0#8) : m = n :=
  Tab.eq_of_look_eq ((Memory.wf_iff m).mp hm).1 ((Memory.wf_iff n).mp hn).1 fun k => by
    rw [Memory.look_of_wf hm, Memory.look_of_wf hn, h]

/-- What every address reads after a write. -/
theorem memWrite_look (m : Tab Byte) (a k : Nat) (d : List Byte) :
    Tab.lookD (memWrite m a d) k 0#8 = if a ≤ k ∧ k < a + d.length then d.getD (k - a) 0#8 else Tab.lookD m k 0#8 := by
  split
  · next hk =>
    obtain ⟨i, rfl⟩ := Nat.exists_eq_add_of_le hk.1
    have hi : i < d.length := by omega
    rw [memWrite_look_inside m a d i hi, Nat.add_sub_cancel_left, List.getD_eq_getElem _ _ hi]
  · exact memWrite_look_outside m a k d (by omega)

/-! ### The fabric's memory commands -/

@[simp] theorem State.answer_mem (s : State) (m t : Nat) (st : BusStatus) (d : List Byte) : (s.answer m t st d).mem = s.mem :=
  s.answer_onlyChanges m t st d .mem (by decide)

@[simp] theorem State.denied_mem (s : State) (r : Req) (t a c : Nat) : (s.denied r t a c).mem = s.mem :=
  s.denied_onlyChanges r t a c .mem (by decide)

@[simp] theorem State.generalWrite_mem (s : State) (off : Nat) (d : List Byte) : (s.generalWrite off d).mem = s.mem := by
  simp only [State.generalWrite]
  split <;> rfl

@[simp] theorem State.breakReservations_mem (s : State) (line : Nat) : (s.breakReservations line).mem = s.mem := rfl

@[simp] theorem State.directedRefresh_mem (s : State) (r : Req) (a : Nat) : (s.directedRefresh r a).mem = s.mem := by
  simp [State.directedRefresh, mem_ite]

theorem State.directedRefresh_ite_mem (s : State) (r : Req) (a : Nat) (p : Prop) [Decidable p] :
    (if p then s.directedRefresh r a else s).mem = s.mem := by
  rw [mem_ite, State.directedRefresh_mem, ite_self]

theorem State.mem_of_lineRead {s u : State} {m t a : Nat} {pe ce : CellErr} {scrub : Bool} {e : BusStatus}
    (h : s.lineRead m t a pe ce scrub = (e, u)) : u.mem = s.mem := by
  simpa [h] using s.lineRead_mem m t a pe ce scrub

/-- A write within a line keeps the canonical form, its errors included. -/
theorem State.lineWrite_keeps_wf {s : State} (h : Memory.wf s.mem = true) (m t a : Nat) (d : List Byte) :
    Memory.wf (s.lineWrite m t a d).2.mem = true := by
  have woken : Memory.wf (if t = 0x40 then s.wakeChan (s.chanOf a) else s).mem = true := by split <;> simpa using h
  simp only [State.lineWrite]
  generalize (if t = 0x40 then s.wakeChan (s.chanOf a) else s) = v at woken ⊢
  generalize (if t = 0x40 then !bit (s.fld CFG_MEM_INIT_DRAM_DONE) (s.chanOf a) else _ : Bool) = undone
  split
  · exact woken
  split
  · exact woken
  split
  · rw [State.injectOn_mem]
    exact State.wr_keeps_wf _ _ _ (State.wr_keeps_wf _ _ _ woken)
  split
  · rw [State.injectOn_mem]
    exact State.wr_keeps_wf _ _ _ woken
  split
  · next read =>
    rw [State.injectOn_mem]
    exact State.wr_keeps_wf _ _ _ (by rwa [State.mem_of_lineRead read])
  · next read =>
    rw [State.injectOn_mem]
    exact State.wr_keeps_wf _ _ _ (by rwa [State.setBad_mem, State.mem_of_lineRead read])

/-- A memory read leaves memory alone, whatever it ends with. -/
theorem State.memRead_mem (s : State) (r : Req) (addr n : Nat) (pe ce : CellErr) (hot : Bool) : (s.memRead r addr n pe ce hot).mem = s.mem := by
  simp only [State.memRead]
  split
  · rfl
  cases s.gateMem r addr n true false with
  | go =>
    dsimp only
    split
    · exact State.answer_mem _ _ _ _ _
    split
    · next read => rw [State.answer_mem, State.directedRefresh_ite_mem, State.mem_of_lineRead read]
    · next read => rw [State.answer_mem, State.mem_of_lineRead read]
  | _ => simp

/-- A write through the gate keeps the canonical form. -/
theorem State.memWriteOp_keeps_wf {s : State} (h : Memory.wf s.mem = true) (r : Req) (addr : Nat) (d : List Byte) (hot : Bool) :
    Memory.wf (s.memWriteOp r addr d hot).mem = true := by
  simp only [State.memWriteOp]
  split
  · exact h
  cases s.gateMem r addr d.length false true with
  | go =>
    dsimp only
    split
    · simpa using h
    split
    · simpa [mem_ite] using h
    · rw [State.answer_mem, State.breakReservations_mem, State.directedRefresh_ite_mem]
      exact State.lineWrite_keeps_wf h _ _ _ _
  | _ => simpa using h

/-- An atomic keeps the canonical form. -/
theorem State.atomicOp_keeps_wf {s : State} (h : Memory.wf s.mem = true) (r : Req) (addr : Nat) (d : List Byte) (f : Atomic) (hot : Bool) :
    Memory.wf (s.atomicOp r addr d f hot).mem = true := by
  simp only [State.atomicOp]
  split
  · exact h
  split
  · exact h
  cases s.gateMem r addr d.length true true with
  | go =>
    dsimp only
    split
    · exact h
    split
    · next u read =>
      have found : Memory.wf (if hot = true ∧ targetOf addr = 0x40 then u.directedRefresh r addr else u).mem = true := by
        rwa [State.directedRefresh_ite_mem, State.mem_of_lineRead read]
      generalize (if hot = true ∧ targetOf addr = 0x40 then u.directedRefresh r addr else u) = v at found ⊢
      cases f with
      | lr => simpa using found
      | sc =>
        dsimp only
        split
        · rw [State.answer_mem, State.breakReservations_mem]
          refine State.lineWrite_keeps_wf ?_ _ _ _ _
          exact found
        · simpa using found
      | _ =>
        rw [State.answer_mem, State.breakReservations_mem]
        exact State.lineWrite_keeps_wf found _ _ _ _
    · next read => rwa [State.answer_mem, State.mem_of_lineRead read]
  | _ => simpa using h

end Sys2Proof.Machine
end

section
/-!
SUPPORT. What the delivery of raised events reaches (R477, R481): frames of dispatch, notices and each destination of a record, up to drain.
-/
namespace Sys2Proof.Machine

/-- What the delivery of an event may change. -/
def deliveryFields : List StateField := [.out, .regs, .evt, .recd, .nv, .host, .hsk, .tsk, .pod, .bg]

/-! ### Updates of one field -/

theorem State.onlyChanges_ite {s t u : State} {l : List StateField} (p : Prop) [Decidable p] (ht : s.onlyChanges t l)
    (hu : s.onlyChanges u l) : s.onlyChanges (if p then t else u) l := by
  split
  · exact ht
  · exact hu

theorem State.modTsk_onlyChanges (s : State) (f : TskState → TskState) : s.onlyChanges (s.modTsk f) [.tsk] := by
  intro p hp
  cases p
  case tsk => exact absurd (List.mem_singleton_self _) hp
  all_goals rfl

theorem State.putTask_onlyChanges (s : State) (i : Nat) (t : Task) : s.onlyChanges (s.putTask i t) [.tsk] := s.modTsk_onlyChanges _

theorem State.putCore_onlyChanges (s : State) (k : Nat) (c : Core) : s.onlyChanges (s.putCore k c) [.tsk] := s.modTsk_onlyChanges _

theorem State.modEvt_onlyChanges (s : State) (f : EvtState → EvtState) : s.onlyChanges (s.modEvt f) [.evt] := by
  intro p hp
  cases p
  case evt => exact absurd (List.mem_singleton_self _) hp
  all_goals rfl

theorem State.recd_onlyChanges (s : State) (x : RecState) : s.onlyChanges { s with recd := x } [.recd] := by
  intro p hp
  cases p
  case recd => exact absurd (List.mem_singleton_self _) hp
  all_goals rfl

theorem State.nv_onlyChanges (s : State) (x : NvState) : s.onlyChanges { s with nv := x } [.nv] := by
  intro p hp
  cases p
  case nv => exact absurd (List.mem_singleton_self _) hp
  all_goals rfl

theorem State.setCtrl_onlyChanges (s : State) (p : Nat) (c : Ctrl) : s.onlyChanges (s.setCtrl p c) [.host] :=
  s.modHost_onlyChanges fun h => { h with ctrls := Tab.put h.ctrls p c }

theorem State.bgNote_onlyChanges (s : State) (n i : Nat) (b : Bool) : s.onlyChanges (s.bgNote n i b) [.bg] := by
  simp only [State.bgNote]
  exact State.onlyChanges_ite _ (s.setBg_onlyChanges _ _ _) (s.onlyChanges_refl _)

/-! ### Dispatch (R288, R289, R292) -/

theorem State.pickTask_onlyChanges (s : State) (k : Nat) : s.onlyChanges (s.pickTask k).2 [.bg, .pod, .tsk] := by
  simp only [State.pickTask]
  split
  · exact State.onlyChanges_mono (s.bgNote_onlyChanges _ _ _) (by decide)
  split
  · exact s.onlyChanges_refl _
  · intro p hp
    cases p
    case pod => exact absurd (by decide) hp
    case tsk => exact absurd (by decide) hp
    all_goals rfl

theorem State.slot_onlyChanges (s : State) (k i : Nat) : s.onlyChanges (s.slot k i) [.tsk, .out] := by
  simp only [State.slot]
  split
  · exact s.onlyChanges_refl _
  · next t _ =>
    have slotted := s.putTask_onlyChanges i { t with st := .slotted, core := k }
    exact State.onlyChanges_append (State.onlyChanges_trans slotted
      (State.onlyChanges_ite _ (State.putCore_onlyChanges _ _ _) (State.putCore_onlyChanges _ _ _))) (State.emit_onlyChanges _ _)

theorem State.fillFirst_onlyChanges {s t : State} {ks : List Nat} (h : s.fillFirst ks = some t) : s.onlyChanges t deliveryFields := by
  induction ks with
  | nil => simp [State.fillFirst] at h
  | cons k ks ih =>
    rw [State.fillFirst] at h
    split at h
    · next i u pick =>
      have picked : s.onlyChanges u [.bg, .pod, .tsk] := by simpa [pick] using s.pickTask_onlyChanges k
      rw [← Option.some.inj h]
      exact State.onlyChanges_mono (State.onlyChanges_append (State.onlyChanges_append picked (State.slot_onlyChanges _ _ _))
        (State.modTsk_onlyChanges _ _)) (by decide)
    · exact ih h

theorem State.fillAll_onlyChanges (s : State) (n : Nat) : s.onlyChanges (s.fillAll n) deliveryFields := by
  induction n generalizing s with
  | zero => exact s.onlyChanges_refl _
  | succ n ih =>
    rw [State.fillAll]
    split
    · next filled => exact State.onlyChanges_trans (State.fillFirst_onlyChanges filled) (ih _)
    · exact s.onlyChanges_refl _

theorem State.cobWaits_onlyChanges (s : State) : s.onlyChanges s.cobWaits [.tsk, .evt] :=
  State.onlyChanges_append (s.modTsk_onlyChanges _) (State.foldl_onlyChanges _ (fun u _ => u.raise_onlyChanges _ _ _) _ _)

/-- Dispatch reaches tasks, cores and their interrupts, pods' deficits, background shares and events alone. -/
theorem State.dispatch_onlyChanges (s : State) : s.onlyChanges s.dispatch deliveryFields := by
  simp only [State.dispatch]
  refine State.onlyChanges_ite _ ?_ (State.onlyChanges_mono (s.modTsk_onlyChanges _) (by decide))
  have noted : ∀ (u : State) (c : Nat) (b : Bool), u.onlyChanges (u.bgNote 2 c b) deliveryFields :=
    fun u c b => State.onlyChanges_mono (u.bgNote_onlyChanges 2 c b) (by decide)
  exact State.onlyChanges_trans (s.fillAll_onlyChanges _)
    (State.onlyChanges_trans (State.onlyChanges_mono (State.cobWaits_onlyChanges _) (by decide))
      (State.foldl_onlyChanges _ (fun u _ => noted u _ _) _ _))

theorem State.readyCheck_onlyChanges (s : State) (i : Nat) : s.onlyChanges (s.readyCheck i) [.tsk] := by
  simp only [State.readyCheck]
  split
  · exact s.onlyChanges_refl _
  · exact State.onlyChanges_ite _ (State.onlyChanges_trans (s.putTask_onlyChanges _ _) (State.modTsk_onlyChanges _ _)) (s.onlyChanges_refl _)

theorem State.flagSet_onlyChanges (s : State) (r : Req) (w : Nat) : s.onlyChanges (s.flagSet r w) deliveryFields := by
  have stale : ∀ c, s.onlyChanges ((s.countS TSK_ERR_STAT_STALE TSK_ERR_STAT_OVF 1).raise 497 c [r.master, w % 65536]) deliveryFields := fun c =>
    State.onlyChanges_mono (State.onlyChanges_append (s.countS_onlyChanges _ _ _ _ _) (State.raise_onlyChanges _ _ _ _)) (by decide)
  simp only [State.flagSet]
  refine State.onlyChanges_ite _ (s.onlyChanges_refl _) ?_
  split
  · exact stale 2
  · next t _ =>
    refine State.onlyChanges_ite _ (stale 1) (State.onlyChanges_ite _ (stale 3) (State.onlyChanges_ite _ (stale 4) ?_))
    exact State.onlyChanges_trans (State.onlyChanges_mono (State.onlyChanges_trans (s.putTask_onlyChanges _ _) (State.readyCheck_onlyChanges _ _))
      (by decide)) (State.dispatch_onlyChanges _)

/-! ### Destinations (R481-R483, R492) -/

theorem State.postAsync_onlyChanges (s : State) (p dw0 : Nat) : s.onlyChanges (s.postAsync p dw0) [.host, .hsk] := by
  have waits : ∀ c, s.onlyChanges (s.setCtrl p c) [.host, .hsk] := fun c => State.onlyChanges_mono (s.setCtrl_onlyChanges p c) (by decide)
  simp only [State.postAsync]
  cases (s.ctrl p).aers with
  | nil => exact waits _
  | cons cid rest => exact State.onlyChanges_ite _ (State.onlyChanges_trans (waits _) (State.complete_onlyChanges _ _ _ _ _ _)) (waits _)

theorem State.hostPush_onlyChanges (s : State) (p : Nat) (r : EvtRec) : s.onlyChanges (s.hostPush p r) deliveryFields := by
  have kept : ∀ (u : State) f, u.onlyChanges (u.modEvt f) deliveryFields := fun u f => State.onlyChanges_mono (u.modEvt_onlyChanges f) (by decide)
  simp only [State.hostPush]
  exact State.onlyChanges_ite _ (kept _ _) (State.onlyChanges_trans (kept _ _) (State.onlyChanges_trans (kept _ _)
    (State.onlyChanges_mono (State.postAsync_onlyChanges _ _ _) (by decide))))

theorem State.countSeries_onlyChanges (s : State) (r : EvtRec) : s.onlyChanges (s.countSeries r) [.recd] :=
  State.foldl_onlyChanges _ (fun u _ => State.onlyChanges_ite _ (u.recd_onlyChanges _) (u.onlyChanges_refl _)) _ _

/-- A queue that is full counts and reports what it loses. -/
theorem State.lost_onlyChanges (s : State) (a o : Field) (f : EvtState → EvtState) (cause : Nat) (l : List Nat) :
    s.onlyChanges (((s.countS a o 1).modEvt f).raise 720 cause l) [.regs, .evt] :=
  State.onlyChanges_trans (State.onlyChanges_append (s.countS_onlyChanges _ _ _ _ _) (State.modEvt_onlyChanges _ _))
    (State.onlyChanges_mono (State.raise_onlyChanges _ _ _ _) (by decide))

theorem State.toMq_onlyChanges (s : State) (r : EvtRec) : s.onlyChanges (s.toMq r) [.regs, .evt] := by
  simp only [State.toMq]
  refine State.onlyChanges_ite _ (s.lost_onlyChanges _ _ _ _ _) (State.onlyChanges_mono ?_ (l := [.evt, .regs]) (by decide))
  exact State.onlyChanges_append (s.modEvt_onlyChanges _) (State.setReg_onlyChanges _ _ _)

theorem State.toCle_onlyChanges (s : State) (r : EvtRec) : s.onlyChanges (s.toCle r) [.regs, .evt] := by
  simp only [State.toCle]
  exact State.onlyChanges_ite _ (s.lost_onlyChanges _ _ _ _ _) (State.onlyChanges_mono (s.modEvt_onlyChanges _) (by decide))

theorem State.toMi_onlyChanges (s : State) (r : EvtRec) : s.onlyChanges (s.toMi r) [.evt] := by
  simp only [State.toMi]
  exact State.onlyChanges_ite _ (s.modEvt_onlyChanges _) (s.modEvt_onlyChanges _)

theorem State.toRing_onlyChanges (s : State) (r : EvtRec) : s.onlyChanges (s.toRing r) [.nv, .recd] := by
  simp only [State.toRing]
  exact State.onlyChanges_append (State.onlyChanges_ite _ (s.nv_onlyChanges _) (s.onlyChanges_refl _)) (State.recd_onlyChanges _ _)

theorem State.toTasks_onlyChanges (s : State) (r : EvtRec) : s.onlyChanges (s.toTasks r) deliveryFields :=
  State.foldl_onlyChanges _ (fun u _ => State.onlyChanges_ite _ (u.flagSet_onlyChanges _ _) (u.onlyChanges_refl _)) _ _

/-- A destination that a route bit turns on or off. -/
theorem State.onlyChanges_route {s t : State} {l k : List StateField} (h : s.onlyChanges t l) (f : State → State)
    (hf : ∀ u : State, u.onlyChanges (f u) k) (hk : ∀ p ∈ k, p ∈ l) (p : Prop) [Decidable p] : s.onlyChanges (if p then f t else t) l :=
  State.onlyChanges_ite p (State.onlyChanges_trans h (State.onlyChanges_mono (hf t) hk)) h

theorem State.deliver_onlyChanges (s : State) (r0 : EvtRec) : s.onlyChanges (s.deliver r0) deliveryFields := by
  simp only [State.deliver]
  generalize (if bit (s.routeOf r0.number) 1 then { r0 with seq := s.recd.nextSeq } else { r0 with seq := 0 } : EvtRec) = r
  refine State.onlyChanges_trans ?_ (State.toTasks_onlyChanges _ _)
  refine State.onlyChanges_route ?_ (·.toMi r) (fun u => u.toMi_onlyChanges r) (by decide) _
  refine State.onlyChanges_route ?_ (·.hostPush (r.pod.getD 0) r) (fun u => u.hostPush_onlyChanges _ r) (fun _ h => h) _
  refine State.onlyChanges_route ?_ (·.hostPush 0 r) (fun u => u.hostPush_onlyChanges _ r) (fun _ h => h) _
  refine State.onlyChanges_route ?_ (·.toCle r) (fun u => u.toCle_onlyChanges r) (by decide) _
  refine State.onlyChanges_route ?_ (·.toMq r) (fun u => u.toMq_onlyChanges r) (by decide) _
  exact State.onlyChanges_route (s.onlyChanges_refl _) (fun u => (u.toRing r).countSeries r)
    (fun u => State.onlyChanges_append (u.toRing_onlyChanges r) (State.countSeries_onlyChanges _ r)) (by decide) _

/-! ### Coalescing and grants (R477-R479) -/

theorem State.setCoal_onlyChanges (s : State) (l : List CoalEntry) : s.onlyChanges (s.setCoal l) deliveryFields :=
  State.onlyChanges_mono (State.onlyChanges_append (s.modEvt_onlyChanges _) (State.setFld_onlyChanges _ _ _ _ _)) (by decide)

theorem State.closeEarly_onlyChanges (s : State) (e : CoalEntry) : s.onlyChanges (s.closeEarly e) deliveryFields := by
  simp only [State.closeEarly]
  refine State.onlyChanges_trans (s.deliver_onlyChanges _) (State.onlyChanges_ite _ ?_ (State.onlyChanges_refl _ _))
  exact State.onlyChanges_mono (State.onlyChanges_append (State.modEvt_onlyChanges _ _) (State.raise_onlyChanges _ _ _ _)) (by decide)

theorem State.coalRoom_onlyChanges (s : State) : s.onlyChanges s.coalRoom deliveryFields := by
  simp only [State.coalRoom]
  split
  · exact State.onlyChanges_ite _ (State.onlyChanges_trans (s.setCoal_onlyChanges _) (State.closeEarly_onlyChanges _ _)) (s.onlyChanges_refl _)
  · exact s.onlyChanges_refl _

theorem State.coalesce_onlyChanges (s : State) (r : Raised) : s.onlyChanges (s.coalesce r) deliveryFields := by
  simp only [State.coalesce]
  split
  · refine State.onlyChanges_ite _ (State.onlyChanges_ite _ ?_ (s.setCoal_onlyChanges _)) ?_
    · exact State.onlyChanges_trans (s.setCoal_onlyChanges _) (State.closeEarly_onlyChanges _ _)
    · exact State.onlyChanges_trans (State.onlyChanges_trans (s.setCoal_onlyChanges _) (State.deliver_onlyChanges _ _))
        (State.setCoal_onlyChanges _ _)
  · exact State.onlyChanges_trans s.coalRoom_onlyChanges (State.setCoal_onlyChanges _ _)

theorem State.grant_onlyChanges (s : State) (r : Raised) : s.onlyChanges (s.grant r) deliveryFields := by
  simp only [State.grant]
  exact State.onlyChanges_ite _ (s.onlyChanges_refl _) (State.onlyChanges_ite _ (s.coalesce_onlyChanges r) (s.deliver_onlyChanges _))

/-- The delivery that ends every command reaches the event fabric, the recorder, notices and tasks alone. -/
theorem State.drain_onlyChanges (n : Nat) (s : State) : s.onlyChanges (State.drain n s) deliveryFields := by
  induction n generalizing s with
  | zero => exact s.onlyChanges_refl _
  | succ n ih =>
    rw [State.drain]
    split
    · exact s.onlyChanges_refl _
    · exact State.onlyChanges_trans (State.onlyChanges_trans (State.onlyChanges_mono (s.modEvt_onlyChanges _) (by decide))
        (State.grant_onlyChanges _ _)) (ih _)

@[simp] theorem State.drain_mem (n : Nat) (s : State) : (State.drain n s).mem = s.mem := s.drain_onlyChanges n .mem (by decide)

end Sys2Proof.Machine
end

section
/-!
SUPPORT. Chapter 2, the fabric's memory accesses: what a granted access does, the canonical form memory keeps, and the step that runs them.
-/
namespace Sys2Proof.Machine

/-! ### The step (R48) -/

/-- Settles O33: the two sides are the step's own equation on a queue that is not empty. -/
theorem stepRunsFrontCommand : Obligations.StepRunsFrontCommand := by
  unfold Obligations.StepRunsFrontCommand
  intro s c rest hq
  simp only [step, hq]

/-! ### Which way a memory command takes (R41) -/

theorem exec_memoryRead {addr : Nat} (r : Req) (n : Nat) (pe ce : CellErr) (hot : Bool) (s : State) (hw : inWindows addr = false) :
    exec (.memoryRead r addr n pe ce hot) s = (s.fresh.memRead r addr n pe ce hot).done s := by
  show (s.fresh.busRead r addr n pe ce hot).done s = _
  simp [State.busRead, dataPort_of_not_inWindows hw, hw]

theorem exec_memoryWrite {addr : Nat} (r : Req) (d : List Byte) (hot : Bool) (s : State) (hw : inWindows addr = false) :
    exec (.memoryWrite r addr d none hot) s = (s.fresh.memWriteOp r addr d hot).done s := by
  show (s.fresh.busWrite r addr d hot).done s = _
  simp [State.busWrite, dataPort_of_not_inWindows hw, hw]

theorem exec_memoryWrite_atomic (r : Req) (addr : Nat) (d : List Byte) (f : Atomic) (hot : Bool) (s : State) :
    exec (.memoryWrite r addr d (some f) hot) s = (s.fresh.atomicOp r addr d f hot).done s := rfl

/-! ### Memory keeps its canonical form (R24, R41) -/

/-- What a command that ends in a state leaves in memory is that state's memory: delivery and the merge leave it alone. -/
theorem mem_of_done {c : Instr} {s t u : State} (run : exec c s = u.done s) (h : exec c s = .next t) : t.mem = u.mem := by
  obtain rfl : s.oneWay (State.drain drainFuel u) = t := by simpa [State.done, run] using h
  rw [State.oneWay_mem, State.drain_mem]

/-- Settles O45. The first parts are laws of sparse memory; a read leaves memory as it is, and a write and an atomic come to writes within lines
(`State.lineWrite_keeps_wf`), which are writes of bytes (`memWrite_keeps_wf`). -/
theorem memoryKeepsItsCanonicalForm : Obligations.MemoryKeepsItsCanonicalForm := by
  unfold Obligations.MemoryKeepsItsCanonicalForm
  refine ⟨memWrite_keeps_wf, fun m a k d _ => memWrite_look m a k d, fun m n hm hn h => Memory.eq_of_reads hm hn h, ?read, ?write⟩
  case read =>
    intro s t r addr n pe ce hot h hw run
    rwa [mem_of_done (exec_memoryRead r n pe ce hot s hw) run, State.memRead_mem]
  case write =>
    intro s t r addr d at_ hot h hw run
    cases at_ with
    | none =>
      rw [mem_of_done (exec_memoryWrite r d hot s hw) run]
      exact State.memWriteOp_keeps_wf (s := s.fresh) h r addr d hot
    | some f =>
      rw [mem_of_done (exec_memoryWrite_atomic r addr d f hot s) run]
      exact State.atomicOp_keeps_wf (s := s.fresh) h r addr d f hot

/-! ### Granted accesses (R41, R278, R373, R391) -/

theorem acks_of_answer {c : Instr} {s t : State} {r : Req} {target : Nat} {data : List Byte} {P : State → Prop}
    (run : exec c s = (t.answer r.master target .ok data).done s) (h : P t) : Acks c s r target data P :=
  ⟨t, run, h⟩

section
variable {s u : State} {r : Req} {addr : Nat} (issued : s.issues r = true)
include issued

theorem State.memRead_granted {n : Nat} {pe ce : CellErr} (gate : s.gateMem r addr n true false = .go)
    (size : sizeOk (targetOf addr) addr n = true) (line : s.lineRead r.master (targetOf addr) addr pe ce false = (.ok, u)) :
    s.memRead r addr n pe ce false = u.answer r.master (targetOf addr) .ok (u.rawRead (targetOf addr) addr n) := by
  simp [State.memRead, issued, gate, size, line]

theorem State.memWriteOp_granted {d : List Byte} (gate : s.gateMem r addr d.length false true = .go)
    (size : sizeOk (targetOf addr) addr d.length = true) (general : targetOf addr ≠ 0x42)
    (line : s.lineWrite r.master (targetOf addr) addr d = (.ok, u)) :
    s.memWriteOp r addr d false = (u.breakReservations (addr / 64)).answer r.master (targetOf addr) .ok [] := by
  simp [State.memWriteOp, issued, gate, size, general, line]

/-- A core's load-reserve leaves its reservation of the line. -/
theorem State.atomicOp_reserves {d : List Byte} (target : targetOf addr = 0x40 ∨ targetOf addr = 0x41) (region : (regionOf addr).isSome = true)
    (gate : s.gateMem r addr d.length true true = .go) (size : d.length = 4 ∨ d.length = 8) (aligned : addr % d.length = 0)
    (line : s.lineRead r.master (targetOf addr) addr .none .none false = (.ok, u)) :
    s.atomicOp r addr d .lr false = State.answer { u with dram := { u.dram with reserved := Tab.put u.dram.reserved r.master (addr / 64) } }
      r.master (targetOf addr) .ok (leBytes d.length (u.rdN addr d.length)) := by
  have shared : ¬ ((regionOf addr).isNone = true ∨ (targetOf addr ≠ 0x40 ∧ targetOf addr ≠ 0x41)) := by
    simp only [Option.isNone_eq_false_iff.mpr region, Bool.false_eq_true, false_or]
    omega
  have grain : ¬ ((d.length ≠ 4 ∧ d.length ≠ 8) ∨ addr % d.length ≠ 0) := by omega
  simp only [State.atomicOp, gate, line]
  rw [if_neg (by simp [issued]), if_neg shared, if_neg grain]
  rfl

end

theorem State.dram_onlyChanges (s : State) (x : MemState) : s.onlyChanges { s with dram := x } [.dram] := by
  intro p hp
  cases p
  case dram => exact absurd (List.mem_singleton_self _) hp
  all_goals rfl

/-- An access of a size its region takes lies within one line. -/
theorem line_of_sizeOk {t addr n : Nat} (h : sizeOk t addr n = true) : addr % 64 + n ≤ 64 := by
  simp only [sizeOk, Bool.and_eq_true, List.contains_eq_mem, decide_eq_true_eq, List.mem_cons, List.not_mem_nil, or_false] at h
  obtain ⟨⟨size, aligned⟩, -⟩ := h
  rcases size with rfl | rfl | rfl | rfl | rfl | rfl | rfl <;> omega

/-- Settles O2: each access comes to its line's check, and a write to the bytes that `State.lineWrite_mem` says the line holds after it. -/
theorem memoryAccessCompletes : Obligations.MemoryAccessCompletes := by
  unfold Obligations.MemoryAccessCompletes
  refine ⟨?read, ?write, ?reserve⟩
  case read =>
    intro s u r addr n pe ce hw issued gate size line
    exact acks_of_answer ((exec_memoryRead r n pe ce false s hw).trans
      (congrArg (State.done · s) (State.memRead_granted (s := s.fresh) issued gate size line))) rfl
  case write =>
    intro s u r addr d hw issued gate size general line
    refine acks_of_answer ((exec_memoryWrite r d false s hw).trans
      (congrArg (State.done · s) (State.memWriteOp_granted (s := s.fresh) issued gate size general line))) ?_
    obtain ⟨x, written, others⟩ := State.lineWrite_mem _ _ _ _ _ _ line
    refine ⟨State.rd_written _ x addr d written, fun a ha => ?_, fun kv hkv => ?_, u.dram_onlyChanges _⟩
    · have outside : a < addr ∨ addr + d.length ≤ a := by
        have := line_of_sizeOk size
        omega
      rw [State.breakReservations_mem, written, memWrite_look_outside x addr a d outside]
      exact others a ha
    · simpa using (List.mem_filter.mp hkv).2
  case reserve =>
    intro s u r addr d issued target region gate size aligned line
    exact acks_of_answer ((exec_memoryWrite_atomic r addr d .lr false s).trans
        (congrArg (State.done · s) (State.atomicOp_reserves (s := s.fresh) issued target region gate size aligned line)))
      ⟨Tab.look_put_same _ _ _, rfl, u.dram_onlyChanges _⟩

end Sys2Proof.Machine
end

section
/-!
SUPPORT. What the lock of the image's registers keeps: a write leaves the bits that no type lets it take.
-/
namespace Sys2Proof.Machine

/-! ### Locked registers (R19, R77) -/

/-- The bits of a register that a write takes, by its access types. -/
def RegRow.taken (r : RegRow) (locked : Bool) : Nat := r.rw ||| (if locked then 0 else r.rwl)

/-- Without bits that clear on writing 1, a write leaves the old value outside the bits it takes and the written one inside. -/
theorem RegRow.after_noClear {r : RegRow} (h : r.w1c = 0) (locked : Bool) (old w : Nat) :
    r.after locked old w
      = (old &&& (2 ^ 32 - 1 - (r.taken locked &&& (2 ^ 32 - 1)))) ||| (w &&& r.taken locked) := by
  simp only [RegRow.after, RegRow.taken, h, Nat.zero_and, Nat.and_zero, Nat.sub_zero]

theorem testBit_complement_word (m b : Nat) (h : b < 32) : (2 ^ 32 - 1 - (m &&& (2 ^ 32 - 1))).testBit b = !m.testBit b := by
  have word : m % 2 ^ 32 < 2 ^ 32 := Nat.mod_lt _ (by decide)
  rw [Nat.and_two_pow_sub_one_eq_mod, Nat.sub_sub, Nat.add_comm, Nat.testBit_two_pow_sub_succ word, Nat.testBit_mod_two_pow]
  simp [h]

theorem RegRow.testBit_taken (r : RegRow) (locked : Bool) (b : Nat) :
    (r.taken locked).testBit b = (r.rw.testBit b || (!locked && r.rwl.testBit b)) := by
  cases locked <;> simp [RegRow.taken, Nat.testBit_or]

theorem RegRow.testBit_after {r : RegRow} (h : r.w1c = 0) (locked : Bool) (old w : Nat) {b : Nat} (hb : b < 32) :
    (r.after locked old w).testBit b = if (r.taken locked).testBit b then w.testBit b else old.testBit b := by
  rw [RegRow.after_noClear h, Nat.testBit_or, Nat.testBit_and, Nat.testBit_and, testBit_complement_word _ _ hb]
  cases (r.taken locked).testBit b <;> simp

/-- Where no bit can be written, a write leaves the low word as it was. -/
theorem RegRow.after_untaken {r : RegRow} (h : r.w1c = 0) {locked : Bool} (ht : r.taken locked = 0) (old w : Nat) :
    r.after locked old w = old % 2 ^ 32 := by
  rw [RegRow.after_noClear h, ht, Nat.zero_and, Nat.sub_zero, Nat.and_zero, Nat.or_zero, Nat.and_two_pow_sub_one_eq_mod]

/-- Without an overflow bit that clears on writing 1, no count is cleared. -/
theorem clearCounts_noClear {r : RegRow} (h : r.w1c = 0) (win v w : Nat) : clearCounts win r v w = v := by
  have keep : ∀ (l : List (Field × Field)) (v : Nat), l.foldl (fun v x =>
      if x.1.inRow win r ∧ bit r.w1c x.1.lo ∧ bit w x.1.lo then setBits v x.2.hi x.2.lo 0 else v) v = v := by
    intro l
    induction l with
    | nil => exact fun _ => rfl
    | cons x l ih =>
      intro v
      rw [List.foldl_cons, if_neg (by simp [h, bit]), ih]
  exact keep _ v

/-- Outside the registers with bits that read fixed, a write that changes nothing is left alone; the fixed series keep their own value. -/
theorem fixedBits_unchanged {win : Nat} {r : RegRow} (hc : ¬ (win = CLE_CTRL.win ∧ r.off = CLE_CTRL.off))
    (he : ¬ (win = EVT_ROUTE.win ∧ r.off = EVT_ROUTE.off)) (i old : Nat) :
    fixedBits win r i old (old % 2 ^ 32) % 2 ^ 32 = old % 2 ^ 32 := by
  have hc' : ¬ (CLE_CTRL.win = win ∧ CLE_CTRL.off = r.off ∧ (i = 0 ∨ (9 ≤ i ∧ i ≤ 11))) := fun ⟨a, b, _⟩ => hc ⟨a.symm, b.symm⟩
  have he' : ¬ (EVT_ROUTE.win = win ∧ EVT_ROUTE.off = r.off) := fun ⟨a, b⟩ => he ⟨a.symm, b.symm⟩
  rw [fixedBits, if_neg hc', if_neg he']
  split
  case isTrue hseries => rfl
  case isFalse hother => exact Nat.mod_mod _ _

/-- Settles O46: after the lock no bit is left that a write takes, and before it each bit goes by its access type. -/
theorem lockedFieldsIgnoreWrites : Obligations.LockedFieldsIgnoreWrites := by
  unfold Obligations.LockedFieldsIgnoreWrites
  refine ⟨?locked, ?bits⟩
  case locked =>
    intro s key w v i j row hrow hidx hlock hrw hw1c hcle hevt hv
    have untaken : row.taken s.boot.locked = 0 := by simp [RegRow.taken, hlock, hrw]
    simp only [State.written, hrow, hidx, Option.bind_some, Option.ite_none_right_eq_some, Option.some.injEq] at hv
    obtain ⟨-, rfl⟩ := hv
    rw [clearCounts_noClear hw1c, RegRow.after_untaken hw1c untaken]
    exact fixedBits_unchanged hcle hevt i _
  case bits =>
    intro r locked old w b hb hw1c
    rw [RegRow.testBit_after hw1c locked old w hb, RegRow.testBit_taken]

end Sys2Proof.Machine
end

section
/-!
SUPPORT. Frames the start-up commands share: which fields an update of one unit's state, a controller's readiness or an error of memory can reach.
-/
namespace Sys2Proof.Machine

/-! ### Frames in turn -/

/-- A change within some fields, then one within fewer of them. -/
theorem State.onlyChanges_then {s t u : State} {l k : List StateField} (h : s.onlyChanges t l) (g : t.onlyChanges u k) (sub : ∀ p ∈ k, p ∈ l) :
    s.onlyChanges u l :=
  State.onlyChanges_trans h (State.onlyChanges_mono g sub)

/-- A register outside those changed keeps its fields. -/
theorem State.fld_of_regsBut {s t : State} {l : List Nat} (h : s.regsBut t l) (f : Field) (i j : Nat) (hk : f.reg.key i j ∉ l) :
    t.fld f i j = s.fld f i j :=
  congrArg (fun w => bits w f.hi f.lo) (h _ hk)

/-- Two changes of registers one after the other. -/
theorem State.regsBut_append {s t u : State} {l k : List Nat} (h : s.regsBut t l) (g : t.regsBut u k) : s.regsBut u (l ++ k) :=
  State.regsBut_trans (State.regsBut_mono h (fun _ => List.mem_append_left _)) (State.regsBut_mono g (fun _ => List.mem_append_right _))

theorem State.regsBut_of_regs {s t : State} (hr : t.regs = s.regs) (hp : t.part = s.part) (l : List Nat) : s.regsBut t l :=
  fun k _ => State.getReg_congr s t hr hp k

theorem State.regsBut_ite {s t u : State} {l : List Nat} (p : Prop) [Decidable p] (ht : s.regsBut t l) (hu : s.regsBut u l) :
    s.regsBut (if p then t else u) l := by
  split
  · exact ht
  · exact hu

theorem State.modBoot_onlyChanges (s : State) (f : BootState → BootState) : s.onlyChanges (s.modBoot f) [.boot] := by
  intro p hp
  cases p
  case boot => exact absurd (List.mem_singleton_self _) hp
  all_goals rfl

theorem State.modSgn_onlyChanges (s : State) (f : SgnState → SgnState) : s.onlyChanges (s.modSgn f) [.sgn] := by
  intro p hp
  cases p
  case sgn => exact absurd (List.mem_singleton_self _) hp
  all_goals rfl

theorem State.hsk_onlyChanges (s : State) (h : HskState) : s.onlyChanges { s with hsk := h } [.hsk] := by
  intro p hp
  cases p
  case hsk => exact absurd (List.mem_singleton_self _) hp
  all_goals rfl

theorem State.foldl_regsBut {α : Type} {l : List Nat} (f : State → α → State) (h : ∀ (s : State) (a : α), s.regsBut (f s a) l)
    (xs : List α) (s : State) : s.regsBut (xs.foldl f s) l := by
  induction xs generalizing s with
  | nil => exact fun _ _ => rfl
  | cons a xs ih => exact State.regsBut_trans (h s a) (ih (f s a))

/-! ### A controller (R83) -/

theorem State.ctrl_setCtrl_same (s : State) (p : Nat) (c : Ctrl) : (s.setCtrl p c).ctrl p = c := Tab.lookD_put_same _ _ _ _

theorem State.ctrlReady_onlyChanges (s : State) (p : Nat) : s.onlyChanges (s.ctrlReady p) [.host] :=
  State.onlyChanges_ite _ (s.setCtrl_onlyChanges _ _) (s.onlyChanges_refl _)

/-- Only CSTS.RDY and its wait change as a controller becomes ready. -/
theorem State.ctrl_ctrlReady (s : State) (p : Nat) :
    (s.ctrlReady p).ctrl p = if s.mayReady p (s.ctrl p) then { s.ctrl p with rdy := true, enabling := false } else s.ctrl p := by
  simp only [State.ctrlReady]
  split
  · exact s.ctrl_setCtrl_same _ _
  · rfl

/-! ### The boot state behind an access of memory -/

section
variable (s : State)

@[simp] theorem State.healthTo_boot (b h : Nat) : (s.healthTo b h).boot = s.boot := by
  simp only [State.healthTo]; split <;> rfl
@[simp] theorem State.bucketUp_boot (b : Nat) : (s.bucketUp b).boot = s.boot := by
  simp only [State.bucketUp]; split <;> simp
@[simp] theorem State.regionFailed_boot (b : Nat) : (s.regionFailed b).boot = s.boot := by simp [State.regionFailed]
@[simp] theorem State.setBad_boot (l : Nat) (b : LineBad) : (s.setBad l b).boot = s.boot := rfl
@[simp] theorem State.memUe_boot (c t a m : Nat) (i : Bool) : (s.memUe c t a m i).boot = s.boot := rfl

theorem foldl_boot {α : Type} (f : State → α → State) (h : ∀ s a, (f s a).boot = s.boot) (l : List α) (s : State) :
    (l.foldl f s).boot = s.boot := by
  induction l generalizing s with
  | nil => rfl
  | cons a l ih => rw [List.foldl_cons, ih, h]

@[simp] theorem State.draw_boot (k : Nat) : (s.draw k).2.boot = s.boot := rfl

@[simp] theorem State.dropPages_boot : s.dropPages.boot = s.boot := by
  refine foldl_boot _ (fun s k => ?_) _ s
  split
  · rfl
  · simp only
    split <;> simp
@[simp] theorem State.fenceChan_boot (c k : Nat) : (s.fenceChan c k).boot = s.boot := by
  simp only [State.fenceChan]
  repeat' split
  all_goals simp
@[simp] theorem State.keyHit_boot (a : Nat) : (s.keyHit a).boot = s.boot := by
  simp only [State.keyHit]; split <;> rfl
@[simp] theorem State.hardFault_boot (m b u a : Nat) : (s.hardFault m b u a).boot = s.boot := by
  simp only [State.hardFault]; split <;> simp
@[simp] theorem State.watched_boot (m b u a : Nat) : (s.watched m b u a).boot = s.boot := by
  simp only [State.watched]
  repeat' split
  all_goals simp
@[simp] theorem State.dramCorrected_boot (c a : Nat) : (s.dramCorrected c a).boot = s.boot := by
  simp only [State.dramCorrected]
  repeat' split
  all_goals simp
@[simp] theorem State.dramUncorrectable_boot (c a : Nat) : (s.dramUncorrectable c a).boot = s.boot := by
  simp only [State.dramUncorrectable]; split <;> simp
@[simp] theorem State.wakeChan_boot (c : Nat) : (s.wakeChan c).boot = s.boot := by
  simp only [State.wakeChan]; split <;> rfl
@[simp] theorem State.injectOn_boot (l : Nat) : (s.injectOn l).boot = s.boot := by
  simp only [State.injectOn]; split <;> rfl
@[simp] theorem State.copyLost_boot (c a k : Nat) : (s.copyLost c a k).boot = s.boot := by
  simp only [State.copyLost]; split <;> simp
@[simp] theorem State.fromCopy_boot (o m a pk ck : Nat) (b : LineBad) : (s.fromCopy o m a pk ck b).2.boot = s.boot := by
  simp only [State.fromCopy]
  repeat' split
  all_goals simp
@[simp] theorem State.bothLost_boot (m a pk ck : Nat) (u : Bool) (b : LineBad) : (s.bothLost m a pk ck u b).2.boot = s.boot := by
  simp [State.bothLost]

@[simp] theorem State.dramLine_boot (m a : Nat) (p c : CellErr) (b : Bool) : (s.dramLine m a p c b).2.boot = s.boot := by
  simp only [State.dramLine]
  repeat' split
  all_goals simp

@[simp] theorem State.sramLine_boot (m a : Nat) (p : CellErr) (b : Bool) : (s.sramLine m a p b).2.boot = s.boot := by
  simp only [State.sramLine]
  split
  · rfl
  · split
    · rfl
    · generalize readKind 0 false _ p = q
      split <;> simp

@[simp] theorem State.ledgerLine_boot (m a : Nat) (p : CellErr) (b : Bool) : (s.ledgerLine m a p b).2.boot = s.boot := by
  simp only [State.ledgerLine]
  generalize a - 0xE800000000 = o
  generalize readKind _ false 0 p = q
  split
  · rfl
  · rw [State.watched_boot, State.bucketUp_boot, State.countS_boot]
  · rw [State.memUe_boot, State.keyHit_boot, State.regionFailed_boot, State.countS_boot]

@[simp] theorem State.lineRead_boot (m t a : Nat) (p c : CellErr) (b : Bool) : (s.lineRead m t a p c b).2.boot = s.boot := by
  simp only [State.lineRead]
  repeat' split
  all_goals simp

@[simp] theorem State.lineWrite_boot (m t a : Nat) (bs : List Byte) : (s.lineWrite m t a bs).2.boot = s.boot := by
  have awake : (if t = 0x40 then s.wakeChan (s.chanOf a) else s).boot = s.boot := by split <;> simp
  simp only [State.lineWrite]
  generalize (if t = 0x40 then s.wakeChan (s.chanOf a) else s) = v at awake
  generalize (if t = 0x40 then !bit (s.fld CFG_MEM_INIT_DRAM_DONE) (s.chanOf a) else _ : Bool) = q
  have read := v.lineRead_boot m t a .none .none false
  repeat' split
  all_goals simp_all

@[simp] theorem State.linesWrite_boot (m t a : Nat) (bs : List Byte) (n : Nat) : (s.linesWrite m t a bs n).2.boot = s.boot := by
  induction n generalizing s a bs with
  | zero => rfl
  | succ n ih =>
    simp only [State.linesWrite]
    split
    · rfl
    · have line := s.lineWrite_boot m t a (bs.take (64 - a % 64))
      split
      next u hu =>
        rw [hu] at line
        exact (ih u _ _).trans line
      next => exact line

@[simp] theorem State.slotHold_boot (n m t : Nat) : (s.slotHold n m t).2.boot = s.boot :=
  s.slotHold_onlyChanges n m t .boot (by decide)

@[simp] theorem State.stalled_boot (m t k : Nat) : (s.stalled m t k).boot = s.boot := by
  simp only [State.stalled]
  repeat' split
  all_goals simp

@[simp] theorem State.slotPass_boot (m t n : Nat) : (s.slotPass m t n).2.boot = s.boot := by
  induction n generalizing s with
  | zero => rfl
  | succ n ih =>
    simp only [State.slotPass]
    repeat' split
    all_goals simp [ih]

@[simp] theorem State.denied_boot (r : Req) (t a c : Nat) : (s.denied r t a c).boot = s.boot :=
  s.denied_onlyChanges r t a c .boot (by decide)

@[simp] theorem State.generalWrite_boot (off : Nat) (bs : List Byte) : (s.generalWrite off bs).boot = s.boot := by
  simp only [State.generalWrite]; split <;> rfl

@[simp] theorem State.store_boot (r : Req) (a : Nat) (bs : List Byte) : (s.store r a bs).2.boot = s.boot := by
  simp only [State.store]
  split
  case h_1 =>
    split
    · repeat' split
      all_goals simp
    · have lines := s.linesWrite_boot r.master (((regionOf a).map (fun x => x.1)).getD 0) a bs (lineCount a bs.length)
      split
      next u hu =>
        rw [hu] at lines
        exact (u.slotPass_boot _ _ _).trans lines
      next => exact lines
  all_goals simp

end

end Sys2Proof.Machine
end

section
/-!
SUPPORT. How a reset of kind 4 to 7 begins and ends (R86-R90), and what a controller's register writes do (R83, R337).
-/
namespace Sys2Proof.Machine

/-! ### A controller's register writes -/

theorem bit_eq_bits (n i : Nat) : bit n i = decide (bits n i i = 1) := by
  simp [bit, bits]

theorem bit_setBits_same (n i v : Nat) : bit (setBits n i i v) i = decide (v % 2 = 1) := by
  rw [bit_eq_bits, bits_setBits_same, Nat.add_sub_cancel_left, Nat.pow_one]

/-- Register writes reach a controller through the window of a bound pod that is not QUIESCED (R307, R361). -/
theorem State.windowWrite_open {s : State} {p : Nat} {e : Pod} (he : Tab.look s.pod.pods p = some e) (hb : e.bound = true) (hq : e.state ≠ 4)
    (ws : List (Nat × Nat)) : s.windowWrite p ws = ws.foldl (fun s w => s.ctrlWrite p w) s := by
  simp [State.windowWrite, he, hb, hq]

theorem State.writeCC_enable {s : State} {p v : Nat} (off : bit (s.ctrl p).cc 0 = false) (on : bit v 0 = true) (noShn : bits v 15 14 = 0) :
    s.writeCC p v = s.ctrlEnable p v := by
  simp [State.writeCC, off, on, noShn]

theorem State.writeCC_disable {s : State} {p v : Nat} (on : bit (s.ctrl p).cc 0 = true) (off : bit v 0 = false) :
    s.writeCC p v = s.ctrlReset p v := by
  simp [State.writeCC, off, on]

theorem State.writeCC_shutdown {s : State} {p v : Nat} (was : bit (s.ctrl p).cc 0 = true) (on : bit v 0 = true) (shn : bits v 15 14 ≠ 0)
    (new : bits v 15 14 ≠ bits (s.ctrl p).cc 15 14) :
    s.writeCC p v = (s.setCtrl p { s.ctrl p with cc := v }).shutdown p := by
  simp [State.writeCC, was, on, shn, new]

/-- The host's writes of AQA, ASQ and ACQ before CC (R83). -/
def State.adminPlaces (s : State) (p aqa asq acq : Nat) : State :=
  s.setCtrl p { s.ctrl p with aqa := aqa, asq := asq, acq := acq }

theorem Tab.put_put {β : Type} (t : Tab β) (a : Nat) (v w : β) : Tab.put (Tab.put t a v) a w = Tab.put t a w := by
  induction t with
  | nil => simp [Tab.put]
  | cons x t ih =>
    obtain ⟨k, y⟩ := x
    simp only [Tab.put]
    split
    · simp [Tab.put]
    · split
      · simp [Tab.put]
      · simp [Tab.put, *]

theorem State.setCtrl_setCtrl (s : State) (p : Nat) (c d : Ctrl) : (s.setCtrl p c).setCtrl p d = s.setCtrl p d := by
  simp only [State.setCtrl, Tab.put_put]

theorem State.enableWrites (s : State) (p cc aqa asq acq : Nat) :
    [(0x24, aqa), (0x28, asq), (0x30, acq), (0x14, cc)].foldl (fun s w => s.ctrlWrite p w) s = (s.adminPlaces p aqa asq acq).writeCC p cc := by
  simp [State.ctrlWrite, State.adminPlaces, State.ctrl_setCtrl_same, State.setCtrl_setCtrl]

/-- CC.EN rising sets CC and makes the admin queues from AQA, ASQ and ACQ. -/
theorem State.ctrl_ctrlEnable (s : State) (p v : Nat) :
    ((s.ctrlEnable p v).ctrl p).cc = v
      ∧ Tab.look ((s.ctrlEnable p v).ctrl p).sqs 0 = some ⟨bits (s.ctrl p).aqa 11 0 + 1, (s.ctrl p).asq, 0, 0, 0, 0⟩
      ∧ Tab.look ((s.ctrlEnable p v).ctrl p).cqs 0 = some ⟨bits (s.ctrl p).aqa 27 16 + 1, (s.ctrl p).acq, 0, true, 0, 0, true⟩ := by
  simp only [State.ctrlEnable, State.ctrl_ctrlReady, State.ctrl_setCtrl_same]
  split <;> exact ⟨rfl, Tab.look_put_same _ _ _, Tab.look_put_same _ _ _⟩

/-- In the safe configuration a controller becomes ready at once, unless its reset is still to complete. -/
theorem State.ctrlEnable_safe {s : State} (p v : Nat) (safe : s.safe = true) (free : s.boot.resets.any (fun r => r.pods.contains p) = false) :
    ((s.ctrlEnable p v).ctrl p).rdy = true := by
  have ready : ∀ c : Ctrl, c.enabling = true → (s.setCtrl p c).mayReady p c = true := fun c hc => by
    rw [State.mayReady, hc, show (s.setCtrl p c).boot = s.boot from rfl, free, show (s.setCtrl p c).safe = true from safe]
    rfl
  simp only [State.ctrlEnable, State.ctrl_ctrlReady, State.ctrl_setCtrl_same]
  rw [if_pos (ready _ rfl)]

theorem State.ctrlEnable_onlyChanges (s : State) (p v : Nat) : s.onlyChanges (s.ctrlEnable p v) [.host] :=
  State.onlyChanges_trans (s.setCtrl_onlyChanges _ _) (State.ctrlReady_onlyChanges _ _)

theorem State.shutdown_running {s : State} {p : Nat} (h : (s.ctrl p).shst = 0) :
    s.shutdown p = (s.setCtrl p { s.ctrl p with shst := 1 }).modHost (fun x =>
      { x with flushes := x.flushes ++ [⟨none, p, s.ftl.wnext, s.ftl.recCount, none⟩] }) := by
  simp [State.shutdown, h]

theorem State.shutdown_onlyChanges (s : State) (p : Nat) : s.onlyChanges (s.shutdown p) [.host] :=
  State.onlyChanges_ite _ (s.onlyChanges_refl _) (State.onlyChanges_trans (s.setCtrl_onlyChanges _ _) (State.modHost_onlyChanges _ _))

theorem exec_controllerEnable (p cc aqa asq acq : Nat) (s : State) :
    exec (.controllerEnable p cc aqa asq acq) s
      = (s.fresh.windowWrite p [(0x24, aqa), (0x28, asq), (0x30, acq), (0x14, setBits cc 0 0 1)]).done s := rfl

theorem exec_controllerReset (p cc : Nat) (s : State) :
    exec (.controllerReset p cc) s = (s.fresh.windowWrite p [(0x14, setBits cc 0 0 0)]).done s := rfl

theorem exec_shutdownNotification (p shn : Nat) (s : State) :
    exec (.shutdownNotification p shn) s = (s.fresh.windowWrite p [(0x14, setBits (s.ctrl p).cc 15 14 shn)]).done s := rfl

section
variable {s : State} {p : Nat} {e : Pod} (he : Tab.look s.pod.pods p = some e) (hb : e.bound = true) (hq : e.state ≠ 4)
include he hb hq

theorem controllerEnable_runs {cc : Nat} (aqa asq acq : Nat) (off : bit (s.ctrl p).cc 0 = false) (noShn : bits cc 15 14 = 0) :
    exec (.controllerEnable p cc aqa asq acq) s = ((s.fresh.adminPlaces p aqa asq acq).ctrlEnable p (setBits cc 0 0 1)).done s := by
  rw [exec_controllerEnable, State.windowWrite_open (s := s.fresh) he hb hq, State.enableWrites, State.writeCC_enable]
  · rw [State.adminPlaces, State.ctrl_setCtrl_same]
    exact off
  · rw [bit_setBits_same]
    rfl
  · rw [bits_setBits_above _ _ _ _ _ _ (by decide) (by decide), noShn]

theorem controllerReset_runs (cc : Nat) (on : bit (s.ctrl p).cc 0 = true) :
    exec (.controllerReset p cc) s = (s.fresh.ctrlReset p (setBits cc 0 0 0)).done s := by
  rw [exec_controllerReset, State.windowWrite_open (s := s.fresh) he hb hq]
  exact congrArg (State.done · s) (State.writeCC_disable (s := s.fresh) on (by rw [bit_setBits_same]; rfl))

theorem shutdownNotification_runs {shn : Nat} (on : bit (s.ctrl p).cc 0 = true) (kind : shn = 1 ∨ shn = 2)
    (new : bits (s.ctrl p).cc 15 14 ≠ shn) :
    exec (.shutdownNotification p shn) s
      = ((s.fresh.setCtrl p { s.ctrl p with cc := setBits (s.ctrl p).cc 15 14 shn }).shutdown p).done s := by
  have shown : bits (setBits (s.ctrl p).cc 15 14 shn) 15 14 = shn := by
    rw [bits_setBits_same]
    rcases kind with rfl | rfl <;> rfl
  rw [exec_shutdownNotification, State.windowWrite_open (s := s.fresh) he hb hq]
  refine congrArg (State.done · s) (State.writeCC_shutdown (s := s.fresh) on ?_ ?_ ?_)
  · rw [bit_eq_bits, bits_setBits_below _ _ _ _ _ _ (by decide), ← bit_eq_bits]
    exact on
  · rw [shown]
    omega
  · rw [shown]
    exact fun h => new h.symm

end

/-! ### A reset begins (R86, R89) -/

/-- The reset runs, over those it takes in, and CFG_RESET_CAUSE shows its code. -/
def State.resetBegun (s : State) (kind subject : Nat) (pods : List Nat) : State :=
  let under := fun (r : ResetRun) => s.scopeHolds kind subject r.kind r.subject || (kind ≤ 5 && 6 ≤ r.kind && pods.contains r.subject)
  let sup := s.boot.resets.filter under
  (s.modBoot (fun b => { b with resets := s.boot.resets.filter (fun r => !under r) ++
    [⟨kind, subject, podsOf (pods ++ sup.flatMap ResetRun.pods), s.arrivedWrites pods ++ sup.flatMap ResetRun.writes⟩] })).resetSeen kind

theorem State.resetAsk_begins {s : State} {kind subject : Nat} {pods : List Nat} (k : State → State)
    (free : s.boot.resets.any (fun r =>
      s.scopeHolds r.kind r.subject kind subject || (6 ≤ kind && r.kind ≤ 5 && r.pods.contains subject)) = false)
    (noAct : s.host.fwAct = none) :
    s.resetAsk kind subject pods k = (k (s.resetBegun kind subject pods)).endTest.nsGo := by
  have same : ∀ r l, (State.resetSeen { s with boot := { s.boot with resets := l } } r).fwInterrupted
      = State.resetSeen { s with boot := { s.boot with resets := l } } r := fun r l => by
    have none : (State.resetSeen { s with boot := { s.boot with resets := l } } r).host.fwAct = none := by
      rw [State.resetSeen]
      repeat' split
      all_goals simpa using noAct
    rw [State.fwInterrupted, none]
  rw [State.resetAsk, free]
  simp only [Bool.false_eq_true, if_false, same]
  rfl

theorem State.resetSeen_onlyChanges (s : State) (kind : Nat) : s.onlyChanges (s.resetSeen kind) [.regs] := by
  have seen : ∀ v w, s.onlyChanges ((s.setFld CFG_RESET_CAUSE_SEEN v).setFld CFG_RESET_CAUSE_LAST w) [.regs] := fun v w =>
    State.onlyChanges_trans (s.setFld_onlyChanges _ _ _ _) (State.setFld_onlyChanges _ _ _ _ _)
  rw [State.resetSeen]
  refine State.onlyChanges_ite _ (s.setFld_onlyChanges _ _ _ _) (State.onlyChanges_ite _ (seen _ _) ?_)
  exact State.onlyChanges_trans (seen _ _) (State.countS_onlyChanges _ _ _ _ _ _)

theorem State.resetSeen_regsBut (s : State) (kind : Nat) : s.regsBut (s.resetSeen kind) [CFG_RESET_CAUSE.key 0 0] := by
  have one : ∀ (s : State) v, s.regsBut (s.setFld CFG_RESET_CAUSE_SEEN v) [CFG_RESET_CAUSE.key 0 0] := fun s v => s.setFld_regsBut _ _ _ _
  have two : ∀ (s : State) v, s.regsBut (s.setFld CFG_RESET_CAUSE_LAST v) [CFG_RESET_CAUSE.key 0 0] := fun s v => s.setFld_regsBut _ _ _ _
  rw [State.resetSeen]
  simp only
  repeat' split
  · exact one _ _
  · exact State.regsBut_trans (one _ _) (two _ _)
  · exact State.regsBut_trans (State.regsBut_trans (one _ _) (two _ _)) (State.countS_regsBut _ _ _ _ _ _ rfl)

theorem State.resetBegun_onlyChanges (s : State) (kind subject : Nat) (pods : List Nat) :
    s.onlyChanges (s.resetBegun kind subject pods) [.boot, .regs] :=
  State.onlyChanges_append (s.modBoot_onlyChanges _) (State.resetSeen_onlyChanges _ _)

/-- The reset is among those that run, for all its pods. -/
theorem State.resetBegun_run (s : State) (kind subject : Nat) (pods : List Nat) :
    ∃ r ∈ (s.resetBegun kind subject pods).boot.resets, r.kind = kind ∧ r.subject = subject ∧ ∀ p ∈ pods, p ∈ r.pods := by
  rw [State.resetBegun, State.resetSeen_onlyChanges _ _ .boot (by decide)]
  exact ⟨_, List.mem_append_right _ (List.mem_singleton_self _), rfl, rfl, fun p hp => (mem_podsOf _ _).mpr (List.mem_append_left _ hp)⟩

/-- A controller reset of its own: the pod is reset, CC is without EN, and CSTS.RDY stays till the end (R86, R87). -/
theorem State.ctrlReset_begins {s : State} {p v : Nat}
    (free : s.boot.resets.any (fun r => s.scopeHolds r.kind r.subject 6 p || (r.kind ≤ 5 && r.pods.contains p)) = false)
    (noAct : s.host.fwAct = none) (noTest : p = 0 → s.host.selfTest.run ≠ some 1) :
    s.ctrlReset p v = (((s.resetBegun 6 p [p]).resetPod p true).setCtrl p
      { ((s.resetBegun 6 p [p]).resetPod p true).ctrl p with cc := v, rdy := (s.ctrl p).rdy }).endTest.nsGo := by
  have host : (s.resetBegun 6 p [p]).host = s.host := s.resetBegun_onlyChanges 6 p [p] .host (by decide)
  have test : ¬ (p = 0 ∧ (s.resetBegun 6 p [p]).host.selfTest.run = some 1) := fun h => noTest h.1 (host ▸ h.2)
  have rdy : (s.resetBegun 6 p [p]).ctrl p = s.ctrl p := by rw [State.ctrl, State.ctrl, host]
  rw [State.ctrlReset, State.resetAsk_begins _ (by simpa using free) noAct]
  simp only [if_neg test, rdy]

/-! ### Ports and functions (R82, R84) -/

theorem State.boundTo_congr {s t : State} (h : t.pod = s.pod) (port : Nat) : t.boundTo port = s.boundTo port := by
  rw [State.boundTo, State.boundTo, h]

theorem State.scopeHolds_congr {s t : State} (h : t.pod = s.pod) : t.scopeHolds = s.scopeHolds := by
  have bound : ∀ p, t.portOfPod p = s.portOfPod p := fun p => by rw [State.portOfPod, State.portOfPod, h]
  funext k a l b
  simp only [State.scopeHolds, bound]

theorem State.portReset_begins {s : State} {kind port : Nat} (hk : kind < 6)
    (free : s.boot.resets.any (fun r => s.scopeHolds r.kind r.subject kind port) = false) (noAct : s.host.fwAct = none) :
    s.portReset kind port
      = ((s.boundTo port).foldl (fun x p => x.portPod port (kind - 3) p) (s.resetBegun kind port (s.boundTo port))).endTest.nsGo := by
  rw [State.portReset, State.resetAsk_begins _ _ noAct]
  simpa [show ¬ 6 ≤ kind by omega] using free

theorem State.debugClose_onlyChanges (s : State) : s.onlyChanges s.debugClose [.hsk] :=
  State.onlyChanges_trans (s.hsk_onlyChanges _) (State.hsk_onlyChanges _ _)

theorem State.testDomain_onlyChanges (s : State) : s.onlyChanges s.testDomain [.regs, .evt, .hsk] := by
  have shown : ∀ k v l w, s.onlyChanges ((s.setReg k v).setReg l w) [.regs] := fun k v l w =>
    State.onlyChanges_trans (s.setReg_onlyChanges _ _) (State.setReg_onlyChanges _ _ _)
  rw [State.testDomain]
  refine State.onlyChanges_ite _ (State.onlyChanges_mono (shown _ _ _ _) (by decide)) (State.onlyChanges_ite _ ?_ ?_)
  · exact State.onlyChanges_mono (State.onlyChanges_append (shown _ _ _ _) (State.raise_onlyChanges _ _ _ _)) (by decide)
  · exact State.onlyChanges_mono (State.onlyChanges_append (shown _ _ _ _)
      (State.onlyChanges_append (State.debugClose_onlyChanges _) (State.raise_onlyChanges _ _ _ _))) (by decide)

theorem State.testDomain_regsBut (s : State) : s.regsBut s.testDomain [PWR_DOM_STAT_1.key 0 0, PWR_DOM_REQ_1.key 0 0] := by
  have shown : ∀ v w, s.regsBut ((s.putReg PWR_DOM_STAT_1 v).putReg PWR_DOM_REQ_1 w) [PWR_DOM_STAT_1.key 0 0, PWR_DOM_REQ_1.key 0 0] :=
    fun v w => State.regsBut_append (s.setReg_regsBut _ _) (State.setReg_regsBut _ _ _)
  rw [State.testDomain]
  exact State.regsBut_ite _ (shown _ _) (State.regsBut_ite _ (shown _ _) (shown _ _))

/-- Waivers that end where no program runs under one: their list and their latch change alone (R128). -/
theorem State.endWaivers_quiet {s : State} (p : SgnState → Nat × List Byte → Bool) (plain : s.tsk.progs.all (fun kv => !kv.2.waived) = true) :
    s.endWaivers p = (s.modSgn (fun g => { g with waivers := s.sgn.waivers.filter (fun w => !p s.sgn w) })).setFld SGN_TOKEN_LATCH_WAIVER
      (b2n !(s.sgn.waivers.filter (fun w => !p s.sgn w)).isEmpty) := by
  have idle : ∀ q : Nat × Prog → Bool, (∀ kv, q kv = true → kv.2.waived = true) → s.tsk.progs.filter q = [] := fun q hq => by
    rw [List.filter_eq_nil_iff]
    intro kv hkv hk
    simpa [hq kv hk] using List.all_eq_true.mp plain kv hkv
  simp only [State.endWaivers]
  rw [idle]
  · rfl
  · intro kv hkv
    simp only [Bool.and_eq_true] at hkv
    exact hkv.1.1

theorem State.endWaivers_all {s : State} (plain : s.tsk.progs.all (fun kv => !kv.2.waived) = true) :
    s.endWaivers (fun _ _ => true) = (s.modSgn (fun g => { g with waivers := [] })).setFld SGN_TOKEN_LATCH_WAIVER 0 := by
  rw [State.endWaivers_quiet _ plain]
  simp only [Bool.not_true, List.filter_false, List.isEmpty_nil, b2n]
  rfl

/-- The link of a port is down (R84). -/
def State.linkCleared (s : State) (port : Nat) : State :=
  (((s.setFld HIF_LINK_STAT_STATE 0 port).setFld HIF_LINK_STAT_SPEED 0 port).setFld HIF_LINK_STAT_WIDTH 0 port).setFld HIF_LINK_STAT_FLIT 0 port

/-- The fences of R59 in the domains of a port are lifted (Table 3.17). -/
def State.portFencesLifted (s : State) : State :=
  { s with hsf := { s.hsf with fenced := s.hsf.fenced.filter (fun t => t % 0x80 < 0x0F || 0x11 < t % 0x80) } }

/-- DEBUG and WAIVER of SGN_TOKEN_LATCH are clear, and no waiver is left (R128). -/
def State.latchesCleared (s : State) : State :=
  (((s.setFld SGN_TOKEN_LATCH_DEBUG 0).modSgn (fun g => { g with waivers := [] })).setFld SGN_TOKEN_LATCH_WAIVER 0).testDomain

/-- PERST_N is low on a port. -/
def State.portHeld (s : State) (port : Nat) : State := s.modBoot (fun b => { b with perst := b.perst ++ [port] })

/-- PERST_N falls on a port after MOD_READY: all but the reset itself. -/
def State.portLost (s : State) (port : Nat) : State := ((s.portHeld port).linkCleared port).portFencesLifted.latchesCleared

theorem State.perstAssert_eq (s : State) (port : Nat) : s.perstAssert port =
    if s.boot.perst.contains port then s
    else if !(s.portHeld port).boot.modReady ∨ !(s.portHeld port).portOn port then s.portHeld port
    else ((((s.portHeld port).linkCleared port).portFencesLifted.setFld SGN_TOKEN_LATCH_DEBUG 0).endWaivers
      (fun _ _ => true)).testDomain.portReset 4 port := rfl

theorem State.perstAssert_early {s : State} {port : Nat} (up : s.boot.perst.contains port = false) (early : s.boot.modReady = false) :
    s.perstAssert port = s.portHeld port := by
  rw [State.perstAssert_eq, up, show (s.portHeld port).boot.modReady = false from early]
  rfl

theorem State.perstAssert_down {s : State} {port : Nat} (up : s.boot.perst.contains port = false) (ready : s.boot.modReady = true)
    (on : s.portOn port = true) (plain : s.tsk.progs.all (fun kv => !kv.2.waived) = true) :
    s.perstAssert port = (s.portLost port).portReset 4 port := by
  have plain' : (((s.portHeld port).linkCleared port).portFencesLifted.setFld SGN_TOKEN_LATCH_DEBUG 0).tsk.progs.all
      (fun kv => !kv.2.waived) = true := plain
  rw [State.perstAssert_eq, up, show (s.portHeld port).boot.modReady = true from ready, show (s.portHeld port).portOn port = true from on,
    State.endWaivers_all plain']
  rfl

theorem State.linkCleared_onlyChanges (s : State) (port : Nat) : s.onlyChanges (s.linkCleared port) [.regs] :=
  State.onlyChanges_trans (State.onlyChanges_trans (State.onlyChanges_trans (s.setFld_onlyChanges _ _ _ _) (State.setFld_onlyChanges _ _ _ _ _))
    (State.setFld_onlyChanges _ _ _ _ _)) (State.setFld_onlyChanges _ _ _ _ _)

theorem State.fld_linkCleared (s : State) (port : Nat) : (s.linkCleared port).fld HIF_LINK_STAT_STATE port = 0 := by
  have beside : ∀ (s : State) (f : Field), f.reg = HIF_LINK_STAT → f.hi < 29 ∧ f.lo ≤ f.hi →
      (s.setFld f 0 port).fld HIF_LINK_STAT_STATE port = s.fld HIF_LINK_STAT_STATE port := fun s f hr hf =>
    State.fld_setFld_beside s f HIF_LINK_STAT_STATE 0 port 0 hr.symm (by decide) (.inl hf)
  rw [State.linkCleared, beside _ _ rfl (by decide), beside _ _ rfl (by decide), beside _ _ rfl (by decide),
    State.fld_setFld_same _ _ _ _ _ (by decide)]
  rfl

theorem State.latchesCleared_onlyChanges (s : State) : s.onlyChanges s.latchesCleared [.regs, .sgn, .evt, .hsk] :=
  State.onlyChanges_mono (State.onlyChanges_append (State.onlyChanges_append (s.setFld_onlyChanges _ _ _ _) (State.modSgn_onlyChanges _ _))
    (State.onlyChanges_append (State.setFld_onlyChanges _ _ _ _ _) (State.testDomain_onlyChanges _))) (by decide)

theorem State.latchesCleared_regsBut (s : State) :
    s.regsBut s.latchesCleared [SGN_TOKEN_LATCH.key 0 0, PWR_DOM_STAT_1.key 0 0, PWR_DOM_REQ_1.key 0 0] := by
  have debug := s.setFld_regsBut SGN_TOKEN_LATCH_DEBUG 0 0 0
  have waiver := ((s.setFld SGN_TOKEN_LATCH_DEBUG 0).modSgn (fun g => { g with waivers := [] })).setFld_regsBut SGN_TOKEN_LATCH_WAIVER 0 0 0
  exact State.regsBut_append (State.regsBut_trans debug waiver) (State.testDomain_regsBut _)

theorem State.latchesCleared_waivers (s : State) : s.latchesCleared.sgn.waivers = [] := by
  rw [State.latchesCleared, State.testDomain_onlyChanges _ .sgn (by decide)]
  rfl

theorem State.fld_latchesCleared_debug (s : State) : s.latchesCleared.fld SGN_TOKEN_LATCH_DEBUG = 0 := by
  rw [State.latchesCleared, State.fld_of_regsBut (State.testDomain_regsBut _) _ _ _ (by decide),
    State.fld_setFld_beside _ SGN_TOKEN_LATCH_WAIVER SGN_TOKEN_LATCH_DEBUG 0 0 0 rfl (by decide) (by decide)]
  exact State.fld_setFld_same s SGN_TOKEN_LATCH_DEBUG 0 0 0 (by decide)

/-! ### A reset ends (R87) -/

section
variable (s : State)

@[simp] theorem State.handleFree_boot (h : Nat) : (s.handleFree h).boot = s.boot := by
  simp only [State.handleFree]
  repeat' split
  all_goals rfl
@[simp] theorem State.unloadHandle_boot (h : Nat) (b : Bool) : (s.unloadHandle h b).boot = s.boot := by
  simp only [State.unloadHandle]
  repeat' split
  all_goals simp
@[simp] theorem State.countJobs_boot (p : Nat) : (s.countJobs p).boot = s.boot := by
  simp only [State.countJobs]
  split <;> rfl
@[simp] theorem State.jobEnd_boot (p : Nat) (j : CmpJob) (a b c d e : Nat) : (s.jobEnd p j a b c d e).boot = s.boot := by
  simp only [State.jobEnd]
  split
  · simp
  · rw [State.flagSet_onlyChanges _ _ _ .boot (by decide), State.store_boot, State.store_boot]
@[simp] theorem State.ctxFree_boot (h : Nat) : (s.ctxFree h).boot = s.boot := by
  refine foldl_boot _ (fun s kv => ?_) _ _
  simp only
  split
  · rfl
  · exact (foldl_boot _ (fun s j => s.jobEnd_boot _ _ _ _ _ _ _) _ _).trans (State.countJobs_boot _ _)
@[simp] theorem State.ctxsFree_boot (p : CmpCtx → Bool) : (s.ctxsFree p).boot = s.boot :=
  foldl_boot _ (fun s h => s.ctxFree_boot h) _ _
@[simp] theorem State.modNs_boot (k : Nat) (f : Ns → Ns) : (s.modNs k f).boot = s.boot := rfl
@[simp] theorem State.zeroUnits_boot (a n : Nat) : (s.zeroUnits a n).boot = s.boot := rfl
@[simp] theorem State.ringCleared_boot (p : Nat) : (s.ringCleared p).boot = s.boot := rfl
@[simp] theorem State.imsMove_boot (e : Pod) (a n : Nat) : (s.imsMove e a n).boot = s.boot := rfl
@[simp] theorem State.podGone_boot (p : Nat) : (s.podGone p).boot = s.boot := by
  simp only [State.podGone]
  split
  · simp only [State.ringCleared_boot, State.modHost_boot, State.ctxsFree_boot, State.modTsk_boot]
    rw [foldl_boot _ (fun s h => s.unloadHandle_boot h false), foldl_boot _ (fun s k => s.modNs_boot k _)]
  · rw [foldl_boot _ (fun s x => s.zeroUnits_boot _ _)]
    simp only [State.imsMove_boot, State.ringCleared_boot, State.modHost_boot, State.ctxsFree_boot, State.modTsk_boot]
    rw [foldl_boot _ (fun s h => s.unloadHandle_boot h false), foldl_boot _ (fun s k => s.modNs_boot k _)]
@[simp] theorem State.podEnd_boot (b : PodBy) (p op cause v : Nat) : (s.podEnd b p op cause v).boot = s.boot := by
  have ended : ∀ (u : State) c a d x y, (u.endCmd c a d x y).boot = u.boot := fun u c a d x y =>
    u.endCmd_onlyChanges c a d x y .boot (by decide)
  cases b
  all_goals
    simp only [State.podEnd]
    repeat' split
    all_goals simp [ended]
@[simp] theorem State.ctrlReady_boot (p : Nat) : (s.ctrlReady p).boot = s.boot := s.ctrlReady_onlyChanges p .boot (by decide)
@[simp] theorem State.ctrlReady_evt (p : Nat) : (s.ctrlReady p).evt = s.evt := s.ctrlReady_onlyChanges p .evt (by decide)
@[simp] theorem State.modPod_boot (p : Nat) (f : Pod → Pod) : (s.modPod p f).boot = s.boot := rfl
@[simp] theorem State.modPod_evt (p : Nat) (f : Pod → Pod) : (s.modPod p f).evt = s.evt := rfl

end

/-- A reset runs no more, and SYS_RESET is raised (R94; log entry 172). -/
def State.resetRaised (s : State) (r : ResetRun) : State :=
  (s.modBoot (fun b => { b with resets := b.resets.filter (fun x => x ≠ r) })).raise 7 r.kind [r.subject]

/-- A pod whose reset or removal ends (R353, R362). -/
def State.podResetEnd (s : State) (p : Nat) : State :=
  match Tab.look s.pod.pods p with
  | none => s
  | some e =>
    if e.state = 5 then
      let s := s.modPod p (fun e => { e with state := if e.bound then 2 else 1, by_ := none })
      let s := (s.raisePod 584 5 [p] p).ctrlReady p
      match e.by_ with
      | some b => s.podEnd b p 7 0 0
      | none => s
    else if e.state = 6 then
      let s := (s.podGone p).raisePod 584 6 [p] p
      match e.by_ with
      | some b => s.podEnd b p 8 0 0
      | none => s
    else s

/-- What ends with a port's reset is pod 0's binding; with a narrower one, a controller's wait and a pod's command (R87). -/
def State.resetScopeEnd (s : State) (r : ResetRun) : State :=
  if r.kind ≤ 5 then
    if r.pods.contains 0 then (s.modPod 0 (fun e => { e with bound := true, noPasid := true })).ctrlReady 0 else s
  else
    (if r.kind = 6 then (s.setCtrl r.subject { s.ctrl r.subject with rdy := false }).ctrlReady r.subject else s).podResetEnd r.subject

theorem State.resetEnd_eq (s : State) (r : ResetRun) : s.resetEnd r = ((s.resetRaised r).resetScopeEnd r).podGo.nsGo := rfl

theorem State.podResetEnd_boot (s : State) (p : Nat) : (s.podResetEnd p).boot = s.boot := by
  simp only [State.podResetEnd]
  repeat' split
  all_goals simp

theorem State.resetScopeEnd_boot (s : State) (r : ResetRun) : (s.resetScopeEnd r).boot = s.boot := by
  simp only [State.resetScopeEnd]
  split
  · split <;> simp
  · rw [State.podResetEnd_boot]
    split <;> simp

theorem State.resetScopeEnd_evt (s : State) (r : ResetRun) (wide : r.kind ≤ 5) : (s.resetScopeEnd r).evt = s.evt := by
  rw [State.resetScopeEnd, if_pos wide]
  split <;> simp

theorem exec_resetComplete {s : State} {kind subject : Nat} {r : ResetRun}
    (found : s.boot.resets.find? (fun (r : ResetRun) => r.kind = kind && r.subject = subject && 4 ≤ r.kind) = some r)
    (durable : s.resetDurable r = true) : exec (.resetComplete kind subject) s = (s.fresh.resetEnd r).done s := by
  rw [show exec (.resetComplete kind subject) s = execResetComplete kind subject s from rfl, execResetComplete, found]
  simp only [durable, if_true]

theorem State.resetBegun_perst (s : State) (kind subject : Nat) (pods : List Nat) :
    (s.resetBegun kind subject pods).boot.perst = s.boot.perst := by
  rw [State.resetBegun, State.resetSeen_onlyChanges _ _ .boot (by decide)]
  rfl

theorem State.fld_resetBegun (s : State) (kind subject : Nat) (pods : List Nat) (f : Field) (i : Nat)
    (h : f.reg.key i 0 ≠ CFG_RESET_CAUSE.key 0 0) :
    (s.resetBegun kind subject pods).fld f i = s.fld f i :=
  State.fld_of_regsBut (State.resetSeen_regsBut (s.modBoot _) kind) f i 0 (by simpa using h)

theorem State.portLost_onlyChanges (s : State) (port : Nat) : s.onlyChanges (s.portLost port) [.boot, .regs, .hsf, .sgn, .evt, .hsk] :=
  State.onlyChanges_mono (State.onlyChanges_append (State.onlyChanges_append (State.onlyChanges_append (s.modBoot_onlyChanges _)
    (State.linkCleared_onlyChanges _ port)) (State.hsf_onlyChanges _ _)) (State.latchesCleared_onlyChanges _)) (by decide)

theorem State.portLost_boot (s : State) (port : Nat) : (s.portLost port).boot = (s.portHeld port).boot :=
  State.latchesCleared_onlyChanges _ .boot (by decide)

theorem State.fld_portFencesLifted (s : State) (f : Field) (i j : Nat) : s.portFencesLifted.fld f i j = s.fld f i j :=
  State.fld_congr _ _ rfl rfl f i j

theorem State.fld_portLost_link (s : State) {port : Nat} (h : port < 2) : (s.portLost port).fld HIF_LINK_STAT_STATE port = 0 := by
  have apart : HIF_LINK_STAT_STATE.reg.key port 0 ∉ [SGN_TOKEN_LATCH.key 0 0, PWR_DOM_STAT_1.key 0 0, PWR_DOM_REQ_1.key 0 0] := by
    rcases (by omega : port = 0 ∨ port = 1) with rfl | rfl <;> decide
  rw [State.portLost, State.fld_of_regsBut (State.latchesCleared_regsBut _) _ _ _ apart, State.fld_portFencesLifted]
  exact (s.portHeld port).fld_linkCleared port

theorem State.portLost_fenced (s : State) (port : Nat) :
    (s.portLost port).hsf.fenced = s.hsf.fenced.filter (fun t => t % 0x80 < 0x0F || 0x11 < t % 0x80) := by
  rw [State.portLost, State.latchesCleared_onlyChanges _ .hsf (by decide)]
  rfl

theorem State.portOn_lt {s : State} {port : Nat} (on : s.portOn port = true) : port < 2 := by
  simp only [State.portOn, Bool.or_eq_true, Bool.and_eq_true, decide_eq_true_eq] at on
  omega

/-- The port is released, and its link trains where it may (R82). -/
theorem State.perstRelease_eq (s : State) (port : Nat) : s.perstRelease port =
    (s.modBoot (fun b => { b with perst := b.perst.filter (fun x => x ≠ port) })).startTraining port := rfl

theorem State.startTraining_onlyChanges (s : State) (port : Nat) : s.onlyChanges (s.startTraining port) [.regs] :=
  State.onlyChanges_ite _ (s.setFld_onlyChanges _ _ _ _) (s.onlyChanges_refl _)

theorem State.startTraining_regsBut (s : State) (port : Nat) : s.regsBut (s.startTraining port) [HIF_LINK_STAT.key port 0] :=
  State.regsBut_ite _ (s.setFld_regsBut _ _ _ _) (fun _ _ => rfl)

theorem State.fld_startTraining {s : State} {port : Nat} (ready : s.boot.modReady = true) (on : s.portOn port = true)
    (up : s.boot.perst.contains port = false) (down : s.fld HIF_LINK_STAT_STATE port = 0) :
    (s.startTraining port).fld HIF_LINK_STAT_STATE port = 1 := by
  rw [State.startTraining, if_pos ⟨ready, on, by rw [up]; rfl, down⟩, State.fld_setFld_same _ _ _ _ _ (by decide)]
  rfl

theorem exec_perstDeassert (port : Nat) (s : State) : exec (.perstDeassert port) s = (s.fresh.perstRelease port).done s := rfl

theorem exec_perstAssert {s : State} {port : Nat} (up : s.boot.perst.contains port = false) (ready : s.boot.modReady = true)
    (on : s.portOn port = true) (plain : s.tsk.progs.all (fun kv => !kv.2.waived) = true) :
    exec (.perstAssert port) s = ((s.fresh.portLost port).portReset 4 port).podGo.done s :=
  congrArg (fun x => State.done (State.podGo x) s) (State.perstAssert_down (s := s.fresh) up ready on plain)

theorem exec_functionLevelReset {s : State} {port : Nat} (on : s.portOn port = true) (ready : s.boot.modReady = true) :
    exec (.functionLevelReset port) s = (s.fresh.portReset 5 port).podGo.done s := by
  rw [show exec (.functionLevelReset port) s = execFunctionLevelReset port s from rfl, execFunctionLevelReset, if_pos ⟨on, ready⟩]

/-- Settles O5: each command is one write, or one reset that begins or ends, over the state it finds. -/
theorem controllerAndPortResetsComplete : Obligations.ControllerAndPortResetsComplete := by
  unfold Obligations.ControllerAndPortResetsComplete
  refine ⟨?enable, ?reset, ?shutdown, ?perst, ?perstEarly, ?release, ?flr, ?complete⟩
  case enable =>
    intro s p cc aqa asq acq e he hb hq off noShn _
    refine completes_of_done (controllerEnable_runs he hb hq aqa asq acq off noShn) ?_
    obtain ⟨hcc, hsq, hcq⟩ := (s.fresh.adminPlaces p aqa asq acq).ctrl_ctrlEnable p (setBits cc 0 0 1)
    rw [State.adminPlaces, State.ctrl_setCtrl_same] at hsq hcq
    refine ⟨hcc, hsq, hcq, fun safe free => State.ctrlEnable_safe p _ safe free, ?_⟩
    exact State.onlyChanges_of_fresh (State.onlyChanges_trans (State.setCtrl_onlyChanges _ _ _) (State.ctrlEnable_onlyChanges _ _ _))
  case reset =>
    intro s p cc e he hb hq on free noAct noTest
    refine completes_of_done (controllerReset_runs he hb hq cc on)
      ⟨_, s.fresh.resetBegun 6 p [p], State.ctrlReset_begins (s := s.fresh) free noAct noTest, rfl, ?_, ?_⟩
    · obtain ⟨r, hr, hk, hsub, hpods⟩ := s.fresh.resetBegun_run 6 p [p]
      exact ⟨r, hr, hk, hsub, hpods p (List.mem_singleton_self _)⟩
    · exact State.onlyChanges_of_fresh (State.resetBegun_onlyChanges _ _ _ _)
  case shutdown =>
    intro s p shn e he hb hq on run kind new
    refine completes_of_done (shutdownNotification_runs he hb hq on kind new) ?_
    rw [State.shutdown_running (by rw [State.ctrl_setCtrl_same]; exact run)]
    refine ⟨congrArg Ctrl.shst (State.ctrl_setCtrl_same _ _ _), rfl, ?_⟩
    rw [← State.shutdown_running (by rw [State.ctrl_setCtrl_same]; exact run)]
    exact State.onlyChanges_of_fresh (State.onlyChanges_trans (State.setCtrl_onlyChanges _ _ _) (State.shutdown_onlyChanges _ _))
  case perst =>
    intro s port up ready on free noAct plain
    have pods : (s.fresh.portLost port).pod = s.pod := s.fresh.portLost_onlyChanges port .pod (by decide)
    have begins := State.portReset_begins (s := s.fresh.portLost port) (kind := 4) (port := port) (by decide)
      (by rw [State.scopeHolds_congr pods, State.portLost_boot]; exact free)
      (by rw [s.fresh.portLost_onlyChanges port .host (by decide)]; exact noAct)
    rw [State.boundTo_congr pods] at begins
    have frame := State.onlyChanges_append (s.fresh.portLost_onlyChanges port)
      (State.resetBegun_onlyChanges (s.fresh.portLost port) 4 port (s.boundTo port))
    refine completes_of_done (exec_perstAssert up ready on plain) ⟨_, congrArg State.podGo begins, ?held, ?link, ?debug, ?waivers, ?fences,
      State.resetBegun_run _ _ _ _, State.onlyChanges_mono (State.onlyChanges_of_fresh frame) (by decide)⟩
    case held =>
      rw [State.resetBegun_perst, State.portLost_boot]
      exact List.mem_append_right _ (List.mem_singleton_self _)
    case link =>
      have two : port < 2 := State.portOn_lt on
      rw [State.fld_resetBegun _ _ _ _ _ _ (by rcases (by omega : port = 0 ∨ port = 1) with rfl | rfl <;> decide)]
      exact s.fresh.fld_portLost_link two
    case debug =>
      rw [State.fld_resetBegun _ _ _ _ _ _ (by decide)]
      exact State.fld_latchesCleared_debug _
    case waivers =>
      rw [State.resetBegun_onlyChanges _ _ _ _ .sgn (by decide)]
      exact State.latchesCleared_waivers _
    case fences =>
      intro k
      rw [State.resetBegun_onlyChanges _ _ _ _ .hsf (by decide), State.portLost_fenced, List.mem_filter, Bool.or_eq_true, decide_eq_true_eq,
        decide_eq_true_eq]
      rfl
  case perstEarly =>
    intro s port up early
    refine completes_of_done (t := (s.fresh.portHeld port).podGo) ?_ ⟨_, rfl, rfl, State.onlyChanges_of_fresh (State.modBoot_onlyChanges _ _)⟩
    exact congrArg (fun x => State.done (State.podGo x) s) (State.perstAssert_early (s := s.fresh) up early)
  case release =>
    intro s port
    have boot := State.startTraining_onlyChanges (s.fresh.modBoot (fun b => { b with perst := b.perst.filter (fun x => x ≠ port) })) port
      .boot (by decide)
    refine completes_of_done (exec_perstDeassert port s) ⟨?_, fun ready on down => ?_, ?_, ?_⟩
    all_goals rw [State.perstRelease_eq]
    · rw [boot]
      rfl
    · exact State.fld_startTraining ready on (by simp [State.modBoot]) down
    · exact fun k hk => State.startTraining_regsBut _ _ k hk
    · exact State.onlyChanges_of_fresh (State.onlyChanges_append (State.modBoot_onlyChanges _ _) (State.startTraining_onlyChanges _ _))
  case flr =>
    intro s port on ready free noAct
    have begins := State.portReset_begins (s := s.fresh) (kind := 5) (port := port) (by decide) free noAct
    refine completes_of_done (exec_functionLevelReset on ready) ⟨_, congrArg State.podGo begins, State.resetBegun_run _ _ _ _, ?_⟩
    exact State.onlyChanges_of_fresh (State.resetBegun_onlyChanges _ _ _ _)
  case complete =>
    intro s kind subject r found durable
    refine completes_of_done (exec_resetComplete found durable) ?_
    have picked := List.find?_some found
    simp only [Bool.and_eq_true, decide_eq_true_eq] at picked
    obtain ⟨⟨hkind, hsubject⟩, -⟩ := picked
    subst hkind hsubject
    refine ⟨_, s.fresh.resetEnd_eq r, ?_, fun wide => ?_⟩
    · rw [State.resetScopeEnd_boot]
      rfl
    · rw [State.resetScopeEnd_evt _ _ wide]
      rfl

end Sys2Proof.Machine
end

section
/-!
SUPPORT. What the resets of the whole device leave (R84, R85, Table 3.17), and how firmware is chosen at the start (R80).
-/
namespace Sys2Proof.Machine

/-! ### Frames of a device-wide reset -/

theorem State.modPwr_onlyChanges (s : State) (f : PwrState → PwrState) : s.onlyChanges (s.modPwr f) [.pwr] := by
  intro p hp
  cases p
  case pwr => exact absurd (List.mem_singleton_self _) hp
  all_goals rfl

theorem State.regs_onlyChanges (s : State) (x : Tab Word) : s.onlyChanges { s with regs := x } [.regs] := by
  intro p hp
  cases p
  case regs => exact absurd (List.mem_singleton_self _) hp
  all_goals rfl

theorem State.bootRegs_onlyChanges (s : State) (kind : Nat) : s.onlyChanges (s.bootRegs kind) [.regs] := by
  have phase : s.onlyChanges (if kind = 3 then s.setFld CFG_BOOT_STAT_PHASE 0 else s.putReg CFG_BOOT_STAT 0) [.regs] :=
    State.onlyChanges_ite _ (s.setFld_onlyChanges _ _ _ _) (s.setReg_onlyChanges _ _)
  have filled : ∀ u : State, u.onlyChanges
      (((u.setFld CFG_MEM_INIT_SRAM_DONE 0).setFld CFG_MEM_INIT_DRAM_DONE 0).setFld CFG_MEM_INIT_PROGRESS 0) [.regs] := fun u =>
    State.onlyChanges_trans (State.onlyChanges_trans (u.setFld_onlyChanges _ _ _ _) (State.setFld_onlyChanges _ _ _ _ _))
      (State.setFld_onlyChanges _ _ _ _ _)
  exact State.onlyChanges_ite _ (State.onlyChanges_trans phase (filled _))
    (State.onlyChanges_trans (State.onlyChanges_trans phase (filled _)) (State.putPair_onlyChanges _ _ _ _ _ _))

theorem State.domsReset_onlyChanges (s : State) (kind : Nat) : s.onlyChanges (s.domsReset kind) [.pwr, .regs, .evt] := by
  have shown : ∀ (a b c d : Nat), s.onlyChanges (((((s.modPwr (fun w => { w with upping := [], isolating := [] })).putReg PWR_DOM_REQ_0 a).putReg
      PWR_DOM_STAT_0 b).putReg PWR_DOM_REQ_1 c).putReg PWR_DOM_STAT_1 d) [.pwr, .regs, .evt] := fun a b c d =>
    State.onlyChanges_mono (State.onlyChanges_append (s.modPwr_onlyChanges _) (State.onlyChanges_trans (State.onlyChanges_trans
      (State.onlyChanges_trans (State.setReg_onlyChanges _ _ a) (State.setReg_onlyChanges _ _ b)) (State.setReg_onlyChanges _ _ c))
      (State.setReg_onlyChanges _ _ d))) (by decide)
  have stopped := State.foldl_onlyChanges (fun (s : State) c => s.setFld CLE_STAT_STATE 0 (c + 1)) (fun s c => s.setFld_onlyChanges _ _ _ _)
    (List.range 8)
  have off := State.foldl_onlyChanges (fun (s : State) d => s.raise 101 2 [d]) (fun s d => s.raise_onlyChanges _ _ _)
  have low := fun a b c d => State.onlyChanges_then (shown a b c d) (stopped _) (by decide)
  exact State.onlyChanges_ite _ (State.onlyChanges_then (low _ _ _ _) (off _ _) (by decide)) (low _ _ _ _)

/-! ### What a device-wide reset leaves -/

/-- What an NSSR or a watchdog reset leaves of the units of its scope (Table 3.17), with the SYS_RESET it raises. -/
structure State.ScopeCleared (u : State) (kind : Nat) : Prop where
  mem : u.mem = []
  pod : u.pod = State.reset.pod
  tsk : u.tsk = State.reset.tsk
  flash : u.flash = { State.reset.flash with patrolAt := u.time, dayAt := u.time }
  armed : u.hsk.armed = false
  modReady : u.boot.modReady = false
  fwRunning : u.boot.fwRunning = false
  trip : u.pwr.trip = 0
  event : ∃ e ∈ u.evt.inbox, e.number = 7 ∧ e.cause = kind

/-- The units of the scope, the start-up state, the domains and the power unit. -/
def State.scopeReset (s : State) (kind : Nat) : State := ((s.unitsCleared.bootCleared kind).domsReset kind).pwrCleared

/-- The registers after the reset, and the event that reports it. -/
def State.resetReported (s : State) (kind : Nat) : State := (State.bootRegs { s with regs := s.regsAfter kind } kind).raise 7 kind []

theorem State.deviceReset_eq (s : State) (kind : Nat) : ∃ w : State, s.deviceReset kind = (w.scopeReset kind).resetReported kind := ⟨_, rfl⟩

theorem State.scopeReset_onlyChanges (s : State) (kind : Nat) :
    (s.unitsCleared.bootCleared kind).onlyChanges (s.scopeReset kind) [.pwr, .regs, .evt] :=
  State.onlyChanges_then (State.domsReset_onlyChanges _ _) (State.modPwr_onlyChanges _ _) (by decide)

theorem State.resetReported_onlyChanges (s : State) (kind : Nat) : s.onlyChanges (s.resetReported kind) [.regs, .evt] :=
  State.onlyChanges_append (State.onlyChanges_trans (s.regs_onlyChanges _) (State.bootRegs_onlyChanges _ _)) (State.raise_onlyChanges _ _ _ _)

theorem State.bootCleared_boot (s : State) (kind : Nat) :
    (s.bootCleared kind).boot.modReady = false ∧ (s.bootCleared kind).boot.fwRunning = false := by
  rw [State.bootCleared]
  split <;> exact ⟨rfl, rfl⟩

theorem State.deviceReset_clears (s : State) (kind : Nat) : (s.deviceReset kind).ScopeCleared kind := by
  obtain ⟨w, h⟩ := s.deviceReset_eq kind
  have frame := State.onlyChanges_append (w.scopeReset_onlyChanges kind) (State.resetReported_onlyChanges (w.scopeReset kind) kind)
  have boot : ((w.scopeReset kind).resetReported kind).boot = (w.unitsCleared.bootCleared kind).boot := frame .boot (by decide)
  have flash : ((w.scopeReset kind).resetReported kind).flash = (w.unitsCleared.bootCleared kind).flash := frame .flash (by decide)
  have time : ((w.scopeReset kind).resetReported kind).time = (w.unitsCleared.bootCleared kind).time := frame .time (by decide)
  have hsk : ((w.scopeReset kind).resetReported kind).hsk = (w.unitsCleared.bootCleared kind).hsk := frame .hsk (by decide)
  have pwr : ((w.scopeReset kind).resetReported kind).pwr = (w.scopeReset kind).pwr :=
    State.resetReported_onlyChanges _ kind .pwr (by decide)
  obtain ⟨modReady, fwRunning⟩ := w.unitsCleared.bootCleared_boot kind
  rw [h]
  exact {
    mem := frame .mem (by decide)
    pod := frame .pod (by decide)
    tsk := frame .tsk (by decide)
    flash := by rw [flash, time]; rfl
    armed := by rw [hsk]; rfl
    modReady := by rw [boot, modReady]
    fwRunning := by rw [boot, fwRunning]
    trip := by rw [pwr]; rfl
    event := ⟨_, List.mem_append_right _ (List.mem_singleton_self _), rfl, rfl⟩ }

/-- What a cold reset leaves under the sampled straps, before it is reported (Table 3.17). -/
structure State.ColdCleared (u : State) (pins : Pins) : Prop where
  time : u.time = 0
  mem : u.mem = []
  pod : u.pod = State.reset.pod
  tsk : u.tsk = State.reset.tsk
  pins : u.boot.pins = pins
  modReady : u.boot.modReady = false

theorem State.coldReset_eq (s : State) (pins : Pins) (v : Nat) :
    ∃ (w : State) (n : Nat), w.ColdCleared pins ∧ s.coldReset pins v = ((w.nextPeriod n).resetSeen 1).raise 7 1 [] := by
  refine ⟨_, _, ?_, rfl⟩
  exact ⟨rfl, rfl, rfl, rfl, rfl, rfl⟩

theorem State.coldReset_clears (s : State) (pins : Pins) (v : Nat) : (s.coldReset pins v).ColdCleared pins := by
  obtain ⟨w, n, cleared, h⟩ := s.coldReset_eq pins v
  have frame : w.onlyChanges (((w.nextPeriod n).resetSeen 1).raise 7 1 []) [.nv, .regs, .evt] :=
    State.onlyChanges_mono (State.onlyChanges_append (State.onlyChanges_append (w.nv_onlyChanges _) (State.resetSeen_onlyChanges _ _))
      (State.raise_onlyChanges _ _ _ _)) (by decide)
  have boot : (((w.nextPeriod n).resetSeen 1).raise 7 1 []).boot = w.boot := frame .boot (by decide)
  rw [h]
  exact {
    time := (frame .time (by decide)).trans cleared.time
    mem := (frame .mem (by decide)).trans cleared.mem
    pod := (frame .pod (by decide)).trans cleared.pod
    tsk := (frame .tsk (by decide)).trans cleared.tsk
    pins := by rw [boot, cleared.pins]
    modReady := by rw [boot, cleared.modReady] }

/-! ### The commands of a start -/

theorem exec_coldStart {s : State} (pins : Pins) (a b : NorRead) (v : Nat) (ready : s.pwr.ready = true) :
    exec (.coldStart pins a b v) s = (s.fresh.coldStart pins a b v).done s :=
  congrArg (State.done · s) (if_pos (c := s.fresh.pwr.ready = true) ready)

theorem exec_powerReturnRestart {s : State} (vin : Nat) (pins : Pins) (a b : NorRead) (v : Nat) (off : s.pwr.fail = 2) :
    exec (.powerReturnRestart vin pins a b v) s
      = ((State.drain drainFuel ((s.fresh.notBefore (s.since .off + 100000000)).raise 96 4 [vin])).coldStart pins a b v).done s :=
  congrArg (State.done · s) (if_pos (c := s.fresh.pwr.fail = 2) off)

theorem State.nssr_alive {s : State} (a b : NorRead) (h : s.alive = true) :
    s.nssr a b = (((s.deviceReset 2).nsGo).domStart 1).start false a b := if_pos h

theorem exec_nssrWrite {s : State} {e : Pod} (a b : NorRead) (he : Tab.look s.pod.pods 0 = some e) (hb : e.bound = true) :
    exec (.nssrWrite 0x4E564D65 a b) s = (s.fresh.nssr a b).done s := by
  rw [show exec (.nssrWrite 0x4E564D65 a b) s = execNssrWrite 0x4E564D65 a b s from rfl]
  simp only [execNssrWrite, State.fresh_pod, he, hb, and_self, if_true]

theorem exec_thermalRestart {s : State} {at_ : Nat} (a b : NorRead) (trip : s.pwr.trip = 2) (cool : s.pwr.coolSince = some at_) :
    exec (.thermalRestart a b) s = ((s.fresh.notBefore (at_ + 10000000000)).nssr a b).done s := by
  rw [show exec (.thermalRestart a b) s = execThermalRestart a b s from rfl]
  simp only [execThermalRestart, State.fresh_pwr, trip, cool, if_true]

theorem exec_watchdogExpiry {s : State} {k : Nat} (armed : s.hsk.armed = true) (runs : s.suspended (k % 2) = false) :
    exec (.watchdogExpiry k) s
      = ((s.fresh.notBefore ((s.pairOf (k % 2)).beatAt + s.hbLimit * 1000000)).expire (k % 2)).watchdogReset.done s := by
  refine congrArg (State.done · s) (if_pos (c := s.fresh.hsk.armed = true ∧ (!s.fresh.suspended (k % 2)) = true) ⟨armed, ?_⟩)
  rw [show s.fresh.suspended (k % 2) = false from runs]
  rfl

/-! ### Firmware at the start (R80) -/

/-- Step 9 of the start is under way. -/
def State.step9Begun (s : State) : State := s.modBoot (fun b => { b with booted := true })

theorem exec_firmwareBoot {s : State} (ra rp : NorRead) (alive : s.alive = true) (trip : s.pwr.trip = 0) (ready : s.boot.modReady = true)
    (first : s.boot.booted = false) : exec (.firmwareBoot ra rp) s = (s.fresh.step9 ra rp).done s := by
  refine congrArg (State.done · s)
    (if_pos (c := s.fresh.alive = true ∧ s.fresh.pwr.trip = 0 ∧ s.fresh.boot.modReady = true ∧ (!s.fresh.boot.booted) = true)
      ⟨alive, trip, ready, ?_⟩)
  rw [show s.fresh.boot.booted = false from first]
  rfl

/-- The order in which the slots are tried: FW_PREVIOUS first once EXPIRIES has reached FALLBACK (R447). -/
def State.slotOrder (s : State) (ra rp : NorRead) : List (FwWord × Bool × NorRead) :=
  if s.fld HSK_HB_CFG_FALLBACK ≤ s.fld HSK_HB_STAT_EXPIRIES then [(s.nv.fwPrev, true, rp), (s.nv.fwActive, false, ra)]
  else [(s.nv.fwActive, false, ra), (s.nv.fwPrev, true, rp)]

/-- What follows the trial of the slots (R80, R115). -/
def State.step9End (s : State) (found : Option (FwWord × Bool × FwInfo)) : State :=
  match found with
  | none => (if s.safe then s else s.enterSafe 7).bootAppend []
  | some x =>
    let full := decide (s.archiveCap ≤ s.nv.archCount) || s.nv.fullEpoch == some s.nv.epoch
    if s.safe then s.bootAppend [bootFwRecord x false]
    else if full then (s.bootAppend [bootFwRecord x false]).enterSafe 6
    else (s.fwTake x.1 x.2.2).bootAppend [bootFwRecord x true]

theorem State.step9_eq (s : State) (ra rp : NorRead) : s.step9 ra rp =
    State.step9End (s.step9Begun.trySlots (s.slotOrder ra rp)).2 (s.step9Begun.trySlots (s.slotOrder ra rp)).1 := rfl

theorem State.trySlots_unnamed (s : State) {l : List (FwWord × Bool × NorRead)} (h : ∀ x ∈ l, x.1.slot = 0) : s.trySlots l = (none, s) := by
  induction l with
  | nil => rfl
  | cons x l ih =>
    obtain ⟨f, p, r⟩ := x
    rw [State.trySlots, if_pos (h _ List.mem_cons_self), ih fun y hy => h y (List.mem_cons_of_mem _ hy)]

theorem State.slotOrder_unnamed {s : State} (ra rp : NorRead) (act : s.nv.fwActive.slot = 0) (prev : s.nv.fwPrev.slot = 0) :
    ∀ x ∈ s.slotOrder ra rp, x.1.slot = 0 := by
  rw [State.slotOrder]
  split <;> simp [act, prev]

/-- With neither firmware word naming a slot the start ends in the safe configuration. -/
theorem State.step9_unnamed {s : State} (ra rp : NorRead) (normal : s.safe = false) (act : s.nv.fwActive.slot = 0)
    (prev : s.nv.fwPrev.slot = 0) : s.step9 ra rp = (s.step9Begun.enterSafe 7).bootAppend [] := by
  rw [State.step9_eq, State.trySlots_unnamed _ (State.slotOrder_unnamed ra rp act prev), State.step9End,
    show s.step9Begun.safe = false from normal]
  rfl

/-- With a slot that verifies, and room in the archive, its firmware is taken. -/
theorem State.step9_found {s u : State} {ra rp : NorRead} {x : FwWord × Bool × FwInfo}
    (fresh : s.fld HSK_HB_STAT_EXPIRIES < s.fld HSK_HB_CFG_FALLBACK)
    (found : s.step9Begun.trySlots [(s.nv.fwActive, false, ra), (s.nv.fwPrev, true, rp)] = (some x, u)) (normal : u.safe = false)
    (room : u.nv.archCount < u.archiveCap) (open_ : u.nv.fullEpoch ≠ some u.nv.epoch) :
    s.step9 ra rp = (u.fwTake x.1 x.2.2).bootAppend [bootFwRecord x true] := by
  have order : s.slotOrder ra rp = [(s.nv.fwActive, false, ra), (s.nv.fwPrev, true, rp)] := if_neg (by omega)
  rw [State.step9_eq, order, found, State.step9End]
  simp [normal, Nat.not_le.mpr room, open_]

/-- Firmware of a slot is in force, and the watchdog armed, from the time it is taken. -/
theorem State.fwTake_takes (s : State) (f : FwWord) (i : FwInfo) :
    (s.fwTake f i).boot.fwSlot = f.slot ∧ (s.fwTake f i).boot.fwSvn = i.svn ∧ (s.fwTake f i).boot.fwDigest = i.digest
      ∧ (s.fwTake f i).ldg.bootedSvn = i.svn ∧ (s.fwTake f i).hsk.armed = true := by
  have reports := State.foldl_onlyChanges (fun (s : State) c => s.raise 8 c [f.slot]) (fun s c => s.raise_onlyChanges 8 c [f.slot])
  rw [State.fwTake]
  rw [reports _ _ .boot (by decide), reports _ _ .ldg (by decide), reports _ _ .hsk (by decide)]
  exact ⟨rfl, rfl, rfl, rfl, rfl⟩

/-- Settles O4: each start and reset is its clearing of the scope, and then the ROM's steps. -/
theorem startsAndDeviceResetsComplete : Obligations.StartsAndDeviceResetsComplete := by
  unfold Obligations.StartsAndDeviceResetsComplete
  refine ⟨?cold, ?powerReturn, ?nssr, ?thermal, ?watchdog, ?unnamed, ?found⟩
  case cold =>
    intro s pins a b v ready
    have u := s.fresh.coldReset_clears pins v
    refine completes_of_done (exec_coldStart pins a b v ready) ⟨_, rfl, u.time, u.mem, u.pod, u.tsk, u.pins, u.modReady, ?_, ?_⟩
    · exact fun high => if_pos high
    · exact fun low => if_neg (by rw [low]; decide)
  case powerReturn =>
    intro s vin v pins a b off
    exact completes_of_done (exec_powerReturnRestart vin pins a b v off) rfl
  case nssr =>
    intro s a b e alive he hb
    have u := s.fresh.deviceReset_clears 2
    refine completes_of_done (exec_nssrWrite a b he hb) ⟨_, State.nssr_alive (s := s.fresh) a b alive, u.mem, u.pod, u.tsk, u.flash, u.modReady,
      u.fwRunning, u.event⟩
  case thermal =>
    intro s a b at_ alive trip cool
    have u := (s.fresh.notBefore (at_ + 10000000000)).deviceReset_clears 2
    exact completes_of_done (exec_thermalRestart a b trip cool)
      ⟨_, State.nssr_alive (s := s.fresh.notBefore (at_ + 10000000000)) a b alive, u.mem, u.pod, u.tsk, u.trip, u.modReady⟩
  case watchdog =>
    intro s k armed runs
    have u := ((s.fresh.notBefore ((s.pairOf (k % 2)).beatAt + s.hbLimit * 1000000)).expire (k % 2)).deviceReset_clears 3
    exact completes_of_done (exec_watchdogExpiry armed runs) ⟨_, rfl, u.mem, u.pod, u.tsk, u.armed, u.fwRunning, u.event⟩
  case unnamed =>
    intro s ra rp alive trip ready first normal act prev
    exact completes_of_done (exec_firmwareBoot ra rp alive trip ready first)
      ⟨_, State.step9_unnamed (s := s.fresh) ra rp normal act prev, rfl, State.onlyChanges_of_fresh (State.modBoot_onlyChanges _ _)⟩
  case found =>
    intro s ra rp x u alive trip ready first fresh found normal room open_
    obtain ⟨slot, svn, digest, booted, armed⟩ := u.fwTake_takes x.1 x.2.2
    exact completes_of_done (exec_firmwareBoot ra rp alive trip ready first)
      ⟨_, State.step9_found (s := s.fresh) fresh found normal room open_, slot, svn, digest, booted, armed⟩

end Sys2Proof.Machine
end

section
/-!
SUPPORT. The DRAM channels' own work (chapter 12): which fields a change of a channel leaves, what a fence, a fill and a burst reach.
-/
namespace Sys2Proof.Machine

/-! ### Fields of other registers and of the same one -/

/-- A register whose instances lie whole pages of 4 KiB apart: its offset in the page names it. -/
def RegId.paged (r : RegId) : Bool := r.s1 % 0x1000 = 0

theorem RegId.key_page {r : RegId} (h : r.paged = true) (i : Nat) : r.key i 0 % 0x1000 = r.off % 0x1000 := by
  obtain ⟨q, hq⟩ := Nat.dvd_of_mod_eq_zero (of_decide_eq_true h)
  rw [RegId.key, hq, Nat.mul_assoc]
  generalize q * i = n
  omega

/-- A field of a register at another place of the page is left alone, whatever the instances. -/
theorem State.fld_setFld_off (s : State) (f g : Field) (v i k : Nat)
    (h : f.reg.paged = true ∧ g.reg.paged = true ∧ f.reg.off % 0x1000 ≠ g.reg.off % 0x1000) : (s.setFld f v i).fld g k = s.fld g k := by
  refine State.fld_setFld_other s f g v i 0 k 0 fun e => h.2.2 ?_
  rw [← RegId.key_page h.1 i, ← RegId.key_page h.2.1 k, e]

/-- A field at other bits of its register is left alone, whatever the instances. -/
theorem State.fld_setFld_bits (s : State) (f g : Field) (v i k : Nat)
    (h : g.reg = f.reg ∧ g.hi < 32 ∧ (f.hi < g.lo ∧ f.lo ≤ f.hi ∨ g.hi < f.lo)) : (s.setFld f v i).fld g k = s.fld g k := by
  obtain ⟨hr, hg, apart⟩ := h
  by_cases same : g.reg.key k 0 = f.reg.key i 0
  · have here : ∀ t : State, t.fld g k = t.fld g i := fun t => by
      rw [State.fld, State.fld, State.reg, State.reg, same, hr]
    rw [here, here, State.fld_setFld_beside s f g v i 0 hr hg apart]
  · exact State.fld_setFld_other s f g v i 0 k 0 same

theorem State.phaseTo_onlyChanges (s : State) (n : Nat) : s.onlyChanges (s.phaseTo n) [.regs] :=
  State.onlyChanges_ite _ (s.setFld_onlyChanges _ _ _ _) (s.onlyChanges_refl _)

theorem State.phaseTo_regsBut (s : State) (n : Nat) : s.regsBut (s.phaseTo n) [CFG_BOOT_STAT.key 0 0] :=
  State.regsBut_ite _ (s.setFld_regsBut _ _ _ _) (fun _ _ => rfl)

theorem State.fld_phaseTo_off (s : State) (n : Nat) (g : Field) (k : Nat) (h : g.reg.paged = true ∧ g.reg.off % 0x1000 ≠ 0x10) :
    (s.phaseTo n).fld g k = s.fld g k := by
  rw [State.phaseTo]
  split
  · exact State.fld_setFld_off _ _ _ _ _ _ ⟨by decide, h.1, fun e => h.2 e.symm⟩
  · rfl

theorem State.modDram_onlyChanges (s : State) (f : MemState → MemState) : s.onlyChanges (s.modDram f) [.dram] := s.dram_onlyChanges _

/-! ### A fence (R387) -/

theorem State.draw_onlyChanges (s : State) (n : Nat) : s.onlyChanges (s.draw n).2 [.freeCtr] := by
  intro p hp
  cases p
  case freeCtr => exact absurd (List.mem_singleton_self _) hp
  all_goals rfl

theorem State.dropPages_onlyChanges (s : State) : s.onlyChanges s.dropPages [.freeCtr, .ftl] := by
  refine State.foldl_onlyChanges _ (fun s k => ?_) _ s
  have drawn : s.onlyChanges (s.draw 2).2 [.freeCtr, .ftl] := State.onlyChanges_mono (s.draw_onlyChanges 2) (by decide)
  exact State.onlyChanges_ite _ (s.onlyChanges_refl _) (State.onlyChanges_ite _ drawn
    (State.onlyChanges_then drawn (State.modFtl_onlyChanges _ (fun f => { f with unheld := f.unheld ++ [k] })) (by decide)))

/-- What a fence does to the channel itself. -/
def State.fenceSet (s : State) (c cause : Nat) : State :=
  (((s.setFld DRC_FENCE_CFG_FENCED (s.fld DRC_FENCE_CFG_FENCED + 2 ^ c)).setFld DRC_CH_STAT_STATE 5 c).raise 166 cause [c])

/-- What a fence does to the channels that hold copies (R387). -/
def State.fenceCopies (s : State) (c : Nat) : State :=
  match s.dram.mapped.findIdx? (fun x => x = c) with
  | none => s
  | some i =>
    let s' := s.dropPages
    let o := s'.dram.mapped.getD ((i + s.dram.mapped.length / 2) % s.dram.mapped.length) 0
    if (List.range 16).any (fun r => s'.flag MPR_DREG_BASE_VALID r && s'.flag MPR_DREG_BASE_MIRROR r) ∧ !s'.chanFenced o then
      (s'.setFld DRC_CH_STAT_MIR_SINGLE 1 o).raise 167 1 [min c o, max c o]
    else s'

theorem State.fenceChan_eq (s : State) (c cause : Nat) :
    s.fenceChan c cause = if s.chanFenced c then s else (s.fenceSet c cause).fenceCopies c := rfl

theorem State.fenceSet_onlyChanges (s : State) (c cause : Nat) : s.onlyChanges (s.fenceSet c cause) [.regs, .evt] :=
  State.onlyChanges_append (State.onlyChanges_trans (s.setFld_onlyChanges _ _ _ _) (State.setFld_onlyChanges _ _ _ _ _))
    (State.raise_onlyChanges _ _ _ _)

theorem State.fenceCopies_onlyChanges (s : State) (c : Nat) : s.onlyChanges (s.fenceCopies c) [.freeCtr, .ftl, .regs, .evt] := by
  have dropped : s.onlyChanges s.dropPages [.freeCtr, .ftl, .regs, .evt] := State.onlyChanges_mono s.dropPages_onlyChanges (by decide)
  rw [State.fenceCopies]
  split
  · exact s.onlyChanges_refl _
  · exact State.onlyChanges_ite _ (State.onlyChanges_then (State.onlyChanges_then dropped (State.setFld_onlyChanges _ _ _ _ _) (by decide))
      (State.raise_onlyChanges _ _ _ _) (by decide)) dropped

theorem State.fenceChan_onlyChanges (s : State) (c cause : Nat) : s.onlyChanges (s.fenceChan c cause) [.freeCtr, .ftl, .regs, .evt] :=
  State.onlyChanges_ite _ (s.onlyChanges_refl _)
    (State.onlyChanges_trans (State.onlyChanges_mono (s.fenceSet_onlyChanges c cause) (by decide)) (State.fenceCopies_onlyChanges _ _))

theorem State.dropPages_fld (s : State) (f : Field) (i : Nat) : s.dropPages.fld f i = s.fld f i :=
  State.fld_congr _ _ (s.dropPages_onlyChanges .regs (by decide)) (s.dropPages_onlyChanges .part (by decide)) f i 0

/-- Among the fields, a fence's copies change MIR_SINGLE alone. -/
theorem State.fld_fenceCopies (s : State) (c : Nat) (g : Field) (k : Nat)
    (h : ∀ (u : State) (o : Nat), (u.setFld DRC_CH_STAT_MIR_SINGLE 1 o).fld g k = u.fld g k) : (s.fenceCopies c).fld g k = s.fld g k := by
  rw [State.fenceCopies]
  split
  · rfl
  · dsimp only
    split
    · rw [State.raise_fld, h, State.dropPages_fld]
    · exact s.dropPages_fld g k

theorem bit_eq_testBit (n i : Nat) : bit n i = n.testBit i := by
  rw [bit, Nat.testBit, Nat.and_comm, Nat.and_one_is_mod]
  rcases Nat.mod_two_eq_zero_or_one (n >>> i) with h | h <;> simp [h]

/-- An unfenced channel that is fenced is FENCED (R387). -/
theorem State.fenceChan_fences {s : State} {c : Nat} (cause : Nat) (hc : c < 6) (free : s.chanFenced c = false) :
    (s.fenceChan c cause).fld DRC_CH_STAT_STATE c = 5 ∧ (s.fenceChan c cause).chanFenced c = true := by
  rw [State.fenceChan_eq, free, State.chanFenced]
  simp only [Bool.false_eq_true, if_false]
  rw [State.fld_fenceCopies _ _ _ _ (fun u o => State.fld_setFld_bits u _ _ _ _ _ (by decide)),
    State.fld_fenceCopies _ _ _ _ (fun u o => State.fld_setFld_off u _ _ _ _ _ (by decide))]
  simp (disch := decide) only [State.fenceSet, State.raise_fld, State.fld_setFld_same, State.fld_setFld_off]
  refine ⟨by decide, ?_⟩
  rw [State.chanFenced, bit_eq_testBit] at free
  rw [bit_eq_testBit, Nat.testBit_mod_two_pow, Nat.add_comm (s.fld _), Nat.testBit_two_pow_add_eq, free,
    decide_eq_true (show c < DRC_FENCE_CFG_FENCED.hi + 1 - DRC_FENCE_CFG_FENCED.lo from hc)]
  rfl

/-- Events that have been raised stay. -/
theorem State.fenceChan_inbox (s : State) (c cause : Nat) : ∀ e ∈ s.evt.inbox, e ∈ (s.fenceChan c cause).evt.inbox := by
  intro e he
  have kept : e ∈ (s.fenceSet c cause).evt.inbox := List.mem_append_left _ he
  rw [State.fenceChan_eq]
  split
  · exact he
  · rw [State.fenceCopies]
    split
    · exact kept
    · have dropped : e ∈ (s.fenceSet c cause).dropPages.evt.inbox := by
        rw [State.dropPages_onlyChanges _ .evt (by decide)]
        exact kept
      dsimp only
      split
      · exact List.mem_append_left _ dropped
      · exact dropped

/-! ### Initial training (R368, R369, R383) -/

/-- The population a training found, and the rate it ended at. -/
def State.trainShown (s : State) (c : Nat) (r : TrainReport) (rate : Nat) : State :=
  ((((s.setFld DRC_CH_STAT_WIDTH (b2n r.width8) c).setFld DRC_CH_STAT_RANKS2 (b2n r.ranks2) c).setFld DRC_CH_STAT_DENSITY r.density c).setFld
    DRC_CH_STAT_RATE rate c).phaseTo 4

/-- The channel is ACTIVE with the settings found. -/
def State.trainSettled (s : State) (c : Nat) (r : TrainReport) : State :=
  ((s.setFld DRC_CH_STAT_STATE 2 c).modDram (fun d => { d with base := Tab.put d.base c 2 })).margins c r

/-- A channel trained below the configured rate is reported (R383). -/
def State.rateChecked (s : State) (c rate : Nat) : State := if rate < s.fld DRC_CFG_RATE_MAX then s.raise 165 1 [c, rate] else s

/-- A channel has been trained. -/
def State.trainCounted (s : State) (c : Nat) : State := s.modDram (fun d => { d with trained := d.trained ++ [c] })

/-- The last channel's training fixes the address map. -/
def State.mapWhenLast (s : State) : State :=
  if (List.range (Config.drcCount s.part)).all (fun c => s.dram.trained.contains c) then s.mapChannels else s

/-- The end of a training at a rate. -/
def State.trainAtRate (s : State) (c : Nat) (r : TrainReport) (rate : Nat) : State :=
  let u := s.trainShown c r rate
  ((if (channelGib r.width8 r.ranks2 r.density).isNone then u.fenceChan c 4
    else if rate = 0 then (u.raise 165 2 [c, 0]).fenceChan c 1
    else (u.trainSettled c r).rateChecked c rate).trainCounted c).mapWhenLast

theorem State.trainEnd_eq (s : State) (c : Nat) (r : TrainReport) : s.trainEnd c r =
    if Config.drcCount s.part ≤ c ∨ s.dram.trained.contains c ∨ !s.domOn (10 + c) then s
    else s.trainAtRate c r (min r.rate ((((s.setFld DRC_CH_STAT_WIDTH (b2n r.width8) c).setFld DRC_CH_STAT_RANKS2 (b2n r.ranks2) c).setFld
      DRC_CH_STAT_DENSITY r.density c).fld DRC_CFG_RATE_MAX)) := rfl

theorem State.trainEnd_runs {s : State} {c : Nat} (r : TrainReport) (present : c < Config.drcCount s.part) (first : c ∉ s.dram.trained)
    (on : s.domOn (10 + c) = true) : s.trainEnd c r = s.trainAtRate c r (min r.rate (s.fld DRC_CFG_RATE_MAX)) := by
  rw [State.trainEnd_eq, if_neg (by simp [present, first, on])]
  simp (disch := decide) only [State.fld_setFld_off]

theorem State.trainAtRate_serves {s : State} {c rate : Nat} {r : TrainReport} (listed : channelGib r.width8 r.ranks2 r.density ≠ none)
    (hr : rate ≠ 0) :
    s.trainAtRate c r rate = ((((s.trainShown c r rate).trainSettled c r).rateChecked c rate).trainCounted c).mapWhenLast := by
  rw [State.trainAtRate, if_neg (by simpa using listed), if_neg hr]

theorem State.trainAtRate_fails {s : State} {c : Nat} {r : TrainReport} (listed : channelGib r.width8 r.ranks2 r.density ≠ none) :
    s.trainAtRate c r 0 = ((((s.trainShown c r 0).raise 165 2 [c, 0]).fenceChan c 1).trainCounted c).mapWhenLast := by
  rw [State.trainAtRate, if_neg (by simpa using listed), if_pos rfl]

theorem State.trainShown_onlyChanges (s : State) (c : Nat) (r : TrainReport) (rate : Nat) : s.onlyChanges (s.trainShown c r rate) [.regs] :=
  State.onlyChanges_trans (State.onlyChanges_trans (State.onlyChanges_trans (State.onlyChanges_trans (s.setFld_onlyChanges _ _ _ _)
    (State.setFld_onlyChanges _ _ _ _ _)) (State.setFld_onlyChanges _ _ _ _ _)) (State.setFld_onlyChanges _ _ _ _ _))
    (State.phaseTo_onlyChanges _ _)

theorem State.margins_onlyChanges (s : State) (c : Nat) (r : TrainReport) : s.onlyChanges (s.margins c r) [.regs, .dram] :=
  State.onlyChanges_append (State.onlyChanges_trans (State.onlyChanges_trans (State.onlyChanges_trans (s.setFld_onlyChanges _ _ _ _)
    (State.setFld_onlyChanges _ _ _ _ _)) (State.setFld_onlyChanges _ _ _ _ _)) (State.setFld_onlyChanges _ _ _ _ _))
    (State.modDram_onlyChanges _ _)

theorem State.trainSettled_onlyChanges (s : State) (c : Nat) (r : TrainReport) : s.onlyChanges (s.trainSettled c r) [.regs, .dram] :=
  State.onlyChanges_trans (State.onlyChanges_append (s.setFld_onlyChanges _ _ _ _) (State.modDram_onlyChanges _ _)) (State.margins_onlyChanges _ _ _)

/-- The settings a training found, as DRC_CH_MARGIN shows them. -/
theorem State.fld_margins (s : State) (c : Nat) (r : TrainReport) :
    (s.margins c r).fld DRC_CH_MARGIN_RD_EYE_W c = r.rdEyeW % 256 ∧ (s.margins c r).fld DRC_CH_MARGIN_WR_EYE_W c = r.wrEyeW % 256
      ∧ (s.margins c r).fld DRC_CH_MARGIN_RD_EYE_H c = r.rdEyeH % 256 ∧ (s.margins c r).fld DRC_CH_MARGIN_WR_EYE_H c = r.wrEyeH % 256 := by
  rw [State.margins, State.modDram_fld, State.modDram_fld, State.modDram_fld, State.modDram_fld]
  simp (disch := decide) only [State.fld_setFld_same, State.fld_setFld_bits]
  simp [DRC_CH_MARGIN_RD_EYE_W, DRC_CH_MARGIN_WR_EYE_W, DRC_CH_MARGIN_RD_EYE_H, DRC_CH_MARGIN_WR_EYE_H]

theorem State.fld_margins_off (s : State) (c : Nat) (r : TrainReport) (g : Field) (k : Nat)
    (h : g.reg.paged = true ∧ g.reg.off % 0x1000 ≠ 0x008) : (s.margins c r).fld g k = s.fld g k := by
  have off : ∀ (u : State) (f : Field) (v : Nat), f.reg = DRC_CH_MARGIN → (u.setFld f v c).fld g k = u.fld g k := fun u f v hf =>
    State.fld_setFld_off u f g v c k (by rw [hf]; exact ⟨by decide, h.1, fun e => h.2 e.symm⟩)
  rw [State.margins, State.modDram_fld, off _ _ _ rfl, off _ _ _ rfl, off _ _ _ rfl, off _ _ _ rfl]

theorem State.fld_trainSettled_state (s : State) (c : Nat) (r : TrainReport) : (s.trainSettled c r).fld DRC_CH_STAT_STATE c = 2 := by
  rw [State.trainSettled, State.fld_margins_off _ _ _ _ _ (by decide), State.modDram_fld, State.fld_setFld_same _ _ _ _ _ (by decide)]
  rfl

/-- Settings found leave what else the channel's status shows, and every field at another place of the page. -/
theorem State.fld_trainSettled (s : State) (c : Nat) (r : TrainReport) (g : Field) (k : Nat)
    (h : g.reg.paged = true ∧ g.reg.off % 0x1000 ≠ 0x008 ∧ (g.reg = DRC_CH_STAT ∧ g.hi < 29 ∨ g.reg.off % 0x1000 ≠ 0x004)) :
    (s.trainSettled c r).fld g k = s.fld g k := by
  obtain ⟨paged, margin, status⟩ := h
  rw [State.trainSettled, State.fld_margins_off _ _ _ _ _ ⟨paged, margin⟩, State.modDram_fld]
  rcases status with ⟨hr, low⟩ | other
  · exact State.fld_setFld_bits _ _ _ _ _ _ ⟨hr, by omega, .inr low⟩
  · exact State.fld_setFld_off _ _ _ _ _ _ ⟨by decide, paged, fun e => other e.symm⟩

/-- What the channel's status shows of a training. -/
theorem State.fld_trainShown {s : State} {c rate : Nat} {r : TrainReport} (hd : r.density < 4) (hr : rate < 8) :
    (s.trainShown c r rate).fld DRC_CH_STAT_RATE c = rate ∧ (s.trainShown c r rate).fld DRC_CH_STAT_WIDTH c = b2n r.width8
      ∧ (s.trainShown c r rate).fld DRC_CH_STAT_RANKS2 c = b2n r.ranks2 ∧ (s.trainShown c r rate).fld DRC_CH_STAT_DENSITY c = r.density := by
  have one : ∀ b : Bool, b2n b % 2 ^ (25 + 1 - 25) = b2n b := by decide
  have phase : ∀ (u : State) (g : Field), g.reg = DRC_CH_STAT → (u.phaseTo 4).fld g c = u.fld g c := fun u g hg =>
    State.fld_phaseTo_off u 4 g c (by rw [hg]; decide)
  rw [State.trainShown, phase _ _ rfl, phase _ _ rfl, phase _ _ rfl, phase _ _ rfl]
  simp (disch := decide) only [State.fld_setFld_same, State.fld_setFld_bits]
  exact ⟨Nat.mod_eq_of_lt hr, one _, one _, Nat.mod_eq_of_lt hd⟩

theorem State.fld_trainShown_off (s : State) (c rate : Nat) (r : TrainReport) (g : Field) (k : Nat)
    (h : g.reg.paged = true ∧ g.reg.off % 0x1000 ≠ 0x004 ∧ g.reg.key k 0 ≠ CFG_BOOT_STAT.key 0 0) :
    (s.trainShown c r rate).fld g k = s.fld g k := by
  obtain ⟨paged, off, key⟩ := h
  have status : ∀ (u : State) (f : Field) (v : Nat), f.reg = DRC_CH_STAT → (u.setFld f v c).fld g k = u.fld g k := fun u f v hf =>
    State.fld_setFld_off u f g v c k (by rw [hf]; exact ⟨by decide, paged, fun e => off e.symm⟩)
  rw [State.trainShown, State.fld_of_regsBut (State.phaseTo_regsBut _ 4) g k 0 (by simpa using key), status _ _ _ rfl, status _ _ _ rfl,
    status _ _ _ rfl, status _ _ _ rfl]

theorem State.fld_rateChecked (s : State) (c rate : Nat) (g : Field) (k : Nat) : (s.rateChecked c rate).fld g k = s.fld g k := by
  rw [State.rateChecked]
  split
  · rw [State.raise_fld]
  · rfl

theorem State.rateChecked_onlyChanges (s : State) (c rate : Nat) : s.onlyChanges (s.rateChecked c rate) [.evt] :=
  State.onlyChanges_ite _ (s.raise_onlyChanges _ _ _) (s.onlyChanges_refl _)

theorem State.trainCounted_onlyChanges (s : State) (c : Nat) : s.onlyChanges (s.trainCounted c) [.dram] := s.modDram_onlyChanges _

theorem State.trainSettled_trainTemp (s : State) (c : Nat) (r : TrainReport) :
    Tab.look (s.trainSettled c r).dram.trainTemp c = some r.tempC := by
  rw [State.trainSettled, State.margins, State.modDram_dram, Tab.look_put_same]

theorem State.trainSettled_trained (s : State) (c : Nat) (r : TrainReport) : (s.trainSettled c r).dram.trained = s.dram.trained := by
  rw [State.trainSettled, State.margins, State.modDram_dram, State.setFld_dram, State.setFld_dram, State.setFld_dram, State.setFld_dram,
    State.modDram_dram, State.setFld_dram]

theorem State.raise_inbox (s : State) (n c : Nat) (l : List Nat) : (s.raise n c l).evt.inbox = s.evt.inbox ++ [⟨n, c, l, none, 0, s.time⟩] := rfl

theorem State.inbox_ite (p : Prop) [Decidable p] (t u : State) :
    (if p then t else u).evt.inbox = if p then t.evt.inbox else u.evt.inbox := by
  split <;> rfl

/-- What a training at a rate leaves of its channel (R383), before the map is fixed. -/
structure State.Trained (s v : State) (c : Nat) (r : TrainReport) (rate : Nat) : Prop where
  state : v.fld DRC_CH_STAT_STATE c = 2
  rateShown : v.fld DRC_CH_STAT_RATE c = rate
  width : v.fld DRC_CH_STAT_WIDTH c = b2n r.width8
  ranks : v.fld DRC_CH_STAT_RANKS2 c = b2n r.ranks2
  density : v.fld DRC_CH_STAT_DENSITY c = r.density
  rdEyeW : v.fld DRC_CH_MARGIN_RD_EYE_W c = r.rdEyeW % 256
  wrEyeW : v.fld DRC_CH_MARGIN_WR_EYE_W c = r.wrEyeW % 256
  rdEyeH : v.fld DRC_CH_MARGIN_RD_EYE_H c = r.rdEyeH % 256
  wrEyeH : v.fld DRC_CH_MARGIN_WR_EYE_H c = r.wrEyeH % 256
  temp : Tab.look v.dram.trainTemp c = some r.tempC
  trained : v.dram.trained = s.dram.trained ++ [c]
  inbox : v.evt.inbox = s.evt.inbox ++ (if rate < s.fld DRC_CFG_RATE_MAX then [⟨165, 1, [c, rate], none, 0, s.time⟩] else [])
  frame : s.onlyChanges v [.regs, .dram, .evt]

theorem State.trained_of_rate {s : State} {c rate : Nat} {r : TrainReport} (hd : r.density < 4) (hr : rate < 8) :
    s.Trained ((((s.trainShown c r rate).trainSettled c r).rateChecked c rate).trainCounted c) c r rate := by
  obtain ⟨hrate, hwidth, hranks, hdensity⟩ := s.fld_trainShown (c := c) hd hr
  obtain ⟨m1, m2, m3, m4⟩ := State.fld_margins (State.modDram ((s.trainShown c r rate).setFld DRC_CH_STAT_STATE 2 c)
    (fun d => { d with base := Tab.put d.base c 2 })) c r
  have fld : ∀ g, ((((s.trainShown c r rate).trainSettled c r).rateChecked c rate).trainCounted c).fld g c
      = ((s.trainShown c r rate).trainSettled c r).fld g c := fun g => by rw [State.trainCounted, State.modDram_fld, State.fld_rateChecked]
  have status : ∀ g : Field, g.reg = DRC_CH_STAT → g.hi < 29 → ((s.trainShown c r rate).trainSettled c r).fld g c
      = (s.trainShown c r rate).fld g c := fun g hg low => State.fld_trainSettled _ c r g c (by rw [hg]; exact ⟨by decide, by decide, .inl ⟨rfl, low⟩⟩)
  have settled : s.onlyChanges ((s.trainShown c r rate).trainSettled c r) [.regs, .dram] :=
    State.onlyChanges_mono (State.onlyChanges_append (s.trainShown_onlyChanges c r rate) (State.trainSettled_onlyChanges _ c r)) (by decide)
  have frame := State.onlyChanges_append (State.onlyChanges_append settled (State.rateChecked_onlyChanges _ c rate))
    (State.trainCounted_onlyChanges _ c)
  have max : ((s.trainShown c r rate).trainSettled c r).fld DRC_CFG_RATE_MAX = s.fld DRC_CFG_RATE_MAX := by
    rw [State.fld_trainSettled _ _ _ _ _ (by decide), State.fld_trainShown_off _ _ _ _ _ _ (by decide)]
  have evt : ((s.trainShown c r rate).trainSettled c r).evt = s.evt := settled .evt (by decide)
  have time : ((s.trainShown c r rate).trainSettled c r).time = s.time := settled .time (by decide)
  have dram : (((s.trainShown c r rate).trainSettled c r).rateChecked c rate).dram = ((s.trainShown c r rate).trainSettled c r).dram :=
    State.rateChecked_onlyChanges _ c rate .dram (by decide)
  have shown : (s.trainShown c r rate).dram = s.dram := s.trainShown_onlyChanges c r rate .dram (by decide)
  exact {
    state := by rw [fld, State.fld_trainSettled_state]
    rateShown := by rw [fld, status _ rfl (by decide), hrate]
    width := by rw [fld, status _ rfl (by decide), hwidth]
    ranks := by rw [fld, status _ rfl (by decide), hranks]
    density := by rw [fld, status _ rfl (by decide), hdensity]
    rdEyeW := (fld _).trans m1
    wrEyeW := (fld _).trans m2
    rdEyeH := (fld _).trans m3
    wrEyeH := (fld _).trans m4
    temp := by rw [State.trainCounted, State.modDram_dram, dram, State.trainSettled_trainTemp]
    trained := by rw [State.trainCounted, State.modDram_dram, dram, State.trainSettled_trained, shown]
    inbox := by
      rw [State.trainCounted_onlyChanges _ c .evt (by decide), State.rateChecked, max]
      rw [State.inbox_ite, State.raise_inbox, evt, time]
      split <;> simp
    frame := State.onlyChanges_mono frame (by decide) }

theorem channelGib_density {w k : Bool} {d : Nat} (h : channelGib w k d ≠ none) : d < 4 := by
  match d with
  | 0 | 1 | 2 => decide
  | n + 3 => exact absurd (by cases w <;> cases k <;> rfl) h

theorem exec_dramTrainingComplete (c : Nat) (r : TrainReport) (s : State) :
    exec (.dramTrainingComplete c r) s = (s.fresh.trainEnd c r).done s := rfl

/-! ### Initialisation (R81, R390, R391) -/

/-- A start moves on once every channel and shared SRAM are initialised. -/
def State.initPhase (s : State) : State := if s.initDone then s.phaseTo 6 else s

theorem State.initPhase_onlyChanges (s : State) : s.onlyChanges s.initPhase [.regs] :=
  State.onlyChanges_ite _ (s.phaseTo_onlyChanges 6) (s.onlyChanges_refl _)

theorem State.initPhase_regsBut (s : State) : s.regsBut s.initPhase [CFG_BOOT_STAT.key 0 0] :=
  State.regsBut_ite _ (s.phaseTo_regsBut 6) (fun _ _ => rfl)

theorem State.fld_initPhase (s : State) (f : Field) (h : f.reg.key 0 0 ≠ CFG_BOOT_STAT.key 0 0) : s.initPhase.fld f = s.fld f :=
  State.fld_of_regsBut s.initPhase_regsBut f 0 0 (by simpa using h)

/-- Shared SRAM holds zeros alone. -/
def State.sramFilled (s : State) : State :=
  let out := fun (a : Nat) => a < 0xE000000000 || 0xE008000000 ≤ a
  { s with mem := s.mem.filter (fun kv => out kv.1) }.modDram (fun d => { d with
    valid := d.valid.filter (fun kv => out (kv.1 * 64)), bad := d.bad.filter (fun kv => out (kv.1 * 64)) })

theorem State.initUnit_sram (s : State) : s.initUnit 6 = (s.sramFilled.setFld CFG_MEM_INIT_SRAM_DONE 1).initPhase := rfl

theorem State.mem_onlyChanges (s : State) (m : Tab Byte) : s.onlyChanges { s with mem := m } [.mem] := by
  intro p hp
  cases p
  case mem => exact absurd (List.mem_singleton_self _) hp
  all_goals rfl

theorem State.sramFilled_onlyChanges (s : State) : s.onlyChanges s.sramFilled [.mem, .dram] :=
  State.onlyChanges_append (s.mem_onlyChanges _) (State.modDram_onlyChanges _ _)

theorem Tab.lookD_keep {β : Type} (p : Nat → Bool) (t : Tab β) (x : Nat) (d : β) :
    Tab.lookD (t.filter (fun kv => p kv.1)) x d = if p x then Tab.lookD t x d else d := by
  rw [Tab.lookD, show t.filter (fun kv => p kv.1) = Tab.keep (fun k _ => p k) t from rfl, Tab.look_keep]
  split <;> rfl

theorem State.sramFilled_mem (s : State) (a : Nat) :
    Tab.lookD s.sramFilled.mem a 0#8 = if a < 0xE000000000 || 0xE008000000 ≤ a then Tab.lookD s.mem a 0#8 else 0#8 :=
  Tab.lookD_keep (fun a => a < 0xE000000000 || 0xE008000000 ≤ a) s.mem a 0#8

/-- How far initialisation has come: 255 once every unfenced channel is done, else a free value that never falls. -/
def State.progressed (s : State) : State :=
  if !s.dram.mapped.isEmpty ∧ s.goodChannels.all (fun c => bit (s.fld CFG_MEM_INIT_DRAM_DONE) c) then s.setFld CFG_MEM_INIT_PROGRESS 255
  else
    (s.draw (max 1 (255 - s.fld CFG_MEM_INIT_PROGRESS))).2.setFld CFG_MEM_INIT_PROGRESS
      (s.fld CFG_MEM_INIT_PROGRESS + (s.draw (max 1 (255 - s.fld CFG_MEM_INIT_PROGRESS))).1)

/-- A channel's lines hold zeros, and its DONE bit is set. -/
def State.chanDone (s : State) (u : Nat) : State :=
  (s.chanFilled u).setFld CFG_MEM_INIT_DRAM_DONE ((s.chanFilled u).fld CFG_MEM_INIT_DRAM_DONE ||| 2 ^ u)

theorem State.initUnit_chan {s : State} {u : Nat} (h6 : u ≠ 6) (present : u < Config.drcCount s.part) (trained : u ∈ s.dram.trained)
    (free : s.chanFenced u = false) : s.initUnit u = (s.chanDone u).progressed.initPhase := by
  have go : u < Config.drcCount s.part ∧ s.dram.trained.contains u = true ∧ (!s.chanFenced u) = true :=
    ⟨present, List.contains_iff_mem.mpr trained, by rw [free]; rfl⟩
  refine (congrArg State.initPhase ((if_neg h6).trans (if_pos go)) : _)

theorem State.progressed_onlyChanges (s : State) : s.onlyChanges s.progressed [.freeCtr, .regs] :=
  State.onlyChanges_ite _ (State.onlyChanges_mono (s.setFld_onlyChanges _ _ _ _) (by decide))
    (State.onlyChanges_append (s.draw_onlyChanges _) (State.setFld_onlyChanges _ _ _ _ _))

theorem State.fld_draw (s : State) (n : Nat) (f : Field) (i : Nat) : (s.draw n).2.fld f i = s.fld f i := State.fld_congr _ _ rfl rfl f i 0

/-- PROGRESS changes alone. -/
theorem State.fld_progressed (s : State) (g : Field)
    (h : ∀ (u : State) (v : Nat), (u.setFld CFG_MEM_INIT_PROGRESS v).fld g = u.fld g) : s.progressed.fld g = s.fld g := by
  rw [State.progressed]
  split
  · exact h _ _
  · exact (h _ _).trans (s.fld_draw _ g 0)

theorem State.fld_lt (s : State) (f : Field) (i : Nat) : s.fld f i < 2 ^ (f.hi + 1 - f.lo) := bits_lt _ _ _

theorem State.draw_lt (s : State) {n : Nat} (h : 0 < n) : (s.draw n).1 < n := Nat.mod_lt _ h

theorem State.progressed_rises (s : State) : s.fld CFG_MEM_INIT_PROGRESS ≤ s.progressed.fld CFG_MEM_INIT_PROGRESS := by
  have top : s.fld CFG_MEM_INIT_PROGRESS < 256 := s.fld_lt CFG_MEM_INIT_PROGRESS 0
  have step := s.draw_lt (n := max 1 (255 - s.fld CFG_MEM_INIT_PROGRESS)) (by omega)
  have shown : ∀ (u : State) (v : Nat), v < 256 → (u.setFld CFG_MEM_INIT_PROGRESS v).fld CFG_MEM_INIT_PROGRESS = v := fun u v hv => by
    rw [State.fld_setFld_same _ _ _ _ _ (by decide)]
    exact Nat.mod_eq_of_lt hv
  rw [State.progressed]
  split
  · rw [shown _ _ (by decide)]
    omega
  · rw [shown _ _ (by omega)]
    omega

theorem State.progressed_full {s : State} (mapped : s.dram.mapped ≠ [])
    (done : s.goodChannels.all (fun c => bit (s.fld CFG_MEM_INIT_DRAM_DONE) c) = true) : s.progressed.fld CFG_MEM_INIT_PROGRESS = 255 := by
  have some : (!s.dram.mapped.isEmpty) = true := by simpa using mapped
  rw [State.progressed, if_pos ⟨some, done⟩, State.fld_setFld_same _ _ _ _ _ (by decide)]
  rfl

theorem State.chanFilled_onlyChanges (s : State) (u : Nat) : s.onlyChanges (s.chanFilled u) [.mem, .dram] :=
  State.onlyChanges_append (s.mem_onlyChanges _) (State.modDram_onlyChanges _ _)

theorem State.chanFilled_mem (s : State) (u a : Nat) :
    Tab.lookD (s.chanFilled u).mem a 0#8 = if a < 0xE000000000 ∧ s.chanOf a = u then 0#8 else Tab.lookD s.mem a 0#8 := by
  have kept := Tab.lookD_keep (fun a => !(decide (a < 0xE000000000) && decide (s.chanOf a = u))) s.mem a 0#8
  refine kept.trans ?_
  by_cases here : a < 0xE000000000 ∧ s.chanOf a = u
  · simp [here]
  · rw [if_neg here, if_pos]
    simpa only [Bool.not_eq_true', Bool.and_eq_false_iff, decide_eq_false_iff_not, ← not_and_or] using here

theorem State.chanDone_onlyChanges (s : State) (u : Nat) : s.onlyChanges (s.chanDone u) [.mem, .dram, .regs] :=
  State.onlyChanges_append (s.chanFilled_onlyChanges u) (State.setFld_onlyChanges _ _ _ _ _)

theorem State.bit_chanDone (s : State) {u : Nat} (h : u < 6) : bit ((s.chanDone u).fld CFG_MEM_INIT_DRAM_DONE) u = true := by
  rw [State.chanDone, State.fld_setFld_same _ _ _ _ _ (by decide), bit_eq_testBit, Nat.testBit_mod_two_pow, Nat.testBit_or,
    Nat.testBit_two_pow_self, decide_eq_true (show u < CFG_MEM_INIT_DRAM_DONE.hi + 1 - CFG_MEM_INIT_DRAM_DONE.lo from h), Bool.or_true]
  rfl

theorem State.fld_chanDone_progress (s : State) (u : Nat) : (s.chanDone u).fld CFG_MEM_INIT_PROGRESS = s.fld CFG_MEM_INIT_PROGRESS := by
  rw [State.chanDone, State.fld_setFld_bits _ _ _ _ _ _ (by decide)]
  exact State.fld_congr _ _ (s.chanFilled_onlyChanges u .regs (by decide)) (s.chanFilled_onlyChanges u .part (by decide)) _ 0 0

theorem State.goodChannels_congr {s t : State} (part : t.part = s.part) (fenced : t.fld DRC_FENCE_CFG_FENCED = s.fld DRC_FENCE_CFG_FENCED) :
    t.goodChannels = s.goodChannels := by
  simp only [State.goodChannels, State.chanFenced, part, fenced]

theorem exec_memoryInitComplete (u : Nat) (s : State) : exec (.memoryInitComplete u) s = (s.fresh.initUnit u).done s := rfl

/-! ### Temperature, bursts and retraining (R380, R384, R385) -/

theorem State.bgCharge_onlyChanges (s : State) (n i ns : Nat) : s.onlyChanges (s.bgCharge n i ns) [.bg] := s.setBg_onlyChanges _ _ _

theorem State.burst_onlyChanges (s : State) (c : Nat) : s.onlyChanges (s.burst c) [.freeCtr, .bg] :=
  State.onlyChanges_append (s.draw_onlyChanges 2001) (State.bgCharge_onlyChanges _ _ _ _)

theorem State.fld_burst (s : State) (c : Nat) (f : Field) (i : Nat) : (s.burst c).fld f i = s.fld f i :=
  State.fld_congr _ _ (s.burst_onlyChanges c .regs (by decide)) (s.burst_onlyChanges c .part (by decide)) f i 0

/-- A channel's state, and what it was before where a retraining or self-refresh returns to it. -/
def State.stateSet (s : State) (c v was : Nat) : State :=
  (s.setFld DRC_CH_STAT_STATE v c).modDram (fun d => { d with base := Tab.put d.base c was })

theorem State.stateSet_onlyChanges (s : State) (c v was : Nat) : s.onlyChanges (s.stateSet c v was) [.regs, .dram] :=
  State.onlyChanges_append (s.setFld_onlyChanges _ _ _ _) (State.modDram_onlyChanges _ _)

theorem State.fld_stateSet (s : State) (c was : Nat) {v : Nat} (h : v < 8) : (s.stateSet c v was).fld DRC_CH_STAT_STATE c = v := by
  rw [State.stateSet, State.modDram_fld, State.fld_setFld_same _ _ _ _ _ (by decide)]
  exact Nat.mod_eq_of_lt h

theorem State.stateSet_base (s : State) (c v was : Nat) : Tab.look (s.stateSet c v was).dram.base c = some was := by
  rw [State.stateSet, State.modDram_dram, Tab.look_put_same]

/-- A retraining has begun (R384). -/
def State.retraining (s : State) (c : Nat) : State := ((s.stateSet c 3 (s.fld DRC_CH_STAT_STATE c)).stamp (.retry c)).burst c

theorem State.dramRetrain_eq (s : State) (c : Nat) : s.dramRetrain c =
    if s.fld DRC_CH_STAT_STATE c = 2 ∨ s.fld DRC_CH_STAT_STATE c = 4 then s.retraining c else s := rfl

theorem State.retraining_onlyChanges (s : State) (c : Nat) : s.onlyChanges (s.retraining c) [.regs, .dram, .timers, .freeCtr, .bg] :=
  State.onlyChanges_append (State.onlyChanges_append (s.stateSet_onlyChanges c _ _) (State.stamp_onlyChanges _ _)) (State.burst_onlyChanges _ _)

theorem State.fld_retraining (s : State) (c : Nat) : (s.retraining c).fld DRC_CH_STAT_STATE c = 3 := by
  rw [State.retraining, State.fld_burst, State.stamp_fld, State.fld_stateSet _ _ _ (by decide)]

theorem State.retraining_dram (s : State) (c : Nat) : (s.retraining c).dram = (s.stateSet c 3 (s.fld DRC_CH_STAT_STATE c)).dram :=
  State.burst_onlyChanges _ c .dram (by decide)

theorem State.retraining_base (s : State) (c : Nat) : Tab.look (s.retraining c).dram.base c = some (s.fld DRC_CH_STAT_STATE c) := by
  rw [State.retraining_dram, State.stateSet_base]

theorem State.dramRetrain_onlyChanges (s : State) (c : Nat) : s.onlyChanges (s.dramRetrain c) [.regs, .dram, .timers, .freeCtr, .bg] :=
  State.onlyChanges_ite _ (s.retraining_onlyChanges c) (s.onlyChanges_refl _)

/-- A channel that serves is RETRAINING after a retraining is asked for, whether one ran already. -/
theorem State.fld_dramRetrain {s : State} {c : Nat} (h : 2 ≤ s.fld DRC_CH_STAT_STATE c ∧ s.fld DRC_CH_STAT_STATE c ≤ 4) :
    (s.dramRetrain c).fld DRC_CH_STAT_STATE c = 3 := by
  rw [State.dramRetrain_eq]
  split
  · exact s.fld_retraining c
  · omega

theorem State.dramRetrain_limited (s : State) (c : Nat) : (s.dramRetrain c).dram.limited = s.dram.limited := by
  rw [State.dramRetrain_eq]
  split
  · rw [State.retraining_dram]
    rfl
  · rfl

/-- MR4 shows a rank within or beyond a limit; a rank that passes it is reported (R380). -/
def State.limitSet (s : State) (c rank k cause : Nat) (on : Bool) : State :=
  if on ∧ !s.dram.limited.contains (rankKey k c rank) then
    (s.modDram (fun d => { d with limited := rankKey k c rank :: d.limited })).raise 169 cause [c, rank]
  else if !on then s.modDram (fun d => { d with limited := d.limited.filter (fun x => x ≠ rankKey k c rank) })
  else s

/-- The channel's status shows whether a rank is hot. -/
def State.hotShown (s : State) (c : Nat) : State :=
  s.setFld DRC_CH_STAT_HOT (b2n (s.dram.limited.contains (rankKey 2 c 0) || s.dram.limited.contains (rankKey 2 c 1))) c

/-- Whether a temperature is further from the last training's than RETRAIN_DT (R384). -/
def State.tempFar (s : State) (c : Nat) (temp : Int) : Prop :=
  (s.fld DRC_TRAIN_CFG_RETRAIN_DT : Int) < temp - Tab.lookD s.dram.trainTemp c temp
    ∨ (s.fld DRC_TRAIN_CFG_RETRAIN_DT : Int) < Tab.lookD s.dram.trainTemp c temp - temp

theorem State.tempFar_iff (s : State) (c : Nat) (temp : Int) :
    s.tempFar c temp ↔ s.fld DRC_TRAIN_CFG_RETRAIN_DT < (temp - Tab.lookD s.dram.trainTemp c temp).natAbs := by
  rw [State.tempFar]
  omega

/-- The limits MR4 showed, before the temperature is compared. -/
def State.limitsRead (s : State) (c rank : Nat) (hot above : Bool) : State :=
  ((s.limitSet c rank 2 1 hot).hotShown c).limitSet c rank 1 2 above

theorem State.mr4_eq {s : State} {c : Nat} (rank : Nat) (hot above : Bool) (temp : Int) (on : s.serves c = true) :
    ∃ d : Decidable ((s.limitsRead c rank hot above).tempFar c temp), s.mr4 c rank hot above temp =
      @ite _ ((s.limitsRead c rank hot above).tempFar c temp) d ((s.limitsRead c rank hot above).dramRetrain c) (s.limitsRead c rank hot above) := by
  refine ⟨_, if_neg (c := (!s.serves c) = true) ?_⟩
  rw [on]
  decide

theorem State.limitSet_onlyChanges (s : State) (c rank k cause : Nat) (on : Bool) : s.onlyChanges (s.limitSet c rank k cause on) [.dram, .evt] :=
  State.onlyChanges_ite _ (State.onlyChanges_append (s.modDram_onlyChanges _) (State.raise_onlyChanges _ _ _ _))
    (State.onlyChanges_ite _ (State.onlyChanges_mono (s.modDram_onlyChanges _) (by decide)) (s.onlyChanges_refl _))

theorem State.limitSet_limited (s : State) (c rank k cause : Nat) (on : Bool) (x : Nat) :
    x ∈ (s.limitSet c rank k cause on).dram.limited ↔ (if x = rankKey k c rank then on = true else x ∈ s.dram.limited) := by
  rw [State.limitSet]
  split
  next h => by_cases e : x = rankKey k c rank <;> simp [e, h.1]
  next h =>
    split
    next off => by_cases e : x = rankKey k c rank <;> simp_all
    next on' =>
      by_cases e : x = rankKey k c rank
      · simp_all
      · simp [e]

theorem State.limitSet_inbox (s : State) (c rank k cause : Nat) (on : Bool) : (s.limitSet c rank k cause on).evt.inbox
    = s.evt.inbox ++ (if on = true ∧ rankKey k c rank ∉ s.dram.limited then [⟨169, cause, [c, rank], none, 0, s.time⟩] else []) := by
  rw [State.limitSet, State.inbox_ite, State.inbox_ite, State.raise_inbox]
  simp only [State.modDram_evt, State.modDram_time, ite_self, Bool.not_eq_true', List.contains_eq_mem, decide_eq_false_iff_not]
  split <;> simp

theorem State.limitSet_trainTemp (s : State) (c rank k cause : Nat) (on : Bool) :
    (s.limitSet c rank k cause on).dram.trainTemp = s.dram.trainTemp := by
  rw [State.limitSet]
  repeat' split
  all_goals rfl

theorem State.hotShown_onlyChanges (s : State) (c : Nat) : s.onlyChanges (s.hotShown c) [.regs] := s.setFld_onlyChanges _ _ _ _

theorem rankKey_ne (c rank : Nat) : rankKey 1 c rank ≠ rankKey 2 c rank := by
  rw [rankKey, rankKey]
  omega

theorem State.limitsRead_onlyChanges (s : State) (c rank : Nat) (hot above : Bool) :
    s.onlyChanges (s.limitsRead c rank hot above) [.dram, .evt, .regs] :=
  State.onlyChanges_then (State.onlyChanges_append (s.limitSet_onlyChanges _ _ _ _ _) (State.hotShown_onlyChanges _ _))
    (State.limitSet_onlyChanges _ _ _ _ _ _) (by decide)

/-- Reading the limits changes HOT alone among the registers. -/
theorem State.fld_limitsRead (s : State) (c rank : Nat) (hot above : Bool) (g : Field) (k : Nat)
    (h : ∀ (u : State) (v : Nat), (u.setFld DRC_CH_STAT_HOT v c).fld g k = u.fld g k) : (s.limitsRead c rank hot above).fld g k = s.fld g k := by
  have kept : ∀ (u : State) (n m : Nat) (on : Bool), (u.limitSet c rank n m on).fld g k = u.fld g k := fun u n m on =>
    State.fld_congr _ _ (u.limitSet_onlyChanges c rank n m on .regs (by decide)) (u.limitSet_onlyChanges c rank n m on .part (by decide)) g k 0
  rw [State.limitsRead, kept, State.hotShown, h, kept]

theorem State.limitsRead_limited (s : State) (c rank : Nat) (hot above : Bool) :
    (rankKey 2 c rank ∈ (s.limitsRead c rank hot above).dram.limited ↔ hot = true)
      ∧ (rankKey 1 c rank ∈ (s.limitsRead c rank hot above).dram.limited ↔ above = true)
      ∧ ∀ k, k ≠ rankKey 2 c rank → k ≠ rankKey 1 c rank → (k ∈ (s.limitsRead c rank hot above).dram.limited ↔ k ∈ s.dram.limited) := by
  have shown : ((s.limitSet c rank 2 1 hot).hotShown c).dram = (s.limitSet c rank 2 1 hot).dram := State.hotShown_onlyChanges _ c .dram (by decide)
  have apart := rankKey_ne c rank
  refine ⟨?_, ?_, fun k h2 h1 => ?_⟩
  all_goals rw [State.limitsRead, State.limitSet_limited, shown, State.limitSet_limited]
  · rw [if_neg apart.symm, if_pos rfl]
  · rw [if_pos rfl]
  · rw [if_neg h1, if_neg h2]

theorem State.limitsRead_inbox (s : State) (c rank : Nat) (hot above : Bool) :
    (s.limitsRead c rank hot above).evt.inbox = s.evt.inbox
      ++ (if hot = true ∧ rankKey 2 c rank ∉ s.dram.limited then [⟨169, 1, [c, rank], none, 0, s.time⟩] else [])
      ++ (if above = true ∧ rankKey 1 c rank ∉ s.dram.limited then [⟨169, 2, [c, rank], none, 0, s.time⟩] else []) := by
  have shown : ((s.limitSet c rank 2 1 hot).hotShown c).dram = (s.limitSet c rank 2 1 hot).dram := State.hotShown_onlyChanges _ c .dram (by decide)
  have evt : ((s.limitSet c rank 2 1 hot).hotShown c).evt = (s.limitSet c rank 2 1 hot).evt := State.hotShown_onlyChanges _ c .evt (by decide)
  have time : ((s.limitSet c rank 2 1 hot).hotShown c).time = s.time :=
    (State.hotShown_onlyChanges _ c .time (by decide)).trans (s.limitSet_onlyChanges c rank 2 1 hot .time (by decide))
  have before : rankKey 1 c rank ∈ (s.limitSet c rank 2 1 hot).dram.limited ↔ rankKey 1 c rank ∈ s.dram.limited := by
    rw [State.limitSet_limited, if_neg (rankKey_ne c rank)]
  rw [State.limitsRead, State.limitSet_inbox, evt, time, shown, State.limitSet_inbox]
  simp only [before]

theorem State.limitsRead_tempFar (s : State) (c rank : Nat) (hot above : Bool) (temp : Int) :
    (s.limitsRead c rank hot above).tempFar c temp ↔ s.tempFar c temp := by
  have temps : (s.limitsRead c rank hot above).dram.trainTemp = s.dram.trainTemp := by
    rw [State.limitsRead, State.limitSet_trainTemp, State.hotShown_onlyChanges _ c .dram (by decide), State.limitSet_trainTemp]
  rw [State.tempFar, State.tempFar, temps, State.fld_limitsRead _ _ _ _ _ _ _ (fun u v => State.fld_setFld_off u _ _ _ _ _ (by decide))]

theorem State.serves_range {s : State} {c : Nat} (h : s.serves c = true) : 2 ≤ s.fld DRC_CH_STAT_STATE c ∧ s.fld DRC_CH_STAT_STATE c ≤ 4 := by
  simp only [State.serves, Bool.and_eq_true, decide_eq_true_eq] at h
  exact ⟨h.1.2, h.2⟩

/-- What a reading of MR4 leaves of the channel (R380, R384). -/
theorem State.mr4_reads {s : State} {c : Nat} (rank : Nat) (hot above : Bool) (temp : Int) (on : s.serves c = true) :
    (s.mr4 c rank hot above temp).fld DRC_CH_STAT_STATE c
        = (if s.fld DRC_TRAIN_CFG_RETRAIN_DT < (temp - Tab.lookD s.dram.trainTemp c temp).natAbs then 3 else s.fld DRC_CH_STAT_STATE c)
      ∧ (s.mr4 c rank hot above temp).dram.limited = (s.limitsRead c rank hot above).dram.limited
      ∧ (s.limitsRead c rank hot above).onlyChanges (s.mr4 c rank hot above temp) [.regs, .dram, .timers, .freeCtr, .bg] := by
  obtain ⟨d, h⟩ := s.mr4_eq rank hot above temp on
  have state : (s.limitsRead c rank hot above).fld DRC_CH_STAT_STATE c = s.fld DRC_CH_STAT_STATE c :=
    s.fld_limitsRead c rank hot above _ _ (fun u v => State.fld_setFld_bits u _ _ _ _ _ (by decide))
  have far := (s.limitsRead_tempFar c rank hot above temp).trans (s.tempFar_iff c temp)
  rw [h]
  by_cases t : (s.limitsRead c rank hot above).tempFar c temp
  · rw [if_pos t, if_pos (far.mp t)]
    exact ⟨State.fld_dramRetrain (by rw [state]; exact State.serves_range on), State.dramRetrain_limited _ _, State.dramRetrain_onlyChanges _ _⟩
  · rw [if_neg t, if_neg (fun n => t (far.mpr n))]
    exact ⟨state, rfl, State.onlyChanges_refl _ _⟩

/-- A channel whose burst or retraining found no setting (R384, R385): the last is kept, and the first time is reported. -/
theorem State.degrade_eq (s : State) (c was : Nat) : s.degrade c was =
    if was = 4 then (s.stateSet c 4 4).stamp (.retry c)
    else ((s.stateSet c 4 4).stamp (.retry c)).raise 165 3 [c, ((s.stateSet c 4 4).stamp (.retry c)).fld DRC_CH_STAT_RATE c] := rfl

theorem State.degrade_onlyChanges (s : State) (c was : Nat) : s.onlyChanges (s.degrade c was) [.regs, .dram, .timers, .evt] := by
  have set := State.onlyChanges_append (s.stateSet_onlyChanges c 4 4) (State.stamp_onlyChanges _ (.retry c))
  exact State.onlyChanges_ite _ (State.onlyChanges_mono set (by decide)) (State.onlyChanges_append set (State.raise_onlyChanges _ _ _ _))

theorem State.degrade_state (s : State) (c was : Nat) :
    (s.degrade c was).fld DRC_CH_STAT_STATE c = 4 ∧ Tab.look (s.degrade c was).dram.base c = some 4 := by
  have state := s.fld_stateSet c 4 (v := 4) (by decide)
  have base := s.stateSet_base c 4 4
  rw [State.degrade_eq]
  split
  · rw [State.stamp_fld, State.stamp_dram]
    exact ⟨state, base⟩
  · rw [State.raise_fld, State.stamp_fld, State.raise_dram, State.stamp_dram]
    exact ⟨state, base⟩

theorem State.degrade_inbox (s : State) (c was : Nat) : (s.degrade c was).evt.inbox
    = s.evt.inbox ++ (if was = 4 then [] else [⟨165, 3, [c, s.fld DRC_CH_STAT_RATE c], none, 0, s.time⟩]) := by
  have evt : ((s.stateSet c 4 4).stamp (.retry c)).evt = s.evt := s.stateSet_onlyChanges c 4 4 .evt (by decide)
  have time : ((s.stateSet c 4 4).stamp (.retry c)).time = s.time := s.stateSet_onlyChanges c 4 4 .time (by decide)
  have rate : ((s.stateSet c 4 4).stamp (.retry c)).fld DRC_CH_STAT_RATE c = s.fld DRC_CH_STAT_RATE c := by
    rw [State.stamp_fld, State.stateSet, State.modDram_fld, State.fld_setFld_bits _ _ _ _ _ _ (by decide)]
  rw [State.degrade_eq, State.inbox_ite, State.raise_inbox, evt, time, rate]
  split <;> simp

theorem State.oscRead_quiet {s : State} {c drift : Nat} (ok : Bool) (h : drift ≤ s.fld DRC_TRAIN_CFG_OSC_PS) : s.oscRead c drift ok = s :=
  if_pos (.inr h)

theorem State.oscRead_onlyChanges_of_ok (s : State) (c drift : Nat) : s.onlyChanges (s.oscRead c drift true) [.freeCtr, .bg] :=
  State.onlyChanges_ite _ (s.onlyChanges_refl _) (s.burst_onlyChanges c)

theorem State.oscRead_degrades {s : State} {c drift : Nat} (on : s.serves c = true) (h : s.fld DRC_TRAIN_CFG_OSC_PS < drift) :
    s.oscRead c drift false
      = (s.burst c).degrade c (if s.fld DRC_CH_STAT_STATE c = 3 then Tab.lookD s.dram.base c 2 else s.fld DRC_CH_STAT_STATE c) := by
  rw [State.oscRead, if_neg (by rw [on]; simpa using h), if_neg (by decide)]

theorem State.oscRead_onlyChanges (s : State) (c drift : Nat) (ok : Bool) :
    s.onlyChanges (s.oscRead c drift ok) [.freeCtr, .bg, .regs, .dram, .timers, .evt] := by
  have burst : s.onlyChanges (s.burst c) [.freeCtr, .bg, .regs, .dram, .timers, .evt] := State.onlyChanges_mono (s.burst_onlyChanges c) (by decide)
  exact State.onlyChanges_ite _ (s.onlyChanges_refl _)
    (State.onlyChanges_ite _ burst (State.onlyChanges_then burst (State.degrade_onlyChanges _ _ _) (by decide)))

/-! ### Row disturbance windows (R382) -/

/-- The aggressor records of a channel are gone. -/
def State.strikesGone (s : State) (c : Nat) : State := s.modDram (fun d => { d with strikes := d.strikes.filter (fun kv => kv.1 / 256 ≠ c) })

theorem State.strikesGone_look (s : State) (c k : Nat) :
    Tab.look (s.strikesGone c).dram.strikes k = if k / 256 = c then none else Tab.look s.dram.strikes k := by
  have kept := Tab.look_keep (fun k => decide (k / 256 ≠ c)) s.dram.strikes k
  refine Eq.trans kept ?_
  by_cases h : k / 256 = c <;> simp [h]

theorem State.strikesGone_onlyChanges (s : State) (c : Nat) : s.onlyChanges (s.strikesGone c) [.dram] := s.modDram_onlyChanges _

/-- A throttle lifts, with the event that says so. -/
def State.throttleLifted (s : State) (c : Nat) : State :=
  let m := s.fld DRC_CH_DIST_THROTTLED c
  let tag := (s.core (m - 0x10)).tag
  let u := s.modDram (fun d => { d with throttleLeft := Tab.del d.throttleLeft c })
  ((u.setFld DRC_CH_DIST_THR_ACTIVE 0 c).setFld DRC_CH_DIST_THROTTLED 0 c).raiseWith 164 3 [c, m, if isCore m then tag else 0]
    (if isCore m then some tag else none) 0

/-- What the end of a window leaves of the throttle, by the windows it had left. -/
def State.throttleStep (s : State) (c : Nat) : Nat → State
  | 0 => s
  | 1 => s.throttleLifted c
  | n + 2 => s.modDram (fun d => { d with throttleLeft := Tab.put d.throttleLeft c (n + 1) })

theorem State.disturbEnd_eq (s : State) (c : Nat) : s.disturbEnd c = (s.strikesGone c).throttleStep c (Tab.lookD s.dram.throttleLeft c 0) := by
  rw [State.disturbEnd]
  dsimp only [State.modDram_dram]
  generalize Tab.lookD s.dram.throttleLeft c 0 = n
  match n with
  | 0 => rfl
  | 1 => rfl
  | n + 2 => rfl

theorem State.throttleLifted_onlyChanges (s : State) (c : Nat) : s.onlyChanges (s.throttleLifted c) [.dram, .regs, .evt] :=
  State.onlyChanges_append (State.onlyChanges_append (s.modDram_onlyChanges _)
    (State.onlyChanges_trans (State.setFld_onlyChanges _ DRC_CH_DIST_THR_ACTIVE 0 c 0) (State.setFld_onlyChanges _ DRC_CH_DIST_THROTTLED 0 c 0)))
    (State.raiseWith_onlyChanges _ _ _ _ _ _)

theorem State.throttleStep_onlyChanges (s : State) (c n : Nat) : s.onlyChanges (s.throttleStep c n) [.dram, .regs, .evt] := by
  match n with
  | 0 => exact s.onlyChanges_refl _
  | 1 => exact s.throttleLifted_onlyChanges c
  | n + 2 => exact State.onlyChanges_mono (s.modDram_onlyChanges _) (by decide)

theorem State.throttleStep_strikes (s : State) (c n : Nat) : (s.throttleStep c n).dram.strikes = s.dram.strikes := by
  match n with
  | 0 | 1 | n + 2 => rfl

theorem State.fld_throttleLifted (s : State) (c : Nat) :
    (s.throttleLifted c).flag DRC_CH_DIST_THR_ACTIVE c = false ∧ (s.throttleLifted c).fld DRC_CH_DIST_THROTTLED c = 0 := by
  rw [State.throttleLifted, State.flag, State.raiseWith_fld, State.raiseWith_fld, State.fld_setFld_bits _ _ _ _ _ _ (by decide),
    State.fld_setFld_same _ _ _ _ _ (by decide), State.fld_setFld_same _ _ _ _ _ (by decide)]
  decide

theorem State.throttleLifted_event (s : State) (c : Nat) :
    ∃ x ∈ (s.throttleLifted c).evt.inbox, x.number = 164 ∧ x.cause = 3 ∧ x.subj.head? = some c :=
  ⟨_, List.mem_append_right _ (List.mem_singleton_self _), rfl, rfl, rfl⟩

/-! ### Retraining ends, and self-refresh (R384, R385, R388) -/

theorem State.retrainEnd_passes {s : State} {c : Nat} (r : TrainReport) (h : s.fld DRC_CH_STAT_STATE c = 3) : s.retrainEnd c true r =
    if Tab.lookD s.dram.base c 2 = 4 then (s.trainSettled c r).raise 165 4 [c, (s.trainSettled c r).fld DRC_CH_STAT_RATE c]
    else s.trainSettled c r := by
  rw [State.retrainEnd, if_neg (by simpa using h), if_neg (by decide)]
  rfl

theorem State.retrainEnd_fails {s : State} {c : Nat} (r : TrainReport) (h : s.fld DRC_CH_STAT_STATE c = 3) :
    s.retrainEnd c false r = s.degrade c (Tab.lookD s.dram.base c 2) := by
  rw [State.retrainEnd, if_neg (by simpa using h), if_pos (by decide)]

theorem State.trainSettled_trainAt (s : State) (c : Nat) (r : TrainReport) : Tab.look (s.trainSettled c r).dram.trainAt c = some s.time := by
  rw [State.trainSettled, State.margins, State.modDram_dram, Tab.look_put_same]
  rfl

theorem State.fld_trainSettled_rdEyeW (s : State) (c : Nat) (r : TrainReport) :
    (s.trainSettled c r).fld DRC_CH_MARGIN_RD_EYE_W c = r.rdEyeW % 256 := (State.fld_margins _ c r).1

/-- What a retraining with settings leaves (R384). -/
theorem State.retrainEnd_settles {s : State} {c : Nat} (r : TrainReport) (h : s.fld DRC_CH_STAT_STATE c = 3) :
    (s.retrainEnd c true r).fld DRC_CH_STAT_STATE c = 2 ∧ (s.retrainEnd c true r).fld DRC_CH_MARGIN_RD_EYE_W c = r.rdEyeW % 256
      ∧ Tab.look (s.retrainEnd c true r).dram.trainTemp c = some r.tempC ∧ Tab.look (s.retrainEnd c true r).dram.trainAt c = some s.time
      ∧ (s.retrainEnd c true r).evt.inbox
        = s.evt.inbox ++ (if Tab.lookD s.dram.base c 2 = 4 then [⟨165, 4, [c, s.fld DRC_CH_STAT_RATE c], none, 0, s.time⟩] else [])
      ∧ s.onlyChanges (s.retrainEnd c true r) [.regs, .dram, .evt] := by
  have evt : (s.trainSettled c r).evt = s.evt := s.trainSettled_onlyChanges c r .evt (by decide)
  have time : (s.trainSettled c r).time = s.time := s.trainSettled_onlyChanges c r .time (by decide)
  have rate : (s.trainSettled c r).fld DRC_CH_STAT_RATE c = s.fld DRC_CH_STAT_RATE c := s.fld_trainSettled c r _ c (by decide)
  have frame : s.onlyChanges (s.trainSettled c r) [.regs, .dram, .evt] := State.onlyChanges_mono (s.trainSettled_onlyChanges c r) (by decide)
  rw [State.retrainEnd_passes r h]
  by_cases was : Tab.lookD s.dram.base c 2 = 4
  · rw [if_pos was, if_pos was, State.raise_fld, State.raise_fld, State.raise_dram, State.raise_inbox, evt, time, rate]
    exact ⟨s.fld_trainSettled_state c r, s.fld_trainSettled_rdEyeW c r, s.trainSettled_trainTemp c r, s.trainSettled_trainAt c r, rfl,
      State.onlyChanges_then frame (State.raise_onlyChanges _ _ _ _) (by decide)⟩
  · rw [if_neg was, if_neg was, evt, List.append_nil]
    exact ⟨s.fld_trainSettled_state c r, s.fld_trainSettled_rdEyeW c r, s.trainSettled_trainTemp c r, s.trainSettled_trainAt c r, rfl, frame⟩

theorem State.wakeChan_onlyChanges (s : State) (c : Nat) : s.onlyChanges (s.wakeChan c) [.timers, .regs] := by
  have stamped : s.onlyChanges (s.stamp (.request c)) [.timers, .regs] := State.onlyChanges_mono (s.stamp_onlyChanges _) (by decide)
  exact State.onlyChanges_ite _ (State.onlyChanges_then stamped (State.setFld_onlyChanges _ _ _ _ _) (by decide)) stamped

/-- A channel in self-refresh is back in the state before it. -/
theorem State.fld_wakeChan {s : State} {c : Nat} (asleep : 6 ≤ s.fld DRC_CH_STAT_STATE c) (hb : Tab.lookD s.dram.base c 2 < 8) :
    (s.wakeChan c).fld DRC_CH_STAT_STATE c = Tab.lookD s.dram.base c 2 := by
  rw [State.wakeChan, State.stamp_fld, if_pos asleep, State.fld_setFld_same _ _ _ _ _ (by decide), State.stamp_dram]
  exact Nat.mod_eq_of_lt hb

theorem State.fld_wakeChan_off (s : State) (c : Nat) (g : Field) (k : Nat) (h : g.reg.paged = true ∧ g.reg.off % 0x1000 ≠ 0x004) :
    (s.wakeChan c).fld g k = s.fld g k := by
  rw [State.wakeChan]
  split
  · rw [State.fld_setFld_off _ DRC_CH_STAT_STATE g _ _ _ ⟨by decide, h.1, fun e => h.2 e.symm⟩, State.stamp_fld]
  · rw [State.stamp_fld]

/-! ### Scrubbing, leaks and injection (R393-R400) -/

/-- The scrubber reads a line of a channel, unless its region is LIGHT or the line not valid (R394). -/
def State.scrubLine (s : State) (c a : Nat) (pe ce : CellErr) : State :=
  if s.dramCode a = 2 ∨ (s.swMode 0x40 ∧ !s.lineValid 0x40 a) then s
  else if s.upperHalf a then s.scrubCopy c a pe
  else (s.dramLine 0x58 a pe ce true).2

/-- The scrubber moves on to the next line of a channel, or begins a new pass. -/
def State.scrubMoved (s : State) (c k : Nat) : State :=
  if (k + 1) * 64 < s.dram.chanCap then s.modDram (fun d => { d with scrubAt := Tab.put d.scrubAt c (k + 1) })
  else s.modDram (fun d => { d with scrubAt := Tab.put d.scrubAt c 0, pass := Tab.put d.pass c (Tab.lookD d.pass c 0 + 1) })

theorem State.scrubDram_eq {s : State} {c i : Nat} (pe ce : CellErr) (found : s.dram.mapped.findIdx? (fun x => x = c) = some i)
    (on : s.serves c = true) (done : bit (s.fld CFG_MEM_INIT_DRAM_DONE) c = true) :
    s.scrubDram c pe ce = if (s.bgGrant 1 c true false).isNone then s.bgNote 1 c true
      else ((s.bgCharge 1 c (s.lineNs c)).scrubLine c ((s.bgCharge 1 c (s.lineNs c)).globalAddr i (Tab.lookD s.dram.scrubAt c 0)) pe ce).scrubMoved c
        (Tab.lookD s.dram.scrubAt c 0) := by
  rw [State.scrubDram, found]
  dsimp only
  rw [if_neg (by rw [on, done]; decide)]
  rfl

theorem State.scrubMoved_onlyChanges (s : State) (c k : Nat) : s.onlyChanges (s.scrubMoved c k) [.dram] :=
  State.onlyChanges_ite _ (s.modDram_onlyChanges _) (s.modDram_onlyChanges _)

theorem State.scrubMoved_look (s : State) (c k : Nat) :
    Tab.look (s.scrubMoved c k).dram.scrubAt c = some (if (k + 1) * 64 < s.dram.chanCap then k + 1 else 0) := by
  rw [State.scrubMoved]
  split <;> rw [State.modDram_dram, Tab.look_put_same]

/-- The scrubber moves on in ledger memory. -/
def State.ledgerMoved (s : State) (k : Nat) : State :=
  if (k + 1) * 64 < 0x4000000 then s.modDram (fun d => { d with scrubAt := Tab.put d.scrubAt 6 (k + 1) })
  else s.modDram (fun d => { d with
    scrubAt := Tab.put d.scrubAt 6 0, pass := [6].foldl (fun t g => Tab.put t g (Tab.lookD t g 0 + 1)) d.pass })

theorem State.scrubStep_ledger (s : State) (pe ce : CellErr) : s.scrubStep 6 pe ce
    = (s.lineRead 0x58 0x42 (0xE800000000 + 64 * Tab.lookD s.dram.scrubAt 6 0) pe .none true).2.ledgerMoved (Tab.lookD s.dram.scrubAt 6 0) := rfl

theorem State.ledgerMoved_onlyChanges (s : State) (k : Nat) : s.onlyChanges (s.ledgerMoved k) [.dram] :=
  State.onlyChanges_ite _ (s.modDram_onlyChanges _) (s.modDram_onlyChanges _)

theorem State.ledgerMoved_look (s : State) (k : Nat) :
    Tab.look (s.ledgerMoved k).dram.scrubAt 6 = some (if (k + 1) * 64 < 0x4000000 then k + 1 else 0) := by
  rw [State.ledgerMoved]
  split <;> rw [State.modDram_dram, Tab.look_put_same]

theorem State.scrubStep_cache {s : State} {k : Nat} {pe : CellErr} (ce : CellErr) (present : k < Config.cobCount s.part)
    (on : s.domOn (2 + k) = true) (one : caught 0 false pe = 1) :
    s.scrubStep (8 + k) pe ce = (s.countS MPR_SRAM_STAT_CE MPR_SRAM_STAT_OVF 1).bucketUp (23 + k) := by
  rw [State.scrubStep, if_neg (by omega), if_neg (by omega), if_neg (by omega), Nat.add_sub_cancel_left, State.scrubCache,
    if_neg (by rw [on]; simpa using present), one]
  rfl

theorem State.leakBucket_onlyChanges (s : State) (b : Nat) : s.onlyChanges (s.leakBucket b) [.dram, .regs] := by
  have leaked : s.onlyChanges (s.setFld MPR_BKT_STAT_BUCKET (s.fld MPR_BKT_STAT_BUCKET b - 1) b) [.dram, .regs] :=
    State.onlyChanges_mono (s.setFld_onlyChanges _ _ _ _) (by decide)
  have low := State.onlyChanges_then leaked (State.modDram_onlyChanges _ (fun d => { d with raised := d.raised.filter (fun x => x ≠ b) })) (by decide)
  exact State.onlyChanges_ite _ (State.onlyChanges_ite _ (State.onlyChanges_then low (State.setFld_onlyChanges _ _ _ _ _) (by decide)) low) leaked

theorem bucketKey_inj {b x : Nat} (h : x ≠ b) : MPR_BKT_STAT.key x 0 ≠ MPR_BKT_STAT.key b 0 := by
  simp only [RegId.key, MPR_BKT_STAT]
  omega

/-- A leak changes its own bucket's register alone. -/
theorem State.leakBucket_regsBut (s : State) (b : Nat) : s.regsBut (s.leakBucket b) [MPR_BKT_STAT.key b 0] := by
  have leaked : s.regsBut (s.setFld MPR_BKT_STAT_BUCKET (s.fld MPR_BKT_STAT_BUCKET b - 1) b) [MPR_BKT_STAT.key b 0] := s.setFld_regsBut _ _ _ _
  have low : s.regsBut ((s.setFld MPR_BKT_STAT_BUCKET (s.fld MPR_BKT_STAT_BUCKET b - 1) b).modDram
      (fun d => { d with raised := d.raised.filter (fun x => x ≠ b) })) [MPR_BKT_STAT.key b 0] :=
    State.regsBut_trans leaked (State.regsBut_of_regs (State.modDram_onlyChanges _ _ .regs (by decide))
      (State.modDram_onlyChanges _ _ .part (by decide)) _)
  exact State.regsBut_ite _ (State.regsBut_ite _ (State.regsBut_trans low (State.setFld_regsBut _ _ _ _ _)) low) leaked

theorem State.fld_leakBucket_same (s : State) (b : Nat) :
    (s.leakBucket b).fld MPR_BKT_STAT_BUCKET b = s.fld MPR_BKT_STAT_BUCKET b - 1
      ∧ (s.leakBucket b).fld MPR_BKT_STAT_HEALTH b = (if s.fld MPR_BKT_STAT_HEALTH b = 2
            ∧ 2 * (s.fld MPR_BKT_STAT_BUCKET b - 1) < s.fld MPR_SCRUB_CFG_THRESH then 3 else s.fld MPR_BKT_STAT_HEALTH b) := by
  have top : s.fld MPR_BKT_STAT_BUCKET b < 65536 := s.fld_lt MPR_BKT_STAT_BUCKET b
  have fits : (s.fld MPR_BKT_STAT_BUCKET b - 1) % 2 ^ (MPR_BKT_STAT_BUCKET.hi + 1 - MPR_BKT_STAT_BUCKET.lo) = s.fld MPR_BKT_STAT_BUCKET b - 1 :=
    Nat.mod_eq_of_lt (show s.fld MPR_BKT_STAT_BUCKET b - 1 < 65536 by omega)
  have thresh : (s.setFld MPR_BKT_STAT_BUCKET (s.fld MPR_BKT_STAT_BUCKET b - 1) b).fld MPR_SCRUB_CFG_THRESH = s.fld MPR_SCRUB_CFG_THRESH := by
    refine State.fld_setFld_other _ _ _ _ _ _ _ _ ?_
    simp only [RegId.key, MPR_BKT_STAT, MPR_BKT_STAT_BUCKET, MPR_SCRUB_CFG_THRESH, MPR_SCRUB_CFG]
    omega
  have bucket : ∀ u : State, (u.setFld MPR_BKT_STAT_HEALTH 3 b).fld MPR_BKT_STAT_BUCKET b = u.fld MPR_BKT_STAT_BUCKET b := fun u =>
    State.fld_setFld_bits u _ _ _ _ _ (by decide)
  have health : (s.setFld MPR_BKT_STAT_BUCKET (s.fld MPR_BKT_STAT_BUCKET b - 1) b).fld MPR_BKT_STAT_HEALTH b = s.fld MPR_BKT_STAT_HEALTH b :=
    State.fld_setFld_bits s _ _ _ _ _ (by decide)
  have own := State.fld_setFld_same s MPR_BKT_STAT_BUCKET (s.fld MPR_BKT_STAT_BUCKET b - 1) b 0 (by decide)
  rw [fits] at own
  rw [State.leakBucket]
  dsimp only
  rw [thresh, State.modDram_fld, health]
  by_cases low : 2 * (s.fld MPR_BKT_STAT_BUCKET b - 1) < s.fld MPR_SCRUB_CFG_THRESH
  · by_cases worn : s.fld MPR_BKT_STAT_HEALTH b = 2
    · rw [if_pos low, if_pos worn, if_pos ⟨worn, low⟩, bucket, State.modDram_fld, own, State.fld_setFld_same _ _ _ _ _ (by decide)]
      exact ⟨rfl, rfl⟩
    · rw [if_pos low, if_neg worn, if_neg (fun h => worn h.1), State.modDram_fld, State.modDram_fld, own, health]
      exact ⟨rfl, rfl⟩
  · rw [if_neg low, if_neg (fun h => low h.2), own, health]
    exact ⟨rfl, rfl⟩

/-- Every bucket below n has leaked. -/
def State.bucketsLeaked (s : State) (n : Nat) : State := (List.range n).foldl (fun s b => s.leakBucket b) s

theorem State.bucketsLeaked_succ (s : State) (n : Nat) : s.bucketsLeaked (n + 1) = (s.bucketsLeaked n).leakBucket n := by
  rw [State.bucketsLeaked, List.range_succ, List.foldl_append]
  rfl

theorem State.bucketsLeaked_onlyChanges (s : State) (n : Nat) : s.onlyChanges (s.bucketsLeaked n) [.dram, .regs] :=
  State.foldl_onlyChanges _ (fun s b => s.leakBucket_onlyChanges b) _ s

/-- Registers that no bucket below n stands in are left alone. -/
theorem State.getReg_bucketsLeaked (s : State) (n k : Nat) (h : ∀ b < n, k ≠ MPR_BKT_STAT.key b 0) : (s.bucketsLeaked n).getReg k = s.getReg k := by
  induction n with
  | zero => rfl
  | succ n ih =>
    rw [State.bucketsLeaked_succ, State.leakBucket_regsBut _ n k (by simpa using h n (by omega)), ih fun b hb => h b (by omega)]

theorem State.fld_bucketsLeaked_other (s : State) (n : Nat) (f : Field) (i : Nat) (h : ∀ b < n, f.reg.key i 0 ≠ MPR_BKT_STAT.key b 0) :
    (s.bucketsLeaked n).fld f i = s.fld f i :=
  congrArg (fun w => bits w f.hi f.lo) (s.getReg_bucketsLeaked n _ h)

theorem State.fld_bucketsLeaked (s : State) {n b : Nat} (h : b < n) :
    (s.bucketsLeaked n).fld MPR_BKT_STAT_BUCKET b = s.fld MPR_BKT_STAT_BUCKET b - 1
      ∧ (s.bucketsLeaked n).fld MPR_BKT_STAT_HEALTH b = (if s.fld MPR_BKT_STAT_HEALTH b = 2
            ∧ 2 * (s.fld MPR_BKT_STAT_BUCKET b - 1) < s.fld MPR_SCRUB_CFG_THRESH then 3 else s.fld MPR_BKT_STAT_HEALTH b) := by
  induction n with
  | zero => omega
  | succ n ih =>
    rw [State.bucketsLeaked_succ]
    by_cases here : b = n
    · subst here
      have thresh : (s.bucketsLeaked b).fld MPR_SCRUB_CFG_THRESH = s.fld MPR_SCRUB_CFG_THRESH :=
        s.fld_bucketsLeaked_other b _ 0 fun x _ => by
          simp only [RegId.key, MPR_BKT_STAT, MPR_SCRUB_CFG_THRESH, MPR_SCRUB_CFG]
          omega
      have bucket : (s.bucketsLeaked b).fld MPR_BKT_STAT_BUCKET b = s.fld MPR_BKT_STAT_BUCKET b :=
        s.fld_bucketsLeaked_other b _ b fun x hx => bucketKey_inj (by omega)
      have health : (s.bucketsLeaked b).fld MPR_BKT_STAT_HEALTH b = s.fld MPR_BKT_STAT_HEALTH b :=
        s.fld_bucketsLeaked_other b _ b fun x hx => bucketKey_inj (by omega)
      have leaks := (s.bucketsLeaked b).fld_leakBucket_same b
      rw [thresh, bucket, health] at leaks
      exact leaks
    · have kept : ∀ f : Field, f.reg = MPR_BKT_STAT → ((s.bucketsLeaked n).leakBucket n).fld f b = (s.bucketsLeaked n).fld f b := fun f hf =>
        State.fld_of_regsBut (State.leakBucket_regsBut _ n) f b 0 (by rw [hf]; simpa using bucketKey_inj here)
      rw [kept _ rfl, kept _ rfl]
      exact ih (by omega)

/-- Every fence bucket below n has leaked. -/
def State.fencesLeaked (s : State) (n : Nat) : State :=
  (List.range n).foldl (fun s c => s.setFld DRC_CH_FBKT_FBKT (s.fld DRC_CH_FBKT_FBKT c - 1) c) s

theorem State.fencesLeaked_succ (s : State) (n : Nat) : s.fencesLeaked (n + 1)
    = (s.fencesLeaked n).setFld DRC_CH_FBKT_FBKT ((s.fencesLeaked n).fld DRC_CH_FBKT_FBKT n - 1) n := by
  rw [State.fencesLeaked, List.range_succ, List.foldl_append]
  rfl

theorem State.fencesLeaked_onlyChanges (s : State) (n : Nat) : s.onlyChanges (s.fencesLeaked n) [.regs] :=
  State.foldl_onlyChanges _ (fun s _ => s.setFld_onlyChanges _ _ _ _) _ s

theorem State.fld_fencesLeaked_other (s : State) (n : Nat) (f : Field) (i : Nat)
    (h : ∀ c < n, f.reg.key i 0 ≠ DRC_CH_FBKT.key c 0) :
    (s.fencesLeaked n).fld f i = s.fld f i := by
  induction n with
  | zero => rfl
  | succ n ih => rw [State.fencesLeaked_succ, State.fld_setFld_other _ DRC_CH_FBKT_FBKT f _ n 0 i 0 (h n (by omega)), ih fun c hc => h c (by omega)]

theorem fenceKey_inj {c x : Nat} (h : x ≠ c) : DRC_CH_FBKT.key x 0 ≠ DRC_CH_FBKT.key c 0 := by
  simp only [RegId.key, DRC_CH_FBKT]
  omega

theorem State.fld_fencesLeaked (s : State) {n c : Nat} (h : c < n) :
    (s.fencesLeaked n).fld DRC_CH_FBKT_FBKT c = s.fld DRC_CH_FBKT_FBKT c - 1 := by
  induction n with
  | zero => omega
  | succ n ih =>
    rw [State.fencesLeaked_succ]
    by_cases here : c = n
    · subst here
      have top : s.fld DRC_CH_FBKT_FBKT c < 65536 := s.fld_lt DRC_CH_FBKT_FBKT c
      rw [State.fld_setFld_same _ _ _ _ _ (by decide), s.fld_fencesLeaked_other c DRC_CH_FBKT_FBKT c fun x _ => fenceKey_inj (by omega)]
      exact Nat.mod_eq_of_lt (show s.fld DRC_CH_FBKT_FBKT c - 1 < 65536 by omega)
    · rw [State.fld_setFld_other _ DRC_CH_FBKT_FBKT DRC_CH_FBKT_FBKT _ n 0 c 0 (fenceKey_inj here), ih (by omega)]

theorem exec_bucketLeak (s : State) : exec .bucketLeak s
    = (((s.fresh.every .leak (s.fld MPR_SCRUB_CFG_LEAK_MS * 1000000)).bucketsLeaked 31).fencesLeaked (Config.drcCount s.part)).done s := rfl

/-- MPR_INJ_CTRL takes the fields written (R400). -/
def State.injArmed (s : State) (w : Nat) : State := s.putReg MPR_INJ_CTRL (w / 2 ^ 24 * 2 ^ 24 % 2 ^ 32)

theorem State.injArmed_reg (s : State) (w : Nat) : (s.injArmed w).reg MPR_INJ_CTRL = w / 2 ^ 24 * 2 ^ 24 % 2 ^ 32 := by
  rw [State.injArmed, State.reg_putReg_same, Nat.mod_mod]

theorem State.injWrite_arms {s : State} {m w : Nat} (arm : bit w 31 = true) (grant : bit (s.fld SGN_TOKEN_LATCH_GRANT) 2 = true)
    (master : isMgmt m = true ∨ m = 0xFE) (may : s.injectable w (s.pair MPR_INJ_ADDR_LO MPR_INJ_ADDR_HI / 64 * 64) = true) :
    s.injWrite m w = if bit w 24 then (s.injArmed w).injectOn (s.pair MPR_INJ_ADDR_LO MPR_INJ_ADDR_HI / 64 * 64 / 64) else s.injArmed w := by
  have allowed : ¬ ((!bit (s.fld SGN_TOKEN_LATCH_GRANT) 2) = true ∨ ((!isMgmt m) = true ∧ m ≠ 0xFE)
      ∨ (!s.injectable w (s.pair MPR_INJ_ADDR_LO MPR_INJ_ADDR_HI / 64 * 64)) = true) := by
    rw [grant, may]
    rcases master with h | h <;> simp [h]
  rw [State.injWrite, if_neg (by rw [arm]; decide), if_neg allowed]
  rfl

theorem State.injWrite_discards {s : State} {m w : Nat} (arm : bit w 31 = true) (grant : bit (s.fld SGN_TOKEN_LATCH_GRANT) 2 = false) :
    s.injWrite m w = s.raise 168 2 (w64 (s.pair MPR_INJ_ADDR_LO MPR_INJ_ADDR_HI / 64 * 64) ++ [bits w 30 28]) := by
  rw [State.injWrite, if_neg (by rw [arm]; decide), if_pos (.inl (by rw [grant]; rfl))]

theorem exec_mprInjCtrlWrite (r : Req) (w : Nat) (s : State) : exec (.mprInjCtrlWrite r w) s
    = (s.fresh.atRegW r (MPR_INJ_CTRL.key 0 0) (fun s => s.injWrite r.master w)).done s := rfl

/-! ### The commands -/

/-- What a failed training leaves of its channel (R383), before the map is fixed. -/
theorem State.failed_of_rate {s : State} {c : Nat} (r : TrainReport) (hc : c < 6) :
    ((((s.trainShown c r 0).raise 165 2 [c, 0]).fenceChan c 1).trainCounted c).dram.trained = s.dram.trained ++ [c]
      ∧ (s.chanFenced c = false →
        ((((s.trainShown c r 0).raise 165 2 [c, 0]).fenceChan c 1).trainCounted c).fld DRC_CH_STAT_STATE c = 5
          ∧ ((((s.trainShown c r 0).raise 165 2 [c, 0]).fenceChan c 1).trainCounted c).chanFenced c = true)
      ∧ ⟨165, 2, [c, 0], none, 0, s.time⟩ ∈ ((((s.trainShown c r 0).raise 165 2 [c, 0]).fenceChan c 1).trainCounted c).evt.inbox
      ∧ s.onlyChanges ((((s.trainShown c r 0).raise 165 2 [c, 0]).fenceChan c 1).trainCounted c) [.regs, .dram, .ftl, .freeCtr, .evt] := by
  have raised := State.onlyChanges_append (s.trainShown_onlyChanges c r 0) (State.raise_onlyChanges _ 165 2 [c, 0])
  have fenced := State.onlyChanges_append raised (State.fenceChan_onlyChanges _ c 1)
  refine ⟨?_, fun free => ?_, ?_, ?_⟩
  · rw [State.trainCounted, State.modDram_dram, fenced .dram (by decide)]
  · have free' : ((s.trainShown c r 0).raise 165 2 [c, 0]).chanFenced c = false := by
      rw [State.chanFenced, State.raise_fld, State.fld_trainShown_off _ _ _ _ _ _ (by decide)]
      exact free
    rw [State.chanFenced, State.trainCounted, State.modDram_fld, State.modDram_fld]
    exact State.fenceChan_fences 1 hc free'
  · rw [State.trainCounted_onlyChanges _ c .evt (by decide)]
    refine State.fenceChan_inbox _ _ _ _ ?_
    rw [State.raise_inbox, s.trainShown_onlyChanges c r 0 .time (by decide)]
    exact List.mem_append_right _ (List.mem_singleton_self _)
  · exact State.onlyChanges_mono (State.onlyChanges_append fenced (State.trainCounted_onlyChanges _ _)) (by decide)

theorem exec_dramRefresh {s : State} {c : Nat} (rank : Nat) (on : s.serves c = true) : exec (.dramRefresh c rank) s
    = (s.fresh.modDram (fun d => { d with refreshes := Tab.put d.refreshes (2 * c + rank) (Tab.lookD d.refreshes (2 * c + rank) 0 + 1) })).done s :=
  congrArg (State.done · s) (if_pos on)

theorem exec_dramMr4Poll (c rank : Nat) (hot above : Bool) (temp : Int) (s : State) :
    exec (.dramMr4Poll c rank hot above temp) s = ((s.fresh.every (.mr4 c rank) 1000000).mr4 c rank hot above temp).done s := rfl

theorem exec_dramOscRead (c drift : Nat) (ok : Bool) (s : State) : exec (.dramOscRead c drift ok) s
    = ((s.fresh.every (.osc c) (s.fld DRC_TRAIN_CFG_OSC_MS * 1000000)).oscRead c drift ok).done s := rfl

theorem exec_disturbWindowEnd (c : Nat) (s : State) :
    exec (.disturbWindowEnd c) s = ((s.fresh.every (.disturb c) 32000000).disturbEnd c).done s := rfl

theorem exec_dramRetrainPeriodic {s : State} {c : Nat} (h : s.fld DRC_CH_STAT_STATE c = 2) : exec (.dramRetrainPeriodic c) s
    = ((s.fresh.notBefore (Tab.lookD s.dram.trainAt c 0 + s.fld DRC_TRAIN_CFG_RETRAIN_H * 3600000000000)).retraining c).done s := by
  refine congrArg (State.done · s) ((if_pos (c := s.fresh.fld DRC_CH_STAT_STATE c = 2) h).trans ?_)
  exact if_pos (.inl h)

theorem exec_dramDegradedRetry {s : State} {c : Nat} (h : s.fld DRC_CH_STAT_STATE c = 4) : exec (.dramDegradedRetry c) s
    = ((s.fresh.notBefore (s.since (.retry c) + 600000000000)).retraining c).done s := by
  refine congrArg (State.done · s) ((if_pos (c := s.fresh.fld DRC_CH_STAT_STATE c = 4) h).trans ?_)
  exact if_pos (.inr h)

theorem exec_dramRetrainDone (c : Nat) (ok : Bool) (r : TrainReport) (s : State) :
    exec (.dramRetrainDone c ok r) s = (s.fresh.retrainEnd c ok r).done s := rfl

theorem exec_dramSrEntry {s : State} {c : Nat} (en : s.flag DRC_SR_CFG_SR_EN = true)
    (h : s.fld DRC_CH_STAT_STATE c = 2 ∨ s.fld DRC_CH_STAT_STATE c = 4) : exec (.dramSrEntry c false) s
    = (((s.fresh.notBefore (s.since (.request c) + s.fld DRC_SR_CFG_SR_IDLE * 1000)).stateSet c 6 (s.fld DRC_CH_STAT_STATE c)).stamp
        (.selfRefresh c)).done s :=
  congrArg (State.done · s) (if_pos ⟨en, rfl, h⟩)

theorem exec_dramSrEntry_present (c : Nat) (s : State) : exec (.dramSrEntry c true) s = s.fresh.done s :=
  congrArg (State.done · s) (if_neg (fun h => Bool.noConfusion h.2.1))

theorem exec_dramDeepSrEntry {s : State} {c : Nat} (en : s.flag DRC_SR_CFG_DEEP_EN = true) (h : s.fld DRC_CH_STAT_STATE c = 6) :
    exec (.dramDeepSrEntry c) s
      = ((s.fresh.notBefore (s.since (.selfRefresh c) + s.fld DRC_SR_CFG_DEEP_MS * 1000000)).setFld DRC_CH_STAT_STATE 7 c).done s :=
  congrArg (State.done · s) (if_pos (c := s.fresh.flag DRC_SR_CFG_DEEP_EN = true ∧ s.fresh.fld DRC_CH_STAT_STATE c = 6) ⟨en, h⟩)

theorem exec_dramSrExit (c drift : Nat) (ok : Bool) (s : State) : exec (.dramSrExit c drift ok) s
    = (if s.fld DRC_CH_STAT_STATE c = 7 then (s.fresh.wakeChan c).oscRead c drift ok else s.fresh.wakeChan c).done s := rfl

theorem exec_scrubStep (m : Nat) (pe ce : CellErr) (s : State) :
    exec (.scrubStep m pe ce) s = ((s.fresh.every (.scrub m) (s.scrubGap m)).scrubStep m pe ce).done s := rfl

/-- Settles O27: each command is one change of a channel, its registers and its place in the memory state. -/
theorem memoryChannelCommandsComplete : Obligations.MemoryChannelCommandsComplete := by
  unfold Obligations.MemoryChannelCommandsComplete
  refine ⟨?train, ?sram, ?channel, ?serving, ?disturb, ?states, ?scrub, ?ledger, ?caches, ?leak, ?inject⟩
  case train =>
    intro s c r present hc first on listed hrate rate fin
    have runs : exec (.dramTrainingComplete c r) s = (s.fresh.trainAtRate c r rate).done s :=
      (exec_dramTrainingComplete c r s).trans (congrArg (State.done · s) (State.trainEnd_runs (s := s.fresh) r present first on))
    refine ⟨fun some => completes_of_done runs ?_, fun none => completes_of_done runs ?_⟩
    · have v := State.trained_of_rate (s := s.fresh) (c := c) (channelGib_density listed) hrate
      exact ⟨_, State.trainAtRate_serves listed some, v.state, v.rateShown, v.width, v.ranks, v.density, v.rdEyeW, v.wrEyeW, v.rdEyeH, v.wrEyeH,
        v.temp, v.trained, v.inbox, State.onlyChanges_of_fresh v.frame⟩
    · obtain ⟨trained, fenced, raised, frame⟩ := s.fresh.failed_of_rate r hc
      rw [none, State.trainAtRate_fails listed]
      exact ⟨_, rfl, trained, fenced, raised, State.onlyChanges_of_fresh frame⟩
  case sram =>
    intro s
    have mem : (s.fresh.initUnit 6).mem = s.fresh.sramFilled.mem := by
      rw [State.initUnit_sram, State.initPhase_onlyChanges _ .mem (by decide)]
      rfl
    refine completes_of_done (exec_memoryInitComplete 6 s) ⟨?_, fun a lo hi => ?_, fun a out => ?_, ?_⟩
    · rw [State.initUnit_sram, State.flag, State.fld_initPhase _ _ (by decide), State.fld_setFld_same _ _ _ _ _ (by decide)]
      decide
    · rw [mem, State.sramFilled_mem, if_neg (by simpa using ⟨lo, hi⟩)]
    · rw [mem, State.sramFilled_mem, if_pos (by simpa using out)]
      rfl
    · rw [State.initUnit_sram]
      exact State.onlyChanges_of_fresh (State.onlyChanges_then (State.onlyChanges_append s.fresh.sramFilled_onlyChanges
        (State.setFld_onlyChanges _ _ _ _ _)) (State.initPhase_onlyChanges _) (by decide))
  case channel =>
    intro s u present hu trained free
    have unit := State.initUnit_chan (s := s.fresh) (by omega) present trained free
    have filled := State.onlyChanges_append (s.fresh.chanDone_onlyChanges u) (State.progressed_onlyChanges _)
    have frame := State.onlyChanges_then filled (State.initPhase_onlyChanges _) (by decide)
    have after := State.onlyChanges_append (State.progressed_onlyChanges (s.fresh.chanDone u)) (State.initPhase_onlyChanges _)
    have done : (s.fresh.chanDone u).progressed.initPhase.fld CFG_MEM_INIT_DRAM_DONE = (s.fresh.chanDone u).fld CFG_MEM_INIT_DRAM_DONE := by
      rw [State.fld_initPhase _ _ (by decide), State.fld_progressed _ _ (fun u v => State.fld_setFld_bits u _ _ _ _ _ (by decide))]
    have fenced : (s.fresh.chanDone u).progressed.initPhase.fld DRC_FENCE_CFG_FENCED = (s.fresh.chanDone u).fld DRC_FENCE_CFG_FENCED := by
      rw [State.fld_initPhase _ _ (by decide), State.fld_progressed _ _ (fun u v => State.fld_setFld_off u _ _ _ _ _ (by decide))]
    refine completes_of_done (exec_memoryInitComplete u s) ?_
    rw [unit]
    refine ⟨?_, fun a => ?_, ?_, fun mapped all => ?_, State.onlyChanges_mono (State.onlyChanges_of_fresh frame) (by decide)⟩
    · rw [done, State.bit_chanDone _ hu]
    · rw [after .mem (by decide)]
      exact s.fresh.chanFilled_mem u a
    · rw [State.fld_initPhase _ _ (by decide)]
      exact (Nat.le_of_eq (s.fresh.fld_chanDone_progress u).symm).trans (State.progressed_rises _)
    · rw [State.fld_initPhase _ _ (by decide)]
      rw [after .dram (by decide)] at mapped
      rw [State.goodChannels_congr (after .part (by decide)) fenced, done] at all
      exact State.progressed_full mapped all
  case serving =>
    intro s c rank on hc hr
    refine ⟨?refresh, fun hot above temp => ?mr4, fun drift ok => ?osc⟩
    case refresh =>
      refine completes_of_done (exec_dramRefresh rank on) ⟨?_, State.onlyChanges_of_fresh (State.modDram_onlyChanges _ _)⟩
      rw [State.modDram_dram, Tab.look_put_same]
      rfl
    case mr4 =>
      have on' : (s.fresh.every (.mr4 c rank) 1000000).serves c = true := on
      obtain ⟨state, limited, frame⟩ := State.mr4_reads rank hot above temp on'
      obtain ⟨hotKey, aboveKey, others⟩ := (s.fresh.every (.mr4 c rank) 1000000).limitsRead_limited c rank hot above
      have inbox := (s.fresh.every (.mr4 c rank) 1000000).limitsRead_inbox c rank hot above
      have read := (s.fresh.every (.mr4 c rank) 1000000).limitsRead_onlyChanges c rank hot above
      have time := (frame .time (by decide)).trans (read .time (by decide))
      refine completes_of_done (exec_dramMr4Poll c rank hot above temp s) ⟨time, ?_, ?_, ?_, ?_, ?_, ?_⟩
      · rw [limited]
        exact hotKey
      · rw [limited]
        exact aboveKey
      · rw [limited]
        exact others
      · rw [frame .evt (by decide), inbox, time]
        rfl
      · rw [state]
        simp only [decide_eq_true_eq]
        rfl
      · exact State.onlyChanges_mono (State.onlyChanges_of_fresh (State.onlyChanges_append (State.every_onlyChanges _ _ _)
          (State.onlyChanges_append read frame))) (by decide)
    case osc =>
      have due := s.fresh.every_onlyChanges (.osc c) (s.fld DRC_TRAIN_CFG_OSC_MS * 1000000)
      have time := State.oscRead_onlyChanges (s.fresh.every (.osc c) (s.fld DRC_TRAIN_CFG_OSC_MS * 1000000)) c drift ok .time (by decide)
      refine completes_of_done (exec_dramOscRead c drift ok s) ⟨fun beyond failed => ?_, time, fun within => ?_, fun passed => ?_⟩
      · have on' : (s.fresh.every (.osc c) (s.fld DRC_TRAIN_CFG_OSC_MS * 1000000)).serves c = true := on
        subst failed
        have burst := State.burst_onlyChanges (s.fresh.every (.osc c) (s.fld DRC_TRAIN_CFG_OSC_MS * 1000000)) c
        rw [State.oscRead_degrades on' beyond]
        refine ⟨(State.degrade_state _ c _).1, (State.degrade_state _ c _).2, ?_, ?_⟩
        · rw [State.degrade_inbox, State.fld_burst, State.degrade_onlyChanges _ c _ .time (by decide), burst .evt (by decide)]
          rfl
        · exact State.onlyChanges_mono (State.onlyChanges_of_fresh (State.onlyChanges_append due (State.onlyChanges_append burst
            (State.degrade_onlyChanges _ c _)))) (by decide)
      · rw [State.oscRead_quiet (s := s.fresh.every _ _) ok within]
        exact State.onlyChanges_of_fresh due
      · subst passed
        exact State.onlyChanges_of_fresh (State.onlyChanges_append due (State.oscRead_onlyChanges_of_ok _ c drift))
  case disturb =>
    intro s c
    have due := s.fresh.every_onlyChanges (.disturb c) 32000000
    have step := ((s.fresh.every (.disturb c) 32000000).strikesGone c).throttleStep_onlyChanges c (Tab.lookD s.dram.throttleLeft c 0)
    refine completes_of_done (exec_disturbWindowEnd c s) ?_
    rw [State.disturbEnd_eq]
    refine ⟨step .time (by decide), fun k => ?_, fun none => ?_, fun last => ?_, fun n more => ?_, ?_⟩
    · rw [State.throttleStep_strikes, State.strikesGone_look]
      rfl
    · rw [show Tab.lookD (s.fresh.every (.disturb c) 32000000).dram.throttleLeft c 0 = 0 from none]
      exact ⟨rfl, rfl⟩
    · rw [show Tab.lookD (s.fresh.every (.disturb c) 32000000).dram.throttleLeft c 0 = 1 from last]
      exact ⟨(State.fld_throttleLifted _ c).1, (State.fld_throttleLifted _ c).2, State.throttleLifted_event _ c⟩
    · rw [show Tab.lookD (s.fresh.every (.disturb c) 32000000).dram.throttleLeft c 0 = n + 2 from more]
      exact ⟨Tab.lookD_put_same _ _ _ _, rfl, rfl⟩
    · exact State.onlyChanges_mono (State.onlyChanges_of_fresh (State.onlyChanges_append due
        (State.onlyChanges_append (State.strikesGone_onlyChanges _ c) step))) (by decide)
  case states =>
    intro s c r hc
    refine ⟨fun active => ?periodic, fun degraded => ?retry, fun retrains => ⟨?passes, ?fails⟩, fun en awake => ⟨?entry, ?present⟩,
      fun en asleep => ?deep, fun drift ok asleep base quiet => ?exit⟩
    case periodic =>
      have frame := State.onlyChanges_append (s.fresh.notBefore_onlyChanges
        (Tab.lookD s.dram.trainAt c 0 + s.fld DRC_TRAIN_CFG_RETRAIN_H * 3600000000000)) (State.retraining_onlyChanges _ c)
      refine completes_of_done (exec_dramRetrainPeriodic active) ⟨State.fld_retraining _ c, ?_, State.retraining_onlyChanges _ c .time (by decide),
        State.onlyChanges_mono (State.onlyChanges_of_fresh frame) (by decide)⟩
      exact (State.retraining_base _ c).trans (congrArg some active)
    case retry =>
      have frame := State.onlyChanges_append (s.fresh.notBefore_onlyChanges (s.since (.retry c) + 600000000000)) (State.retraining_onlyChanges _ c)
      refine completes_of_done (exec_dramDegradedRetry degraded) ⟨State.fld_retraining _ c, ?_, State.retraining_onlyChanges _ c .time (by decide),
        State.onlyChanges_mono (State.onlyChanges_of_fresh frame) (by decide)⟩
      exact (State.retraining_base _ c).trans (congrArg some degraded)
    case passes =>
      obtain ⟨state, margin, temp, at_, inbox, frame⟩ := State.retrainEnd_settles (s := s.fresh) r retrains
      exact completes_of_done (exec_dramRetrainDone c true r s) ⟨state, margin, temp, at_, inbox,
        State.onlyChanges_mono (State.onlyChanges_of_fresh frame) (by decide)⟩
    case fails =>
      refine completes_of_done (exec_dramRetrainDone c false r s) ?_
      rw [State.retrainEnd_fails (s := s.fresh) r retrains]
      exact ⟨(State.degrade_state _ c _).1, State.degrade_inbox _ c _,
        State.onlyChanges_mono (State.onlyChanges_of_fresh (State.degrade_onlyChanges _ c _)) (by decide)⟩
    case entry =>
      have frame := State.onlyChanges_append (s.fresh.notBefore_onlyChanges (s.since (.request c) + s.fld DRC_SR_CFG_SR_IDLE * 1000))
        (State.onlyChanges_append (State.stateSet_onlyChanges _ c 6 (s.fld DRC_CH_STAT_STATE c)) (State.stamp_onlyChanges _ (.selfRefresh c)))
      refine completes_of_done (exec_dramSrEntry en awake) ⟨?_, State.stateSet_base _ c 6 _, rfl,
        State.onlyChanges_mono (State.onlyChanges_of_fresh frame) (by decide)⟩
      rw [State.stamp_fld, State.fld_stateSet _ _ _ (by decide)]
    case present =>
      exact completes_of_done (exec_dramSrEntry_present c s) s.fresh_onlyChanges
    case deep =>
      have frame := State.onlyChanges_append (s.fresh.notBefore_onlyChanges (s.since (.selfRefresh c) + s.fld DRC_SR_CFG_DEEP_MS * 1000000))
        (State.setFld_onlyChanges _ DRC_CH_STAT_STATE 7 c 0)
      refine completes_of_done (exec_dramDeepSrEntry en asleep) ⟨?_, rfl, State.onlyChanges_mono (State.onlyChanges_of_fresh frame) (by decide)⟩
      rw [State.fld_setFld_same _ _ _ _ _ (by decide)]
      rfl
    case exit =>
      have woken := State.fld_wakeChan (s := s.fresh) (c := c) asleep base
      have wake := s.fresh.wakeChan_onlyChanges c
      have osc : (s.fresh.wakeChan c).fld DRC_TRAIN_CFG_OSC_PS = s.fld DRC_TRAIN_CFG_OSC_PS := s.fresh.fld_wakeChan_off c _ 0 (by decide)
      refine completes_of_done (exec_dramSrExit c drift ok s) ?_
      rcases quiet with light | within | passed
      · rw [if_neg (by omega)]
        exact ⟨woken, State.onlyChanges_mono (State.onlyChanges_of_fresh wake) (by decide)⟩
      · rw [State.oscRead_quiet ok (by rw [osc]; exact within), ite_self]
        exact ⟨woken, State.onlyChanges_mono (State.onlyChanges_of_fresh wake) (by decide)⟩
      · subst passed
        have burst := State.oscRead_onlyChanges_of_ok (s.fresh.wakeChan c) c drift
        have kept := State.fld_congr _ _ (burst .regs (by decide)) (burst .part (by decide)) DRC_CH_STAT_STATE c 0
        have both := State.onlyChanges_append wake burst
        split
        · exact ⟨kept.trans woken, State.onlyChanges_mono (State.onlyChanges_of_fresh both) (by decide)⟩
        · exact ⟨woken, State.onlyChanges_mono (State.onlyChanges_of_fresh wake) (by decide)⟩
  case scrub =>
    intro s m i pe ce hm found on done k a light valid lower w
    have chan : w.scrubStep m pe ce = w.scrubDram m pe ce := if_pos hm
    have step := State.scrubDram_eq (s := w) pe ce found on done
    have runs : exec (.scrubStep m pe ce) s = (w.scrubDram m pe ce).done s := (exec_scrubStep m pe ce s).trans (congrArg (State.done · s) chan)
    refine ⟨fun refused => completes_of_done runs ?_, fun granted => completes_of_done runs ?_⟩
    · rw [step, if_pos (by rw [show w.bgGrant 1 m true false = none from refused]; rfl)]
    · have open_ : ¬ (w.bgGrant 1 m true false).isNone = true := fun h => granted (Option.isNone_iff_eq_none.mp h)
      have heavy : (w.bgCharge 1 m (s.lineNs m)).dramCode a ≠ 2 := light
      have known : (w.bgCharge 1 m (s.lineNs m)).swMode 0x40 = true → (w.bgCharge 1 m (s.lineNs m)).lineValid 0x40 a = true := valid
      have primary : (w.bgCharge 1 m (s.lineNs m)).upperHalf a = false := lower
      have line : (w.bgCharge 1 m (s.lineNs m)).scrubLine m a pe ce = ((w.bgCharge 1 m (s.lineNs m)).dramLine 0x58 a pe ce true).2 := by
        rw [State.scrubLine, if_neg, if_neg (by rw [primary]; decide)]
        rintro (h | ⟨h, n⟩)
        · exact heavy h
        · simp [known h] at n
      have moves : w.scrubDram m pe ce = (((w.bgCharge 1 m (s.lineNs m)).dramLine 0x58 a pe ce true).2).scrubMoved m k := by
        rw [step, if_neg open_, ← line]
        rfl
      rw [moves]
      refine ⟨_, rfl, ?_, State.scrubMoved_look _ _ _, State.scrubMoved_onlyChanges _ _ _⟩
      rw [State.scrubMoved_onlyChanges _ _ _ .mem (by decide), State.dramLine_mem]
      rfl
  case ledger =>
    intro s pe ce
    refine completes_of_done (exec_scrubStep 6 pe ce s) ?_
    rw [State.scrubStep_ledger]
    refine ⟨_, rfl, ?_, State.ledgerMoved_look _ _, State.ledgerMoved_onlyChanges _ _⟩
    rw [State.ledgerMoved_onlyChanges _ _ .mem (by decide), State.lineRead_mem]
    rfl
  case caches =>
    intro s k pe ce present on one
    refine completes_of_done (exec_scrubStep (8 + k) pe ce s) ?_
    rw [State.scrubStep_cache (s := s.fresh.every (.scrub (8 + k)) (s.scrubGap (8 + k))) ce present on one]
    refine ⟨rfl, ?_⟩
    rw [State.bucketUp_mem, State.countS_mem]
    rfl
  case leak =>
    intro s
    have due := s.fresh.every_onlyChanges .leak (s.fld MPR_SCRUB_CFG_LEAK_MS * 1000000)
    have buckets := State.bucketsLeaked_onlyChanges (s.fresh.every .leak (s.fld MPR_SCRUB_CFG_LEAK_MS * 1000000)) 31
    have fences := State.fencesLeaked_onlyChanges ((s.fresh.every .leak (s.fld MPR_SCRUB_CFG_LEAK_MS * 1000000)).bucketsLeaked 31)
      (Config.drcCount s.part)
    have apart : ∀ b c, b < 31 → MPR_BKT_STAT.key b 0 ≠ DRC_CH_FBKT.key c 0 := fun b c hb => by
      simp only [RegId.key, MPR_BKT_STAT, DRC_CH_FBKT]
      omega
    refine completes_of_done (exec_bucketLeak s) ⟨fun b hb => ⟨?_, ?_⟩, fun c hc => ?_, ?_, ?_⟩
    · rw [State.fld_fencesLeaked_other _ _ MPR_BKT_STAT_BUCKET b (fun c _ => apart b c hb), (State.fld_bucketsLeaked _ hb).1, State.every_fld]
      rfl
    · rw [State.fld_fencesLeaked_other _ _ MPR_BKT_STAT_HEALTH b (fun c _ => apart b c hb), (State.fld_bucketsLeaked _ hb).2, State.every_fld,
        State.every_fld, State.every_fld]
      rfl
    · rw [State.fld_fencesLeaked _ hc, State.fld_bucketsLeaked_other _ _ DRC_CH_FBKT_FBKT c (fun b hb => (apart b c hb).symm), State.every_fld]
      rfl
    · exact (fences .time (by decide)).trans (buckets .time (by decide))
    · exact State.onlyChanges_mono (State.onlyChanges_of_fresh (State.onlyChanges_append due (State.onlyChanges_append buckets fences)))
        (by decide)
  case inject =>
    intro s r w grants arm a
    rw [show MPR_INJ_CTRL.win = MPR_INJ_CTRL.key 0 0 / 0x100000 by decide]
    refine ⟨fun grant master may => ?arms, fun grant => ?discards⟩
    case arms =>
      have armed := State.injWrite_arms (s := s.fresh) arm grant master may
      refine acks_of_write (exec_mprInjCtrlWrite r w s) grants ?_
      refine ⟨s.fresh.injArmed w, armed, ?_, ?_, ?_⟩
      · exact s.fresh.injArmed_reg w
      · exact s.fresh.setReg_regsBut (MPR_INJ_CTRL.key 0 0) _
      · exact State.onlyChanges_of_fresh (State.setReg_onlyChanges _ _ _)
    case discards =>
      refine acks_of_write (exec_mprInjCtrlWrite r w s) grants ?_
      rw [State.injWrite_discards (s := s.fresh) arm grant]
      exact ⟨rfl, State.onlyChanges_of_fresh (State.raise_onlyChanges _ _ _ _)⟩

end Sys2Proof.Machine
end

section
/-!
SUPPORT. Firmware and image commands (R338-R341): what a completion keeps of the host interface, the checks of a commit, and how the
ledger engine begins an ACTIVATE entry (R124).
-/
namespace Sys2Proof.Machine

/-! ### What a completion keeps -/

/-- A completion touches what is outstanding, its locks, the queued completions and the error logs alone of the host interface. -/
theorem State.complete_host (s : State) (c : CmdRef) (sct sc : Nat) (dnr : Bool) (dw0 : Nat) : ∃ o l q k,
    (s.complete c sct sc dnr dw0).host = { s.host with out := o, locks := l, cqes := q, ctrls := k } := by
  simp only [State.complete, State.logError]
  repeat' split
  all_goals exact ⟨_, _, _, _, rfl⟩

theorem State.endCmd_host (s : State) (c : CmdRef) (sct sc : Nat) (dnr : Bool) (dw0 : Nat) : ∃ o l q k,
    (s.endCmd c sct sc dnr dw0).host = { s.host with out := o, locks := l, cqes := q, ctrls := k } := by
  simp only [State.endCmd, State.countLocks_host]
  obtain ⟨o, l, q, k, h⟩ := State.complete_host (State.modPod
    ((s.modOut c (fun o => { o with io := none, need := [], got := [], arrived := false })).modFtl
      (fun f => { f with reserved := f.reserved.filter (fun r => r.1 ≠ c) })) c.pod (fun e => { e with recMark := s.ftl.recCount })) c sct sc dnr dw0
  exact ⟨o, l, q, k, h⟩

/-- Ending a command counts its locks: no other register changes. -/
theorem State.endCmd_regsBut (s : State) (c : CmdRef) (sct sc : Nat) (dnr : Bool) (dw0 : Nat) :
    s.regsBut (s.endCmd c sct sc dnr dw0) [NVQ_LOCK_STAT.key 0 0] := by
  have counted : ∀ u : State, u.regsBut u.countLocks [NVQ_LOCK_STAT.key 0 0] := fun u =>
    State.regsBut_trans (u.setFld_regsBut NVQ_LOCK_STAT_IN_USE _ 0 0) (State.setFld_regsBut _ NVQ_LOCK_STAT_WAITING _ 0 0)
  have completed : ∀ u : State, u.regsBut (u.complete c sct sc dnr dw0) [NVQ_LOCK_STAT.key 0 0] := fun u =>
    State.regsBut_of_regs (u.complete_onlyChanges c sct sc dnr dw0 .regs (by decide)) (u.complete_onlyChanges c sct sc dnr dw0 .part (by decide)) _
  let v := State.modPod ((s.modOut c (fun o => { o with io := none, need := [], got := [], arrived := false })).modFtl
    (fun f => { f with reserved := f.reserved.filter (fun r => r.1 ≠ c) })) c.pod (fun e => { e with recMark := s.ftl.recCount })
  exact fun k hk => ((counted (v.complete c sct sc dnr dw0)) k hk).trans (completed v k hk)

theorem State.fld_endCmd (s : State) (c : CmdRef) (sct sc : Nat) (dnr : Bool) (dw0 : Nat) (f : Field)
    (h : f.reg.key 0 0 ≠ NVQ_LOCK_STAT.key 0 0) : (s.endCmd c sct sc dnr dw0).fld f = s.fld f :=
  State.fld_of_regsBut (s.endCmd_regsBut c sct sc dnr dw0) f 0 0 (by simpa using h)

section
variable {s : State} {c : HostCmd} {n : AdminNeeds} (adm : s.admits c n) {u : State} (out : u.host.out = (s.begunBy c).host.out)
  (cqes : u.host.cqes = s.host.cqes)
include adm out cqes

/-- A command that was fetched completes, whatever else has changed since. -/
theorem posts_of_succeed (dw0 : Nat) : s.posts (u.succeed c dw0) c 0 0 false dw0 :=
  State.complete_posts u c _ 0 0 false dw0 (State.owns_congr (s.begunBy_owns c n adm) out cqes)

theorem posts_of_endCmd (sct sc : Nat) (dnr : Bool) (dw0 : Nat) : s.posts (u.endCmd (HostCmdRef c) sct sc dnr dw0) c sct sc dnr dw0 :=
  State.endCmd_posts u c _ sct sc dnr dw0 (State.owns_congr (s.begunBy_owns c n adm) out cqes)

end

theorem State.succeed_onlyChanges (s : State) (c : HostCmd) (dw0 : Nat) : s.onlyChanges (s.succeed c dw0) [.host, .hsk] :=
  State.complete_onlyChanges _ _ _ _ _ _

/-! ### Downloads (R338, R341) -/

/-- A download's bytes are staged for a firmware slot. -/
def State.fwStaged (s : State) (c : HostCmd) : State :=
  s.modHost (fun h => { h with
    fwStage := memWrite h.fwStage (dlOff c) (slice c.data 0 (dlSize c)), fwRanges := h.fwRanges ++ [(dlOff c, dlSize c)] })

/-- A download's bytes are staged for a configuration image. -/
def State.cfgStaged (s : State) (c : HostCmd) : State :=
  s.modHost (fun h => { h with
    cfgStage := memWrite h.cfgStage (dlOff c) (slice c.data 0 (dlSize c)), cfgRanges := h.cfgRanges ++ [(dlOff c, dlSize c)] })

theorem exec_firmwareImageDownload {s : State} {c : HostCmd} (adm : s.admits c ⟨true, false, false, true⟩) (ok : c.xfer = .ok)
    (form : dlBad c 12582912 = false) (free : dlOverlaps c s.host.fwRanges = false) :
    exec (.firmwareImageDownload c) s = (((s.begunBy c).fwStaged c).succeed c).done s := by
  refine congrArg (State.done · s) ((State.admin_admitted s c _ _ adm).trans ?_)
  have free' : dlOverlaps c (s.begunBy c).host.fwRanges = false := free
  rw [form, free', if_neg Bool.false_ne_true, if_neg Bool.false_ne_true, if_neg (by simpa using ok)]
  rfl

theorem exec_configImageDownload {s : State} {c : HostCmd} (adm : s.admits c ⟨true, false, false, true⟩) (ok : c.xfer = .ok)
    (form : dlBad c 8388608 = false) (free : dlOverlaps c s.host.cfgRanges = false) :
    exec (.configImageDownload c) s = (((s.begunBy c).cfgStaged c).succeed c).done s := by
  refine congrArg (State.done · s) ((State.admin_admitted s c _ _ adm).trans ?_)
  have free' : dlOverlaps c (s.begunBy c).host.cfgRanges = false := free
  rw [form, free', if_neg Bool.false_ne_true, if_neg Bool.false_ne_true, if_neg (by simpa using ok)]
  rfl

/-! ### The checks of a commit (R339) -/

/-- The latch after VERIFY_SLOT of a slot (R101). -/
def State.slotLatched (s : State) (img : List Byte) (f : FwInfo) : State := (s.fwVerify img f).2

theorem State.slotLatched_onlyChanges (s : State) (img : List Byte) (f : FwInfo) : s.onlyChanges (s.slotLatched img f) [.sgn] :=
  s.modSgn_onlyChanges _

theorem State.slotLatched_latch {s : State} {img : List Byte} {f : FwInfo} (h : s.otp.fwSigned img f = true) :
    (s.slotLatched img f).sgn.latch = some (f.digest, f.cls, f.slot) := if_pos h

section
variable {s : State} {k : Nat} {img : List Byte} {f : FwInfo} (low : 1 ≤ k) (high : k ≤ 4) (other : k ≠ s.nv.fwActive.slot)
  (info : fwInfo img = some f)
include low high other info

theorem State.fwCheck_named : s.fwCheck k img = if !s.otp.fwSigned img f then (.inl 0x07, s.slotLatched img f)
    else if f.svn < s.nv.svnFloor then (.inl 0x13, s.slotLatched img f) else (.inr f, s.slotLatched img f) := by
  rw [State.fwCheck, if_neg (by omega), info]
  rfl

theorem State.fwCheck_unsigned (bad : s.otp.fwSigned img f = false) : s.fwCheck k img = (.inl 0x07, s.slotLatched img f) := by
  rw [State.fwCheck_named low high other info, bad]
  rfl

theorem State.fwCheck_old (good : s.otp.fwSigned img f = true) (old : f.svn < s.nv.svnFloor) :
    s.fwCheck k img = (.inl 0x13, s.slotLatched img f) := by
  rw [State.fwCheck_named low high other info, good, if_pos old]
  rfl

theorem State.fwCheck_passes (good : s.otp.fwSigned img f = true) (new : s.nv.svnFloor ≤ f.svn) :
    s.fwCheck k img = (.inr f, s.slotLatched img f) := by
  rw [State.fwCheck_named low high other info, good, if_neg (Nat.not_lt.mpr new)]
  rfl

end

/-! ### The ledger engine begins an ACTIVATE entry (R124) -/

/-- The lowest digest record free of both firmware words is one: three candidates, two words. -/
theorem NvState.freeDrec_free (n : NvState) : (n.fwActive.slot ≠ 0 → n.fwActive.drec ≠ n.freeDrec) ∧ (n.fwPrev.slot ≠ 0 → n.fwPrev.drec ≠ n.freeDrec) := by
  cases h : (List.range 4).find? (fun d =>
      (n.fwActive.slot = 0 || n.fwActive.drec ≠ d) && (n.fwPrev.slot = 0 || n.fwPrev.drec ≠ d)) with
  | some d =>
    have hd : n.freeDrec = d := by rw [NvState.freeDrec, h]; rfl
    have p := List.find?_some h
    simp only [Bool.and_eq_true, Bool.or_eq_true, decide_eq_true_eq] at p
    rw [hd]
    exact ⟨fun a => p.1.resolve_left a, fun a => p.2.resolve_left a⟩
  | none =>
    rw [List.find?_eq_none] at h
    have taken : ∀ d < 4, n.fwActive.drec = d ∨ n.fwPrev.drec = d := fun d hd => by
      have := h d (List.mem_range.mpr hd)
      simp only [Bool.and_eq_true, Bool.or_eq_true, decide_eq_true_eq] at this
      omega
    have t0 := taken 0 (by omega)
    have t1 := taken 1 (by omega)
    have t2 := taken 2 (by omega)
    omega

theorem State.countSgn_onlyChanges (s : State) : s.onlyChanges s.countSgn [.regs] := s.setFld_onlyChanges _ _ _ _

theorem State.sgnStart_onlyChanges (s : State) : s.onlyChanges s.sgnStart [.sgn, .regs] := by
  have taken : ∀ f, s.onlyChanges (s.modSgn f) [.sgn, .regs] := fun f => State.onlyChanges_mono (s.modSgn_onlyChanges f) (by decide)
  rw [State.sgnStart]
  refine State.onlyChanges_ite _ (s.onlyChanges_refl _) (State.onlyChanges_ite _ (taken _) (State.onlyChanges_ite _ (taken _) ?_))
  split
  · exact s.onlyChanges_refl _
  · exact State.onlyChanges_then (taken _) (State.countSgn_onlyChanges _) (by decide)

theorem State.modLdg_onlyChanges (s : State) (f : LdgState → LdgState) : s.onlyChanges (s.modLdg f) [.ldg] := by
  intro p hp
  cases p
  case ldg => exact absurd (List.mem_singleton_self _) hp
  all_goals rfl

theorem State.modNv_onlyChanges (s : State) (f : NvState → NvState) : s.onlyChanges (s.modNv f) [.nv] := s.nv_onlyChanges _

/-- The entry an append begins with (Table 4.17). -/
def State.newEntry (s : State) (kind : Nat) (body : List Byte) : LedgerEntry :=
  { kind := kind, flags := s.entryFlags + b2n (decide (s.fld SGN_STAT_IDKEY = 2)), index := s.nv.newest + 1, time := s.time,
    boot := s.nv.bootNumber + b2n (kind = 1), missed := s.nv.missed,
    prevHash := (match s.ringEntry s.nv.newest with | some p => s.chainHash p | none => List.replicate 64 0#8),
    body := body, sig := List.replicate 1280 0#8 }

/-- The entry is written into its ring position, and the append runs. -/
def State.appendWritten (s : State) (kind : Nat) (body : List Byte) (why : AppendFor) : State :=
  (s.modNv (fun n => { n with ring := Tab.put n.ring ((s.newEntry kind body).index % 4096) (s.newEntry kind body) })).modLdg (fun l =>
    { l with run := some ⟨s.newEntry kind body, s.nv.missedOvf, why, decide (s.fld SGN_STAT_IDKEY = 2)⟩ })

theorem State.appendBegin_eq (s : State) (kind : Nat) (body : List Byte) (why : AppendFor) : s.appendBegin kind body why =
    if s.fld SGN_STAT_IDKEY = 2 then s.appendWritten kind body why
    else ((s.appendWritten kind body why).modSgn (fun g =>
      { g with ledgerReq := some (shake512 ((s.appendWritten kind body why).entryHead (s.newEntry kind body))) })).sgnStart := by
  rfl

theorem State.appendBegin_onlyChanges (s : State) (kind : Nat) (body : List Byte) (why : AppendFor) :
    (s.appendWritten kind body why).onlyChanges (s.appendBegin kind body why) [.sgn, .regs] :=
  State.onlyChanges_ite _ (State.onlyChanges_refl _ _)
    (State.onlyChanges_trans (State.onlyChanges_mono (State.modSgn_onlyChanges _ _) (by decide)) (State.sgnStart_onlyChanges _))

theorem State.appendWritten_onlyChanges (s : State) (kind : Nat) (body : List Byte) (why : AppendFor) :
    s.onlyChanges (s.appendWritten kind body why) [.nv, .ldg] :=
  State.onlyChanges_append (s.modNv_onlyChanges _) (State.modLdg_onlyChanges _ _)

/-- The ledger engine has been asked for an ACTIVATE entry, and nothing is committed yet. -/
structure State.Activating (s t : State) (slot drec svn : Nat) (digest : List Byte) (cmd : Option CmdRef) (now : Bool) : Prop where
  run : ∃ x : AppendRun, t.ldg.run = some x ∧ x.entry.kind = 2 ∧ x.why = .activate slot drec svn digest cmd now
  active : t.nv.fwActive = s.nv.fwActive
  frame : s.onlyChanges t [.nv, .ldg, .sgn, .regs]

theorem State.appendBegin_activates (s : State) (body : List Byte) (slot drec svn : Nat) (digest : List Byte) (cmd : Option CmdRef) (now : Bool) :
    s.Activating (s.appendBegin 2 body (.activate slot drec svn digest cmd now)) slot drec svn digest cmd now := by
  have rest := s.appendBegin_onlyChanges 2 body (.activate slot drec svn digest cmd now)
  exact {
    run := by
      rw [rest .ldg (by decide)]
      exact ⟨_, rfl, rfl, rfl⟩
    active := by
      rw [rest .nv (by decide)]
      rfl
    frame := State.onlyChanges_append (s.appendWritten_onlyChanges _ _ _) rest }

/-- An activation whose conditions hold is accepted (R121, R124). -/
theorem State.activate_accepted {s : State} {slot drec : Nat} {d : List Byte} (cmd : Option CmdRef) (now : Bool)
    (ok : s.activateOk slot drec = some d) (room : s.ringRoom ≠ 0) (idle : s.ldg.run = none) :
    ∃ t, s.activate slot drec cmd now = (true, t) ∧ s.Activating t slot drec s.ldg.activateSvn d cmd now := by
  refine ⟨_, ?_, s.appendBegin_activates
    (fwRecord 9 slot s.ldg.activateSvn d 0 ++ fwRecord 11 s.nv.fwActive.slot s.nv.fwActive.svn (s.nv.digestOf s.nv.fwActive) 0)
    slot drec s.ldg.activateSvn d cmd now⟩
  rw [State.activate, ok]
  dsimp only
  rw [if_neg room, State.appendSubmit, if_neg (by rw [idle]; decide)]

/-- Activation's conditions hold of a slot that is not active, verified and not too old (R124). -/
theorem State.activateOk_latched {s : State} {k cls j : Nat} {d : List Byte} (latch : s.sgn.latch = some (d, cls, j))
    (usable : s.otp.usable cls j = true) (low : 1 ≤ k) (high : k ≤ 4) (other : k ≠ s.nv.fwActive.slot)
    (new : s.nv.svnFloor ≤ s.ldg.activateSvn) : s.activateOk k s.nv.freeDrec = some d := by
  have free := s.nv.freeDrec_free
  rw [State.activateOk, latch]
  exact if_pos ⟨usable, or_iff_not_imp_left.mpr free.1, or_iff_not_imp_left.mpr free.2, low, high, other, new⟩

/-! ### Commit (R339) -/

/-- What a commit runs on: the staged image, or the slot's place in the NOR. -/
def State.fwImage (s : State) (k : Nat) (write : Bool) : List Byte := if write then s.stagedFw else s.norSlot k

theorem State.norRd_congr {s t : State} (h : t.boot = s.boot) (off n : Nat) : t.norRd off n = s.norRd off n := by
  induction n generalizing off with
  | zero => rfl
  | succ n ih => rw [State.norRd, State.norRd, ih, State.norByte, State.norByte, h]

theorem State.norSlot_congr {s t : State} (h : t.boot = s.boot) (k : Nat) : t.norSlot k = s.norSlot k := by
  simp only [State.norSlot, State.norRd_congr h]

theorem State.fwImage_begunBy (s : State) (c : HostCmd) (k : Nat) (write : Bool) : (s.begunBy c).fwImage k write = s.fwImage k write := by
  rw [State.fwImage, State.fwImage, State.norSlot_congr (s.begunBy_boot c)]
  rfl

/-- A verified image as the commit leaves it: written to its slot, or only named. -/
def State.fwPlaced (s : State) (k : Nat) (img : List Byte) (f : FwInfo) (write : Bool) : State :=
  if write then (s.slotLatched img f).fwWrite k (slice img 0 f.len) else s.slotLatched img f

/-- The firmware slots' place in the NOR as a commit leaves it. -/
def State.fwPlacedNor (s : State) (k : Nat) (img : List Byte) (f : FwInfo) (write : Bool) : Tab Byte :=
  if write then norWrite s.boot.nor (0x1000000 + (k - 1) * 0xC00000) (slice img 0 f.len) else s.boot.nor

theorem State.fwPlaced_nor (s : State) (k : Nat) (img : List Byte) (f : FwInfo) (write : Bool) :
    (s.fwPlaced k img f write).boot.nor = s.fwPlacedNor k img f write := by
  cases write <;> rfl

theorem State.fwWrite_onlyChanges (s : State) (k : Nat) (img : List Byte) : s.onlyChanges (s.fwWrite k img) [.boot, .host] := by
  intro p hp
  cases p
  case boot => exact absurd (by decide) hp
  case host => exact absurd (by decide) hp
  all_goals rfl

theorem State.fwPlaced_onlyChanges (s : State) (k : Nat) (img : List Byte) (f : FwInfo) (write : Bool) :
    s.onlyChanges (s.fwPlaced k img f write) [.sgn, .boot, .host] := by
  have latched : s.onlyChanges (s.slotLatched img f) [.sgn, .boot, .host] := State.onlyChanges_mono (s.slotLatched_onlyChanges img f) (by decide)
  cases write
  · exact latched
  · exact State.onlyChanges_then latched (State.fwWrite_onlyChanges _ k _) (by decide)

theorem State.fwPlaced_cmds (s : State) (k : Nat) (img : List Byte) (f : FwInfo) (write : Bool) :
    (s.fwPlaced k img f write).host.out = s.host.out ∧ (s.fwPlaced k img f write).host.cqes = s.host.cqes := by
  cases write <;> exact ⟨rfl, rfl⟩

theorem State.fwPlaced_latch {s : State} {img : List Byte} {f : FwInfo} (k : Nat) (write : Bool) (h : s.otp.fwSigned img f = true) :
    (s.fwPlaced k img f write).sgn.latch = some (f.digest, f.cls, f.slot) := by
  cases write <;> exact State.slotLatched_latch h

/-- A commit fails with what its check fails with. -/
theorem fwCommit_failed {s v : State} {c : HostCmd} {k sc : Nat} {write : Bool} (adm : s.admits c ⟨true, false, false, true⟩)
    (slot : c.cdw10 % 8 = k) (check : (s.begunBy c).fwCheck k (s.fwImage k write) = (.inl sc, v)) (commit : Bool) :
    s.fresh.fwCommit c write commit = v.endCmd (HostCmdRef c) 1 sc true 0 := by
  refine (State.admin_admitted s c _ _ adm).trans ?_
  dsimp only
  rw [slot, show (if write = true then (s.begunBy c).stagedFw else (s.begunBy c).norSlot k) = s.fwImage k write
    from s.fwImage_begunBy c k write, check]
  rfl

section
variable {s : State} {c : HostCmd} {k : Nat} {f : FwInfo} {write : Bool} (adm : s.admits c ⟨true, false, false, true⟩)
  (slot : c.cdw10 % 8 = k) (low : 1 ≤ k) (high : k ≤ 4) (other : k ≠ s.nv.fwActive.slot) (info : fwInfo (s.fwImage k write) = some f)
include adm slot low high other info

/-- A commit whose image passes every check places it, and asks for the entry where the slot is to run. -/
theorem fwCommit_passes (commit : Bool) (good : s.otp.fwSigned (s.fwImage k write) f = true) (new : s.nv.svnFloor ≤ f.svn) :
    s.fresh.fwCommit c write commit = (
      let v := (s.begunBy c).fwPlaced k (s.fwImage k write) f write
      if !commit then v.succeed c
      else match v.fwActivate (HostCmdRef c) k f.svn false with
        | (true, s) => s
        | (false, s) => s.failS c 0x13) := by
  refine (State.admin_admitted s c _ _ adm).trans ?_
  dsimp only
  rw [slot, show (if write = true then (s.begunBy c).stagedFw else (s.begunBy c).norSlot k) = s.fwImage k write
    from s.fwImage_begunBy c k write, State.fwCheck_passes (s := s.begunBy c) low high other info good new]
  rfl

/-- The commit's image goes to its slot, and the command succeeds. -/
theorem fwCommit_placed (good : s.otp.fwSigned (s.fwImage k write) f = true) (new : s.nv.svnFloor ≤ f.svn) :
    s.fresh.fwCommit c write false = ((s.begunBy c).fwPlaced k (s.fwImage k write) f write).succeed c :=
  fwCommit_passes adm slot low high other info false good new

/-- The ledger engine is asked for the commit. -/
theorem fwCommit_activates (good : s.otp.fwSigned (s.fwImage k write) f = true) (new : s.nv.svnFloor ≤ f.svn)
    (idle : s.ldg.run = none) (room : s.ringRoom ≠ 0) (usable : s.otp.usable f.cls f.slot = true) :
    (((s.begunBy c).fwPlaced k (s.fwImage k write) f write).modLdg (fun l => { l with activateSvn := f.svn })).Activating
      (s.fresh.fwCommit c write true) k s.nv.freeDrec f.svn f.digest (some (HostCmdRef c)) false := by
  have keep := (s.begunBy c).fwPlaced_onlyChanges k (s.fwImage k write) f write
  rw [fwCommit_passes adm slot low high other info true good new]
  generalize hv : (s.begunBy c).fwPlaced k (s.fwImage k write) f write = v at keep ⊢
  have latch : v.sgn.latch = some (f.digest, f.cls, f.slot) := hv ▸ State.fwPlaced_latch k write good
  have hnv : v.nv = s.nv := keep .nv (by decide)
  have hldg : v.ldg = s.ldg := keep .ldg (by decide)
  have hotp : v.otp = s.otp := keep .otp (by decide)
  let w := v.modLdg (fun l => { l with activateSvn := f.svn })
  have ok : w.activateOk k v.nv.freeDrec = some f.digest :=
    State.activateOk_latched (s := w) latch (show v.otp.usable _ _ = true by rw [hotp]; exact usable) low high
      (show k ≠ v.nv.fwActive.slot by rw [hnv]; exact other) (show v.nv.svnFloor ≤ f.svn by rw [hnv]; exact new)
  have hroom : w.ringRoom = s.ringRoom := by
    show v.ringFree - (b2n v.ldg.run.isSome + v.ldg.wait.length) = s.ringRoom
    rw [hldg, State.ringRoom, State.ringFree, State.ringFree, hnv]
  obtain ⟨t, ht, act⟩ := State.activate_accepted (some (HostCmdRef c)) false ok (hroom ▸ room) (show v.ldg.run = none by rw [hldg]; exact idle)
  dsimp only
  rw [State.fwActivate, ht, ← hnv]
  exact act

end

/-! ### Activation without reset (R340) -/

/-- A refused activation is shown and reported (Table 10.17). -/
def State.fwActRefused (s : State) (k : Nat) : State := (s.setFld NVQ_FW_ACT_RESULT 3).raise 563 4 [k]

theorem State.fwActRefused_onlyChanges (s : State) (k : Nat) : s.onlyChanges (s.fwActRefused k) [.regs, .evt] :=
  State.onlyChanges_append (s.setFld_onlyChanges _ _ _ _) (State.raise_onlyChanges _ _ _ _)

/-- Fetch and lock grants have stopped: the activation waits at step 3. -/
def State.fwActStopped (s : State) (c : CmdRef) (k svn : Nat) : State :=
  (((s.modHost (fun h => { h with fwAct := some ⟨c, k, 3, s.time⟩ })).modLdg (fun l => { l with activateSvn := svn })).setFld
    NVQ_STAT_FETCH_STOPPED 1).raise 563 1 [k]

theorem State.fwActStopped_onlyChanges (s : State) (c : CmdRef) (k svn : Nat) :
    s.onlyChanges (s.fwActStopped c k svn) [.host, .ldg, .regs, .evt] :=
  State.onlyChanges_append (l := [.host, .ldg, .regs]) (k := [.evt]) (State.onlyChanges_append (l := [.host, .ldg]) (k := [.regs])
    (State.onlyChanges_append (s.modHost_onlyChanges _) (State.modLdg_onlyChanges _ _)) (State.setFld_onlyChanges _ _ _ _ _))
    (State.raise_onlyChanges _ _ _ _)

section
variable {s v : State} {c : HostCmd} {k : Nat} (adm : s.admits c ⟨true, false, false, true⟩) (slot : c.cdw10 % 8 = k)
include adm slot

/-- An activation whose check fails is refused, and the command fails with what the check fails with. -/
theorem fwActStart_refused {sc : Nat} (check : (s.begunBy c).fwCheck k (s.norSlot k) = (.inl sc, v)) (named : sc ≠ 0x06) :
    s.fresh.fwActStart c = (v.fwActRefused k).endCmd (HostCmdRef c) 1 sc true 0 := by
  refine (State.admin_admitted s c _ _ adm).trans ?_
  dsimp only
  rw [slot, State.norSlot_congr (s.begunBy_boot c), check]
  dsimp only
  rw [if_neg named]
  rfl

/-- An activation whose check passes stops fetch and lock grants. -/
theorem fwActStart_stops {f : FwInfo} (check : (s.begunBy c).fwCheck k (s.norSlot k) = (.inr f, v)) (run : v.safe = false) :
    s.fresh.fwActStart c = v.fwActStopped (HostCmdRef c) k f.svn := by
  refine (State.admin_admitted s c _ _ adm).trans ?_
  dsimp only
  rw [slot, State.norSlot_congr (s.begunBy_boot c), check]
  dsimp only
  rw [if_neg (by rw [run]; decide)]
  rfl

end

/-- The activation is over, and what was held may be fetched again; paused scans have not been looked at. -/
def State.fwActEnded (s : State) (slot result : Nat) : State :=
  ((((s.setFld NVQ_FW_ACT_RESULT result).setFld NVQ_FW_ACT_PAUSE_MS
    (min 65535 ((s.time - (s.host.fwAct.map FwAct.stopAt).getD s.time) / 1000000))).modHost (fun h => { h with fwAct := none })).setFld
      NVQ_STAT_FETCH_STOPPED 0).raise 563 (result + 1) [slot]

theorem State.fwActOver_eq (s : State) (slot result : Nat) : s.fwActOver slot result = (s.fwActEnded slot result).scanGo := rfl

theorem State.fwActEnded_onlyChanges (s : State) (slot result : Nat) : s.onlyChanges (s.fwActEnded slot result) [.regs, .host, .evt] := by
  have shown : s.onlyChanges ((s.setFld NVQ_FW_ACT_RESULT result).setFld NVQ_FW_ACT_PAUSE_MS
      (min 65535 ((s.time - (s.host.fwAct.map FwAct.stopAt).getD s.time) / 1000000))) [.regs, .host, .evt] :=
    State.onlyChanges_mono (State.onlyChanges_trans (s.setFld_onlyChanges _ _ _ _) (State.setFld_onlyChanges _ _ _ _ _)) (by decide)
  have free := State.onlyChanges_then shown (State.modHost_onlyChanges _ (fun h => { h with fwAct := none })) (by decide)
  exact State.onlyChanges_then (State.onlyChanges_then free (State.setFld_onlyChanges _ NVQ_STAT_FETCH_STOPPED 0 0 0) (by decide))
    (State.raise_onlyChanges _ 563 (result + 1) [slot]) (by decide)

theorem State.fwActEnded_result (s : State) (slot result : Nat) : (s.fwActEnded slot result).fld NVQ_FW_ACT_RESULT = result % 4 := by
  rw [State.fwActEnded, State.raise_fld, State.fld_setFld_other _ NVQ_STAT_FETCH_STOPPED NVQ_FW_ACT_RESULT 0 0 0 0 0 (by decide),
    State.modHost_fld, State.fld_setFld_beside _ NVQ_FW_ACT_PAUSE_MS NVQ_FW_ACT_RESULT _ 0 0 rfl (by decide) (by decide),
    State.fld_setFld_same _ _ _ _ _ (by decide)]
  simp [NVQ_FW_ACT_RESULT]

theorem State.fwActEnded_fetch (s : State) (slot result : Nat) : (s.fwActEnded slot result).fld NVQ_STAT_FETCH_STOPPED = 0 := by
  rw [State.fwActEnded, State.raise_fld, State.fld_setFld_same _ NVQ_STAT_FETCH_STOPPED 0 0 0 (by decide), Nat.zero_mod]

/-! ### Configuration image (R341) -/

theorem State.imgCause_congr {s t : State} (hotp : t.otp = s.otp) (hnv : t.nv = s.nv) (b : List Byte) : t.imgCause b = s.imgCause b := by
  rw [State.imgCause, State.imgCause, hotp, hnv]

/-- The copy of the configuration image that is not in use. -/
def State.cfgSpare (s : State) : Nat := if s.fld CFG_BOOT_STAT_COPY = 1 then 2 else 1

/-- The staged configuration image, as far as its length says. -/
def State.cfgImage (s : State) : List Byte :=
  let head := stageBytes s.host.cfgStage 0 32
  if slice head 0 4 = ascii "DYRN" ∧ imgLen head ≤ 8388608 then stageBytes s.host.cfgStage 0 (max 1840 (imgLen head)) else head

/-- The NOR with the staged configuration image in place of the spare copy. -/
def State.cfgPlacedNor (s : State) : Tab Byte :=
  norWrite s.boot.nor ((s.cfgSpare - 1) * 0x800000) (slice s.cfgImage 0 (imgLen (stageBytes s.host.cfgStage 0 32)))

/-- The staging buffer of the configuration image is free again. -/
def State.cfgTaken (s : State) : State := s.modHost (fun h => { h with cfgStage := [], cfgRanges := [] })

/-- The commit of a configuration image whose checks end in `check`. -/
def State.cfgChecked (s : State) (c : HostCmd) (copy : Nat) (img : List Byte) (len : Nat) (check : Option Nat) : State :=
  match check with
  | some cause => (s.raise 566 2 [copy, cause]).failV c 0x20 true cause
  | none => (({ s with boot := { s.boot with nor := norWrite s.boot.nor ((copy - 1) * 0x800000) (slice img 0 len) } } : State).raise
      566 1 [copy, 0]).succeed c

theorem cfgCommit_checked {s : State} {c : HostCmd} (adm : s.admits c ⟨true, false, false, true⟩) : s.fresh.cfgCommit c =
    (s.begunBy c).cfgTaken.cfgChecked c s.cfgSpare s.cfgImage (imgLen (stageBytes s.host.cfgStage 0 32)) (s.imgCause s.cfgImage) := by
  have copy : (s.begunBy c).cfgSpare = s.cfgSpare := by rw [State.cfgSpare, s.begunBy_fld c CFG_BOOT_STAT_COPY 0 0 (by decide)]; rfl
  rw [← copy, ← State.imgCause_congr (s := s) (t := (s.begunBy c).cfgTaken) rfl rfl]
  exact State.admin_admitted s c _ _ adm

/-! ### The clauses of O16 -/

/-- What a command has changed after it was fetched, that ends well. -/
theorem onlyChanges_of_succeed {s : State} {c : HostCmd} {u : State} {l : List StateField} (dw0 : Nat) (h : (s.begunBy c).onlyChanges u l) :
    s.onlyChanges (u.succeed c dw0) ([.host, .regs, .out] ++ l ++ [.host, .hsk]) :=
  State.onlyChanges_append (State.onlyChanges_append (s.begunBy_onlyChanges c) h) (State.succeed_onlyChanges u c dw0)

section
variable {s : State} {c : HostCmd} (adm : s.admits c ⟨true, false, false, true⟩)
include adm

theorem fwDownload_stages (ok : c.xfer = .ok) (form : dlBad c 12582912 = false) (free : dlOverlaps c s.host.fwRanges = false) :
    Completes (.firmwareImageDownload c) s (fun t =>
      s.posts t c 0 0 false 0 ∧ t.host.fwStage = memWrite s.host.fwStage (dlOff c) (slice c.data 0 (dlSize c))
        ∧ t.host.fwRanges = s.host.fwRanges ++ [(dlOff c, dlSize c)] ∧ s.onlyChanges t [.host, .hsk, .regs, .out]) := by
  obtain ⟨o, l, q, k, host⟩ := State.complete_host ((s.begunBy c).fwStaged c) (HostCmdRef c) 0 0 false 0
  refine ⟨_, exec_firmwareImageDownload adm ok form free, posts_of_succeed adm (u := (s.begunBy c).fwStaged c) rfl rfl 0,
    congrArg HostState.fwStage host, congrArg HostState.fwRanges host, ?_⟩
  exact State.onlyChanges_mono (onlyChanges_of_succeed 0 (State.modHost_onlyChanges _ _)) (by decide)

theorem cfgDownload_stages (ok : c.xfer = .ok) (form : dlBad c 8388608 = false) (free : dlOverlaps c s.host.cfgRanges = false) :
    Completes (.configImageDownload c) s (fun t =>
      s.posts t c 0 0 false 0 ∧ t.host.cfgStage = memWrite s.host.cfgStage (dlOff c) (slice c.data 0 (dlSize c))
        ∧ t.host.cfgRanges = s.host.cfgRanges ++ [(dlOff c, dlSize c)] ∧ s.onlyChanges t [.host, .hsk, .regs, .out]) := by
  obtain ⟨o, l, q, k, host⟩ := State.complete_host ((s.begunBy c).cfgStaged c) (HostCmdRef c) 0 0 false 0
  refine ⟨_, exec_configImageDownload adm ok form free, posts_of_succeed adm (u := (s.begunBy c).cfgStaged c) rfl rfl 0,
    congrArg HostState.cfgStage host, congrArg HostState.cfgRanges host, ?_⟩
  exact State.onlyChanges_mono (onlyChanges_of_succeed 0 (State.modHost_onlyChanges _ _)) (by decide)

/-- CONFIG_IMAGE_COMMIT (R341). -/
theorem cfgCommit_completes : Completes (.configImageCommit c) s (fun t => t.host.cfgStage = [] ∧ t.host.cfgRanges = []
    ∧ (s.imgCause s.cfgImage = none → s.posts t c 0 0 false 0
        ∧ t.boot = { s.boot with nor := s.cfgPlacedNor }
        ∧ t.evt.inbox = s.evt.inbox ++ [⟨566, 1, [s.cfgSpare, 0], none, 0, s.time⟩] ∧ s.onlyChanges t [.boot, .host, .hsk, .regs, .evt, .out])
    ∧ (∀ cause, s.imgCause s.cfgImage = some cause → s.posts t c 7 0x20 true cause ∧ t.boot = s.boot
        ∧ t.evt.inbox = s.evt.inbox ++ [⟨566, 2, [s.cfgSpare, cause], none, 0, s.time⟩])) := by
  refine ⟨_, congrArg (State.done · s) (cfgCommit_checked adm), ?_⟩
  cases check : s.imgCause s.cfgImage with
  | some cause =>
    let u := (s.begunBy c).cfgTaken.raise 566 2 [s.cfgSpare, cause]
    have rest := State.endCmd_onlyChanges u (HostCmdRef c) 7 0x20 true cause
    obtain ⟨o, l, q, k, host⟩ := State.endCmd_host u (HostCmdRef c) 7 0x20 true cause
    refine ⟨congrArg HostState.cfgStage host, congrArg HostState.cfgRanges host, fun n => absurd n (by simp), fun _ same => ?_⟩
    obtain rfl := Option.some.inj same
    exact ⟨posts_of_endCmd adm (u := u) rfl rfl 7 0x20 true cause, rest .boot (by decide), congrArg EvtState.inbox (rest .evt (by decide))⟩
  | none =>
    let w := (s.begunBy c).cfgTaken.modBoot (fun b => { b with nor := s.cfgPlacedNor })
    let u := w.raise 566 1 [s.cfgSpare, 0]
    have placed : (s.begunBy c).onlyChanges u [.host, .boot, .evt] := State.onlyChanges_append (l := [.host, .boot]) (k := [.evt])
      (State.onlyChanges_append (State.modHost_onlyChanges _ _) (State.modBoot_onlyChanges _ _)) (State.raise_onlyChanges _ _ _ _)
    have rest := State.succeed_onlyChanges u c 0
    obtain ⟨o, l, q, k, host⟩ := State.complete_host u (HostCmdRef c) 0 0 false 0
    refine ⟨congrArg HostState.cfgStage host, congrArg HostState.cfgRanges host, fun _ => ?_, fun cause n => absurd n (by simp)⟩
    exact ⟨posts_of_succeed adm (u := u) rfl rfl 0, rest .boot (by decide), congrArg EvtState.inbox (rest .evt (by decide)),
      State.onlyChanges_mono (onlyChanges_of_succeed 0 placed) (by decide)⟩

end

/-- A commit's request as the ledger engine holds it, in the words of O16. -/
theorem State.Activating.asks {s v t : State} {k svn : Nat} {digest : List Byte} {cmd : CmdRef} {now : Bool}
    (h : v.Activating t k s.nv.freeDrec svn digest (some cmd) now) (nv : v.nv = s.nv) :
    ∃ x : AppendRun, t.ldg.run = some x ∧ x.entry.kind = 2 ∧ x.why = .activate k s.nv.freeDrec svn digest (some cmd) now
      ∧ t.nv.fwActive = s.nv.fwActive
      ∧ (s.nv.fwActive.slot ≠ 0 → s.nv.fwActive.drec ≠ s.nv.freeDrec) ∧ (s.nv.fwPrev.slot ≠ 0 → s.nv.fwPrev.drec ≠ s.nv.freeDrec) := by
  obtain ⟨x, run, kind, why⟩ := h.run
  exact ⟨x, run, kind, why, h.active.trans (by rw [nv]), s.nv.freeDrec_free⟩

section
variable {s : State} {c : HostCmd} {f : FwInfo} (adm : s.admits c ⟨true, false, false, true⟩)
  (low : 1 ≤ c.cdw10 % 8) (high : c.cdw10 % 8 ≤ 4) (other : c.cdw10 % 8 ≠ s.nv.fwActive.slot)
include adm low high other

/-- A commit that does not verify ends so, and writes nothing. -/
theorem fwCommit_unsigned {write : Bool} (info : fwInfo (s.fwImage (c.cdw10 % 8) write) = some f) (commit : Bool)
    (bad : s.otp.fwSigned (s.fwImage (c.cdw10 % 8) write) f = false) :
    s.posts (s.fresh.fwCommit c write commit) c 1 0x07 true 0 ∧ (s.fresh.fwCommit c write commit).boot = s.boot := by
  rw [fwCommit_failed adm rfl (State.fwCheck_unsigned (s := s.begunBy c) low high other info bad) commit]
  exact ⟨posts_of_endCmd adm (u := (s.begunBy c).slotLatched _ f) rfl rfl _ _ _ _, State.endCmd_onlyChanges _ _ _ _ _ _ .boot (by decide)⟩

/-- A commit of an image below the floor ends so, and writes nothing. -/
theorem fwCommit_old {write : Bool} (info : fwInfo (s.fwImage (c.cdw10 % 8) write) = some f) (commit : Bool)
    (good : s.otp.fwSigned (s.fwImage (c.cdw10 % 8) write) f = true) (old : f.svn < s.nv.svnFloor) :
    s.posts (s.fresh.fwCommit c write commit) c 1 0x13 true 0 ∧ (s.fresh.fwCommit c write commit).boot = s.boot := by
  rw [fwCommit_failed adm rfl (State.fwCheck_old (s := s.begunBy c) low high other info good old) commit]
  exact ⟨posts_of_endCmd adm (u := (s.begunBy c).slotLatched _ f) rfl rfl _ _ _ _, State.endCmd_onlyChanges _ _ _ _ _ _ .boot (by decide)⟩

/-- REPLACE (R339): the staged image is written to the slot's place. -/
theorem fwReplace_writes (info : fwInfo s.stagedFw = some f) (good : s.otp.fwSigned s.stagedFw f = true) (new : s.nv.svnFloor ≤ f.svn)
    {t : State} (ht : t = s.fresh.fwCommit c true false) : s.posts t c 0 0 false 0
      ∧ t.boot.nor = norWrite s.boot.nor (0x1000000 + (c.cdw10 % 8 - 1) * 0xC00000) (slice s.stagedFw 0 f.len)
      ∧ t.sgn.latch = some (f.digest, f.cls, f.slot) ∧ t.host.fwStage = [] ∧ t.nv = s.nv
      ∧ s.onlyChanges t [.boot, .host, .hsk, .sgn, .regs, .out] := by
  rw [ht, fwCommit_placed (write := true) adm rfl low high other info good new]
  let u := (s.begunBy c).fwPlaced (c.cdw10 % 8) s.stagedFw f true
  have keep := (s.begunBy c).fwPlaced_onlyChanges (c.cdw10 % 8) s.stagedFw f true
  have rest := State.succeed_onlyChanges u c 0
  obtain ⟨o, l, q, k, host⟩ := State.complete_host u (HostCmdRef c) 0 0 false 0
  exact ⟨posts_of_succeed adm (u := u) rfl rfl 0, congrArg BootState.nor (rest .boot (by decide)),
    (congrArg SgnState.latch (rest .sgn (by decide))).trans (State.fwPlaced_latch (s := s.begunBy c) _ true good),
    congrArg HostState.fwStage host, (rest .nv (by decide)).trans (keep .nv (by decide)),
    State.onlyChanges_mono (onlyChanges_of_succeed 0 keep) (by decide)⟩

/-- REPLACE_ACTIVATE and ACTIVATE (R339): the ledger engine is asked for the entry, and the NOR holds what the commit placed. -/
theorem fwCommit_asks {write : Bool} (info : fwInfo (s.fwImage (c.cdw10 % 8) write) = some f)
    (good : s.otp.fwSigned (s.fwImage (c.cdw10 % 8) write) f = true) (new : s.nv.svnFloor ≤ f.svn)
    (idle : s.ldg.run = none) (room : s.ringRoom ≠ 0) (usable : s.otp.usable f.cls f.slot = true) {t : State}
    (ht : t = s.fresh.fwCommit c write true) :
    (∃ x : AppendRun, t.ldg.run = some x ∧ x.entry.kind = 2
      ∧ x.why = .activate (c.cdw10 % 8) s.nv.freeDrec f.svn f.digest (some (HostCmdRef c)) false ∧ t.nv.fwActive = s.nv.fwActive
      ∧ (s.nv.fwActive.slot ≠ 0 → s.nv.fwActive.drec ≠ s.nv.freeDrec) ∧ (s.nv.fwPrev.slot ≠ 0 → s.nv.fwPrev.drec ≠ s.nv.freeDrec))
    ∧ t.boot.nor = s.fwPlacedNor (c.cdw10 % 8) (s.fwImage (c.cdw10 % 8) write) f write := by
  have act := fwCommit_activates adm rfl low high other info good new idle room usable
  rw [← ht] at act
  exact ⟨act.asks (State.fwPlaced_onlyChanges (s.begunBy c) _ _ f write .nv (by decide)),
    (congrArg BootState.nor (act.frame .boot (by decide))).trans ((s.begunBy c).fwPlaced_nor _ _ f write)⟩

end

/-- What ACTIVATE_NOW makes of a slot that is named (R340). -/
theorem fwActStart_completes {s : State} {c : HostCmd} {f : FwInfo} (adm : s.admits c ⟨true, false, false, true⟩)
    (low : 1 ≤ c.cdw10 % 8) (high : c.cdw10 % 8 ≤ 4) (other : c.cdw10 % 8 ≠ s.nv.fwActive.slot)
    (info : fwInfo (s.norSlot (c.cdw10 % 8)) = some f) (run : s.safe = false) :
    Completes (.fwCommitActivateNow c) s (fun t => t.boot = s.boot ∧ t.nv = s.nv
      ∧ (s.otp.fwSigned (s.norSlot (c.cdw10 % 8)) f = false → s.posts t c 1 0x07 true 0 ∧ t.fld NVQ_FW_ACT_RESULT = 3
          ∧ t.evt.inbox = s.evt.inbox ++ [⟨563, 4, [c.cdw10 % 8], none, 0, s.time⟩])
      ∧ (s.otp.fwSigned (s.norSlot (c.cdw10 % 8)) f = true → s.nv.svnFloor ≤ f.svn →
          t.host.fwAct = some ⟨HostCmdRef c, c.cdw10 % 8, 3, s.time⟩
          ∧ t.fld NVQ_STAT_FETCH_STOPPED = 1 ∧ t.ldg = { s.ldg with activateSvn := f.svn }
          ∧ t.evt.inbox = s.evt.inbox ++ [⟨563, 1, [c.cdw10 % 8], none, 0, s.time⟩]
          ∧ s.onlyChanges t [.host, .sgn, .ldg, .regs, .evt, .out])) := by
  let v := (s.begunBy c).slotLatched (s.norSlot (c.cdw10 % 8)) f
  have latched : (s.begunBy c).onlyChanges v [.sgn] := State.slotLatched_onlyChanges _ _ _
  have refused : ∀ sc, (v.fwActRefused (c.cdw10 % 8)).onlyChanges
      ((v.fwActRefused (c.cdw10 % 8)).endCmd (HostCmdRef c) 1 sc true 0) [.host, .hsk, .ftl, .pod, .regs] :=
    fun sc => State.endCmd_onlyChanges _ _ _ _ _ _
  refine ⟨_, rfl, ?_⟩
  cases good : s.otp.fwSigned (s.norSlot (c.cdw10 % 8)) f with
  | false =>
    rw [fwActStart_refused adm rfl (State.fwCheck_unsigned (s := s.begunBy c) low high other info good) (by decide)]
    refine ⟨refused 0x07 .boot (by decide), refused 0x07 .nv (by decide), fun _ => ⟨?_, ?_, ?_⟩, fun n => absurd n (by decide)⟩
    · exact posts_of_endCmd adm (u := v.fwActRefused _) rfl rfl _ _ _ _
    · rw [State.fld_endCmd _ _ _ _ _ _ NVQ_FW_ACT_RESULT (by decide), State.fwActRefused, State.raise_fld,
        State.fld_setFld_same _ _ _ _ _ (by decide)]
      simp [NVQ_FW_ACT_RESULT]
    · exact congrArg EvtState.inbox (refused 0x07 .evt (by decide))
  | true =>
    by_cases old : f.svn < s.nv.svnFloor
    · rw [fwActStart_refused adm rfl (State.fwCheck_old (s := s.begunBy c) low high other info good old) (by decide)]
      exact ⟨refused 0x13 .boot (by decide), refused 0x13 .nv (by decide), fun n => absurd n (by decide), fun _ new => absurd new (by omega)⟩
    · have awake : v.safe = false := (s.begunBy_safe c).trans run
      rw [fwActStart_stops adm rfl (State.fwCheck_passes (s := s.begunBy c) low high other info good (Nat.not_lt.mp old)) awake]
      refine ⟨rfl, rfl, fun n => absurd n (by decide), fun _ _ => ⟨rfl, ?_, rfl, rfl, ?_⟩⟩
      · rw [State.fwActStopped, State.raise_fld, State.fld_setFld_same _ _ _ _ _ (by decide)]
        simp [NVQ_STAT_FETCH_STOPPED]
      · exact State.onlyChanges_mono (State.onlyChanges_append (State.onlyChanges_append (s.begunBy_onlyChanges c) latched)
          (v.fwActStopped_onlyChanges (HostCmdRef c) (c.cdw10 % 8) f.svn)) (by decide)

section
variable {s : State} {a : FwAct} (act : s.host.fwAct = some a) (step : a.step = 3)
include act step

/-- FW_ACTIVATE_TIMEOUT (R340): step 3 has exceeded its bound. -/
theorem fwActTimeout_completes : Completes .fwActivateTimeout s (fun t => ∃ v : State, t = v.scanGo.endCmd a.cmd 1 0x12 true 0
    ∧ v.host = { s.host with fwAct := none } ∧ v.fld NVQ_FW_ACT_RESULT = 2 ∧ v.fld NVQ_STAT_FETCH_STOPPED = 0
    ∧ v.evt.inbox = s.evt.inbox ++ [⟨563, 3, [a.slot], none, 0, v.time⟩] ∧ v.time = max s.time (a.stopAt + 150000000)
    ∧ s.onlyChanges v [.host, .time, .regs, .evt, .out]) := by
  let u := s.fresh.notBefore (a.stopAt + 150000000)
  have ends : s.fresh.fwActTimeout = (u.fwActEnded a.slot 2).scanGo.endCmd a.cmd 1 0x12 true 0 := by
    have act' : s.fresh.host.fwAct = some a := act
    rw [State.fwActTimeout, act']
    exact if_neg (not_not_intro step)
  refine ⟨_, congrArg (State.done · s) ends, u.fwActEnded a.slot 2, rfl, rfl, u.fwActEnded_result _ _, u.fwActEnded_fetch _ _, rfl, rfl, ?_⟩
  have waited : s.onlyChanges u [.time, .out] := State.onlyChanges_of_fresh (s.fresh.notBefore_onlyChanges _)
  exact State.onlyChanges_mono (State.onlyChanges_append waited (u.fwActEnded_onlyChanges a.slot 2)) (by decide)

/-- FW_ACTIVATE_DRAIN_DONE (R340): the ledger engine is asked for the commit. -/
theorem fwActDrained_completes {d : List Byte} (drained : s.host.out.any (fun o => s.fwWaits a o) = false)
    (ok : s.activateOk a.slot s.nv.freeDrec = some d) (room : s.ringRoom ≠ 0) (idle : s.ldg.run = none) :
    Completes .fwActivateDrainDone s (fun t => t.host = { s.host with fwAct := some { a with step := 4 } }
      ∧ (∃ x : AppendRun, t.ldg.run = some x ∧ x.entry.kind = 2 ∧ x.why = .activate a.slot s.nv.freeDrec s.ldg.activateSvn d (some a.cmd) true)
      ∧ t.nv.fwActive = s.nv.fwActive) := by
  obtain ⟨u, accepted, asked⟩ := State.activate_accepted (s := s.fresh) (some a.cmd) true ok room idle
  have goes : s.fresh.fwActDrained = u.modHost (fun h => { h with fwAct := some { a with step := 4 } }) := by
    have act' : s.fresh.host.fwAct = some a := act
    have wait : ¬ (a.step ≠ 3 ∨ s.fresh.host.out.any (fun o => s.fresh.fwWaits a o) = true) := by
      rintro (h | h)
      · exact h step
      · exact absurd (drained.symm.trans h) (by decide)
    rw [State.fwActDrained, act']
    dsimp only
    rw [if_neg wait, show s.fresh.nv.freeDrec = s.nv.freeDrec from rfl, accepted]
  refine ⟨_, congrArg (State.done · s) goes, ?_, asked.run, asked.active⟩
  exact congrArg (fun h : HostState => { h with fwAct := some { a with step := 4 } }) (asked.frame .host (by decide))

end

/-- Settles O16: each commit is the check of its image, then what the check's result says; the ledger engine's part is one lemma. -/
theorem firmwareCommandsComplete : Obligations.FirmwareCommandsComplete := by
  unfold Obligations.FirmwareCommandsComplete
  refine ⟨fun s c adm ok => ⟨fwDownload_stages adm ok, cfgDownload_stages adm ok⟩, fun s c f adm low high other => ?_,
    fun s a act step => ⟨fwActTimeout_completes act step, fun d drained ok room idle => fwActDrained_completes act step drained ok room idle⟩,
    fun s c adm => cfgCommit_completes adm⟩
  dsimp only
  refine ⟨fun info => ⟨_, rfl, ?_⟩, fun info idle room usable => ⟨_, rfl, ?_⟩, fun info idle room usable => ⟨_, rfl, ?_⟩,
    fun info run => fwActStart_completes adm low high other info run⟩
  · refine ⟨fun bad => ?_, fun good old => ?_, fun good new => fwReplace_writes adm low high other info good new rfl⟩
    · obtain ⟨post, boot⟩ := fwCommit_unsigned (write := true) adm low high other info false bad
      exact ⟨post, congrArg BootState.nor boot⟩
    · obtain ⟨post, boot⟩ := fwCommit_old (write := true) adm low high other info false good old
      exact ⟨post, congrArg BootState.nor boot⟩
  · refine ⟨fun bad => ?_, fun good new => fwCommit_asks (write := true) adm low high other info good new idle room usable rfl⟩
    obtain ⟨post, boot⟩ := fwCommit_unsigned (write := true) adm low high other info true bad
    exact ⟨post, congrArg BootState.nor boot⟩
  · cases good : s.otp.fwSigned (s.norSlot (c.cdw10 % 8)) f with
    | false =>
      obtain ⟨post, boot⟩ := fwCommit_unsigned (write := false) adm low high other info true good
      exact ⟨congrArg BootState.nor boot, fun _ => post, fun n => absurd n (by decide)⟩
    | true =>
      by_cases old : f.svn < s.nv.svnFloor
      · obtain ⟨_, boot⟩ := fwCommit_old (write := false) adm low high other info true good old
        exact ⟨congrArg BootState.nor boot, fun n => absurd n (by decide), fun _ new => absurd new (by omega)⟩
      · obtain ⟨asks, nor⟩ := fwCommit_asks (write := false) adm low high other info good (Nat.not_lt.mp old) idle room usable rfl
        exact ⟨nor, fun n => absurd n (by decide), fun _ _ => asks⟩

end Sys2Proof.Machine
end

section
/-!
SUPPORT. The translation layer's commands (chapter 6): seals, journal frames, checkpoints, garbage collection and native groups.
-/
namespace Sys2Proof.Machine

/-! ### Frames and journal (R181, R194) -/

/-- An open wordline of a lane is sealed when its time has come. -/
def State.laneSealed (s : State) (i : Nat) (l : Lane) : State :=
  let u := match l.curAt with | some a => s.notBefore (a + s.fld FTL_CTRL_SEAL_US * 1000) | none => s
  u.modFtl (fun f => { f with lanes := Tab.put f.lanes i (if l.curAt.isNone then l else l.sealWordline u.time 64) })

/-- FRAME_SEAL_TIMEOUT (R181). -/
theorem frameSealTimeout_seals {s : State} {i : Nat} {l : Lane} (lane : Tab.look s.ftl.lanes i = some l)
    (due : l.curAt.isSome ∨ l.toProgram ≠ []) : Completes (.frameSealTimeout i) s (fun t => ∃ v : State, t = (v.sealRows l.sb).sbProgram l.sb
      ∧ Tab.look v.ftl.lanes i = some (if l.curAt.isNone then l else l.sealWordline v.time 64) ∧ v.ftl.map = s.ftl.map
      ∧ v.time = (match l.curAt with | some a => max s.time (a + s.fld FTL_CTRL_SEAL_US * 1000) | none => s.time)
      ∧ s.onlyChanges v [.ftl, .time, .out]) := by
  have lane' : Tab.look s.fresh.ftl.lanes i = some l := lane
  have going : ¬ (l.curAt.isNone = true ∧ l.toProgram.isEmpty = true) := by
    rintro ⟨none, empty⟩
    rcases due with h | h
    · rw [Option.isNone_iff_eq_none] at none
      rw [none] at h
      exact absurd h (by decide)
    · exact h (List.isEmpty_iff.mp empty)
  have seals : s.fresh.sealTimeout i = ((s.fresh.laneSealed i l).sealRows l.sb).sbProgram l.sb := by
    rw [State.sealTimeout, lane']
    exact if_neg going
  refine ⟨_, congrArg (State.done · s) seals, _, rfl, ?_⟩
  rw [State.laneSealed]
  cases l.curAt with
  | some a =>
    exact ⟨Tab.look_put_same _ _ _, rfl, rfl, State.onlyChanges_mono (State.onlyChanges_of_fresh
      (State.onlyChanges_append (State.notBefore_onlyChanges _ _) (State.modFtl_onlyChanges _ _))) (by decide)⟩
  | none => exact ⟨Tab.look_put_same _ _ _, rfl, rfl, State.onlyChanges_mono (State.onlyChanges_of_fresh (State.modFtl_onlyChanges _ _)) (by decide)⟩

/-- The records held form a frame under the next sequence number. -/
def State.framed (s : State) : State :=
  s.modFtl (fun f => { f with delta := [], deltaAt := none, frames := f.frames ++ [⟨f.jnext, s.horizonNow, f.delta⟩], jnext := f.jnext + 1 })

theorem State.closeFrame_held {s : State} (held : s.ftl.delta ≠ []) : s.closeFrame = s.framed.countFrames := by
  rw [State.closeFrame]
  exact if_neg (by simpa using held)

theorem State.horizonNow_notBefore (s : State) (t : Nat) : (s.notBefore t).horizonNow = s.horizonNow := by
  rw [State.horizonNow, State.notBefore_pair]
  rfl

theorem State.horizonNow_fresh (s : State) : s.fresh.horizonNow = s.horizonNow := rfl

/-- What a frame formed leaves, in the words of O20. -/
theorem State.closeFrame_forms {s u : State} (held : s.ftl.delta ≠ []) (ftl : u.ftl = s.ftl) (horizon : u.horizonNow = s.horizonNow) :
    u.closeFrame.ftl.frames = s.ftl.frames ++ [⟨s.ftl.jnext, s.horizonNow, s.ftl.delta⟩] ∧ u.closeFrame.ftl.delta = []
      ∧ u.closeFrame.ftl.jnext = s.ftl.jnext + 1 ∧ u.closeFrame.ftl.map = s.ftl.map ∧ u.closeFrame.ftl.recDurable = s.ftl.recDurable
      ∧ u.closeFrame.time = u.time ∧ u.closeFrame.fld FTL_JNL_STAT_PENDING = min 65535 u.closeFrame.ftl.frames.length := by
  rw [State.closeFrame_held (ftl ▸ held)]
  have frames : u.framed.ftl.frames = s.ftl.frames ++ [⟨s.ftl.jnext, s.horizonNow, s.ftl.delta⟩] := by
    rw [← horizon, ← ftl]
    rfl
  refine ⟨frames, rfl, congrArg (fun f => f.jnext + 1) ftl, congrArg (fun f => f.map) ftl, congrArg (fun f => f.recDurable) ftl, rfl, ?_⟩
  rw [State.countFrames, State.fld_setFld_same _ _ _ _ _ (by decide), State.setFld_ftl]
  exact Nat.mod_eq_of_lt (by simp [FTL_JNL_STAT_PENDING])

/-- The time at which the records held form a frame. -/
def State.flushDue (s : State) : State :=
  match s.ftl.deltaAt with
  | some d => s.notBefore (d + s.fld FTL_JNL_CFG_FLUSH_US * 100000)
  | none => s

theorem exec_journalFlushTimeout (s : State) : exec .journalFlushTimeout s = s.fresh.flushDue.closeFrame.done s := by
  refine congrArg (State.done · s) ?_
  dsimp only
  rw [State.flushDue]
  cases s.fresh.ftl.deltaAt <;> rfl

theorem State.flushDue_onlyChanges (s : State) : s.onlyChanges s.flushDue [.time] := by
  rw [State.flushDue]
  cases s.ftl.deltaAt with
  | some d => exact s.notBefore_onlyChanges _
  | none => exact s.onlyChanges_refl _

theorem State.horizonNow_flushDue (s : State) : s.flushDue.horizonNow = s.horizonNow := by
  rw [State.flushDue]
  cases s.ftl.deltaAt with
  | some d => exact s.horizonNow_notBefore _
  | none => rfl

theorem State.flushDue_time (s : State) : s.flushDue.time =
    (match s.ftl.deltaAt with | some d => max s.time (d + s.fld FTL_JNL_CFG_FLUSH_US * 100000) | none => s.time) := by
  rw [State.flushDue]
  cases s.ftl.deltaAt <;> rfl

/-- JOURNAL_FLUSH_TIMEOUT (R194). -/
theorem journalFlushTimeout_forms {s : State} (held : s.ftl.delta ≠ []) : Completes .journalFlushTimeout s (fun t =>
    t.ftl.frames = s.ftl.frames ++ [⟨s.ftl.jnext, s.horizonNow, s.ftl.delta⟩] ∧ t.ftl.delta = [] ∧ t.ftl.jnext = s.ftl.jnext + 1
      ∧ t.ftl.map = s.ftl.map ∧ t.ftl.recDurable = s.ftl.recDurable
      ∧ t.time = (match s.ftl.deltaAt with | some d => max s.time (d + s.fld FTL_JNL_CFG_FLUSH_US * 100000) | none => s.time)
      ∧ t.fld FTL_JNL_STAT_PENDING = min 65535 t.ftl.frames.length ∧ s.onlyChanges t [.ftl, .time, .regs, .out]) := by
  obtain ⟨frames, delta, jnext, map, durable, time, pending⟩ := State.closeFrame_forms (u := s.fresh.flushDue) held
    (State.flushDue_onlyChanges _ .ftl (by decide)) ((State.horizonNow_flushDue _).trans s.horizonNow_fresh)
  exact ⟨_, exec_journalFlushTimeout s, frames, delta, jnext, map, durable, time.trans s.fresh.flushDue_time, pending,
    State.onlyChanges_mono (State.onlyChanges_of_fresh
      (State.onlyChanges_append (State.flushDue_onlyChanges _) (State.closeFrame_onlyChanges _))) (by decide)⟩

/-- The oldest frame has become durable at a place; what waited for it has not been looked at. -/
def State.frameTaken (s : State) (pfa : Nat) (complete : Bool) (j : JFrame) (rest : List JFrame) : State :=
  s.modFtl (fun f => { f with
    frames := rest, dmap := j.recs.foldl applyDelta f.dmap, recDurable := f.recDurable + j.recs.length,
    horizon := j.horizon, flushComplete := complete, jplaces := Tab.put f.jplaces j.jseq pfa
    jstore := Tab.put f.jstore pfa (j, complete), sinceCkpt := f.sinceCkpt + 1 })

/-- A durable frame is counted, and may begin a checkpoint. -/
def State.frameCounted (s : State) (jseq : Nat) : State :=
  let u := ((s.putPair FTL_JSEQ_LO FTL_JSEQ_HI jseq).countFrames).ckptBegin jseq
  u.setFld FTL_JNL_STAT_SINCE_CKPT (u.ftl.sinceCkpt / 1024)

theorem State.frameDurable_taken {s : State} {j : JFrame} {rest : List JFrame} (oldest : s.ftl.frames = j :: rest) (pfa : Nat) (complete : Bool) :
    s.frameDurable pfa complete = ((s.frameTaken pfa complete j rest).frameCounted j.jseq).releaseDurable.reclaimAll.wtCheck := by
  rw [State.frameDurable, oldest]
  rfl

theorem State.ckptBegin_onlyChanges (s : State) (jseq : Nat) : s.onlyChanges (s.ckptBegin jseq) [.ftl] :=
  State.onlyChanges_ite _ (s.modFtl_onlyChanges _) (s.onlyChanges_refl _)

/-- Counting a frame leaves the layer's state but for the checkpoint it may begin. -/
theorem State.frameCounted_ftl (s : State) (jseq : Nat) : ∃ r n o, (s.frameCounted jseq).ftl = { s.ftl with ckptRun := r, sinceCkpt := n, ckptOpen := o } := by
  show ∃ r n o, (State.ckptBegin _ jseq).ftl = _
  rw [State.ckptBegin]
  split
  · exact ⟨_, _, _, rfl⟩
  · exact ⟨_, _, _, rfl⟩

theorem State.frameCounted_onlyChanges (s : State) (jseq : Nat) : s.onlyChanges (s.frameCounted jseq) [.ftl, .regs] := by
  have counted : s.onlyChanges (s.putPair FTL_JSEQ_LO FTL_JSEQ_HI jseq).countFrames [.ftl, .regs] :=
    State.onlyChanges_mono (State.onlyChanges_trans (s.putPair_onlyChanges _ _ _ _ _) (State.setFld_onlyChanges _ _ _ _ _)) (by decide)
  exact State.onlyChanges_then (State.onlyChanges_then counted (State.ckptBegin_onlyChanges _ jseq) (by decide))
    (State.setFld_onlyChanges _ _ _ _ _) (by decide)

theorem State.frameCounted_jseq {s : State} {jseq : Nat} (fits : jseq < 2 ^ 64) : (s.frameCounted jseq).pair FTL_JSEQ_LO FTL_JSEQ_HI = jseq := by
  let u := s.putPair FTL_JSEQ_LO FTL_JSEQ_HI jseq
  have begun := State.ckptBegin_onlyChanges u.countFrames jseq
  have rest : u.regsBut (s.frameCounted jseq) [FTL_JNL_STAT.key 0 0] :=
    State.regsBut_trans (State.regsBut_trans (u.setFld_regsBut FTL_JNL_STAT_PENDING _ 0 0)
      (State.regsBut_of_regs (begun .regs (by decide)) (begun .part (by decide)) _)) (State.setFld_regsBut _ FTL_JNL_STAT_SINCE_CKPT _ 0 0)
  have lo : (s.frameCounted jseq).reg FTL_JSEQ_LO = u.reg FTL_JSEQ_LO := rest _ (by decide)
  have hi : (s.frameCounted jseq).reg FTL_JSEQ_HI = u.reg FTL_JSEQ_HI := rest _ (by decide)
  have same : u.pair FTL_JSEQ_LO FTL_JSEQ_HI = jseq % 2 ^ 64 := State.pair_putPair_same _ _ _ _ _ _ (by decide)
  rw [State.pair, lo, hi, ← State.pair, same, Nat.mod_eq_of_lt fits]

/-- JOURNAL_FRAME_DURABLE (R194). -/
theorem journalFrameDurable_completes {s : State} {j : JFrame} {rest : List JFrame} (pfa : Nat) (oldest : s.ftl.frames = j :: rest) :
    Completes (.journalFrameDurable pfa) s (fun t => ∃ v : State, t = v.releaseDurable.reclaimAll.wtCheck
      ∧ v.ftl.frames = rest ∧ v.ftl.recDurable = s.ftl.recDurable + j.recs.length ∧ v.ftl.horizon = j.horizon
      ∧ v.ftl.dmap = j.recs.foldl applyDelta s.ftl.dmap ∧ Tab.look v.ftl.jplaces j.jseq = some pfa
      ∧ Tab.look v.ftl.jstore pfa = some (j, false) ∧ v.ftl.map = s.ftl.map
      ∧ (j.jseq < 2 ^ 64 → v.pair FTL_JSEQ_LO FTL_JSEQ_HI = j.jseq) ∧ s.onlyChanges v [.ftl, .regs, .out]) := by
  let u := s.fresh.frameTaken pfa false j rest
  obtain ⟨r, n, o, ftl⟩ := u.frameCounted_ftl j.jseq
  refine ⟨_, congrArg (State.done · s) (State.frameDurable_taken (s := s.fresh) oldest pfa false), u.frameCounted j.jseq, rfl, ?_⟩
  rw [ftl]
  exact ⟨rfl, rfl, rfl, rfl, Tab.look_put_same _ _ _, Tab.look_put_same _ _ _, rfl, State.frameCounted_jseq,
    State.onlyChanges_mono (State.onlyChanges_of_fresh (State.onlyChanges_append (State.modFtl_onlyChanges _ _)
      (u.frameCounted_onlyChanges j.jseq))) (by decide)⟩

/-! ### Checkpoints (R195) -/

/-- The tracker state that a checkpoint saves of the LUNs in use. -/
def State.ckptSaved (s : State) : Tab (List Nat × Tab Group) :=
  s.lunsInUse.foldl (fun t i => match s.lun i with | some l => Tab.put t i (l.natives, l.groups) | none => t) s.ftl.saved

/-- One LUN's tracker state, saved in its turn or in a later one. -/
theorem State.ckptSaved_look {s : State} {i : Nat} {l : Lun} (used : i ∈ s.lunsInUse) (lun : s.lun i = some l) :
    Tab.look s.ckptSaved i = some (l.natives, l.groups) := by
  have saves : ∀ (ks : List Nat) (t : Tab (List Nat × Tab Group)), i ∈ ks ∨ Tab.look t i = some (l.natives, l.groups) →
      Tab.look (ks.foldl (fun t i => match s.lun i with | some l => Tab.put t i (l.natives, l.groups) | none => t) t) i
        = some (l.natives, l.groups) := by
    intro ks
    induction ks with
    | nil => exact fun t h => h.resolve_left (by simp)
    | cons k ks ih =>
      intro t h
      refine ih _ ?_
      dsimp only
      by_cases same : k = i
      · subst same
        rw [lun]
        exact .inr (Tab.look_put_same _ _ _)
      · refine h.imp (fun mem => (List.mem_cons.mp mem).resolve_left (Ne.symm same)) (fun held => ?_)
        cases s.lun k with
        | none => exact held
        | some x => exact (Tab.look_put_other _ _ _ _ (Ne.symm same)).trans held
  exact saves _ _ (.inl used)

/-- The root is committed: the directory and the tracker state are saved with it, and MAP_CKPT names it. -/
def State.rootCommitted (s : State) (root j : Nat) (pages : List (Nat × Nat)) : State :=
  let u := s.modFtl (fun f => { f with
    ckptRun := none, ckptGen := f.ckptGen + 1, rootPfa := root, jplaces := Tab.keep (fun k _ => decide (j ≤ k)) f.jplaces,
    rebuild := none, dir := s.ckptDir pages, saved := s.ckptSaved })
  { u with nv := { u.nv with mapCkpt := root % 2 ^ 45 * 2 ^ 19 + u.ftl.ckptGen % 2 ^ 16 * 8 + 1, rebuildCkpt := 0 } }

/-- METADATA blocks that nothing names any more are released. -/
def State.blocksReleased (s : State) (gone keep : List (Nat × Nat)) : State :=
  gone.foldl (fun s b =>
    let x := s.blk b.1 b.2
    if x.pool = 3 ∧ !keep.contains b then s.putBlk b.1 b.2 { x with released := true } else s) s

theorem State.ckptCommit_released {s : State} {j : Nat} (run : s.ftl.ckptRun = some j) (root : Nat) (pages : List (Nat × Nat)) :
    ∃ gone keep, s.ckptCommit root pages = ((s.rootCommitted root j pages).ckptTraffic pages.length).blocksReleased gone keep := by
  rw [State.ckptCommit, run]
  exact ⟨_, _, rfl⟩

/-- Releasing blocks changes their records alone. -/
theorem State.blocksReleased_ftl (gone keep : List (Nat × Nat)) : ∀ s : State, ∃ b, (s.blocksReleased gone keep).ftl = { s.ftl with blocks := b } := by
  induction gone with
  | nil => exact fun s => ⟨_, rfl⟩
  | cons g gone ih =>
    intro s
    rw [State.blocksReleased, List.foldl_cons]
    dsimp only
    split
    · exact ih _
    · exact ih s

theorem State.blocksReleased_onlyChanges (s : State) (gone keep : List (Nat × Nat)) : s.onlyChanges (s.blocksReleased gone keep) [.ftl] :=
  State.foldl_onlyChanges _ (fun s _ => State.onlyChanges_ite _ (s.modFtl_onlyChanges _) (s.onlyChanges_refl _)) gone s

theorem State.ckptTraffic_onlyChanges (s : State) (n : Nat) : s.onlyChanges (s.ckptTraffic n) [.freeCtr, .bg] :=
  State.onlyChanges_ite _ (s.onlyChanges_refl _) (State.foldl_onlyChanges _ (fun s _ =>
    State.onlyChanges_append (l := [.freeCtr]) (k := [.bg]) (s.draw_onlyChanges s.dram.mapped.length) (State.bgCharge_onlyChanges _ _ _ _)) _ s)

theorem State.rootCommitted_onlyChanges (s : State) (root j : Nat) (pages : List (Nat × Nat)) :
    s.onlyChanges (s.rootCommitted root j pages) [.ftl, .nv] :=
  State.onlyChanges_append (s.modFtl_onlyChanges _) (State.nv_onlyChanges _ _)

/-- CHECKPOINT_COMMIT (R195). -/
theorem checkpointCommit_completes {s : State} {j : Nat} (root : Nat) (pages : List (Nat × Nat)) (run : s.ftl.ckptRun = some j) :
    Completes (.checkpointCommit ⟨root, pages⟩) s (fun t =>
      t.nv = { s.nv with mapCkpt := root % 2 ^ 45 * 2 ^ 19 + (s.ftl.ckptGen + 1) % 2 ^ 16 * 8 + 1, rebuildCkpt := 0 }
      ∧ t.ftl.ckptRun = none ∧ t.ftl.rootPfa = root ∧ t.ftl.ckptGen = s.ftl.ckptGen + 1 ∧ t.ftl.map = s.ftl.map
      ∧ (∀ k, k < j → Tab.look t.ftl.jplaces k = none) ∧ t.ftl.dir = s.ckptDir pages
      ∧ (∀ i l, i ∈ s.lunsInUse → s.lun i = some l → Tab.look t.ftl.saved i = some (l.natives, l.groups))
      ∧ s.onlyChanges t [.nv, .ftl, .bg, .freeCtr, .out]) := by
  obtain ⟨gone, keep, commits⟩ := State.ckptCommit_released (s := s.fresh) run root pages
  let u := s.fresh.rootCommitted root j pages
  let v := u.ckptTraffic pages.length
  have traffic : u.onlyChanges v [.freeCtr, .bg] := u.ckptTraffic_onlyChanges _
  have released : v.onlyChanges (v.blocksReleased gone keep) [.ftl] := v.blocksReleased_onlyChanges gone keep
  obtain ⟨b, blocks⟩ := v.blocksReleased_ftl gone keep
  have ftl : (v.blocksReleased gone keep).ftl = { u.ftl with blocks := b } := by rw [blocks, traffic .ftl (by decide)]
  refine ⟨_, congrArg (State.done · s) commits, (released .nv (by decide)).trans (traffic .nv (by decide)), ?_⟩
  rw [ftl]
  refine ⟨rfl, rfl, rfl, rfl, fun k below => ?_, rfl, fun i l used lun => State.ckptSaved_look (s := s.fresh) used lun, ?_⟩
  · exact (Tab.look_keep (fun k => decide (j ≤ k)) _ k).trans (if_neg (by simpa using below))
  · exact State.onlyChanges_mono (State.onlyChanges_of_fresh (State.onlyChanges_append (State.onlyChanges_append
      (State.rootCommitted_onlyChanges _ _ _ _) traffic) released)) (by decide)

/-! ### Records -/

/-- A record leaves what is neither the map, the log and its frames, nor the superblocks. -/
theorem State.record_keeps {α : Type} (s : State) (kind l v : Nat) (g : FtlState → α)
    (h : ∀ f m d t fr j n b, g { f with map := m, delta := d, deltaAt := t, frames := fr, jnext := j, recCount := n, sbs := b } = g f) :
    g (s.record kind l v).ftl = g s.ftl := by
  let u := s.modFtl (fun f => { f with map := applyDelta f.map ⟨kind, l, v⟩ })
  have noted : g u.ftl = g s.ftl := h s.ftl u.ftl.map s.ftl.delta s.ftl.deltaAt s.ftl.frames s.ftl.jnext s.ftl.recCount s.ftl.sbs
  have logged : g (u.append kind l v).ftl = g u.ftl := State.append_keeps u kind l v g (fun f d t fr j n => h f f.map d t fr j n f.sbs)
  have last := h (u.append kind l v).ftl (u.append kind l v).ftl.map (u.append kind l v).ftl.delta (u.append kind l v).ftl.deltaAt
    (u.append kind l v).ftl.frames (u.append kind l v).ftl.jnext (u.append kind l v).ftl.recCount (s.record kind l v).ftl.sbs
  exact last.trans (logged.trans noted)

/-- A record is counted. -/
theorem State.record_recCount (s : State) (kind l v : Nat) : (s.record kind l v).ftl.recCount = s.ftl.recCount + 1 := by
  show (State.append _ kind l v).ftl.recCount = _
  simp only [State.append]
  split
  · exact State.closeFrame_keeps _ FtlState.recCount (fun _ _ _ _ _ => rfl)
  · rfl

/-- A record that sets one unit sets that entry of the map alone. -/
theorem State.record_mapEntry {s : State} {kind l v : Nat} (sets : ∀ m, applyDelta m ⟨kind, l, v⟩ = mapSet m l v) (k : Nat) :
    (s.record kind l v).mapEntry k = if k = l then v else s.mapEntry k := by
  rw [State.mapEntry, State.record_map, sets]
  exact lookD_mapSet _ _ _ _

/-! ### Garbage collection (R202, R203) -/

/-- Choosing a victim changes the victims chosen alone. -/
theorem State.gcPick_ftl (s : State) (set : Nat) : ∃ v, (s.gcPick set).ftl = { s.ftl with victim := v } := by
  simp only [State.gcPick]
  generalize (Tab.look s.ftl.victim set).filter _ = now
  split
  · exact ⟨_, rfl⟩
  · exact ⟨_, rfl⟩

theorem State.gcPick_onlyChanges (s : State) (set : Nat) : s.onlyChanges (s.gcPick set) [.ftl] := by
  simp only [State.gcPick]
  generalize (Tab.look s.ftl.victim set).filter _ = now
  split
  · exact s.modFtl_onlyChanges _
  · exact s.modFtl_onlyChanges _

theorem State.gcPick_keeps {α : Type} (s : State) (set : Nat) (g : FtlState → α) (h : ∀ f v, g { f with victim := v } = g f) :
    g (s.gcPick set).ftl = g s.ftl := by
  obtain ⟨v, hv⟩ := s.gcPick_ftl set
  rw [hv, h]

/-- The copy of an extent is in its new place. -/
def State.extentCopied (s : State) (new : Nat) (e : Extent) : State :=
  s.modFtl (fun f => { f with media := Tab.put f.media (entryPlace new) e })

section
variable {s : State} {laddr old new : Nat}

theorem State.gcMove_lost (named : s.mapEntry laddr = old) (holds : entryGrains old ≠ 0) :
    s.gcMove laddr old new true = ((s.gcPick (entryLun old % 64)).record 4 laddr entryUnrec).reclaimAll := by
  have named' : (s.gcPick (entryLun old % 64)).mapEntry laddr = old :=
    (State.gcPick_keeps s _ (fun f => Tab.lookD f.map laddr 0) (fun _ _ => rfl)).trans named
  rw [State.gcMove, if_pos rfl, if_pos ⟨named', holds⟩]

theorem State.gcMove_refused (may : (s.gcPick (entryLun old % 64)).gcMayMove old new = false) :
    s.gcMove laddr old new false = s.gcPick (entryLun old % 64) := by
  rw [State.gcMove, if_neg Bool.false_ne_true, may]
  rfl

theorem State.gcMove_copied {e : Extent} (may : (s.gcPick (entryLun old % 64)).gcMayMove old new = true)
    (here : Tab.look s.ftl.media (entryPlace old) = some e) : s.gcMove laddr old new false =
      (let v := (s.gcPick (entryLun old % 64)).extentCopied new e
       if s.mapEntry laddr = old ∧ e.laddr = laddr then (v.record 1 laddr new).reclaimAll else v) := by
  have here' : Tab.look (s.gcPick (entryLun old % 64)).ftl.media (entryPlace old) = some e :=
    (State.gcPick_keeps s _ (fun f => Tab.look f.media (entryPlace old)) (fun _ _ => rfl)).trans here
  have named : ((s.gcPick (entryLun old % 64)).extentCopied new e).mapEntry laddr = s.mapEntry laddr :=
    State.gcPick_keeps s _ (fun f => Tab.lookD f.map laddr 0) (fun _ _ => rfl)
  rw [State.gcMove, if_neg Bool.false_ne_true, may, if_pos rfl, here', ← named]
  rfl

end

section
variable {s : State} {laddr old new : Nat}

theorem gcExtentMove_moves {e : Extent} (may : (s.fresh.gcPick (entryLun old % 64)).gcMayMove old new = true)
    (here : Tab.look s.ftl.media (entryPlace old) = some e) (named : s.mapEntry laddr = old) (own : e.laddr = laddr) :
    Completes (.gcExtentMove laddr old new false) s (fun t => ∃ v : State, t = v.reclaimAll ∧ v.mapEntry laddr = new
      ∧ (∀ k, k ≠ laddr → v.mapEntry k = s.mapEntry k) ∧ Tab.look v.ftl.media (entryPlace new) = some e
      ∧ v.ftl.recCount = s.ftl.recCount + 1 ∧ s.onlyChanges v [.ftl, .regs, .out]) := by
  let p := s.fresh.gcPick (entryLun old % 64)
  have moves := (State.gcMove_copied (s := s.fresh) (laddr := laddr) may here).trans (if_pos ⟨named, own⟩)
  have entry := State.record_mapEntry (s := p.extentCopied new e) (kind := 1) (l := laddr) (v := new) (fun _ => rfl)
  refine ⟨_, congrArg (State.done · s) moves, _, rfl, (entry laddr).trans (if_pos rfl), fun k other => ?_, ?_, ?_, ?_⟩
  · exact (entry k).trans ((if_neg other).trans (State.gcPick_keeps s.fresh _ (fun f => Tab.lookD f.map k 0) (fun _ _ => rfl)))
  · exact (State.record_keeps _ 1 laddr new (fun f => Tab.look f.media (entryPlace new)) (fun _ _ _ _ _ _ _ _ => rfl)).trans
      (Tab.look_put_same _ _ _)
  · exact (State.record_recCount _ 1 laddr new).trans
      (congrArg (· + 1) (State.gcPick_keeps s.fresh (entryLun old % 64) FtlState.recCount (fun _ _ => rfl)))
  · exact State.onlyChanges_mono (State.onlyChanges_of_fresh (State.onlyChanges_append (State.onlyChanges_append
      (s.fresh.gcPick_onlyChanges _) (p.modFtl_onlyChanges _)) (State.record_onlyChanges _ 1 laddr new))) (by decide)

theorem gcExtentMove_refused (may : (s.fresh.gcPick (entryLun old % 64)).gcMayMove old new = false) :
    Completes (.gcExtentMove laddr old new false) s (fun t => t = s.fresh.gcPick (entryLun old % 64)) :=
  ⟨_, congrArg (State.done · s) (State.gcMove_refused may), rfl⟩

theorem gcExtentMove_stale {e : Extent} (may : (s.fresh.gcPick (entryLun old % 64)).gcMayMove old new = true)
    (here : Tab.look s.ftl.media (entryPlace old) = some e) (renamed : s.mapEntry laddr ≠ old) :
    Completes (.gcExtentMove laddr old new false) s (fun t => t.ftl.map = s.ftl.map ∧ t.ftl.delta = s.ftl.delta
      ∧ Tab.look t.ftl.media (entryPlace new) = some e ∧ s.onlyChanges t [.ftl, .out]) := by
  have copies := (State.gcMove_copied (s := s.fresh) (laddr := laddr) may here).trans (if_neg (fun h => renamed h.1))
  exact ⟨_, congrArg (State.done · s) copies, State.gcPick_keeps s.fresh _ FtlState.map (fun _ _ => rfl),
    State.gcPick_keeps s.fresh _ FtlState.delta (fun _ _ => rfl), Tab.look_put_same _ _ _, State.onlyChanges_mono (State.onlyChanges_of_fresh
      (State.onlyChanges_append (s.fresh.gcPick_onlyChanges _) (State.modFtl_onlyChanges _ _))) (by decide)⟩

theorem gcExtentMove_lost (named : s.mapEntry laddr = old) (holds : entryGrains old ≠ 0) :
    Completes (.gcExtentMove laddr old new true) s (fun t => ∃ v : State, t = v.reclaimAll ∧ v.mapEntry laddr = entryUnrec
      ∧ (∀ k, k ≠ laddr → v.mapEntry k = s.mapEntry k) ∧ s.onlyChanges v [.ftl, .regs, .out]) := by
  have entry := State.record_mapEntry (s := s.fresh.gcPick (entryLun old % 64)) (kind := 4) (l := laddr) (v := entryUnrec) (fun _ => rfl)
  refine ⟨_, congrArg (State.done · s) (State.gcMove_lost (s := s.fresh) named holds), _, rfl, (entry laddr).trans (if_pos rfl), fun k other => ?_, ?_⟩
  · exact (entry k).trans ((if_neg other).trans (State.gcPick_keeps s.fresh _ (fun f => Tab.lookD f.map k 0) (fun _ _ => rfl)))
  · exact State.onlyChanges_mono (State.onlyChanges_of_fresh (State.onlyChanges_append (s.fresh.gcPick_onlyChanges _)
      (State.record_onlyChanges _ 4 laddr entryUnrec))) (by decide)

end

theorem State.addVictim_closed {s : State} {k : Nat} {b : SuperBlock} (reason : Nat) (known : Tab.look s.ftl.sbs k = some b) (closed : b.state ≠ 0)
    (first : (s.ftl.victims.any (fun v => v.1 = k)) = false) :
    s.addVictim k reason = s.modFtl (fun f => { f with victims := f.victims ++ [(k, reason)] }) := by
  rw [State.addVictim, known]
  exact if_neg (fun h => h.elim (fun h => closed (of_decide_eq_true h)) (fun h => absurd (first.symm.trans h) (by decide)))

/-- A write of FTL_GC_VICTIM (R202). -/
theorem ftlGcVictim_adds {s : State} {r : Req} {w : Nat} {b : SuperBlock} (grants : s.grants r (FTL_GC_VICTIM.key 0 0) true)
    (reason : bits w 31 30 ≠ 0) (known : Tab.look s.ftl.sbs (bits w 19 14 * 2 ^ 14 + bits w 13 0) = some b) (closed : b.state ≠ 0)
    (first : (s.ftl.victims.any (fun v => v.1 = bits w 19 14 * 2 ^ 14 + bits w 13 0)) = false) :
    Acks (.ftlGcVictim r w) s r FTL_GC_VICTIM.win [] (fun t => ∃ v : State, t = v.gcPick (bits w 19 14)
      ∧ v.ftl = { s.ftl with victims := s.ftl.victims ++ [(bits w 19 14 * 2 ^ 14 + bits w 13 0, bits w 31 30)] } ∧ s.onlyChanges v [.ftl, .out]) := by
  have page : FTL_GC_VICTIM.win = FTL_GC_VICTIM.key 0 0 / 0x100000 := by decide
  rw [page]
  refine acks_of_write (k := fun s => s.victimWrite w) rfl grants ⟨_, if_neg reason, ?_⟩
  rw [State.addVictim_closed (s := s.fresh) _ known closed first]
  exact ⟨rfl, State.onlyChanges_mono (State.onlyChanges_of_fresh (State.modFtl_onlyChanges _ _)) (by decide)⟩

/-! ### Native block groups (R190) -/

/-- A LUN has a new active group in its native mode. -/
def Lun.NativeAdded (l l' : Lun) : Prop :=
  ∃ n, l'.natives.getLast? = some n ∧ 4 ≤ n ∧ n < 32 ∧ (l'.group n).active = true ∧ (l'.group n).mode = l.nativeMode

theorem State.lun_putLun (s : State) (i k : Nat) (l : Lun) : (s.putLun i l).lun k = if k = i then some l else s.lun k := by
  by_cases same : k = i
  · subst same
    rw [if_pos rfl]
    exact Tab.look_put_same _ _ _
  · rw [if_neg same]
    exact Tab.look_put_other _ _ _ _ same

/-- A LUN's native groups before a new one is added: the two oldest are merged when all 28 are in use. -/
def State.nativesMerged (s : State) (i : Nat) (l : Lun) : Lun × State :=
  match l.natives with
  | a :: b :: rest =>
    if 28 ≤ l.natives.length then
      ({ l with natives := b :: rest, groups := Tab.put l.groups a { l.group a with active := false } },
       s.modFtl (fun f => { f with blocks := Tab.mapVals (fun k (x : Blk) =>
         if k / 2 ^ 20 = i ∧ x.group = a ∧ x.pool = 1 then { x with group := b } else x) f.blocks }))
    else (l, s)
  | _ => (l, s)

/-- A new native group on a LUN takes the lowest group that is not active. -/
def Lun.nativeAdded (l : Lun) : Lun :=
  match ((List.range 28).map (fun k => k + 4)).find? (fun k => !(l.group k).active) with
  | none => l
  | some k =>
    { l with natives := l.natives ++ [k]
             groups := Tab.put l.groups k (({ Group.free with active := true, mode := l.nativeMode }).renew (l.group k).gen) }

theorem State.nativeGroup_added {s : State} {i : Nat} {l : Lun} (lun : s.lun i = some l) :
    s.nativeGroup i = (s.nativesMerged i l).2.putLun i (s.nativesMerged i l).1.nativeAdded := by
  rw [State.nativeGroup, lun, Lun.nativeAdded]
  show (match ((List.range 28).map (fun k => k + 4)).find? (fun k => !((s.nativesMerged i l).1.group k).active) with
    | none => (s.nativesMerged i l).2.putLun i (s.nativesMerged i l).1
    | some k => (s.nativesMerged i l).2.putLun i { (s.nativesMerged i l).1 with
        natives := (s.nativesMerged i l).1.natives ++ [k]
        groups := Tab.put (s.nativesMerged i l).1.groups k
          (({ Group.free with active := true, mode := (s.nativesMerged i l).1.nativeMode }).renew ((s.nativesMerged i l).1.group k).gen) }) = _
  cases ((List.range 28).map (fun k => k + 4)).find? (fun k => !((s.nativesMerged i l).1.group k).active) <;> rfl

/-- Merging groups changes the records of blocks alone. -/
theorem State.nativesMerged_blocks (s : State) (i : Nat) (l : Lun) : ∃ b, (s.nativesMerged i l).2 = s.modFtl (fun f => { f with blocks := b }) := by
  rw [State.nativesMerged]
  split
  · split
    · exact ⟨_, rfl⟩
    · exact ⟨s.ftl.blocks, rfl⟩
  · exact ⟨s.ftl.blocks, rfl⟩

theorem State.nativesMerged_room (s : State) (i : Nat) {l : Lun} (room : l.natives.length < 28) : s.nativesMerged i l = (l, s) := by
  rw [State.nativesMerged]
  split
  · exact if_neg (Nat.not_le.mpr room)
  · rfl

theorem State.putLun_onlyChanges (s : State) (i : Nat) (l : Lun) : s.onlyChanges (s.putLun i l) [.flash] := by
  intro p hp
  cases p
  case flash => exact absurd (by decide) hp
  all_goals rfl

/-- A LUN's new native group changes that LUN and the records of blocks alone. -/
theorem State.nativeGroup_puts (s : State) (i : Nat) : s.nativeGroup i = s ∨ ∃ b l, s.nativeGroup i =
    (s.modFtl (fun f => { f with blocks := b })).putLun i l := by
  cases lun : s.lun i with
  | none =>
    left
    rw [State.nativeGroup, lun]
  | some l =>
    obtain ⟨b, blocks⟩ := s.nativesMerged_blocks i l
    exact .inr ⟨b, _, (State.nativeGroup_added lun).trans (by rw [blocks])⟩

theorem State.nativeGroup_onlyChanges (s : State) (i : Nat) : s.onlyChanges (s.nativeGroup i) [.ftl, .flash] := by
  obtain same | ⟨b, l, puts⟩ := s.nativeGroup_puts i
  · rw [same]
    exact s.onlyChanges_refl _
  · rw [puts]
    exact State.onlyChanges_append (s.modFtl_onlyChanges _) (State.putLun_onlyChanges _ _ _)

theorem State.nativeGroup_keeps {α : Type} (s : State) (i : Nat) (g : FtlState → α) (h : ∀ f b, g { f with blocks := b } = g f) :
    g (s.nativeGroup i).ftl = g s.ftl := by
  obtain same | ⟨b, l, puts⟩ := s.nativeGroup_puts i
  · rw [same]
  · rw [puts]
    exact h _ _

theorem State.nativeGroup_lun_other (s : State) {i k : Nat} (other : k ≠ i) : (s.nativeGroup i).lun k = s.lun k := by
  obtain same | ⟨b, l, puts⟩ := s.nativeGroup_puts i
  · rw [same]
  · rw [puts, State.lun_putLun, if_neg other]
    rfl

/-- The group added is the lowest that was not active (R190). -/
theorem Lun.nativeAdded_added {l : Lun} {k : Nat} (low : 4 ≤ k) (high : k < 32) (idle : (l.group k).active = false) : l.NativeAdded l.nativeAdded := by
  cases found : ((List.range 28).map (fun k => k + 4)).find? (fun k => !(l.group k).active) with
  | none =>
    have taken := List.find?_eq_none.mp found k (List.mem_map.mpr ⟨k - 4, List.mem_range.mpr (by omega), by omega⟩)
    exact absurd (by rw [idle]; rfl) taken
  | some n =>
    obtain ⟨m, range, rfl⟩ := List.mem_map.mp (List.mem_of_find?_eq_some found)
    have small := List.mem_range.mp range
    rw [Lun.nativeAdded, found]
    have group : ∀ g, Lun.group { l with natives := l.natives ++ [m + 4], groups := Tab.put l.groups (m + 4) g } (m + 4) = g :=
      fun g => Tab.lookD_put_same _ _ _ _
    refine ⟨m + 4, List.getLast?_concat, by omega, by omega, ?_, ?_⟩
    · rw [group]
      rfl
    · rw [group]
      rfl

/-- New native groups on LUNs, each of its own. -/
theorem State.nativeGroups_added {i k : Nat} {l : Lun} (room : l.natives.length < 28) (low : 4 ≤ k) (high : k < 32)
    (idle : (l.group k).active = false) : ∀ (ks : List Nat) (s : State), ks.Nodup → i ∈ ks → s.lun i = some l →
      ∃ l', (ks.foldl (fun s i => s.nativeGroup i) s).lun i = some l' ∧ l.NativeAdded l' := by
  intro ks
  induction ks with
  | nil => exact fun s _ mem => absurd mem (by simp)
  | cons j ks ih =>
    intro s nodup mem lun
    obtain ⟨fresh, nodup⟩ := List.nodup_cons.mp nodup
    by_cases same : i = j
    · subst same
      have rest : ∀ (xs : List Nat) (u : State), i ∉ xs → (xs.foldl (fun s i => s.nativeGroup i) u).lun i = u.lun i := by
        intro xs
        induction xs with
        | nil => exact fun _ _ => rfl
        | cons x xs ihx =>
          intro u out
          obtain ⟨ne, out⟩ := not_or.mp (mt List.mem_cons.mpr out)
          exact (ihx _ out).trans (u.nativeGroup_lun_other ne)
      refine ⟨l.nativeAdded, ?_, Lun.nativeAdded_added low high idle⟩
      rw [List.foldl_cons, rest ks _ fresh, State.nativeGroup_added lun, s.nativesMerged_room i room, State.lun_putLun, if_pos rfl]
    · exact ih _ nodup ((List.mem_cons.mp mem).resolve_left same) ((s.nativeGroup_lun_other same).trans lun)

/-- NATIVE_GROUP_CREATE (R190). -/
theorem nativeGroupCreate_completes {s : State} (nodup : s.lunsInUse.Nodup) : Completes .nativeGroupCreate s (fun t =>
    t.ftl.groupAt = t.time ∧ t.time = max s.time (s.ftl.groupAt + 86400000000000) ∧ t.ftl.map = s.ftl.map
      ∧ (∀ i l k, i ∈ s.lunsInUse → s.lun i = some l → l.natives.length < 28 → 4 ≤ k → k < 32 → (l.group k).active = false →
        ∃ l' n, t.lun i = some l' ∧ l'.natives.getLast? = some n ∧ 4 ≤ n ∧ n < 32 ∧ (l'.group n).active = true
          ∧ (l'.group n).mode = l.nativeMode)
      ∧ s.onlyChanges t [.flash, .ftl, .time, .out]) := by
  let u := s.fresh.notBefore (s.ftl.groupAt + 86400000000000)
  have groups : u.onlyChanges (u.lunsInUse.foldl (fun s i => s.nativeGroup i) u) [.ftl, .flash] :=
    State.foldl_onlyChanges _ State.nativeGroup_onlyChanges _ _
  have map : ∀ (xs : List Nat) (v : State), (xs.foldl (fun s i => s.nativeGroup i) v).ftl.map = v.ftl.map := by
    intro xs
    induction xs with
    | nil => exact fun _ => rfl
    | cons x xs ih => exact fun v => (ih _).trans (v.nativeGroup_keeps x FtlState.map (fun _ _ => rfl))
  refine ⟨_, rfl, (groups .time (by decide)).symm, groups .time (by decide), map _ u, fun i l k used lun room low high idle => ?_, ?_⟩
  · obtain ⟨l', lun', n, added⟩ := State.nativeGroups_added room low high idle u.lunsInUse u nodup used lun
    exact ⟨l', n, lun', added⟩
  · exact State.onlyChanges_mono (State.onlyChanges_of_fresh (State.onlyChanges_append (State.onlyChanges_append
      (s.fresh.notBefore_onlyChanges _) groups) (State.modFtl_onlyChanges _ _))) (by decide)

end Sys2Proof.Machine
end

section
/-!
SUPPORT. What the later steps of map recovery keep (R218): the time, the start, the map, the events raised and what FTL_STAT and FTL_CTRL show.
-/
namespace Sys2Proof.Machine

/-! ### The relation -/

/-- What a start shows of its recovery. -/
abbrev recoveryShown : List Field := [FTL_STAT_FULL, FTL_STAT_TAIL, FTL_CTRL_ENABLE]

/-- A write of a field touches none of the bits that show a recovery. -/
abbrev Field.Apart (f : Field) (i j : Nat) : Prop :=
  ∀ g ∈ recoveryShown, g.reg.key 0 0 = f.reg.key i j → f.hi < g.lo ∧ f.lo ≤ f.hi ∨ g.hi < f.lo

/-- A register whose instances lie whole pages apart, at another place of the page than FTL_CTRL and FTL_STAT. -/
theorem Field.apart_paged {f : Field} (h : f.reg.paged = true ∧ f.reg.off % 0x1000 ≠ 0x10 ∧ f.reg.off % 0x1000 ≠ 0x14) (i : Nat) : f.Apart i 0 := by
  have off : ∀ g ∈ recoveryShown, g.reg.paged = true ∧ g.reg.off % 0x1000 ≠ f.reg.off % 0x1000 := by
    obtain ⟨_, ctrl, stat⟩ := h
    intro g hg
    fin_cases hg
    · exact ⟨rfl, fun e => stat e.symm⟩
    · exact ⟨rfl, fun e => stat e.symm⟩
    · exact ⟨rfl, fun e => ctrl e.symm⟩
  intro g hg same
  obtain ⟨paged, other⟩ := off g hg
  exact absurd ((RegId.key_page paged 0).symm.trans ((congrArg (· % 0x1000) same).trans (RegId.key_page h.1 i))) other

/-- The fault bucket of a channel lies in the low half of its word: below every bit that shows a recovery. -/
theorem apart_fbkt (c : Nat) : DRC_CH_FBKT_FBKT.Apart c 0 := by
  intro g hg _
  fin_cases hg <;> decide

theorem State.fld_setFld_apart (s : State) {f g : Field} {i j : Nat} (v : Nat) (apart : f.Apart i j) (hg : g ∈ recoveryShown) :
    (s.setFld f v i j).fld g = s.fld g := by
  by_cases same : g.reg.key 0 0 = f.reg.key i j
  · have top : g.hi < 32 := by fin_cases hg <;> decide
    have word : (s.setFld f v i j).reg g.reg = setBits (s.reg f.reg i j) f.hi f.lo v % 2 ^ 32 := by
      rw [State.reg, same]
      exact s.reg_putReg_same f.reg (setBits (s.reg f.reg i j) f.hi f.lo v) i j
    have old : s.reg g.reg = s.reg f.reg i j := by rw [State.reg, State.reg, same]
    rw [State.fld, State.fld, word, old, bits_mod_word _ _ _ top]
    rcases apart g hg same with h | h
    · exact bits_setBits_above _ _ _ _ _ _ h.1 h.2
    · exact bits_setBits_below _ _ _ _ _ _ h
  · exact State.fld_setFld_other s f g v i j 0 0 same

/-- A step after which time, start, map and what is shown are as before; events are only added. -/
structure State.Carries (s t : State) : Prop where
  time : t.time = s.time
  startAt : t.boot.startAt = s.boot.startAt
  bootDone : t.boot.bootDone = s.boot.bootDone
  map : t.ftl.map = s.ftl.map
  dmap : t.ftl.dmap = s.ftl.dmap
  inbox : ∀ e ∈ s.evt.inbox, e ∈ t.evt.inbox
  shown : ∀ g ∈ recoveryShown, t.fld g = s.fld g

namespace State.Carries

theorem refl (s : State) : s.Carries s := ⟨rfl, rfl, rfl, rfl, rfl, fun _ h => h, fun _ _ => rfl⟩

theorem trans {s t u : State} (h : s.Carries t) (g : t.Carries u) : s.Carries u where
  time := g.time.trans h.time
  startAt := g.startAt.trans h.startAt
  bootDone := g.bootDone.trans h.bootDone
  map := g.map.trans h.map
  dmap := g.dmap.trans h.dmap
  inbox := fun e he => g.inbox e (h.inbox e he)
  shown := fun f hf => (g.shown f hf).trans (h.shown f hf)

theorem ite {s t u : State} (p : Prop) [Decidable p] (ht : s.Carries t) (hu : s.Carries u) : s.Carries (if p then t else u) := by
  split
  · exact ht
  · exact hu

/-- A step that may be taken. -/
theorem step {s t u : State} (p : Prop) [Decidable p] (h : s.Carries t) (g : t.Carries u) : s.Carries (if p then u else t) :=
  ite p (h.trans g) h

theorem foldl {α : Type} (f : State → α → State) (h : ∀ (s : State) (a : α), s.Carries (f s a)) (l : List α) (s : State) : s.Carries (l.foldl f s) := by
  induction l generalizing s with
  | nil => exact refl s
  | cons a l ih => exact (h s a).trans (ih _)

/-- A step that changes other parts of the state. -/
theorem of_onlyChanges {s t : State} {l : List StateField} (h : s.onlyChanges t l)
    (other : ∀ p ∈ [StateField.time, .boot, .ftl, .evt, .regs, .part], p ∉ l) : s.Carries t where
  time := h .time (other _ (by decide))
  startAt := congrArg BootState.startAt (h .boot (other _ (by decide)))
  bootDone := congrArg BootState.bootDone (h .boot (other _ (by decide)))
  map := congrArg FtlState.map (h .ftl (other _ (by decide)))
  dmap := congrArg FtlState.dmap (h .ftl (other _ (by decide)))
  inbox := fun _ he => by rwa [h .evt (other _ (by decide))]
  shown := fun g _ => State.fld_of_regsBut (State.regsBut_of_regs (h .regs (other _ (by decide))) (h .part (other _ (by decide))) [])
    g 0 0 (by simp)

theorem raiseWith (s : State) (n c : Nat) (l : List Nat) (p : Option Nat) (f : Nat) : s.Carries (s.raiseWith n c l p f) :=
  ⟨rfl, rfl, rfl, rfl, rfl, fun _ h => List.mem_append_left _ h, fun _ _ => rfl⟩

theorem raise (s : State) (n c : Nat) (l : List Nat) : s.Carries (s.raise n c l) := raiseWith s n c l none 0

theorem setFld (s : State) {f : Field} {i j : Nat} (v : Nat) (apart : f.Apart i j) : s.Carries (s.setFld f v i j) :=
  ⟨rfl, rfl, rfl, rfl, rfl, fun _ h => h, fun _ hg => s.fld_setFld_apart v apart hg⟩

theorem countS (s : State) {a o : Field} {i j : Nat} (n : Nat) (ha : a.Apart i j) (ho : o.Apart i j) : s.Carries (s.countS a o n i j) := by
  rw [State.countS]
  exact ite _ ((setFld s _ ha).trans (setFld _ _ ho)) (setFld s _ ha)

theorem putPair (s : State) {lo hi : RegId} {i j : Nat} (v : Nat) (apart : ∀ g ∈ recoveryShown, g.reg.key 0 0 ∉ [lo.key i j, hi.key i j]) :
    s.Carries (s.putPair lo hi v i j) :=
  ⟨rfl, rfl, rfl, rfl, rfl, fun _ h => h, fun g hg => s.fld_putPair_other lo hi g v i j 0 0 (apart g hg)⟩

theorem modFtl (s : State) (f : FtlState → FtlState) (hm : (f s.ftl).map = s.ftl.map) (hd : (f s.ftl).dmap = s.ftl.dmap) :
    s.Carries (s.modFtl f) := ⟨rfl, rfl, rfl, hm, hd, fun _ h => h, fun _ _ => rfl⟩

end State.Carries

/-! ### Behind an access of memory -/

section
variable (s : State)

theorem State.dramBucket_le (addr : Nat) : s.dramBucket addr ≤ 16 := by
  rw [State.dramBucket]
  cases found : s.dregOf addr with
  | none => exact Nat.le_refl 16
  | some r => exact Nat.le_of_lt (List.mem_range.mp (List.mem_of_find?_eq_some found))

theorem State.ledgerBucket_le (off : Nat) : s.ledgerBucket off ≤ 21 := by
  rw [State.ledgerBucket]
  cases found : s.lregOf off with
  | none => exact Nat.le_refl 21
  | some r =>
    have := List.mem_range.mp (List.mem_of_find?_eq_some found)
    show 17 + r ≤ 21
    omega

/-- The buckets' registers lie below window 0x12. -/
theorem Field.apart_bucket {f : Field} (bkt : f.reg = MPR_BKT_STAT) {b : Nat} (small : b ≤ 22) : f.Apart b 0 := by
  intro g hg same
  rw [bkt] at same
  have low : MPR_BKT_STAT.key b 0 < 0x1200000 := by
    simp only [RegId.key, MPR_BKT_STAT]
    omega
  have high : 0x1200000 ≤ g.reg.key 0 0 := by fin_cases hg <;> decide
  omega

theorem State.healthTo_carries {b : Nat} (h : Nat) (small : b ≤ 22) : s.Carries (s.healthTo b h) :=
  .ite _ (.setFld s _ (Field.apart_bucket rfl small)) (.refl s)

theorem State.Carries.dram (x : MemState) : s.Carries { s with dram := x } := .of_onlyChanges (s.dram_onlyChanges x) (by decide)

theorem State.Carries.nv (x : NvState) : s.Carries { s with nv := x } := .of_onlyChanges (s.nv_onlyChanges x) (by decide)

theorem State.bucketUp_carries {b : Nat} (small : b ≤ 22) : s.Carries (s.bucketUp b) := by
  simp only [State.bucketUp]
  have counted := State.Carries.setFld s (min 65535 (s.fld MPR_BKT_STAT_BUCKET b + 1)) (Field.apart_bucket (f := MPR_BKT_STAT_BUCKET) rfl small)
  refine .ite _ ?_ counted
  exact counted.trans ((State.Carries.dram _ _).trans ((State.healthTo_carries _ 2 small).trans (.raise _ _ _ _)))

theorem State.regionFailed_carries {b : Nat} (small : b ≤ 22) : s.Carries (s.regionFailed b) :=
  (s.healthTo_carries 0 small).trans (.setFld _ _ (Field.apart_bucket (f := MPR_BKT_STAT_UE_SEEN) rfl small))

theorem State.setBad_carries (l : Nat) (b : LineBad) : s.Carries (s.setBad l b) := .dram s _

theorem State.memUe_carries (c t a m : Nat) (i : Bool) : s.Carries (s.memUe c t a m i) := .raiseWith s _ _ _ _ _

theorem State.draw_carries (n : Nat) : s.Carries (s.draw n).2 := .of_onlyChanges (s.draw_onlyChanges n) (by decide)

theorem State.dropPages_carries : s.Carries s.dropPages := by
  refine .foldl _ (fun s k => ?_) _ s
  dsimp only
  exact .ite _ (.refl s) (.ite _ (s.draw_carries 2) ((s.draw_carries 2).trans
    (.modFtl _ (fun f => { f with unheld := f.unheld ++ [k] }) rfl rfl)))

theorem State.fenceChan_carries (c k : Nat) : s.Carries (s.fenceChan c k) := by
  have fenced : s.Carries (((s.setFld DRC_FENCE_CFG_FENCED (s.fld DRC_FENCE_CFG_FENCED + 2 ^ c)).setFld DRC_CH_STAT_STATE 5 c).raise 166 k [c]) :=
    (State.Carries.setFld s _ (f := DRC_FENCE_CFG_FENCED) (Field.apart_paged (by decide) 0)).trans
      ((State.Carries.setFld _ _ (f := DRC_CH_STAT_STATE) (Field.apart_paged (by decide) c)).trans (.raise _ _ _ _))
  simp only [State.fenceChan]
  refine .ite _ (.refl s) ?_
  split
  · exact fenced
  · have dropped := fenced.trans (State.dropPages_carries _)
    exact .ite _ (dropped.trans ((State.Carries.setFld _ _ (f := DRC_CH_STAT_MIR_SINGLE) (Field.apart_paged (by decide) _)).trans (.raise _ _ _ _))) dropped

theorem State.keyHit_carries (a : Nat) : s.Carries (s.keyHit a) := .ite _ (.refl s) (.nv s _)

theorem State.hardFault_carries (m u a : Nat) {b : Nat} (small : b ≤ 22) : s.Carries (s.hardFault m b u a) :=
  .ite _ ((State.Carries.nv s _).trans (.raise _ _ _ _))
    ((State.Carries.dram s _).trans ((State.healthTo_carries _ 1 small).trans (.raise _ _ _ _)))

theorem State.watched_carries (m u a : Nat) {b : Nat} (small : b ≤ 22) : s.Carries (s.watched m b u a) := by
  simp only [State.watched]
  refine .ite _ (.refl s) ?_
  split
  · exact .ite _ ((s.hardFault_carries m u a small).trans (.dram _ _)) (.dram _ _)
  · exact .dram _ _

theorem State.dramCorrected_carries (c a : Nat) : s.Carries (s.dramCorrected c a) := by
  let u := s.countS DRC_CH_ERR_CE DRC_CH_ERR_OVF 1 c
  let v := u.bucketUp (u.dramBucket a)
  have counted : s.Carries u := .countS s 1 (Field.apart_paged (by decide) c) (Field.apart_paged (by decide) c)
  have up : u.Carries v := u.bucketUp_carries (Nat.le_trans (u.dramBucket_le a) (by decide))
  have seen := (counted.trans up).trans (v.watched_carries c (v.localLine a) (a / 64 * 64) (Nat.le_trans (v.dramBucket_le a) (by decide)))
  exact .ite _ (.ite _ ((seen.trans (.setFld _ _ (apart_fbkt c))).trans (State.fenceChan_carries _ c 2))
    (seen.trans (.setFld _ _ (apart_fbkt c)))) seen

theorem State.dramUncorrectable_carries (c a : Nat) : s.Carries (s.dramUncorrectable c a) := by
  let u := s.countS DRC_CH_ERR_UE DRC_CH_ERR_OVF 1 c
  have counted : s.Carries u := .countS s 1 (Field.apart_paged (by decide) c) (Field.apart_paged (by decide) c)
  have failed := counted.trans (u.regionFailed_carries (Nat.le_trans (u.dramBucket_le a) (by decide)))
  exact .ite _ ((failed.trans (.dram _ _)).trans (State.fenceChan_carries _ c 3)) (failed.trans (.dram _ _))

theorem State.wakeChan_carries (c : Nat) : s.Carries (s.wakeChan c) := by
  have stamped : s.Carries (s.stamp (.request c)) := .of_onlyChanges (s.stamp_onlyChanges _) (by decide)
  exact .ite _ (stamped.trans (.setFld _ _ (Field.apart_paged (by decide) c))) stamped

theorem State.injectOn_carries (l : Nat) : s.Carries (s.injectOn l) :=
  .ite _ ((s.setBad_carries _ _).trans ((State.Carries.setFld _ _ (f := MPR_INJ_CTRL_ARM) (Field.apart_paged (by decide) 0)).trans (.raise _ _ _ _))) (.refl s)

theorem State.copyLost_carries (c a k : Nat) : s.Carries (s.copyLost c a k) := .ite _ (.refl s) (s.dramUncorrectable_carries c a)

theorem State.fromCopy_carries (o m a pk ck : Nat) (b : LineBad) : s.Carries (s.fromCopy o m a pk ck b).2 := by
  have read : s.Carries (if ck = 1 then s.dramCorrected o a else s) := .ite _ (s.dramCorrected_carries o a) (.refl s)
  simp only [State.fromCopy]
  split
  · exact .ite _ (read.trans (State.setBad_carries _ _ _)) read
  · exact read.trans ((State.setBad_carries _ _ _).trans (State.memUe_carries _ _ _ _ _ _))

theorem State.bothLost_carries (m a pk ck : Nat) (u : Bool) (b : LineBad) : s.Carries (s.bothLost m a pk ck u b).2 :=
  (s.setBad_carries _ _).trans (State.memUe_carries _ _ _ _ _ _)

theorem State.dramLine_carries (m a : Nat) (p c : CellErr) (b : Bool) : s.Carries (s.dramLine m a p c b).2 := by
  have awake := s.wakeChan_carries (s.chanOf a)
  simp only [State.dramLine]
  split
  · exact awake
  split
  · exact awake
  generalize (if State.chanFenced _ (s.chanOf a) = true then 5 else _ : Nat) = pk
  generalize (if (!s.mirrored a) = true ∨ State.chanFenced _ (s.copyChan a) = true then 5 else _ : Nat) = ck
  repeat' split
  · exact awake
  · exact awake.trans ((State.dramCorrected_carries _ _ _).trans (State.setBad_carries _ _ _))
  · exact awake.trans ((State.copyLost_carries _ _ _ _).trans (State.fromCopy_carries _ _ _ _ _ _ _))
  · exact awake
  all_goals exact awake.trans ((State.copyLost_carries _ _ _ _).trans ((State.copyLost_carries _ _ _ _).trans (State.bothLost_carries _ _ _ _ _ _ _)))

theorem State.sramLine_carries (m a : Nat) (p : CellErr) (b : Bool) : s.Carries (s.sramLine m a p b).2 := by
  have ce : s.Carries (s.countS MPR_SRAM_STAT_CE MPR_SRAM_STAT_OVF 1) := .countS s 1 (by decide) (by decide)
  have ue : s.Carries (s.countS MPR_SRAM_STAT_UE MPR_SRAM_STAT_OVF 1) := .countS s 1 (by decide) (by decide)
  simp only [State.sramLine]
  split
  · exact .refl s
  split
  · exact .refl s
  generalize readKind 0 false _ p = q
  split
  · exact .refl s
  · exact ce.trans ((State.bucketUp_carries _ (by decide)).trans ((State.watched_carries _ _ _ _ (by decide)).trans (State.setBad_carries _ _ _)))
  · exact ue.trans ((State.regionFailed_carries _ (by decide)).trans ((State.setBad_carries _ _ _).trans (State.memUe_carries _ _ _ _ _ _)))

theorem State.ledgerLine_carries (m a : Nat) (p : CellErr) (b : Bool) : s.Carries (s.ledgerLine m a p b).2 := by
  have ce : s.Carries (s.countS LMC_STAT_CE LMC_STAT_OVF 1) := .countS s 1 (by decide) (by decide)
  have ue : s.Carries (s.countS LMC_STAT_UE LMC_STAT_OVF 1) := .countS s 1 (by decide) (by decide)
  have small : ∀ u : State, ∀ o, u.ledgerBucket o ≤ 22 := fun u o => Nat.le_succ_of_le (u.ledgerBucket_le o)
  simp only [State.ledgerLine]
  generalize a - 0xE800000000 = o
  generalize readKind _ false 0 p = q
  split
  · exact .refl s
  · exact ce.trans ((State.bucketUp_carries _ (small _ _)).trans (State.watched_carries _ _ _ _ (small _ _)))
  · exact ue.trans ((State.regionFailed_carries _ (small _ _)).trans ((State.keyHit_carries _ _).trans (State.memUe_carries _ _ _ _ _ _)))

theorem State.lineRead_carries (m t a : Nat) (p c : CellErr) (b : Bool) : s.Carries (s.lineRead m t a p c b).2 := by
  simp only [State.lineRead]
  repeat' split
  · exact s.dramLine_carries m a p c b
  · exact s.sramLine_carries m a p b
  · exact s.ledgerLine_carries m a p b
  · exact .refl s

theorem State.wr_carries (a : Nat) (bs : List Byte) : s.Carries (s.wr a bs) := .of_onlyChanges (s.mem_onlyChanges _) (by decide)

theorem State.lineWrite_carries (m t a : Nat) (bs : List Byte) : s.Carries (s.lineWrite m t a bs).2 := by
  have awake : s.Carries (if t = 0x40 then s.wakeChan (s.chanOf a) else s) := .ite _ (s.wakeChan_carries _) (.refl s)
  have written : ∀ (u : State) (x : Nat) (d : List Byte), u.Carries ((u.wr x d).injectOn (a / 64)) :=
    fun u x d => (u.wr_carries x d).trans (State.injectOn_carries _ _)
  simp only [State.lineWrite]
  generalize (if t = 0x40 then s.wakeChan (s.chanOf a) else s) = v at awake
  generalize (if t = 0x40 then !bit (s.fld CFG_MEM_INIT_DRAM_DONE) (s.chanOf a) else _ : Bool) = q
  have read := v.lineRead_carries m t a .none .none false
  split
  · exact awake
  split
  · exact awake
  split
  · exact awake.trans ((State.Carries.dram _ _).trans ((State.setBad_carries _ _ _).trans ((State.wr_carries _ _ _).trans (written _ _ _))))
  split
  · exact awake.trans ((State.setBad_carries _ _ _).trans (written _ _ _))
  split
  · next u hu =>
    rw [hu] at read
    exact awake.trans (read.trans (written _ _ _))
  · next e u hu =>
    rw [hu] at read
    exact awake.trans (read.trans ((State.setBad_carries _ _ _).trans (written _ _ _)))

theorem State.linesWrite_carries (m t a : Nat) (bs : List Byte) (n : Nat) : s.Carries (s.linesWrite m t a bs n).2 := by
  induction n generalizing s a bs with
  | zero => exact .refl s
  | succ n ih =>
    have line := s.lineWrite_carries m t a (bs.take (64 - a % 64))
    simp only [State.linesWrite]
    split
    · exact .refl s
    split
    · next u hu =>
      rw [hu] at line
      exact line.trans (ih u _ _)
    · exact line

theorem State.Carries.hsf (x : HsfState) : s.Carries { s with hsf := x } := .of_onlyChanges (s.hsf_onlyChanges x) (by decide)

theorem State.stalled_carries (m t k : Nat) : s.Carries (s.stalled m t k) := by
  have counted : s.Carries ((((s.countS HSF_WDOG_STAT_STALLS HSF_WDOG_STAT_OVF 1).setFld HSF_WDOG_STAT_LAST_MASTER m).setFld
      HSF_WDOG_STAT_LAST_TARGET t).raise 40 k [m, t]) :=
    (State.Carries.countS s 1 (by decide) (by decide)).trans ((State.Carries.setFld _ _ (by decide)).trans
      ((State.Carries.setFld _ _ (by decide)).trans (.raise _ _ _ _)))
  have noted := fun x => counted.trans (.hsf _ x)
  exact .ite _ (.ite _ ((noted _).trans ((State.Carries.hsf _ _).trans (.raise _ _ _ _))) (noted _)) counted

theorem State.slotHold_carries (n m t : Nat) : s.Carries (s.slotHold n m t).2 := .of_onlyChanges (s.slotHold_onlyChanges n m t) (by decide)

theorem State.slotPass_carries (m t n : Nat) : s.Carries (s.slotPass m t n).2 := by
  induction n generalizing s with
  | zero => exact .refl s
  | succ n ih =>
    have held := (s.slotHold_carries 0 m t).trans ((State.slotHold_carries _ 1 m t).trans
      ((State.slotHold_carries _ 2 m t).trans (State.slotHold_carries _ 3 m t)))
    simp only [State.slotPass]
    split
    · exact .refl s
    split
    · exact held.trans (State.stalled_carries _ m t 1)
    · exact held.trans (ih _)

theorem State.denied_carries (r : Req) (t a c : Nat) : s.Carries (s.denied r t a c) := by
  rw [State.denied_eq]
  exact (State.Carries.countS s 1 (by decide) (by decide)).trans ((State.Carries.setFld _ _ (by decide)).trans
    ((State.Carries.setFld _ _ (by decide)).trans ((State.Carries.putPair _ _ (by decide)).trans (.raiseWith _ _ _ _ _ _))))

theorem State.generalWrite_carries (off : Nat) (bs : List Byte) : s.Carries (s.generalWrite off bs) := .ite _ (.nv s _) (.refl s)

theorem State.store_carries (r : Req) (a : Nat) (bs : List Byte) : s.Carries (s.store r a bs).2 := by
  simp only [State.store]
  split
  · split
    · split
      · exact .refl s
      · split
        · exact s.generalWrite_carries _ _
        · exact (s.generalWrite_carries _ _).trans (State.slotPass_carries _ _ _ _)
    · have lines := s.linesWrite_carries r.master (((regionOf a).map (fun x => x.1)).getD 0) a bs (lineCount a bs.length)
      split
      · next u hu =>
        rw [hu] at lines
        exact lines.trans (State.slotPass_carries _ _ _ _)
      · exact lines
  · exact s.denied_carries _ _ _ _
  · exact .refl s
  · exact s.stalled_carries _ _ _
  · exact .refl s

end

/-! ### Behind the start of a flash operation -/

section
variable (s : State)

theorem State.bgNote_carries (n i : Nat) (b : Bool) : s.Carries (s.bgNote n i b) := .of_onlyChanges (s.bgNote_onlyChanges n i b) (by decide)

theorem State.modTsk_carries (f : TskState → TskState) : s.Carries (s.modTsk f) := .of_onlyChanges (s.modTsk_onlyChanges f) (by decide)

theorem State.fillFirst_carries {s t : State} {ks : List Nat} (h : s.fillFirst ks = some t) : s.Carries t := by
  induction ks with
  | nil => simp [State.fillFirst] at h
  | cons k ks ih =>
    rw [State.fillFirst] at h
    split at h
    · next i u pick =>
      have picked : s.Carries u := .of_onlyChanges (by simpa [pick] using s.pickTask_onlyChanges k) (by decide)
      rw [← Option.some.inj h]
      exact picked.trans ((State.Carries.of_onlyChanges (State.slot_onlyChanges _ _ _) (by decide)).trans (State.modTsk_carries _ _))
    · exact ih h

theorem State.fillAll_carries (n : Nat) : s.Carries (s.fillAll n) := by
  induction n generalizing s with
  | zero => exact .refl s
  | succ n ih =>
    rw [State.fillAll]
    split
    · next filled => exact (State.fillFirst_carries filled).trans (ih _)
    · exact .refl s

theorem State.cobWaits_carries : s.Carries s.cobWaits :=
  (s.modTsk_carries _).trans (.foldl _ (fun u _ => .raise u _ _ _) _ _)

theorem State.dispatch_carries : s.Carries s.dispatch := by
  simp only [State.dispatch]
  exact .ite _ ((s.fillAll_carries _).trans ((State.cobWaits_carries _).trans (.foldl _ (fun u _ => u.bgNote_carries _ _ _) _ _)))
    (s.modTsk_carries _)

theorem State.flagSet_carries (r : Req) (w : Nat) : s.Carries (s.flagSet r w) := by
  have stale : ∀ c, s.Carries ((s.countS TSK_ERR_STAT_STALE TSK_ERR_STAT_OVF 1).raise 497 c [r.master, w % 65536]) :=
    fun c => (State.Carries.countS s 1 (by decide) (by decide)).trans (.raise _ _ _ _)
  simp only [State.flagSet]
  refine .ite _ (.refl s) ?_
  split
  · exact stale 2
  · have put := fun i t => State.Carries.of_onlyChanges (s.putTask_onlyChanges i t) (by decide)
    have ready := fun (u : State) i => State.Carries.of_onlyChanges (u.readyCheck_onlyChanges i) (by decide)
    exact .ite _ (stale 1) (.ite _ (stale 3) (.ite _ (stale 4) ((put _ _).trans ((ready _ _).trans (State.dispatch_carries _)))))

theorem State.writeEnd_carries (n a status step iter corrected : Nat) : s.Carries (s.writeEnd n a status step iter corrected) :=
  .ite _ (.refl s) ((s.store_carries _ _ _).trans (State.store_carries _ _ _ _))

theorem State.opEnd_carries (i : Nat) (op : FlashOp) (status step iter corrected : Nat) : s.Carries (s.opEnd i op status step iter corrected) := by
  have written := s.writeEnd_carries (i / 64) op.addr status step iter corrected
  exact .ite _ written (written.trans (State.flagSet_carries _ _ _))

theorem State.opRefused_carries (i : Nat) (op : FlashOp) (cause : Nat) : s.Carries (s.opRefused i op cause) :=
  (State.Carries.raise s _ _ _).trans ((State.Carries.raise _ _ _ _).trans (State.opEnd_carries _ _ _ _ _ _ _))

theorem State.putLun_carries (i : Nat) (l : Lun) : s.Carries (s.putLun i l) := .of_onlyChanges (s.putLun_onlyChanges i l) (by decide)

theorem State.modFlash_carries (f : FlashState → FlashState) : s.Carries (s.modFlash f) :=
  ⟨rfl, rfl, rfl, rfl, rfl, fun _ h => h, fun _ _ => rfl⟩

theorem State.trySuspend_carries (i : Nat) : s.Carries (s.trySuspend i) := by
  rw [State.trySuspend]
  split
  · exact .refl s
  split
  · exact .ite _ (s.putLun_carries _ _) (.refl s)
  · exact .refl s

theorem State.waitFrom_carries (i : Nat) (l : Lun) (op : FlashOp) : s.Carries (s.waitFrom i l op) := .ite _ (.refl s) (s.putLun_carries _ _)

theorem State.startOp_carries (i : Nat) (l : Lun) (op : FlashOp) : s.Carries (s.startOp i l op) := by
  have started := fun l => (s.putLun_carries i l).trans (State.modFlash_carries _ (fun f => { f with
    reserve := Tab.upd f.reserve (i / 128) (fun r => r.filter (fun j => j ≠ i)), gateLast := Tab.put f.gateLast (i / 128) i }))
  exact .ite _ ((started _).trans (.of_onlyChanges (State.bgCharge_onlyChanges _ _ _ _) (by decide))) (started _)

theorem State.lunStart_carries (i n : Nat) : s.Carries (s.lunStart i n) := by
  induction n generalizing s with
  | zero => exact .refl s
  | succ n ih =>
    have tried := s.trySuspend_carries i
    rw [State.lunStart]
    dsimp only
    split
    · exact tried
    split
    · exact tried
    split
    · exact tried.trans (State.bgNote_carries _ _ _ _)
    split
    · exact tried.trans (State.bgNote_carries _ _ _ _)
    split
    · exact tried.trans ((State.putLun_carries _ _ _).trans ((State.opRefused_carries _ _ _ _).trans (ih _)))
    split
    · exact tried.trans ((State.putLun_carries _ _ _).trans ((State.Carries.raise _ _ _ _).trans ((State.opEnd_carries _ _ _ _ _ _ _).trans (ih _))))
    split
    · exact tried.trans (State.startOp_carries _ _ _ _)
    · exact tried.trans (State.waitFrom_carries _ _ _ _)

theorem State.enqueue_carries (i : Nat) (op : FlashOp) : s.Carries (s.enqueue i op) := by
  rw [State.enqueue]
  split
  · exact .refl s
  · exact (s.putLun_carries _ _).trans (State.lunStart_carries _ _ _)

theorem State.submitRead_carries (j : Nat) : s.Carries (s.submitRead j) := by
  rw [State.submitRead]
  split
  · exact .refl s
  split
  · exact .refl s
  · exact .ite _ (.refl s) ((State.Carries.modFtl s _ rfl rfl).trans (State.enqueue_carries _ _ _))

theorem State.readPage_carries (k : Nat) : s.Carries (s.readPage k) :=
  .ite _ (.refl s) ((State.Carries.modFtl s _ rfl rfl).trans (State.submitRead_carries _ _))

theorem State.pagesLoad_carries : s.Carries s.pagesLoad := .foldl _ (fun u k => u.readPage_carries k) _ s

/-! ### The layer's own part -/

theorem State.putBlk_carries (i b : Nat) (x : Blk) : s.Carries (s.putBlk i b x) := .modFtl s _ rfl rfl

theorem State.closeFrame_carries : s.Carries s.closeFrame := by
  simp only [State.closeFrame]
  exact .ite _ (.refl s) ((State.Carries.modFtl s _ rfl rfl).trans (.setFld _ _ (by decide)))

theorem State.append_carries (kind l v : Nat) : s.Carries (s.append kind l v) := by
  have noted := State.Carries.modFtl s (fun f => { f with
    delta := f.delta ++ [⟨kind, l, v⟩], deltaAt := some (f.deltaAt.getD s.time), recCount := f.recCount + 1 }) rfl rfl
  exact .ite _ (noted.trans (State.closeFrame_carries _)) noted

theorem State.nativeGroup_carries (i : Nat) : s.Carries (s.nativeGroup i) := by
  obtain same | ⟨b, l, puts⟩ := s.nativeGroup_puts i
  · rw [same]
    exact .refl s
  · rw [puts]
    exact (State.Carries.modFtl s _ rfl rfl).trans (State.putLun_carries _ _ _)

theorem State.makeGroups_carries : s.Carries s.makeGroups := by
  refine .foldl _ (fun u i => ?_) _ s
  dsimp only
  split
  · exact .refl u
  · exact .ite _ (.refl u) (.ite _ (u.putLun_carries _ _) ((u.putLun_carries _ _).trans (State.nativeGroup_carries _ _)))

theorem State.flushSpilled_carries : s.Carries s.flushSpilled := by
  refine .foldl _ (fun u i => ?_) _ s
  dsimp only
  split
  · exact .refl u
  · exact (State.Carries.foldl _ (fun v b => (v.putBlk_carries _ _ _).trans (.modFtl _ _ rfl rfl)) _ u).trans
      (.foldl _ (fun v b => v.putBlk_carries _ _ _) _ _)

theorem State.closeOpen_carries : s.Carries s.closeOpen := by
  refine .foldl _ (fun u kv => ?_) _ s
  exact .ite _ ((State.Carries.modFtl u _ rfl rfl).trans (State.append_carries _ _ _ _)) (.ite _ (.modFtl u _ rfl rfl) (.refl u))

theorem State.resumed_carries : s.Carries s.resumed := by
  have forgot : s.Carries { s with boot := { s.boot with interrupted := s.boot.interrupted.filter (fun c => c ≠ 1 && c ≠ 2) } } :=
    ⟨rfl, rfl, rfl, rfl, rfl, fun _ h => h, fun _ _ => rfl⟩
  exact forgot.trans (.foldl _ (fun u c => .raise u _ _ _) _ _)

theorem State.unwrapCheck_carries (slot : Nat) : s.Carries (s.unwrapCheck slot) := by
  rw [State.unwrapCheck]
  split
  · exact .refl s
  · exact .ite _ (.raise s _ _ _) (.ite _ (.raise s _ _ _) (.refl s))

theorem State.keysReady_carries : s.Carries s.keysReady :=
  (State.Carries.of_onlyChanges (s.modHost_onlyChanges _) (by decide)).trans (.foldl _ (fun u slot => u.unwrapCheck_carries slot) _ _)

theorem State.gcPick_carries (set : Nat) : s.Carries (s.gcPick set) := by
  simp only [State.gcPick]
  generalize (Tab.look s.ftl.victim set).filter _ = now
  split
  · exact .modFtl s _ rfl rfl
  · exact .modFtl s _ rfl rfl

theorem State.gcRun_carries (set f : Nat) : s.Carries (s.gcRun set f) := (State.Carries.modFtl s _ rfl rfl).trans (State.gcPick_carries _ set)

theorem State.urgency_carries (set : Nat) : s.Carries (s.urgency set) := by
  have run := s.gcRun_carries set (s.freePm set)
  simp only [State.urgency]
  generalize s.gcRun set (s.freePm set) = u at run
  refine State.Carries.trans ?_ ((State.Carries.setFld _ _ (by decide)).trans (.setFld _ _ (by decide)))
  exact .ite _ (.ite _ (run.trans ((State.Carries.modFtl u _ rfl rfl).trans (.raise _ _ _ _))) run)
    (.ite _ (run.trans ((State.Carries.modFtl u _ rfl rfl).trans ((State.Carries.countS _ _ (by decide) (by decide)).trans (.raise _ _ _ _)))) run)

theorem State.spareCheck_carries : s.Carries s.spareCheck := by
  have shown : s.Carries ((s.setFld FTL_SPARE_STAT_AVAIL_PCT s.availSpare).setFld FTL_SPARE_STAT_USED_PCT s.percentUsed) :=
    (State.Carries.setFld s _ (by decide)).trans (.setFld _ _ (by decide))
  have warned : ∀ (v : State) (f : FtlState → FtlState) (n c : Nat) (l : List Nat), (f v.ftl).map = v.ftl.map → (f v.ftl).dmap = v.ftl.dmap →
      v.Carries ((v.modFtl f).raise n c l) := fun v f n c l hm hd => (State.Carries.modFtl v f hm hd).trans (.raise _ _ _ _)
  exact .step _ (.step _ (.step _ shown (warned _ _ 360 2 [0] (by rfl) (by rfl))) (warned _ _ 357 2 [s.availSpare] (by rfl) (by rfl)))
    ((State.Carries.modFtl _ _ (by rfl) (by rfl)).trans ((State.Carries.setFld _ _ (by decide)).trans (.raise _ _ _ _)))

end

end Sys2Proof.Machine
end

section
/-!
SUPPORT. The steps of map recovery (R218-R220), and the translation layer's commands together.
-/
namespace Sys2Proof.Machine

/-! ### The steps of a recovery (R218) -/

/-- The map as the recovery found it: from flash, from the durable map and the tail, or as the flush left it. -/
def State.mapFound (s : State) (full : Prop) [Decidable full] (tail : Bool) : State :=
  let m := if full then s.fullMap else if tail then s.tailScan s.ftl.dmap else s.ftl.dmap
  s.modFtl (fun f => { f with
    map := m, dmap := m, ckptRun := if full then some f.jnext else f.ckptRun, groupAt := s.time
    unheld := if full then [] else f.dir.map (fun kv => kv.1), dir := if full then [] else f.dir })

/-- FTL_STAT shows how the map was recovered. -/
def State.recoveryTold (s : State) (full : Prop) [Decidable full] (tail : Bool) : State :=
  let s := s.seqResumed
  let s := (s.setFld FTL_STAT_FULL (b2n full)).setFld FTL_STAT_TAIL (b2n (!full && tail))
  s.setFld FTL_STAT_LEGACY (b2n s.ftl.legacy)

/-- What the reset interrupted goes on, and the recovery is reported. -/
def State.recoveryRaised (s : State) (cause ms : Nat) : State := (s.makeGroups.flushSpilled.closeOpen).resumed.raise 352 cause [ms]

/-- A breach of durability before the reset is reported. -/
def State.breachTold (s : State) : State := if s.nv.breach then (s.setFld FTL_DUR_BREACH 1).raise 353 4 [s.fld FTL_DUR_WT_CAUSE] else s

/-- FTL_STAT shows the layer's state. -/
def State.layerShown (s : State) : State :=
  s.setFld FTL_STAT_STATE (if s.nv.sanitize.phase ≠ 0 then 6 else if s.ftl.readOnly then 5 else 4)

/-- The recovery and a breach are reported, and the layer's state is shown. -/
def State.recoveryReported (s : State) (cause ms : Nat) : State := (s.recoveryRaised cause ms).breachTold.layerShown

/-- The stripe sets' urgency is looked at. -/
def State.urgencies (s : State) : State := s.sets.foldl (fun s t => s.urgency t) s

/-- A sanitize that goes on is reported. -/
def State.sanitizeTold (s : State) : State :=
  if s.nv.sanitize.phase ≠ 0 ∧ s.nv.sanitize.phase ≠ 5 then s.raise 358 2 [s.nv.sanitize.sanact, s.nv.sanitize.phase] else s

/-- What follows once the layer is enabled: keys, urgency, a sanitize that goes on, spares and map pages. -/
def State.layerStarted (s : State) : State := s.keysReady.urgencies.sanitizeTold.spareCheck.pagesLoad

/-- A recovery by the whole medium (R219). -/
abbrev State.recoversFull (s : State) (treeOk : Bool) : Prop := s.nv.mapCkpt % 2 = 0 ∨ (!treeOk) = true

/-- The cause that FTL_RECOVERY gives. -/
def State.recoveryCause (s : State) (treeOk : Bool) : Nat :=
  if s.recoversFull treeOk then (if s.nv.rebuildCkpt ≠ 0 then 4 else 3) else if (!s.ftl.flushComplete) = true then 2 else 1

theorem State.mapRecover_steps (s : State) (ms : Nat) (treeOk : Bool) : s.mapRecover ms treeOk =
    ((((((s.phaseTo 6).firstFormat.mapFound (s.recoversFull treeOk) (!s.ftl.flushComplete)).recoveryTold (s.recoversFull treeOk)
      (!s.ftl.flushComplete)).recoveryReported (s.recoveryCause treeOk) ms).setFld FTL_CTRL_ENABLE 1).layerStarted).bootDone := by
  unfold State.mapRecover
  extract_lets full tail cause s1 m s2 s3 s4 s5 s6 s7 s8 s9 s10 s11 s12
  have start : s1 = (s.phaseTo 6).firstFormat := rfl
  have found : s2 = s1.mapFound full tail := rfl
  have told : s5 = s2.recoveryTold full tail := rfl
  have raised : s6 = s5.recoveryRaised cause ms := rfl
  have breach : s7 = s6.breachTold := rfl
  have shown : s8 = s7.layerShown := rfl
  have enabled : s9 = s8.setFld FTL_CTRL_ENABLE 1 := rfl
  have keys : s10 = s9.keysReady := rfl
  have urgent : s11 = s10.urgencies := rfl
  have sanitize : s12 = s11.sanitizeTold := rfl
  rw [State.layerStarted, State.recoveryReported, sanitize, urgent, keys, enabled, shown, breach, raised, told, found, start]
  rfl

section
variable (s : State)

theorem State.newKey_onlyChanges (slot : Nat) : s.onlyChanges (s.newKey slot) [.freeCtr, .key, .nv] := by
  by_cases spent : 2 ^ 20 ≤ s.key.keyGen.reqs
  · simp only [State.newKey, State.generate, if_true, if_pos spent]
    intro p hp
    cases p
    case freeCtr => exact absurd (by decide) hp
    case key => exact absurd (by decide) hp
    case nv => exact absurd (by decide) hp
    all_goals rfl
  · simp only [State.newKey, State.generate, if_true, if_neg spent]
    intro p hp
    cases p
    case key => exact absurd (by decide) hp
    case nv => exact absurd (by decide) hp
    all_goals rfl

theorem State.firstFormat_onlyChanges : s.onlyChanges s.firstFormat [.freeCtr, .key, .nv, .ftl] := by
  have drawn : s.onlyChanges (s.draw (2 ^ 48)).2 [.freeCtr, .key, .nv] := State.onlyChanges_mono (s.draw_onlyChanges _) (by decide)
  have twice := State.onlyChanges_then drawn (State.draw_onlyChanges _ (2 ^ 20)) (by decide)
  have keyed := State.onlyChanges_trans twice (State.newKey_onlyChanges _ 8192)
  simp only [State.firstFormat]
  exact State.onlyChanges_ite _ (s.onlyChanges_refl _) (State.onlyChanges_append (l := [.freeCtr, .key, .nv]) (k := [.ftl])
    (State.onlyChanges_ite _ keyed twice) (State.modFtl_onlyChanges _ _))

theorem State.firstFormat_dmap : s.firstFormat.ftl.dmap = s.ftl.dmap := by
  have keyed : ∀ u : State, u.ftl = s.ftl → (if (!Tab.has u.nv.keys 8192) = true ∧ u.canMakeKeys = true then u.newKey 8192 else u).ftl.dmap = s.ftl.dmap := by
    intro u hu
    split
    · rw [u.newKey_onlyChanges 8192 .ftl (by decide), hu]
    · rw [hu]
  simp only [State.firstFormat]
  split
  · rfl
  · exact keyed _ rfl

theorem State.phaseTo_carries (n : Nat) : s.Carries (s.phaseTo n) := .ite _ (.setFld s _ (by decide)) (.refl s)

theorem State.recoveryTold_full (full : Prop) [Decidable full] (tail : Bool) :
    (s.recoveryTold full tail).fld FTL_STAT_FULL = b2n full ∧ (s.recoveryTold full tail).fld FTL_STAT_TAIL = b2n (!full && tail) := by
  have flag : ∀ b : Bool, b2n b % 2 ^ 1 = b2n b := by decide
  rw [State.recoveryTold, State.fld_setFld_beside _ FTL_STAT_LEGACY FTL_STAT_FULL _ 0 0 rfl (by decide) (by decide),
    State.fld_setFld_beside _ FTL_STAT_LEGACY FTL_STAT_TAIL _ 0 0 rfl (by decide) (by decide),
    State.fld_setFld_beside _ FTL_STAT_TAIL FTL_STAT_FULL _ 0 0 rfl (by decide) (by decide),
    State.fld_setFld_same _ FTL_STAT_FULL _ _ _ (by decide), State.fld_setFld_same _ FTL_STAT_TAIL _ _ _ (by decide)]
  exact ⟨flag _, flag _⟩

theorem State.recoveryTold_onlyChanges (full : Prop) [Decidable full] (tail : Bool) : s.onlyChanges (s.recoveryTold full tail) [.regs] := by
  have seq : s.onlyChanges s.seqResumed [.regs] := by
    simp only [State.seqResumed]
    exact State.onlyChanges_ite _ (s.onlyChanges_refl _) (s.putPair_onlyChanges _ _ _ _ _)
  exact State.onlyChanges_trans (State.onlyChanges_trans (State.onlyChanges_trans seq (State.setFld_onlyChanges _ _ _ _ _))
    (State.setFld_onlyChanges _ _ _ _ _)) (State.setFld_onlyChanges _ _ _ _ _)

/-- The report is raised before the rest of the start. -/
theorem State.recoveryRaised_carries (cause ms : Nat) : s.Carries (s.recoveryRaised cause ms)
    ∧ ⟨352, cause, [ms], none, 0, s.time⟩ ∈ (s.recoveryRaised cause ms).evt.inbox := by
  have before : s.Carries (s.makeGroups.flushSpilled.closeOpen).resumed := s.makeGroups_carries.trans ((State.flushSpilled_carries _).trans
    ((State.closeOpen_carries _).trans (State.resumed_carries _)))
  refine ⟨before.trans (.raise _ _ _ _), ?_⟩
  rw [State.recoveryRaised, State.raise_inbox, before.time]
  exact List.mem_append_right _ (List.mem_singleton_self _)

theorem State.breachTold_carries : s.Carries s.breachTold := .ite _ ((State.Carries.setFld s _ (by decide)).trans (.raise _ _ _ _)) (.refl s)

theorem State.layerShown_carries : s.Carries s.layerShown := .setFld s _ (by decide)

theorem State.recoveryReported_carries (cause ms : Nat) : s.Carries (s.recoveryReported cause ms)
    ∧ ⟨352, cause, [ms], none, 0, s.time⟩ ∈ (s.recoveryReported cause ms).evt.inbox := by
  obtain ⟨raised, report⟩ := s.recoveryRaised_carries cause ms
  have after := (State.breachTold_carries (s.recoveryRaised cause ms)).trans (State.layerShown_carries _)
  exact ⟨raised.trans after, after.inbox _ report⟩

theorem State.urgencies_carries : s.Carries s.urgencies := .foldl _ (fun u t => u.urgency_carries t) _ s

theorem State.sanitizeTold_carries : s.Carries s.sanitizeTold := .ite _ (.raise s _ _ _) (.refl s)

theorem State.layerStarted_carries : s.Carries s.layerStarted :=
  s.keysReady_carries.trans ((State.urgencies_carries _).trans ((State.sanitizeTold_carries _).trans
    ((State.spareCheck_carries _).trans (State.pagesLoad_carries _))))

/-- Step 14 (R94): what was raised and shown stays, and the end of the start is reported. -/
theorem State.bootDone_ends {s : State} (open_ : s.boot.bootDone = false) : s.bootDone.boot.bootDone = true
    ∧ ⟨9, 1, [(s.time - s.boot.startAt) / 1000000], none, 0, s.time⟩ ∈ s.bootDone.evt.inbox
    ∧ (∀ e ∈ s.evt.inbox, e ∈ s.bootDone.evt.inbox) ∧ (∀ g ∈ recoveryShown, s.bootDone.fld g = s.fld g)
    ∧ s.bootDone.ftl.map = s.ftl.map ∧ s.bootDone.ftl.dmap = s.ftl.dmap := by
  let w : State := s.modBoot (fun b => { b with bootDone := true })
  let v := ((w.phaseTo 7).host.ctrls.map (fun kv => kv.1)).foldl (fun s p => s.ctrlReady p) (w.phaseTo 7)
  have ready : w.Carries v := (w.phaseTo_carries 7).trans
    (.foldl _ (fun u p => .of_onlyChanges (u.ctrlReady_onlyChanges p) (by decide)) _ _)
  have ends : s.bootDone = v.raise 9 1 [(v.time - v.boot.startAt) / 1000000] := by
    rw [State.bootDone]
    exact if_neg (by rw [open_]; decide)
  have all := ready.trans (.raise v 9 1 [(v.time - v.boot.startAt) / 1000000])
  rw [← ends] at all
  refine ⟨all.bootDone, ?_, all.inbox, all.shown, all.map, all.dmap⟩
  rw [ends, State.raise_inbox, ready.time, ready.startAt]
  exact List.mem_append_right _ (List.mem_singleton_self _)

end

/-- The start up to the report: time and start stay, FTL_STAT tells how the map was recovered, and a flushed map is the durable one. -/
theorem State.recoveryTold_facts {s v : State} {full : Prop} [Decidable full] {tail : Bool}
    (hv : v = ((s.phaseTo 6).firstFormat.mapFound full tail).recoveryTold full tail) :
    v.time = s.time ∧ v.boot = s.boot ∧ v.fld FTL_STAT_FULL = b2n full ∧ v.fld FTL_STAT_TAIL = b2n (!full && tail)
      ∧ (¬ full → tail = false → v.ftl.map = s.ftl.dmap ∧ v.ftl.dmap = s.ftl.dmap) := by
  have phase : s.onlyChanges (s.phaseTo 6) [.regs] := State.phaseTo_onlyChanges s 6
  have formatted := (s.phaseTo 6).firstFormat_onlyChanges
  have dmap : (s.phaseTo 6).firstFormat.ftl.dmap = s.ftl.dmap := (State.firstFormat_dmap _).trans (s.phaseTo_carries 6).dmap
  have told := ((s.phaseTo 6).firstFormat.mapFound full tail).recoveryTold_onlyChanges full tail
  obtain ⟨shownFull, shownTail⟩ := ((s.phaseTo 6).firstFormat.mapFound full tail).recoveryTold_full full tail
  rw [← hv] at told shownFull shownTail
  refine ⟨(told .time (by decide)).trans ((formatted .time (by decide)).trans (phase .time (by decide))),
    (told .boot (by decide)).trans ((formatted .boot (by decide)).trans (phase .boot (by decide))), shownFull, shownTail, fun part whole => ?_⟩
  rw [told .ftl (by decide), ← dmap]
  generalize (s.phaseTo 6).firstFormat = u
  have taken : (if full then u.fullMap else if tail = true then u.tailScan u.ftl.dmap else u.ftl.dmap) = u.ftl.dmap := by
    rw [if_neg part, whole]
    rfl
  exact ⟨taken, taken⟩

/-- The start from the report on: the events are there, FTL_STAT and the map stay, and the layer is enabled. -/
theorem State.recovery_ends {v t : State} {cause ms : Nat} (open_ : v.boot.bootDone = false)
    (ht : t = ((v.recoveryReported cause ms).setFld FTL_CTRL_ENABLE 1).layerStarted.bootDone) :
    t.boot.bootDone = true ∧ ⟨352, cause, [ms], none, 0, v.time⟩ ∈ t.evt.inbox
      ∧ ⟨9, 1, [(v.time - v.boot.startAt) / 1000000], none, 0, v.time⟩ ∈ t.evt.inbox
      ∧ t.fld FTL_STAT_FULL = v.fld FTL_STAT_FULL ∧ t.fld FTL_STAT_TAIL = v.fld FTL_STAT_TAIL ∧ t.fld FTL_CTRL_ENABLE = 1
      ∧ t.ftl.map = v.ftl.map ∧ t.ftl.dmap = v.ftl.dmap := by
  obtain ⟨reported, report⟩ := v.recoveryReported_carries cause ms
  generalize v.recoveryReported cause ms = w at reported report ht
  have apart : ∀ g ∈ [FTL_STAT_FULL, FTL_STAT_TAIL], (w.setFld FTL_CTRL_ENABLE 1).fld g = w.fld g := fun g hg =>
    State.fld_setFld_other w FTL_CTRL_ENABLE g 1 0 0 0 0 (by fin_cases hg <;> decide)
  have on : (w.setFld FTL_CTRL_ENABLE 1).fld FTL_CTRL_ENABLE = 1 := by
    rw [State.fld_setFld_same w FTL_CTRL_ENABLE 1 0 0 (by decide)]
    simp [FTL_CTRL_ENABLE]
  have regs := w.setFld_onlyChanges FTL_CTRL_ENABLE 1 0 0
  generalize w.setFld FTL_CTRL_ENABLE 1 = y at apart on regs ht
  have started := y.layerStarted_carries
  have inbox := started.inbox _ (by rw [regs .evt (by decide)]; exact report)
  have time : y.layerStarted.time = v.time := (started.time.trans (regs .time (by decide))).trans reported.time
  have boot : y.boot = w.boot := regs .boot (by decide)
  have ftl : y.ftl = w.ftl := regs .ftl (by decide)
  have startAt : y.layerStarted.boot.startAt = v.boot.startAt := (started.startAt.trans (congrArg BootState.startAt boot)).trans reported.startAt
  have opened : y.layerStarted.boot.bootDone = false :=
    (started.bootDone.trans (congrArg BootState.bootDone boot)).trans (reported.bootDone.trans open_)
  have shown := started.shown
  have map : y.layerStarted.ftl.map = v.ftl.map := (started.map.trans (congrArg FtlState.map ftl)).trans reported.map
  have dmap : y.layerStarted.ftl.dmap = v.ftl.dmap := (started.dmap.trans (congrArg FtlState.dmap ftl)).trans reported.dmap
  generalize y.layerStarted = x at ht inbox time startAt opened shown map dmap
  obtain ⟨done, ended, kept, shownEnd, mapEnd, dmapEnd⟩ := State.bootDone_ends opened
  rw [← ht] at done ended kept shownEnd mapEnd dmapEnd
  rw [time, startAt] at ended
  have stat : ∀ g ∈ [FTL_STAT_FULL, FTL_STAT_TAIL], t.fld g = v.fld g := fun g hg =>
    have all : g ∈ recoveryShown := List.mem_append_left [FTL_CTRL_ENABLE] hg
    (shownEnd g all).trans ((shown g all).trans ((apart g hg).trans (reported.shown g all)))
  exact ⟨done, kept _ inbox, ended, stat _ (by simp), stat _ (by simp), (shownEnd _ (by simp)).trans ((shown _ (by simp)).trans on),
    mapEnd.trans map, dmapEnd.trans dmap⟩

/-- MAP_RECOVERY_COMPLETE (R218-R220). -/
theorem mapRecoveryComplete_completes {s : State} (ms : Nat) (treeOk : Bool) (open_ : s.boot.bootDone = false) :
    Completes (.mapRecoveryComplete ms treeOk) s (fun t =>
      t.boot.bootDone = true ∧ ⟨352, s.recoveryCause treeOk, [ms], none, 0, s.time⟩ ∈ t.evt.inbox
      ∧ ⟨9, 1, [(s.time - s.boot.startAt) / 1000000], none, 0, s.time⟩ ∈ t.evt.inbox
      ∧ t.fld FTL_STAT_FULL = b2n (s.recoversFull treeOk) ∧ t.fld FTL_STAT_TAIL = b2n (!decide (s.recoversFull treeOk) && !s.ftl.flushComplete)
      ∧ t.fld FTL_CTRL_ENABLE = 1
      ∧ (¬ s.recoversFull treeOk → s.ftl.flushComplete = true → t.ftl.map = s.ftl.dmap ∧ t.ftl.dmap = s.ftl.dmap)) := by
  have steps := s.fresh.mapRecover_steps ms treeOk
  generalize hv : State.recoveryTold (State.mapFound _ (s.fresh.recoversFull treeOk) (!s.fresh.ftl.flushComplete))
    (s.fresh.recoversFull treeOk) (!s.fresh.ftl.flushComplete) = v at steps
  obtain ⟨time, boot, full, tail, flushed⟩ := State.recoveryTold_facts (full := s.fresh.recoversFull treeOk) hv.symm
  obtain ⟨done, report, ended, full', tail', enabled, map, dmap⟩ :=
    State.recovery_ends ((congrArg BootState.bootDone boot).trans open_) steps
  rw [time] at report ended
  rw [boot] at ended
  refine ⟨_, rfl, done, report, ended, full'.trans full, tail'.trans tail, enabled, fun part whole => ?_⟩
  obtain ⟨mapD, dmapD⟩ := flushed part (congrArg (fun b => !b) whole)
  exact ⟨map.trans mapD, dmap.trans dmapD⟩

/-- The full recovery's flag and the cause, in the words of O20. -/
theorem State.recoversFull_eq (s : State) (treeOk : Bool) : decide (s.recoversFull treeOk) = (decide (s.nv.mapCkpt % 2 = 0) || !treeOk) := by
  simp [State.recoversFull]

theorem State.recoveryCause_eq (s : State) (treeOk : Bool) : s.recoveryCause treeOk =
    if (decide (s.nv.mapCkpt % 2 = 0) || !treeOk) = true then (if s.nv.rebuildCkpt ≠ 0 then 4 else 3)
      else if s.ftl.flushComplete = true then 1 else 2 := by
  rw [← s.recoversFull_eq, State.recoveryCause]
  by_cases whole : s.recoversFull treeOk
  · rw [if_pos whole, if_pos (decide_eq_true whole)]
  · rw [if_neg whole, decide_eq_false whole]
    cases s.ftl.flushComplete <;> rfl

/-- Settles O20: a lemma for each command; recovery's later steps keep what the earlier ones showed. -/
theorem translationCommandsComplete : Obligations.TranslationCommandsComplete := by
  unfold Obligations.TranslationCommandsComplete
  refine ⟨fun s i l lane due => frameSealTimeout_seals lane due, fun s held => journalFlushTimeout_forms held,
    fun s pfa j rest oldest => journalFrameDurable_completes pfa oldest, fun s root j pages run => checkpointCommit_completes root pages run,
    fun s laddr old new e => ?_, fun s r w b grants reason => ?_, fun s nodup => nativeGroupCreate_completes nodup,
    fun s ms treeOk open_ => ?_⟩
  · exact ⟨fun may here named own _ => gcExtentMove_moves may here named own, gcExtentMove_refused, gcExtentMove_stale, gcExtentMove_lost⟩
  · exact fun known closed first => ftlGcVictim_adds grants reason known closed first
  · obtain ⟨t, runs, done, report, ended, full, tail, enabled, flushed⟩ := mapRecoveryComplete_completes ms treeOk open_
    refine ⟨t, runs, done, ?_, ended, ?_, ?_, enabled, ?_⟩
    · rwa [State.recoveryCause_eq] at report
    · rwa [State.recoversFull_eq] at full
    · rwa [State.recoversFull_eq] at tail
    · exact fun part => flushed (of_decide_eq_false ((s.recoversFull_eq treeOk).trans part))

end Sys2Proof.Machine
end

section
/-!
SUPPORT. What a read of memory by a unit of the part leaves (R391-R397): the handling of errors and the checks of the fabric stay within a few fields.
-/
namespace Sys2Proof.Machine

section
variable (s : State)

/-- The fields that reading memory with its error handling can change. -/
abbrev loadFields : List StateField := [.regs, .evt, .dram, .freeCtr, .ftl, .nv, .timers, .hsf]

theorem State.healthTo_onlyChanges (b h : Nat) : s.onlyChanges (s.healthTo b h) [.regs] :=
  State.onlyChanges_ite _ (s.setFld_onlyChanges _ _ _ _) (s.onlyChanges_refl _)

theorem State.bucketUp_onlyChanges (b : Nat) : s.onlyChanges (s.bucketUp b) [.regs, .dram, .evt] := by
  have counted := State.onlyChanges_mono (k := [.regs, .dram, .evt])
    (s.setFld_onlyChanges MPR_BKT_STAT_BUCKET (min 65535 (s.fld MPR_BKT_STAT_BUCKET b + 1)) b 0) (by decide)
  exact State.onlyChanges_ite _ (State.onlyChanges_then (State.onlyChanges_then (State.onlyChanges_then counted
    (State.dram_onlyChanges _ _) (by decide)) (State.healthTo_onlyChanges _ _ _) (by decide)) (State.raise_onlyChanges _ _ _ _) (by decide)) counted

theorem State.regionFailed_onlyChanges (b : Nat) : s.onlyChanges (s.regionFailed b) [.regs] :=
  State.onlyChanges_trans (s.healthTo_onlyChanges b 0) (State.setFld_onlyChanges _ _ _ _ _)

theorem State.hardFault_onlyChanges (m b u a : Nat) : s.onlyChanges (s.hardFault m b u a) [.nv, .dram, .regs, .evt] :=
  State.onlyChanges_ite _
    (State.onlyChanges_mono (State.onlyChanges_append (s.nv_onlyChanges _) (State.raise_onlyChanges _ _ _ _)) (by decide))
    (State.onlyChanges_mono (State.onlyChanges_append (State.onlyChanges_append (s.dram_onlyChanges _) (State.healthTo_onlyChanges _ _ _))
      (State.raise_onlyChanges _ _ _ _)) (by decide))

theorem State.watched_onlyChanges (m b u a : Nat) : s.onlyChanges (s.watched m b u a) [.nv, .dram, .regs, .evt] := by
  have noted : ∀ x, s.onlyChanges { s with dram := x } [.nv, .dram, .regs, .evt] := fun x =>
    State.onlyChanges_mono (s.dram_onlyChanges x) (by decide)
  simp only [State.watched]
  refine State.onlyChanges_ite _ (s.onlyChanges_refl _) ?_
  split
  · exact State.onlyChanges_ite _ (State.onlyChanges_then (s.hardFault_onlyChanges m b u a) (State.dram_onlyChanges _ _) (by decide)) (noted _)
  · exact noted _

theorem State.dramCorrected_onlyChanges (c a : Nat) : s.onlyChanges (s.dramCorrected c a) loadFields := by
  let u := s.countS DRC_CH_ERR_CE DRC_CH_ERR_OVF 1 c
  let v := u.bucketUp (u.dramBucket a)
  have seen : s.onlyChanges (v.watched c (v.dramBucket a) (v.localLine a) (a / 64 * 64)) loadFields :=
    State.onlyChanges_then (State.onlyChanges_then (State.onlyChanges_mono (s.countS_onlyChanges _ _ _ _ _) (by decide))
      (u.bucketUp_onlyChanges _) (by decide)) (v.watched_onlyChanges _ _ _ _) (by decide)
  have full := fun x : Nat => State.onlyChanges_then seen (State.setFld_onlyChanges _ DRC_CH_FBKT_FBKT x c 0) (by decide)
  exact State.onlyChanges_ite _ (State.onlyChanges_ite _ (State.onlyChanges_then (full _) (State.fenceChan_onlyChanges _ _ _) (by decide)) (full _)) seen

theorem State.dramUncorrectable_onlyChanges (c a : Nat) : s.onlyChanges (s.dramUncorrectable c a) loadFields := by
  let u := s.countS DRC_CH_ERR_UE DRC_CH_ERR_OVF 1 c
  have failed : s.onlyChanges (u.regionFailed (u.dramBucket a)) loadFields :=
    State.onlyChanges_then (State.onlyChanges_mono (s.countS_onlyChanges _ _ _ _ _) (by decide)) (u.regionFailed_onlyChanges _) (by decide)
  have noted := fun x => State.onlyChanges_then failed (State.dram_onlyChanges _ x) (by decide)
  exact State.onlyChanges_ite _ (State.onlyChanges_then (noted _) (State.fenceChan_onlyChanges _ _ _) (by decide)) (noted _)

theorem State.setBad_onlyChanges (l : Nat) (b : LineBad) : s.onlyChanges (s.setBad l b) [.dram] := s.dram_onlyChanges _

theorem State.memUe_onlyChanges (c t a m : Nat) (i : Bool) : s.onlyChanges (s.memUe c t a m i) [.evt] := s.raiseWith_onlyChanges _ _ _ _ _

theorem State.copyLost_onlyChanges (c a k : Nat) : s.onlyChanges (s.copyLost c a k) loadFields :=
  State.onlyChanges_ite _ (s.onlyChanges_refl _) (s.dramUncorrectable_onlyChanges c a)

theorem State.fromCopy_onlyChanges (o m a pk ck : Nat) (b : LineBad) : s.onlyChanges (s.fromCopy o m a pk ck b).2 loadFields := by
  have read : s.onlyChanges (if ck = 1 then s.dramCorrected o a else s) loadFields :=
    State.onlyChanges_ite _ (s.dramCorrected_onlyChanges o a) (s.onlyChanges_refl _)
  simp only [State.fromCopy]
  split
  · exact State.onlyChanges_ite _ (State.onlyChanges_then read (State.setBad_onlyChanges _ _ _) (by decide)) read
  · exact State.onlyChanges_then (State.onlyChanges_then read (State.setBad_onlyChanges _ _ _) (by decide)) (State.memUe_onlyChanges _ _ _ _ _ _) (by decide)

theorem State.bothLost_onlyChanges (m a pk ck : Nat) (u : Bool) (b : LineBad) : s.onlyChanges (s.bothLost m a pk ck u b).2 [.dram, .evt] :=
  State.onlyChanges_append (s.setBad_onlyChanges _ _) (State.memUe_onlyChanges _ _ _ _ _ _)

theorem State.dramLine_onlyChanges (m a : Nat) (p c : CellErr) (b : Bool) : s.onlyChanges (s.dramLine m a p c b).2 loadFields := by
  have awake := State.onlyChanges_mono (k := loadFields) (s.wakeChan_onlyChanges (s.chanOf a)) (by decide)
  simp only [State.dramLine]
  split
  · exact awake
  split
  · exact awake
  generalize (if State.chanFenced _ (s.chanOf a) = true then 5 else _ : Nat) = pk
  generalize (if (!s.mirrored a) = true ∨ State.chanFenced _ (s.copyChan a) = true then 5 else _ : Nat) = ck
  repeat' split
  · exact awake
  · exact State.onlyChanges_then (State.onlyChanges_trans awake (State.dramCorrected_onlyChanges _ _ _)) (State.setBad_onlyChanges _ _ _) (by decide)
  · exact State.onlyChanges_trans (State.onlyChanges_trans awake (State.copyLost_onlyChanges _ _ _ _)) (State.fromCopy_onlyChanges _ _ _ _ _ _ _)
  · exact awake
  all_goals exact State.onlyChanges_then (State.onlyChanges_trans (State.onlyChanges_trans awake (State.copyLost_onlyChanges _ _ _ _))
    (State.copyLost_onlyChanges _ _ _ _)) (State.bothLost_onlyChanges _ _ _ _ _ _ _) (by decide)

theorem State.sramLine_onlyChanges (m a : Nat) (p : CellErr) (b : Bool) : s.onlyChanges (s.sramLine m a p b).2 loadFields := by
  have counted : ∀ f g : Field, s.onlyChanges (s.countS f g 1) loadFields := fun f g =>
    State.onlyChanges_mono (s.countS_onlyChanges f g 1 0 0) (by decide)
  simp only [State.sramLine]
  split
  · exact s.onlyChanges_refl _
  split
  · exact s.onlyChanges_refl _
  generalize readKind 0 false _ p = q
  split
  · exact s.onlyChanges_refl _
  · exact State.onlyChanges_then (State.onlyChanges_then (State.onlyChanges_then (counted _ _) (State.bucketUp_onlyChanges _ _) (by decide))
      (State.watched_onlyChanges _ _ _ _ _) (by decide)) (State.setBad_onlyChanges _ _ _) (by decide)
  · exact State.onlyChanges_then (State.onlyChanges_then (State.onlyChanges_then (counted _ _) (State.regionFailed_onlyChanges _ _) (by decide))
      (State.setBad_onlyChanges _ _ _) (by decide)) (State.memUe_onlyChanges _ _ _ _ _ _) (by decide)

theorem State.keyHit_onlyChanges (a : Nat) : s.onlyChanges (s.keyHit a) [.nv] := State.onlyChanges_ite _ (s.onlyChanges_refl _) (s.nv_onlyChanges _)

theorem State.ledgerLine_onlyChanges (m a : Nat) (p : CellErr) (b : Bool) : s.onlyChanges (s.ledgerLine m a p b).2 loadFields := by
  have counted : ∀ f g : Field, s.onlyChanges (s.countS f g 1) loadFields := fun f g =>
    State.onlyChanges_mono (s.countS_onlyChanges f g 1 0 0) (by decide)
  simp only [State.ledgerLine]
  generalize a - 0xE800000000 = o
  generalize readKind _ false 0 p = q
  split
  · exact s.onlyChanges_refl _
  · exact State.onlyChanges_then (State.onlyChanges_then (counted _ _) (State.bucketUp_onlyChanges _ _) (by decide))
      (State.watched_onlyChanges _ _ _ _ _) (by decide)
  · exact State.onlyChanges_then (State.onlyChanges_then (State.onlyChanges_then (counted _ _) (State.regionFailed_onlyChanges _ _) (by decide))
      (State.keyHit_onlyChanges _ _) (by decide)) (State.memUe_onlyChanges _ _ _ _ _ _) (by decide)

theorem State.lineRead_onlyChanges (m t a : Nat) (p c : CellErr) (b : Bool) : s.onlyChanges (s.lineRead m t a p c b).2 loadFields := by
  simp only [State.lineRead]
  repeat' split
  · exact s.dramLine_onlyChanges m a p c b
  · exact s.sramLine_onlyChanges m a p b
  · exact s.ledgerLine_onlyChanges m a p b
  · exact s.onlyChanges_refl _

theorem State.linesRead_onlyChanges (m t a n : Nat) : s.onlyChanges (s.linesRead m t a n).2 loadFields := by
  induction n generalizing s a with
  | zero => exact s.onlyChanges_refl _
  | succ n ih =>
    have line := s.lineRead_onlyChanges m t a .none .none false
    simp only [State.linesRead]
    split
    · next u hu =>
      rw [hu] at line
      exact State.onlyChanges_trans line (ih u _)
    · exact line

theorem State.stalled_onlyChanges (m t k : Nat) : s.onlyChanges (s.stalled m t k) loadFields := by
  have counted : s.onlyChanges ((((s.countS HSF_WDOG_STAT_STALLS HSF_WDOG_STAT_OVF 1).setFld HSF_WDOG_STAT_LAST_MASTER m).setFld
      HSF_WDOG_STAT_LAST_TARGET t).raise 40 k [m, t]) loadFields :=
    State.onlyChanges_mono (State.onlyChanges_append (State.onlyChanges_trans (State.onlyChanges_trans (s.countS_onlyChanges _ _ _ _ _)
      (State.setFld_onlyChanges _ _ _ _ _)) (State.setFld_onlyChanges _ _ _ _ _)) (State.raise_onlyChanges _ _ _ _)) (by decide)
  have noted := fun x => State.onlyChanges_then counted (State.hsf_onlyChanges _ x) (by decide)
  exact State.onlyChanges_ite _ (State.onlyChanges_ite _ (State.onlyChanges_then (State.onlyChanges_then (noted _) (State.hsf_onlyChanges _ _) (by decide))
    (State.raise_onlyChanges _ _ _ _) (by decide)) (noted _)) counted

theorem State.slotPass_onlyChanges (m t n : Nat) : s.onlyChanges (s.slotPass m t n).2 loadFields := by
  induction n generalizing s with
  | zero => exact s.onlyChanges_refl _
  | succ n ih =>
    have hold : ∀ (u : State) (k : Nat), u.onlyChanges (u.slotHold k m t).2 loadFields := fun u k =>
      State.onlyChanges_mono (u.slotHold_onlyChanges k m t) (by decide)
    have held := State.onlyChanges_trans (State.onlyChanges_trans (State.onlyChanges_trans (hold s 0) (hold _ 1)) (hold _ 2)) (hold _ 3)
    simp only [State.slotPass]
    split
    · exact s.onlyChanges_refl _
    split
    · exact State.onlyChanges_trans held (State.stalled_onlyChanges _ m t 1)
    · exact State.onlyChanges_trans held (ih _)

/-- A unit's read of memory stays within the fields of error handling and of the fabric. -/
theorem State.load_onlyChanges (r : Req) (a n : Nat) : s.onlyChanges (s.load r a n).2.2 loadFields := by
  simp only [State.load]
  split
  · split
    · exact s.onlyChanges_refl _
    have passed := s.slotPass_onlyChanges r.master (((regionOf a).map (fun x => x.1)).getD 0) (lineCount a n)
    split
    · next u hu =>
      rw [hu] at passed
      have lines := u.linesRead_onlyChanges r.master (((regionOf a).map (fun x => x.1)).getD 0) a (lineCount a n)
      split
      · exact passed
      split
      · next v hv =>
        rw [hv] at lines
        exact State.onlyChanges_trans passed lines
      · next e v hv =>
        rw [hv] at lines
        exact State.onlyChanges_trans passed lines
    · next e u hu =>
      rw [hu] at passed
      exact passed
  · exact State.onlyChanges_mono (s.denied_onlyChanges _ _ _ _) (by decide)
  · exact s.onlyChanges_refl _
  · exact s.stalled_onlyChanges _ _ _
  · exact s.onlyChanges_refl _

end

end Sys2Proof.Machine
end

section
/-!
SUPPORT. Flash descriptors (R149, R150): a descriptor in form enters its LUN's queue, or ends REFUSED when the husk's check fails (R204, R440).
-/
namespace Sys2Proof.Machine

/-- The commands that submit a descriptor, each with the operation it asks for. -/
def flashSubmissions (r : Req) (n addr : Nat) : List (Instr × Nat) :=
  [(.fchRead r n addr, 1), (.fchProgram r n addr, 2), (.fchErase r n addr, 3), (.fchSweep r n addr, 4), (.fchGetFeature r n addr, 5),
    (.fchSetFeature r n addr, 6)]

theorem exec_flashSubmission {i : Instr} {op n addr : Nat} {r : Req} (h : (i, op) ∈ flashSubmissions r n addr) (s : State) :
    exec i s = (s.fresh.submitOp r n addr).done s := by
  simp only [flashSubmissions, List.mem_cons, Prod.mk.injEq, List.not_mem_nil, or_false] at h
  rcases h with ⟨rfl, _⟩ | ⟨rfl, _⟩ | ⟨rfl, _⟩ | ⟨rfl, _⟩ | ⟨rfl, _⟩ | ⟨rfl, _⟩ <;> rfl

theorem fchCount_le (p : Part) : Config.fchCount p ≤ 32 := by cases p <;> decide

/-- On a channel of the part, the register write submits its descriptor. -/
theorem State.submitOp_present {s : State} {n : Nat} (present : n < Config.fchCount s.part) (r : Req) (addr : Nat) :
    s.submitOp r n addr = s.atRegW r ((FCH_SUBMIT_HI.chan n).key 0 0) (fun s => s.submitFlash r n addr) := by
  rw [State.submitOp, if_neg (fun h => Nat.not_le.mpr present h.1), if_pos (Nat.lt_of_lt_of_le present (fchCount_le _))]

theorem chanKey_window (n : Nat) : (FCH_SUBMIT_HI.chan n).key 0 0 / 0x100000 = (FCH_SUBMIT_HI.chan n).win := by
  simp only [RegId.key, RegId.chan, FCH_SUBMIT_HI]
  omega

/-- The LUN that a descriptor's TARGET names on a channel (Table 5.7, R140). -/
abbrev descLun (n : Nat) (d : List Byte) : Nat := 64 * n + 8 * (leAt d 2 1 % 8) + leAt d 2 1 / 8 % 8

theorem descLun_chan (n : Nat) (d : List Byte) : descLun n d / 64 = n := by
  simp only [descLun]
  omega

/-- The operation of a descriptor, with its cost. -/
abbrev State.opAsked (u : State) (r : Req) (addr : Nat) (d : List Byte) : FlashOp :=
  { opOfBytes r addr u.time d with cost := u.opCost (leAt d 0 1) (opOfBytes r addr u.time d).planeCount }

/-- The husk's check of an operation before it is queued. -/
def State.huskBars (u : State) (o : FlashOp) (k : Nat) : Option Nat :=
  if o.op = 2 then u.programBad o k (u.wpAfter k o.block) else if o.op = 3 then u.eraseBad k o.block else none

section
variable {u : State} {o : FlashOp} {k : Nat}

theorem State.huskBars_program (program : o.op = 2) : u.huskBars o k = u.programBad o k (u.wpAfter k o.block) := if_pos program

theorem State.huskBars_erase (erase : o.op = 3) : u.huskBars o k = u.eraseBad k o.block :=
  (if_neg (by rw [erase]; decide)).trans (if_pos erase)

theorem State.huskBars_none (program : o.op = 2 → u.programBad o k (u.wpAfter k o.block) = none) (erase : o.op = 3 → u.eraseBad k o.block = none) :
    u.huskBars o k = none := by
  by_cases op : o.op = 2
  · exact (State.huskBars_program op).trans (program op)
  by_cases op' : o.op = 3
  · exact (State.huskBars_erase op').trans (erase op')
  · exact (if_neg op).trans (if_neg op')

end

/-- A descriptor that is readable and in form, for a LUN in use with room in its queue; u is the state once it has been read. -/
structure State.DescFits (s u : State) (r : Req) (n addr : Nat) (d : List Byte) (l : Lun) : Prop where
  present : n < Config.fchCount s.part
  read : s.load ⟨0x70 + n, 0⟩ addr 64 = (.ok, d, u)
  form : descMalformed d = false
  serves : u.lunServes (descLun n d) = true
  lun : u.lun (descLun n d) = some l
  inside : opOutside l (u.opAsked r addr d) = false
  room : l.queue.length < 32

/-- What becomes of a descriptor that fits. -/
theorem State.submitFlash_fits {s u : State} {r : Req} {n addr : Nat} {d : List Byte} {l : Lun} (h : s.DescFits u r n addr d l) :
    s.submitFlash r n addr = match u.huskBars (u.opAsked r addr d) (descLun n d) with
      | some c => u.opRefused (descLun n d) (u.opAsked r addr d) c
      | none => u.enqueue (descLun n d) (u.opAsked r addr d) := by
  obtain ⟨present, read, form, serves, lun, inside, room⟩ := h
  have part : u.part = s.part := by
    have kept := s.load_onlyChanges ⟨0x70 + n, 0⟩ addr 64 .part (by decide)
    rw [read] at kept
    exact kept
  have inside' : opOutside l (opOfBytes r addr u.time d) = false := inside
  have absent : ¬ Config.fchCount u.part ≤ n := by rw [part]; exact Nat.not_le.mpr present
  rw [State.submitFlash, if_pos present, read]
  simp only [if_neg absent, form, serves, lun, inside', if_neg (Nat.not_le.mpr room), Bool.not_true, Bool.false_eq_true, if_false]
  rfl

theorem State.enqueue_of_lun {u : State} {k : Nat} {l : Lun} (lun : u.lun k = some l) (o : FlashOp) :
    u.enqueue k o = (u.putLun k { l with queue := l.queue ++ [o] }).lunStart k 33 := by
  rw [State.enqueue, lun]

/-- A submitted descriptor's command ends in the state in which the descriptor has been dealt with. -/
theorem acks_of_submission {i : Instr} {op n addr : Nat} {r : Req} {s t : State} {P : State → Prop} (asks : (i, op) ∈ flashSubmissions r n addr)
    (present : n < Config.fchCount s.part) (grants : s.grants r ((FCH_SUBMIT_HI.chan n).key 0 0) true)
    (submits : s.fresh.submitFlash r n addr = t) (holds : P t) : Acks i s r (FCH_SUBMIT_HI.chan n).win [] P := by
  rw [← chanKey_window]
  refine acks_of_write (k := fun s => s.submitFlash r n addr) ?_ grants (by rwa [submits])
  rw [exec_flashSubmission asks, State.submitOp_present (s := s.fresh) present]

section
variable {s u : State} {r : Req} {n addr op : Nat} {d : List Byte} {i : Instr} {l : Lun}

/-- FCH_READ and the others (R150): the operation joins its LUN's queue. -/
theorem flashSubmission_queues (asks : (i, op) ∈ flashSubmissions r n addr) (grants : s.grants r ((FCH_SUBMIT_HI.chan n).key 0 0) true)
    (fits : s.fresh.DescFits u r n addr d l) (free : u.huskBars (u.opAsked r addr d) (descLun n d) = none) :
    Acks i s r (FCH_SUBMIT_HI.chan n).win [] (fun t => ∃ v : State, t = v.lunStart (descLun n d) 33
      ∧ v.lun (descLun n d) = some { l with queue := l.queue ++ [u.opAsked r addr d] }
      ∧ (∀ j, j ≠ descLun n d → v.lun j = u.lun j) ∧ u.onlyChanges v [.flash]) := by
  refine acks_of_submission asks fits.present grants (State.submitFlash_fits fits) ?_
  rw [free]
  exact ⟨_, State.enqueue_of_lun fits.lun _, Tab.look_put_same _ _ _, fun j other => Tab.look_put_other _ _ _ _ other, u.putLun_onlyChanges _ _⟩

/-- What the husk refuses ends REFUSED, with FCH_OP_FAIL and HSK_LIMIT raised (R440). -/
theorem flashSubmission_refused (asks : (i, op) ∈ flashSubmissions r n addr) (grants : s.grants r ((FCH_SUBMIT_HI.chan n).key 0 0) true)
    (fits : s.fresh.DescFits u r n addr d l) {c : Nat} (bars : u.huskBars (u.opAsked r addr d) (descLun n d) = some c) :
    Acks i s r (FCH_SUBMIT_HI.chan n).win [] (fun t => ∃ v : State, t = v.opEnd (descLun n d) (u.opAsked r addr d) 0x15 0 0 0
      ∧ v.evt.inbox = u.evt.inbox ++ [⟨225 + 4 * n, 5, [descLun n d % 64, (u.opAsked r addr d).block], none, 0, u.time⟩,
          ⟨49, c, [0x70 + n, r.master], none, 0, u.time⟩]
      ∧ u.onlyChanges v [.evt]) := by
  refine acks_of_submission asks fits.present grants (State.submitFlash_fits fits) ?_
  rw [bars]
  refine ⟨_, rfl, ?_, State.onlyChanges_trans (u.raise_onlyChanges _ _ _) (State.raise_onlyChanges _ _ _ _)⟩
  rw [State.raise_inbox, State.raise_inbox, descLun_chan, List.append_assoc]
  rfl

end

end Sys2Proof.Machine
end

section
/-!
SUPPORT. The ends of array operations (R149, R153, R154, R156, R189, R208, R209) and the power credits that the waiting ones take (R157).
-/
namespace Sys2Proof.Machine

theorem State.modFlash_onlyChanges (s : State) (f : FlashState → FlashState) : s.onlyChanges (s.modFlash f) [.flash] := by
  intro p hp
  cases p
  case flash => exact absurd (List.mem_singleton_self _) hp
  all_goals rfl

theorem State.putBlk_onlyChanges (s : State) (i b : Nat) (x : Blk) : s.onlyChanges (s.putBlk i b x) [.ftl] := s.modFtl_onlyChanges _

/-- A block that the table lists reads as listed. -/
theorem State.blk_of_listed {s : State} {i b : Nat} {x : Blk} (h : Tab.look s.ftl.blocks (2 ^ 20 * i + b) = some x) : s.blk i b = x := by
  rw [State.blk, h]

theorem State.lun_putLun_same (s : State) (i : Nat) (l : Lun) : (s.putLun i l).lun i = some l := Tab.look_put_same _ _ _

theorem State.lun_putLun_other (s : State) {i j : Nat} (l : Lun) (h : j ≠ i) : (s.putLun i l).lun j = s.lun j := Tab.look_put_other _ _ _ _ h

/-- What a LUN does leaves its blocks as the table says. -/
theorem State.blk_putLun {s : State} {i : Nat} {l l' : Lun} (lun : s.lun i = some l) (blocks : l'.blocks = l.blocks) (b : Nat) :
    (s.putLun i l').blk i b = s.blk i b := by
  rw [State.blk, State.blk, State.lun_putLun_same, lun, Option.map_some, Option.map_some, blocks]
  rfl

/-- An event that a channel counts, raised with its count. -/
theorem State.countS_raise_inbox (s : State) (a o : Field) (i j n c : Nat) (l : List Nat) :
    ((s.countS a o 1 i j).raise n c l).evt.inbox = s.evt.inbox ++ [⟨n, c, l, none, 0, s.time⟩] := by
  rw [State.raise_inbox, State.countS_evt, State.countS_time]

/-! ### Which end an operation comes to -/

section
variable {s : State} {i : Nat} {l : Lun} {o : FlashOp}

theorem State.opComplete_program (e : ArrayEnd) (lun : s.lun i = some l) (run : l.running = some o) (op : o.op = 2) :
    s.opComplete i e = ((s.putLun i { l with running := none }).programEnd i l o e.ok).afterOp i := by
  simp only [State.opComplete, lun, run, op]

theorem State.opComplete_erase (e : ArrayEnd) (lun : s.lun i = some l) (run : l.running = some o) (op : o.op = 3) :
    s.opComplete i e = ((s.putLun i { l with running := none }).eraseEnd i l o e).afterOp i := by
  simp only [State.opComplete, lun, run, op]

theorem State.opComplete_setFeature {b : BusStatus} {x : List Byte} {v : State} (e : ArrayEnd) (lun : s.lun i = some l) (run : l.running = some o)
    (op : o.op = 6) (read : (s.putLun i { l with running := none }).load ⟨0x70 + i / 64, 0⟩ o.bufAddr 4 = (b, x, v)) :
    s.opComplete i e = ((v.putLun i { l with running := none, features := Tab.put l.features (o.page % 256) (leNat x) }).opEnd i o 0x01 0 0 0).afterOp i := by
  simp only [State.opComplete, lun, run, op, read]

theorem State.opComplete_ready {x : Nat × Nat} (e : ArrayEnd) (lun : s.lun i = some l) (idle : l.running = none) (reset : l.resetting = some x) :
    s.opComplete i e = (s.putLun i { l with resetting := none }).afterOp i := by
  simp only [State.opComplete, lun, idle, reset, Option.isSome_some, if_true]

end

/-! ### Programs (R189, R208) -/

/-- A descriptor's program in native mode opens its block's superblock. -/
def State.programOpened (s : State) (i : Nat) (o : FlashOp) : State := if bit o.flags 4 then s else s.gcOpen i o.block

/-- The block's write pointer moves past the wordline. -/
def State.pointerMoved (s : State) (i : Nat) (l : Lun) (o : FlashOp) : State :=
  let x := s.blk i o.block
  s.putBlk i o.block { x with
    wp := o.page + l.wordline (bit o.flags 4), pool := if x.pool = 0 then 3 else x.pool, epoch := if x.pool = 5 then s.nv.epoch else x.epoch }

/-- A program that succeeded is counted. -/
def State.programCounted (s : State) (l : Lun) (o : FlashOp) : State :=
  s.countW FTL_MEDIA_GRAINS_LO FTL_MEDIA_GRAINS_HI (256 * l.wordline (bit o.flags 4))

/-- A program that failed is counted and reported. -/
def State.programReported (s : State) (i : Nat) (o : FlashOp) : State :=
  (s.countS (FCH_ERR_STAT_PROG_FAIL.chan (i / 64)) (FCH_ERR_STAT_OVF.chan (i / 64)) 1).raise (225 + 4 * (i / 64)) 1 [i % 64, o.block]

section
variable (s : State) (i : Nat) (l : Lun) {o : FlashOp}

theorem State.programOpened_eq (named : o.addr ≠ 0) :
    (if o.addr ≠ 0 ∧ (!bit o.flags 4) = true then s.gcOpen i o.block else s) = s.programOpened i o := by
  rw [State.programOpened]
  cases bit o.flags 4
  · exact if_pos ⟨named, rfl⟩
  · exact if_neg (fun h => absurd h.2 (by decide))

theorem State.programEnd_ok (named : o.addr ≠ 0) : s.programEnd i l o true =
    ((((s.programOpened i o).pointerMoved i l o).programCounted l o).opEnd i o 0x01 0 0 0).gcFull i o.block := by
  simp only [State.programEnd, s.programOpened_eq i named, if_neg named, if_true, State.pointerMoved, State.programCounted]

theorem State.programEnd_failed (named : o.addr ≠ 0) : s.programEnd i l o false =
    ((((((s.programOpened i o).pointerMoved i l o).programReported i o).opEnd i o 0x11 0 0 0).retire i o.block 2).raise 356 1 [i, o.block]).sbRetire
      (sbOf i o.block) i := by
  simp only [State.programEnd, s.programOpened_eq i named, if_neg named, Bool.false_eq_true, if_false, State.pointerMoved, State.programReported]

theorem State.pointerMoved_look (o : FlashOp) : ∃ x : Blk, Tab.look (s.pointerMoved i l o).ftl.blocks (2 ^ 20 * i + o.block) = some x
    ∧ x.wp = o.page + l.wordline (bit o.flags 4) := ⟨_, Tab.look_put_same _ _ _, rfl⟩

end

section
variable {s : State} {i : Nat} {l : Lun} {o : FlashOp} (e : ArrayEnd) (lun : s.lun i = some l) (run : l.running = some o) (op : o.op = 2)
  (named : o.addr ≠ 0)
include lun run op named

/-- FCH_OP_COMPLETE of a program that succeeded. -/
theorem fchOpComplete_programmed (ok : e.ok = true) : Completes (.fchOpComplete i e) s (fun t => ∃ v : State,
    let w := (s.fresh.putLun i { l with running := none }).programOpened i o
    t = ((v.opEnd i o 0x01 0 0 0).gcFull i o.block).afterOp i
      ∧ v.lun i = w.lun i ∧ (v.blk i o.block).wp = o.page + l.wordline (bit o.flags 4) ∧ w.onlyChanges v [.ftl, .regs]) := by
  have ends : s.fresh.opComplete i e = _ := State.opComplete_program e lun run op
  rw [ok, State.programEnd_ok _ _ _ named] at ends
  let w := (s.fresh.putLun i { l with running := none }).programOpened i o
  obtain ⟨x, listed, wp⟩ := w.pointerMoved_look i l o
  refine ⟨_, congrArg (State.done · s) ends, (w.pointerMoved i l o).programCounted l o, rfl, rfl, ?_, ?_⟩
  · exact (congrArg Blk.wp (State.blk_of_listed (s := (w.pointerMoved i l o).programCounted l o) listed)).trans wp
  · exact State.onlyChanges_append (w.putBlk_onlyChanges _ _ _) (State.countW_onlyChanges _ _ _ _ _ _)

/-- FCH_OP_COMPLETE of a program that failed. -/
theorem fchOpComplete_programFailed (failed : e.ok = false) : Completes (.fchOpComplete i e) s (fun t => ∃ v : State,
    let w := (s.fresh.putLun i { l with running := none }).programOpened i o
    t = ((((v.opEnd i o 0x11 0 0 0).retire i o.block 2).raise 356 1 [i, o.block]).sbRetire (sbOf i o.block) i).afterOp i
      ∧ v.lun i = w.lun i ∧ (v.blk i o.block).wp = o.page + l.wordline (bit o.flags 4)
      ∧ v.evt.inbox = w.evt.inbox ++ [⟨225 + 4 * (i / 64), 1, [i % 64, o.block], none, 0, w.time⟩]
      ∧ w.onlyChanges v [.ftl, .regs, .evt]) := by
  have ends : s.fresh.opComplete i e = _ := State.opComplete_program e lun run op
  rw [failed, State.programEnd_failed _ _ _ named] at ends
  let w := (s.fresh.putLun i { l with running := none }).programOpened i o
  obtain ⟨x, listed, wp⟩ := w.pointerMoved_look i l o
  have flash : ((w.pointerMoved i l o).programReported i o).flash = w.flash := by
    rw [State.programReported, State.raise_flash, State.countS_flash]
    rfl
  have ftl : ((w.pointerMoved i l o).programReported i o).ftl = (w.pointerMoved i l o).ftl := by
    rw [State.programReported, State.raise_ftl, State.countS_ftl]
  refine ⟨_, congrArg (State.done · s) ends, (w.pointerMoved i l o).programReported i o, rfl, ?_, ?_, ?_, ?_⟩
  · rw [State.lun, flash]
    rfl
  · rw [State.blk_of_listed (x := x) (by rw [ftl, listed]), wp]
  · exact State.countS_raise_inbox _ _ _ _ _ _ _ _
  · exact State.onlyChanges_append (State.onlyChanges_append (w.putBlk_onlyChanges _ _ _) (State.countS_onlyChanges _ _ _ _ _ _))
      (State.raise_onlyChanges _ _ _ _)

end

/-! ### Erases (R207, R209) -/

/-- An erase that failed is counted and reported. -/
def State.eraseReported (s : State) (i : Nat) (o : FlashOp) : State :=
  (s.countS (FCH_ERR_STAT_ERASE_FAIL.chan (i / 64)) (FCH_ERR_STAT_OVF.chan (i / 64)) 1).raise (225 + 4 * (i / 64)) 2 [i % 64, o.block]

theorem State.eraseEnd_failed {s : State} (i : Nat) (l : Lun) {o : FlashOp} {e : ArrayEnd} (failed : e.ok = false) (plain : s.sanErasing = false) :
    s.eraseEnd i l o e = (((s.eraseReported i o).opEnd i o 0x12 0 0 0).retire i o.block 3).raise 356 2 [i, o.block] := by
  simp only [State.eraseEnd, failed, plain, Bool.false_eq_true, if_false, State.eraseReported]

/-- What an erase does to its block and to what the part holds of it. -/
def State.blockCleared (s : State) (i b : Nat) : State :=
  let x := s.blk i b
  (s.putBlk i b { x with
    wp := 0, pe := x.pe + 1, released := false, torn := false, pool := if x.pool = 4 ∨ x.pool = 5 ∨ x.pool = 6 then x.pool else 0 }).modFtl
  (fun f => { f with
    media := Tab.keep (fun p _ => !(p / 2 ^ 40 = i && p / 2 ^ 20 % 2 ^ 20 = b)) f.media
    heads := Tab.keep (fun p _ => !(p / 2 ^ 34 = i && p / 2 ^ 14 % 2 ^ 20 = b)) f.heads
    jstore := Tab.keep (fun p _ => !(p / 2 ^ 34 = i && p / 2 ^ 14 % 2 ^ 20 = b)) f.jstore })

/-- Where a block held the first frame of older media, the last of them may be gone (R221). -/
def State.legacyChecked (s : State) (old : List (Nat × Extent)) : State :=
  match old with
  | (_, x) :: _ =>
    if s.ftl.media.any (fun kv => kv.1 % 64 = 0) then s
    else ((s.modFtl (fun f => { f with legacy := false })).setFld FTL_STAT_LEGACY 0).raise 359 3 [nsidOf x.laddr]
  | [] => s

theorem State.legacyChecked_ftl (s : State) (old : List (Nat × Extent)) : ∃ b, (s.legacyChecked old).ftl = { s.ftl with legacy := b } := by
  cases old with
  | nil => exact ⟨_, rfl⟩
  | cons y old =>
    simp only [State.legacyChecked]
    split
    · exact ⟨_, rfl⟩
    · exact ⟨_, rfl⟩

theorem State.legacyChecked_onlyChanges (s : State) (old : List (Nat × Extent)) : s.onlyChanges (s.legacyChecked old) [.ftl, .regs, .evt] := by
  cases old with
  | nil => exact s.onlyChanges_refl _
  | cons y old => exact State.onlyChanges_ite _ (s.onlyChanges_refl _) (State.onlyChanges_append (State.onlyChanges_append (s.modFtl_onlyChanges _)
      (State.setFld_onlyChanges _ _ _ _ _)) (State.raise_onlyChanges _ _ _ _))

/-- A block of no superblock: nothing but the block and older media is looked at. -/
theorem State.blockErased_unbound {s : State} {i b : Nat} (unbound : Tab.look s.ftl.sbs (sbOf i b) = none) :
    ∃ old, s.blockErased i b = (s.blockCleared i b).legacyChecked old := by
  have steps : ∃ (old : List (Nat × Extent)) (f : SuperBlock → State), s.blockErased i b = match Tab.look ((s.blockCleared i b).legacyChecked old).ftl.sbs (sbOf i b) with
      | none => (s.blockCleared i b).legacyChecked old
      | some sb => f sb := ⟨_, _, rfl⟩
  obtain ⟨old, f, steps⟩ := steps
  obtain ⟨_, ftl⟩ := (s.blockCleared i b).legacyChecked_ftl old
  have none : Tab.look ((s.blockCleared i b).legacyChecked old).ftl.sbs (sbOf i b) = none := by
    rw [ftl]
    exact unbound
  exact ⟨old, by rw [steps, none]⟩

section
variable {s : State} {i : Nat} {l : Lun} {o : FlashOp}

theorem State.blockCleared_look (s : State) (i b : Nat) : ∃ x : Blk, Tab.look (s.blockCleared i b).ftl.blocks (2 ^ 20 * i + b) = some x
    ∧ x.wp = 0 ∧ x.pe = (s.blk i b).pe + 1 := ⟨_, Tab.look_put_same _ _ _, rfl, rfl⟩

theorem State.blockCleared_media {s : State} {i b p : Nat} {z : Extent} (found : Tab.look (s.blockCleared i b).ftl.media p = some z)
    (own : p / 2 ^ 40 = i) : p / 2 ^ 20 % 2 ^ 20 ≠ b := by
  intro same
  have gone : Tab.look (s.blockCleared i b).ftl.media p = _ := Tab.look_keep (fun p => !(p / 2 ^ 40 = i && p / 2 ^ 20 % 2 ^ 20 = b)) s.ftl.media p
  rw [gone, own, same] at found
  simp at found

theorem State.blockCleared_onlyChanges (s : State) (i b : Nat) : s.onlyChanges (s.blockCleared i b) [.ftl] :=
  State.onlyChanges_trans (s.putBlk_onlyChanges _ _ _) (State.modFtl_onlyChanges _ _)

/-- During phase 3 of a sanitize an erased block is noted. -/
def State.sanitizeNoted (s : State) (i b : Nat) : State :=
  if s.sanErasing then { s with nv := { s.nv with erased := Tab.put s.nv.erased (2 ^ 20 * i + b) true } } else s

theorem State.eraseEnd_ok {e : ArrayEnd} (ok : e.ok = true) : s.eraseEnd i l o e =
    (if (((((s.blockErased i o.block).opEnd i o 0x01 0 0 0).sanitizeNoted i o.block).fld (FCH_CTRL_RETRAIN_DT.chan (i / 64)) : Int) < e.tempC - l.temp
        ∨ e.tempC - l.temp < -((((s.blockErased i o.block).opEnd i o 0x01 0 0 0).sanitizeNoted i o.block).fld (FCH_CTRL_RETRAIN_DT.chan (i / 64)) : Int)) then
      (((s.blockErased i o.block).opEnd i o 0x01 0 0 0).sanitizeNoted i o.block).retrain i e.retrainOk e.tempC
    else ((s.blockErased i o.block).opEnd i o 0x01 0 0 0).sanitizeNoted i o.block).wearCheck i := by
  simp only [State.eraseEnd, ok, if_true, State.sanitizeNoted]

/-- FCH_OP_COMPLETE of an erase that succeeded, of a block of no superblock. -/
theorem fchOpComplete_erased (e : ArrayEnd) (lun : s.lun i = some l) (run : l.running = some o) (op : o.op = 3) (ok : e.ok = true)
    (unbound : Tab.look s.ftl.sbs (sbOf i o.block) = none) : Completes (.fchOpComplete i e) s (fun t => ∃ v x y : State,
      x = v.opEnd i o 0x01 0 0 0 ∧ y = x.sanitizeNoted i o.block
        ∧ t = ((if (y.fld (FCH_CTRL_RETRAIN_DT.chan (i / 64)) : Int) < e.tempC - l.temp
              ∨ e.tempC - l.temp < -(y.fld (FCH_CTRL_RETRAIN_DT.chan (i / 64)) : Int) then y.retrain i e.retrainOk e.tempC else y).wearCheck i).afterOp i
        ∧ (v.blk i o.block).wp = 0 ∧ (v.blk i o.block).pe = (s.blk i o.block).pe + 1
        ∧ (∀ p z, Tab.look v.ftl.media p = some z → p / 2 ^ 40 = i → p / 2 ^ 20 % 2 ^ 20 ≠ o.block)
        ∧ s.onlyChanges v [.flash, .ftl, .regs, .evt, .out]) := by
  let u := s.fresh.putLun i { l with running := none }
  have ends : s.fresh.opComplete i e = _ := State.opComplete_erase e lun run op
  rw [State.eraseEnd_ok ok] at ends
  obtain ⟨old, erased⟩ := State.blockErased_unbound (s := u) (i := i) (b := o.block) unbound
  obtain ⟨g, ftl⟩ := (u.blockCleared i o.block).legacyChecked_ftl old
  obtain ⟨x, listed, wp, pe⟩ := u.blockCleared_look i o.block
  have held : (u.blockErased i o.block).blk i o.block = x := State.blk_of_listed (by rw [erased, ftl]; exact listed)
  have same : u.blk i o.block = s.blk i o.block := State.blk_putLun (s := s.fresh) (l' := { l with running := none }) lun rfl o.block
  refine ⟨_, congrArg (State.done · s) ends, u.blockErased i o.block, _, _, rfl, rfl, rfl, by rw [held, wp], by rw [held, pe, same], ?_, ?_⟩
  · intro p z found
    rw [erased, ftl] at found
    exact State.blockCleared_media (s := u) found
  · rw [erased]
    exact State.onlyChanges_mono (State.onlyChanges_of_fresh (State.onlyChanges_append (State.onlyChanges_append (s.fresh.putLun_onlyChanges _ _)
      (u.blockCleared_onlyChanges _ _)) (State.legacyChecked_onlyChanges _ _))) (by decide)

/-- FCH_OP_COMPLETE of an erase that failed, outside a sanitize. -/
theorem fchOpComplete_eraseFailed (e : ArrayEnd) (lun : s.lun i = some l) (run : l.running = some o) (op : o.op = 3) (failed : e.ok = false)
    (plain : s.sanErasing = false) : Completes (.fchOpComplete i e) s (fun t => ∃ v : State,
      t = ((((v.opEnd i o 0x12 0 0 0).retire i o.block 3).raise 356 2 [i, o.block])).afterOp i
        ∧ v.evt.inbox = s.evt.inbox ++ [⟨225 + 4 * (i / 64), 2, [i % 64, o.block], none, 0, s.time⟩]
        ∧ s.onlyChanges v [.flash, .regs, .evt, .out]) := by
  have ends : s.fresh.opComplete i e = _ := State.opComplete_erase e lun run op
  rw [State.eraseEnd_failed (s := s.fresh.putLun i { l with running := none }) i l failed plain] at ends
  exact ⟨_, congrArg (State.done · s) ends, _, rfl, State.countS_raise_inbox _ _ _ _ _ _ _ _,
    State.onlyChanges_mono (State.onlyChanges_of_fresh (State.onlyChanges_append (State.onlyChanges_append (s.fresh.putLun_onlyChanges _ _)
      (State.countS_onlyChanges _ _ _ _ _ _)) (State.raise_onlyChanges _ _ _ _))) (by decide)⟩

/-- FCH_OP_COMPLETE of SET_FEATURE holds the value its buffer gives. -/
theorem fchOpComplete_featureSet (e : ArrayEnd) (lun : s.lun i = some l) (run : l.running = some o) (op : o.op = 6) :
    Completes (.fchOpComplete i e) s (fun t => ∃ (b : BusStatus) (x : List Byte) (v : State),
      (s.fresh.putLun i { l with running := none }).load ⟨0x70 + i / 64, 0⟩ o.bufAddr 4 = (b, x, v)
        ∧ t = ((v.putLun i { l with running := none, features := Tab.put l.features (o.page % 256) (leNat x) }).opEnd i o 0x01 0 0 0).afterOp i) := by
  obtain ⟨b, x, v, read⟩ : ∃ b x v, (s.fresh.putLun i { l with running := none }).load ⟨0x70 + i / 64, 0⟩ o.bufAddr 4 = (b, x, v) := ⟨_, _, _, rfl⟩
  exact ⟨_, congrArg (State.done · s) (State.opComplete_setFeature (s := s.fresh) e lun run op read), b, x, v, read, rfl⟩

/-- A channel's event counter counts up to its largest value (R20). -/
theorem State.fld_countS_chan (s : State) {a o : Field} {top : Nat} (n : Nat) (reg : o.reg = a.reg) (fits : a.hi < 32) (apart : a.hi < o.lo)
    (full : 2 ^ (a.hi + 1 - a.lo) - 1 = top) : (s.countS (a.chan n) (o.chan n) 1).fld (a.chan n) = min top (s.fld (a.chan n) + 1) := by
  rw [State.fld_countS_same _ (a.chan n) (o.chan n) _ _ _ (congrArg (RegId.chan · n) reg) fits (.inr apart), satAdd_eq_min]
  exact congrArg (fun top => min top (s.fld (a.chan n) + 1)) full

/-! ### Timeouts and LUNs that go offline (R154) -/

/-- An operation has run 4 times its typical time: its LUN is under RESET LUN, and the timeout is counted and reported. -/
def State.timedOut (s : State) (i : Nat) (l : Lun) (o : FlashOp) : State :=
  let u := s.notBefore (l.startedAt + (4 * s.arrayNs l o - l.ranNs))
  ((u.putLun i { l with running := none, resetting := some (u.time, o.cost) }).countS (FCH_ERR_STAT_TIMEOUT.chan (i / 64))
    (FCH_ERR_STAT_OVF.chan (i / 64)) 1).raise (225 + 4 * (i / 64)) 3 [i % 64, o.block]

theorem State.arrayTimeout_runs (lun : s.lun i = some l) (run : l.running = some o) (kind : o.op ∈ [3, 4, 5, 6]) :
    s.arrayTimeout i = if o.op = 3 then (((s.timedOut i l o).opEnd i o 0x13 0 0 0).retire i o.block 3).raise 356 2 [i, o.block]
      else (s.timedOut i l o).opEnd i o 0x13 0 0 0 := by
  simp only [List.mem_cons, List.not_mem_nil, or_false] at kind
  rcases kind with op | op | op | op <;> simp only [State.arrayTimeout, lun, run, op, State.timedOut, reduceIte, Nat.reduceEqDiff]

/-- FCH_ARRAY_TIMEOUT of an erase, a SWEEP or a feature command. -/
theorem fchArrayTimeout_ends (lun : s.lun i = some l) (run : l.running = some o) (kind : o.op ∈ [3, 4, 5, 6]) :
    Completes (.fchArrayTimeout i) s (fun t => ∃ v : State,
      t = (if o.op = 3 then ((v.opEnd i o 0x13 0 0 0).retire i o.block 3).raise 356 2 [i, o.block] else v.opEnd i o 0x13 0 0 0)
        ∧ v.lun i = some { l with running := none, resetting := some (v.time, o.cost) }
        ∧ v.time = max s.time (l.startedAt + (4 * s.arrayNs l o - l.ranNs))
        ∧ v.evt.inbox = s.evt.inbox ++ [⟨225 + 4 * (i / 64), 3, [i % 64, o.block], none, 0, v.time⟩]
        ∧ v.fld (FCH_ERR_STAT_TIMEOUT.chan (i / 64)) = min 511 (s.fld (FCH_ERR_STAT_TIMEOUT.chan (i / 64)) + 1)
        ∧ s.onlyChanges v [.flash, .time, .regs, .evt, .out]) := by
  have time : (s.fresh.timedOut i l o).time = max s.time (l.startedAt + (4 * s.arrayNs l o - l.ranNs)) := by
    rw [State.timedOut, State.raise_time, State.countS_time]
    rfl
  refine ⟨_, congrArg (State.done · s) (State.arrayTimeout_runs (s := s.fresh) lun run kind), s.fresh.timedOut i l o, rfl, ?_, time, ?_, ?_, ?_⟩
  · rw [time, State.lun, State.timedOut, State.raise_flash, State.countS_flash]
    exact Tab.look_put_same _ _ _
  · rw [time]
    exact State.countS_raise_inbox _ _ _ _ _ _ _ _
  · rw [State.timedOut, State.raise_fld]
    exact State.fld_countS_chan _ _ rfl (by decide) (by decide) (by decide)
  · exact State.onlyChanges_mono (State.onlyChanges_of_fresh (State.onlyChanges_append (State.onlyChanges_append (State.onlyChanges_append
      (s.fresh.notBefore_onlyChanges _) (State.putLun_onlyChanges _ _ _)) (State.countS_onlyChanges _ _ _ _ _ _)) (State.raise_onlyChanges _ _ _ _)))
      (by decide)

/-- FCH_OP_COMPLETE of a LUN under RESET LUN: it is ready again. -/
theorem fchOpComplete_ready {x : Nat × Nat} (e : ArrayEnd) (lun : s.lun i = some l) (idle : l.running = none) (reset : l.resetting = some x) :
    Completes (.fchOpComplete i e) s (fun t => t = (s.fresh.putLun i { l with resetting := none }).afterOp i) :=
  ⟨_, congrArg (State.done · s) (State.opComplete_ready (s := s.fresh) e lun idle reset), rfl⟩

/-- A LUN is offline 10 ms after its reset began: it holds no operation and no reservation. -/
def State.lunGone (s : State) (i : Nat) (l : Lun) (at_ : Nat) : State :=
  (((s.notBefore (at_ + 10000000)).putLun i { l with
      status := 3, exclCause := 7, queue := [], running := none, suspended := none, resetting := none }).modFlash (fun f => { f with
    reserve := Tab.upd f.reserve (i / 128) (fun r => r.filter (fun j => j ≠ i)) })).raise (225 + 4 * (i / 64)) 4 [i % 64, 0]

/-- LUN_OFFLINE: what waited on the LUN ends ABORTED. -/
theorem lunOffline_aborts {x : Nat × Nat} (lun : s.lun i = some l) (reset : l.resetting = some x) (used : l.status = 1) :
    Completes (.lunOffline i) s (fun t => ∃ v w y : State,
      w = (l.suspended.toList ++ l.queue).foldl (fun v o => (v.opEnd i o 0x18 0 0 0).ownerLost o) v
        ∧ y = State.chanStatus (match Tab.look w.ftl.lanes i with | some la => w.laneDrop i la | none => w) (i / 64)
        ∧ t = (if y.fld (FCH_STAT_STATE.chan (i / 64)) = 4 then y.raise (224 + 4 * (i / 64)) 4 [0, 0] else y).groupStart (i / 128)
        ∧ v.lun i = some { l with status := 3, exclCause := 7, queue := [], running := none, suspended := none, resetting := none }
        ∧ v.time = max s.time (x.1 + 10000000)
        ∧ v.evt.inbox = s.evt.inbox ++ [⟨225 + 4 * (i / 64), 4, [i % 64, 0], none, 0, v.time⟩]
        ∧ s.onlyChanges v [.flash, .time, .evt, .out]) := by
  have going : (if l.status = 1 then l.resetting else none) = some x := by rw [if_pos used, reset]
  have ends : ∃ w y : State, w = (l.suspended.toList ++ l.queue).foldl (fun v o => (v.opEnd i o 0x18 0 0 0).ownerLost o) (s.fresh.lunGone i l x.1)
      ∧ y = State.chanStatus (match Tab.look w.ftl.lanes i with | some la => w.laneDrop i la | none => w) (i / 64)
      ∧ s.fresh.lunOffline i
        = (if y.fld (FCH_STAT_STATE.chan (i / 64)) = 4 then y.raise (224 + 4 * (i / 64)) 4 [0, 0] else y).groupStart (i / 128) := by
    have lun' : s.fresh.lun i = some l := lun
    simp only [State.lunOffline, lun', going]
    exact ⟨_, _, rfl, rfl, rfl⟩
  obtain ⟨w, y, hw, hy, ends⟩ := ends
  exact ⟨_, congrArg (State.done · s) ends, _, w, y, hw, hy, rfl, Tab.look_put_same _ _ _, rfl, rfl,
    State.onlyChanges_mono (State.onlyChanges_of_fresh (State.onlyChanges_append (State.onlyChanges_append (State.onlyChanges_append
      (s.fresh.notBefore_onlyChanges _) (State.putLun_onlyChanges _ _ _)) (State.modFlash_onlyChanges _ _)) (State.raise_onlyChanges _ _ _ _)))
      (by decide)⟩

end

section
variable {s : State} {i : Nat} {l : Lun} {o : FlashOp}

/-- A suspended erase waits for its 300 µs while foreground reads do. -/
def State.resumeDue (s : State) (i : Nat) (l : Lun) : State :=
  if l.queue.any (fun q => q.op = 1 && !s.isBg i q) then s.notBefore (l.suspAt + suspendNs) else s

theorem State.resumeDue_onlyChanges (s : State) (i : Nat) (l : Lun) : s.onlyChanges (s.resumeDue i l) [.time] :=
  State.onlyChanges_ite _ (s.notBefore_onlyChanges _) (s.onlyChanges_refl _)

theorem State.resumeDue_time (s : State) (i : Nat) (l : Lun) : (s.resumeDue i l).time =
    if l.queue.any (fun q => q.op = 1 && !s.isBg i q) then max s.time (l.suspAt + 300000) else s.time := by
  rw [State.resumeDue]
  split <;> rfl

theorem exec_eraseResume (lun : s.lun i = some l) (erase : l.suspended = some o) (idle : l.running = none) : exec (.eraseResume i) s =
    ((s.fresh.resumeDue i l).putLun i { l with running := some o, suspended := none, startedAt := (s.fresh.resumeDue i l).time }).done s := by
  have lun' : s.fresh.lun i = some l := lun
  show execEraseResume i s = _
  simp only [execEraseResume, lun', erase, idle, State.resumeDue]

/-- ERASE_RESUME (R153). -/
theorem eraseResume_resumes (lun : s.lun i = some l) (erase : l.suspended = some o) (idle : l.running = none) :
    Completes (.eraseResume i) s (fun t =>
      t.lun i = some { l with running := some o, suspended := none, startedAt := t.time } ∧ (∀ j, j ≠ i → t.lun j = s.lun j)
        ∧ t.time = (if l.queue.any (fun q => q.op = 1 && !s.isBg i q) then max s.time (l.suspAt + 300000) else s.time)
        ∧ s.onlyChanges t [.flash, .time, .out]) := by
  have due := s.fresh.resumeDue_onlyChanges i l
  refine ⟨_, exec_eraseResume lun erase idle, State.lun_putLun_same _ _ _, fun j other => ?_, State.resumeDue_time _ _ _, ?_⟩
  · rw [State.lun_putLun_other _ _ other, State.lun, due .flash (by decide)]
    rfl
  · exact State.onlyChanges_mono (State.onlyChanges_of_fresh (State.onlyChanges_append due (State.putLun_onlyChanges _ _ _))) (by decide)

/-! ### Power credits (R157) -/

/-- The waiting operation holds its group's reservation. -/
def State.reservedFor (s : State) (i : Nat) (l : Lun) (o : FlashOp) : State :=
  (((s.notBefore (o.waitAt.getD s.time + s.fld (FCH_SCHED_CREDIT_WAIT.chan (i / 64)) * 100000)).putLun i { l with
      queue := l.queue.map (fun q => if q = o then { q with reserved := true } else q) }).modFlash (fun f => { f with
    reserve := Tab.put f.reserve (i / 128) (Tab.lookD s.flash.reserve (i / 128) [] ++ [i]) })).countS
      (FCH_CREDIT_STAT_RESERVED.chan (i / 64)) (FCH_CREDIT_STAT_OVF.chan (i / 64)) 1

theorem exec_creditReservationTake (waits : s.waitsCredit i = some o) (lun : s.lun i = some l) (none : i ∉ Tab.lookD s.flash.reserve (i / 128) []) :
    exec (.creditReservationTake i) s = (s.fresh.reservedFor i l o).done s := by
  have waits' : s.fresh.waitsCredit i = some o := waits
  have lun' : s.fresh.lun i = some l := lun
  have none' : (Tab.lookD s.fresh.flash.reserve (i / 128) []).contains i = false := by simpa using none
  show execCreditReservationTake i s = _
  simp only [execCreditReservationTake, waits', lun', none', Bool.false_eq_true, if_false, State.reservedFor]

/-- CREDIT_RESERVATION_TAKE (R157). -/
theorem creditReservationTake_reserves (waits : s.waitsCredit i = some o) (lun : s.lun i = some l)
    (none : i ∉ Tab.lookD s.flash.reserve (i / 128) []) : Completes (.creditReservationTake i) s (fun t =>
      Tab.look t.flash.reserve (i / 128) = some (Tab.lookD s.flash.reserve (i / 128) [] ++ [i])
        ∧ t.lun i = some { l with queue := l.queue.map (fun q => if q = o then { q with reserved := true } else q) }
        ∧ (∀ j, j ≠ i → t.lun j = s.lun j)
        ∧ t.time = max s.time (o.waitAt.getD s.time + s.fld (FCH_SCHED_CREDIT_WAIT.chan (i / 64)) * 100000)
        ∧ t.fld (FCH_CREDIT_STAT_RESERVED.chan (i / 64)) = min 32767 (s.fld (FCH_CREDIT_STAT_RESERVED.chan (i / 64)) + 1)
        ∧ s.onlyChanges t [.flash, .time, .regs, .out]) := by
  refine ⟨_, exec_creditReservationTake waits lun none, ?_, ?_, fun j other => ?_, ?_, ?_, ?_⟩
  · rw [State.reservedFor, State.countS_flash]
    exact Tab.look_put_same _ _ _
  · rw [State.reservedFor, State.lun, State.countS_flash]
    exact Tab.look_put_same _ _ _
  · rw [State.reservedFor, State.lun, State.countS_flash]
    exact Tab.look_put_other _ _ _ _ other
  · rw [State.reservedFor, State.countS_time]
    rfl
  · exact State.fld_countS_chan _ _ rfl (by decide) (by decide) (by decide)
  · exact State.onlyChanges_mono (State.onlyChanges_of_fresh (State.onlyChanges_append (State.onlyChanges_append (State.onlyChanges_append
      (s.fresh.notBefore_onlyChanges _) (State.putLun_onlyChanges _ _ _)) (State.modFlash_onlyChanges _ _)) (State.countS_onlyChanges _ _ _ _ _ _)))
      (by decide)

theorem exec_creditWaitLong (waits : s.waitsCredit i = some o) : exec (.creditWaitLong i) s =
    ((s.fresh.notBefore (o.waitAt.getD s.time + s.fld (FCH_SCHED_CREDIT_WAIT.chan (i / 64)) * 1000000)).raise (224 + 4 * (i / 64)) 5 [i % 64, 0]).done s := by
  have waits' : s.fresh.waitsCredit i = some o := waits
  show execCreditWaitLong i s = _
  simp only [execCreditWaitLong, waits', State.fresh_time, State.fresh_fld]

/-- CREDIT_WAIT_LONG (R157). -/
theorem creditWaitLong_raises (waits : s.waitsCredit i = some o) : Completes (.creditWaitLong i) s (fun t =>
    t.evt.inbox = s.evt.inbox ++ [⟨224 + 4 * (i / 64), 5, [i % 64, 0], none, 0, t.time⟩]
      ∧ t.time = max s.time (o.waitAt.getD s.time + s.fld (FCH_SCHED_CREDIT_WAIT.chan (i / 64)) * 1000000)
      ∧ s.onlyChanges t [.evt, .time, .out]) :=
  ⟨_, exec_creditWaitLong waits, rfl, rfl, State.onlyChanges_mono (State.onlyChanges_of_fresh (State.onlyChanges_append
    (s.fresh.notBefore_onlyChanges _) (State.raise_onlyChanges _ _ _ _))) (by decide)⟩

end

/-- Settles O18: a lemma for each command, and for each of its ends. -/
theorem flashOperationsComplete : Obligations.FlashOperationsComplete := by
  unfold Obligations.FlashOperationsComplete
  refine ⟨fun s u r n addr op d i l asks present grants read kind form => ?_, fun s i l o e lun run => ?_,
    fun s i l e x lun idle reset => fchOpComplete_ready e lun idle reset, fun s i l lun => ?_, fun s i o l waits lun => ?_⟩
  · subst kind
    intro k o serves lun inside room
    have fits : s.fresh.DescFits u r n addr d l := ⟨present, read, form, serves, lun, inside, room⟩
    refine ⟨fun program erase => flashSubmission_queues asks grants fits ?_, fun c program bad => flashSubmission_refused asks grants fits ?_,
      fun c erase bad => flashSubmission_refused asks grants fits ?_⟩
    · exact State.huskBars_none (o := u.opAsked r addr d) program erase
    · exact (State.huskBars_program (o := u.opAsked r addr d) program).trans bad
    · exact (State.huskBars_erase (o := u.opAsked r addr d) erase).trans bad
  · exact ⟨fun op ok named => fchOpComplete_programmed e lun run op named ok, fun op failed named => fchOpComplete_programFailed e lun run op named failed,
      fun op failed plain => fchOpComplete_eraseFailed e lun run op failed plain,
      fun op ok unbound => fchOpComplete_erased e lun run op ok unbound, fun op => fchOpComplete_featureSet e lun run op,
      fun kind => fchArrayTimeout_ends lun run kind⟩
  · exact ⟨fun x reset used => lunOffline_aborts lun reset used, fun o erase idle => eraseResume_resumes lun erase idle⟩
  · exact ⟨fun none => creditReservationTake_reserves waits lun none, creditWaitLong_raises waits⟩

end Sys2Proof.Machine
end

section
/-!
SUPPORT. The patrol and advisory lists and the group commands (R169, R171, R172).
-/
namespace Sys2Proof.Machine

/-! ### The patrol and advisory lists (R169, R171) -/

section
variable {s : State} {r : Req}

theorem acks_of_listRead {c : Instr} {reg : RegId} {target n : Nat} {k : State → Nat × State} {t : State} {P : State → Prop}
    (means : exec c s = (s.fresh.atRegR r (reg.key 0 0) k).done s) (window : reg.key 0 0 / 0x100000 = target)
    (granted : s.grants r (reg.key 0 0) false) (next : k s.fresh = (n, t)) (holds : P t) : Acks c s r target (leBytes 4 n) P := by
  have read := acks_of_read (P := P) means granted (by rw [next]; exact holds)
  rwa [next, window] at read

theorem LDP_PATROL_NEXT_window : LDP_PATROL_NEXT.key 0 0 / 0x100000 = LDP_PATROL_NEXT.win := by decide

theorem LDP_ADVISE_NEXT_window : LDP_ADVISE_NEXT.key 0 0 / 0x100000 = LDP_ADVISE_NEXT.win := by decide

/-- LDP_PATROL_NEXT_READ. -/
theorem ldpPatrolNextRead_acks (granted : s.grants r (LDP_PATROL_NEXT.key 0 0) false) :
    (s.flash.patrol = [] → Acks (.ldpPatrolNextRead r) s r LDP_PATROL_NEXT.win (leBytes 4 0) (fun t => s.onlyChanges t [.out]))
    ∧ (∀ i g rest, s.flash.patrol = (i, g) :: rest →
      Acks (.ldpPatrolNextRead r) s r LDP_PATROL_NEXT.win (leBytes 4 (trackWord i g 0)) (fun t =>
        t.flash = { s.flash with patrol := rest } ∧ s.onlyChanges t [.flash, .out])) := by
  constructor
  · intro empty
    have next : s.fresh.patrolNext = (0, s.fresh) := by rw [State.patrolNext, State.fresh_flash, empty]
    exact acks_of_listRead rfl LDP_PATROL_NEXT_window granted next s.fresh_onlyChanges
  · intro i g rest first
    have next : s.fresh.patrolNext = (trackWord i g 0, s.fresh.modFlash (fun f => { f with patrol := rest })) := by
      rw [State.patrolNext, State.fresh_flash, first]
    exact acks_of_listRead rfl LDP_PATROL_NEXT_window granted next ⟨rfl, State.onlyChanges_of_fresh (State.modFlash_onlyChanges _ _)⟩

/-- LDP_ADVISE_NEXT_READ. -/
theorem ldpAdviseNextRead_acks (granted : s.grants r (LDP_ADVISE_NEXT.key 0 0) false) :
    (s.flash.advise = [] → Acks (.ldpAdviseNextRead r) s r LDP_ADVISE_NEXT.win (leBytes 4 0) (fun t => s.onlyChanges t [.out]))
    ∧ (∀ i g c rest, s.flash.advise = (i, g, c) :: rest →
      Acks (.ldpAdviseNextRead r) s r LDP_ADVISE_NEXT.win (leBytes 4 (trackWord i g c)) (fun t =>
        t.flash = { s.flash with advise := rest } ∧ s.onlyChanges t [.flash, .out])) := by
  constructor
  · intro empty
    have next : s.fresh.adviseNext = (0, s.fresh) := by rw [State.adviseNext, State.fresh_flash, empty]
    exact acks_of_listRead rfl LDP_ADVISE_NEXT_window granted next s.fresh_onlyChanges
  · intro i g c rest first
    have next : s.fresh.adviseNext = (trackWord i g c, s.fresh.modFlash (fun f => { f with advise := rest })) := by
      rw [State.adviseNext, State.fresh_flash, first]
    exact acks_of_listRead rfl LDP_ADVISE_NEXT_window granted next ⟨rfl, State.onlyChanges_of_fresh (State.modFlash_onlyChanges _ _)⟩

end

/-! ### The groups of a LUN (R163) -/

/-- The LUN with another group k. -/
def Lun.setGroup (l : Lun) (k : Nat) (x : Group) : Lun := { l with groups := Tab.put l.groups k x }

theorem Lun.group_setGroup_same (l : Lun) (k : Nat) (x : Group) : (l.setGroup k x).group k = x := Tab.lookD_put_same _ _ _ _

theorem Lun.group_setGroup_other (l : Lun) {j k : Nat} (x : Group) (h : j ≠ k) : (l.setGroup k x).group j = l.group j :=
  Tab.lookD_put_other _ _ _ _ _ h

theorem State.putGroup_eq {s : State} {i : Nat} {l : Lun} (lun : s.lun i = some l) (k : Nat) (x : Group) :
    s.putGroup i k x = s.putLun i (l.setGroup k x) := by
  simp only [State.putGroup, lun, Lun.setGroup]

theorem State.putGroup_onlyChanges (s : State) (i k : Nat) (x : Group) : s.onlyChanges (s.putGroup i k x) [.flash] := by
  simp only [State.putGroup]
  split
  · exact s.onlyChanges_refl _
  · exact s.putLun_onlyChanges _ _

/-- What a table holds after every value has been changed. -/
theorem Tab.look_mapVals {β γ : Type} (f : Nat → β → γ) (t : Tab β) (k : Nat) : Tab.look (Tab.mapVals f t) k = (Tab.look t k).map (f k) := by
  induction t with
  | nil => rfl
  | cons x t ih =>
    obtain ⟨j, v⟩ := x
    simp only [Tab.mapVals, List.map_cons, Tab.look] at ih ⊢
    split
    · next e => rw [e, Option.map_some]
    · exact ih

/-- What a table holds under one of the keys that a fold puts. -/
theorem Tab.look_foldl_put {β : Type} (f : Nat → β) (ks : List Nat) (t : Tab β) (k : Nat) :
    Tab.look (ks.foldl (fun t k => Tab.put t k (f k)) t) k = if k ∈ ks then some (f k) else Tab.look t k := by
  induction ks generalizing t with
  | nil => rfl
  | cons j ks ih =>
    rw [List.foldl_cons, ih]
    by_cases e : k = j
    · subst e
      simp only [Tab.look_put_same, List.mem_cons, true_or, if_true, ite_self]
    · simp only [Tab.look_put_other _ _ _ _ e, List.mem_cons, e, false_or]

/-- A threshold with an offset and its turn, and nothing accumulated. -/
def Thresh.plain (off : Int) (plus : Bool) : Thresh := { Thresh.zero with off := off, plus := plus }

/-- A group that is renewed keeps its thresholds' offsets and turns. -/
theorem Group.th_renew (g : Group) {thr : Tab Thresh} {k : Nat} {x : Thresh} (held : Tab.look thr k = some x) (gen : Nat) :
    (({ g with thr := thr }).renew gen).th k = Thresh.plain x.off x.plus := by
  rw [Group.th, Group.renew, Tab.lookD, Tab.look_mapVals, held, Option.map_some, Option.getD_some, Thresh.plain]

/-! ### Group commands (R172) -/

/-- The LUN, the group and the group to copy that a group command names. -/
abbrev grpLun (w : Nat) : Nat := 64 * bits w 15 11 + 8 * bits w 10 8 + bits w 7 5
abbrev grpNamed (w : Nat) : Nat := bits w 20 16
abbrev grpSource (w : Nat) : Nat := bits w 25 21

/-- The writing master's result. -/
def State.grpAnswered (s : State) (r : Req) (n : Nat) : State := s.modFlash (fun f => { f with grpRes := Tab.put f.grpRes r.master n })

theorem State.grpAnswered_res (s : State) (r : Req) (n : Nat) : Tab.look (s.grpAnswered r n).flash.grpRes r.master = some n := Tab.look_put_same _ _ _

theorem State.lun_grpAnswered (s : State) (r : Req) (n i : Nat) : (s.grpAnswered r n).lun i = s.lun i := rfl

theorem State.reg_grpAnswered (s : State) (r : Req) (n : Nat) (d : RegId) (j : Nat) : (s.grpAnswered r n).reg d j = s.reg d j := rfl

theorem State.grpAnswered_onlyChanges {s t : State} {l : List StateField} (r : Req) (n : Nat) (h : s.fresh.onlyChanges t (.flash :: l)) :
    s.onlyChanges (t.grpAnswered r n) (.flash :: l ++ [.out]) :=
  State.onlyChanges_of_fresh (State.onlyChanges_then h (t.modFlash_onlyChanges _) (fun _ hp => List.mem_cons.mpr (.inl (List.mem_singleton.mp hp))))

theorem acks_of_groupCommand {c : Instr} {s t : State} {r : Req} {op w : Nat} {done : Bool} {P : State → Prop}
    (means : exec c s = (s.fresh.grpWrite r op w).done s) (granted : s.grants r (LDP_GRP_CMD.key 0 0) true)
    (does : s.fresh.grpDo op w = (done, t)) (holds : P (t.grpAnswered r (if done then 1 else 2))) : Acks c s r LDP_GRP_CMD.win [] P := by
  have write := acks_of_write (P := P) means granted (by simpa only [State.grpCmd, does, State.grpAnswered] using holds)
  rwa [show LDP_GRP_CMD.key 0 0 / 0x100000 = LDP_GRP_CMD.win by decide] at write

section
variable {s : State} {w : Nat} {l : Lun} (lun : s.lun (grpLun w) = some l)
  (serves : ¬(Config.fchCount s.part ≤ bits w 15 11 ∨ (!s.flag (FCH_CTRL_ENABLE.chan (bits w 15 11))) = true))
include lun serves

theorem State.grpDo_create (free : (l.group (grpNamed w)).active = false) (mode : bits w 27 26 ≠ 0) :
    s.grpDo 1 w = (true, s.putLun (grpLun w) (l.setGroup (grpNamed w)
      { Group.free with active := true, mode := bits w 27 26, gen := ((l.group (grpNamed w)).gen + 1) % 256 })) := by
  simp only [State.grpDo, lun, if_neg serves, free, Bool.false_eq_true, mode, or_self, if_false, State.putGroup_eq lun]
  rfl

theorem State.grpDo_create_active (active : (l.group (grpNamed w)).active = true) : s.grpDo 1 w = (false, s) := by
  simp only [State.grpDo, lun, if_neg serves, active, true_or, if_true]

theorem State.grpDo_copy (free : (l.group (grpNamed w)).active = false) (source : (l.group (grpSource w)).active = true) :
    s.grpDo 2 w = (true, s.putLun (grpLun w) (l.setGroup (grpNamed w)
      (({ Group.free with active := true, mode := (l.group (grpSource w)).mode, thr := (l.group (grpSource w)).thr }).renew
        (l.group (grpNamed w)).gen))) := by
  simp only [State.grpDo, lun, if_neg serves, free, source, Bool.not_true, Bool.false_eq_true, or_self, if_false, State.putGroup_eq lun]

theorem State.grpDo_free :
    s.grpDo 3 w = (true, s.putLun (grpLun w) (l.setGroup (grpNamed w) { l.group (grpNamed w) with active := false })) := by
  simp only [State.grpDo, lun, if_neg serves, State.putGroup_eq lun]

/-- A group's data in LDP_GRP_DATA. -/
def State.grpShown (s : State) (g : Group) : State := (List.range 4).foldl (fun s j => s.putReg LDP_GRP_DATA (g.dataWord j) j) s

theorem State.grpDo_read : s.grpDo 4 w = (true, s.grpShown (l.group (grpNamed w))) := by
  simp only [State.grpDo, lun, if_neg serves, State.grpShown]

/-- The thresholds with the offsets of LDP_GRP_DATA. -/
def State.grpThresholds (s : State) (g : Group) : Tab Thresh :=
  ((List.range 15).map (fun t => t + 1)).foldl (fun th t => Tab.put th t (Thresh.plain (s.grpOffset t) (g.th t).plus)) []

/-- The group with the offsets of LDP_GRP_DATA. -/
def State.grpWritten (s : State) (g : Group) : Group := ({ g with thr := s.grpThresholds g }).renew g.gen

theorem State.grpDo_write (bounded : ∀ th, 1 ≤ th → th ≤ 15 →
      -(s.fld LDP_TRACK_LIM_OFF_MAX : Int) ≤ s.grpOffset th ∧ s.grpOffset th ≤ s.fld LDP_TRACK_LIM_OFF_MAX) :
    s.grpDo 5 w = (true, s.putLun (grpLun w) (l.setGroup (grpNamed w) (s.grpWritten (l.group (grpNamed w))))) := by
  have inside : ((List.range 15).map (fun t => t + 1)).any (fun t =>
      (s.fld LDP_TRACK_LIM_OFF_MAX : Int) < s.grpOffset t || s.grpOffset t < -(s.fld LDP_TRACK_LIM_OFF_MAX : Int)) = false := by
    rw [List.any_eq_false]
    intro t ht
    obtain ⟨u, hu, rfl⟩ := List.mem_map.mp ht
    obtain ⟨low, high⟩ := bounded (u + 1) (Nat.succ_pos _) (List.mem_range.mp hu)
    rw [Bool.or_eq_true, decide_eq_true_eq, decide_eq_true_eq, not_or, not_lt, not_lt]
    exact ⟨high, low⟩
  simp only [State.grpDo, lun, if_neg serves, inside, Bool.false_eq_true, if_false, State.putGroup_eq lun, State.grpWritten, State.grpThresholds,
    Thresh.plain]

end

theorem State.grpThresholds_look (s : State) (g : Group) {t : Nat} (low : 1 ≤ t) (high : t ≤ 15) :
    Tab.look (s.grpThresholds g) t = some (Thresh.plain (s.grpOffset t) (g.th t).plus) := by
  have named : t ∈ (List.range 15).map (fun t => t + 1) := List.mem_map.mpr ⟨t - 1, List.mem_range.mpr (by omega), by omega⟩
  rw [State.grpThresholds, Tab.look_foldl_put (fun t => Thresh.plain (s.grpOffset t) (g.th t).plus), if_pos named]

theorem State.grpWritten_th (s : State) (g : Group) {t : Nat} (low : 1 ≤ t) (high : t ≤ 15) :
    (s.grpWritten g).th t = Thresh.plain (s.grpOffset t) (g.th t).plus := by
  rw [State.grpWritten, Group.th_renew g (s.grpThresholds_look g low high)]
  rfl

theorem State.grpShown_onlyChanges (s : State) (g : Group) : s.onlyChanges (s.grpShown g) [.regs] :=
  State.foldl_onlyChanges _ (fun u _ => u.setReg_onlyChanges _ _) _ _

/-- Each of the four words of a group's data holds what was put there. -/
theorem State.reg_grpShown (s : State) (g : Group) {j : Nat} (h : j < 4) : (s.grpShown g).reg LDP_GRP_DATA j = g.dataWord j % 2 ^ 32 := by
  have apart : ∀ (u : State) (i j x : Nat), LDP_GRP_DATA.key j 0 ≠ LDP_GRP_DATA.key i 0 →
      (u.putReg LDP_GRP_DATA x i).reg LDP_GRP_DATA j = u.reg LDP_GRP_DATA j := fun u i j x h => u.getReg_setReg_other _ _ _ h
  rw [State.grpShown, show List.range 4 = [0, 1, 2, 3] from rfl]
  simp only [List.foldl_cons, List.foldl_nil]
  match j, h with
  | 0, _ => rw [apart _ _ _ _ (by decide), apart _ _ _ _ (by decide), apart _ _ _ _ (by decide), State.reg_putReg_same]
  | 1, _ => rw [apart _ _ _ _ (by decide), apart _ _ _ _ (by decide), State.reg_putReg_same]
  | 2, _ => rw [apart _ _ _ _ (by decide), State.reg_putReg_same]
  | 3, _ => rw [State.reg_putReg_same]

section
variable {s : State} {r : Req} {w : Nat} {l : Lun} (granted : s.grants r (LDP_GRP_CMD.key 0 0) true) (lun : s.lun (grpLun w) = some l)
  (present : bits w 15 11 < Config.fchCount s.part) (on : s.flag (FCH_CTRL_ENABLE.chan (bits w 15 11)) = true)
include granted lun present on

omit granted lun in
theorem grpChannel_serves :
    ¬(Config.fchCount s.fresh.part ≤ bits w 15 11 ∨ (!s.fresh.flag (FCH_CTRL_ENABLE.chan (bits w 15 11))) = true) :=
  fun h => h.elim (fun h => absurd present (Nat.not_lt.mpr h)) (fun h => by
    rw [show s.fresh.flag (FCH_CTRL_ENABLE.chan (bits w 15 11)) = true from on] at h
    exact absurd h (by decide))

/-- GRP_CREATE of a group that is not active. -/
theorem grpCreate_acks (free : (l.group (grpNamed w)).active = false) (mode : bits w 27 26 ≠ 0) :
    Acks (.grpCreate r w) s r LDP_GRP_CMD.win [] (fun t =>
      (∃ l', t.lun (grpLun w) = some l'
        ∧ l'.group (grpNamed w) = { Group.free with active := true, mode := bits w 27 26, gen := ((l.group (grpNamed w)).gen + 1) % 256 }
        ∧ (∀ j, j ≠ grpNamed w → l'.group j = l.group j)) ∧ Tab.look t.flash.grpRes r.master = some 1 ∧ s.onlyChanges t [.flash, .out]) :=
  acks_of_groupCommand rfl granted (State.grpDo_create (s := s.fresh) lun (grpChannel_serves present on) free mode)
    ⟨⟨_, State.lun_putLun_same _ _ _, Lun.group_setGroup_same _ _ _, fun _ h => Lun.group_setGroup_other _ _ h⟩,
      State.grpAnswered_res _ _ _, State.grpAnswered_onlyChanges _ _ (State.putLun_onlyChanges _ _ _)⟩

/-- GRP_CREATE of an active group is refused. -/
theorem grpCreate_acks_active (active : (l.group (grpNamed w)).active = true) :
    Acks (.grpCreate r w) s r LDP_GRP_CMD.win [] (fun t => t.lun (grpLun w) = some l
      ∧ Tab.look t.flash.grpRes r.master = some 2 ∧ s.onlyChanges t [.flash, .out]) :=
  acks_of_groupCommand rfl granted (State.grpDo_create_active (s := s.fresh) lun (grpChannel_serves present on) active)
    ⟨lun, State.grpAnswered_res _ _ _, State.grpAnswered_onlyChanges (l := []) _ _ (State.onlyChanges_refl _ _)⟩

/-- GRP_COPY of an active group to one that is not. -/
theorem grpCopy_acks (free : (l.group (grpNamed w)).active = false) (source : (l.group (grpSource w)).active = true) :
    Acks (.grpCopy r w) s r LDP_GRP_CMD.win [] (fun t =>
      (∃ l', t.lun (grpLun w) = some l' ∧ (l'.group (grpNamed w)).active = true ∧ (l'.group (grpNamed w)).mode = (l.group (grpSource w)).mode
        ∧ (∀ th x, Tab.look (l.group (grpSource w)).thr th = some x → ((l'.group (grpNamed w)).th th).off = x.off)
        ∧ (l'.group (grpNamed w)).gen = ((l.group (grpNamed w)).gen + 1) % 256
        ∧ (∀ j, j ≠ grpNamed w → l'.group j = l.group j)) ∧ Tab.look t.flash.grpRes r.master = some 1 ∧ s.onlyChanges t [.flash, .out]) := by
  refine acks_of_groupCommand rfl granted (State.grpDo_copy (s := s.fresh) lun (grpChannel_serves present on) free source)
    ⟨⟨_, State.lun_putLun_same _ _ _, ?_, ?_, fun th x held => ?_, ?_, fun _ h => Lun.group_setGroup_other _ _ h⟩,
      State.grpAnswered_res _ _ _, State.grpAnswered_onlyChanges _ _ (State.putLun_onlyChanges _ _ _)⟩
  all_goals rw [Lun.group_setGroup_same]
  · rfl
  · rfl
  · rw [Group.th_renew { Group.free with active := true, mode := (l.group (grpSource w)).mode } held, Thresh.plain]
  · rfl

/-- GRP_FREE. -/
theorem grpFree_acks :
    Acks (.grpFree r w) s r LDP_GRP_CMD.win [] (fun t =>
      (∃ l', t.lun (grpLun w) = some l' ∧ l'.group (grpNamed w) = { l.group (grpNamed w) with active := false }
        ∧ (∀ j, j ≠ grpNamed w → l'.group j = l.group j)) ∧ Tab.look t.flash.grpRes r.master = some 1 ∧ s.onlyChanges t [.flash, .out]) :=
  acks_of_groupCommand rfl granted (State.grpDo_free (s := s.fresh) lun (grpChannel_serves present on))
    ⟨⟨_, State.lun_putLun_same _ _ _, Lun.group_setGroup_same _ _ _, fun _ h => Lun.group_setGroup_other _ _ h⟩,
      State.grpAnswered_res _ _ _, State.grpAnswered_onlyChanges _ _ (State.putLun_onlyChanges _ _ _)⟩

/-- GRP_READ. -/
theorem grpRead_acks :
    Acks (.grpRead r w) s r LDP_GRP_CMD.win [] (fun t => t.lun (grpLun w) = some l
      ∧ (∀ j, j < 4 → t.reg LDP_GRP_DATA j = (l.group (grpNamed w)).dataWord j % 2 ^ 32) ∧ Tab.look t.flash.grpRes r.master = some 1
      ∧ s.onlyChanges t [.flash, .regs, .out]) := by
  have shown := s.fresh.grpShown_onlyChanges (l.group (grpNamed w))
  have same : (s.fresh.grpShown (l.group (grpNamed w))).flash = s.flash := shown .flash (by decide)
  refine acks_of_groupCommand rfl granted (State.grpDo_read (s := s.fresh) lun (grpChannel_serves present on)) ⟨?_,
    fun j h => ((s.fresh.grpShown _).reg_grpAnswered r 1 _ j).trans (s.fresh.reg_grpShown _ h),
    State.grpAnswered_res _ _ _, State.grpAnswered_onlyChanges (l := [.regs]) _ _ (State.onlyChanges_mono shown (by decide))⟩
  rw [State.lun_grpAnswered, State.lun, same]
  exact lun

/-- GRP_WRITE of offsets within OFF_MAX. -/
theorem grpWrite_acks (bounded : ∀ th, 1 ≤ th → th ≤ 15 →
      -(s.fld LDP_TRACK_LIM_OFF_MAX : Int) ≤ s.grpOffset th ∧ s.grpOffset th ≤ s.fld LDP_TRACK_LIM_OFF_MAX) :
    Acks (.grpWrite r w) s r LDP_GRP_CMD.win [] (fun t =>
      (∃ l', t.lun (grpLun w) = some l' ∧ (∀ th, 1 ≤ th → th ≤ 15 →
          (l'.group (grpNamed w)).th th = { Thresh.zero with off := s.grpOffset th, plus := ((l.group (grpNamed w)).th th).plus })
        ∧ (l'.group (grpNamed w)).active = (l.group (grpNamed w)).active ∧ (l'.group (grpNamed w)).mode = (l.group (grpNamed w)).mode
        ∧ (l'.group (grpNamed w)).gen = ((l.group (grpNamed w)).gen + 1) % 256 ∧ (∀ j, j ≠ grpNamed w → l'.group j = l.group j))
      ∧ Tab.look t.flash.grpRes r.master = some 1 ∧ s.onlyChanges t [.flash, .out]) := by
  refine acks_of_groupCommand rfl granted (State.grpDo_write (s := s.fresh) lun (grpChannel_serves present on) bounded)
    ⟨⟨_, State.lun_putLun_same _ _ _, fun th low high => ?_, ?_, ?_, ?_, fun _ h => Lun.group_setGroup_other _ _ h⟩,
      State.grpAnswered_res _ _ _, State.grpAnswered_onlyChanges _ _ (State.putLun_onlyChanges _ _ _)⟩
  all_goals rw [Lun.group_setGroup_same]
  · exact s.fresh.grpWritten_th _ low high
  all_goals rfl

end

end Sys2Proof.Machine
end

section
/-!
SUPPORT. Retraining of a channel's dies, and the status of a channel (R146, R148).
-/
namespace Sys2Proof.Machine

/-! ### Folds over LUNs -/

/-- A LUN after a fold of steps is one that a step has made, or one that was there and that every step passed over. -/
theorem State.lun_foldl {α : Type} {f : State → α → State} {skips : α → Nat → Prop} {made : α → Nat → Lun → Prop}
    (step : ∀ u a j x, (f u a).lun j = some x → u.lun j = some x ∧ skips a j ∨ made a j x) (as : List α) (u : State) {j : Nat} {x : Lun}
    (found : (as.foldl f u).lun j = some x) : (u.lun j = some x ∧ ∀ a ∈ as, skips a j) ∨ ∃ a ∈ as, made a j x := by
  induction as generalizing u with
  | nil => exact .inl ⟨found, fun _ h => absurd h List.not_mem_nil⟩
  | cons a as ih =>
    rcases ih (f u a) found with ⟨held, rest⟩ | ⟨b, hb, mk⟩
    · rcases step u a j x held with ⟨held, skip⟩ | mk
      · exact .inl ⟨held, List.forall_mem_cons.mpr ⟨skip, rest⟩⟩
      · exact .inr ⟨a, List.mem_cons_self, mk⟩
    · exact .inr ⟨b, List.mem_cons_of_mem a hb, mk⟩

/-! ### The status of a channel (R146) -/

theorem State.chanStatus_onlyChanges (s : State) (n : Nat) : s.onlyChanges (s.chanStatus n) [.regs] := by
  simp only [State.chanStatus]
  exact State.onlyChanges_trans (State.onlyChanges_trans (State.onlyChanges_trans (s.setFld_onlyChanges _ _ _ _) (State.setFld_onlyChanges _ _ _ _ _))
    (State.setFld_onlyChanges _ _ _ _ _)) (State.setFld_onlyChanges _ _ _ _ _)

theorem State.setFld_chan_regsBut (s : State) {f : Field} {d : RegId} (reg : f.reg = d) (n v : Nat) :
    s.regsBut (s.setFld (f.chan n) v) [(d.chan n).key 0 0] := by
  rw [← reg]
  exact s.setFld_regsBut (f.chan n) v 0 0

theorem State.chanStatus_regsBut (s : State) (n : Nat) : s.regsBut (s.chanStatus n) [(FCH_STAT.chan n).key 0 0] := by
  simp only [State.chanStatus]
  have state := fun (u : State) v => u.setFld_chan_regsBut (f := FCH_STAT_STATE) rfl n v
  have rate := fun (u : State) v => u.setFld_chan_regsBut (f := FCH_STAT_RATE) rfl n v
  have ext := fun (u : State) v => u.setFld_chan_regsBut (f := FCH_STAT_EXT) rfl n v
  have iface := fun (u : State) v => u.setFld_chan_regsBut (f := FCH_STAT_IFACE) rfl n v
  exact State.regsBut_trans (State.regsBut_trans (State.regsBut_trans (state _ _) (rate _ _)) (ext _ _)) (iface _ _)

/-- A channel none of whose LUNs is in use has failed. -/
theorem State.chanStatus_failed {s : State} {n : Nat} (unused : s.flash.luns.filter (fun kv => kv.1 / 64 = n && kv.2.status = 1) = []) :
    (s.chanStatus n).fld (FCH_STAT_STATE.chan n) = 4 := by
  simp only [State.chanStatus, unused]
  rw [State.fld_setFld_beside _ (FCH_STAT_IFACE.chan n) (FCH_STAT_STATE.chan n) _ _ _ rfl (show 31 < 32 by decide) (.inl (show 28 < 29 ∧ 28 ≤ 28 by decide)),
    State.fld_setFld_beside _ (FCH_STAT_EXT.chan n) (FCH_STAT_STATE.chan n) _ _ _ rfl (show 31 < 32 by decide) (.inl (show 27 < 29 ∧ 27 ≤ 27 by decide)),
    State.fld_setFld_beside _ (FCH_STAT_RATE.chan n) (FCH_STAT_STATE.chan n) _ _ _ rfl (show 31 < 32 by decide) (.inl (show 23 < 29 ∧ 20 ≤ 23 by decide))]
  exact State.fld_setFld_same _ _ _ _ _ (show 31 < 32 by decide)

/-! ### Retraining (R148) -/

/-- What a retraining finds is free, and all that it finds are a die's margins (log entry 188). -/
theorem State.flashMargins_shape (s : State) : ∃ a b c d e, ∀ l, s.flashMargins.1 l =
    { l with rdEyeW := a, wrEyeW := b, rdEyeH := c, wrEyeH := d, vref := e } := ⟨_, _, _, _, _, fun _ => rfl⟩

theorem State.flashMargins_onlyChanges (s : State) : s.onlyChanges s.flashMargins.2 [.freeCtr] := by
  rw [show s.flashMargins.2 = (((((s.draw 256).2.draw 256).2.draw 65536).2.draw 65536).2.draw 65536).2 from rfl]
  exact State.onlyChanges_trans (State.onlyChanges_trans (State.onlyChanges_trans (State.onlyChanges_trans (s.draw_onlyChanges _)
    (State.draw_onlyChanges _ _)) (State.draw_onlyChanges _ _)) (State.draw_onlyChanges _ _)) (State.draw_onlyChanges _ _)

/-- A die in use of a channel whose retraining failed is retrained at a rate of at most r. -/
def State.slowed (s : State) (i r : Nat) (tempC : Int) (kv : Nat × Lun) : State :=
  if kv.2.status ≠ 1 then s
  else (s.flashMargins.2.draw 256).2.putLun kv.1 { s.flashMargins.1 kv.2 with
    rate := min kv.2.rate r, trainedAt := s.time, temp := if kv.1 = i then tempC else toSigned 8 (s.flashMargins.2.draw 256).1 }

theorem State.slowed_onlyChanges (s : State) (i r : Nat) (tempC : Int) (kv : Nat × Lun) : s.onlyChanges (s.slowed i r tempC kv) [.freeCtr, .flash] :=
  State.onlyChanges_ite _ (s.onlyChanges_refl _) (State.onlyChanges_append (State.onlyChanges_trans s.flashMargins_onlyChanges
    (State.draw_onlyChanges _ _)) (State.putLun_onlyChanges _ _ _))

theorem State.slowed_lun (s : State) (i r : Nat) (tempC : Int) (kv : Nat × Lun) (j : Nat) (x : Lun) (found : (s.slowed i r tempC kv).lun j = some x) :
    s.lun j = some x ∧ (kv.1 = j → kv.2.status ≠ 1) ∨ x.rate ≤ r := by
  rw [State.slowed] at found
  split at found
  · next unused => exact .inl ⟨found, fun _ => unused⟩
  · rw [State.lun_putLun] at found
    split at found
    · exact .inr (Option.some.inj found ▸ min_le_right _ _)
    · next other => exact .inl ⟨found, fun same => absurd same.symm other⟩

/-- Every die of the channel is retrained at a rate of at most r. -/
def State.chanSlowed (s : State) (i r : Nat) (tempC : Int) : State := (s.chanLuns (i / 64)).foldl (fun s kv => s.slowed i r tempC kv) s

theorem State.chanSlowed_onlyChanges (s : State) (i r : Nat) (tempC : Int) : s.onlyChanges (s.chanSlowed i r tempC) [.freeCtr, .flash] :=
  State.foldl_onlyChanges _ (fun u kv => u.slowed_onlyChanges i r tempC kv) _ _

/-- No die of the channel is in use at a higher rate. -/
theorem State.chanSlowed_rate {s : State} {i r j : Nat} {tempC : Int} {x : Lun} (found : (s.chanSlowed i r tempC).lun j = some x)
    (chan : j / 64 = i / 64) (used : x.status = 1) : x.rate ≤ r := by
  rcases State.lun_foldl (fun u kv j x => u.slowed_lun i r tempC kv j x) _ s found with ⟨held, skipped⟩ | ⟨_, _, slow⟩
  · have listed : (j, x) ∈ s.chanLuns (i / 64) := List.mem_filter.mpr ⟨Tab.mem_of_look held, decide_eq_true chan⟩
    exact absurd used (skipped _ listed rfl)
  · exact slow

/-- A die has been retrained. -/
def State.trained (s : State) (i : Nat) (l : Lun) (tempC : Int) : State :=
  s.flashMargins.2.putLun i { s.flashMargins.1 l with trainedAt := s.flashMargins.2.time, temp := tempC }

theorem State.trained_lun (s : State) (i : Nat) (l : Lun) (tempC : Int) : ∃ a b c d e, (s.trained i l tempC).lun i = some { l with
    rdEyeW := a, wrEyeW := b, rdEyeH := c, wrEyeH := d, vref := e, trainedAt := s.time, temp := tempC } := by
  obtain ⟨a, b, c, d, e, shape⟩ := s.flashMargins_shape
  exact ⟨a, b, c, d, e, by rw [State.trained, State.lun_putLun_same, shape, s.flashMargins_onlyChanges .time (by decide)]⟩

theorem State.trained_lun_other (s : State) {i j : Nat} (l : Lun) (tempC : Int) (h : j ≠ i) : (s.trained i l tempC).lun j = s.lun j := by
  rw [State.trained, State.lun_putLun_other _ _ h, State.lun, s.flashMargins_onlyChanges .flash (by decide), State.lun]

theorem State.trained_onlyChanges (s : State) (i : Nat) (l : Lun) (tempC : Int) : s.onlyChanges (s.trained i l tempC) [.freeCtr, .flash] :=
  State.onlyChanges_append s.flashMargins_onlyChanges (State.putLun_onlyChanges _ _ _)

/-- The rate of a channel one of whose dies failed its retraining. -/
def State.lowerRate (s : State) (n : Nat) : Nat := max 1 (s.fld (FCH_STAT_RATE.chan n) - 1)

/-- A die has failed its retraining: its channel runs at a lower rate. -/
def State.rateLowered (s : State) (i : Nat) (tempC : Int) : State :=
  ((s.chanSlowed i (s.lowerRate (i / 64)) tempC).chanStatus (i / 64)).raise (224 + 4 * (i / 64)) 3 [i % 64, s.lowerRate (i / 64)]

theorem State.rateLowered_rate {s : State} {i j : Nat} {tempC : Int} {x : Lun} (found : (s.rateLowered i tempC).lun j = some x)
    (chan : j / 64 = i / 64) (used : x.status = 1) : x.rate ≤ s.lowerRate (i / 64) := by
  rw [State.rateLowered, State.lun, State.raise_flash, State.chanStatus_onlyChanges _ _ .flash (by decide)] at found
  exact State.chanSlowed_rate found chan used

theorem State.rateLowered_inbox (s : State) (i : Nat) (tempC : Int) : (s.rateLowered i tempC).evt.inbox =
    s.evt.inbox ++ [⟨224 + 4 * (i / 64), 3, [i % 64, s.lowerRate (i / 64)], none, 0, s.time⟩] := by
  have slow := State.onlyChanges_append (s.chanSlowed_onlyChanges i (s.lowerRate (i / 64)) tempC) (State.chanStatus_onlyChanges _ (i / 64))
  rw [State.rateLowered, State.raise_inbox, slow .evt (by decide), slow .time (by decide)]

theorem State.rateLowered_onlyChanges (s : State) (i : Nat) (tempC : Int) :
    s.onlyChanges (s.rateLowered i tempC) [.freeCtr, .flash, .regs, .evt] :=
  State.onlyChanges_append (State.onlyChanges_append (s.chanSlowed_onlyChanges i _ tempC) (State.chanStatus_onlyChanges _ _))
    (State.raise_onlyChanges _ _ _ _)

theorem State.retrain_eq {s : State} {i : Nat} {l : Lun} (lun : s.lun i = some l) (ok : Bool) (tempC : Int) : s.retrain i ok tempC =
    if ok then (s.bgCharge 0 (i / 64) 60000).trained i l tempC else (s.bgCharge 0 (i / 64) 60000).rateLowered i tempC := by
  have slow : ∀ (u : State) (r : Nat) (kv : Nat × Lun), u.slowed i r tempC kv = if kv.2.status ≠ 1 then u
      else (u.flashMargins.2.draw 256).2.putLun kv.1 { u.flashMargins.1 kv.2 with
        rate := min kv.2.rate r, trainedAt := (u.flashMargins.2.draw 256).2.time,
        temp := if kv.1 = i then tempC else toSigned 8 (u.flashMargins.2.draw 256).1 } := fun _ _ _ => rfl
  simp only [State.retrain, lun, State.trained, State.rateLowered, State.lowerRate, State.chanSlowed, State.chanLuns, slow]

/-- When a retraining ends, RETRAIN_H hours after the die's last training. -/
def State.retrainEnds (s : State) (i : Nat) (l : Lun) : Nat := max s.time (l.trainedAt + s.fld (FCH_CTRL_RETRAIN_H.chan (i / 64)) * 3600000000000)

/-- The state at the end of a retraining, its channel's share charged. -/
def State.retrainBegun (s : State) (i : Nat) (l : Lun) : State :=
  (s.notBefore (l.trainedAt + s.fld (FCH_CTRL_RETRAIN_H.chan (i / 64)) * 3600000000000)).bgCharge 0 (i / 64) 60000

theorem State.retrainBegun_onlyChanges (s : State) (i : Nat) (l : Lun) : s.onlyChanges (s.retrainBegun i l) [.time, .bg] :=
  State.onlyChanges_append (s.notBefore_onlyChanges _) (State.bgCharge_onlyChanges _ _ _ _)

theorem State.retrainBegun_time (s : State) (i : Nat) (l : Lun) : (s.retrainBegun i l).time = s.retrainEnds i l := rfl

theorem State.retrainBegun_lowerRate (s : State) (i : Nat) (l : Lun) :
    (s.retrainBegun i l).lowerRate (i / 64) = max 1 (s.fld (FCH_STAT_RATE.chan (i / 64)) - 1) := by
  have begun := s.retrainBegun_onlyChanges i l
  rw [State.lowerRate, State.fld_congr _ _ (begun .regs (by decide)) (begun .part (by decide))]

section
variable {s : State} {i : Nat} {l : Lun} (tempC : Int) (lun : s.lun i = some l) (used : l.status = 1)
include lun used

theorem exec_dieRetrainPeriodic (ok : Bool) : exec (.dieRetrainPeriodic i ok tempC) s =
    (if ok then (s.fresh.retrainBegun i l).trained i l tempC else (s.fresh.retrainBegun i l).rateLowered i tempC).done s := by
  have lun' : s.fresh.lun i = some l := lun
  show execDieRetrainPeriodic i ok tempC s = _
  simp only [execDieRetrainPeriodic, lun', used, if_true, State.retrainBegun]
  rw [State.retrain_eq (s := s.fresh.notBefore _) lun]

/-- DIE_RETRAIN_PERIODIC of a die that has been retrained. -/
theorem dieRetrainPeriodic_trained : Completes (.dieRetrainPeriodic i true tempC) s (fun t => t.time = s.retrainEnds i l
    ∧ (∃ a b c d e, t.lun i = some { l with
        rdEyeW := a, wrEyeW := b, rdEyeH := c, wrEyeH := d, vref := e, trainedAt := s.retrainEnds i l, temp := tempC })
    ∧ (∀ j, j ≠ i → t.lun j = s.lun j) ∧ s.onlyChanges t [.flash, .bg, .freeCtr, .time, .out]) := by
  have begun := s.fresh.retrainBegun_onlyChanges i l
  have trained := (s.fresh.retrainBegun i l).trained_onlyChanges i l tempC
  refine completes_of_done (exec_dieRetrainPeriodic tempC lun used true) ⟨trained .time (by decide),
    (s.fresh.retrainBegun i l).trained_lun i l tempC, fun j other => ?_,
    State.onlyChanges_mono (State.onlyChanges_of_fresh (State.onlyChanges_append begun trained)) (by decide)⟩
  exact ((s.fresh.retrainBegun i l).trained_lun_other l tempC other).trans (by rw [State.lun, begun .flash (by decide)]; rfl)

/-- DIE_RETRAIN_PERIODIC of a die whose retraining failed lowers its channel's rate. -/
theorem dieRetrainPeriodic_failed : Completes (.dieRetrainPeriodic i false tempC) s (fun t =>
    (∀ j x, t.lun j = some x → j / 64 = i / 64 → x.status = 1 → x.rate ≤ max 1 (s.fld (FCH_STAT_RATE.chan (i / 64)) - 1))
    ∧ t.evt.inbox = s.evt.inbox
      ++ [⟨224 + 4 * (i / 64), 3, [i % 64, max 1 (s.fld (FCH_STAT_RATE.chan (i / 64)) - 1)], none, 0, s.retrainEnds i l⟩]
    ∧ t.time = s.retrainEnds i l ∧ s.onlyChanges t [.flash, .bg, .freeCtr, .time, .regs, .evt, .out]) := by
  have begun := s.fresh.retrainBegun_onlyChanges i l
  have lowered := (s.fresh.retrainBegun i l).rateLowered_onlyChanges i tempC
  have rate : (s.fresh.retrainBegun i l).lowerRate (i / 64) = max 1 (s.fld (FCH_STAT_RATE.chan (i / 64)) - 1) := s.fresh.retrainBegun_lowerRate i l
  have inbox := (s.fresh.retrainBegun i l).rateLowered_inbox i tempC
  rw [rate, begun .evt (by decide)] at inbox
  exact completes_of_done (exec_dieRetrainPeriodic tempC lun used false) ⟨fun j x found chan used => rate ▸ State.rateLowered_rate found chan used,
    inbox, lowered .time (by decide), State.onlyChanges_mono (State.onlyChanges_of_fresh (State.onlyChanges_append begun lowered)) (by decide)⟩

end

end Sys2Proof.Machine
end

section
/-!
SUPPORT. Discovery: the dies that answered, their judgement, and what is reported of them (R142-R147).
-/
namespace Sys2Proof.Machine

/-! ### Blocks that are retired (R210) -/

/-- A change, and on a condition another one. -/
theorem State.onlyChanges_or {s t u : State} {l : List StateField} (h : s.onlyChanges t l) (p : Prop) [Decidable p] (g : t.onlyChanges u l) :
    s.onlyChanges (if p then u else t) l :=
  State.onlyChanges_ite p (State.onlyChanges_trans h g) h

/-- A mark and its event. -/
theorem State.ftlRaise_onlyChanges (s : State) (f : FtlState → FtlState) (n c : Nat) (l : List Nat) :
    s.onlyChanges ((s.modFtl f).raise n c l) [.regs, .ftl, .evt] :=
  State.onlyChanges_mono (State.onlyChanges_append (s.modFtl_onlyChanges f) (State.raise_onlyChanges _ n c l)) (by decide)

theorem State.readOnlyMode_onlyChanges (s : State) (a : Nat) :
    s.onlyChanges (((s.modFtl (fun f => { f with readOnly := true })).setFld FTL_STAT_STATE 5).raise 357 3 [a]) [.regs, .ftl, .evt] :=
  State.onlyChanges_mono (State.onlyChanges_append (State.onlyChanges_append (s.modFtl_onlyChanges _) (State.setFld_onlyChanges _ _ _ _ _))
    (State.raise_onlyChanges _ _ _ _)) (by decide)

theorem State.spareCheck_onlyChanges (s : State) : s.onlyChanges s.spareCheck [.regs, .ftl, .evt] :=
  State.onlyChanges_or (State.onlyChanges_or (State.onlyChanges_or
    (State.onlyChanges_mono (State.onlyChanges_trans (s.setFld_onlyChanges _ _ _ _) (State.setFld_onlyChanges _ _ _ _ _)) (by decide))
    _ (State.ftlRaise_onlyChanges _ _ _ _ _)) _ (State.ftlRaise_onlyChanges _ _ _ _ _)) _ (State.readOnlyMode_onlyChanges _ _)

/-- A block enters the bad-block table while there is room. -/
def State.badListed (s : State) (i b c : Nat) : State :=
  if s.nv.badTable.length < 524288 then
    { s with nv := { s.nv with badTable := s.nv.badTable ++ [i * 2 ^ 53 + b * 2 ^ 33 + c * 2 ^ 30 + s.time / 3600000000000 % 2 ^ 30] } }
  else s

/-- A block enters the RETIRED pool and is counted. -/
def State.blkRetired (s : State) (i b : Nat) : State := (s.putBlk i b { s.blk i b with pool := 6 }).countS FTL_ERR_STAT_RETIRED FTL_ERR_STAT_OVF 1

/-- A bad-block table close to full is reported once. -/
def State.badTableWarned (s : State) (i b : Nat) : State :=
  if 498074 ≤ s.nv.badTable.length ∧ !s.ftl.badWarned then (s.modFtl (fun f => { f with badWarned := true })).raise 356 3 [i, b] else s

theorem State.retire_eq (s : State) (i b c : Nat) : s.retire i b c = (((s.badListed i b c).blkRetired i b).badTableWarned i b).spareCheck := rfl

theorem State.retire_onlyChanges (s : State) (i b c : Nat) : s.onlyChanges (s.retire i b c) [.nv, .ftl, .regs, .evt] := by
  have listed : s.onlyChanges (s.badListed i b c) [.nv] := State.onlyChanges_ite _ (s.nv_onlyChanges _) (s.onlyChanges_refl _)
  have retired : ∀ u : State, u.onlyChanges (u.blkRetired i b) [.ftl, .regs] := fun u =>
    State.onlyChanges_append (u.putBlk_onlyChanges _ _ _) (State.countS_onlyChanges _ _ _ _ _ _)
  have warned : ∀ u : State, u.onlyChanges (u.badTableWarned i b) [.regs, .ftl, .evt] := fun u =>
    State.onlyChanges_ite _ (u.ftlRaise_onlyChanges _ _ _ _) (u.onlyChanges_refl _)
  rw [State.retire_eq]
  exact State.onlyChanges_mono (State.onlyChanges_append (State.onlyChanges_append (State.onlyChanges_append listed (retired _)) (warned _))
    (State.spareCheck_onlyChanges _)) (by decide)

theorem State.factoryBad_onlyChanges (s : State) (i : Nat) (d : DieReport) : s.onlyChanges (s.factoryBad i d) [.nv, .ftl, .regs, .evt] := by
  simp only [State.factoryBad]
  split
  · exact s.onlyChanges_refl _
  · split
    · exact s.onlyChanges_refl _
    · exact State.foldl_onlyChanges _ (fun u b => State.onlyChanges_ite _ (u.onlyChanges_refl _) (u.retire_onlyChanges i b 1)) _ _

/-! ### Discovery (R142-R147) -/

/-- The dies that answered. -/
def answering (dies : List DieReport) : List DieReport := dies.filter (fun d => d.answers && d.die < 64)

/-- The channel's LUNs are forgotten. -/
def State.chanForgotten (s : State) (n : Nat) : State := (s.phaseTo 5).modFlash (fun f => { f with luns := Tab.keep (fun i _ => i / 64 ≠ n) f.luns })

/-- The channel holds the LUNs of the dies that answered. -/
def State.diesFound (s : State) (n : Nat) (dies : List DieReport) : State :=
  (answering dies).foldl (fun s d => s.putLun (64 * n + d.die) (s.lunOf n d)) (s.chanForgotten n)

/-- The LUNs that a discovery judges. -/
def State.judgeable (s : State) : List (Nat × Lun) := s.flash.luns.filter (fun kv => kv.2.status = 1 || kv.2.status = 2)

/-- A LUN after its judgement. -/
def State.judgedLun (s : State) (kv : Nat × Lun) : Lun :=
  { kv.2 with status := if s.exclCauseOf kv.1 kv.2 = 0 then 1 else 2, exclCause := s.exclCauseOf kv.1 kv.2 }

/-- A LUN is judged by what s holds, and an exclusion is reported. -/
def State.judge (s : State) (n : Nat) (a : State) (kv : Nat × Lun) : State :=
  let a := a.putLun kv.1 (s.judgedLun kv)
  if s.exclCauseOf kv.1 kv.2 ≠ 0 ∧ (if kv.1 / 64 = n then 0 else kv.2.exclCause) = 0 then
    a.raise (224 + 4 * (kv.1 / 64)) 1 [kv.1 % 64, s.exclCauseOf kv.1 kv.2]
  else a

/-- Every LUN has been judged. -/
def State.judgedAll (s : State) (n : Nat) : State := s.judgeable.foldl (fun a kv => s.judge n a kv) s

/-- A die that runs below the rate it offered is reported. -/
def State.rateReported (s : State) (n : Nat) (d : DieReport) : State :=
  match s.lun (64 * n + d.die) with
  | some l => if l.status = 1 ∧ l.rate < l.ext then s.raise (224 + 4 * n) 2 [d.die, l.rate] else s
  | none => s

/-- Each die expected that did not answer is reported. -/
def State.missingReported (s : State) (n : Nat) (dies : List DieReport) : State :=
  (dies.filter (fun d => !d.answers && decide (d.die < 64))).foldl (fun (a : State) d => a.raise (224 + 4 * n) 1 [d.die, 1]) s

/-- What a discovery reports of the channel's dies. -/
def State.diesReported (s : State) (n : Nat) (dies : List DieReport) : State :=
  ((answering dies).foldl (fun (a : State) d => a.rateReported n d)
    ((answering dies).foldl (fun (a : State) d => a.factoryBad (64 * n + d.die) d) s)).missingReported n dies

/-- The status of the channels named, of each once. -/
def State.chansSet (s : State) (ns : List Nat) : State := (podsOf ns).foldl (fun a k => a.chanStatus k) s

/-- A channel that has failed is reported. -/
def State.failureReported (s : State) (n : Nat) : State := if s.fld (FCH_STAT_STATE.chan n) = 4 then s.raise (224 + 4 * n) 4 [0, 0] else s

theorem State.discovered_eq {s : State} {n : Nat} (dies : List DieReport) (present : n < Config.fchCount s.part)
    (on : s.fld PWR_FPG_STAT_STATE (n / 2) = 2) : s.discovered n dies =
      let u := s.diesFound n dies
      (((u.judgedAll n).diesReported n dies).chansSet (u.judgeable.map (fun kv => kv.1 / 64) ++ [n])).failureReported n := by
  have runs : ¬(Config.fchCount s.part ≤ n ∨ s.fld PWR_FPG_STAT_STATE (n / 2) ≠ 2) :=
    fun h => h.elim (fun h => absurd present (Nat.not_lt.mpr h)) (fun h => h on)
  simp only [State.discovered, if_neg runs, State.failureReported, State.chansSet, State.diesReported, State.missingReported, State.rateReported,
    State.judgedAll, State.judge, State.judgedLun, State.judgeable, State.diesFound, State.chanForgotten, answering] <;> rfl

section
variable (s : State) (n : Nat) (dies : List DieReport)

/-! ### The LUNs of a channel after its discovery -/

theorem State.chanForgotten_onlyChanges : s.onlyChanges (s.chanForgotten n) [.regs, .flash] :=
  State.onlyChanges_append (s.phaseTo_onlyChanges 5) (State.modFlash_onlyChanges _ _)

theorem State.diesFound_onlyChanges : s.onlyChanges (s.diesFound n dies) [.regs, .flash] :=
  State.onlyChanges_then (s.chanForgotten_onlyChanges n) (State.foldl_onlyChanges _ (fun u d => u.putLun_onlyChanges _ _) _ _) (by decide)

/-- A die in use has no exclusion cause, and a die excluded has one. -/
def Lun.judged (l : Lun) : Prop := l.status = 1 ∧ l.exclCause = 0 ∨ l.status = 2 ∧ l.exclCause ≠ 0

/-- The LUN of a die holds what the die's parameter page gives. -/
theorem State.lunOf_page {d : DieReport} (ok : d.pageOk = true) : (s.lunOf n d).blocks = d.blocks ∧ (s.lunOf n d).pages = d.pages := by
  simp only [State.lunOf, ok, if_true, and_self]

theorem State.lunOf_status (d : DieReport) : (s.lunOf n d).status = 1 ∨ (s.lunOf n d).status = 2 := by
  simp only [State.lunOf]
  split
  · exact .inl rfl
  · exact .inr rfl

/-- A LUN of the channel is that of a die that answered. -/
def ofDie (n : Nat) (dies : List DieReport) (kv : Nat × Lun) : Prop := ∃ d ∈ answering dies, ∃ u : State, kv = (64 * n + d.die, u.lunOf n d)

variable {s n dies}

theorem State.chanForgotten_luns {kv : Nat × Lun} (listed : kv ∈ (s.chanForgotten n).flash.luns) : kv.1 / 64 ≠ n :=
  of_decide_eq_true (List.mem_filter.mp listed).2

theorem State.mem_luns_foldl_putLun {α : Type} {key : α → Nat} {lun : State → α → Lun} {as : List α} {u : State} {kv : Nat × Lun}
    (listed : kv ∈ (as.foldl (fun u a => u.putLun (key a) (lun u a)) u).flash.luns) :
    kv ∈ u.flash.luns ∨ ∃ a ∈ as, ∃ v : State, kv = (key a, lun v a) := by
  induction as generalizing u with
  | nil => exact .inl listed
  | cons a as ih =>
    rcases ih listed with held | ⟨b, hb, made⟩
    · rcases Tab.mem_put _ _ _ _ held with made | held
      · exact .inr ⟨a, List.mem_cons_self, u, made⟩
      · exact .inl held
    · exact .inr ⟨b, List.mem_cons_of_mem a hb, made⟩

theorem State.diesFound_luns {kv : Nat × Lun} (listed : kv ∈ (s.diesFound n dies).flash.luns) (chan : kv.1 / 64 = n) : ofDie n dies kv :=
  (State.mem_luns_foldl_putLun listed).resolve_left (fun h => State.chanForgotten_luns h chan)

theorem ofDie.status {kv : Nat × Lun} (of : ofDie n dies kv) : kv.2.status = 1 ∨ kv.2.status = 2 := by
  obtain ⟨d, _, u, rfl⟩ := of
  exact u.lunOf_status n d

theorem ofDie.die {kv : Nat × Lun} (of : ofDie n dies kv) : ∃ d ∈ dies, d.answers = true ∧ kv.1 = 64 * n + d.die
    ∧ (d.pageOk = true → kv.2.blocks = d.blocks ∧ kv.2.pages = d.pages) := by
  obtain ⟨d, found, u, rfl⟩ := of
  obtain ⟨listed, answers⟩ := List.mem_filter.mp found
  exact ⟨d, listed, (Bool.and_eq_true_iff.mp answers).1, rfl, u.lunOf_page n⟩

/-! ### The judgement -/

theorem State.judge_flash (u : State) (n : Nat) (a : State) (kv : Nat × Lun) : (u.judge n a kv).flash = (a.putLun kv.1 (u.judgedLun kv)).flash :=
  State.onlyChanges_or (State.onlyChanges_refl _ [.evt]) _ (State.raise_onlyChanges _ _ _ _) .flash (by decide)

theorem State.judge_lun (u : State) (n : Nat) (a : State) (kv : Nat × Lun) (j : Nat) (x : Lun) (found : (u.judge n a kv).lun j = some x) :
    a.lun j = some x ∧ kv.1 ≠ j ∨ kv.1 = j ∧ x = u.judgedLun kv := by
  rw [State.lun, State.judge_flash, ← State.lun, State.lun_putLun] at found
  split at found
  · next e => exact .inr ⟨e.symm, (Option.some.inj found).symm⟩
  · next ne => exact .inl ⟨found, Ne.symm ne⟩

theorem State.judge_luns (u : State) (n : Nat) (a : State) (kv x : Nat × Lun) (listed : x ∈ (u.judge n a kv).flash.luns) :
    x.1 = kv.1 ∨ x ∈ a.flash.luns := by
  rw [State.judge_flash] at listed
  rcases Tab.mem_put _ _ _ _ listed with rfl | held
  · exact .inl rfl
  · exact .inr held

theorem State.judge_onlyChanges (u : State) (n : Nat) (a : State) (kv : Nat × Lun) : a.onlyChanges (u.judge n a kv) [.flash, .evt] :=
  State.onlyChanges_or (State.onlyChanges_mono (a.putLun_onlyChanges _ _) (by decide)) _
    (State.onlyChanges_mono (State.raise_onlyChanges _ _ _ _) (by decide))

theorem State.judgedAll_onlyChanges (u : State) (n : Nat) : u.onlyChanges (u.judgedAll n) [.flash, .evt] :=
  State.foldl_onlyChanges _ (fun a kv => u.judge_onlyChanges n a kv) _ _

theorem State.judgedLun_judged (u : State) (kv : Nat × Lun) : (u.judgedLun kv).judged := by
  by_cases fits : u.exclCauseOf kv.1 kv.2 = 0
  · exact .inl ⟨if_pos fits, fits⟩
  · exact .inr ⟨if_neg fits, fits⟩

/-- A LUN of the channel after the judgement is that of a die that answered, judged. -/
theorem State.judgedAll_lun {i : Nat} {l : Lun} (found : ((s.diesFound n dies).judgedAll n).lun i = some l) (chan : i / 64 = n) :
    (∃ d ∈ dies, d.answers = true ∧ i = 64 * n + d.die ∧ (d.pageOk = true → l.blocks = d.blocks ∧ l.pages = d.pages)) ∧ l.judged := by
  let u := s.diesFound n dies
  rcases State.lun_foldl (fun a kv j x => u.judge_lun n a kv j x) _ u found with ⟨held, passed⟩ | ⟨⟨k, x⟩, candidate, rfl, rfl⟩
  · have listed := Tab.mem_of_look held
    have status : (l.status = 1 || l.status = 2) = true := by
      rw [Bool.or_eq_true, decide_eq_true_eq, decide_eq_true_eq]
      exact (State.diesFound_luns listed chan).status
    exact absurd rfl (passed (i, l) (List.mem_filter.mpr ⟨listed, status⟩))
  · exact ⟨(State.diesFound_luns (List.mem_filter.mp candidate).1 chan).die, u.judgedLun_judged _⟩

/-- The judgement leaves the numbers of the LUNs as they are. -/
theorem State.judgedAll_luns {u : State} {n : Nat} {kv : Nat × Lun} (listed : kv ∈ (u.judgedAll n).flash.luns) : ∃ x ∈ u.flash.luns, kv.1 = x.1 := by
  have grown : ∀ (as : List (Nat × Lun)) (a : State), kv ∈ (as.foldl (fun a kv => u.judge n a kv) a).flash.luns →
      kv ∈ a.flash.luns ∨ ∃ x ∈ as, kv.1 = x.1 := by
    intro as
    induction as with
    | nil => exact fun a h => .inl h
    | cons b as ih =>
      intro a h
      rcases ih _ h with held | ⟨x, hx, e⟩
      · exact (u.judge_luns n a b kv held).elim (fun e => .inr ⟨b, List.mem_cons_self, e⟩) .inl
      · exact .inr ⟨x, List.mem_cons_of_mem b hx, e⟩
  rcases grown _ _ listed with held | ⟨x, hx, e⟩
  · exact ⟨kv, held, rfl⟩
  · exact ⟨x, (List.mem_filter.mp hx).1, e⟩

/-! ### What is reported -/

theorem State.rateReported_onlyChanges (s : State) (n : Nat) (d : DieReport) : s.onlyChanges (s.rateReported n d) [.evt] := by
  rw [State.rateReported]
  split
  · exact State.onlyChanges_ite _ (s.raise_onlyChanges _ _ _) (s.onlyChanges_refl _)
  · exact s.onlyChanges_refl _

theorem State.missingReported_onlyChanges (s : State) (n : Nat) (dies : List DieReport) : s.onlyChanges (s.missingReported n dies) [.evt] :=
  State.foldl_onlyChanges _ (fun u _ => u.raise_onlyChanges _ _ _) _ _

theorem State.diesReported_onlyChanges (s : State) (n : Nat) (dies : List DieReport) :
    s.onlyChanges (s.diesReported n dies) [.nv, .ftl, .regs, .evt] := by
  have marked := State.foldl_onlyChanges _ (fun (u : State) d => u.factoryBad_onlyChanges (64 * n + d.die) d) (answering dies) s
  exact State.onlyChanges_then (State.onlyChanges_then marked (State.foldl_onlyChanges _ (fun u d => u.rateReported_onlyChanges n d) _ _) (by decide))
    (State.missingReported_onlyChanges _ n dies) (by decide)

/-- Each of several events that are raised is entered. -/
theorem State.inbox_foldl_raise {α : Type} (number cause : Nat) (subj : α → List Nat) (as : List α) (s : State) :
    (as.foldl (fun (u : State) a => u.raise number cause (subj a)) s).evt.inbox = s.evt.inbox ++ as.map (fun a => ⟨number, cause, subj a, none, 0, s.time⟩) := by
  induction as generalizing s with
  | nil => exact (List.append_nil _).symm
  | cons a as ih => rw [List.foldl_cons, ih, State.raise_inbox, State.raise_time, List.append_assoc, List.map_cons, List.singleton_append]

theorem State.diesReported_missing (s : State) (n : Nat) {dies : List DieReport} {d : DieReport} (listed : d ∈ dies) (silent : d.answers = false)
    (expected : d.die < 64) : ⟨224 + 4 * n, 1, [d.die, 1], none, 0, s.time⟩ ∈ (s.diesReported n dies).evt.inbox := by
  have time : (s.diesReported n dies).time = s.time := s.diesReported_onlyChanges n dies .time (by decide)
  rw [← time, State.diesReported, State.missingReported_onlyChanges _ _ _ .time (by decide), State.missingReported, State.inbox_foldl_raise]
  refine List.mem_append_right _ (List.mem_map.mpr ⟨d, List.mem_filter.mpr ⟨listed, ?_⟩, rfl⟩)
  rw [silent, decide_eq_true expected]
  rfl

/-! ### The channels' status -/

theorem State.chansSet_onlyChanges (s : State) (ns : List Nat) : s.onlyChanges (s.chansSet ns) [.regs] :=
  State.foldl_onlyChanges _ (fun u k => u.chanStatus_onlyChanges k) _ _

theorem FCH_STAT_STATE_key_ne {n k : Nat} (h : n ≠ k) : (FCH_STAT_STATE.chan n).reg.key 0 0 ∉ [(FCH_STAT.chan k).key 0 0] := by
  simp only [RegId.key, RegId.chan, Field.chan, FCH_STAT_STATE, FCH_STAT, List.mem_singleton]
  omega

/-- A channel without a LUN in use that is set has failed. -/
theorem State.chansSet_failed {s : State} {n : Nat} {ns : List Nat} (unused : s.flash.luns.filter (fun kv => kv.1 / 64 = n && kv.2.status = 1) = [])
    (named : n ∈ ns) : (s.chansSet ns).fld (FCH_STAT_STATE.chan n) = 4 := by
  have set : ∀ (ks : List Nat) (u : State), u.flash = s.flash → n ∈ ks ∨ u.fld (FCH_STAT_STATE.chan n) = 4 →
      (ks.foldl (fun (a : State) k => a.chanStatus k) u).fld (FCH_STAT_STATE.chan n) = 4 := by
    intro ks
    induction ks with
    | nil => exact fun u _ h => h.resolve_left List.not_mem_nil
    | cons k ks ih =>
      intro u same h
      refine ih _ ((u.chanStatus_onlyChanges k .flash (by decide)).trans same) ?_
      by_cases e : n = k
      · subst e
        exact .inr (State.chanStatus_failed (by rw [same]; exact unused))
      · refine h.imp (fun h => (List.mem_cons.mp h).resolve_left e) (fun h => ?_)
        rw [State.fld_of_regsBut (u.chanStatus_regsBut k) _ _ _ (FCH_STAT_STATE_key_ne e), h]
  exact set _ s rfl (.inl ((mem_podsOf _ _).mpr named))

theorem State.failureReported_onlyChanges (s : State) (n : Nat) : s.onlyChanges (s.failureReported n) [.evt] :=
  State.onlyChanges_ite _ (s.raise_onlyChanges _ _ _) (s.onlyChanges_refl _)

theorem State.failureReported_inbox (s : State) (n : Nat) {e : Raised} (entered : e ∈ s.evt.inbox) : e ∈ (s.failureReported n).evt.inbox := by
  rw [State.failureReported]
  split
  · exact List.mem_append_left _ entered
  · exact entered

/-! ### FLASH_DISCOVERY_COMPLETE -/

/-- FLASH_DISCOVERY_COMPLETE. -/
theorem flashDiscoveryComplete_completes (present : n < Config.fchCount s.part) (on : s.fld PWR_FPG_STAT_STATE (n / 2) = 2) :
    Completes (.flashDiscoveryComplete n dies) s (fun t =>
      (∀ i l, t.lun i = some l → i / 64 = n → (∃ d ∈ dies, d.answers = true ∧ i = 64 * n + d.die ∧ (d.pageOk = true → l.blocks = d.blocks ∧ l.pages = d.pages))
        ∧ l.judged)
      ∧ ((∀ d ∈ dies, d.answers = false) → t.fld (FCH_STAT_STATE.chan n) = 4
        ∧ ⟨224 + 4 * n, 4, [0, 0], none, 0, s.time⟩ ∈ t.evt.inbox)
      ∧ (∀ d ∈ dies, d.answers = false → d.die < 64 → ⟨224 + 4 * n, 1, [d.die, 1], none, 0, s.time⟩ ∈ t.evt.inbox)
      ∧ s.onlyChanges t [.flash, .ftl, .nv, .regs, .evt, .out]) := by
  let u := s.fresh.diesFound n dies
  let w := (u.judgedAll n).diesReported n dies
  let y := w.chansSet (u.judgeable.map (fun kv => kv.1 / 64) ++ [n])
  have judged := State.onlyChanges_append (s.fresh.diesFound_onlyChanges n dies) (u.judgedAll_onlyChanges n)
  have reported := (u.judgedAll n).diesReported_onlyChanges n dies
  have set : w.onlyChanges y [.regs] := w.chansSet_onlyChanges _
  have failed := y.failureReported_onlyChanges n
  have flash : w.flash = (u.judgedAll n).flash := reported .flash (by decide)
  have time : (u.judgedAll n).time = s.time := judged .time (by decide)
  refine completes_of_done (congrArg (State.done · s) (State.discovered_eq (s := s.fresh) dies present on)) ⟨fun i l found chan => ?_, fun silent => ?_,
    fun d listed silent expected => ?_, ?_⟩
  · rw [State.lun, failed .flash (by decide), set .flash (by decide), flash] at found
    exact State.judgedAll_lun found chan
  · have none : w.flash.luns.filter (fun kv => kv.1 / 64 = n && kv.2.status = 1) = [] := by
      rw [flash, List.filter_eq_nil_iff]
      intro kv listed used
      obtain ⟨x, listed, same⟩ := State.judgedAll_luns listed
      have chan : kv.1 / 64 = n := of_decide_eq_true (Bool.and_eq_true_iff.mp used).1
      obtain ⟨d, listed, answers, _⟩ := (State.diesFound_luns listed (same ▸ chan)).die
      exact absurd (silent d listed) (by rw [answers]; decide)
    have state : y.fld (FCH_STAT_STATE.chan n) = 4 := State.chansSet_failed none (List.mem_append_right _ (List.mem_singleton_self n))
    have now : y.time = s.time := ((set .time (by decide)).trans (reported .time (by decide))).trans time
    have raised : y.failureReported n = y.raise (224 + 4 * n) 4 [0, 0] := if_pos state
    show (y.failureReported n).fld _ = 4 ∧ _ ∈ (y.failureReported n).evt.inbox
    rw [raised, State.raise_fld, State.raise_inbox, now]
    exact ⟨state, List.mem_append_right _ (List.mem_singleton_self _)⟩
  · refine State.failureReported_inbox _ _ ?_
    rw [set .evt (by decide), ← time]
    exact State.diesReported_missing _ _ listed silent expected
  · exact State.onlyChanges_mono (State.onlyChanges_of_fresh (State.onlyChanges_append (State.onlyChanges_append (State.onlyChanges_append judged reported)
      set) failed)) (by decide)

end

end Sys2Proof.Machine
end

section
/-!
SUPPORT. The read-level tracker and the patrol (R160-R171).
-/
namespace Sys2Proof.Machine

/-! ### Advisories (R169) -/

/-- From s to t groups have been advised, and nothing else of the flash part has changed. -/
structure State.Advises (s t : State) : Prop where
  flash : ∃ a, t.flash = { s.flash with advise := a } ∧ ∀ e ∈ s.flash.advise, e ∈ a
  frame : s.onlyChanges t [.flash, .evt]

namespace State.Advises

theorem refl (s : State) : s.Advises s := ⟨⟨_, rfl, fun _ h => h⟩, s.onlyChanges_refl _⟩

theorem trans {s t u : State} (h : s.Advises t) (g : t.Advises u) : s.Advises u := by
  obtain ⟨a, ha, kept⟩ := h.flash
  obtain ⟨b, hb, more⟩ := g.flash
  refine ⟨⟨b, by rw [hb, ha], fun e he => more e ?_⟩, State.onlyChanges_trans h.frame g.frame⟩
  rw [ha]
  exact kept e he

theorem ite {s t u : State} (p : Prop) [Decidable p] (h : s.Advises t) (g : s.Advises u) : s.Advises (if p then t else u) := by
  split
  · exact h
  · exact g

theorem foldl {α : Type} (f : State → α → State) (step : ∀ (s : State) a, s.Advises (f s a)) (as : List α) (s : State) : s.Advises (as.foldl f s) := by
  induction as generalizing s with
  | nil => exact refl s
  | cons a as ih => exact (step s a).trans (ih _)

theorem lun {s t : State} (h : s.Advises t) (i : Nat) : t.lun i = s.lun i := by
  obtain ⟨a, flash, _⟩ := h.flash
  rw [State.lun, flash]
  rfl

theorem mem {s t : State} (h : s.Advises t) {e : Nat × Nat × Nat} (listed : e ∈ s.flash.advise) : e ∈ t.flash.advise := by
  obtain ⟨a, flash, kept⟩ := h.flash
  rw [flash]
  exact kept e listed

end State.Advises

theorem State.raise_advises (s : State) (n c : Nat) (l : List Nat) : s.Advises (s.raise n c l) :=
  ⟨⟨_, rfl, fun _ h => h⟩, State.onlyChanges_mono (s.raise_onlyChanges n c l) (by decide)⟩

theorem State.advise_advises (s : State) (i g c : Nat) : s.Advises (s.advise i g c) := by
  have entered : s.Advises (s.modFlash (fun f => { f with advise := f.advise ++ [(i, g, c)] })) :=
    ⟨⟨_, rfl, fun _ h => List.mem_append_left _ h⟩, State.onlyChanges_mono (s.modFlash_onlyChanges _) (by decide)⟩
  exact .ite _ (.refl s) (entered.trans (State.raise_advises _ _ _ _))

theorem State.mem_advise (s : State) (i g c : Nat) : (i, g, c) ∈ (s.advise i g c).flash.advise := by
  rw [State.advise]
  split
  · next listed => exact List.contains_iff_mem.mp listed
  · exact List.mem_append_right _ (List.mem_singleton_self _)

/-! ### The day of the PATROL averages (R169) -/

/-- A group whose PATROL averages begin anew. -/
def Group.dayBegun (g : Group) : Group := { g with patrolSum := 0, patrolCount := 0 }

/-- A LUN the averages of whose groups begin anew. -/
def Lun.dayBegun (l : Lun) : Lun := { l with groups := Tab.mapVals (fun _ g => g.dayBegun) l.groups }

theorem Lun.group_dayBegun (l : Lun) (k : Nat) : l.dayBegun.group k = (l.group k).dayBegun := by
  rw [Lun.group, Lun.group, Tab.lookD, Tab.lookD, Lun.dayBegun, Tab.look_mapVals]
  cases Tab.look l.groups k with
  | none => rfl
  | some g => rfl

/-- A day of the averages. -/
abbrev dayNs : Nat := 86400000000000

theorem State.refreshDay_early {s : State} (early : s.time < s.flash.dayAt + dayNs) : s.refreshDay = s := if_pos early

theorem State.refreshDay_due {s : State} (due : ¬s.time < s.flash.dayAt + dayNs) : ∃ u : State, s.Advises u
    ∧ s.refreshDay = u.modFlash (fun f => { f with dayAt := u.time, luns := Tab.mapVals (fun _ l => l.dayBegun) f.luns }) :=
  ⟨_, State.Advises.foldl _ (fun _ (kv : Nat × Lun) => State.Advises.foldl _ (fun u (gg : Nat × Group) => State.Advises.ite _ (u.advise_advises kv.1 gg.1 3) (.refl u)) _ _) _ _,
    if_neg due⟩

theorem State.refreshDay_onlyChanges (s : State) : s.onlyChanges s.refreshDay [.flash, .evt] := by
  by_cases early : s.time < s.flash.dayAt + dayNs
  · rw [State.refreshDay_early early]
    exact s.onlyChanges_refl _
  · obtain ⟨u, advises, anew⟩ := State.refreshDay_due early
    rw [anew]
    exact State.onlyChanges_then advises.frame (u.modFlash_onlyChanges _) (by decide)

/-- A LUN after the day's check: its averages have begun anew when the day is over. -/
theorem State.refreshDay_lun {s : State} {i : Nat} {l : Lun} (lun : s.lun i = some l) :
    s.refreshDay.lun i = some (if s.time < s.flash.dayAt + dayNs then l else l.dayBegun) := by
  by_cases early : s.time < s.flash.dayAt + dayNs
  · rw [State.refreshDay_early early, if_pos early, lun]
  · obtain ⟨u, advises, anew⟩ := State.refreshDay_due early
    have held : u.lun i = some l := (advises.lun i).trans lun
    rw [anew, if_neg early, State.lun, show (u.modFlash _).flash.luns = Tab.mapVals (fun _ l => l.dayBegun) u.flash.luns from rfl,
      Tab.look_mapVals, ← State.lun, held, Option.map_some]

/-- The day's check leaves the patrol list and its period as they are. -/
theorem State.refreshDay_patrol (s : State) : s.refreshDay.flash.patrol = s.flash.patrol ∧ s.refreshDay.flash.patrolAt = s.flash.patrolAt := by
  by_cases early : s.time < s.flash.dayAt + dayNs
  · rw [State.refreshDay_early early]
    exact ⟨rfl, rfl⟩
  · obtain ⟨u, advises, anew⟩ := State.refreshDay_due early
    obtain ⟨a, flash, _⟩ := advises.flash
    have patrol : u.flash.patrol = s.flash.patrol := by rw [flash]
    have patrolAt : u.flash.patrolAt = s.flash.patrolAt := by rw [flash]
    rw [anew]
    exact ⟨patrol, patrolAt⟩

/-! ### The tracker (R167) -/

/-- A group with the same average, the same count of frames, and in use as before. -/
def Group.SameReads (g h : Group) : Prop := h.iterAvg = g.iterAvg ∧ h.active = g.active ∧ h.frames = g.frames

theorem Group.dayBegun_sameReads (g : Group) : g.SameReads g.dayBegun := ⟨rfl, rfl, rfl⟩

theorem Group.decide_sameReads (g : Group) (t : Nat) (x : Thresh) (limit hyst offMax : Nat) : g.SameReads (g.decide t x limit hyst offMax).1 := by
  rw [Group.decide]
  split
  · exact ⟨rfl, rfl, rfl⟩
  · exact ⟨rfl, rfl, rfl⟩

/-- In t the group k of LUN i has the reads of g, and what s advised t advises. -/
structure State.Tracked (s t : State) (i k : Nat) (g : Group) : Prop where
  lun : ∃ l, t.lun i = some l ∧ g.SameReads (l.group k)
  advise : ∀ e ∈ s.flash.advise, e ∈ t.flash.advise
  frame : s.onlyChanges t [.flash, .regs, .evt]

theorem State.putGroup_advise (s : State) (i k : Nat) (x : Group) : (s.putGroup i k x).flash.advise = s.flash.advise := by
  rw [State.putGroup]
  split
  · rfl
  · rfl

/-- A frame's statistics move neither the average nor the count of the frames. -/
theorem State.trackStats_tracked {s : State} {i : Nat} {l : Lun} (lun : s.lun i = some l) (op : FlashOp) (f : FrameStat) :
    s.Tracked (s.trackStats i l op f) i op.group (l.group op.group) := by
  have put : ∀ h : Group, (l.group op.group).SameReads h → s.Tracked (s.putGroup i op.group h) i op.group (l.group op.group) := by
    intro h same
    rw [State.putGroup_eq lun]
    exact ⟨⟨_, State.lun_putLun_same _ _ _, by rwa [Lun.group_setGroup_same]⟩, fun _ he => he,
      State.onlyChanges_mono (s.putLun_onlyChanges _ _) (by decide)⟩
  have dithered : ∀ (h : Group) (clamp : Bool) (n : Nat), (l.group op.group).SameReads h →
      s.Tracked (if clamp then ((s.putGroup i op.group h).countS LDP_TRACK_STAT_STEPS LDP_TRACK_STAT_OVF n).advise i op.group 1
        else (s.putGroup i op.group h).countS LDP_TRACK_STAT_STEPS LDP_TRACK_STAT_OVF n) i op.group (l.group op.group) := by
    intro h clamp n same
    have set := put h same
    have counted := (s.putGroup i op.group h).countS_onlyChanges LDP_TRACK_STAT_STEPS LDP_TRACK_STAT_OVF n 0 0
    have flash := counted .flash (by decide)
    have advises : State.Advises _ (if clamp then ((s.putGroup i op.group h).countS LDP_TRACK_STAT_STEPS LDP_TRACK_STAT_OVF n).advise i op.group 1
        else (s.putGroup i op.group h).countS LDP_TRACK_STAT_STEPS LDP_TRACK_STAT_OVF n) := .ite _ (State.advise_advises _ _ _ _) (.refl _)
    obtain ⟨l', found, reads⟩ := set.lun
    refine ⟨⟨l', ?_, reads⟩, fun e he => advises.mem ?_, State.onlyChanges_then (State.onlyChanges_then set.frame counted (by decide))
      advises.frame (by decide)⟩
    · rw [advises.lun, State.lun, flash]
      exact found
    · rw [flash]
      exact set.advise e he
  rw [State.trackStats]
  split
  · exact ⟨⟨l, lun, rfl, rfl, rfl⟩, fun _ he => he, s.onlyChanges_refl _⟩
  · split
    · exact put _ ⟨rfl, rfl, rfl⟩
    · exact dithered _ _ _ (Group.decide_sameReads _ _ _ _ _ _)

/-- The group after a frame's attempt of that many iterations. -/
def Group.attempted (g : Group) (op : FlashOp) (f : FrameStat) (it : Nat) : Group :=
  let g := { g with iterAvg := avg64 g.iterAvg it, frames := g.frames + b2n (f.step = 0) }
  if bit op.flags 2 then { g with patrolSum := g.patrolSum + it, patrolCount := g.patrolCount + 1 } else g

theorem Group.attempted_reads (g : Group) (op : FlashOp) (f : FrameStat) (it : Nat) : (g.attempted op f it).iterAvg = avg64 g.iterAvg it
    ∧ (g.attempted op f it).active = g.active ∧ (g.attempted op f it).frames = g.frames + b2n (f.step = 0) := by
  rw [Group.attempted]
  split
  · exact ⟨rfl, rfl, rfl⟩
  · exact ⟨rfl, rfl, rfl⟩

/-- Average and frames of a group after an attempt are noted, and a group above the limit is advised. -/
def State.attemptNoted (s : State) (i k : Nat) (g : Group) (trip : Bool) : State :=
  let s := s.putGroup i k g
  let s := if trip then s.raise (227 + 4 * (i / 64)) 4 [i % 64, k] else s
  if ((s.fld LDP_TRACK_LIM_ITER_SWEEP * 256 : Nat) : Int) < g.iterAvg then s.advise i k 2 else s

/-- A frame that was read at step 0 or 1 gives its statistics. -/
def State.statsNoted (s : State) (i : Nat) (op : FlashOp) (f : FrameStat) (ok : Bool) : State :=
  match ok ∧ f.step ≤ 1, s.lun i with
  | _, none => s
  | _, some l => if ok ∧ f.step ≤ 1 then s.trackStats i l op f else s

theorem State.trackFrame_eq {s : State} (i : Nat) {l : Lun} {op : FlashOp} {f : FrameStat} (ok : Bool) (live : 64 ≤ f.zeros)
    (active : (l.group op.group).active = true) : ∃ (a b : Nat) (c trip : Bool), s.trackFrame i l op f ok =
      (s.attemptNoted i op.group { (l.group op.group).attempted op f (s.frameIters f ok) with
        dithered := a, dithFails := b, suspended := c } trip).statsNoted i op f ok := by
  have written : erasedFrame f = false := Bool.eq_false_iff.mpr (fun h => absurd (Nat.blt_eq.mp h) (Nat.not_lt.mpr live))
  have read : ¬(erasedFrame f = true ∨ (!(l.group op.group).active) = true) := by
    rw [written, active]
    decide
  unfold State.trackFrame
  extract_lets k g it g1 g2 dith d n trip low g3 s1 s2 s3
  rw [if_neg read]
  exact ⟨g3.dithered, g3.dithFails, g3.suspended, trip, rfl⟩

theorem State.attemptNoted_tracked {s : State} {i : Nat} {l : Lun} (lun : s.lun i = some l) (k : Nat) (g : Group) (trip : Bool) :
    (s.attemptNoted i k g trip).lun i = some (l.setGroup k g) ∧ (∀ e ∈ s.flash.advise, e ∈ (s.attemptNoted i k g trip).flash.advise)
    ∧ (((s.fld LDP_TRACK_LIM_ITER_SWEEP * 256 : Nat) : Int) < g.iterAvg → (i, k, 2) ∈ (s.attemptNoted i k g trip).flash.advise)
    ∧ s.onlyChanges (s.attemptNoted i k g trip) [.flash, .evt] := by
  let u := s.putLun i (l.setGroup k g)
  let v := if trip then u.raise (227 + 4 * (i / 64)) 4 [i % 64, k] else u
  let w := if ((v.fld LDP_TRACK_LIM_ITER_SWEEP * 256 : Nat) : Int) < g.iterAvg then v.advise i k 2 else v
  have raised : u.Advises v := .ite _ (u.raise_advises _ _ _) (.refl u)
  have advised : v.Advises w := .ite _ (v.advise_advises _ _ _) (.refl v)
  have noted : s.attemptNoted i k g trip = w := by rw [State.attemptNoted, State.putGroup_eq lun]
  have limit : v.fld LDP_TRACK_LIM_ITER_SWEEP = s.fld LDP_TRACK_LIM_ITER_SWEEP :=
    State.fld_congr u v (raised.frame .regs (by decide)) (raised.frame .part (by decide)) _ _ _
  rw [noted]
  refine ⟨?_, fun e listed => (raised.trans advised).mem listed, fun above => ?_, State.onlyChanges_then (State.onlyChanges_mono
    (s.putLun_onlyChanges _ _) (by decide)) (raised.trans advised).frame (fun _ h => h)⟩
  · rw [(raised.trans advised).lun, State.lun_putLun_same]
  · rw [← limit] at above
    show _ ∈ (if _ then _ else _ : State).flash.advise
    rw [if_pos above]
    exact v.mem_advise i k 2

theorem State.statsNoted_tracked {s : State} {i : Nat} {l : Lun} (lun : s.lun i = some l) (op : FlashOp) (f : FrameStat) (ok : Bool) :
    s.Tracked (s.statsNoted i op f ok) i op.group (l.group op.group) := by
  rw [State.statsNoted, lun]
  show s.Tracked (if _ then _ else _) i op.group (l.group op.group)
  split
  · exact State.trackStats_tracked lun op f
  · exact ⟨⟨l, lun, rfl, rfl, rfl⟩, fun _ he => he, s.onlyChanges_refl _⟩

/-- A frame of a READ moves its group's average, counts when it was read at step 0, and a group above the limit is advised. -/
theorem State.trackFrame_tracked {s : State} {i : Nat} {l : Lun} (lun : s.lun i = some l) {op : FlashOp} {f : FrameStat} (ok : Bool)
    (live : 64 ≤ f.zeros) (active : (l.group op.group).active = true) :
    let avg := avg64 (l.group op.group).iterAvg (s.frameIters f ok)
    (∃ l', (s.trackFrame i l op f ok).lun i = some l' ∧ (l'.group op.group).iterAvg = avg ∧ (l'.group op.group).active = true
      ∧ (l'.group op.group).frames = (l.group op.group).frames + b2n (f.step = 0))
    ∧ (((s.fld LDP_TRACK_LIM_ITER_SWEEP * 256 : Nat) : Int) < avg → (i, op.group, 2) ∈ (s.trackFrame i l op f ok).flash.advise)
    ∧ s.onlyChanges (s.trackFrame i l op f ok) [.flash, .regs, .evt] := by
  obtain ⟨a, b, c, trip, ends⟩ := State.trackFrame_eq (s := s) i ok live active
  obtain ⟨average, used, frames⟩ := (l.group op.group).attempted_reads op f (s.frameIters f ok)
  let g : Group := { (l.group op.group).attempted op f (s.frameIters f ok) with dithered := a, dithFails := b, suspended := c }
  obtain ⟨held, _, advised, frame⟩ := State.attemptNoted_tracked lun op.group g trip
  obtain ⟨⟨l', found, iterAvg, inUse, count⟩, kept, stats⟩ := State.statsNoted_tracked held op f ok
  rw [Lun.group_setGroup_same] at iterAvg inUse count
  rw [ends]
  exact ⟨⟨l', found, iterAvg.trans average, (inUse.trans used).trans active, count.trans frames⟩,
    fun above => kept _ (advised (average.symm ▸ above)), State.onlyChanges_mono (State.onlyChanges_append frame stats) (by decide)⟩

/-! ### LDPC_FRAME_DECODE -/

/-- The step a frame ended at follows from the retry sets. -/
theorem State.stepOf_congr {s t : State} (regs : t.regs = s.regs) (part : t.part = s.part) (o : FlashOp) (f : FrameStat) :
    t.stepOf o f = s.stepOf o f := by
  have reg : ∀ (d : RegId) (j k : Nat), t.reg d j k = s.reg d j k := fun d j k => State.getReg_congr s t regs part _
  have sets : t.retrySet = s.retrySet := funext fun k => congrArg ((List.range 4).any ·) (funext fun w => by rw [reg])
  have used : t.retryUsed f = s.retryUsed f := by rw [State.retryUsed, State.retryUsed, sets]
  rw [State.stepOf, State.stepOf, used]

/-- LDPC_FRAME_DECODE of a frame of a READ. -/
theorem ldpcFrameDecode_completes {s : State} {i : Nat} {l : Lun} {o : FlashOp} {f : FrameStat} (ok : Bool) (lun : s.lun i = some l)
    (run : l.running = some o) (op : o.op = 1) (live : 64 ≤ f.zeros) (active : (l.group o.group).active = true) :
    let avg := avg64 (l.group o.group).iterAvg (s.frameIters { f with step := s.stepOf o f } ok)
    Completes (.ldpcFrameDecode i f ok) s (fun t =>
      (∃ l', t.lun i = some l' ∧ (l'.group o.group).iterAvg = avg ∧ (l'.group o.group).active = true
        ∧ (l'.group o.group).frames = (l.group o.group).frames + b2n (s.stepOf o f = 0))
      ∧ (((s.fld LDP_TRACK_LIM_ITER_SWEEP * 256 : Nat) : Int) < avg → (i, o.group, 2) ∈ t.flash.advise)
      ∧ s.onlyChanges t [.flash, .regs, .evt, .out]) := by
  let u := s.fresh.refreshDay
  have day : s.fresh.onlyChanges u [.flash, .evt] := s.fresh.refreshDay_onlyChanges
  obtain ⟨l₁, found, running, reads⟩ : ∃ l₁, u.lun i = some l₁ ∧ l₁.running = l.running ∧ (l.group o.group).SameReads (l₁.group o.group) := by
    have found : u.lun i = _ := State.refreshDay_lun (s := s.fresh) lun
    split at found
    · exact ⟨l, found, rfl, rfl, rfl, rfl⟩
    · exact ⟨l.dayBegun, found, rfl, by rw [Lun.group_dayBegun]; exact Group.dayBegun_sameReads _⟩
  obtain ⟨iterAvg, inUse, count⟩ := reads
  have fld : ∀ g : Field, u.fld g = s.fld g := fun g => State.fld_congr s.fresh u (day .regs (by decide)) (day .part (by decide)) g 0 0
  have step : u.stepOf o f = s.stepOf o f := State.stepOf_congr (s := s.fresh) (day .regs (by decide)) (day .part (by decide)) o f
  have iters : ∀ f : FrameStat, u.frameIters f ok = s.frameIters f ok := fun f => by simp only [State.frameIters, fld]
  have ends : exec (.ldpcFrameDecode i f ok) s = (u.trackFrame i l₁ o { f with step := s.stepOf o f } ok).done s := by
    show execLdpcFrameDecode i f ok s = _
    simp only [execLdpcFrameDecode]
    rw [show s.fresh.refreshDay.lun i = some l₁ from found]
    simp only [running, run, op, if_true]
    rw [← step]
  obtain ⟨group, advised, frame⟩ := State.trackFrame_tracked found (op := o) (f := { f with step := s.stepOf o f }) ok live (inUse.trans active)
  rw [iterAvg, iters, count] at group
  rw [iterAvg, iters, fld] at advised
  exact completes_of_done ends ⟨group, advised, State.onlyChanges_mono (State.onlyChanges_of_fresh (State.onlyChanges_append day frame)) (by decide)⟩

/-! ### Patrol (R171) -/

/-- From s to t groups have been patrolled: entries only join the patrol list, and a count of frames that is 0 stays 0. -/
structure State.Patrols (s t : State) : Prop where
  frame : s.onlyChanges t [.flash]
  patrolAt : t.flash.patrolAt = s.flash.patrolAt
  dayAt : t.flash.dayAt = s.flash.dayAt
  patrol : ∀ e ∈ s.flash.patrol, e ∈ t.flash.patrol
  luns : ∀ i l, s.lun i = some l → ∃ l', t.lun i = some l' ∧ ∀ k, (l.group k).frames = 0 → (l'.group k).frames = 0

namespace State.Patrols

theorem refl (s : State) : s.Patrols s := ⟨s.onlyChanges_refl _, rfl, rfl, fun _ h => h, fun _ l h => ⟨l, h, fun _ h => h⟩⟩

theorem trans {s t u : State} (h : s.Patrols t) (g : t.Patrols u) : s.Patrols u where
  frame := State.onlyChanges_trans h.frame g.frame
  patrolAt := g.patrolAt.trans h.patrolAt
  dayAt := g.dayAt.trans h.dayAt
  patrol := fun e he => g.patrol e (h.patrol e he)
  luns := fun i l found => by
    obtain ⟨l₁, found, kept⟩ := h.luns i l found
    obtain ⟨l₂, found, more⟩ := g.luns i l₁ found
    exact ⟨l₂, found, fun k zero => more k (kept k zero)⟩

theorem foldl {α : Type} {f : State → α → State} (step : ∀ (u : State) a, u.Patrols (f u a)) (as : List α) (s : State) : s.Patrols (as.foldl f s) := by
  induction as generalizing s with
  | nil => exact refl s
  | cons a as ih => exact (step s a).trans (ih _)

/-- A fold takes the step of each of its elements, from a state that it has come to. -/
theorem foldl_takes {α : Type} {f : State → α → State} (step : ∀ (u : State) a, u.Patrols (f u a)) {as : List α} {a : α} (listed : a ∈ as) (s : State) :
    ∃ u, s.Patrols u ∧ (f u a).Patrols (as.foldl f s) := by
  obtain ⟨front, back, rfl⟩ := List.append_of_mem listed
  rw [List.foldl_append, List.foldl_cons]
  exact ⟨_, foldl step front s, foldl step back _⟩

end State.Patrols

/-- A group with no frames counted. -/
def Group.uncounted (g : Group) : Group := { g with frames := 0 }

/-- A group read too little enters the patrol list. -/
def State.patrolEntered (s : State) (i : Nat) (gg : Nat × Group) : State :=
  if gg.2.frames < s.fld LDP_PATROL_CFG_MIN_FRAMES ∧ !s.flash.patrol.contains (i, gg.1) then
    s.modFlash (fun f => { f with patrol := f.patrol ++ [(i, gg.1)] })
  else s

/-- The end of a patrol period for a group in use. -/
def State.groupPatrolled (s : State) (i : Nat) (gg : Nat × Group) : State :=
  if !gg.2.active then s else (s.patrolEntered i gg).putGroup i gg.1 gg.2.uncounted

/-- The end of a patrol period for a LUN in use. -/
def State.lunPatrolled (s : State) (kv : Nat × Lun) : State :=
  if kv.2.status ≠ 1 then s else kv.2.groups.foldl (fun (s : State) gg => s.groupPatrolled kv.1 gg) s

theorem State.patrolEnd_eq (s : State) : s.patrolEnd = s.flash.luns.foldl (fun (s : State) kv => s.lunPatrolled kv) s := rfl

theorem State.patrolEntered_patrols (s : State) (i : Nat) (gg : Nat × Group) : s.Patrols (s.patrolEntered i gg) := by
  rw [State.patrolEntered]
  split
  · exact ⟨s.modFlash_onlyChanges _, rfl, rfl, fun _ h => List.mem_append_left _ h, fun _ l h => ⟨l, h, fun _ h => h⟩⟩
  · exact .refl s

theorem State.putGroup_patrols (s : State) (i k : Nat) (g : Group) : s.Patrols (s.putGroup i k g.uncounted) := by
  cases lun : s.lun i with
  | none =>
    rw [State.putGroup, lun]
    exact .refl s
  | some l =>
    rw [State.putGroup_eq lun]
    refine ⟨s.putLun_onlyChanges _ _, rfl, rfl, fun _ h => h, fun j x found => ?_⟩
    by_cases other : j = i
    · subst other
      obtain rfl : l = x := Option.some.inj (lun.symm.trans found)
      refine ⟨_, State.lun_putLun_same _ _ _, fun m zero => ?_⟩
      by_cases same : m = k
      · subst same
        rw [Lun.group_setGroup_same]
        rfl
      · rw [Lun.group_setGroup_other _ _ same, zero]
    · exact ⟨x, (State.lun_putLun_other _ _ other).trans found, fun _ h => h⟩

theorem State.groupPatrolled_patrols (s : State) (i : Nat) (gg : Nat × Group) : s.Patrols (s.groupPatrolled i gg) := by
  rw [State.groupPatrolled]
  split
  · exact .refl s
  · exact (s.patrolEntered_patrols i gg).trans (State.putGroup_patrols _ _ _ _)

theorem State.lunPatrolled_patrols (s : State) (kv : Nat × Lun) : s.Patrols (s.lunPatrolled kv) := by
  rw [State.lunPatrolled]
  split
  · exact .refl s
  · exact .foldl (fun u gg => u.groupPatrolled_patrols kv.1 gg) _ _

/-- What a patrol period's end makes of a group: its count begins anew, and it is in the patrol list when it was read too little. -/
structure State.PatrolledTo (t : State) (i k : Nat) (low : Prop) : Prop where
  lun : ∃ l, t.lun i = some l ∧ (l.group k).frames = 0
  listed : low → (i, k) ∈ t.flash.patrol

theorem State.PatrolledTo.kept {s t : State} {i k : Nat} {low : Prop} (h : s.PatrolledTo i k low) (g : s.Patrols t) : t.PatrolledTo i k low := by
  obtain ⟨l, found, zero⟩ := h.lun
  obtain ⟨l', found, kept⟩ := g.luns i l found
  exact ⟨⟨l', found, kept k zero⟩, fun holds => g.patrol _ (h.listed holds)⟩

theorem State.groupPatrolled_patrolledTo {s : State} {i : Nat} {l : Lun} (lun : s.lun i = some l) {gg : Nat × Group} (active : gg.2.active = true) :
    (s.groupPatrolled i gg).PatrolledTo i gg.1 (gg.2.frames < s.fld LDP_PATROL_CFG_MIN_FRAMES) := by
  obtain ⟨l', found, _⟩ := (s.patrolEntered_patrols i gg).luns i l lun
  rw [State.groupPatrolled, active, if_neg (by decide), State.putGroup_eq found]
  refine ⟨⟨_, State.lun_putLun_same _ _ _, by rw [Lun.group_setGroup_same]; rfl⟩, fun low => ?_⟩
  show _ ∈ (s.patrolEntered i gg).flash.patrol
  rw [State.patrolEntered]
  split
  · exact List.mem_append_right _ (List.mem_singleton_self _)
  · next out => simpa [low] using out

theorem State.patrolEnd_patrolledTo {s : State} {i : Nat} {l : Lun} (lun : s.lun i = some l) (used : l.status = 1) {k : Nat} {g : Group}
    (held : Tab.look l.groups k = some g) (active : g.active = true) :
    s.patrolEnd.PatrolledTo i k (g.frames < s.fld LDP_PATROL_CFG_MIN_FRAMES) := by
  obtain ⟨u, before, after⟩ := State.Patrols.foldl_takes (fun (u : State) kv => u.lunPatrolled_patrols kv) (Tab.mem_of_look lun) s
  obtain ⟨v, within, rest⟩ := State.Patrols.foldl_takes (fun (u : State) gg => u.groupPatrolled_patrols i gg) (Tab.mem_of_look held) u
  have came := before.trans within
  obtain ⟨l', found, _⟩ := came.luns i l lun
  have limit : v.fld LDP_PATROL_CFG_MIN_FRAMES = s.fld LDP_PATROL_CFG_MIN_FRAMES :=
    State.fld_congr s v (came.frame .regs (by decide)) (came.frame .part (by decide)) _ _ _
  have patrolled := State.groupPatrolled_patrolledTo found (gg := (k, g)) active
  rw [limit] at patrolled
  rw [State.lunPatrolled, if_neg (not_not.mpr used)] at after
  exact (patrolled.kept rest).kept after

theorem State.patrolEnd_patrols (s : State) : s.Patrols s.patrolEnd := .foldl (fun u kv => u.lunPatrolled_patrols kv) _ _

/-! ### PATROL_PERIOD -/

/-- The state in which a patrol period ends. -/
def State.patrolDue (s : State) : State :=
  let u := s.notBefore (s.flash.patrolAt + s.fld LDP_PATROL_CFG_PERIOD_H * 3600000000000)
  u.modFlash (fun f => { f with patrolAt := u.time })

theorem State.patrolDue_onlyChanges (s : State) : s.onlyChanges s.patrolDue [.time, .flash] :=
  State.onlyChanges_append (s.notBefore_onlyChanges _) (State.modFlash_onlyChanges _ _)

/-- PATROL_PERIOD. -/
theorem patrolPeriod_completes (s : State) : Completes .patrolPeriod s (fun t =>
    t.time = max s.time (s.flash.patrolAt + s.fld LDP_PATROL_CFG_PERIOD_H * 3600000000000) ∧ t.flash.patrolAt = t.time ∧
    (∀ i l k g, s.lun i = some l → l.status = 1 → Tab.look l.groups k = some g → g.active = true →
      (g.frames < s.fld LDP_PATROL_CFG_MIN_FRAMES → (i, k) ∈ t.flash.patrol)
      ∧ (∃ l', t.lun i = some l' ∧ (l'.group k).frames = 0
        ∧ (s.flash.dayAt + dayNs ≤ t.time → (l'.group k).patrolSum = 0 ∧ (l'.group k).patrolCount = 0)))
    ∧ s.onlyChanges t [.flash, .time, .evt, .out]) := by
  let u := s.fresh.patrolDue
  have patrols : u.Patrols u.patrolEnd := u.patrolEnd_patrols
  have day := u.patrolEnd.refreshDay_onlyChanges
  have time : u.patrolEnd.refreshDay.time = u.patrolEnd.time := day .time (by decide)
  have since : u.patrolEnd.time = u.time := patrols.frame .time (by decide)
  have dayAt : u.patrolEnd.flash.dayAt = s.flash.dayAt := patrols.dayAt
  obtain ⟨patrol, patrolAt⟩ := u.patrolEnd.refreshDay_patrol
  refine ⟨u.patrolEnd.refreshDay, rfl, time.trans since, ?_, fun i l k g lun used held active => ?_, ?_⟩
  · rw [patrolAt, patrols.patrolAt, time, since]
    rfl
  · obtain ⟨⟨l', found, zero⟩, listed⟩ := State.patrolEnd_patrolledTo (s := u) lun used held active
    refine ⟨fun low => patrol ▸ listed low, _, State.refreshDay_lun found, ?_⟩
    rw [dayAt, time]
    split
    · next early => exact ⟨zero, fun due => absurd early (Nat.not_lt.mpr due)⟩
    · rw [Lun.group_dayBegun]
      exact ⟨zero, fun _ => ⟨rfl, rfl⟩⟩
  · exact State.onlyChanges_mono (State.onlyChanges_of_fresh (State.onlyChanges_append (State.onlyChanges_append s.fresh.patrolDue_onlyChanges
      patrols.frame) day)) (by decide)

/-! ### The obligation -/

/-- Settles O19: each command's own theorem gives its clause. -/
theorem discoveryTrackingAndGroupCommandsComplete : Obligations.DiscoveryTrackingAndGroupCommandsComplete := by
  unfold Obligations.DiscoveryTrackingAndGroupCommandsComplete
  refine ⟨fun s n dies => flashDiscoveryComplete_completes, fun s i l tempC lun used => ?_, fun s i l o f ok => ldpcFrameDecode_completes ok,
    patrolPeriod_completes, fun s r => ⟨ldpPatrolNextRead_acks, ldpAdviseNextRead_acks⟩, fun s r w l granted => ?_⟩
  · exact ⟨dieRetrainPeriodic_trained tempC lun used, dieRetrainPeriodic_failed tempC lun used⟩
  · intro n i k src lun present on
    exact ⟨grpCreate_acks granted lun present on, grpCreate_acks_active granted lun present on, grpCopy_acks granted lun present on,
      grpFree_acks granted lun present on, grpRead_acks granted lun present on, grpWrite_acks granted lun present on⟩

end Sys2Proof.Machine
end
